-- ==== Sys2Proof/Word.lean ====
section
/-! DEFINITION. The word types of the TLF-816 and their plainest arithmetic (R3, R8), and the types of operands that are more
than a word. -/

namespace Sys2Proof

/-- A byte. -/
abbrev Byte := BitVec 8

/-- A 32-bit word: a gecko register, an FP32 number, a CRC-32C context. -/
abbrev W32 := BitVec 32

/-- A 64-bit word: a register, a device address. -/
abbrev Word := BitVec 64

/-- Bits hi:lo of a number, as the manual writes them. -/
def bits (w hi lo : Nat) : Nat := (w >>> lo) % 2 ^ (hi + 1 - lo)

/-- `w` with bits hi:lo replaced by the low bits of `v`. -/
def setBits (w hi lo v : Nat) : Nat :=
  w - (bits w hi lo) <<< lo + (v % 2 ^ (hi + 1 - lo)) <<< lo

/-- The number `a` rounded down to a multiple of `n`. -/
def alignDown (a n : Nat) : Nat := a - a % n

/-- Division rounded up. -/
def ceilDiv (a n : Nat) : Nat := (a + n - 1) / n

/-! ## Operands that are more than a word -/

/-- Symbols of a code group that a read finds in error: the symbol, 0 to 131, and what it differs by (R195). -/
abbrev Syms := List (Fin 132 × Byte)

/-- Symbols in error in several groups, each named by the device address of a byte of it. -/
abbrev Errs := List (Nat × Syms)

/-- What an operation shows of its LUN (R230): it answers, or it has stopped answering, alone or with its whole channel. -/
inductive Silence where
  | none | lun | channel
  deriving DecidableEq, Repr

/-- What a read on the NAND shows beside its error class: a header on the way that named another unit (R229), and whether
its LUN answers. -/
structure NandShown where
  mismatch : Bool
  silent : Silence
  deriving DecidableEq, Repr

/-- What the parts on the board differ in (R217, R218, R220). -/
structure Chips where
  /-- Channels where another geometry was found. -/
  odd : List (Fin 16)
  /-- The highest NV-LPDDR4 rate of the parts of each channel, in MT/s; nothing where they have none. -/
  rates : List (Fin 16 × Nat)
  /-- Blocks marked bad, by bits 31:10 of their unit addresses (Table 11-3). -/
  bad : List (Fin 4194304)
  deriving DecidableEq, Repr

/-- The NAND of the board as its parameter pages and its makers' marks show it. -/
structure Nand where
  /-- The geometry found, in the fields of FLT_GEOM. -/
  geom : Word
  chips : Chips
  deriving DecidableEq, Repr

/-- A request to the prefix directory, and the entries whose shadow shows an uncorrectable error when it is read (R83). -/
structure PdirReq where
  payload : List Byte
  ue : List Nat
  deriving DecidableEq, Repr

/-- A gecko's write of part of a group: its displacement, and the symbols the read half finds in error (R196). -/
structure Rewrite where
  imm : BitVec 14
  errs : Syms
  deriving DecidableEq, Repr

/-- How the retraining of a channel ends, and for how long its gecko stalls (R199, R216). -/
structure Retraining where
  ok : Bool
  stallNs : Nat
  deriving DecidableEq, Repr

end Sys2Proof
end

