-- ==== Sys2Proof/Syntax.lean ====
section
/-! DEFINITION. The commands the block takes: spec/opcode_table.json, one constructor per row, with its operands.

A command that is a store to a register carries the 64-bit value stored (`v`) and, for an array of registers, the index.
A command that is a message received carries the conduit it came on, its message number MSGSEQ and its payload as bytes.
A command that is an event inside the block names the object it befalls; what physics decides (an error seen, a reading)
is an operand. -/

namespace Sys2Proof

/-- A conduit index (Table 12-7). -/
abbrev Conduit := Fin 65536

/-- The commands of the TLF-816, one constructor for each row of spec/opcode_table.json. -/
inductive Instr where
  /-- REGISTER_WRITE (R6): An aligned 64-bit store to a CSR with no row of its own updates the field under its access code, including W1C clears and clamped or treated values. -/
  | registerWrite (addr : W32) (v : Word)
  /-- CSR_MISALIGNED_ACCESS (R4): A narrower or misaligned access to the CSR window writes nothing, returns zero and raises an access fault to the issuing core. -/
  | csrMisalignedAccess (core : Fin 16) (addr : W32) (width : Nat) (store : Bool)
  /-- RC_COUNTER_READ (R6): A read of an RC register returns its value and clears it to zero in one indivisible step. -/
  | rcCounterRead (addr : W32)
  /-- APPEND (R49): An APPEND is checked as a whole and then applied to the layer's tadpoles, or refused with FORMAT, ALREADY_DONE, BOUNDS or QUOTA. -/
  | append (c : Conduit) (q : W32) (p : List Byte)
  /-- SEAL (R59): SEAL closes a sequence, sealing every tadpole at its current VALID and setting CLOSED. -/
  | sealSeq (c : Conduit) (q : W32) (p : List Byte)
  /-- FORK (R55): FORK creates a child sequence, copying the partial page and taking references to every page below the fork point. -/
  | fork (c : Conduit) (q : W32) (p : List Byte)
  /-- TRUNCATE (R58): TRUNCATE shortens every layer to T, dereferencing pages above it and copying or trimming the page at T − 1. -/
  | truncate (c : Conduit) (q : W32) (p : List Byte)
  /-- PURGE_REGISTER (R81): A TRUNCATE below KEYED registers a purge in the 64-entry filter, waiting for a free entry if the filter is full. -/
  | purgeRegister (idx : Nat)
  /-- FREE (R60): FREE sets the sequence FREEING, commits at MIRROR_ACK and then drops every reference the sequence holds. -/
  | free (c : Conduit) (q : W32) (p : List Byte)
  /-- PAGE_SEAL (R52): A full or closed tadpole starts sealing once a pool check-value unit is free, and the unit computes its CRC-32C. -/
  | pageSeal (desc : Nat)
  /-- SEAL_CRC_DONE (R52): The seal CRC completes: the descriptor becomes SEALED with its CRC, a digest job is queued and prefix keys are formed, unless the seal is abandoned. -/
  | sealCrcDone (desc : Nat)
  /-- COLD_CONVERSION (R43): An idle sequence whose sealed pages all lie in FLASH has its page-table image written to flash and becomes a stub. -/
  | coldConversion (idx : Nat)
  /-- THAW (R44): A request on a COLD sequence sets THAWING and reads the page-table image back, from the twin if its CRC-64 fails. -/
  | thaw (idx : Nat)
  /-- THAW_DONE (R44): The image read completes and the sequence becomes ACTIVE, or all waiting requests complete POISONED. -/
  | thawDone (idx : Nat) (answered : Bool) (twin : List Byte)
  /-- PGT_EPOCH_ADVANCE (R62): Every EPOCH_PERIOD microseconds the PGT epoch advances, after all earlier dereferences are visible. -/
  | pgtEpochAdvance
  /-- PAGE_RECLAIM (R61): A page whose REFCNT reached zero is reclaimed once no holder's epoch is at or before its FREE_EPOCH. -/
  | pageReclaim (desc : Nat)
  /-- CVU_GO (R54): Setting CVU_CTL.GO on an idle software unit starts a CRC job. -/
  | cvuGo (u : Fin 16) (v : Word)
  /-- CVU_CTX_WRITE (R54): A CVU_CTX write sets the running context, or is ignored and sets CTX_BUSY while a job runs. -/
  | cvuCtxWrite (u : Fin 16) (v : Word)
  /-- CVU_JOB_DONE (R54): A check-value job ends, setting CVU_RESULT and DONE, or stops with ERR. -/
  | cvuJobDone (u : Fin 16) (errAt : Option Nat)
  /-- CLASS_DEFINE (R41): A write to PGT_CLASS_DEF0 with VALID 1 checks the class and accepts it or sets CLASS_FORMAT or CLASS_BUSY. -/
  | classDefine (v : Word)
  /-- CLASS_DEF1_WRITE (R41): A write to PGT_CLASS_DEF1 sets sizes and flags and clears VALID of a class with no sequences. -/
  | classDef1Write (v : Word)
  /-- DESC_SNAPSHOT (R45): Writing PGT_DESC_SEL takes a snapshot of the descriptor into PGT_DESC_DATA0–3. -/
  | descSnapshot (v : Word)
  /-- LOOKUP (R73): LOOKUP probes prompt keys from the highest position downward and returns the first valid matching entry. -/
  | lookup (c : Conduit) (q : W32) (p : PdirReq)
  /-- LOOKUP_NEXT (R75): A LOOKUP with NEXT continues from the cursor's entry at the next higher way. -/
  | lookupNext (c : Conduit) (q : W32) (p : PdirReq)
  /-- ADOPT_FORK (R77): A FORK with ADOPT re-reads and validates the cursor's entry, then forks the donor at the adoption point. -/
  | adoptFork (c : Conduit) (q : W32) (p : PdirReq)
  /-- AGE_DECREMENT (R80): Every AGE_PERIOD milliseconds the walker decrements every non-zero entry AGE. -/
  | ageDecrement
  /-- PDIR_SCRUB_PASS (R83): Once per PDIR_SCRUB_MS the walker compares every on-chip entry with its shadow and removes mismatches. -/
  | pdirScrubPass (ue : List Nat)
  /-- PURGE_PASS_DONE (R81): The walker finishes a purge pass over every set and frees the filter entry. -/
  | purgePassDone (k : Fin 64)
  /-- PDIR_DISABLE (R74): Clearing PDIR_CTL.ENABLE invalidates every entry in both copies. -/
  | pdirDisable (v : Word)
  /-- PDIR_ENABLE (R74): Setting PDIR_CTL.ENABLE starts insertion and lookup, and is ignored while the shadow base is 0. -/
  | pdirEnable (v : Word)
  /-- QUERY (R89): A QUERY is checked at admission and either rejected or admitted as a stream that captures its epoch and length. -/
  | query (c : Conduit) (q : W32) (p : List Byte)
  /-- BATCH_QUERY (R91): A BATCH_QUERY is checked as a whole and per entry, and each passing entry becomes a stream. -/
  | batchQuery (c : Conduit) (q : W32) (p : List Byte)
  /-- SUBQUERY (R122): A lender admits a SUBQUERY against its lent extents and CLASSDEF and always answers with one PARTIAL. -/
  | subquery (c : Conduit) (q : W32) (p : List Byte)
  /-- WINDOW_SPLIT (R101): The dispatcher scans the layer's page table, lists live units by tier and splits a window into work items. -/
  | windowSplit (st : Nat)
  /-- WORK_ITEM_DISPATCH (R103): A waiting work item goes to the eligible engine with the fewest waiting items once one has room. -/
  | workItemDispatch (st : Nat)
  /-- ENGINE_UNIT_END (R85): An engine finishes one unit and takes the next unit, parks, or ends its work item or row tile. -/
  | engineUnitEnd (e : Fin 80) (ce : Nat) (errs : Errs)
  /-- LOCK_WAIT_EXPIRE (R212): A main-die read held on a LOCK range exceeds its wait limit and receives BUSY. -/
  | lockWaitExpire (e : Fin 96)
  /-- ENGINE_SRAM_UE (R110): An uncorrectable SRAM error abandons the running item, which is dispatched again from the start. -/
  | engineSramUe (e : Fin 80)
  /-- STREAM_TIMEOUT (R111): A stream whose DEADLINE passes completes with TIMEOUT and releases its epoch. -/
  | streamTimeout (st : Nat)
  /-- ABORT (R363): An ABORT of a request on its conduit ends a held or running query, or is answered ALREADY_DONE. -/
  | abort (c : Conduit) (q : W32) (p : List Byte)
  /-- MERGE_RECORD (R115): A merge unit combines an incoming partial record into the stream's running record. -/
  | mergeRecord (u : Fin 4)
  /-- PARTIAL (R123): An arriving PARTIAL is dropped as stale, merged, or ends its SUBQUERY with its units handled at home. -/
  | partialRecord (c : Conduit) (q : W32) (p : List Byte)
  /-- MERGE_AREA_UE (R117): An uncorrectable error in a merge or landing area reruns the stream from admission. -/
  | mergeAreaUe (st : Nat)
  /-- RESULT_DELIVERED (R120): When the transport has delivered the last byte of the result, the stream context, epoch and merge area are released. -/
  | resultDelivered (st : Nat)
  /-- GRANT (R125): A GRANT at a lender makes its held PARTIAL eligible to send, or is kept with a running SUBQUERY, or ignored. -/
  | grant (c : Conduit) (q : W32) (p : List Byte)
  /-- WXP_LOAD (R158): CMD LOAD checks and decodes every block of an image, or is refused with CMD_REJECT. -/
  | wxpLoad (v : Word)
  /-- WXP_LOAD_COMPLETE (R158): The load check ends and the image becomes LOADED or FAILED with the failing block poisoned. -/
  | wxpLoadComplete (part : Fin 16) (img : Fin 8) (ue tue : List Nat)
  /-- WXP_UNLOAD (R159): CMD UNLOAD makes the image UNLOADING and captures the epoch. -/
  | wxpUnload (v : Word)
  /-- WXP_UNLOAD_COMPLETE (R159): Once no stream holds an epoch at or before the captured one, the image becomes EMPTY. -/
  | wxpUnloadComplete (part : Fin 16) (img : Fin 8)
  /-- WXP_RESTORE (R160): CMD RESTORE checks a rewritten poisoned block. -/
  | wxpRestore (v : Word)
  /-- WXP_RESTORE_COMPLETE (R160): The restore check ends, clearing PSN on OK or reporting the failure. -/
  | wxpRestoreComplete (part : Fin 16) (img : Fin 8) (ue tue : Bool)
  /-- WXP_TILE_REQUEST (R156): For a row tile of a LATENT_EXPANDED stream, the dispatcher asks the WXP for the tile's slices. -/
  | wxpTileRequest (st : Nat)
  /-- WXP_BLOCK_DECODED (R155): A lane finishes decoding a block and multicasts it, or poisons it and ends the stream POISONED. -/
  | wxpBlockDecoded (lane : Fin 8) (ue tue : Bool)
  /-- WXP_COPY_GO (R162): WXP_COPY_LEN.GO starts a verbatim copy. -/
  | wxpCopyGo (v : Word)
  /-- WXP_COPY_DONE (R162): A verbatim copy ends, complete or stopped by COPY_UE, and sets DONE. -/
  | wxpCopyDone (errAt : Option Nat)
  /-- HEAT_SWEEP (R167): Every DECAY_MS the TIER issues SWEEP jobs that halve every HBM descriptor's HEAT. -/
  | heatSweep
  /-- SWEEP_DONE (R168): The sweep completes and its histograms and demotion candidate lists replace the previous ones. -/
  | sweepDone
  /-- LEAP_BEGIN (R175): The TIER begins a promotion or demotion leap in one descriptor write, if the page's state allows it. -/
  | leapBegin (desc : Nat) (dest : Nat)
  /-- LEAP_COMMIT (R175): The leap's copy completes, its CRC is compared, and the descriptor switches LOC or becomes POISONED. -/
  | leapCommit (desc : Nat) (ok : Bool)
  /-- PIN (R178): TIER_PIN_CTL CMD PIN promotes a sequence's pages to HBM and sets PINNED, or ends with QUOTA. -/
  | pin (v : Word)
  /-- UNPIN (R178): TIER_PIN_CTL CMD UNPIN clears PINNED on every page the sequence references. -/
  | unpin (v : Word)
  /-- FAULT_ISSUE (R181): A fault takes a landing frame and issues one read once the per-stream, device and landing limits allow. -/
  | faultIssue (desc : Nat)
  /-- FAULT_LAND (R180): A fault's copy lands, its CRC is checked, and waiting work items are woken or the page is poisoned. -/
  | faultLand (desc : Nat) (ok : Bool)
  /-- ASSEMBLY_UNIT_PROGRAM (R183): A flash assembly buffer is programmed when full or 1 ms after its first page. -/
  | assemblyUnitProgram (part : Fin 16) (mirror : Bool)
  /-- OFFER_SEND (R184): A lender with free tier-2 sends an OFFER of one extent to the next LEND_TO peer. -/
  | offerSend (peer : Fin 16)
  /-- LEND_OFFER (R184): A borrower accepts an OFFER, binding the extent to a partition, or answers NACK QUOTA. -/
  | lendOffer (c : Conduit) (q : W32) (p : List Byte)
  /-- LEAP_PUSH (R185): A LEAP_PUSH stores a page in a lent extent frame, or with ANSWER lands a pulled page. -/
  | leapPush (c : Conduit) (q : W32) (p : List Byte)
  /-- LEAP_PULL (R185): A LEAP_PULL is answered with a LEAP_PUSH carrying the frame's content, or NACK BOUNDS. -/
  | leapPull (c : Conduit) (q : W32) (p : List Byte)
  /-- LEND_RELEASE (R185): A RELEASE frees listed frames, which the lender reclaims under its own epochs. -/
  | lendRelease (c : Conduit) (q : W32) (p : List Byte)
  /-- RECALL_START (R186): A lender whose free tier-2 is below LOW_MIB sends RECALL for its least-used extent. -/
  | recallStart
  /-- LEND_RECALL (R186): A borrower receiving RECALL leaps every page of the extent out and releases its frames. -/
  | lendRecall (c : Conduit) (q : W32) (p : List Byte)
  /-- LEND_RETURN (R186): A RETURN lets the lender take the extent back once every frame is reclaimed. -/
  | lendReturn (c : Conduit) (q : W32) (p : List Byte)
  /-- RECALL_DEADLINE (R186): A recall deadline passes, setting RECALL_LATE while the lender keeps waiting. -/
  | recallDeadline (ext : Fin 512)
  /-- LEND_REASSIGN (R187): A REASSIGN rebinds an extent to a new borrower node and sends it an INHERIT OFFER. -/
  | lendReassign (c : Conduit) (q : W32) (p : List Byte)
  /-- EXTENT_RECLAIM (R189): Once streams admitted before the loss end, the lender reclaims and zeroes a RETURNING extent's frames. -/
  | extentReclaim (ext : Fin 512)
  /-- TIER_EXT_SNAPSHOT (R184): Writing TIER_EXT_SEL takes a snapshot of an extent into TIER_EXT_INFO. -/
  | tierExtSnapshot (v : Word)
  /-- ADD (R203): Gecko instruction: gd = ga + gb. -/
  | add (k : Fin 256) (d a b : Fin 16) (imm : BitVec 14)
  /-- SUB (R203): Gecko instruction: gd = ga − gb. -/
  | sub (k : Fin 256) (d a b : Fin 16) (imm : BitVec 14)
  /-- AND (R203): Gecko instruction: gd = ga and gb. -/
  | and (k : Fin 256) (d a b : Fin 16) (imm : BitVec 14)
  /-- OR (R203): Gecko instruction: gd = ga or gb. -/
  | or (k : Fin 256) (d a b : Fin 16) (imm : BitVec 14)
  /-- XOR (R203): Gecko instruction: gd = ga xor gb. -/
  | xor (k : Fin 256) (d a b : Fin 16) (imm : BitVec 14)
  /-- SHL (R203): Gecko instruction: shift left by gb and 31. -/
  | shl (k : Fin 256) (d a b : Fin 16) (imm : BitVec 14)
  /-- SHR (R203): Gecko instruction: logical shift right by gb and 31. -/
  | shr (k : Fin 256) (d a b : Fin 16) (imm : BitVec 14)
  /-- SRA (R203): Gecko instruction: arithmetic shift right by gb and 31. -/
  | sra (k : Fin 256) (d a b : Fin 16) (imm : BitVec 14)
  /-- MUL (R203): Gecko instruction: gd = low 32 bits of ga × gb. -/
  | mul (k : Fin 256) (d a b : Fin 16) (imm : BitVec 14)
  /-- SLTU (R203): Gecko instruction: unsigned set-less-than. -/
  | sltu (k : Fin 256) (d a b : Fin 16) (imm : BitVec 14)
  /-- SLT (R203): Gecko instruction: signed set-less-than. -/
  | slt (k : Fin 256) (d a b : Fin 16) (imm : BitVec 14)
  /-- ADDI (R203): Gecko instruction: gd = ga + imm14. -/
  | addi (k : Fin 256) (d a b : Fin 16) (imm : BitVec 14)
  /-- ANDI (R203): Gecko instruction: gd = ga and zext imm14. -/
  | andi (k : Fin 256) (d a b : Fin 16) (imm : BitVec 14)
  /-- ORI (R203): Gecko instruction: gd = ga or zext imm14. -/
  | ori (k : Fin 256) (d a b : Fin 16) (imm : BitVec 14)
  /-- XORI (R203): Gecko instruction: gd = ga xor zext imm14. -/
  | xori (k : Fin 256) (d a b : Fin 16) (imm : BitVec 14)
  /-- SHLI (R203): Gecko instruction: shift left by imm14 bits 4:0. -/
  | shli (k : Fin 256) (d a b : Fin 16) (imm : BitVec 14)
  /-- SHRI (R203): Gecko instruction: shift right by imm14 bits 4:0. -/
  | shri (k : Fin 256) (d a b : Fin 16) (imm : BitVec 14)
  /-- LUI (R203): Gecko instruction: gd = imm18 << 14. -/
  | lui (k : Fin 256) (gd : Fin 16) (imm : BitVec 18)
  /-- LDW (R203): Gecko instruction: load a local word. -/
  | ldw (k : Fin 256) (d a b : Fin 16) (imm : BitVec 14)
  /-- STW (R203): Gecko instruction: store a local word. -/
  | stw (k : Fin 256) (d a b : Fin 16) (imm : BitVec 14)
  /-- LDB (R203): Gecko instruction: load a zero-extended local byte. -/
  | ldb (k : Fin 256) (d a b : Fin 16) (imm : BitVec 14)
  /-- STB (R203): Gecko instruction: store a local byte. -/
  | stb (k : Fin 256) (d a b : Fin 16) (imm : BitVec 14)
  /-- BEQ (R203): Gecko instruction: branch if equal. -/
  | beq (k : Fin 256) (d a b : Fin 16) (imm : BitVec 14)
  /-- BNE (R203): Gecko instruction: branch if not equal. -/
  | bne (k : Fin 256) (d a b : Fin 16) (imm : BitVec 14)
  /-- BLTU (R203): Gecko instruction: branch if unsigned less. -/
  | bltu (k : Fin 256) (d a b : Fin 16) (imm : BitVec 14)
  /-- BGEU (R203): Gecko instruction: branch if unsigned greater or equal. -/
  | bgeu (k : Fin 256) (d a b : Fin 16) (imm : BitVec 14)
  /-- JAL (R203): Gecko instruction: jump and link by a signed offset. -/
  | jal (k : Fin 256) (gd : Fin 16) (imm : BitVec 18)
  /-- JALR (R203): Gecko instruction: jump to ga + imm14 and link. -/
  | jalr (k : Fin 256) (d a b : Fin 16) (imm : BitVec 14)
  /-- HLD (R203): Gecko instruction: load a channel word. -/
  | hld (k : Fin 256) (d a b : Fin 16) (imm : BitVec 14) (errs : Syms)
  /-- HST (R203): Gecko instruction: store a channel word as a read-modify-write inside a LOCK or WIN window. -/
  | hst (k : Fin 256) (d a b : Fin 16) (x : Rewrite)
  /-- VHALB (R203): Gecko instruction: indivisibly read a group and halve one byte per quarter inside an ATOM window. -/
  | vhalb (k : Fin 256) (d a b : Fin 16) (x : Rewrite)
  /-- VFIX (R203): Gecko instruction: read a group and write it back if a block was corrected. -/
  | vfix (k : Fin 256) (d a b : Fin 16) (imm : BitVec 14) (errs : Syms)
  /-- VLD (R203): Gecko instruction: load a 128-byte group into four vector registers. -/
  | vld (k : Fin 256) (d a b : Fin 16) (imm : BitVec 14) (errs : Syms)
  /-- VST (R203): Gecko instruction: store four vector registers to a group with check bytes. -/
  | vst (k : Fin 256) (d a b : Fin 16) (imm : BitVec 14)
  /-- VLDL (R203): Gecko instruction: load 32 local bytes into a vector register. -/
  | vldl (k : Fin 256) (d a b : Fin 16) (imm : BitVec 14)
  /-- VSTL (R203): Gecko instruction: store a vector register to 32 local bytes. -/
  | vstl (k : Fin 256) (d a b : Fin 16) (imm : BitVec 14)
  /-- VXOR (R203): Gecko instruction: vector xor. -/
  | vxor (k : Fin 256) (d a b : Fin 16) (imm : BitVec 14)
  /-- VAND (R203): Gecko instruction: vector and. -/
  | vand (k : Fin 256) (d a b : Fin 16) (imm : BitVec 14)
  /-- VOR (R203): Gecko instruction: vector or. -/
  | vor (k : Fin 256) (d a b : Fin 16) (imm : BitVec 14)
  /-- VADDW (R203): Gecko instruction: add 8 lanes of 32 bits. -/
  | vaddw (k : Fin 256) (d a b : Fin 16) (imm : BitVec 14)
  /-- VDIG (R203): Gecko instruction: update per-position digest MIN and MAX from a vector of elements. -/
  | vdig (k : Fin 256) (d a b : Fin 16) (imm : BitVec 14)
  /-- VCRC (R203): Gecko instruction: update a CRC-32C context with vector bytes. -/
  | vcrc (k : Fin 256) (d a b : Fin 16) (imm : BitVec 14)
  /-- VBCAST (R203): Gecko instruction: broadcast a byte to a vector register. -/
  | vbcast (k : Fin 256) (d a b : Fin 16) (imm : BitVec 14)
  /-- RSEND (R210): Gecko instruction: send 32 bytes to another gecko on the ring, stalling while the receiver is full. -/
  | rsend (k : Fin 256) (d a b : Fin 16) (imm : BitVec 14)
  /-- RRECV (R210): Gecko instruction: wait for a ring message and take its data and sender. -/
  | rrecv (k : Fin 256) (d a b : Fin 16) (imm : BitVec 14)
  /-- WAITD (R203): Gecko instruction: wait for a doorbell and take the lowest rung slot. -/
  | waitd (k : Fin 256) (d a b : Fin 16) (imm : BitVec 14)
  /-- DONEJ (R207): Gecko instruction: end a job once its writes are in DRAM, writing STATUS and DONE and setting READY. -/
  | donej (k : Fin 256) (d a b : Fin 16) (imm : BitVec 14)
  /-- HALT (R203): Gecko instruction: stop and record the halt code. -/
  | halt (k : Fin 256) (d a b : Fin 16) (imm : BitVec 14)
  /-- DIGEST (R214): Standard job 0x01 builds a page's digest. -/
  | digest (k : Fin 256) (slot : Fin 8) (errs rmw : Errs)
  /-- CRC (R214): Standard job 0x02 computes a CRC-32C context over a range. -/
  | crc (k : Fin 256) (slot : Fin 8) (errs rmw : Errs)
  /-- COMPACT (R214): Standard job 0x03 copies a locked page to a new frame in its channel. -/
  | compact (k : Fin 256) (slot : Fin 8) (desc : Nat) (errs rmw : Errs)
  /-- ZERO (R214): Standard job 0x04 zeroes a released frame. -/
  | zero (k : Fin 256) (slot : Fin 8) (errs rmw : Errs)
  /-- SCRUB_RANGE (R214): Standard job 0x05 runs VFIX on every group of a range. -/
  | scrubRange (k : Fin 256) (slot : Fin 8) (errs rmw : Errs)
  /-- SCRUB_PAGE (R214): Standard job 0x06 scrubs a page and compares its CRC-32C. -/
  | scrubPage (k : Fin 256) (slot : Fin 8) (errs rmw : Errs)
  /-- COW (R214): Standard job 0x07 copies the first n rows of a page into a new tadpole. -/
  | cow (k : Fin 256) (slot : Fin 8) (errs rmw : Errs)
  /-- SWEEP (R214): Standard job 0x08 halves HEAT in a descriptor piece and writes histograms and candidates. -/
  | sweep (k : Fin 256) (slot : Fin 8) (errs rmw : Errs)
  /-- GK_DOORBELL (R206): A write to GK_DOORBELL rings command slots, which reach the gecko after the slot writes land. -/
  | gkDoorbell (k : Fin 256) (v : Word)
  /-- SLOT_WRITE (R206): A write to a GK_CMD slot is taken only while the slot is idle. -/
  | slotWrite (k : Fin 256) (slot : Fin 8) (w : Fin 4) (v : Word)
  /-- LOCK_RELEASE (R213): On a gecko job's ready line the PGT writes the descriptor back to SEALED, sets DIGEST_VALID or new LOC as due, and removes the entries. -/
  | lockRelease (k : Fin 256) (slot : Fin 8)
  /-- GECKO_WATCHDOG (R208): A job running past WATCHDOG_US stops the gecko and completes with TIMEOUT. -/
  | geckoWatchdog (k : Fin 256)
  /-- GECKO_STOP (R204): GK_CTL.STOP stops the gecko at the next instruction boundary. -/
  | geckoStop (k : Fin 256) (v : Word)
  /-- GECKO_RESET (R209): GK_CTL.RESET clears registers, PC, GK_READY and pending doorbells. -/
  | geckoReset (k : Fin 256) (v : Word)
  /-- GECKO_RUN (R209): GK_CTL.RUN starts the gecko at PC 0 or continues it. -/
  | geckoRun (k : Fin 256) (v : Word)
  /-- USTORE_ACCESS (R209): A GK_USTORE_DATA access reads or writes an instruction and increments INDEX. -/
  | ustoreAccess (k : Fin 256) (w : Option Word)
  /-- SCRATCH_ACCESS (R201): A GK_SCR_DATA access reads or writes a scratch word and increments INDEX. -/
  | scratchAccess (k : Fin 256) (w : Option Word)
  /-- HBM_REFRESH (R198): A per-bank refresh falls due, withdrawing gecko time from the bank beforehand. -/
  | hbmRefresh (k : Fin 256) (bank stallNs : Nat)
  /-- HBM_RETRAIN (R199): Every RETRAIN_MS a stack retrains one channel, holding its requests for up to 2 µs. -/
  | hbmRetrain (stack : Fin 8) (r : Retraining)
  /-- HBM_SCRUB_SCHEDULE (R215): The scrub scheduler issues scrub jobs to cover each channel once per PERIOD_S. -/
  | hbmScrubSchedule (k : Fin 256)
  /-- FLT_FORMAT (R423): FLT_CTL.FORMAT with FMT_KEY 0xA5 in IDENT erases all flash and builds a new map. -/
  | fltFormat (v : Word)
  /-- FLT_REPLAY (R233): FLT_CTL.REPLAY in IDENT starts map replay from the anchor record. -/
  | fltReplay (v : Word)
  /-- REPLAY_DONE (R233): Replay ends, ALLOCATED entries are cleared and STATE becomes READY. -/
  | replayDone (cut : Option Nat)
  /-- FLT_ENABLE (R426): FLT_CTL.ENABLE in READY makes STATE SERVING and admits TIER, TWN and PGT operations. -/
  | fltEnable (v : Word)
  /-- FLT_CMD_READ (R224): FLT_CMD READ reads any logical unit into the command buffer. -/
  | fltCmdRead (v : Word)
  /-- FLT_CMD_WRITE (R223): FLT_CMD ALLOCATE and WRITE writes a SYS unit. -/
  | fltCmdWrite (v : Word)
  /-- FLT_CMD_TRIM (R223): FLT_CMD TRIM trims a SYS unit. -/
  | fltCmdTrim (v : Word)
  /-- FLT_CMD_TRIM_AREA (R424): FLT_CMD TRIM_AREA makes every unit of area 1–3 UNMAPPED in READY. -/
  | fltCmdTrimArea (v : Word)
  /-- UNIT_ALLOCATE (R223): A user allocates logical units in its area, or fails with QUOTA. -/
  | unitAllocate (area : Fin 4) (n : Nat)
  /-- UNIT_WRITE (R225): A user writes an ALLOCATED unit, placed in the SLC buffer or a native stream. -/
  | unitWrite (lunit slots : Nat) (key : Fin 17) (data : List Byte)
  /-- UNIT_TRIM (R231): A TRIM makes units UNMAPPED by a journal record. -/
  | unitTrim (lunit : Nat) (n : Nat)
  /-- SLOTS_UPDATE (R231): A SLOTS update lowers a unit's live count, trimming it at 0. -/
  | slotsUpdate (lunit : Nat) (n : Nat)
  /-- UNIT_READ (R229): A read of a written unit climbs the recovery ladder; unmapped units read zero. -/
  | unitRead (lunit : Nat) (k : Fin 6) (x : NandShown)
  /-- WRITE_COMMIT (R226): A unit's write commits when it is programmed and its journal record has committed, and is reported done. -/
  | writeCommit (lunit : Nat)
  /-- NATIVE_PAD_TIMER (R226): A native block left open for COMMIT_US × 100 is padded to the next wordline. -/
  | nativePadTimer (strm : Fin 5)
  /-- JOURNAL_FLUSH (R231): A journal unit is programmed twice when full or COMMIT_US after its first record. -/
  | journalFlush
  /-- CHECKPOINT_SAVE (R232): A map segment copy is saved and named by a CKPT record; an anchor record follows each full turn. -/
  | checkpointSave
  /-- GC_MOVE (R234): Collection or folding moves a unit to a new superblock and commits a MOVE record. -/
  | gcMove (lunit : Nat) (r : Fin 6 × NandShown)
  /-- SUPERBLOCK_OPEN (R235): A free superblock is erased and opened when a stream needs one. -/
  | superblockOpen (strm : Fin 5)
  /-- PROGRAM_FAIL (R237): A program failure retires its block and redirects the unit. -/
  | programFail (w : Nat × Silence)
  /-- FLT_TEMP_SAMPLE (R241): Every second the hottest LUN reading adds 1 to a temperature bin. -/
  | fltTempSample (t : Int)
  /-- PACKET_RECEIVE (R258): A received packet passes the receive checks and metering, then is placed, reassembled and acknowledged. -/
  | packetReceive (port : Fin 64) (frame : List Byte) (fcsOk : Bool)
  /-- ACK_DELAY_EXPIRE (R263): ACK_NS after the first unacknowledged segment, a TACK is sent. -/
  | ackDelayExpire (c : Conduit)
  /-- TACK_RECEIVE (R263): A TACK acknowledges segments, releases delivered messages, updates RTT and applies ECE. -/
  | tackReceive (c : Conduit) (q : W32) (p : List Byte)
  /-- TRANSMIT_OPPORTUNITY (R305): A port node picks a service, subscriber and conduit queue and sends one segment, charging its buckets. -/
  | transmitOpportunity (node : Fin 16)
  /-- RETX_TIMER_EXPIRE (R264): The conduit's retransmit timer expires, resending the oldest segment, halving its rate, or failing the conduit. -/
  | retxTimerExpire (c : Conduit)
  /-- REORDER_EXPIRE (R265): REORDER_NS after a later segment was acknowledged, an unacknowledged segment is retransmitted. -/
  | reorderExpire (c : Conduit)
  /-- RATE_RECOVERY (R267): Every INC_US without a cut, a conduit's rate moves toward the port rate. -/
  | rateRecovery (c : Conduit)
  /-- PORT_UP (R245): A port's link comes up and it joins the list of up ports. -/
  | portUp (port : Fin 64)
  /-- PORT_DOWN (R245): A port goes down, leaves the up list and loses its queued segments. -/
  | portDown (port : Fin 64)
  /-- CONDUIT_OPEN (R253): TRL_CONDUIT_CMD OPEN makes a CLOSED entry ACTIVE, or is refused with FORMAT. -/
  | conduitOpen (v : Word)
  /-- CONDUIT_CLOSE (R255): TRL_CONDUIT_CMD CLOSE makes a conduit DRAINING. -/
  | conduitClose (v : Word)
  /-- CONDUIT_FAIL (R255): TRL_CONDUIT_CMD FAIL makes a conduit FAILED. -/
  | conduitFail (v : Word)
  /-- DRAIN_TIMEOUT (R255): A DRAINING conduit still busy RTO_MAX_US × MAX_TRIES after CLOSE fails. -/
  | drainTimeout (c : Conduit)
  /-- CONDUIT_SNAPSHOT (R253): Writing TRL_CONDUIT_SEL snapshots the entry into TRL_CONDUIT_DATA0–7. -/
  | conduitSnapshot (v : Word)
  /-- ACK (R252): A response ACK is taken by the requester for the request its RSEQ names. -/
  | ack (c : Conduit) (q : W32) (p : List Byte)
  /-- NACK (R252): A response NACK carries a failing status for the request its RSEQ names. -/
  | nack (c : Conduit) (q : W32) (p : List Byte)
  /-- LOOPBACK_SEND (R270): A message on a loopback conduit is turned round inside the TRL and completes in order. -/
  | loopbackSend (c : Conduit)
  /-- CONTROL_FIRMWARE (R252): A CONTROL message with a firmware CTYPE is delivered to mailbox 1, or refused with NACK FORMAT if unknown. -/
  | controlFirmware (c : Conduit) (q : W32) (p : List Byte)
  /-- WRITE (R276): A WRITE is key-checked at its first segment, bounds-checked at segment 0, and placed into a region. -/
  | write (c : Conduit) (q : W32) (key : W32) (p : List Byte)
  /-- WRITE_IMM (R279): A WRITE_IMM is placed like a WRITE and at hand-over writes a completion entry and steps its counter. -/
  | writeImm (c : Conduit) (q : W32) (key imm : W32) (p : List Byte)
  /-- READ (R281): A READ is checked at admission and answered with a READ_RESP or NACK when handed over. -/
  | read (c : Conduit) (q : W32) (key : W32) (p : List Byte)
  /-- READ_RESP (R281): A READ_RESP received by a device is refused with FORMAT. -/
  | readResp (c : Conduit) (q : W32) (p : List Byte)
  /-- REGION_REGISTER (R275): RMO_REG_CMD REGISTER issues a region key and pins a LOCAL area, or fails. -/
  | regionRegister (v : Word)
  /-- REGION_REVOKE (R294): RMO_REG_CMD REVOKE makes an entry REVOKING so no new use is admitted. -/
  | regionRevoke (v : Word)
  /-- REVOKE_COMPLETE (R294): When INFLIGHT reaches 0 the entry becomes FREE and REVOKE_DONE is set. -/
  | revokeComplete (idx : Nat)
  /-- REGION_SNAPSHOT (R275): Writing RMO_REG_SEL snapshots a region entry into RMO_REG_DATA0–3. -/
  | regionSnapshot (v : Word)
  /-- CQ_ENABLE (R286): Setting RMO_CQ_CFG0.ENABLE resets PI and CI and checks a REMOTE ring key. -/
  | cqEnable (v : Word)
  /-- CQ_NOTIFY (R286): A REMOTE queue sends waiting entries by WRITE_IMM once NCOUNT wait or NDELAY_NS passes. -/
  | cqNotify (cq : Fin 4096)
  /-- CQ_CREDIT (R287): A CONTROL CQ_CREDIT moves the consumer index of a REMOTE queue. -/
  | cqCredit (c : Conduit) (q : W32) (p : List Byte)
  /-- CQ_CONSUME (R287): A write of RMO_CQ_IDX.CI consumes entries of a local ring. -/
  | cqConsume (v : Word)
  /-- POST_WR (R289): A CONTROL POST_WR queues a work request behind its counter, or is refused. -/
  | postWr (c : Conduit) (q : W32) (p : List Byte)
  /-- WORK_REQUEST_FIRE (R290): A head work request fires when its counter reaches THRESH and runs its query, write or ADD. -/
  | workRequestFire (ctr : Nat)
  /-- WR_RETRY (R291): Every RETRY_US a fired query refused with BUSY is admitted again, until AE_TIMEOUT. -/
  | wrRetry (id : Nat)
  /-- FLUSH_CTR (R293): A CONTROL FLUSH_CTR removes a counter's unfired requests with ABORTED. -/
  | flushCtr (c : Conduit) (q : W32) (p : List Byte)
  /-- COUNTER_SET (R288): A write of RMO_CTR_VAL sets a counter, and requests it reaches fire. -/
  | counterSet (v : Word)
  /-- COUNTER_DISABLE (R293): Clearing RMO_CTR_CFG.ENABLE removes every unfired request with ABORTED. -/
  | counterDisable (v : Word)
  /-- BUCKET_REFILL (R303): Every 128 ns every shaper and meter bucket gains its rate and is limited to its burst. -/
  | bucketRefill
  /-- CROAK_SEND (R324): Every PERIOD_NS a member sends a croak in several copies. -/
  | croakSend
  /-- CROAK (R317): A received croak refreshes the lease and silence timer, or changes the epoch or fences under the epoch table. -/
  | croak (c : Conduit) (q : W32) (p : List Byte)
  /-- LEASE_EXPIRE (R326): The lease runs out and requests needing it are held. -/
  | leaseExpire
  /-- SILENCE (R325): No croak for MISS periods declares silence, refuses peer MIRRORs and sends a CLAIM. -/
  | silence
  /-- MIRROR_APPEND (R318): The twin applies a mirrored APPEND and answers MIRROR_ACK. -/
  | mirrorAppend (c : Conduit) (q : W32) (p : List Byte)
  /-- MIRROR_SEAL (R318): The twin applies a mirrored SEAL and answers MIRROR_ACK. -/
  | mirrorSeal (c : Conduit) (q : W32) (p : List Byte)
  /-- MIRROR_FORK (R318): The twin applies a mirrored FORK and answers MIRROR_ACK. -/
  | mirrorFork (c : Conduit) (q : W32) (p : List Byte)
  /-- MIRROR_TRUNCATE (R318): The twin applies a mirrored TRUNCATE and answers MIRROR_ACK. -/
  | mirrorTruncate (c : Conduit) (q : W32) (p : List Byte)
  /-- MIRROR_FREE (R318): The twin applies a mirrored FREE and answers MIRROR_ACK. -/
  | mirrorFree (c : Conduit) (q : W32) (p : List Byte)
  /-- MIRROR_PAGE (R321): The twin replaces its copy of a page with the content carried. -/
  | mirrorPage (c : Conduit) (q : W32) (p : List Byte)
  /-- MIRROR_FETCH (R323): The receiver answers a FETCH with the page content or status LOST. -/
  | mirrorFetch (c : Conduit) (q : W32) (p : List Byte)
  /-- MIRROR_TABLE (R335): A regrow TABLE creates a twin record for a sequence. -/
  | mirrorTable (c : Conduit) (q : W32) (p : List Byte)
  /-- MIRROR_ACK_APPLIED (R318): A MIRROR_ACK APPLIED commits the operation and checks sealed-page CRCs. -/
  | mirrorAckApplied (c : Conduit) (q : W32) (p : List Byte)
  /-- MIRROR_ACK_FLUSHED (R319): A MIRROR_ACK FLUSHED marks the named pages FLASHED at the home. -/
  | mirrorAckFlushed (c : Conduit) (q : W32) (p : List Byte)
  /-- MIRROR_ACK_CONTENT (R323): A MIRROR_ACK CONTENT restores a POISONED page, or leaves it POISONED on LOST. -/
  | mirrorAckContent (c : Conduit) (q : W32) (p : List Byte)
  /-- TAKEOVER_CLAIM (R328): A witness grants a CLAIM whose epoch matches its record, or refuses it. -/
  | takeoverClaim (c : Conduit) (q : W32) (p : List Byte)
  /-- TAKEOVER_GRANT (R329): On a GRANT the survivor becomes SOLO, makes the twin table live and commits waiting operations. -/
  | takeoverGrant (c : Conduit) (q : W32) (p : List Byte)
  /-- TAKEOVER_REFUSE (R331): A REFUSE makes a claimant fence itself, unless it is JOINING. -/
  | takeoverRefuse (c : Conduit) (q : W32) (p : List Byte)
  /-- CLAIM_TIMEOUT (R327): A CLAIM unanswered for TIMEOUT_US is resent once, or after the second the member fences. -/
  | claimTimeout
  /-- TAKEOVER_ANNOUNCE (R330): A device receiving an ANNOUNCE treats the failed node as lost and routes to the survivor. -/
  | takeoverAnnounce (c : Conduit) (q : W32) (p : List Byte)
  /-- TAKEOVER_HANDBACK (R336): A HANDBACK moves a regrown member's sequences back to it. -/
  | takeoverHandback (c : Conduit) (q : W32) (p : List Byte)
  /-- TAKEOVER_PERMIT (R343): A governor counts a PERMIT per domain and answers PERMIT_OK under the limit. -/
  | takeoverPermit (c : Conduit) (q : W32) (p : List Byte)
  /-- TAKEOVER_PERMIT_OK (R343): A PERMIT_OK makes the twin claim with REASON EXPEL. -/
  | takeoverPermitOk (c : Conduit) (q : W32) (p : List Byte)
  /-- PERMIT_TIMEOUT (R343): A permit unanswered within TIMEOUT_US is treated as refused, setting GOV_REFUSED. -/
  | permitTimeout
  /-- HANDOFF (R334): TWN_CMD HANDOFF stops admission and lets the member's work drain. -/
  | handoff (v : Word)
  /-- HANDOFF_DRAINED (R334): Once streams and operations end, the member croaks with HANDOFF set. -/
  | handoffDrained
  /-- EXPEL_PEER (R343): TWN_CMD EXPEL_PEER sends a PERMIT for the peer to the governor. -/
  | expelPeer (v : Word)
  /-- REGROW_START (R335): TWN_CMD REGROW_START starts copying tables and pages to a joining peer. -/
  | regrowStart (v : Word)
  /-- REGROW_CLAIM (R335): When TWN_REGROW_LEFT reaches 0 the source claims with REASON REGROW. -/
  | regrowClaim
  /-- TWN_HANDBACK (R336): TWN_CMD HANDBACK claims with REASON REGROW to return the peer's sequences. -/
  | twnHandback (v : Word)
  /-- TWN_RELEASE (R339): TWN_CMD RELEASE ends a quarantine or WORN state of a unit. -/
  | twnRelease (v : Word)
  /-- CLEAR_SUSPECT (R343): TWN_CMD CLEAR_SUSPECT stops the PEER_SUSPECT flag in croaks. -/
  | clearSuspect (v : Word)
  /-- WORN_CLEAR (R339): A WORN channel clears once every band stays below LIMIT / 4 for a whole window. -/
  | wornClear (ch : Fin 256)
  /-- XCHK_COMPARE (R341): The records of a sampled item and its re-run are compared, with a third run on disagreement. -/
  | xchkCompare (st k : Nat)
  /-- HEALTH_COMPUTE (R342): Every 100 ms the health score is computed from the penalties. -/
  | healthCompute
  /-- WINDOW_SNAPSHOT (R337): Writing TWN_WIN_SEL snapshots a class, unit and band count. -/
  | windowSnapshot (v : Word)
  /-- XLOG_SNAPSHOT (R341): Writing TWN_XLOG_SEL snapshots a cross-check log entry. -/
  | xlogSnapshot (v : Word)
  /-- CUSTODY_PREPARE (R354): PREPARE puts a custody record in TRANSFER at a new epoch. -/
  | custodyPrepare (c : Conduit) (q : W32) (p : List Byte)
  /-- CUSTODY_HANDOVER (R354): HANDOVER lets the target import the sequence, mirror it and send ACCEPT. -/
  | custodyHandover (c : Conduit) (q : W32) (p : List Byte)
  /-- CUSTODY_ACCEPT (R354): ACCEPT makes the record HELD by the target and sends COMMIT. -/
  | custodyAccept (c : Conduit) (q : W32) (p : List Byte)
  /-- CUSTODY_COMMIT (R354): COMMIT makes the target admit and the source forward its held requests. -/
  | custodyCommit (c : Conduit) (q : W32) (p : List Byte)
  /-- CUSTODY_REVERT (R354): REVERT makes the source admit its held requests and the target discard its import. -/
  | custodyRevert (c : Conduit) (q : W32) (p : List Byte)
  /-- CUSTODY_CANCEL (R354): CANCEL returns the record to the source at a new epoch and sends REVERT. -/
  | custodyCancel (c : Conduit) (q : W32) (p : List Byte)
  /-- CUSTODY_ASK (R355): ASK is answered by the home with the custody record. -/
  | custodyAsk (c : Conduit) (q : W32) (p : List Byte)
  /-- CUSTODY_SYNC (R352): SYNC copies a custody record or inbound entry to the twin. -/
  | custodySync (c : Conduit) (q : W32) (p : List Byte)
  /-- CUSTODY_RELEASE (R358): RELEASE removes the custody record after the custodian's free. -/
  | custodyRelease (c : Conduit) (q : W32) (p : List Byte)
  /-- CUSTODY_INFO (R348): INFO is answered with the sequence's committed values once earlier operations are settled. -/
  | custodyInfo (c : Conduit) (q : W32) (p : List Byte)
  /-- CUSTODY_DEADLINE (R355): A TRANSFER whose DEADLINE passes reverts to the source at a new epoch. -/
  | custodyDeadline (idx : Nat)
  /-- CUSTODY_ASK_TIMER (R355): A side waiting 1 ms without an outcome sends ASK, every 1 ms. -/
  | custodyAskTimer (idx : Nat)
  /-- ORPHAN_FREE (R362): An unconfirmed child not named within 2 s of activation is freed. -/
  | orphanFree (idx : Nat)
  /-- MOLT_QUEUE (R374): Writing 1 to a SEC_MOLT bit queues a molt of that engine with the current mask. -/
  | moltQueue (hi : Bool) (v : Word)
  /-- MOLT_START (R371): The next queued molt begins, abandoning the engine's running item. -/
  | moltStart
  /-- MOLT_DONE (R371): A molt ends, setting PART_MASK and DONE, or fails with MOLT_FAIL. -/
  | moltDone (ok : Bool)
  /-- FUSE_PROGRAM (R380): SEC_FUSE_CMD PROGRAM burns a key hash into an empty slot. -/
  | fuseProgram (v : Word)
  /-- FUSE_REVOKE (R380): SEC_FUSE_CMD REVOKE burns a slot's revocation bit. -/
  | fuseRevoke (v : Word)
  /-- SVN_STEP (R380): SEC_FUSE_CMD SVN_STEP raises the fused SVN by 1. -/
  | svnStep (v : Word)
  /-- KEY_LOAD (R376): SEC_KEY_CMD LOAD loads a GCM key slot bound to a partition. -/
  | keyLoad (v : Word)
  /-- KEY_ERASE (R376): SEC_KEY_CMD ERASE erases a GCM key slot. -/
  | keyErase (v : Word)
  /-- PKEY_CREATE (R377): SEC_PART CREATE draws a new partition key and writes its wrapped blob. -/
  | pkeyCreate (part : Fin 16) (v : Word)
  /-- PKEY_LOAD (R377): SEC_PART LOAD restores a partition key from a blob. -/
  | pkeyLoad (part : Fin 16) (v : Word)
  /-- PKEY_DESTROY (R378): SEC_PART DESTROY erases a partition key, or is refused with BUSY. -/
  | pkeyDestroy (part : Fin 16) (v : Word)
  /-- MEAS_EXTEND (R383): SEC_MEAS_EXT extends a measurement slot with a digest. -/
  | measExtend (v : Word)
  /-- SEC_SIGN (R385): SEC_SIGN GO signs TLS CertificateVerify content for a transcript hash. -/
  | secSign (v : Word)
  /-- SEC_QUOTE (R384): SEC_QUOTE GO produces a signed quote of the measurements. -/
  | secQuote (v : Word)
  /-- SIGNATURE_DONE (R384): A signature or quote completes and raises source 36. -/
  | signatureDone
  /-- BOOT_DONE (R383): Writing SEC_CTL.BOOT_DONE locks MEAS0–3 and fuse commands until reset. -/
  | bootDone (v : Word)
  /-- RNG_READ (R253): A read of SEC_RNG returns 64 fresh random bits. -/
  | rngRead
  /-- DEBUG_DECLARE (R387): SEC_DBG.DECLARE records a management debug session and extends MEAS7. -/
  | debugDeclare (v : Word)
  /-- DEBUG_ATTACH (R387): An attach of the debug access port extends MEAS7 and sets DEBUG_SEEN. -/
  | debugAttach
  /-- EVC_CLAIM (R400): A read of EVC_CLAIM returns and takes into service the highest pending source for the core, or 0. -/
  | evcClaim (core : Fin 16)
  /-- EVC_COMPLETE (R401): A write to EVC_COMPLETE ends a source's service after earlier writes cross, and resamples its level. -/
  | evcComplete (core : Fin 16) (v : Word)
  /-- EVC_SRC_WRITE (R402): A write of EVC_SRC sets priority and targets, masking within 8 cycles. -/
  | evcSrcWrite (src : Fin 2048) (v : Word)
  /-- MAILBOX_ENABLE (R405): Setting EVC_MB_CFG.ENABLE resets a mailbox's indices. -/
  | mailboxEnable (mb : Fin 16) (v : Word)
  /-- MAILBOX_CONSUME (R405): A CI write of an inbound mailbox consumes entries and frees their buffer space. -/
  | mailboxConsume (mb : Fin 16) (v : Word)
  /-- MAILBOX_POST (R408): Advancing mailbox 15 PI posts messages and frames for the TRL to send. -/
  | mailboxPost (v : Word)
  /-- MTIME_COMPARE (R396): GLB_MTIME reaching GLB_MTIMECMP raises the core's machine timer interrupt. -/
  | mtimeCompare (core : Fin 16)
  /-- WATCHDOG_EXPIRE (R397): The watchdog expires, setting EXPIRED or on the second expiry making a warm restart. -/
  | watchdogExpire
  /-- WATCHDOG_KICK (R397): Writing GLB_WDOG.KICK restarts the watchdog period. -/
  | watchdogKick (v : Word)
  /-- CORE_RUN (R395): Setting GLB_CORE_CTL.RUN releases a core at BOOT_ADDR. -/
  | coreRun (core : Fin 16) (v : Word)
  /-- CORE_RESET (R395): GLB_CORE_CTL.RESET returns a core to reset after writing back dirty lines. -/
  | coreReset (core : Fin 16) (v : Word)
  /-- CORE_UNCACHED_ACCESS (R394): A core access outside allowed areas, refused with BUSY, or with an uncorrectable error raises an access fault. -/
  | coreUncachedAccess (core : Fin 16) (addr : Word) (width : Nat) (store : Option Word) (errs : Errs)
  /-- GLB_TEMP_SAMPLE (R404): Every 1 ms MAX_C is updated and ALARM is set at ALARM_C. -/
  | glbTempSample (t : Int)
  /-- SOFT_RESET (R413): GLB_RST_CTL.WARM with KEY 0x5A starts a warm restart with cause SOFT. -/
  | softReset (v : Word)
  /-- COLD_START (R422): A rising PORST_N or internal power-on reset runs the boot ROM and start-up steps. -/
  | coldStart (nor : List Byte) (failed : List (Fin 256)) (geom : Word) (chips : Chips)
  /-- WARM_RESTART (R465): A WRST_N pulse or other warm cause restarts the device keeping timers and HBM training. -/
  | warmRestart (nor : List Byte)
  /-- DEBUG_RESET (R413): A reset command on the debug access port starts a warm restart with cause DEBUG. -/
  | debugReset
  /-- JOIN_TIMEOUT (R425): No croak from the peer within 100 ms makes the joining member claim with REASON SILENCE. -/
  | joinTimeout
  /-- SHELTER_ENTER (R427): VDD_CORE below the warning level pauses engines, geckos, leaps and flash. -/
  | shelterEnter
  /-- SHELTER_EXIT (R428): VDD_CORE above the exit level for 20 µs ends shelter and resumes all work. -/
  | shelterExit
  /-- SHELTER_TIMEOUT (R428): A shelter lasting 5 ms starts the power-fail protocol. -/
  | shelterTimeout
  /-- POWER_FAIL (R429): VDD_CORE below reset level or PFAIL_N low runs the power-fail protocol and holds reset. -/
  | powerFail
  /-- POWERFAIL_RESTART (R430): After 10 ms of good VDD_CORE and high PFAIL_N, the device cold-starts. -/
  | powerfailRestart (nor : List Byte) (failed : List (Fin 256)) (geom : Word) (chips : Chips)
  /-- PLL_UNLOCK (R451): A PLL losing lock clears its status bit and acts by its domain. -/
  | pllUnlock (pll : Fin 22)
  /-- PLL_RELOCK (R451): A PLL that relocks sets its GLB_CLK_STATUS bit again. -/
  | pllRelock (pll : Fin 22)
  /-- THERMTRIP (R458): A sensor above its trip asserts THERMTRIP_N, runs the power-fail protocol and holds reset. -/
  | thermtrip
  /-- MGT_FRAME_RECEIVE (R434): An accepted management frame is written to the receive ring, or dropped when no buffer is posted. -/
  | mgtFrameReceive (frame : List Byte) (fcsOk : Bool)
  /-- MGT_RX_POST (R434): A write of MGT_RX_IDX.CI posts receive buffers. -/
  | mgtRxPost (v : Word)
  /-- MGT_TX_POST (R434): A write of MGT_TX_IDX.PI posts frames to send. -/
  | mgtTxPost (v : Word)
  /-- MGT_TX_DONE (R434): A management frame has been sent, DONE is set and CI advances. -/
  | mgtTxDone
  /-- MGT_LINK_CHANGE (R433): The management link goes up or down, setting LINK_CHANGE. -/
  | mgtLinkChange (up : Bool)
  /-- COMPOSITION_WRITE (R437): A write of MGT_PART_COMP is accepted for the next sample or refused with COMP_REJECT. -/
  | compositionWrite (part : Fin 16) (v : Word)
  /-- USAGE_SAMPLE (R438): Every 1 ms the usage accumulators are sampled and pending composition changes take effect with a CLOSE record. -/
  | usageSample
  /-- USAGE_PERIODIC (R440): At each scheduled point a PERIODIC usage record is written per partition, or deferred if the log is full. -/
  | usagePeriodic
  /-- USAGE_SNAPSHOT (R439): Writing MGT_USAGE_SEL.PART snapshots a partition's accumulators. -/
  | usageSnapshot (v : Word)
  /-- MGT_TEMP_SAMPLE (R441): Every second die and HBM temperatures add to their histograms. -/
  | mgtTempSample (hbm : List Byte)
  /-- EXTEST (R459): TAP instruction EXTEST drives the boundary register when the device is idle. -/
  | extest (cells : List Bool)
  /-- IDCODE (R459): TAP instruction IDCODE returns 0xB081_6A9B. -/
  | idcode
  /-- SAMPLE_PRELOAD (R459): TAP instruction SAMPLE/PRELOAD samples or loads the boundary register. -/
  | samplePreload (cells : List Bool)
  /-- TAP_DEBUG (R459): TAP instruction DEBUG selects the debug access port. -/
  | tapDebug
  /-- BYPASS (R459): TAP instruction BYPASS, selected by every unlisted code. -/
  | bypass (ir : Byte)
  /-- COLD_RESET_ASSERT (R412): PORST_N falls, or VDD_IO or VDD_CORE drops below its power-on-reset level, and the device is held in cold reset with its outputs at high impedance. -/
  | coldResetAssert
  /-- ERASE_COMPLETE (R235): A superblock erase ends some milliseconds after it was issued, and a failed member block is retired and replaced by a spare. -/
  | eraseComplete (sb : Nat) (failed : List (Fin 16))
  /-- FUSE_COMMAND_DONE (R380): A fuse command ends up to 5 ms after it began, clearing BUSY, setting RESULT, or setting FUSE_FAIL if a bit does not read back as burned. -/
  | fuseCommandDone (readback : Bool)
  /-- ILLEGAL_OPCODE (R204): A gecko meets an instruction word with an unlisted opcode or illegal field, halts before writing, and completes its running and pending slots with FORMAT. -/
  | illegalOpcode (k : Fin 256)
  /-- FREE_COMPLETE (R60): After a FREE commits, the device finishes dropping every page reference and releasing page tables and the record, making the index available and sending RELEASE to the home. -/
  | freeComplete (idx : Nat)
  /-- REGROW_MIRROR_SEND (R335): The regrow source issues its next TABLE or PAGE MIRROR when TWN_REGROW.RATE_GBPS allows, lowering TWN_REGROW_LEFT. -/
  | regrowMirrorSend
  /-- DEBUG_DETACH (R387): The debug access port is detached and SEC_STATUS.DEBUG_ACTIVE clears. -/
  | debugDetach
  /-- PCACHE_BLOCK_ZEROED (R369): A page-cache slice finishes zeroing a released 4 KiB block, which may then be allocated again, letting an engine waiting on its 2 MiB unzeroed limit proceed. -/
  | pcacheBlockZeroed (slice : Fin 32) (blk : Nat)
  deriving DecidableEq, Repr

end Sys2Proof
end

