-- ==== Sys2Proof/WellFormed.lean ====
section
/-! DEFINITION. Which commands are well formed: what the types of their operands leave open. -/

namespace Sys2Proof

/-- The longest message (R251). -/
def maxMessage : Nat := 2 ^ 31

/-- The payload of a command that is a message; empty for the others. -/
def Instr.payload : Instr → List Byte
  | .registerWrite _ _ => []
  | .csrMisalignedAccess _ _ _ _ => []
  | .rcCounterRead _ => []
  | .append _ _ p => p
  | .sealSeq _ _ p => p
  | .fork _ _ p => p
  | .truncate _ _ p => p
  | .purgeRegister _ => []
  | .free _ _ p => p
  | .pageSeal _ => []
  | .sealCrcDone _ => []
  | .coldConversion _ => []
  | .thaw _ => []
  | .thawDone _ _ _ => []
  | .pgtEpochAdvance => []
  | .pageReclaim _ => []
  | .cvuGo _ _ => []
  | .cvuCtxWrite _ _ => []
  | .cvuJobDone _ _ => []
  | .classDefine _ => []
  | .classDef1Write _ => []
  | .descSnapshot _ => []
  | .lookup _ _ p => p.payload
  | .lookupNext _ _ p => p.payload
  | .adoptFork _ _ p => p.payload
  | .ageDecrement => []
  | .pdirScrubPass _ => []
  | .purgePassDone _ => []
  | .pdirDisable _ => []
  | .pdirEnable _ => []
  | .query _ _ p => p
  | .batchQuery _ _ p => p
  | .subquery _ _ p => p
  | .windowSplit _ => []
  | .workItemDispatch _ => []
  | .engineUnitEnd _ _ _ => []
  | .lockWaitExpire _ => []
  | .engineSramUe _ => []
  | .streamTimeout _ => []
  | .abort _ _ p => p
  | .mergeRecord _ => []
  | .partialRecord _ _ p => p
  | .mergeAreaUe _ => []
  | .resultDelivered _ => []
  | .grant _ _ p => p
  | .wxpLoad _ => []
  | .wxpLoadComplete _ _ _ _ => []
  | .wxpUnload _ => []
  | .wxpUnloadComplete _ _ => []
  | .wxpRestore _ => []
  | .wxpRestoreComplete _ _ _ _ => []
  | .wxpTileRequest _ => []
  | .wxpBlockDecoded _ _ _ => []
  | .wxpCopyGo _ => []
  | .wxpCopyDone _ => []
  | .heatSweep => []
  | .sweepDone => []
  | .leapBegin _ _ => []
  | .leapCommit _ _ => []
  | .pin _ => []
  | .unpin _ => []
  | .faultIssue _ => []
  | .faultLand _ _ => []
  | .assemblyUnitProgram _ _ => []
  | .offerSend _ => []
  | .lendOffer _ _ p => p
  | .leapPush _ _ p => p
  | .leapPull _ _ p => p
  | .lendRelease _ _ p => p
  | .recallStart => []
  | .lendRecall _ _ p => p
  | .lendReturn _ _ p => p
  | .recallDeadline _ => []
  | .lendReassign _ _ p => p
  | .extentReclaim _ => []
  | .tierExtSnapshot _ => []
  | .add _ _ _ _ _ => []
  | .sub _ _ _ _ _ => []
  | .and _ _ _ _ _ => []
  | .or _ _ _ _ _ => []
  | .xor _ _ _ _ _ => []
  | .shl _ _ _ _ _ => []
  | .shr _ _ _ _ _ => []
  | .sra _ _ _ _ _ => []
  | .mul _ _ _ _ _ => []
  | .sltu _ _ _ _ _ => []
  | .slt _ _ _ _ _ => []
  | .addi _ _ _ _ _ => []
  | .andi _ _ _ _ _ => []
  | .ori _ _ _ _ _ => []
  | .xori _ _ _ _ _ => []
  | .shli _ _ _ _ _ => []
  | .shri _ _ _ _ _ => []
  | .lui _ _ _ => []
  | .ldw _ _ _ _ _ => []
  | .stw _ _ _ _ _ => []
  | .ldb _ _ _ _ _ => []
  | .stb _ _ _ _ _ => []
  | .beq _ _ _ _ _ => []
  | .bne _ _ _ _ _ => []
  | .bltu _ _ _ _ _ => []
  | .bgeu _ _ _ _ _ => []
  | .jal _ _ _ => []
  | .jalr _ _ _ _ _ => []
  | .hld _ _ _ _ _ _ => []
  | .hst _ _ _ _ _ => []
  | .vhalb _ _ _ _ _ => []
  | .vfix _ _ _ _ _ _ => []
  | .vld _ _ _ _ _ _ => []
  | .vst _ _ _ _ _ => []
  | .vldl _ _ _ _ _ => []
  | .vstl _ _ _ _ _ => []
  | .vxor _ _ _ _ _ => []
  | .vand _ _ _ _ _ => []
  | .vor _ _ _ _ _ => []
  | .vaddw _ _ _ _ _ => []
  | .vdig _ _ _ _ _ => []
  | .vcrc _ _ _ _ _ => []
  | .vbcast _ _ _ _ _ => []
  | .rsend _ _ _ _ _ => []
  | .rrecv _ _ _ _ _ => []
  | .waitd _ _ _ _ _ => []
  | .donej _ _ _ _ _ => []
  | .halt _ _ _ _ _ => []
  | .digest _ _ _ _ => []
  | .crc _ _ _ _ => []
  | .compact _ _ _ _ _ => []
  | .zero _ _ _ _ => []
  | .scrubRange _ _ _ _ => []
  | .scrubPage _ _ _ _ => []
  | .cow _ _ _ _ => []
  | .sweep _ _ _ _ => []
  | .gkDoorbell _ _ => []
  | .slotWrite _ _ _ _ => []
  | .lockRelease _ _ => []
  | .geckoWatchdog _ => []
  | .geckoStop _ _ => []
  | .geckoReset _ _ => []
  | .geckoRun _ _ => []
  | .ustoreAccess _ _ => []
  | .scratchAccess _ _ => []
  | .hbmRefresh _ _ _ => []
  | .hbmRetrain _ _ => []
  | .hbmScrubSchedule _ => []
  | .fltFormat _ => []
  | .fltReplay _ => []
  | .replayDone _ => []
  | .fltEnable _ => []
  | .fltCmdRead _ => []
  | .fltCmdWrite _ => []
  | .fltCmdTrim _ => []
  | .fltCmdTrimArea _ => []
  | .unitAllocate _ _ => []
  | .unitWrite _ _ _ _ => []
  | .unitTrim _ _ => []
  | .slotsUpdate _ _ => []
  | .unitRead _ _ _ => []
  | .writeCommit _ => []
  | .nativePadTimer _ => []
  | .journalFlush => []
  | .checkpointSave => []
  | .gcMove _ _ => []
  | .superblockOpen _ => []
  | .programFail _ => []
  | .fltTempSample _ => []
  | .packetReceive _ _ _ => []
  | .ackDelayExpire _ => []
  | .tackReceive _ _ p => p
  | .transmitOpportunity _ => []
  | .retxTimerExpire _ => []
  | .reorderExpire _ => []
  | .rateRecovery _ => []
  | .portUp _ => []
  | .portDown _ => []
  | .conduitOpen _ => []
  | .conduitClose _ => []
  | .conduitFail _ => []
  | .drainTimeout _ => []
  | .conduitSnapshot _ => []
  | .ack _ _ p => p
  | .nack _ _ p => p
  | .loopbackSend _ => []
  | .controlFirmware _ _ p => p
  | .write _ _ _ p => p
  | .writeImm _ _ _ _ p => p
  | .read _ _ _ p => p
  | .readResp _ _ p => p
  | .regionRegister _ => []
  | .regionRevoke _ => []
  | .revokeComplete _ => []
  | .regionSnapshot _ => []
  | .cqEnable _ => []
  | .cqNotify _ => []
  | .cqCredit _ _ p => p
  | .cqConsume _ => []
  | .postWr _ _ p => p
  | .workRequestFire _ => []
  | .wrRetry _ => []
  | .flushCtr _ _ p => p
  | .counterSet _ => []
  | .counterDisable _ => []
  | .bucketRefill => []
  | .croakSend => []
  | .croak _ _ p => p
  | .leaseExpire => []
  | .silence => []
  | .mirrorAppend _ _ p => p
  | .mirrorSeal _ _ p => p
  | .mirrorFork _ _ p => p
  | .mirrorTruncate _ _ p => p
  | .mirrorFree _ _ p => p
  | .mirrorPage _ _ p => p
  | .mirrorFetch _ _ p => p
  | .mirrorTable _ _ p => p
  | .mirrorAckApplied _ _ p => p
  | .mirrorAckFlushed _ _ p => p
  | .mirrorAckContent _ _ p => p
  | .takeoverClaim _ _ p => p
  | .takeoverGrant _ _ p => p
  | .takeoverRefuse _ _ p => p
  | .claimTimeout => []
  | .takeoverAnnounce _ _ p => p
  | .takeoverHandback _ _ p => p
  | .takeoverPermit _ _ p => p
  | .takeoverPermitOk _ _ p => p
  | .permitTimeout => []
  | .handoff _ => []
  | .handoffDrained => []
  | .expelPeer _ => []
  | .regrowStart _ => []
  | .regrowClaim => []
  | .twnHandback _ => []
  | .twnRelease _ => []
  | .clearSuspect _ => []
  | .wornClear _ => []
  | .xchkCompare _ _ => []
  | .healthCompute => []
  | .windowSnapshot _ => []
  | .xlogSnapshot _ => []
  | .custodyPrepare _ _ p => p
  | .custodyHandover _ _ p => p
  | .custodyAccept _ _ p => p
  | .custodyCommit _ _ p => p
  | .custodyRevert _ _ p => p
  | .custodyCancel _ _ p => p
  | .custodyAsk _ _ p => p
  | .custodySync _ _ p => p
  | .custodyRelease _ _ p => p
  | .custodyInfo _ _ p => p
  | .custodyDeadline _ => []
  | .custodyAskTimer _ => []
  | .orphanFree _ => []
  | .moltQueue _ _ => []
  | .moltStart => []
  | .moltDone _ => []
  | .fuseProgram _ => []
  | .fuseRevoke _ => []
  | .svnStep _ => []
  | .keyLoad _ => []
  | .keyErase _ => []
  | .pkeyCreate _ _ => []
  | .pkeyLoad _ _ => []
  | .pkeyDestroy _ _ => []
  | .measExtend _ => []
  | .secSign _ => []
  | .secQuote _ => []
  | .signatureDone => []
  | .bootDone _ => []
  | .rngRead => []
  | .debugDeclare _ => []
  | .debugAttach => []
  | .evcClaim _ => []
  | .evcComplete _ _ => []
  | .evcSrcWrite _ _ => []
  | .mailboxEnable _ _ => []
  | .mailboxConsume _ _ => []
  | .mailboxPost _ => []
  | .mtimeCompare _ => []
  | .watchdogExpire => []
  | .watchdogKick _ => []
  | .coreRun _ _ => []
  | .coreReset _ _ => []
  | .coreUncachedAccess _ _ _ _ _ => []
  | .glbTempSample _ => []
  | .softReset _ => []
  | .coldStart _ _ _ _ => []
  | .warmRestart _ => []
  | .debugReset => []
  | .joinTimeout => []
  | .shelterEnter => []
  | .shelterExit => []
  | .shelterTimeout => []
  | .powerFail => []
  | .powerfailRestart _ _ _ _ => []
  | .pllUnlock _ => []
  | .pllRelock _ => []
  | .thermtrip => []
  | .mgtFrameReceive _ _ => []
  | .mgtRxPost _ => []
  | .mgtTxPost _ => []
  | .mgtTxDone => []
  | .mgtLinkChange _ => []
  | .compositionWrite _ _ => []
  | .usageSample => []
  | .usagePeriodic => []
  | .usageSnapshot _ => []
  | .mgtTempSample _ => []
  | .extest _ => []
  | .idcode => []
  | .samplePreload _ => []
  | .tapDebug => []
  | .bypass _ => []
  | .coldResetAssert => []
  | .eraseComplete _ _ => []
  | .fuseCommandDone _ => []
  | .illegalOpcode _ => []
  | .freeComplete _ => []
  | .regrowMirrorSend => []
  | .debugDetach => []
  | .pcacheBlockZeroed _ _ => []

/-- The check: a message within the limit of R251, indices within their tables, access sizes a core can make. -/
def Instr.wf : Instr → Bool
  | .registerWrite _ _ => true
  | .csrMisalignedAccess _ a w _ => (w == 1 || w == 2 || w == 4 || w == 8) && !(w == 8 && a.toNat % 8 == 0)
  | .rcCounterRead _ => true
  | .append _ _ p => decide (p.length ≤ maxMessage)
  | .sealSeq _ _ p => decide (p.length ≤ maxMessage)
  | .fork _ _ p => decide (p.length ≤ maxMessage)
  | .truncate _ _ p => decide (p.length ≤ maxMessage)
  | .purgeRegister idx => decide (idx < 16777216)
  | .free _ _ p => decide (p.length ≤ maxMessage)
  | .pageSeal desc => decide (desc < 4294967296)
  | .sealCrcDone desc => decide (desc < 4294967296)
  | .coldConversion idx => decide (idx < 16777216)
  | .thaw idx => decide (idx < 16777216)
  | .thawDone idx _ _ => decide (idx < 16777216)
  | .pgtEpochAdvance => true
  | .pageReclaim desc => decide (desc < 4294967296)
  | .cvuGo _ _ => true
  | .cvuCtxWrite _ _ => true
  | .cvuJobDone _ _ => true
  | .classDefine _ => true
  | .classDef1Write _ => true
  | .descSnapshot _ => true
  | .lookup _ _ p => decide (p.payload.length ≤ maxMessage)
  | .lookupNext _ _ p => decide (p.payload.length ≤ maxMessage)
  | .adoptFork _ _ p => decide (p.payload.length ≤ maxMessage)
  | .ageDecrement => true
  | .pdirScrubPass _ => true
  | .purgePassDone _ => true
  | .pdirDisable _ => true
  | .pdirEnable _ => true
  | .query _ _ p => decide (p.length ≤ maxMessage)
  | .batchQuery _ _ p => decide (p.length ≤ maxMessage)
  | .subquery _ _ p => decide (p.length ≤ maxMessage)
  | .windowSplit st => decide (st < 65536)
  | .workItemDispatch st => decide (st < 65536)
  | .engineUnitEnd _ _ _ => true
  | .lockWaitExpire _ => true
  | .engineSramUe _ => true
  | .streamTimeout st => decide (st < 65536)
  | .abort _ _ p => decide (p.length ≤ maxMessage)
  | .mergeRecord _ => true
  | .partialRecord _ _ p => decide (p.length ≤ maxMessage)
  | .mergeAreaUe st => decide (st < 65536)
  | .resultDelivered st => decide (st < 65536)
  | .grant _ _ p => decide (p.length ≤ maxMessage)
  | .wxpLoad _ => true
  | .wxpLoadComplete _ _ _ _ => true
  | .wxpUnload _ => true
  | .wxpUnloadComplete _ _ => true
  | .wxpRestore _ => true
  | .wxpRestoreComplete _ _ _ _ => true
  | .wxpTileRequest st => decide (st < 65536)
  | .wxpBlockDecoded _ _ _ => true
  | .wxpCopyGo _ => true
  | .wxpCopyDone _ => true
  | .heatSweep => true
  | .sweepDone => true
  | .leapBegin desc _ => decide (desc < 4294967296)
  | .leapCommit desc _ => decide (desc < 4294967296)
  | .pin _ => true
  | .unpin _ => true
  | .faultIssue desc => decide (desc < 4294967296)
  | .faultLand desc _ => decide (desc < 4294967296)
  | .assemblyUnitProgram _ _ => true
  | .offerSend _ => true
  | .lendOffer _ _ p => decide (p.length ≤ maxMessage)
  | .leapPush _ _ p => decide (p.length ≤ maxMessage)
  | .leapPull _ _ p => decide (p.length ≤ maxMessage)
  | .lendRelease _ _ p => decide (p.length ≤ maxMessage)
  | .recallStart => true
  | .lendRecall _ _ p => decide (p.length ≤ maxMessage)
  | .lendReturn _ _ p => decide (p.length ≤ maxMessage)
  | .recallDeadline _ => true
  | .lendReassign _ _ p => decide (p.length ≤ maxMessage)
  | .extentReclaim _ => true
  | .tierExtSnapshot _ => true
  | .add _ _ _ _ _ => true
  | .sub _ _ _ _ _ => true
  | .and _ _ _ _ _ => true
  | .or _ _ _ _ _ => true
  | .xor _ _ _ _ _ => true
  | .shl _ _ _ _ _ => true
  | .shr _ _ _ _ _ => true
  | .sra _ _ _ _ _ => true
  | .mul _ _ _ _ _ => true
  | .sltu _ _ _ _ _ => true
  | .slt _ _ _ _ _ => true
  | .addi _ _ _ _ _ => true
  | .andi _ _ _ _ _ => true
  | .ori _ _ _ _ _ => true
  | .xori _ _ _ _ _ => true
  | .shli _ _ _ _ _ => true
  | .shri _ _ _ _ _ => true
  | .lui _ _ _ => true
  | .ldw _ _ _ _ _ => true
  | .stw _ _ _ _ _ => true
  | .ldb _ _ _ _ _ => true
  | .stb _ _ _ _ _ => true
  | .beq _ _ _ _ _ => true
  | .bne _ _ _ _ _ => true
  | .bltu _ _ _ _ _ => true
  | .bgeu _ _ _ _ _ => true
  | .jal _ _ _ => true
  | .jalr _ _ _ _ _ => true
  | .hld _ _ _ _ _ _ => true
  | .hst _ _ _ _ _ => true
  | .vhalb _ _ _ _ _ => true
  | .vfix _ _ _ _ _ _ => true
  | .vld _ _ _ _ _ _ => true
  | .vst _ _ _ _ _ => true
  | .vldl _ _ _ _ _ => true
  | .vstl _ _ _ _ _ => true
  | .vxor _ _ _ _ _ => true
  | .vand _ _ _ _ _ => true
  | .vor _ _ _ _ _ => true
  | .vaddw _ _ _ _ _ => true
  | .vdig _ _ _ _ _ => true
  | .vcrc _ _ _ _ _ => true
  | .vbcast _ _ _ _ _ => true
  | .rsend _ _ _ _ _ => true
  | .rrecv _ _ _ _ _ => true
  | .waitd _ _ _ _ _ => true
  | .donej _ _ _ _ _ => true
  | .halt _ _ _ _ _ => true
  | .digest _ _ _ _ => true
  | .crc _ _ _ _ => true
  | .compact _ _ desc _ _ => decide (desc < 4294967296)
  | .zero _ _ _ _ => true
  | .scrubRange _ _ _ _ => true
  | .scrubPage _ _ _ _ => true
  | .cow _ _ _ _ => true
  | .sweep _ _ _ _ => true
  | .gkDoorbell _ _ => true
  | .slotWrite _ _ _ _ => true
  | .lockRelease _ _ => true
  | .geckoWatchdog _ => true
  | .geckoStop _ _ => true
  | .geckoReset _ _ => true
  | .geckoRun _ _ => true
  | .ustoreAccess _ _ => true
  | .scratchAccess _ _ => true
  | .hbmRefresh _ b _ => decide (b < 64)
  | .hbmRetrain _ r => decide (r.stallNs ≤ 2000)
  | .hbmScrubSchedule _ => true
  | .fltFormat _ => true
  | .fltReplay _ => true
  | .replayDone _ => true
  | .fltEnable _ => true
  | .fltCmdRead _ => true
  | .fltCmdWrite _ => true
  | .fltCmdTrim _ => true
  | .fltCmdTrimArea _ => true
  | .unitAllocate _ _ => true
  | .unitWrite lunit _ _ _ => decide (lunit < 4294967296)
  | .unitTrim lunit _ => decide (lunit < 4294967296)
  | .slotsUpdate lunit _ => decide (lunit < 4294967296)
  | .unitRead lunit _ _ => decide (lunit < 4294967296)
  | .writeCommit lunit => decide (lunit < 4294967296)
  | .nativePadTimer _ => true
  | .journalFlush => true
  | .checkpointSave => true
  | .gcMove lunit _ => decide (lunit < 4294967296)
  | .superblockOpen _ => true
  | .programFail w => decide (w.1 < 4294967296)
  | .fltTempSample t => decide (-55 ≤ t ∧ t ≤ 255)
  | .packetReceive _ f _ => decide (f.length ≤ 16384)
  | .ackDelayExpire _ => true
  | .tackReceive _ _ p => decide (p.length ≤ maxMessage)
  | .transmitOpportunity _ => true
  | .retxTimerExpire _ => true
  | .reorderExpire _ => true
  | .rateRecovery _ => true
  | .portUp _ => true
  | .portDown _ => true
  | .conduitOpen _ => true
  | .conduitClose _ => true
  | .conduitFail _ => true
  | .drainTimeout _ => true
  | .conduitSnapshot _ => true
  | .ack _ _ p => decide (p.length ≤ maxMessage)
  | .nack _ _ p => decide (p.length ≤ maxMessage)
  | .loopbackSend _ => true
  | .controlFirmware _ _ p => decide (p.length ≤ maxMessage)
  | .write _ _ _ p => decide (p.length ≤ maxMessage)
  | .writeImm _ _ _ _ p => decide (p.length ≤ maxMessage)
  | .read _ _ _ p => decide (p.length ≤ maxMessage)
  | .readResp _ _ p => decide (p.length ≤ maxMessage)
  | .regionRegister _ => true
  | .regionRevoke _ => true
  | .revokeComplete idx => decide (idx < 16777216)
  | .regionSnapshot _ => true
  | .cqEnable _ => true
  | .cqNotify _ => true
  | .cqCredit _ _ p => decide (p.length ≤ maxMessage)
  | .cqConsume _ => true
  | .postWr _ _ p => decide (p.length ≤ maxMessage)
  | .workRequestFire ctr => decide (ctr < 65536)
  | .wrRetry _ => true
  | .flushCtr _ _ p => decide (p.length ≤ maxMessage)
  | .counterSet _ => true
  | .counterDisable _ => true
  | .bucketRefill => true
  | .croakSend => true
  | .croak _ _ p => decide (p.length ≤ maxMessage)
  | .leaseExpire => true
  | .silence => true
  | .mirrorAppend _ _ p => decide (p.length ≤ maxMessage)
  | .mirrorSeal _ _ p => decide (p.length ≤ maxMessage)
  | .mirrorFork _ _ p => decide (p.length ≤ maxMessage)
  | .mirrorTruncate _ _ p => decide (p.length ≤ maxMessage)
  | .mirrorFree _ _ p => decide (p.length ≤ maxMessage)
  | .mirrorPage _ _ p => decide (p.length ≤ maxMessage)
  | .mirrorFetch _ _ p => decide (p.length ≤ maxMessage)
  | .mirrorTable _ _ p => decide (p.length ≤ maxMessage)
  | .mirrorAckApplied _ _ p => decide (p.length ≤ maxMessage)
  | .mirrorAckFlushed _ _ p => decide (p.length ≤ maxMessage)
  | .mirrorAckContent _ _ p => decide (p.length ≤ maxMessage)
  | .takeoverClaim _ _ p => decide (p.length ≤ maxMessage)
  | .takeoverGrant _ _ p => decide (p.length ≤ maxMessage)
  | .takeoverRefuse _ _ p => decide (p.length ≤ maxMessage)
  | .claimTimeout => true
  | .takeoverAnnounce _ _ p => decide (p.length ≤ maxMessage)
  | .takeoverHandback _ _ p => decide (p.length ≤ maxMessage)
  | .takeoverPermit _ _ p => decide (p.length ≤ maxMessage)
  | .takeoverPermitOk _ _ p => decide (p.length ≤ maxMessage)
  | .permitTimeout => true
  | .handoff _ => true
  | .handoffDrained => true
  | .expelPeer _ => true
  | .regrowStart _ => true
  | .regrowClaim => true
  | .twnHandback _ => true
  | .twnRelease _ => true
  | .clearSuspect _ => true
  | .wornClear _ => true
  | .xchkCompare st _ => decide (st < 65536)
  | .healthCompute => true
  | .windowSnapshot _ => true
  | .xlogSnapshot _ => true
  | .custodyPrepare _ _ p => decide (p.length ≤ maxMessage)
  | .custodyHandover _ _ p => decide (p.length ≤ maxMessage)
  | .custodyAccept _ _ p => decide (p.length ≤ maxMessage)
  | .custodyCommit _ _ p => decide (p.length ≤ maxMessage)
  | .custodyRevert _ _ p => decide (p.length ≤ maxMessage)
  | .custodyCancel _ _ p => decide (p.length ≤ maxMessage)
  | .custodyAsk _ _ p => decide (p.length ≤ maxMessage)
  | .custodySync _ _ p => decide (p.length ≤ maxMessage)
  | .custodyRelease _ _ p => decide (p.length ≤ maxMessage)
  | .custodyInfo _ _ p => decide (p.length ≤ maxMessage)
  | .custodyDeadline idx => decide (idx < 16777216)
  | .custodyAskTimer idx => decide (idx < 16777216)
  | .orphanFree idx => decide (idx < 16777216)
  | .moltQueue _ _ => true
  | .moltStart => true
  | .moltDone _ => true
  | .fuseProgram _ => true
  | .fuseRevoke _ => true
  | .svnStep _ => true
  | .keyLoad _ => true
  | .keyErase _ => true
  | .pkeyCreate _ _ => true
  | .pkeyLoad _ _ => true
  | .pkeyDestroy _ _ => true
  | .measExtend _ => true
  | .secSign _ => true
  | .secQuote _ => true
  | .signatureDone => true
  | .bootDone _ => true
  | .rngRead => true
  | .debugDeclare _ => true
  | .debugAttach => true
  | .evcClaim _ => true
  | .evcComplete _ _ => true
  | .evcSrcWrite _ _ => true
  | .mailboxEnable _ _ => true
  | .mailboxConsume _ _ => true
  | .mailboxPost _ => true
  | .mtimeCompare _ => true
  | .watchdogExpire => true
  | .watchdogKick _ => true
  | .coreRun _ _ => true
  | .coreReset _ _ => true
  | .coreUncachedAccess _ a w _ _ => (w == 1 || w == 2 || w == 4 || w == 8) && a.toNat % w == 0
  | .glbTempSample t => decide (-55 ≤ t ∧ t ≤ 255)
  | .softReset _ => true
  | .coldStart _ _ _ _ => true
  | .warmRestart _ => true
  | .debugReset => true
  | .joinTimeout => true
  | .shelterEnter => true
  | .shelterExit => true
  | .shelterTimeout => true
  | .powerFail => true
  | .powerfailRestart _ _ _ _ => true
  | .pllUnlock _ => true
  | .pllRelock _ => true
  | .thermtrip => true
  | .mgtFrameReceive f _ => decide (f.length ≤ 16384)
  | .mgtRxPost _ => true
  | .mgtTxPost _ => true
  | .mgtTxDone => true
  | .mgtLinkChange _ => true
  | .compositionWrite _ _ => true
  | .usageSample => true
  | .usagePeriodic => true
  | .usageSnapshot _ => true
  | .mgtTempSample _ => true
  | .extest l => decide (l.length ≤ 4096)
  | .idcode => true
  | .samplePreload l => decide (l.length ≤ 4096)
  | .tapDebug => true
  | .bypass _ => true
  | .coldResetAssert => true
  | .eraseComplete _ _ => true
  | .fuseCommandDone _ => true
  | .illegalOpcode _ => true
  | .freeComplete idx => decide (idx < 16777216)
  | .regrowMirrorSend => true
  | .debugDetach => true
  | .pcacheBlockZeroed _ _ => true

end Sys2Proof
end

