-- ==== Sys2Proof/Config.lean ====
section
/-! DEFINITION. What the spec leaves to the device, as constants without a body: nothing can be proved of their values.
Each is taken at a counter of the state (`State.free`) or at the operands it depends on (notes/assumptions/2.md). -/

namespace Sys2Proof

/-- DESIGN CHOICE: the object the device picks where the spec names no order: a frame, an index, a unit, a key. -/
opaque Config.pick : Nat → Nat

/-- DESIGN CHOICE: random bits (R377, SEC_RNG). -/
opaque Config.random : Nat → Word

/-- DESIGN CHOICE: 2^x at a point where R28 gives a bound and no value. -/
opaque Config.exp2 : W32 → W32

/-- DESIGN CHOICE: the error of the device's tanh at z / c, which R29 bounds and does not state, in units of 2^-44 of tanh. -/
opaque Config.tanh : W32 → W32 → Int

/-- DESIGN CHOICE: a signature over a message (R384, R385). -/
opaque Config.sign : List Byte → List Byte

/-- DESIGN CHOICE: the system key derived from the device secret and the value of the anchor record (R377). -/
opaque Config.systemKey : List Byte → List Byte

/-- DESIGN CHOICE: the fused serial number (GLB_SERIAL). -/
opaque Config.serial : Word

/-- DESIGN CHOICE: the key hash Nerec programs in slot 0 (R379). -/
opaque Config.fusedHash : List Byte

/-- DESIGN CHOICE: a digest of what the boot ROM measures, whose bytes the spec does not lay out (Table 17-4, MEAS7 of R387). -/
opaque Config.measured : Nat → List Byte → List Byte

/-- DESIGN CHOICE: the storage root key, derived from the fused device secret (R377). -/
opaque Config.rootKey : BitVec 256

/-- DESIGN CHOICE: the level at a ball that a board drives (R459). -/
opaque Config.ball : Nat → Nat → Bool

/-- DESIGN CHOICE: Nerec's DER certificate of the identity key (R382). -/
opaque Config.certificate : List Byte

/-- DESIGN CHOICE: the line end after a status code on the UART (R419), and the report of a skipped fuse command (R421). -/
opaque Config.lineEnd : List Byte
opaque Config.skipReport : Nat → List Byte

/-- DESIGN CHOICE: the boot ROM (R390, R395). -/
opaque Config.bootRom : Nat → Byte

/-- DESIGN CHOICE: where in PCACHE the slope table and query rows of a stream stand (QBUF of Table 5-6). -/
opaque Config.queryPlace : Nat → Nat

end Sys2Proof
end

