-- ==== Sys2Proof/Machine/Float.lean ====
section
/-! DEFINITION. Element formats and FP32 arithmetic (chapter 2). -/

namespace Sys2Proof.Machine

/-- Rounding directions: to nearest even (R27) and the two directed ones (R132, R136). -/
inductive Rnd where
  | rne | up | down
  deriving DecidableEq, Repr

/-- The canonical NaN (R32). -/
def fNaN : W32 := 0x7FC00000
def fInf : W32 := 0x7F800000
def fNegInf : W32 := 0xFF800000

def fSign (w : W32) : Bool := w.getLsbD 31
def fExp (w : W32) : Nat := bits w.toNat 30 23
def fMan (w : W32) : Nat := bits w.toNat 22 0
def fIsNaN (w : W32) : Bool := fExp w == 255 && fMan w != 0
def fIsInf (w : W32) : Bool := fExp w == 255 && fMan w == 0
def fIsFinite (w : W32) : Bool := fExp w != 255
def fIsZero (w : W32) : Bool := w.toNat % 2 ^ 31 == 0

/-- Magnitude of a finite number as (significand, exponent of its last place). -/
def fMag (w : W32) : Nat × Int :=
  if fExp w = 0 then (fMan w, -149) else (fMan w + 2 ^ 23, (fExp w : Int) - 150)

/-- Signed significand of a finite number. -/
def fSig (w : W32) : Int := if fSign w then -((fMag w).1 : Int) else (fMag w).1

/-- The sign bit in place. -/
def fWithSign (neg : Bool) (magBits : Nat) : W32 :=
  BitVec.ofNat 32 ((if neg then 2 ^ 31 else 0) + magBits)

/-- Whether a magnitude rounds away from zero, from the discarded part `r` of `2^n`. -/
def roundsUp (rnd : Rnd) (neg : Bool) (odd : Bool) (r n : Nat) : Bool :=
  match rnd with
  | .rne => decide (2 ^ n < 2 * r) || (decide (2 ^ n = 2 * r) && odd)
  | .up => !neg && decide (0 < r)
  | .down => neg && decide (0 < r)

/-- `(-1)^neg * (a + sticky) * 2^e` rounded to FP32 (R27); `sticky` stands for a non-zero part below the last bit of a. -/
def fRound (rnd : Rnd) (neg : Bool) (a : Nat) (e : Int) (sticky : Bool) : W32 :=
  if a = 0 then fWithSign neg 0
  else
    let a2 := 4 * a + (if sticky then 1 else 0)
    let e2 := e - 2
    let top : Int := (Nat.log2 a2 : Int) + e2
    let q : Int := max (top - 23) (-149)
    let sh : Int := q - e2
    let (man, up) :=
      if sh ≤ 0 then (a2 * 2 ^ (-sh).toNat, false)
      else
        let m := a2 / 2 ^ sh.toNat
        (m, roundsUp rnd neg (m % 2 == 1) (a2 % 2 ^ sh.toNat) sh.toNat)
    let b : Nat := ((q + 149).toNat) * 2 ^ 23 + man + (if up then 1 else 0)
    if 0x7F800000 ≤ b then
      match rnd with
      | .rne => fWithSign neg 0x7F800000
      | .up => if neg then 0xFF7FFFFF else fInf
      | .down => if neg then fNegInf else 0x7F7FFFFF
    else fWithSign neg b

def fNeg (w : W32) : W32 := w ^^^ 0x80000000
def fAbs (w : W32) : W32 := w &&& 0x7FFFFFFF

/-- Sum of two numbers (R27). -/
def fAddR (rnd : Rnd) (x y : W32) : W32 :=
  if fIsNaN x || fIsNaN y then fNaN
  else if fIsInf x then (if fIsInf y && fSign x != fSign y then fNaN else x)
  else if fIsInf y then y
  else
    let e := min (fMag x).2 (fMag y).2
    let sx := fSig x * 2 ^ ((fMag x).2 - e).toNat
    let sy := fSig y * 2 ^ ((fMag y).2 - e).toNat
    let s := sx + sy
    if s = 0 then
      (if fSign x && fSign y then 0x80000000
       else if fSign x != fSign y then (match rnd with | .down => 0x80000000 | _ => 0) else 0)
    else fRound rnd (decide (s < 0)) s.natAbs e false

/-- Product of two numbers. -/
def fMulR (rnd : Rnd) (x y : W32) : W32 :=
  let neg := fSign x != fSign y
  if fIsNaN x || fIsNaN y then fNaN
  else if fIsInf x || fIsInf y then (if fIsZero x || fIsZero y then fNaN else fWithSign neg 0x7F800000)
  else fRound rnd neg ((fMag x).1 * (fMag y).1) ((fMag x).2 + (fMag y).2) false

def fAdd (x y : W32) : W32 := fAddR .rne x y
def fSub (x y : W32) : W32 := fAddR .rne x (fNeg y)
def fMul (x y : W32) : W32 := fMulR .rne x y

/-- z - a * b rounded once (step 4 of Table 2-4). -/
def fMulSub (z a b : W32) : W32 :=
  if !fIsFinite z || !fIsFinite a || !fIsFinite b then fSub z (fMul a b) else
  let ep := (fMag a).2 + (fMag b).2
  let e := min ep (fMag z).2
  let v := fSig z * 2 ^ ((fMag z).2 - e).toNat - fSig a * fSig b * 2 ^ (ep - e).toNat
  if v = 0 then fAdd z (fNeg (fMul a b)) else fRound .rne (decide (v < 0)) v.natAbs e false

/-- Quotient of two numbers, rounded once (R118). -/
def fDivR (rnd : Rnd) (x y : W32) : W32 :=
  let neg := fSign x != fSign y
  if fIsNaN x || fIsNaN y then fNaN
  else if fIsInf x then (if fIsInf y then fNaN else fWithSign neg 0x7F800000)
  else if fIsInf y then fWithSign neg 0
  else if fIsZero y then (if fIsZero x then fNaN else fWithSign neg 0x7F800000)
  else
    let n := (fMag x).1 * 2 ^ 60
    let d := (fMag y).1
    fRound rnd neg (n / d) ((fMag x).2 - (fMag y).2 - 60) (n % d != 0)

def fDiv (x y : W32) : W32 := fDivR .rne x y

/-- A number times 2^k by exponent addition (R27). -/
def fScale (x : W32) (k : Int) : W32 :=
  if !fIsFinite x then (if fIsNaN x then fNaN else x)
  else fRound .rne (fSign x) (fMag x).1 ((fMag x).2 + k) false

/-- A key that orders non-NaN numbers as they compare; both zeros are equal. -/
def fOrd (x : W32) : Int :=
  if fIsZero x then 0 else if fSign x then -((x.toNat % 2 ^ 31 : Nat) : Int) else (x.toNat : Int)

def fLt (x y : W32) : Bool := !fIsNaN x && !fIsNaN y && decide (fOrd x < fOrd y)
def fLe (x y : W32) : Bool := !fIsNaN x && !fIsNaN y && decide (fOrd x ≤ fOrd y)
/-- The larger; of the two zeros +0, so that no order of arrival shows in it (R33). -/
def fMax (x y : W32) : W32 := if fLt x y || (fIsZero x && fIsZero y && fSign x) then y else x
def fMin (x y : W32) : W32 := if fLt y x then y else x

/-- The FP32 number of an integer below 2^24 in magnitude (R98). -/
def fOfInt (i : Int) : W32 := fRound .rne (decide (i < 0)) i.natAbs 0 false

/-- FP32 to B16, to nearest even (R118); NaN is written 0x7FC0 (R32). -/
def fToB16 (x : W32) : BitVec 16 :=
  if fIsNaN x then 0x7FC0
  else if fIsInf x then (if fSign x then 0xFF80 else 0x7F80)
  else
    let m := x.toNat % 2 ^ 31
    let b := m / 2 ^ 16 + (if roundsUp .rne false (m / 2 ^ 16 % 2 == 1) (m % 2 ^ 16) 16 then 1 else 0)
    BitVec.ofNat 16 ((if fSign x then 2 ^ 15 else 0) + b)

/-! ## Elements (R21-R24) -/

/-- A format code of Table 2-1 that is not reserved. -/
inductive Fmt where
  | f8a | f8b | b16 | m8 | m4 | f32
  deriving DecidableEq, Repr

/-- Table 2-1. -/
def fmtOf (code : Nat) : Option Fmt :=
  match code with
  | 1 => some .f8a | 2 => some .f8b | 3 => some .b16 | 4 => some .m8 | 5 => some .m4 | 6 => some .f32
  | _ => none

/-- A format with block scales. -/
def Fmt.scaled (f : Fmt) : Bool := f == .m8 || f == .m4

/-- Row bytes of n elements (R23, R40). -/
def Fmt.rowBytes (f : Fmt) (n : Nat) : Nat :=
  match f with
  | .f8a | .f8b => n
  | .b16 => 2 * n
  | .m8 => n + n / 32
  | .m4 => n / 2 + n / 32
  | .f32 => 4 * n

/-- The element bytes of a row, before its scale bytes. -/
def Fmt.elemBytes (f : Fmt) (n : Nat) : Nat :=
  match f with
  | .m8 => n
  | .m4 => n / 2
  | f => f.rowBytes n

/-- FP32 of a small float with `eb` exponent bits and `mb` mantissa bits, infinities and NaNs aside. -/
def smallFloat (eb mb bias : Nat) (neg : Bool) (w : Nat) : W32 :=
  let e := bits w (eb + mb - 1) mb
  let m := w % 2 ^ mb
  if e = 0 then fRound .rne neg m (1 - (bias : Int) - mb) false
  else fRound .rne neg (m + 2 ^ mb) ((e : Int) - bias - mb) false

/-- F8A (Table 2-2). -/
def decF8A (b : Nat) : W32 := if b % 128 = 127 then fNaN else smallFloat 4 3 7 (128 ≤ b % 256) b
/-- F8B (Table 2-2). -/
def decF8B (b : Nat) : W32 :=
  let neg : Bool := 128 ≤ b % 256
  if b % 128 = 124 then fWithSign neg 0x7F800000
  else if 124 < b % 128 then fNaN
  else smallFloat 5 2 15 neg b
/-- E2M1 (Table 2-2). -/
def decE2M1 (b : Nat) : W32 := smallFloat 2 1 1 (8 ≤ b % 16) b
/-- B16: the upper half of binary32. -/
def decB16 (w : Nat) : W32 := BitVec.ofNat 32 ((w % 2 ^ 16) * 2 ^ 16)

/-- Byte `i` of a list, 0 past its end. -/
def byteAt (l : List Byte) (i : Nat) : Nat := ((l[i]?).getD 0).toNat

/-- Element i of a row of n elements, before its block scale. -/
def rowElem (f : Fmt) (row : List Byte) (i : Nat) : W32 :=
  match f with
  | .f8a | .m8 => decF8A (byteAt row i)
  | .f8b => decF8B (byteAt row i)
  | .b16 => decB16 (byteAt row (2 * i) + 256 * byteAt row (2 * i + 1))
  | .m4 => decE2M1 (byteAt row (i / 2) / (if i % 2 = 0 then 1 else 16) % 16)
  | .f32 => BitVec.ofNat 32 (byteAt row (4 * i) + 256 * byteAt row (4 * i + 1) + 65536 * byteAt row (4 * i + 2) +
      16777216 * byteAt row (4 * i + 3))

/-- The scale byte of block b of a row of n elements (R23). -/
def rowScale (f : Fmt) (row : List Byte) (n b : Nat) : Nat :=
  if f.scaled then byteAt row (f.elemBytes n + b) else 127

/-- A value times a scale byte (R23, R24): 0xFF makes it NaN. -/
def applyScale (x : W32) (sc : Nat) : W32 := if sc = 255 then fNaN else fScale x ((sc : Int) - 127)

/-- The decoded value of element i of a row of n elements (R23, R24). -/
def rowValue (f : Fmt) (row : List Byte) (n i : Nat) : W32 :=
  if f.scaled then applyScale (rowElem f row i) (rowScale f row n (i / 32)) else rowElem f row i

/-- Rounding to F8A, to nearest even, for weights in [0, 1] (R29, R30), as the FP32 number it decodes to. -/
def roundF8A (x : W32) : W32 :=
  if !fIsFinite x then x
  else
    let (a, e) := fMag x
    let top : Int := (Nat.log2 a : Int) + e
    let q : Int := max (top - 3) (-9)
    let sh := (q - e).toNat
    let m := a / 2 ^ sh + (if roundsUp .rne false (a / 2 ^ sh % 2 == 1) (a % 2 ^ sh) sh then 1 else 0)
    fRound .rne (fSign x) (if a = 0 then 0 else m) q false

/-- A value stored in F8B, rounded outward; one beyond its range, 57,344, is the infinity of its own sign (R132). -/
def toF8B (rnd : Rnd) (x : W32) : Byte :=
  if fIsNaN x then 0x7D
  else if fLt 0x47600000 (fAbs x) then (if fSign x then 0xFC else 0x7C)
  else
    let (a, e) := fMag x
    let top : Int := (Nat.log2 a : Int) + e
    let q : Int := max (top - 2) (-16)
    let sh := (q - e).toNat
    let lsh := (e - q).toNat
    let a' := a * 2 ^ lsh
    let m := a' / 2 ^ sh + (if roundsUp rnd (fSign x) (a' / 2 ^ sh % 2 == 1) (a' % 2 ^ sh) sh then 1 else 0)
    let b := if a = 0 then 0 else min 124 ((q + 16).toNat * 4 + m)
    BitVec.ofNat 8 ((if fSign x then 128 else 0) + b)

/-! ## Trees (R27) -/

/-- One level of the balanced tree: node 2i added to node 2i + 1, an odd one passed up. -/
def treeLevel : List W32 → List W32
  | x :: y :: t => fAdd x y :: treeLevel t
  | l => l

/-- Levels of the tree until one node is left. -/
def treeReduce : Nat → List W32 → W32
  | _, [] => 0
  | _, [x] => x
  | 0, x :: _ => x
  | n + 1, l => treeReduce n (treeLevel l)

/-- The tree sum of a list; +0 for none. -/
def treeSum (l : List W32) : W32 := treeReduce l.length l

/-- Lists of at most 32, in order. -/
def chunks32 : Nat → List W32 → List (List W32)
  | 0, _ => []
  | n + 1, l => if l.isEmpty then [] else l.take 32 :: chunks32 n (l.drop 32)

/-- A dot product whose run b of 32 products carries the scale byte `sc b` (R27). -/
def dotScaled (prods : List W32) (sc : Nat → Nat) : W32 :=
  let cs := chunks32 prods.length prods
  treeSum ((cs.zipIdx).map (fun (c, b) => if sc b = 127 then treeSum c else applyScale (treeSum c) (sc b)))

/-! ## The exponent and tanh units (R28, R29) -/

/-- 2^(2^-i) * 2^96 to the nearest integer, i from 1. -/
def exp2Table0 : List Nat := [
  0x16a09e667f3bcc908b2fb1367,
  0x1306fe0a31b7152de8d5a4630,
  0x1172b83c7d517adcdf7c8c50f,
  0x10b5586cf9890f6298b92b718,
  0x1059b0d31585743ae7c548eb7,
  0x102c9a3e778060ee6f7caca4f,
  0x10163da9fb33356d84a66ae33,
  0x100b1afa5abcbed6129ab13ec,
  0x10058c86da1c09ea1ff19d295,
  0x1002c605e2e8cec506d21bfc9,
  0x100162f3904051fa128bca9c5,
  0x1000b175effdc76ba38e31672,
  0x100058ba01fb9f96d6cacd4b2,
  0x10002c5cc37da9491d0985c35,
  0x1000162e525ee054754457d5a,
  0x10000b17255775c040618bf4a]

/-- 2^(2^-i) * 2^96 to the nearest integer, i from 17. -/
def exp2Table1 : List Nat := [
  0x1000058b91b5bc9ae2eed81ea,
  0x100002c5c89d5ec6ca4d7c8ad,
  0x10000162e43f4f831060e02d8,
  0x100000b1721bcfc99d9f890ea,
  0x10000058b90cf1e6d97f9ca15,
  0x1000002c5c863b73f016468f7,
  0x100000162e430e5a18f6119e4,
  0x1000000b1721835514b86e6d9,
  0x100000058b90c0b48c6be5df8,
  0x10000002c5c8601cc6b9e9421,
  0x1000000162e42fff037df38aa,
  0x10000000b17217fba9c739aa6,
  0x1000000058b90bfcdee5acd3c,
  0x100000002c5c85fe31f35a6a3,
  0x10000000162e42ff0999ce354,
  0x100000000b17217f80f4ef5ab]

/-- 2^(2^-i) * 2^96 to the nearest integer, i from 33. -/
def exp2Table2 : List Nat := [
  0x10000000058b90bfbf8479bd6,
  0x1000000002c5c85fdf84bd62b,
  0x100000000162e42fefb2fed25,
  0x1000000000b17217f7d5a7717,
  0x100000000058b90bfbe9ddbac,
  0x10000000002c5c85fdf4b15de,
  0x1000000000162e42fefa494f1,
  0x10000000000b17217f7d20cf9,
  0x1000000000058b90bfbe8f71d,
  0x100000000002c5c85fdf477b6,
  0x10000000000162e42fefa3ae5,
  0x100000000000b17217f7d1d35,
  0x10000000000058b90bfbe8e8b,
  0x1000000000002c5c85fdf4742,
  0x100000000000162e42fefa3a0,
  0x1000000000000b17217f7d1d0]

/-- 2^(2^-i) * 2^96 to the nearest integer, i from 49. -/
def exp2Table3 : List Nat := [
  0x100000000000058b90bfbe8e8,
  0x10000000000002c5c85fdf474,
  0x1000000000000162e42fefa3a,
  0x10000000000000b17217f7d1d,
  0x1000000000000058b90bfbe8e,
  0x100000000000002c5c85fdf47,
  0x10000000000000162e42fefa4,
  0x100000000000000b17217f7d2,
  0x10000000000000058b90bfbe9,
  0x1000000000000002c5c85fdf4,
  0x100000000000000162e42fefa,
  0x1000000000000000b17217f7d,
  0x100000000000000058b90bfbf,
  0x10000000000000002c5c85fdf,
  0x1000000000000000162e42ff0,
  0x10000000000000000b17217f8]

def exp2Table : List Nat := exp2Table0 ++ exp2Table1 ++ exp2Table2 ++ exp2Table3

/-- 2^(f / 2^64) * 2^96, truncated, for f < 2^64: the product of the table's entries at the set bits of f. -/
def exp2Fix (f : Nat) : Nat :=
  (exp2Table.zipIdx).foldl (fun acc (c, i) => if f.testBit (63 - i) then acc * c / 2 ^ 96 else acc) (2 ^ 96)

/-- |x| * 2^64 rounded down, for a finite x. -/
def fixMag (x : W32) : Nat :=
  let (a, e) := fMag x
  if 0 ≤ e + 64 then a * 2 ^ (e + 64).toNat else a / 2 ^ (-(e + 64)).toNat

/-- 2^x for x ≤ 0 as (significand, exponent): significand * 2^exponent, within a relative 2^-60. -/
def exp2Approx (x : W32) : Nat × Int :=
  let g := fixMag x
  let k := ceilDiv g (2 ^ 64)
  (exp2Fix (k * 2 ^ 64 - g), -96 - (k : Int))

/-- |a * 2^ea - b * 2^eb| ≤ b * 2^eb * 2^-n. -/
def nearRel (a : Nat) (ea : Int) (b : Nat) (eb : Int) (n : Nat) : Bool :=
  let e := min ea eb
  let p : Int := (a * 2 ^ (ea - e).toNat : Nat)
  let q : Int := (b * 2 ^ (eb - e).toNat : Nat)
  decide ((p - q).natAbs * 2 ^ n ≤ q.natAbs)

/-- The exponent unit (R28): exact at the integers, flushed below -126, otherwise the device's own value within the
bound of R28. -/
def exp2 (x : W32) : W32 :=
  if fIsNaN x then fNaN
  else if fIsZero x then 0x3F800000
  else if !fSign x then fInf
  else if fLt x 0xC2FC0000 then 0
  else
    let g := fixMag x
    let (a, e) := fMag x
    if decide (0 ≤ e) || (decide (a % 2 ^ (-e).toNat = 0)) then fWithSign false ((127 - g / 2 ^ 64) * 2 ^ 23)
    else
      let (s, k) := exp2Approx x
      let v := Config.exp2 x
      if fIsFinite v && !fSign v && nearRel (fMag v).1 (fMag v).2 s k 22 then v else fRound .rne false s k false

/-- tanh of num / den as a fraction, within a relative 2^-48 (R29). -/
def tanhFrac (num den : Nat) : Nat × Nat :=
  if num * 4096 < den then (num * (3 * den * den - num * num), 3 * den * den * den)
  else if 32 * den ≤ num then (1, 1)
  else
    -- u = e^(-2 num / den) = 2^(-2 (num / den) log2 e), by log2 e to 64 places
    let t := 2 * 26613026195688644984 * num / den
    let k := ceilDiv t (2 ^ 64)
    let u := exp2Fix (k * 2 ^ 64 - t) / 2 ^ k
    (2 ^ 96 - u, 2 ^ 96 + u)

/-- A non-zero finite x over a positive finite c, in magnitude, as a fraction. -/
def magQuot (x c : W32) : Nat × Nat :=
  let k := (fMag x).2 - (fMag c).2
  ((fMag x).1 * 2 ^ k.toNat, (fMag c).1 * 2 ^ (-k).toNat)

/-- The device's tanh of |x| / c, its own error within the bound of R29, times b * 2^e, rounded once, under the sign of x. -/
def tanhTimes (rnd : Rnd) (b : Nat) (e : Int) (x c : W32) : W32 :=
  let q := magQuot x c
  let f := tanhFrac q.1 q.2
  let err := max (-(2 ^ 24)) (min (2 ^ 24) (Config.tanh x c))
  let n := b * f.1 * ((2 ^ 44 : Int) + err).toNat
  let s := 64 + Nat.log2 f.2
  fRound rnd (fSign x) (n * 2 ^ s / f.2) (e - 44 - s) true

/-- c * tanh(z / c) for finite z and c, rounded once (step 3 of Table 2-4). -/
def fCap (z c : W32) : W32 := if fIsZero z then z else tanhTimes .rne (fMag c).1 (fMag c).2 z c

/-- tanh rounded up (R136). -/
def ftanhUp (y : W32) : W32 :=
  if fIsNaN y then fNaN
  else if fIsZero y then y
  else if fIsInf y then fWithSign (fSign y) 0x3F800000
  else tanhTimes .up 1 0 y 0x3F800000


end Sys2Proof.Machine
end

