-- ==== Sys2Proof/Machine/Registers.lean ====
section
/-! DEFINITION. The control and status registers, as the register tables of spec/ give them: address, access code, reset
value and the rule for a written value (R3-R7, R463). -/

namespace Sys2Proof.Machine

/-- Access codes (Table 0-2). `mb` is a mailbox index, whose access depends on the mailbox (Table 18-9). -/
inductive Acc where
  | rw | ro | wo | w1c | rc | mb
  deriving DecidableEq, Repr

/-- What a written value is taken as (R463); `lowIgnored n`: the low n bits of an address are ignored; `oneOf l`: a value
outside l is 0. -/
inductive Treat where
  | plain | zeroAs (n : Nat) | clamp (lo hi : Nat) | threeAsTwo | pairsThreeAsTwo | lowIgnored (n : Nat) | oneOf (l : List Nat)
  deriving DecidableEq, Repr

/-- One row of a register table. -/
structure RegField where
  hi : Nat
  lo : Nat
  acc : Acc
  reset : Nat
  treat : Treat
  deriving DecidableEq, Repr

/-- One register or array of registers: first address, (count, stride) of each index, fields. -/
structure RegDef where
  base : Nat
  dims : List (Nat × Nat)
  fields : List RegField
  deriving DecidableEq, Repr

/-- A field of one register: its address and bits. -/
structure Fd where
  addr : Nat
  hi : Nat
  lo : Nat
  deriving DecidableEq, Repr

/-- CVU_CTL (03 Table 3-11). -/
def Reg.CVU_CTL (i : Nat) : Nat := 0x40200000 + 0x40 * i
/-- CVU_SRC (03 Table 3-11). -/
def Reg.CVU_SRC (i : Nat) : Nat := 0x40200008 + 0x40 * i
/-- CVU_LEN (03 Table 3-11). -/
def Reg.CVU_LEN (i : Nat) : Nat := 0x40200010 + 0x40 * i
/-- CVU_CTX (03 Table 3-11). -/
def Reg.CVU_CTX (i : Nat) : Nat := 0x40200018 + 0x40 * i
/-- CVU_RESULT (03 Table 3-11). -/
def Reg.CVU_RESULT (i : Nat) : Nat := 0x40200020 + 0x40 * i
/-- CVU_STATUS (03 Table 3-11). -/
def Reg.CVU_STATUS (i : Nat) : Nat := 0x40200028 + 0x40 * i
/-- PGT_CTL (03 Table 3-15). -/
def Reg.PGT_CTL : Nat := 0x42800000
/-- PGT_EPOCH (03 Table 3-15). -/
def Reg.PGT_EPOCH : Nat := 0x42800008
/-- PGT_MIN_EPOCH (03 Table 3-15). -/
def Reg.PGT_MIN_EPOCH : Nat := 0x42800010
/-- PGT_SEQ_COUNT (03 Table 3-15). -/
def Reg.PGT_SEQ_COUNT : Nat := 0x42800018
/-- PGT_DESC_COUNT (03 Table 3-15). -/
def Reg.PGT_DESC_COUNT : Nat := 0x42800020
/-- PGT_RECLAIM_PEND (03 Table 3-15). -/
def Reg.PGT_RECLAIM_PEND : Nat := 0x42800028
/-- PGT_COLD_DELAY (03 Table 3-15). -/
def Reg.PGT_COLD_DELAY : Nat := 0x42800030
/-- PGT_THAWS (03 Table 3-15). -/
def Reg.PGT_THAWS : Nat := 0x42800038
/-- PGT_CLASS_SEL (03 Table 3-15). -/
def Reg.PGT_CLASS_SEL : Nat := 0x42800040
/-- PGT_CLASS_DEF0 (03 Table 3-15). -/
def Reg.PGT_CLASS_DEF0 : Nat := 0x42800048
/-- PGT_CLASS_DEF1 (03 Table 3-15). -/
def Reg.PGT_CLASS_DEF1 : Nat := 0x42800050
/-- PGT_ERR (03 Table 3-15). -/
def Reg.PGT_ERR : Nat := 0x42800058
/-- PGT_DESC_SEL (03 Table 3-15). -/
def Reg.PGT_DESC_SEL : Nat := 0x42800060
/-- PGT_DESC_DATA0 (03 Table 3-15). -/
def Reg.PGT_DESC_DATA0 : Nat := 0x42800068
/-- PGT_DESC_DATA1 (03 Table 3-15). -/
def Reg.PGT_DESC_DATA1 : Nat := 0x42800070
/-- PGT_DESC_DATA2 (03 Table 3-15). -/
def Reg.PGT_DESC_DATA2 : Nat := 0x42800078
/-- PGT_DESC_DATA3 (03 Table 3-15). -/
def Reg.PGT_DESC_DATA3 : Nat := 0x42800080
/-- PGT_PART_SEQ_MAX (03 Table 3-15). -/
def Reg.PGT_PART_SEQ_MAX (i : Nat) : Nat := 0x42800100 + 0x8 * i
/-- PDIR_CTL (04 Table 4-6). -/
def Reg.PDIR_CTL : Nat := 0x42c00000
/-- PDIR_SHADOW_BASE (04 Table 4-6). -/
def Reg.PDIR_SHADOW_BASE : Nat := 0x42c00008
/-- PDIR_SCRUB_MS (04 Table 4-6). -/
def Reg.PDIR_SCRUB_MS : Nat := 0x42c00010
/-- PDIR_COUNT (04 Table 4-6). -/
def Reg.PDIR_COUNT : Nat := 0x42c00018
/-- PDIR_PURGE_PEND (04 Table 4-6). -/
def Reg.PDIR_PURGE_PEND : Nat := 0x42c00020
/-- PDIR_LOOKUPS (04 Table 4-6). -/
def Reg.PDIR_LOOKUPS : Nat := 0x42c00028
/-- PDIR_HITS (04 Table 4-6). -/
def Reg.PDIR_HITS : Nat := 0x42c00030
/-- PDIR_INSERTS (04 Table 4-6). -/
def Reg.PDIR_INSERTS : Nat := 0x42c00038
/-- PDIR_EVICTS (04 Table 4-6). -/
def Reg.PDIR_EVICTS : Nat := 0x42c00040
/-- PDIR_DROPS (04 Table 4-6). -/
def Reg.PDIR_DROPS : Nat := 0x42c00048
/-- PDIR_MISMATCHES (04 Table 4-6). -/
def Reg.PDIR_MISMATCHES : Nat := 0x42c00050
/-- PDIR_ERR (04 Table 4-6). -/
def Reg.PDIR_ERR : Nat := 0x42c00058
/-- PDIR_PART_MAX (04 Table 4-6). -/
def Reg.PDIR_PART_MAX (i : Nat) : Nat := 0x42c00100 + 0x8 * i
/-- PDIR_PART_COUNT (04 Table 4-6). -/
def Reg.PDIR_PART_COUNT (i : Nat) : Nat := 0x42c00180 + 0x8 * i
/-- PDIR_MODEL_ID (04 Table 4-6). -/
def Reg.PDIR_MODEL_ID (i : Nat) : Nat := 0x42c00800 + 0x8 * i
/-- AE_CTL (05 Table 5-11). -/
def Reg.AE_CTL (i : Nat) : Nat := 0x41000000 + 0x10000 * i
/-- AE_STATUS (05 Table 5-11). -/
def Reg.AE_STATUS (i : Nat) : Nat := 0x41000008 + 0x10000 * i
/-- AE_CUR (05 Table 5-11). -/
def Reg.AE_CUR (i : Nat) : Nat := 0x41000010 + 0x10000 * i
/-- AE_ERR (05 Table 5-11). -/
def Reg.AE_ERR (i : Nat) : Nat := 0x41000018 + 0x10000 * i
/-- AE_UNITS (05 Table 5-11). -/
def Reg.AE_UNITS (i : Nat) : Nat := 0x41000020 + 0x10000 * i
/-- AE_BUSY_NS (05 Table 5-11). -/
def Reg.AE_BUSY_NS (i : Nat) : Nat := 0x41000028 + 0x10000 * i
/-- AE_NAN_COUNT (05 Table 5-11). -/
def Reg.AE_NAN_COUNT (i : Nat) : Nat := 0x41000030 + 0x10000 * i
/-- AE_SRAM_CE (05 Table 5-11). -/
def Reg.AE_SRAM_CE (i : Nat) : Nat := 0x41000038 + 0x10000 * i
/-- AE_GCTL (05 Table 5-13). -/
def Reg.AE_GCTL : Nat := 0x41f00000
/-- AE_STREAM_BASE (05 Table 5-13). -/
def Reg.AE_STREAM_BASE : Nat := 0x41f00008
/-- AE_POOL (05 Table 5-13). -/
def Reg.AE_POOL : Nat := 0x41f00010
/-- AE_SPILL_BASE (05 Table 5-13). -/
def Reg.AE_SPILL_BASE : Nat := 0x41f00018
/-- AE_SPILL_SIZE (05 Table 5-13). -/
def Reg.AE_SPILL_SIZE : Nat := 0x41f00020
/-- AE_TIMEOUT (05 Table 5-13). -/
def Reg.AE_TIMEOUT : Nat := 0x41f00028
/-- AE_SPLIT (05 Table 5-13). -/
def Reg.AE_SPLIT : Nat := 0x41f00030
/-- AE_INUSE (05 Table 5-13). -/
def Reg.AE_INUSE : Nat := 0x41f00038
/-- AE_ADMITS (05 Table 5-13). -/
def Reg.AE_ADMITS : Nat := 0x41f00040
/-- AE_PARKS (05 Table 5-13). -/
def Reg.AE_PARKS : Nat := 0x41f00048
/-- AE_PARK_STALLS (05 Table 5-13). -/
def Reg.AE_PARK_STALLS : Nat := 0x41f00050
/-- AE_TIMEOUTS (05 Table 5-13). -/
def Reg.AE_TIMEOUTS : Nat := 0x41f00058
/-- AE_BUSY_REJECTS (05 Table 5-13). -/
def Reg.AE_BUSY_REJECTS : Nat := 0x41f00060
/-- AE_RESTARTS (05 Table 5-13). -/
def Reg.AE_RESTARTS : Nat := 0x41f00068
/-- AE_PART_STREAMS (05 Table 5-13). -/
def Reg.AE_PART_STREAMS (i : Nat) : Nat := 0x41f00100 + 0x8 * i
/-- MRG_CTL (06 Table 6-9). -/
def Reg.MRG_CTL : Nat := 0x42000000
/-- MRG_CREDIT_POOL (06 Table 6-9). -/
def Reg.MRG_CREDIT_POOL : Nat := 0x42000008
/-- MRG_CREDIT_USED (06 Table 6-9). -/
def Reg.MRG_CREDIT_USED : Nat := 0x42000010
/-- MRG_ERR (06 Table 6-9). -/
def Reg.MRG_ERR : Nat := 0x42000018
/-- MRG_UNIT_STATUS (06 Table 6-9). -/
def Reg.MRG_UNIT_STATUS (i : Nat) : Nat := 0x42000020 + 0x8 * i
/-- MRG_MERGES (06 Table 6-9). -/
def Reg.MRG_MERGES : Nat := 0x42000040
/-- MRG_SUBQUERIES (06 Table 6-9). -/
def Reg.MRG_SUBQUERIES : Nat := 0x42000048
/-- MRG_HOLDS (06 Table 6-9). -/
def Reg.MRG_HOLDS : Nat := 0x42000050
/-- MRG_GRANTS (06 Table 6-9). -/
def Reg.MRG_GRANTS : Nat := 0x42000058
/-- MRG_STALE (06 Table 6-9). -/
def Reg.MRG_STALE : Nat := 0x42000060
/-- MRG_FALLBACKS (06 Table 6-9). -/
def Reg.MRG_FALLBACKS : Nat := 0x42000068
/-- MRG_LENDERS_LOST (06 Table 6-9). -/
def Reg.MRG_LENDERS_LOST : Nat := 0x42000070
/-- MRG_RERUNS (06 Table 6-9). -/
def Reg.MRG_RERUNS : Nat := 0x42000078
/-- MRG_RESULTS (06 Table 6-9). -/
def Reg.MRG_RESULTS : Nat := 0x42000080
/-- AE_SEL_CTL (07 Table 7-6). -/
def Reg.AE_SEL_CTL : Nat := 0x41f00070
/-- AE_SEL_TESTED (07 Table 7-6). -/
def Reg.AE_SEL_TESTED : Nat := 0x41f00078
/-- AE_SEL_SKIPPED (07 Table 7-6). -/
def Reg.AE_SEL_SKIPPED : Nat := 0x41f00080
/-- AE_SEL_NODIGEST (07 Table 7-6). -/
def Reg.AE_SEL_NODIGEST : Nat := 0x41f00088
/-- AE_SEL_AS_EXACT (07 Table 7-6). -/
def Reg.AE_SEL_AS_EXACT : Nat := 0x41f00090
/-- AE_SEL_DIGEST_UE (07 Table 7-6). -/
def Reg.AE_SEL_DIGEST_UE : Nat := 0x41f00098
/-- WXP_CTL (08 Table 8-7). -/
def Reg.WXP_CTL : Nat := 0x44800000
/-- WXP_STATUS (08 Table 8-7). -/
def Reg.WXP_STATUS : Nat := 0x44800008
/-- WXP_ERR (08 Table 8-7). -/
def Reg.WXP_ERR : Nat := 0x44800010
/-- WXP_IMG_SEL (08 Table 8-7). -/
def Reg.WXP_IMG_SEL : Nat := 0x44800018
/-- WXP_IMG_SHAPE (08 Table 8-7). -/
def Reg.WXP_IMG_SHAPE : Nat := 0x44800020
/-- WXP_IMG_BASE (08 Table 8-7). -/
def Reg.WXP_IMG_BASE : Nat := 0x44800028
/-- WXP_IMG_TABLE (08 Table 8-7). -/
def Reg.WXP_IMG_TABLE : Nat := 0x44800030
/-- WXP_IMG_CTL (08 Table 8-7). -/
def Reg.WXP_IMG_CTL : Nat := 0x44800038
/-- WXP_IMG_STATUS (08 Table 8-7). -/
def Reg.WXP_IMG_STATUS : Nat := 0x44800040
/-- WXP_COPY_SRC (08 Table 8-7). -/
def Reg.WXP_COPY_SRC : Nat := 0x44800048
/-- WXP_COPY_DST (08 Table 8-7). -/
def Reg.WXP_COPY_DST : Nat := 0x44800050
/-- WXP_COPY_LEN (08 Table 8-7). -/
def Reg.WXP_COPY_LEN : Nat := 0x44800058
/-- WXP_COPY_STATUS (08 Table 8-7). -/
def Reg.WXP_COPY_STATUS : Nat := 0x44800060
/-- WXP_BLOCKS (08 Table 8-7). -/
def Reg.WXP_BLOCKS : Nat := 0x44800080
/-- WXP_BYTES_IN (08 Table 8-7). -/
def Reg.WXP_BYTES_IN : Nat := 0x44800088
/-- WXP_BYTES_OUT (08 Table 8-7). -/
def Reg.WXP_BYTES_OUT : Nat := 0x44800090
/-- WXP_POISONED (08 Table 8-7). -/
def Reg.WXP_POISONED : Nat := 0x44800098
/-- TIER_CTL (09 Table 9-9). -/
def Reg.TIER_CTL : Nat := 0x43000000
/-- TIER_POLICY (09 Table 9-9). -/
def Reg.TIER_POLICY : Nat := 0x43000008
/-- TIER_WATER (09 Table 9-9). -/
def Reg.TIER_WATER : Nat := 0x43000010
/-- TIER_FAULT (09 Table 9-9). -/
def Reg.TIER_FAULT : Nat := 0x43000018
/-- TIER_LEAP (09 Table 9-9). -/
def Reg.TIER_LEAP : Nat := 0x43000020
/-- TIER_ERR (09 Table 9-9). -/
def Reg.TIER_ERR : Nat := 0x43000028
/-- TIER_STATUS (09 Table 9-9). -/
def Reg.TIER_STATUS : Nat := 0x43000030
/-- TIER_LEND_CTL (09 Table 9-9). -/
def Reg.TIER_LEND_CTL : Nat := 0x43000038
/-- TIER_PIN_CTL (09 Table 9-9). -/
def Reg.TIER_PIN_CTL : Nat := 0x43000040
/-- TIER_PIN_HANDLE (09 Table 9-9). -/
def Reg.TIER_PIN_HANDLE : Nat := 0x43000048
/-- TIER_EXT_SEL (09 Table 9-9). -/
def Reg.TIER_EXT_SEL : Nat := 0x43000050
/-- TIER_EXT_INFO (09 Table 9-9). -/
def Reg.TIER_EXT_INFO : Nat := 0x43000058
/-- TIER_LEAPS_UP (09 Table 9-9). -/
def Reg.TIER_LEAPS_UP : Nat := 0x43000080
/-- TIER_LEAPS_DOWN (09 Table 9-9). -/
def Reg.TIER_LEAPS_DOWN : Nat := 0x43000088
/-- TIER_LEAPS_ABANDONED (09 Table 9-9). -/
def Reg.TIER_LEAPS_ABANDONED : Nat := 0x43000090
/-- TIER_FAULTS_FLASH (09 Table 9-9). -/
def Reg.TIER_FAULTS_FLASH : Nat := 0x43000098
/-- TIER_FAULTS_LENT (09 Table 9-9). -/
def Reg.TIER_FAULTS_LENT : Nat := 0x430000a0
/-- TIER_PREFETCHES (09 Table 9-9). -/
def Reg.TIER_PREFETCHES : Nat := 0x430000a8
/-- TIER_FAULT_NS (09 Table 9-9). -/
def Reg.TIER_FAULT_NS : Nat := 0x430000b0
/-- TIER_SWEEPS (09 Table 9-9). -/
def Reg.TIER_SWEEPS : Nat := 0x430000b8
/-- TIER_QUOTA (09 Table 9-9). -/
def Reg.TIER_QUOTA (i j : Nat) : Nat := 0x43000400 + 0x40 * i + 0x8 * j
/-- TIER_USAGE (09 Table 9-9). -/
def Reg.TIER_USAGE (i j : Nat) : Nat := 0x43000420 + 0x40 * i + 0x8 * j
/-- TIER_DIGEST (09 Table 9-9). -/
def Reg.TIER_DIGEST (i : Nat) : Nat := 0x43000800 + 0x8 * i
/-- TIER_PEER (09 Table 9-9). -/
def Reg.TIER_PEER (i : Nat) : Nat := 0x43000900 + 0x8 * i
/-- HBM_CTL (10 Table 10-7). -/
def Reg.HBM_CTL (i : Nat) : Nat := 0x44000000 + 0x100000 * i
/-- HBM_STATUS (10 Table 10-7). -/
def Reg.HBM_STATUS (i : Nat) : Nat := 0x44000008 + 0x100000 * i
/-- HBM_ERR (10 Table 10-7). -/
def Reg.HBM_ERR (i : Nat) : Nat := 0x44000010 + 0x100000 * i
/-- HBM_SCRUB (10 Table 10-7). -/
def Reg.HBM_SCRUB (i : Nat) : Nat := 0x44000018 + 0x100000 * i
/-- HBM_TRAIN (10 Table 10-7). -/
def Reg.HBM_TRAIN (i : Nat) : Nat := 0x44000020 + 0x100000 * i
/-- HBM_CH_STATUS (10 Table 10-7). -/
def Reg.HBM_CH_STATUS (i j : Nat) : Nat := 0x44000100 + 0x100000 * i + 0x20 * j
/-- HBM_CH_CE (10 Table 10-7). -/
def Reg.HBM_CH_CE (i j : Nat) : Nat := 0x44000108 + 0x100000 * i + 0x20 * j
/-- HBM_CH_UE (10 Table 10-7). -/
def Reg.HBM_CH_UE (i j : Nat) : Nat := 0x44000110 + 0x100000 * i + 0x20 * j
/-- HBM_CH_ERRADDR (10 Table 10-7). -/
def Reg.HBM_CH_ERRADDR (i j : Nat) : Nat := 0x44000118 + 0x100000 * i + 0x20 * j
/-- GK_CTL (10 Table 10-9). -/
def Reg.GK_CTL (i j : Nat) : Nat := 0x44080000 + 0x100000 * i + 0x1000 * j
/-- GK_STATUS (10 Table 10-9). -/
def Reg.GK_STATUS (i j : Nat) : Nat := 0x44080008 + 0x100000 * i + 0x1000 * j
/-- GK_READY (10 Table 10-9). -/
def Reg.GK_READY (i j : Nat) : Nat := 0x44080018 + 0x100000 * i + 0x1000 * j
/-- GK_ERR (10 Table 10-9). -/
def Reg.GK_ERR (i j : Nat) : Nat := 0x44080020 + 0x100000 * i + 0x1000 * j
/-- GK_USTORE_ADDR (10 Table 10-9). -/
def Reg.GK_USTORE_ADDR (i j : Nat) : Nat := 0x44080028 + 0x100000 * i + 0x1000 * j
/-- GK_SCR_ADDR (10 Table 10-9). -/
def Reg.GK_SCR_ADDR (i j : Nat) : Nat := 0x44080038 + 0x100000 * i + 0x1000 * j
/-- GK_REG_SEL (10 Table 10-9). -/
def Reg.GK_REG_SEL (i j : Nat) : Nat := 0x44080048 + 0x100000 * i + 0x1000 * j
/-- GK_REG_DATA (10 Table 10-9). -/
def Reg.GK_REG_DATA (i j : Nat) : Nat := 0x44080050 + 0x100000 * i + 0x1000 * j
/-- GK_JOBS (10 Table 10-9). -/
def Reg.GK_JOBS (i j : Nat) : Nat := 0x44080058 + 0x100000 * i + 0x1000 * j
/-- GK_STALL_NS (10 Table 10-9). -/
def Reg.GK_STALL_NS (i j : Nat) : Nat := 0x44080060 + 0x100000 * i + 0x1000 * j
/-- FLT_CTL (11 Table 11-12). -/
def Reg.FLT_CTL : Nat := 0x45000000
/-- FLT_STATUS (11 Table 11-12). -/
def Reg.FLT_STATUS : Nat := 0x45000008
/-- FLT_ERR (11 Table 11-12). -/
def Reg.FLT_ERR : Nat := 0x45000010
/-- FLT_GEOM (11 Table 11-12). -/
def Reg.FLT_GEOM : Nat := 0x45000018
/-- FLT_LOGICAL (11 Table 11-12). -/
def Reg.FLT_LOGICAL : Nat := 0x45000020
/-- FLT_MAP_BASE (11 Table 11-12). -/
def Reg.FLT_MAP_BASE : Nat := 0x45000028
/-- FLT_OCC_BASE (11 Table 11-12). -/
def Reg.FLT_OCC_BASE : Nat := 0x45000030
/-- FLT_WBUF (11 Table 11-12). -/
def Reg.FLT_WBUF : Nat := 0x45000038
/-- FLT_SLC (11 Table 11-12). -/
def Reg.FLT_SLC : Nat := 0x45000040
/-- FLT_GC (11 Table 11-12). -/
def Reg.FLT_GC : Nat := 0x45000048
/-- FLT_JRNL (11 Table 11-12). -/
def Reg.FLT_JRNL : Nat := 0x45000050
/-- FLT_ENDUR (11 Table 11-12). -/
def Reg.FLT_ENDUR : Nat := 0x45000058
/-- FLT_HEALTH (11 Table 11-12). -/
def Reg.FLT_HEALTH : Nat := 0x45000060
/-- FLT_CMD_LUNIT (11 Table 11-12). -/
def Reg.FLT_CMD_LUNIT : Nat := 0x45000068
/-- FLT_CMD_ADDR (11 Table 11-12). -/
def Reg.FLT_CMD_ADDR : Nat := 0x45000070
/-- FLT_CMD (11 Table 11-12). -/
def Reg.FLT_CMD : Nat := 0x45000078
/-- FLT_AREA (11 Table 11-12). -/
def Reg.FLT_AREA (i : Nat) : Nat := 0x45000100 + 0x8 * i
/-- FLT_USER_UNITS (11 Table 11-12). -/
def Reg.FLT_USER_UNITS : Nat := 0x45000200
/-- FLT_NAND_UNITS (11 Table 11-12). -/
def Reg.FLT_NAND_UNITS : Nat := 0x45000208
/-- FLT_READ_UNITS (11 Table 11-12). -/
def Reg.FLT_READ_UNITS : Nat := 0x45000210
/-- FLT_ERASES (11 Table 11-12). -/
def Reg.FLT_ERASES : Nat := 0x45000218
/-- FLT_MOVES (11 Table 11-12). -/
def Reg.FLT_MOVES : Nat := 0x45000220
/-- FLT_TRIMS (11 Table 11-12). -/
def Reg.FLT_TRIMS : Nat := 0x45000228
/-- FLT_ERRCNT (11 Table 11-12). -/
def Reg.FLT_ERRCNT (i : Nat) : Nat := 0x45000280 + 0x8 * i
/-- FLT_CH_STATUS (11 Table 11-12). -/
def Reg.FLT_CH_STATUS (i : Nat) : Nat := 0x45000400 + 0x8 * i
/-- FLT_TEMP_HIST (11 Table 11-12). -/
def Reg.FLT_TEMP_HIST (i : Nat) : Nat := 0x45000800 + 0x8 * i
/-- TRL_CTL (12 Table 12-12). -/
def Reg.TRL_CTL : Nat := 0x46000000
/-- TRL_NODE (12 Table 12-12). -/
def Reg.TRL_NODE : Nat := 0x46000008
/-- TRL_IP4 (12 Table 12-12). -/
def Reg.TRL_IP4 : Nat := 0x46000010
/-- TRL_IP6_HI (12 Table 12-12). -/
def Reg.TRL_IP6_HI : Nat := 0x46000018
/-- TRL_IP6_LO (12 Table 12-12). -/
def Reg.TRL_IP6_LO : Nat := 0x46000020
/-- TRL_UDP (12 Table 12-12). -/
def Reg.TRL_UDP : Nat := 0x46000028
/-- TRL_RETX (12 Table 12-12). -/
def Reg.TRL_RETX : Nat := 0x46000030
/-- TRL_ACK (12 Table 12-12). -/
def Reg.TRL_ACK : Nat := 0x46000038
/-- TRL_ECN (12 Table 12-12). -/
def Reg.TRL_ECN : Nat := 0x46000040
/-- TRL_RASM (12 Table 12-12). -/
def Reg.TRL_RASM : Nat := 0x46000048
/-- TRL_RXBUF (12 Table 12-12). -/
def Reg.TRL_RXBUF : Nat := 0x46000050
/-- TRL_PUNT (12 Table 12-12). -/
def Reg.TRL_PUNT : Nat := 0x46000058
/-- TRL_ERR (12 Table 12-12). -/
def Reg.TRL_ERR : Nat := 0x46000060
/-- TRL_DSCP (12 Table 12-12). -/
def Reg.TRL_DSCP : Nat := 0x46000068
/-- TRL_CONDUIT_SEL (12 Table 12-12). -/
def Reg.TRL_CONDUIT_SEL : Nat := 0x46000070
/-- TRL_CONDUIT_CMD (12 Table 12-12). -/
def Reg.TRL_CONDUIT_CMD : Nat := 0x46000078
/-- TRL_CONDUIT_DATA0 (12 Table 12-12). -/
def Reg.TRL_CONDUIT_DATA0 : Nat := 0x46000080
/-- TRL_TX_SEGS (12 Table 12-12). -/
def Reg.TRL_TX_SEGS : Nat := 0x46000100
/-- TRL_RX_SEGS (12 Table 12-12). -/
def Reg.TRL_RX_SEGS : Nat := 0x46000108
/-- TRL_RETX_SEGS (12 Table 12-12). -/
def Reg.TRL_RETX_SEGS : Nat := 0x46000110
/-- TRL_ECN_CE (12 Table 12-12). -/
def Reg.TRL_ECN_CE : Nat := 0x46000118
/-- TRL_RTO_EXPIRIES (12 Table 12-12). -/
def Reg.TRL_RTO_EXPIRIES : Nat := 0x46000120
/-- TRL_CONDUIT_FAILS (12 Table 12-12). -/
def Reg.TRL_CONDUIT_FAILS : Nat := 0x46000128
/-- TRL_LOOPBACK_MSGS (12 Table 12-12). -/
def Reg.TRL_LOOPBACK_MSGS : Nat := 0x46000130
/-- TRL_DROP (12 Table 12-12). -/
def Reg.TRL_DROP (i : Nat) : Nat := 0x46000180 + 0x8 * i
/-- TRL_PORT_CTL (12 Table 12-12). -/
def Reg.TRL_PORT_CTL (i : Nat) : Nat := 0x46001000 + 0x20 * i
/-- TRL_PORT_STATUS (12 Table 12-12). -/
def Reg.TRL_PORT_STATUS (i : Nat) : Nat := 0x46001008 + 0x20 * i
/-- TRL_PORT_NH (12 Table 12-12). -/
def Reg.TRL_PORT_NH (i : Nat) : Nat := 0x46001010 + 0x20 * i
/-- RMO_CTL (13 Table 13-10). -/
def Reg.RMO_CTL : Nat := 0x46800000
/-- RMO_TABLE (13 Table 13-10). -/
def Reg.RMO_TABLE : Nat := 0x46800008
/-- RMO_WR_POOL (13 Table 13-10). -/
def Reg.RMO_WR_POOL : Nat := 0x46800010
/-- RMO_ERR (13 Table 13-10). -/
def Reg.RMO_ERR : Nat := 0x46800018
/-- RMO_REG_SEL (13 Table 13-10). -/
def Reg.RMO_REG_SEL : Nat := 0x46800020
/-- RMO_REG_CMD (13 Table 13-10). -/
def Reg.RMO_REG_CMD : Nat := 0x46800028
/-- RMO_REG_DATA0 (13 Table 13-10). -/
def Reg.RMO_REG_DATA0 : Nat := 0x46800030
/-- RMO_REG_DATA1 (13 Table 13-10). -/
def Reg.RMO_REG_DATA1 : Nat := 0x46800038
/-- RMO_REG_DATA2 (13 Table 13-10). -/
def Reg.RMO_REG_DATA2 : Nat := 0x46800040
/-- RMO_REG_DATA3 (13 Table 13-10). -/
def Reg.RMO_REG_DATA3 : Nat := 0x46800048
/-- RMO_CQ_SEL (13 Table 13-10). -/
def Reg.RMO_CQ_SEL : Nat := 0x46800050
/-- RMO_CQ_CFG0 (13 Table 13-10). -/
def Reg.RMO_CQ_CFG0 : Nat := 0x46800058
/-- RMO_CQ_CFG1 (13 Table 13-10). -/
def Reg.RMO_CQ_CFG1 : Nat := 0x46800060
/-- RMO_CQ_IDX (13 Table 13-10). -/
def Reg.RMO_CQ_IDX : Nat := 0x46800068
/-- RMO_CTR_SEL (13 Table 13-10). -/
def Reg.RMO_CTR_SEL : Nat := 0x46800070
/-- RMO_CTR_VAL (13 Table 13-10). -/
def Reg.RMO_CTR_VAL : Nat := 0x46800078
/-- RMO_CTR_CFG (13 Table 13-10). -/
def Reg.RMO_CTR_CFG : Nat := 0x46800080
/-- RMO_WRITES (13 Table 13-10). -/
def Reg.RMO_WRITES : Nat := 0x46800100
/-- RMO_READS (13 Table 13-10). -/
def Reg.RMO_READS : Nat := 0x46800108
/-- RMO_KEY_FAILS (13 Table 13-10). -/
def Reg.RMO_KEY_FAILS : Nat := 0x46800110
/-- RMO_HELD_DROPS (13 Table 13-10). -/
def Reg.RMO_HELD_DROPS : Nat := 0x46800118
/-- RMO_WR_FIRED (13 Table 13-10). -/
def Reg.RMO_WR_FIRED : Nat := 0x46800120
/-- RMO_WR_FAILS (13 Table 13-10). -/
def Reg.RMO_WR_FAILS : Nat := 0x46800128
/-- RMO_WRITE_NACKS (13 Table 13-10). -/
def Reg.RMO_WRITE_NACKS : Nat := 0x46800130
/-- RMO_NOTIFIES (13 Table 13-10). -/
def Reg.RMO_NOTIFIES : Nat := 0x46800138
/-- RMO_REVOKES (13 Table 13-10). -/
def Reg.RMO_REVOKES : Nat := 0x46800140
/-- RMO_PART_REGIONS (13 Table 13-10). -/
def Reg.RMO_PART_REGIONS (i : Nat) : Nat := 0x46800180 + 0x8 * i
/-- SCH_CTL (14 Table 14-4). -/
def Reg.SCH_CTL : Nat := 0x47000000
/-- SCH_ERR (14 Table 14-4). -/
def Reg.SCH_ERR : Nat := 0x47000008
/-- SCH_HELD (14 Table 14-4). -/
def Reg.SCH_HELD : Nat := 0x47000010
/-- SCH_YELLOW (14 Table 14-4). -/
def Reg.SCH_YELLOW : Nat := 0x47000040
/-- SCH_RED (14 Table 14-4). -/
def Reg.SCH_RED : Nat := 0x47000048
/-- SCH_DROPS (14 Table 14-4). -/
def Reg.SCH_DROPS : Nat := 0x47000050
/-- SCH_CROAK_RED (14 Table 14-4). -/
def Reg.SCH_CROAK_RED : Nat := 0x47000058
/-- SCH_SVC (14 Table 14-4). -/
def Reg.SCH_SVC (i : Nat) : Nat := 0x47000100 + 0x8 * i
/-- SCH_PORT (14 Table 14-4). -/
def Reg.SCH_PORT (i : Nat) : Nat := 0x47000200 + 0x8 * i
/-- SCH_SUB_SEL (14 Table 14-4). -/
def Reg.SCH_SUB_SEL : Nat := 0x47000300
/-- SCH_SUB_C (14 Table 14-4). -/
def Reg.SCH_SUB_C : Nat := 0x47000308
/-- SCH_SUB_P (14 Table 14-4). -/
def Reg.SCH_SUB_P : Nat := 0x47000310
/-- SCH_SUB_CFG (14 Table 14-4). -/
def Reg.SCH_SUB_CFG : Nat := 0x47000318
/-- SCH_MTR_SEL (14 Table 14-4). -/
def Reg.SCH_MTR_SEL : Nat := 0x47000400
/-- SCH_MTR_CFG (14 Table 14-4). -/
def Reg.SCH_MTR_CFG : Nat := 0x47000408
/-- SCH_MTR_C (14 Table 14-4). -/
def Reg.SCH_MTR_C : Nat := 0x47000410
/-- SCH_MTR_P (14 Table 14-4). -/
def Reg.SCH_MTR_P : Nat := 0x47000418
/-- SCH_MTR_GREEN (14 Table 14-4). -/
def Reg.SCH_MTR_GREEN : Nat := 0x47000420
/-- SCH_MTR_YELLOW (14 Table 14-4). -/
def Reg.SCH_MTR_YELLOW : Nat := 0x47000428
/-- SCH_MTR_RED (14 Table 14-4). -/
def Reg.SCH_MTR_RED : Nat := 0x47000430
/-- SCH_IMAP_SEL (14 Table 14-4). -/
def Reg.SCH_IMAP_SEL : Nat := 0x47000440
/-- SCH_IMAP (14 Table 14-4). -/
def Reg.SCH_IMAP : Nat := 0x47000448
/-- SCH_ICOLOR0 (14 Table 14-4). -/
def Reg.SCH_ICOLOR0 : Nat := 0x47000450
/-- SCH_ICOLOR1 (14 Table 14-4). -/
def Reg.SCH_ICOLOR1 : Nat := 0x47000458
/-- TWN_CTL (15 Table 15-12). -/
def Reg.TWN_CTL : Nat := 0x47800000
/-- TWN_STATUS (15 Table 15-12). -/
def Reg.TWN_STATUS : Nat := 0x47800008
/-- TWN_EPOCH (15 Table 15-12). -/
def Reg.TWN_EPOCH : Nat := 0x47800010
/-- TWN_CROAK (15 Table 15-12). -/
def Reg.TWN_CROAK : Nat := 0x47800018
/-- TWN_WITNESS (15 Table 15-12). -/
def Reg.TWN_WITNESS : Nat := 0x47800020
/-- TWN_GOVERNOR (15 Table 15-12). -/
def Reg.TWN_GOVERNOR : Nat := 0x47800028
/-- TWN_DOMAIN (15 Table 15-12). -/
def Reg.TWN_DOMAIN : Nat := 0x47800030
/-- TWN_NOTIFY_BASE (15 Table 15-12). -/
def Reg.TWN_NOTIFY_BASE : Nat := 0x47800038
/-- TWN_CMD (15 Table 15-12). -/
def Reg.TWN_CMD : Nat := 0x47800040
/-- TWN_ERR (15 Table 15-12). -/
def Reg.TWN_ERR : Nat := 0x47800048
/-- TWN_REGROW (15 Table 15-12). -/
def Reg.TWN_REGROW : Nat := 0x47800050
/-- TWN_REGROW_LEFT (15 Table 15-12). -/
def Reg.TWN_REGROW_LEFT : Nat := 0x47800058
/-- TWN_MIRROR_USE (15 Table 15-12). -/
def Reg.TWN_MIRROR_USE : Nat := 0x47800060
/-- TWN_XCHK (15 Table 15-12). -/
def Reg.TWN_XCHK : Nat := 0x47800068
/-- TWN_HEALTH (15 Table 15-12). -/
def Reg.TWN_HEALTH : Nat := 0x47800070
/-- TWN_WIT_CTL (15 Table 15-12). -/
def Reg.TWN_WIT_CTL : Nat := 0x47800078
/-- TWN_GOV_CTL (15 Table 15-12). -/
def Reg.TWN_GOV_CTL : Nat := 0x47800080
/-- TWN_WIN_SEL (15 Table 15-12). -/
def Reg.TWN_WIN_SEL : Nat := 0x47800088
/-- TWN_WIN_COUNT (15 Table 15-12). -/
def Reg.TWN_WIN_COUNT : Nat := 0x47800090
/-- TWN_XLOG_SEL (15 Table 15-12). -/
def Reg.TWN_XLOG_SEL : Nat := 0x47800098
/-- TWN_XLOG_DATA0 (15 Table 15-12). -/
def Reg.TWN_XLOG_DATA0 : Nat := 0x478000a0
/-- TWN_XLOG_DATA1 (15 Table 15-12). -/
def Reg.TWN_XLOG_DATA1 : Nat := 0x478000a8
/-- TWN_XLOG_DATA2 (15 Table 15-12). -/
def Reg.TWN_XLOG_DATA2 : Nat := 0x478000b0
/-- TWN_XLOG_DATA3 (15 Table 15-12). -/
def Reg.TWN_XLOG_DATA3 : Nat := 0x478000b8
/-- TWN_MIRRORS (15 Table 15-12). -/
def Reg.TWN_MIRRORS : Nat := 0x47800100
/-- TWN_MIRROR_BYTES (15 Table 15-12). -/
def Reg.TWN_MIRROR_BYTES : Nat := 0x47800108
/-- TWN_CROAKS_MISSED (15 Table 15-12). -/
def Reg.TWN_CROAKS_MISSED : Nat := 0x47800110
/-- TWN_TAKEOVERS (15 Table 15-12). -/
def Reg.TWN_TAKEOVERS : Nat := 0x47800118
/-- TWN_XCHK_RUNS (15 Table 15-12). -/
def Reg.TWN_XCHK_RUNS : Nat := 0x47800120
/-- TWN_XCHK_MISMATCH (15 Table 15-12). -/
def Reg.TWN_XCHK_MISMATCH : Nat := 0x47800128
/-- TWN_CLASS (15 Table 15-12). -/
def Reg.TWN_CLASS (i : Nat) : Nat := 0x47800200 + 0x8 * i
/-- SEC_CTL (17 Table 17-7). -/
def Reg.SEC_CTL : Nat := 0x47c00000
/-- SEC_STATUS (17 Table 17-7). -/
def Reg.SEC_STATUS : Nat := 0x47c00008
/-- SEC_ERR (17 Table 17-7). -/
def Reg.SEC_ERR : Nat := 0x47c00010
/-- SEC_FUSE_STATUS (17 Table 17-7). -/
def Reg.SEC_FUSE_STATUS : Nat := 0x47c00018
/-- SEC_FUSE_CMD (17 Table 17-7). -/
def Reg.SEC_FUSE_CMD : Nat := 0x47c00020
/-- SEC_FUSE_DATA0 (17 Table 17-7). -/
def Reg.SEC_FUSE_DATA0 : Nat := 0x47c00028
/-- SEC_FUSE_DATA1 (17 Table 17-7). -/
def Reg.SEC_FUSE_DATA1 : Nat := 0x47c00030
/-- SEC_FUSE_DATA2 (17 Table 17-7). -/
def Reg.SEC_FUSE_DATA2 : Nat := 0x47c00038
/-- SEC_FUSE_DATA3 (17 Table 17-7). -/
def Reg.SEC_FUSE_DATA3 : Nat := 0x47c00040
/-- SEC_KEY_SEL (17 Table 17-7). -/
def Reg.SEC_KEY_SEL : Nat := 0x47c00048
/-- SEC_KEY_CMD (17 Table 17-7). -/
def Reg.SEC_KEY_CMD : Nat := 0x47c00050
/-- SEC_KEY_DATA0 (17 Table 17-7). -/
def Reg.SEC_KEY_DATA0 : Nat := 0x47c00058
/-- SEC_PKEY_ADDR (17 Table 17-7). -/
def Reg.SEC_PKEY_ADDR : Nat := 0x47c00078
/-- SEC_PART (17 Table 17-7). -/
def Reg.SEC_PART (i : Nat) : Nat := 0x47c00080 + 0x8 * i
/-- SEC_MOLT_LO (17 Table 17-7). -/
def Reg.SEC_MOLT_LO : Nat := 0x47c00100
/-- SEC_MOLT_HI (17 Table 17-7). -/
def Reg.SEC_MOLT_HI : Nat := 0x47c00108
/-- SEC_MOLT_MASK (17 Table 17-7). -/
def Reg.SEC_MOLT_MASK : Nat := 0x47c00110
/-- SEC_MOLT_DONE_LO (17 Table 17-7). -/
def Reg.SEC_MOLT_DONE_LO : Nat := 0x47c00118
/-- SEC_MOLT_DONE_HI (17 Table 17-7). -/
def Reg.SEC_MOLT_DONE_HI : Nat := 0x47c00120
/-- SEC_MEAS_SEL (17 Table 17-7). -/
def Reg.SEC_MEAS_SEL : Nat := 0x47c00128
/-- SEC_MEAS_DATA0 (17 Table 17-7). -/
def Reg.SEC_MEAS_DATA0 : Nat := 0x47c00130
/-- SEC_MEAS_EXT (17 Table 17-7). -/
def Reg.SEC_MEAS_EXT : Nat := 0x47c00150
/-- SEC_SIGN (17 Table 17-7). -/
def Reg.SEC_SIGN : Nat := 0x47c00158
/-- SEC_QUOTE (17 Table 17-7). -/
def Reg.SEC_QUOTE : Nat := 0x47c00160
/-- SEC_CERT (17 Table 17-7). -/
def Reg.SEC_CERT : Nat := 0x47c00168
/-- SEC_RNG (17 Table 17-7). -/
def Reg.SEC_RNG : Nat := 0x47c00170
/-- SEC_DBG (17 Table 17-7). -/
def Reg.SEC_DBG : Nat := 0x47c00178
/-- SEC_QUOTES (17 Table 17-7). -/
def Reg.SEC_QUOTES : Nat := 0x47c00180
/-- SEC_SIGNS (17 Table 17-7). -/
def Reg.SEC_SIGNS : Nat := 0x47c00188
/-- SEC_MOLTS (17 Table 17-7). -/
def Reg.SEC_MOLTS : Nat := 0x47c00190
/-- GLB_SERIAL (18 Table 18-8). -/
def Reg.GLB_SERIAL : Nat := 0x40000008
/-- GLB_RST_CAUSE (18 Table 18-8). -/
def Reg.GLB_RST_CAUSE : Nat := 0x40000010
/-- GLB_RST_CTL (18 Table 18-8). -/
def Reg.GLB_RST_CTL : Nat := 0x40000018
/-- GLB_CLK_STATUS (18 Table 18-8). -/
def Reg.GLB_CLK_STATUS : Nat := 0x40000020
/-- GLB_PWR (18 Table 18-8). -/
def Reg.GLB_PWR : Nat := 0x40000028
/-- GLB_TEMP (18 Table 18-8). -/
def Reg.GLB_TEMP : Nat := 0x40000030
/-- GLB_MEMCFG (18 Table 18-8). -/
def Reg.GLB_MEMCFG : Nat := 0x40000038
/-- GLB_WDOG (18 Table 18-8). -/
def Reg.GLB_WDOG : Nat := 0x40000040
/-- GLB_MTIME (18 Table 18-8). -/
def Reg.GLB_MTIME : Nat := 0x40000048
/-- GLB_USEC (18 Table 18-8). -/
def Reg.GLB_USEC : Nat := 0x40000050
/-- GLB_CORE_CTL (18 Table 18-8). -/
def Reg.GLB_CORE_CTL (i : Nat) : Nat := 0x40000100 + 0x20 * i
/-- GLB_CORE_STATUS (18 Table 18-8). -/
def Reg.GLB_CORE_STATUS (i : Nat) : Nat := 0x40000108 + 0x20 * i
/-- GLB_MTIMECMP (18 Table 18-8). -/
def Reg.GLB_MTIMECMP (i : Nat) : Nat := 0x40000110 + 0x20 * i
/-- GLB_MSIP (18 Table 18-8). -/
def Reg.GLB_MSIP (i : Nat) : Nat := 0x40000118 + 0x20 * i
/-- EVC_CTL (18 Table 18-10). -/
def Reg.EVC_CTL : Nat := 0x40100000
/-- EVC_CLAIMS (18 Table 18-10). -/
def Reg.EVC_CLAIMS : Nat := 0x40100010
/-- EVC_EMPTY_CLAIMS (18 Table 18-10). -/
def Reg.EVC_EMPTY_CLAIMS : Nat := 0x40100018
/-- EVC_MB_DROPS (18 Table 18-10). -/
def Reg.EVC_MB_DROPS : Nat := 0x40100020
/-- EVC_CLAIM (18 Table 18-10). -/
def Reg.EVC_CLAIM (i : Nat) : Nat := 0x40100100 + 0x20 * i
/-- EVC_COMPLETE (18 Table 18-10). -/
def Reg.EVC_COMPLETE (i : Nat) : Nat := 0x40100108 + 0x20 * i
/-- EVC_THRESH (18 Table 18-10). -/
def Reg.EVC_THRESH (i : Nat) : Nat := 0x40100110 + 0x20 * i
/-- EVC_ACTIVE (18 Table 18-10). -/
def Reg.EVC_ACTIVE (i : Nat) : Nat := 0x40100118 + 0x20 * i
/-- EVC_PEND (18 Table 18-10). -/
def Reg.EVC_PEND (i : Nat) : Nat := 0x40100400 + 0x8 * i
/-- EVC_CQ_PEND (18 Table 18-10). -/
def Reg.EVC_CQ_PEND (i : Nat) : Nat := 0x40100600 + 0x8 * i
/-- EVC_MB_BASE (18 Table 18-10). -/
def Reg.EVC_MB_BASE (i : Nat) : Nat := 0x40100800 + 0x20 * i
/-- EVC_MB_CFG (18 Table 18-10). -/
def Reg.EVC_MB_CFG (i : Nat) : Nat := 0x40100808 + 0x20 * i
/-- EVC_MB_IDX (18 Table 18-10). -/
def Reg.EVC_MB_IDX (i : Nat) : Nat := 0x40100810 + 0x20 * i
/-- EVC_MB_ACK (18 Table 18-10). -/
def Reg.EVC_MB_ACK (i : Nat) : Nat := 0x40100818 + 0x20 * i
/-- EVC_SRC (18 Table 18-10). -/
def Reg.EVC_SRC (i : Nat) : Nat := 0x40110000 + 0x8 * i
/-- MGT_CTL (20 Table 20-5). -/
def Reg.MGT_CTL : Nat := 0x47e00000
/-- MGT_STATUS (20 Table 20-5). -/
def Reg.MGT_STATUS : Nat := 0x47e00008
/-- MGT_ERR (20 Table 20-5). -/
def Reg.MGT_ERR : Nat := 0x47e00010
/-- MGT_MAC (20 Table 20-5). -/
def Reg.MGT_MAC : Nat := 0x47e00018
/-- MGT_RX_RING (20 Table 20-5). -/
def Reg.MGT_RX_RING : Nat := 0x47e00020
/-- MGT_TX_RING (20 Table 20-5). -/
def Reg.MGT_TX_RING : Nat := 0x47e00028
/-- MGT_RX_IDX (20 Table 20-5). -/
def Reg.MGT_RX_IDX : Nat := 0x47e00030
/-- MGT_TX_IDX (20 Table 20-5). -/
def Reg.MGT_TX_IDX : Nat := 0x47e00038
/-- MGT_RX_FRAMES (20 Table 20-5). -/
def Reg.MGT_RX_FRAMES : Nat := 0x47e00040
/-- MGT_TX_FRAMES (20 Table 20-5). -/
def Reg.MGT_TX_FRAMES : Nat := 0x47e00048
/-- MGT_RX_DROPS (20 Table 20-5). -/
def Reg.MGT_RX_DROPS : Nat := 0x47e00050
/-- MGT_USAGE_CTL (20 Table 20-5). -/
def Reg.MGT_USAGE_CTL : Nat := 0x47e00100
/-- MGT_LOG_BASE (20 Table 20-5). -/
def Reg.MGT_LOG_BASE : Nat := 0x47e00108
/-- MGT_LOG_IDX (20 Table 20-5). -/
def Reg.MGT_LOG_IDX : Nat := 0x47e00110
/-- MGT_USAGE_SEL (20 Table 20-5). -/
def Reg.MGT_USAGE_SEL : Nat := 0x47e00118
/-- MGT_USAGE_DATA0 (20 Table 20-5). -/
def Reg.MGT_USAGE_DATA0 : Nat := 0x47e00200
/-- MGT_PART_COMP (20 Table 20-5). -/
def Reg.MGT_PART_COMP (i : Nat) : Nat := 0x47e00300 + 0x8 * i
/-- MGT_TEMP_HIST_DIE (20 Table 20-5). -/
def Reg.MGT_TEMP_HIST_DIE (i : Nat) : Nat := 0x47e00400 + 0x8 * i
/-- MGT_TEMP_HIST_HBM (20 Table 20-5). -/
def Reg.MGT_TEMP_HIST_HBM (i : Nat) : Nat := 0x47e00600 + 0x8 * i

def Fd.CVU_CTL_FINAL (i : Nat) : Fd := ⟨(Reg.CVU_CTL i), 3, 3⟩
def Fd.CVU_CTL_OWNER (i : Nat) : Fd := ⟨(Reg.CVU_CTL i), 2, 2⟩
def Fd.CVU_CTL_POLY (i : Nat) : Fd := ⟨(Reg.CVU_CTL i), 1, 1⟩
def Fd.CVU_SRC_ADDR (i : Nat) : Fd := ⟨(Reg.CVU_SRC i), 39, 0⟩
def Fd.CVU_LEN_LEN (i : Nat) : Fd := ⟨(Reg.CVU_LEN i), 31, 0⟩
def Fd.CVU_CTX_CTX (i : Nat) : Fd := ⟨(Reg.CVU_CTX i), 63, 0⟩
def Fd.CVU_STATUS_CTX_BUSY (i : Nat) : Fd := ⟨(Reg.CVU_STATUS i), 3, 3⟩
def Fd.CVU_STATUS_ERR (i : Nat) : Fd := ⟨(Reg.CVU_STATUS i), 2, 2⟩
def Fd.CVU_STATUS_DONE (i : Nat) : Fd := ⟨(Reg.CVU_STATUS i), 1, 1⟩
def Fd.CVU_STATUS_BUSY (i : Nat) : Fd := ⟨(Reg.CVU_STATUS i), 0, 0⟩
def Fd.PGT_CTL_EPOCH_PERIOD : Fd := ⟨Reg.PGT_CTL, 7, 0⟩
def Fd.PGT_EPOCH_EPOCH : Fd := ⟨Reg.PGT_EPOCH, 31, 0⟩
def Fd.PGT_MIN_EPOCH_NONE : Fd := ⟨Reg.PGT_MIN_EPOCH, 32, 32⟩
def Fd.PGT_MIN_EPOCH_MIN : Fd := ⟨Reg.PGT_MIN_EPOCH, 31, 0⟩
def Fd.PGT_SEQ_COUNT_COUNT : Fd := ⟨Reg.PGT_SEQ_COUNT, 63, 0⟩
def Fd.PGT_DESC_COUNT_COUNT : Fd := ⟨Reg.PGT_DESC_COUNT, 63, 0⟩
def Fd.PGT_RECLAIM_PEND_COUNT : Fd := ⟨Reg.PGT_RECLAIM_PEND, 63, 0⟩
def Fd.PGT_COLD_DELAY_MS : Fd := ⟨Reg.PGT_COLD_DELAY, 31, 0⟩
def Fd.PGT_THAWS_COUNT : Fd := ⟨Reg.PGT_THAWS, 63, 0⟩
def Fd.PGT_CLASS_SEL_CLASS : Fd := ⟨Reg.PGT_CLASS_SEL, 7, 0⟩
def Fd.PGT_CLASS_DEF0_VALID : Fd := ⟨Reg.PGT_CLASS_DEF0, 15, 15⟩
def Fd.PGT_CLASS_DEF1_PREFIX : Fd := ⟨Reg.PGT_CLASS_DEF1, 16, 16⟩
def Fd.PGT_ERR_THAW_LOST : Fd := ⟨Reg.PGT_ERR, 3, 3⟩
def Fd.PGT_ERR_REFCNT_SAT : Fd := ⟨Reg.PGT_ERR, 2, 2⟩
def Fd.PGT_ERR_CLASS_BUSY : Fd := ⟨Reg.PGT_ERR, 1, 1⟩
def Fd.PGT_ERR_CLASS_FORMAT : Fd := ⟨Reg.PGT_ERR, 0, 0⟩
def Fd.PGT_DESC_SEL_INDEX : Fd := ⟨Reg.PGT_DESC_SEL, 31, 0⟩
def Fd.PGT_PART_SEQ_MAX_MAX (i : Nat) : Fd := ⟨(Reg.PGT_PART_SEQ_MAX i), 24, 0⟩
def Fd.PDIR_CTL_AGE_PERIOD : Fd := ⟨Reg.PDIR_CTL, 8, 1⟩
def Fd.PDIR_CTL_ENABLE : Fd := ⟨Reg.PDIR_CTL, 0, 0⟩
def Fd.PDIR_SHADOW_BASE_ADDR : Fd := ⟨Reg.PDIR_SHADOW_BASE, 39, 0⟩
def Fd.PDIR_SCRUB_MS_MS : Fd := ⟨Reg.PDIR_SCRUB_MS, 15, 0⟩
def Fd.PDIR_COUNT_COUNT : Fd := ⟨Reg.PDIR_COUNT, 18, 0⟩
def Fd.PDIR_PURGE_PEND_COUNT : Fd := ⟨Reg.PDIR_PURGE_PEND, 6, 0⟩
def Fd.PDIR_LOOKUPS_COUNT : Fd := ⟨Reg.PDIR_LOOKUPS, 63, 0⟩
def Fd.PDIR_HITS_COUNT : Fd := ⟨Reg.PDIR_HITS, 63, 0⟩
def Fd.PDIR_INSERTS_COUNT : Fd := ⟨Reg.PDIR_INSERTS, 63, 0⟩
def Fd.PDIR_EVICTS_COUNT : Fd := ⟨Reg.PDIR_EVICTS, 63, 0⟩
def Fd.PDIR_DROPS_COUNT : Fd := ⟨Reg.PDIR_DROPS, 63, 0⟩
def Fd.PDIR_MISMATCHES_COUNT : Fd := ⟨Reg.PDIR_MISMATCHES, 63, 0⟩
def Fd.PDIR_ERR_PURGE_FULL : Fd := ⟨Reg.PDIR_ERR, 2, 2⟩
def Fd.PDIR_ERR_SHADOW_UE : Fd := ⟨Reg.PDIR_ERR, 1, 1⟩
def Fd.PDIR_ERR_MISMATCH : Fd := ⟨Reg.PDIR_ERR, 0, 0⟩
def Fd.PDIR_PART_MAX_MAX (i : Nat) : Fd := ⟨(Reg.PDIR_PART_MAX i), 18, 0⟩
def Fd.PDIR_PART_COUNT_COUNT (i : Nat) : Fd := ⟨(Reg.PDIR_PART_COUNT i), 18, 0⟩
def Fd.PDIR_MODEL_ID_ID (i : Nat) : Fd := ⟨(Reg.PDIR_MODEL_ID i), 63, 0⟩
def Fd.AE_CTL_PART_MASK (i : Nat) : Fd := ⟨(Reg.AE_CTL i), 31, 16⟩
def Fd.AE_CTL_DRAIN (i : Nat) : Fd := ⟨(Reg.AE_CTL i), 1, 1⟩
def Fd.AE_CTL_ENABLE (i : Nat) : Fd := ⟨(Reg.AE_CTL i), 0, 0⟩
def Fd.AE_STATUS_QDEPTH (i : Nat) : Fd := ⟨(Reg.AE_STATUS i), 5, 3⟩
def Fd.AE_STATUS_QUARANTINED (i : Nat) : Fd := ⟨(Reg.AE_STATUS i), 1, 1⟩
def Fd.AE_STATUS_BUSY (i : Nat) : Fd := ⟨(Reg.AE_STATUS i), 0, 0⟩
def Fd.AE_CUR_UNIT (i : Nat) : Fd := ⟨(Reg.AE_CUR i), 57, 32⟩
def Fd.AE_CUR_VALID (i : Nat) : Fd := ⟨(Reg.AE_CUR i), 20, 20⟩
def Fd.AE_CUR_ITEM (i : Nat) : Fd := ⟨(Reg.AE_CUR i), 19, 16⟩
def Fd.AE_CUR_STREAM (i : Nat) : Fd := ⟨(Reg.AE_CUR i), 15, 0⟩
def Fd.AE_ERR_CROSSCHK (i : Nat) : Fd := ⟨(Reg.AE_ERR i), 2, 2⟩
def Fd.AE_ERR_FETCH_UE (i : Nat) : Fd := ⟨(Reg.AE_ERR i), 1, 1⟩
def Fd.AE_ERR_SRAM_UE (i : Nat) : Fd := ⟨(Reg.AE_ERR i), 0, 0⟩
def Fd.AE_UNITS_COUNT (i : Nat) : Fd := ⟨(Reg.AE_UNITS i), 63, 0⟩
def Fd.AE_BUSY_NS_NS (i : Nat) : Fd := ⟨(Reg.AE_BUSY_NS i), 63, 0⟩
def Fd.AE_NAN_COUNT_COUNT (i : Nat) : Fd := ⟨(Reg.AE_NAN_COUNT i), 63, 0⟩
def Fd.AE_SRAM_CE_COUNT (i : Nat) : Fd := ⟨(Reg.AE_SRAM_CE i), 63, 0⟩
def Fd.AE_GCTL_ENABLE : Fd := ⟨Reg.AE_GCTL, 0, 0⟩
def Fd.AE_STREAM_BASE_OFFSET : Fd := ⟨Reg.AE_STREAM_BASE, 27, 0⟩
def Fd.AE_POOL_OFFSET : Fd := ⟨Reg.AE_POOL, 35, 8⟩
def Fd.AE_POOL_SIZE : Fd := ⟨Reg.AE_POOL, 7, 0⟩
def Fd.AE_SPILL_BASE_ADDR : Fd := ⟨Reg.AE_SPILL_BASE, 39, 0⟩
def Fd.AE_SPILL_SIZE_MIB : Fd := ⟨Reg.AE_SPILL_SIZE, 15, 0⟩
def Fd.AE_TIMEOUT_MS : Fd := ⟨Reg.AE_TIMEOUT, 15, 0⟩
def Fd.AE_SPLIT_LOCK_WAIT_NS : Fd := ⟨Reg.AE_SPLIT, 43, 32⟩
def Fd.AE_SPLIT_MIN_UNITS : Fd := ⟨Reg.AE_SPLIT, 16, 4⟩
def Fd.AE_SPLIT_MAX_ENG_M1 : Fd := ⟨Reg.AE_SPLIT, 3, 0⟩
def Fd.AE_INUSE_COUNT : Fd := ⟨Reg.AE_INUSE, 16, 0⟩
def Fd.AE_ADMITS_COUNT : Fd := ⟨Reg.AE_ADMITS, 63, 0⟩
def Fd.AE_PARKS_COUNT : Fd := ⟨Reg.AE_PARKS, 63, 0⟩
def Fd.AE_PARK_STALLS_COUNT : Fd := ⟨Reg.AE_PARK_STALLS, 63, 0⟩
def Fd.AE_TIMEOUTS_COUNT : Fd := ⟨Reg.AE_TIMEOUTS, 63, 0⟩
def Fd.AE_BUSY_REJECTS_COUNT : Fd := ⟨Reg.AE_BUSY_REJECTS, 63, 0⟩
def Fd.AE_RESTARTS_COUNT : Fd := ⟨Reg.AE_RESTARTS, 63, 0⟩
def Fd.AE_PART_STREAMS_COUNT (i : Nat) : Fd := ⟨(Reg.AE_PART_STREAMS i), 48, 32⟩
def Fd.AE_PART_STREAMS_MAX (i : Nat) : Fd := ⟨(Reg.AE_PART_STREAMS i), 16, 0⟩
def Fd.MRG_CTL_RELAY_MIN : Fd := ⟨Reg.MRG_CTL, 27, 20⟩
def Fd.MRG_CTL_RELAY_FANIN_M1 : Fd := ⟨Reg.MRG_CTL, 19, 16⟩
def Fd.MRG_CTL_STREAM_CREDITS : Fd := ⟨Reg.MRG_CTL, 7, 2⟩
def Fd.MRG_CREDIT_POOL_MAX : Fd := ⟨Reg.MRG_CREDIT_POOL, 12, 0⟩
def Fd.MRG_CREDIT_USED_COUNT : Fd := ⟨Reg.MRG_CREDIT_USED, 12, 0⟩
def Fd.MRG_ERR_RELAY_LOST : Fd := ⟨Reg.MRG_ERR, 2, 2⟩
def Fd.MRG_ERR_LENDER_LOST : Fd := ⟨Reg.MRG_ERR, 1, 1⟩
def Fd.MRG_ERR_AREA_UE : Fd := ⟨Reg.MRG_ERR, 0, 0⟩
def Fd.MRG_UNIT_STATUS_QBYTES (i : Nat) : Fd := ⟨(Reg.MRG_UNIT_STATUS i), 63, 32⟩
def Fd.MRG_UNIT_STATUS_QUARANTINED (i : Nat) : Fd := ⟨(Reg.MRG_UNIT_STATUS i), 17, 17⟩
def Fd.MRG_UNIT_STATUS_BUSY (i : Nat) : Fd := ⟨(Reg.MRG_UNIT_STATUS i), 16, 16⟩
def Fd.MRG_UNIT_STATUS_STREAM (i : Nat) : Fd := ⟨(Reg.MRG_UNIT_STATUS i), 15, 0⟩
def Fd.MRG_MERGES_COUNT : Fd := ⟨Reg.MRG_MERGES, 63, 0⟩
def Fd.MRG_SUBQUERIES_COUNT : Fd := ⟨Reg.MRG_SUBQUERIES, 63, 0⟩
def Fd.MRG_HOLDS_COUNT : Fd := ⟨Reg.MRG_HOLDS, 63, 0⟩
def Fd.MRG_GRANTS_COUNT : Fd := ⟨Reg.MRG_GRANTS, 63, 0⟩
def Fd.MRG_STALE_COUNT : Fd := ⟨Reg.MRG_STALE, 63, 0⟩
def Fd.MRG_FALLBACKS_COUNT : Fd := ⟨Reg.MRG_FALLBACKS, 63, 0⟩
def Fd.MRG_LENDERS_LOST_COUNT : Fd := ⟨Reg.MRG_LENDERS_LOST, 63, 0⟩
def Fd.MRG_RERUNS_COUNT : Fd := ⟨Reg.MRG_RERUNS, 63, 0⟩
def Fd.MRG_RESULTS_COUNT : Fd := ⟨Reg.MRG_RESULTS, 63, 0⟩
def Fd.AE_SEL_CTL_MIN_UNITS : Fd := ⟨Reg.AE_SEL_CTL, 16, 4⟩
def Fd.AE_SEL_CTL_ENABLE : Fd := ⟨Reg.AE_SEL_CTL, 0, 0⟩
def Fd.AE_SEL_TESTED_COUNT : Fd := ⟨Reg.AE_SEL_TESTED, 63, 0⟩
def Fd.AE_SEL_SKIPPED_COUNT : Fd := ⟨Reg.AE_SEL_SKIPPED, 63, 0⟩
def Fd.AE_SEL_NODIGEST_COUNT : Fd := ⟨Reg.AE_SEL_NODIGEST, 63, 0⟩
def Fd.AE_SEL_AS_EXACT_COUNT : Fd := ⟨Reg.AE_SEL_AS_EXACT, 63, 0⟩
def Fd.AE_SEL_DIGEST_UE_COUNT : Fd := ⟨Reg.AE_SEL_DIGEST_UE, 63, 0⟩
def Fd.WXP_CTL_XEN : Fd := ⟨Reg.WXP_CTL, 0, 0⟩
def Fd.WXP_STATUS_COPYING : Fd := ⟨Reg.WXP_STATUS, 15, 8⟩
def Fd.WXP_STATUS_BUSY : Fd := ⟨Reg.WXP_STATUS, 7, 0⟩
def Fd.WXP_ERR_COPY_UE : Fd := ⟨Reg.WXP_ERR, 3, 3⟩
def Fd.WXP_ERR_TABLE_UE : Fd := ⟨Reg.WXP_ERR, 2, 2⟩
def Fd.WXP_ERR_BLOCK_PSN : Fd := ⟨Reg.WXP_ERR, 1, 1⟩
def Fd.WXP_ERR_CMD_REJECT : Fd := ⟨Reg.WXP_ERR, 0, 0⟩
def Fd.WXP_IMG_SEL_PART : Fd := ⟨Reg.WXP_IMG_SEL, 6, 3⟩
def Fd.WXP_IMG_SEL_INDEX : Fd := ⟨Reg.WXP_IMG_SEL, 2, 0⟩
def Fd.WXP_IMG_SHAPE_WFMT : Fd := ⟨Reg.WXP_IMG_SHAPE, 63, 62⟩
def Fd.WXP_IMG_SHAPE_W : Fd := ⟨Reg.WXP_IMG_SHAPE, 61, 51⟩
def Fd.WXP_IMG_SHAPE_VDIM : Fd := ⟨Reg.WXP_IMG_SHAPE, 50, 42⟩
def Fd.WXP_IMG_SHAPE_KDIM : Fd := ⟨Reg.WXP_IMG_SHAPE, 41, 33⟩
def Fd.WXP_IMG_SHAPE_HEADS_M1 : Fd := ⟨Reg.WXP_IMG_SHAPE, 15, 8⟩
def Fd.WXP_IMG_SHAPE_LAYERS_M1 : Fd := ⟨Reg.WXP_IMG_SHAPE, 7, 0⟩
def Fd.WXP_IMG_BASE_ADDR : Fd := ⟨Reg.WXP_IMG_BASE, 39, 0⟩
def Fd.WXP_IMG_TABLE_ADDR : Fd := ⟨Reg.WXP_IMG_TABLE, 39, 0⟩
def Fd.WXP_IMG_STATUS_FAIL_BLOCK : Fd := ⟨Reg.WXP_IMG_STATUS, 63, 32⟩
def Fd.WXP_IMG_STATUS_RESULT : Fd := ⟨Reg.WXP_IMG_STATUS, 31, 24⟩
def Fd.WXP_IMG_STATUS_STATE : Fd := ⟨Reg.WXP_IMG_STATUS, 3, 1⟩
def Fd.WXP_COPY_SRC_ADDR : Fd := ⟨Reg.WXP_COPY_SRC, 39, 0⟩
def Fd.WXP_COPY_DST_ADDR : Fd := ⟨Reg.WXP_COPY_DST, 39, 0⟩
def Fd.WXP_COPY_LEN_LEN : Fd := ⟨Reg.WXP_COPY_LEN, 31, 0⟩
def Fd.WXP_COPY_STATUS_DONE : Fd := ⟨Reg.WXP_COPY_STATUS, 1, 1⟩
def Fd.WXP_COPY_STATUS_BUSY : Fd := ⟨Reg.WXP_COPY_STATUS, 0, 0⟩
def Fd.WXP_BLOCKS_COUNT : Fd := ⟨Reg.WXP_BLOCKS, 63, 0⟩
def Fd.WXP_BYTES_IN_COUNT : Fd := ⟨Reg.WXP_BYTES_IN, 63, 0⟩
def Fd.WXP_BYTES_OUT_COUNT : Fd := ⟨Reg.WXP_BYTES_OUT, 63, 0⟩
def Fd.WXP_POISONED_COUNT : Fd := ⟨Reg.WXP_POISONED, 63, 0⟩
def Fd.TIER_CTL_DECAY_MS : Fd := ⟨Reg.TIER_CTL, 31, 16⟩
def Fd.TIER_CTL_PREFETCH_LAYERS : Fd := ⟨Reg.TIER_CTL, 7, 4⟩
def Fd.TIER_CTL_BORROW : Fd := ⟨Reg.TIER_CTL, 2, 2⟩
def Fd.TIER_CTL_LEND : Fd := ⟨Reg.TIER_CTL, 1, 1⟩
def Fd.TIER_CTL_ENABLE : Fd := ⟨Reg.TIER_CTL, 0, 0⟩
def Fd.TIER_POLICY_PREFER_LENT : Fd := ⟨Reg.TIER_POLICY, 40, 40⟩
def Fd.TIER_POLICY_DEMOTE_MAX : Fd := ⟨Reg.TIER_POLICY, 39, 32⟩
def Fd.TIER_POLICY_KEEP_PC : Fd := ⟨Reg.TIER_POLICY, 31, 24⟩
def Fd.TIER_POLICY_PROMOTE_PC : Fd := ⟨Reg.TIER_POLICY, 23, 16⟩
def Fd.TIER_POLICY_PROMOTE_LENT : Fd := ⟨Reg.TIER_POLICY, 15, 8⟩
def Fd.TIER_POLICY_PROMOTE_FAULT : Fd := ⟨Reg.TIER_POLICY, 7, 0⟩
def Fd.TIER_WATER_HIGH_MIB : Fd := ⟨Reg.TIER_WATER, 63, 32⟩
def Fd.TIER_WATER_LOW_MIB : Fd := ⟨Reg.TIER_WATER, 31, 0⟩
def Fd.TIER_FAULT_LAND_MIB : Fd := ⟨Reg.TIER_FAULT, 39, 32⟩
def Fd.TIER_FAULT_MAX_DEVICE : Fd := ⟨Reg.TIER_FAULT, 31, 16⟩
def Fd.TIER_FAULT_MAX_PER_STREAM : Fd := ⟨Reg.TIER_FAULT, 15, 0⟩
def Fd.TIER_LEAP_DEMOTE_GBPS : Fd := ⟨Reg.TIER_LEAP, 7, 0⟩
def Fd.TIER_ERR_DEVICE_FULL : Fd := ⟨Reg.TIER_ERR, 6, 6⟩
def Fd.TIER_ERR_PIN_FAIL : Fd := ⟨Reg.TIER_ERR, 5, 5⟩
def Fd.TIER_ERR_BORROWER_LOST : Fd := ⟨Reg.TIER_ERR, 4, 4⟩
def Fd.TIER_ERR_LENDER_LOST : Fd := ⟨Reg.TIER_ERR, 3, 3⟩
def Fd.TIER_ERR_RECALL_LATE : Fd := ⟨Reg.TIER_ERR, 2, 2⟩
def Fd.TIER_ERR_LAND_FULL : Fd := ⟨Reg.TIER_ERR, 1, 1⟩
def Fd.TIER_ERR_HARD_BLOCK : Fd := ⟨Reg.TIER_ERR, 0, 0⟩
def Fd.TIER_STATUS_BORROWED_GIB : Fd := ⟨Reg.TIER_STATUS, 51, 42⟩
def Fd.TIER_STATUS_LENT_OUT_GIB : Fd := ⟨Reg.TIER_STATUS, 41, 32⟩
def Fd.TIER_STATUS_FREE_MIB : Fd := ⟨Reg.TIER_STATUS, 31, 0⟩
def Fd.TIER_LEND_CTL_RECALL_MS : Fd := ⟨Reg.TIER_LEND_CTL, 47, 32⟩
def Fd.TIER_LEND_CTL_RESERVE_GIB : Fd := ⟨Reg.TIER_LEND_CTL, 25, 16⟩
def Fd.TIER_LEND_CTL_MAX_GIB : Fd := ⟨Reg.TIER_LEND_CTL, 9, 0⟩
def Fd.TIER_PIN_CTL_RESULT : Fd := ⟨Reg.TIER_PIN_CTL, 15, 8⟩
def Fd.TIER_PIN_CTL_BUSY : Fd := ⟨Reg.TIER_PIN_CTL, 2, 2⟩
def Fd.TIER_PIN_HANDLE_HANDLE : Fd := ⟨Reg.TIER_PIN_HANDLE, 63, 0⟩
def Fd.TIER_EXT_SEL_SIDE : Fd := ⟨Reg.TIER_EXT_SEL, 9, 9⟩
def Fd.TIER_EXT_SEL_INDEX : Fd := ⟨Reg.TIER_EXT_SEL, 8, 0⟩
def Fd.TIER_LEAPS_UP_COUNT : Fd := ⟨Reg.TIER_LEAPS_UP, 63, 0⟩
def Fd.TIER_LEAPS_DOWN_COUNT : Fd := ⟨Reg.TIER_LEAPS_DOWN, 63, 0⟩
def Fd.TIER_LEAPS_ABANDONED_COUNT : Fd := ⟨Reg.TIER_LEAPS_ABANDONED, 63, 0⟩
def Fd.TIER_FAULTS_FLASH_COUNT : Fd := ⟨Reg.TIER_FAULTS_FLASH, 63, 0⟩
def Fd.TIER_FAULTS_LENT_COUNT : Fd := ⟨Reg.TIER_FAULTS_LENT, 63, 0⟩
def Fd.TIER_PREFETCHES_COUNT : Fd := ⟨Reg.TIER_PREFETCHES, 63, 0⟩
def Fd.TIER_FAULT_NS_COUNT : Fd := ⟨Reg.TIER_FAULT_NS, 63, 0⟩
def Fd.TIER_SWEEPS_COUNT : Fd := ⟨Reg.TIER_SWEEPS, 63, 0⟩
def Fd.TIER_QUOTA_HARD_MIB (i j : Nat) : Fd := ⟨(Reg.TIER_QUOTA i j), 63, 32⟩
def Fd.TIER_QUOTA_SOFT_MIB (i j : Nat) : Fd := ⟨(Reg.TIER_QUOTA i j), 31, 0⟩
def Fd.TIER_USAGE_KIB (i j : Nat) : Fd := ⟨(Reg.TIER_USAGE i j), 47, 0⟩
def Fd.TIER_DIGEST_KIB (i : Nat) : Fd := ⟨(Reg.TIER_DIGEST i), 47, 0⟩
def Fd.TIER_PEER_BORROW_FROM (i : Nat) : Fd := ⟨(Reg.TIER_PEER i), 61, 61⟩
def Fd.TIER_PEER_LEND_TO (i : Nat) : Fd := ⟨(Reg.TIER_PEER i), 60, 60⟩
def Fd.TIER_PEER_PART_MASK (i : Nat) : Fd := ⟨(Reg.TIER_PEER i), 47, 32⟩
def Fd.TIER_PEER_NODE (i : Nat) : Fd := ⟨(Reg.TIER_PEER i), 19, 0⟩
def Fd.HBM_CTL_LOCK_WAIT_NS (i : Nat) : Fd := ⟨(Reg.HBM_CTL i), 47, 32⟩
def Fd.HBM_CTL_RETRAIN_MS (i : Nat) : Fd := ⟨(Reg.HBM_CTL i), 23, 8⟩
def Fd.HBM_CTL_GK_ENABLE (i : Nat) : Fd := ⟨(Reg.HBM_CTL i), 1, 1⟩
def Fd.HBM_CTL_ENABLE (i : Nat) : Fd := ⟨(Reg.HBM_CTL i), 0, 0⟩
def Fd.HBM_STATUS_TEMP (i : Nat) : Fd := ⟨(Reg.HBM_STATUS i), 47, 40⟩
def Fd.HBM_STATUS_TRAINED (i : Nat) : Fd := ⟨(Reg.HBM_STATUS i), 0, 0⟩
def Fd.HBM_ERR_TRAIN_FAIL (i : Nat) : Fd := ⟨(Reg.HBM_ERR i), 2, 2⟩
def Fd.HBM_ERR_UE (i : Nat) : Fd := ⟨(Reg.HBM_ERR i), 1, 1⟩
def Fd.HBM_ERR_CE (i : Nat) : Fd := ⟨(Reg.HBM_ERR i), 0, 0⟩
def Fd.HBM_SCRUB_PERIOD_S (i : Nat) : Fd := ⟨(Reg.HBM_SCRUB i), 31, 0⟩
def Fd.HBM_TRAIN_FAIL (i : Nat) : Fd := ⟨(Reg.HBM_TRAIN i), 31, 0⟩
def Fd.HBM_CH_STATUS_LOCKS (i j : Nat) : Fd := ⟨(Reg.HBM_CH_STATUS i j), 20, 16⟩
def Fd.HBM_CH_STATUS_GK_HALTED (i j : Nat) : Fd := ⟨(Reg.HBM_CH_STATUS i j), 3, 3⟩
def Fd.HBM_CH_STATUS_RETIRED (i j : Nat) : Fd := ⟨(Reg.HBM_CH_STATUS i j), 2, 2⟩
def Fd.HBM_CH_STATUS_WORN (i j : Nat) : Fd := ⟨(Reg.HBM_CH_STATUS i j), 1, 1⟩
def Fd.HBM_CH_STATUS_TRAINED (i j : Nat) : Fd := ⟨(Reg.HBM_CH_STATUS i j), 0, 0⟩
def Fd.HBM_CH_CE_COUNT (i j : Nat) : Fd := ⟨(Reg.HBM_CH_CE i j), 63, 0⟩
def Fd.HBM_CH_UE_COUNT (i j : Nat) : Fd := ⟨(Reg.HBM_CH_UE i j), 63, 0⟩
def Fd.HBM_CH_ERRADDR_ADDR (i j : Nat) : Fd := ⟨(Reg.HBM_CH_ERRADDR i j), 30, 0⟩
def Fd.GK_CTL_WATCHDOG_US (i j : Nat) : Fd := ⟨(Reg.GK_CTL i j), 31, 16⟩
def Fd.GK_CTL_STOP (i j : Nat) : Fd := ⟨(Reg.GK_CTL i j), 2, 2⟩
def Fd.GK_CTL_RUN (i j : Nat) : Fd := ⟨(Reg.GK_CTL i j), 0, 0⟩
def Fd.GK_STATUS_PC (i j : Nat) : Fd := ⟨(Reg.GK_STATUS i j), 42, 32⟩
def Fd.GK_STATUS_PENDING (i j : Nat) : Fd := ⟨(Reg.GK_STATUS i j), 15, 8⟩
def Fd.GK_STATUS_STATE (i j : Nat) : Fd := ⟨(Reg.GK_STATUS i j), 2, 0⟩
def Fd.GK_READY_READY (i j : Nat) : Fd := ⟨(Reg.GK_READY i j), 7, 0⟩
def Fd.GK_ERR_HALT_CODE (i j : Nat) : Fd := ⟨(Reg.GK_ERR i j), 23, 16⟩
def Fd.GK_ERR_WRITE_FENCE (i j : Nat) : Fd := ⟨(Reg.GK_ERR i j), 6, 6⟩
def Fd.GK_ERR_ILLEGAL (i j : Nat) : Fd := ⟨(Reg.GK_ERR i j), 5, 5⟩
def Fd.GK_ERR_LOCAL_ADDR (i j : Nat) : Fd := ⟨(Reg.GK_ERR i j), 4, 4⟩
def Fd.GK_ERR_CHAN_ADDR (i j : Nat) : Fd := ⟨(Reg.GK_ERR i j), 3, 3⟩
def Fd.GK_ERR_ALIGN (i j : Nat) : Fd := ⟨(Reg.GK_ERR i j), 2, 2⟩
def Fd.GK_ERR_WATCHDOG (i j : Nat) : Fd := ⟨(Reg.GK_ERR i j), 1, 1⟩
def Fd.GK_ERR_HALT (i j : Nat) : Fd := ⟨(Reg.GK_ERR i j), 0, 0⟩
def Fd.GK_USTORE_ADDR_INDEX (i j : Nat) : Fd := ⟨(Reg.GK_USTORE_ADDR i j), 10, 0⟩
def Fd.GK_SCR_ADDR_INDEX (i j : Nat) : Fd := ⟨(Reg.GK_SCR_ADDR i j), 13, 2⟩
def Fd.GK_REG_SEL_REG (i j : Nat) : Fd := ⟨(Reg.GK_REG_SEL i j), 4, 0⟩
def Fd.GK_JOBS_COUNT (i j : Nat) : Fd := ⟨(Reg.GK_JOBS i j), 63, 0⟩
def Fd.GK_STALL_NS_NS (i j : Nat) : Fd := ⟨(Reg.GK_STALL_NS i j), 63, 0⟩
def Fd.FLT_CTL_OP_PCT : Fd := ⟨Reg.FLT_CTL, 23, 16⟩
def Fd.FLT_CTL_FMT_KEY : Fd := ⟨Reg.FLT_CTL, 15, 8⟩
def Fd.FLT_CTL_MIRROR_DIRECT : Fd := ⟨Reg.FLT_CTL, 3, 3⟩
def Fd.FLT_CTL_ENABLE : Fd := ⟨Reg.FLT_CTL, 0, 0⟩
def Fd.FLT_STATUS_SLC_GB : Fd := ⟨Reg.FLT_STATUS, 47, 32⟩
def Fd.FLT_STATUS_FREE_SB : Fd := ⟨Reg.FLT_STATUS, 31, 16⟩
def Fd.FLT_STATUS_STATE : Fd := ⟨Reg.FLT_STATUS, 2, 0⟩
def Fd.FLT_ERR_JRNL_LOST : Fd := ⟨Reg.FLT_ERR, 6, 6⟩
def Fd.FLT_ERR_NO_SPACE : Fd := ⟨Reg.FLT_ERR, 5, 5⟩
def Fd.FLT_ERR_WORN : Fd := ⟨Reg.FLT_ERR, 4, 4⟩
def Fd.FLT_ERR_LUN_FAIL : Fd := ⟨Reg.FLT_ERR, 3, 3⟩
def Fd.FLT_ERR_LOST : Fd := ⟨Reg.FLT_ERR, 2, 2⟩
def Fd.FLT_ERR_MAP_MISMATCH : Fd := ⟨Reg.FLT_ERR, 1, 1⟩
def Fd.FLT_ERR_GEOMETRY : Fd := ⟨Reg.FLT_ERR, 0, 0⟩
def Fd.FLT_GEOM_CELL : Fd := ⟨Reg.FLT_GEOM, 49, 48⟩
def Fd.FLT_GEOM_RAW_TB : Fd := ⟨Reg.FLT_GEOM, 47, 32⟩
def Fd.FLT_GEOM_BLOCKS : Fd := ⟨Reg.FLT_GEOM, 28, 16⟩
def Fd.FLT_GEOM_PAGES : Fd := ⟨Reg.FLT_GEOM, 15, 5⟩
def Fd.FLT_GEOM_LUNS_M1 : Fd := ⟨Reg.FLT_GEOM, 4, 3⟩
def Fd.FLT_GEOM_CE_M1 : Fd := ⟨Reg.FLT_GEOM, 2, 0⟩
def Fd.FLT_LOGICAL_UNITS : Fd := ⟨Reg.FLT_LOGICAL, 31, 0⟩
def Fd.FLT_MAP_BASE_ADDR : Fd := ⟨Reg.FLT_MAP_BASE, 39, 0⟩
def Fd.FLT_OCC_BASE_ADDR : Fd := ⟨Reg.FLT_OCC_BASE, 39, 0⟩
def Fd.FLT_SLC_MAX_GB : Fd := ⟨Reg.FLT_SLC, 63, 32⟩
def Fd.FLT_SLC_MIN_GB : Fd := ⟨Reg.FLT_SLC, 31, 0⟩
def Fd.FLT_GC_LOW_SB : Fd := ⟨Reg.FLT_GC, 31, 16⟩
def Fd.FLT_JRNL_MAX_MIB : Fd := ⟨Reg.FLT_JRNL, 47, 32⟩
def Fd.FLT_JRNL_COMMIT_US : Fd := ⟨Reg.FLT_JRNL, 31, 16⟩
def Fd.FLT_ENDUR_SLC_PE : Fd := ⟨Reg.FLT_ENDUR, 63, 32⟩
def Fd.FLT_ENDUR_NATIVE_PE : Fd := ⟨Reg.FLT_ENDUR, 31, 0⟩
def Fd.FLT_HEALTH_SPARE_PCT : Fd := ⟨Reg.FLT_HEALTH, 63, 56⟩
def Fd.FLT_HEALTH_WEAR_PCT : Fd := ⟨Reg.FLT_HEALTH, 55, 48⟩
def Fd.FLT_HEALTH_WEAR_MAX_PCT : Fd := ⟨Reg.FLT_HEALTH, 47, 40⟩
def Fd.FLT_HEALTH_TEMP : Fd := ⟨Reg.FLT_HEALTH, 39, 32⟩
def Fd.FLT_HEALTH_LUNS_FAILED : Fd := ⟨Reg.FLT_HEALTH, 9, 0⟩
def Fd.FLT_CMD_LUNIT_LUNIT : Fd := ⟨Reg.FLT_CMD_LUNIT, 31, 0⟩
def Fd.FLT_CMD_ADDR_ADDR : Fd := ⟨Reg.FLT_CMD_ADDR, 39, 0⟩
def Fd.FLT_CMD_RESULT : Fd := ⟨Reg.FLT_CMD, 63, 56⟩
def Fd.FLT_CMD_BUSY : Fd := ⟨Reg.FLT_CMD, 3, 3⟩
def Fd.FLT_AREA_SIZE (i : Nat) : Fd := ⟨(Reg.FLT_AREA i), 63, 32⟩
def Fd.FLT_AREA_BASE (i : Nat) : Fd := ⟨(Reg.FLT_AREA i), 31, 0⟩
def Fd.FLT_USER_UNITS_COUNT : Fd := ⟨Reg.FLT_USER_UNITS, 63, 0⟩
def Fd.FLT_NAND_UNITS_COUNT : Fd := ⟨Reg.FLT_NAND_UNITS, 63, 0⟩
def Fd.FLT_READ_UNITS_COUNT : Fd := ⟨Reg.FLT_READ_UNITS, 63, 0⟩
def Fd.FLT_ERASES_COUNT : Fd := ⟨Reg.FLT_ERASES, 63, 0⟩
def Fd.FLT_MOVES_COUNT : Fd := ⟨Reg.FLT_MOVES, 63, 0⟩
def Fd.FLT_TRIMS_COUNT : Fd := ⟨Reg.FLT_TRIMS, 63, 0⟩
def Fd.FLT_ERRCNT_COUNT (i : Nat) : Fd := ⟨(Reg.FLT_ERRCNT i), 63, 0⟩
def Fd.FLT_CH_STATUS_FAILED (i : Nat) : Fd := ⟨(Reg.FLT_CH_STATUS i), 41, 41⟩
def Fd.FLT_CH_STATUS_TRAINED (i : Nat) : Fd := ⟨(Reg.FLT_CH_STATUS i), 40, 40⟩
def Fd.FLT_CH_STATUS_QDEPTH (i : Nat) : Fd := ⟨(Reg.FLT_CH_STATUS i), 39, 32⟩
def Fd.FLT_CH_STATUS_LUN_FAIL (i : Nat) : Fd := ⟨(Reg.FLT_CH_STATUS i), 31, 0⟩
def Fd.FLT_TEMP_HIST_SECONDS (i : Nat) : Fd := ⟨(Reg.FLT_TEMP_HIST i), 31, 0⟩
def Fd.TRL_CTL_WINDOW_MIB : Fd := ⟨Reg.TRL_CTL, 23, 16⟩
def Fd.TRL_CTL_PORT_MODE : Fd := ⟨Reg.TRL_CTL, 3, 2⟩
def Fd.TRL_CTL_TWIN_RX : Fd := ⟨Reg.TRL_CTL, 1, 1⟩
def Fd.TRL_CTL_ENABLE : Fd := ⟨Reg.TRL_CTL, 0, 0⟩
def Fd.TRL_NODE_NODE : Fd := ⟨Reg.TRL_NODE, 19, 0⟩
def Fd.TRL_IP4_VALID : Fd := ⟨Reg.TRL_IP4, 32, 32⟩
def Fd.TRL_IP4_ADDR : Fd := ⟨Reg.TRL_IP4, 31, 0⟩
def Fd.TRL_IP6_HI_ADDR : Fd := ⟨Reg.TRL_IP6_HI, 63, 0⟩
def Fd.TRL_IP6_LO_ADDR : Fd := ⟨Reg.TRL_IP6_LO, 63, 0⟩
def Fd.TRL_UDP_TTL : Fd := ⟨Reg.TRL_UDP, 23, 16⟩
def Fd.TRL_UDP_PORT : Fd := ⟨Reg.TRL_UDP, 15, 0⟩
def Fd.TRL_RETX_RTO_INIT_NS : Fd := ⟨Reg.TRL_RETX, 63, 48⟩
def Fd.TRL_RETX_RTO_MAX_US : Fd := ⟨Reg.TRL_RETX, 47, 36⟩
def Fd.TRL_RETX_MAX_TRIES : Fd := ⟨Reg.TRL_RETX, 35, 32⟩
def Fd.TRL_RETX_REORDER_NS : Fd := ⟨Reg.TRL_RETX, 31, 16⟩
def Fd.TRL_RETX_RTO_MIN_NS : Fd := ⟨Reg.TRL_RETX, 15, 0⟩
def Fd.TRL_ACK_ACK_NS : Fd := ⟨Reg.TRL_ACK, 23, 8⟩
def Fd.TRL_ACK_ACK_SEGS : Fd := ⟨Reg.TRL_ACK, 7, 0⟩
def Fd.TRL_ECN_MIN_GBPS : Fd := ⟨Reg.TRL_ECN, 63, 48⟩
def Fd.TRL_ECN_INC_US : Fd := ⟨Reg.TRL_ECN, 47, 32⟩
def Fd.TRL_ECN_CUT_US : Fd := ⟨Reg.TRL_ECN, 31, 16⟩
def Fd.TRL_ECN_INC_SHIFT : Fd := ⟨Reg.TRL_ECN, 15, 8⟩
def Fd.TRL_ECN_DEC_SHIFT : Fd := ⟨Reg.TRL_ECN, 7, 0⟩
def Fd.TRL_RASM_PER_CONDUIT : Fd := ⟨Reg.TRL_RASM, 63, 56⟩
def Fd.TRL_RASM_CONTEXTS : Fd := ⟨Reg.TRL_RASM, 55, 40⟩
def Fd.TRL_RASM_BASE : Fd := ⟨Reg.TRL_RASM, 39, 0⟩
def Fd.TRL_RXBUF_MIB : Fd := ⟨Reg.TRL_RXBUF, 63, 48⟩
def Fd.TRL_RXBUF_ADDR : Fd := ⟨Reg.TRL_RXBUF, 39, 0⟩
def Fd.TRL_PUNT_KPPS : Fd := ⟨Reg.TRL_PUNT, 15, 0⟩
def Fd.TRL_ERR_PORT_DOWN : Fd := ⟨Reg.TRL_ERR, 3, 3⟩
def Fd.TRL_ERR_REKEY : Fd := ⟨Reg.TRL_ERR, 2, 2⟩
def Fd.TRL_ERR_CONDUIT_FAIL : Fd := ⟨Reg.TRL_ERR, 1, 1⟩
def Fd.TRL_ERR_CMD_REJECT : Fd := ⟨Reg.TRL_ERR, 0, 0⟩
def Fd.TRL_DSCP_PCP : Fd := ⟨Reg.TRL_DSCP, 63, 48⟩
def Fd.TRL_DSCP_DSCP : Fd := ⟨Reg.TRL_DSCP, 47, 0⟩
def Fd.TRL_CONDUIT_SEL_INDEX : Fd := ⟨Reg.TRL_CONDUIT_SEL, 15, 0⟩
def Fd.TRL_CONDUIT_CMD_RESULT : Fd := ⟨Reg.TRL_CONDUIT_CMD, 15, 8⟩
def Fd.TRL_TX_SEGS_COUNT : Fd := ⟨Reg.TRL_TX_SEGS, 63, 0⟩
def Fd.TRL_RX_SEGS_COUNT : Fd := ⟨Reg.TRL_RX_SEGS, 63, 0⟩
def Fd.TRL_RETX_SEGS_COUNT : Fd := ⟨Reg.TRL_RETX_SEGS, 63, 0⟩
def Fd.TRL_ECN_CE_COUNT : Fd := ⟨Reg.TRL_ECN_CE, 63, 0⟩
def Fd.TRL_RTO_EXPIRIES_COUNT : Fd := ⟨Reg.TRL_RTO_EXPIRIES, 63, 0⟩
def Fd.TRL_CONDUIT_FAILS_COUNT : Fd := ⟨Reg.TRL_CONDUIT_FAILS, 63, 0⟩
def Fd.TRL_LOOPBACK_MSGS_COUNT : Fd := ⟨Reg.TRL_LOOPBACK_MSGS, 63, 0⟩
def Fd.TRL_DROP_COUNT (i : Nat) : Fd := ⟨(Reg.TRL_DROP i), 63, 0⟩
def Fd.TRL_PORT_CTL_MAC_HI (i : Nat) : Fd := ⟨(Reg.TRL_PORT_CTL i), 63, 48⟩
def Fd.TRL_PORT_CTL_MAC_LO (i : Nat) : Fd := ⟨(Reg.TRL_PORT_CTL i), 47, 16⟩
def Fd.TRL_PORT_CTL_VID (i : Nat) : Fd := ⟨(Reg.TRL_PORT_CTL i), 15, 4⟩
def Fd.TRL_PORT_CTL_VLAN_EN (i : Nat) : Fd := ⟨(Reg.TRL_PORT_CTL i), 3, 3⟩
def Fd.TRL_PORT_CTL_LOOP (i : Nat) : Fd := ⟨(Reg.TRL_PORT_CTL i), 2, 1⟩
def Fd.TRL_PORT_CTL_ENABLE (i : Nat) : Fd := ⟨(Reg.TRL_PORT_CTL i), 0, 0⟩
def Fd.TRL_PORT_STATUS_LANES_LOCKED (i : Nat) : Fd := ⟨(Reg.TRL_PORT_STATUS i), 11, 4⟩
def Fd.TRL_PORT_STATUS_TRAINING (i : Nat) : Fd := ⟨(Reg.TRL_PORT_STATUS i), 2, 2⟩
def Fd.TRL_PORT_STATUS_UP (i : Nat) : Fd := ⟨(Reg.TRL_PORT_STATUS i), 0, 0⟩
def Fd.TRL_PORT_NH_VALID (i : Nat) : Fd := ⟨(Reg.TRL_PORT_NH i), 48, 48⟩
def Fd.TRL_PORT_NH_MAC (i : Nat) : Fd := ⟨(Reg.TRL_PORT_NH i), 47, 0⟩
def Fd.RMO_CTL_RETRY_US : Fd := ⟨Reg.RMO_CTL, 31, 16⟩
def Fd.RMO_CTL_ENABLE : Fd := ⟨Reg.RMO_CTL, 0, 0⟩
def Fd.RMO_TABLE_ENTRIES : Fd := ⟨Reg.RMO_TABLE, 60, 40⟩
def Fd.RMO_TABLE_BASE : Fd := ⟨Reg.RMO_TABLE, 39, 0⟩
def Fd.RMO_WR_POOL_ENTRIES : Fd := ⟨Reg.RMO_WR_POOL, 60, 40⟩
def Fd.RMO_ERR_WRITE_NACK : Fd := ⟨Reg.RMO_ERR, 4, 4⟩
def Fd.RMO_ERR_REVOKE_DONE : Fd := ⟨Reg.RMO_ERR, 3, 3⟩
def Fd.RMO_ERR_NOTIFY_FAIL : Fd := ⟨Reg.RMO_ERR, 2, 2⟩
def Fd.RMO_ERR_WR_FAIL : Fd := ⟨Reg.RMO_ERR, 1, 1⟩
def Fd.RMO_ERR_CMD_REJECT : Fd := ⟨Reg.RMO_ERR, 0, 0⟩
def Fd.RMO_REG_SEL_INDEX : Fd := ⟨Reg.RMO_REG_SEL, 19, 0⟩
def Fd.RMO_REG_CMD_KEY : Fd := ⟨Reg.RMO_REG_CMD, 63, 32⟩
def Fd.RMO_REG_CMD_RESULT : Fd := ⟨Reg.RMO_REG_CMD, 31, 24⟩
def Fd.RMO_CQ_SEL_INDEX : Fd := ⟨Reg.RMO_CQ_SEL, 11, 0⟩
def Fd.RMO_CQ_CFG0_ENABLE : Fd := ⟨Reg.RMO_CQ_CFG0, 63, 63⟩
def Fd.RMO_CQ_CFG0_NOTIFY : Fd := ⟨Reg.RMO_CQ_CFG0, 62, 61⟩
def Fd.RMO_CQ_CFG0_LOG2SIZE : Fd := ⟨Reg.RMO_CQ_CFG0, 59, 55⟩
def Fd.RMO_CQ_CFG0_PART : Fd := ⟨Reg.RMO_CQ_CFG0, 54, 51⟩
def Fd.RMO_CQ_CFG0_BASE : Fd := ⟨Reg.RMO_CQ_CFG0, 39, 0⟩
def Fd.RMO_CQ_CFG1_RKEY : Fd := ⟨Reg.RMO_CQ_CFG1, 63, 32⟩
def Fd.RMO_CQ_CFG1_NCOUNT : Fd := ⟨Reg.RMO_CQ_CFG1, 31, 16⟩
def Fd.RMO_CQ_CFG1_NDELAY_NS : Fd := ⟨Reg.RMO_CQ_CFG1, 15, 0⟩
def Fd.RMO_CQ_IDX_PI : Fd := ⟨Reg.RMO_CQ_IDX, 63, 32⟩
def Fd.RMO_CQ_IDX_CI : Fd := ⟨Reg.RMO_CQ_IDX, 31, 0⟩
def Fd.RMO_CTR_SEL_INDEX : Fd := ⟨Reg.RMO_CTR_SEL, 15, 0⟩
def Fd.RMO_CTR_VAL_VALUE : Fd := ⟨Reg.RMO_CTR_VAL, 31, 0⟩
def Fd.RMO_CTR_CFG_ENABLE : Fd := ⟨Reg.RMO_CTR_CFG, 63, 63⟩
def Fd.RMO_CTR_CFG_PART : Fd := ⟨Reg.RMO_CTR_CFG, 59, 56⟩
def Fd.RMO_CTR_CFG_PENDING : Fd := ⟨Reg.RMO_CTR_CFG, 31, 16⟩
def Fd.RMO_CTR_CFG_MAXWR : Fd := ⟨Reg.RMO_CTR_CFG, 15, 0⟩
def Fd.RMO_WRITES_COUNT : Fd := ⟨Reg.RMO_WRITES, 63, 0⟩
def Fd.RMO_READS_COUNT : Fd := ⟨Reg.RMO_READS, 63, 0⟩
def Fd.RMO_KEY_FAILS_COUNT : Fd := ⟨Reg.RMO_KEY_FAILS, 63, 0⟩
def Fd.RMO_HELD_DROPS_COUNT : Fd := ⟨Reg.RMO_HELD_DROPS, 63, 0⟩
def Fd.RMO_WR_FIRED_COUNT : Fd := ⟨Reg.RMO_WR_FIRED, 63, 0⟩
def Fd.RMO_WR_FAILS_COUNT : Fd := ⟨Reg.RMO_WR_FAILS, 63, 0⟩
def Fd.RMO_WRITE_NACKS_COUNT : Fd := ⟨Reg.RMO_WRITE_NACKS, 63, 0⟩
def Fd.RMO_NOTIFIES_COUNT : Fd := ⟨Reg.RMO_NOTIFIES, 63, 0⟩
def Fd.RMO_REVOKES_COUNT : Fd := ⟨Reg.RMO_REVOKES, 63, 0⟩
def Fd.RMO_PART_REGIONS_COUNT (i : Nat) : Fd := ⟨(Reg.RMO_PART_REGIONS i), 52, 32⟩
def Fd.RMO_PART_REGIONS_MAX (i : Nat) : Fd := ⟨(Reg.RMO_PART_REGIONS i), 20, 0⟩
def Fd.SCH_CTL_METER_EN : Fd := ⟨Reg.SCH_CTL, 1, 1⟩
def Fd.SCH_CTL_SHAPE_EN : Fd := ⟨Reg.SCH_CTL, 0, 0⟩
def Fd.SCH_ERR_CFG_CLAMP : Fd := ⟨Reg.SCH_ERR, 1, 1⟩
def Fd.SCH_ERR_CROAK_RED : Fd := ⟨Reg.SCH_ERR, 0, 0⟩
def Fd.SCH_HELD_COUNT : Fd := ⟨Reg.SCH_HELD, 15, 0⟩
def Fd.SCH_YELLOW_COUNT : Fd := ⟨Reg.SCH_YELLOW, 63, 0⟩
def Fd.SCH_RED_COUNT : Fd := ⟨Reg.SCH_RED, 63, 0⟩
def Fd.SCH_DROPS_COUNT : Fd := ⟨Reg.SCH_DROPS, 63, 0⟩
def Fd.SCH_CROAK_RED_COUNT : Fd := ⟨Reg.SCH_CROAK_RED, 63, 0⟩
def Fd.SCH_SVC_STRICT (i : Nat) : Fd := ⟨(Reg.SCH_SVC i), 63, 63⟩
def Fd.SCH_SVC_WEIGHT (i : Nat) : Fd := ⟨(Reg.SCH_SVC i), 55, 48⟩
def Fd.SCH_SVC_CIR_PM (i : Nat) : Fd := ⟨(Reg.SCH_SVC i), 47, 38⟩
def Fd.SCH_SVC_PIR_PM (i : Nat) : Fd := ⟨(Reg.SCH_SVC i), 37, 28⟩
def Fd.SCH_SVC_CBS (i : Nat) : Fd := ⟨(Reg.SCH_SVC i), 27, 14⟩
def Fd.SCH_SVC_PBS (i : Nat) : Fd := ⟨(Reg.SCH_SVC i), 13, 0⟩
def Fd.SCH_PORT_RATE_PM (i : Nat) : Fd := ⟨(Reg.SCH_PORT i), 25, 16⟩
def Fd.SCH_PORT_FALLBACK (i : Nat) : Fd := ⟨(Reg.SCH_PORT i), 8, 8⟩
def Fd.SCH_PORT_OVERHEAD (i : Nat) : Fd := ⟨(Reg.SCH_PORT i), 6, 0⟩
def Fd.SCH_SUB_SEL_INDEX : Fd := ⟨Reg.SCH_SUB_SEL, 11, 0⟩
def Fd.SCH_SUB_C_RATE_MBPS : Fd := ⟨Reg.SCH_SUB_C, 55, 32⟩
def Fd.SCH_SUB_C_BURST : Fd := ⟨Reg.SCH_SUB_C, 15, 0⟩
def Fd.SCH_SUB_P_RATE_MBPS : Fd := ⟨Reg.SCH_SUB_P, 55, 32⟩
def Fd.SCH_SUB_P_BURST : Fd := ⟨Reg.SCH_SUB_P, 15, 0⟩
def Fd.SCH_SUB_CFG_COLOUR : Fd := ⟨Reg.SCH_SUB_CFG, 33, 32⟩
def Fd.SCH_SUB_CFG_WEIGHT : Fd := ⟨Reg.SCH_SUB_CFG, 7, 0⟩
def Fd.SCH_MTR_SEL_INDEX : Fd := ⟨Reg.SCH_MTR_SEL, 12, 0⟩
def Fd.SCH_MTR_CFG_RACT : Fd := ⟨Reg.SCH_MTR_CFG, 7, 6⟩
def Fd.SCH_MTR_CFG_YACT : Fd := ⟨Reg.SCH_MTR_CFG, 5, 4⟩
def Fd.SCH_MTR_CFG_AWARE : Fd := ⟨Reg.SCH_MTR_CFG, 2, 2⟩
def Fd.SCH_MTR_CFG_MODE : Fd := ⟨Reg.SCH_MTR_CFG, 1, 1⟩
def Fd.SCH_MTR_CFG_ENABLE : Fd := ⟨Reg.SCH_MTR_CFG, 0, 0⟩
def Fd.SCH_MTR_C_RATE_MBPS : Fd := ⟨Reg.SCH_MTR_C, 55, 32⟩
def Fd.SCH_MTR_C_BURST : Fd := ⟨Reg.SCH_MTR_C, 15, 0⟩
def Fd.SCH_MTR_P_RATE_MBPS : Fd := ⟨Reg.SCH_MTR_P, 55, 32⟩
def Fd.SCH_MTR_P_BURST : Fd := ⟨Reg.SCH_MTR_P, 15, 0⟩
def Fd.SCH_MTR_GREEN_COUNT : Fd := ⟨Reg.SCH_MTR_GREEN, 63, 0⟩
def Fd.SCH_MTR_YELLOW_COUNT : Fd := ⟨Reg.SCH_MTR_YELLOW, 63, 0⟩
def Fd.SCH_MTR_RED_COUNT : Fd := ⟨Reg.SCH_MTR_RED, 63, 0⟩
def Fd.SCH_IMAP_SEL_INDEX : Fd := ⟨Reg.SCH_IMAP_SEL, 11, 0⟩
def Fd.SCH_IMAP_VALID : Fd := ⟨Reg.SCH_IMAP, 63, 63⟩
def Fd.SCH_IMAP_METER : Fd := ⟨Reg.SCH_IMAP, 60, 48⟩
def Fd.SCH_IMAP_PVALID : Fd := ⟨Reg.SCH_IMAP, 47, 47⟩
def Fd.SCH_IMAP_PMETER : Fd := ⟨Reg.SCH_IMAP, 45, 40⟩
def Fd.SCH_ICOLOR0_COLOUR : Fd := ⟨Reg.SCH_ICOLOR0, 63, 0⟩
def Fd.SCH_ICOLOR1_COLOUR : Fd := ⟨Reg.SCH_ICOLOR1, 63, 0⟩
def Fd.TWN_CTL_CONDUIT : Fd := ⟨Reg.TWN_CTL, 63, 48⟩
def Fd.TWN_CTL_HOT_MASK : Fd := ⟨Reg.TWN_CTL, 47, 32⟩
def Fd.TWN_CTL_PATHS_M1 : Fd := ⟨Reg.TWN_CTL, 3, 2⟩
def Fd.TWN_CTL_ENABLE : Fd := ⟨Reg.TWN_CTL, 0, 0⟩
def Fd.TWN_STATUS_PEER_HEALTH : Fd := ⟨Reg.TWN_STATUS, 63, 48⟩
def Fd.TWN_STATUS_SUSPECT : Fd := ⟨Reg.TWN_STATUS, 4, 4⟩
def Fd.TWN_STATUS_LEASE : Fd := ⟨Reg.TWN_STATUS, 3, 3⟩
def Fd.TWN_STATUS_ROLE : Fd := ⟨Reg.TWN_STATUS, 2, 0⟩
def Fd.TWN_EPOCH_EPOCH : Fd := ⟨Reg.TWN_EPOCH, 31, 0⟩
def Fd.TWN_CROAK_PERIOD_NS : Fd := ⟨Reg.TWN_CROAK, 31, 16⟩
def Fd.TWN_CROAK_MISS : Fd := ⟨Reg.TWN_CROAK, 15, 8⟩
def Fd.TWN_CROAK_LEASE : Fd := ⟨Reg.TWN_CROAK, 7, 0⟩
def Fd.TWN_WITNESS_VALID : Fd := ⟨Reg.TWN_WITNESS, 63, 63⟩
def Fd.TWN_WITNESS_CONDUIT : Fd := ⟨Reg.TWN_WITNESS, 51, 36⟩
def Fd.TWN_WITNESS_TIMEOUT_US : Fd := ⟨Reg.TWN_WITNESS, 35, 28⟩
def Fd.TWN_GOVERNOR_VALID : Fd := ⟨Reg.TWN_GOVERNOR, 63, 63⟩
def Fd.TWN_GOVERNOR_CONDUIT : Fd := ⟨Reg.TWN_GOVERNOR, 51, 36⟩
def Fd.TWN_DOMAIN_DOMAIN : Fd := ⟨Reg.TWN_DOMAIN, 9, 0⟩
def Fd.TWN_NOTIFY_BASE_ADDR : Fd := ⟨Reg.TWN_NOTIFY_BASE, 39, 0⟩
def Fd.TWN_CMD_RESULT : Fd := ⟨Reg.TWN_CMD, 63, 56⟩
def Fd.TWN_CMD_BUSY : Fd := ⟨Reg.TWN_CMD, 8, 8⟩
def Fd.TWN_ERR_REGROW_DONE : Fd := ⟨Reg.TWN_ERR, 8, 8⟩
def Fd.TWN_ERR_XCHK_POISON : Fd := ⟨Reg.TWN_ERR, 7, 7⟩
def Fd.TWN_ERR_QUARANTINE : Fd := ⟨Reg.TWN_ERR, 6, 6⟩
def Fd.TWN_ERR_RETIRE : Fd := ⟨Reg.TWN_ERR, 5, 5⟩
def Fd.TWN_ERR_GOV_REFUSED : Fd := ⟨Reg.TWN_ERR, 4, 4⟩
def Fd.TWN_ERR_WITNESS_FAIL : Fd := ⟨Reg.TWN_ERR, 3, 3⟩
def Fd.TWN_ERR_MIRROR_CRC : Fd := ⟨Reg.TWN_ERR, 2, 2⟩
def Fd.TWN_ERR_FENCED : Fd := ⟨Reg.TWN_ERR, 1, 1⟩
def Fd.TWN_ERR_TAKEOVER : Fd := ⟨Reg.TWN_ERR, 0, 0⟩
def Fd.TWN_REGROW_RATE_GBPS : Fd := ⟨Reg.TWN_REGROW, 7, 0⟩
def Fd.TWN_REGROW_LEFT_BYTES : Fd := ⟨Reg.TWN_REGROW_LEFT, 63, 0⟩
def Fd.TWN_MIRROR_USE_META_MIB : Fd := ⟨Reg.TWN_MIRROR_USE, 59, 40⟩
def Fd.TWN_MIRROR_USE_HOT_MIB : Fd := ⟨Reg.TWN_MIRROR_USE, 39, 20⟩
def Fd.TWN_MIRROR_USE_STAGE_MIB : Fd := ⟨Reg.TWN_MIRROR_USE, 19, 0⟩
def Fd.TWN_XCHK_TOL_LOG2 : Fd := ⟨Reg.TWN_XCHK, 15, 8⟩
def Fd.TWN_XCHK_PERIOD_LOG2 : Fd := ⟨Reg.TWN_XCHK, 7, 4⟩
def Fd.TWN_XCHK_ENABLE : Fd := ⟨Reg.TWN_XCHK, 0, 0⟩
def Fd.TWN_HEALTH_SCORE : Fd := ⟨Reg.TWN_HEALTH, 9, 0⟩
def Fd.TWN_WIT_CTL_PAIRS : Fd := ⟨Reg.TWN_WIT_CTL, 63, 52⟩
def Fd.TWN_GOV_CTL_LIMIT : Fd := ⟨Reg.TWN_GOV_CTL, 63, 56⟩
def Fd.TWN_GOV_CTL_WINDOW_MIN : Fd := ⟨Reg.TWN_GOV_CTL, 55, 40⟩
def Fd.TWN_GOV_CTL_BASE : Fd := ⟨Reg.TWN_GOV_CTL, 39, 0⟩
def Fd.TWN_WIN_SEL_BAND : Fd := ⟨Reg.TWN_WIN_SEL, 18, 16⟩
def Fd.TWN_WIN_SEL_UNIT : Fd := ⟨Reg.TWN_WIN_SEL, 15, 8⟩
def Fd.TWN_WIN_SEL_CLASS : Fd := ⟨Reg.TWN_WIN_SEL, 2, 0⟩
def Fd.TWN_WIN_COUNT_COUNT : Fd := ⟨Reg.TWN_WIN_COUNT, 31, 0⟩
def Fd.TWN_XLOG_SEL_NEXT : Fd := ⟨Reg.TWN_XLOG_SEL, 13, 8⟩
def Fd.TWN_XLOG_SEL_INDEX : Fd := ⟨Reg.TWN_XLOG_SEL, 5, 0⟩
def Fd.TWN_MIRRORS_COUNT : Fd := ⟨Reg.TWN_MIRRORS, 63, 0⟩
def Fd.TWN_MIRROR_BYTES_COUNT : Fd := ⟨Reg.TWN_MIRROR_BYTES, 63, 0⟩
def Fd.TWN_CROAKS_MISSED_COUNT : Fd := ⟨Reg.TWN_CROAKS_MISSED, 63, 0⟩
def Fd.TWN_TAKEOVERS_COUNT : Fd := ⟨Reg.TWN_TAKEOVERS, 63, 0⟩
def Fd.TWN_XCHK_RUNS_COUNT : Fd := ⟨Reg.TWN_XCHK_RUNS, 63, 0⟩
def Fd.TWN_XCHK_MISMATCH_COUNT : Fd := ⟨Reg.TWN_XCHK_MISMATCH, 63, 0⟩
def Fd.TWN_CLASS_WINDOW_MS (i : Nat) : Fd := ⟨(Reg.TWN_CLASS i), 63, 32⟩
def Fd.TWN_CLASS_LIMIT (i : Nat) : Fd := ⟨(Reg.TWN_CLASS i), 31, 16⟩
def Fd.TWN_CLASS_ACTION (i : Nat) : Fd := ⟨(Reg.TWN_CLASS i), 2, 0⟩
def Fd.SEC_CTL_BOOT_DONE : Fd := ⟨Reg.SEC_CTL, 0, 0⟩
def Fd.SEC_STATUS_DEBUG_SEEN : Fd := ⟨Reg.SEC_STATUS, 7, 7⟩
def Fd.SEC_STATUS_DEBUG_ACTIVE : Fd := ⟨Reg.SEC_STATUS, 6, 6⟩
def Fd.SEC_STATUS_BOOT_SLOT : Fd := ⟨Reg.SEC_STATUS, 5, 4⟩
def Fd.SEC_ERR_FUSE_FAIL : Fd := ⟨Reg.SEC_ERR, 3, 3⟩
def Fd.SEC_ERR_MOLT_FAIL : Fd := ⟨Reg.SEC_ERR, 2, 2⟩
def Fd.SEC_ERR_PKEY_FAIL : Fd := ⟨Reg.SEC_ERR, 1, 1⟩
def Fd.SEC_ERR_CMD_REJECT : Fd := ⟨Reg.SEC_ERR, 0, 0⟩
def Fd.SEC_FUSE_STATUS_SVN : Fd := ⟨Reg.SEC_FUSE_STATUS, 58, 52⟩
def Fd.SEC_FUSE_STATUS_BUSY : Fd := ⟨Reg.SEC_FUSE_STATUS, 16, 16⟩
def Fd.SEC_FUSE_STATUS_SPOILED : Fd := ⟨Reg.SEC_FUSE_STATUS, 15, 12⟩
def Fd.SEC_FUSE_STATUS_REVOKED : Fd := ⟨Reg.SEC_FUSE_STATUS, 11, 8⟩
def Fd.SEC_FUSE_STATUS_PROGRAMMED : Fd := ⟨Reg.SEC_FUSE_STATUS, 7, 4⟩
def Fd.SEC_FUSE_CMD_RESULT : Fd := ⟨Reg.SEC_FUSE_CMD, 63, 56⟩
def Fd.SEC_FUSE_CMD_SLOT : Fd := ⟨Reg.SEC_FUSE_CMD, 3, 2⟩
def Fd.SEC_KEY_SEL_SLOT : Fd := ⟨Reg.SEC_KEY_SEL, 11, 0⟩
def Fd.SEC_KEY_CMD_RESULT : Fd := ⟨Reg.SEC_KEY_CMD, 63, 56⟩
def Fd.SEC_KEY_CMD_PART : Fd := ⟨Reg.SEC_KEY_CMD, 19, 16⟩
def Fd.SEC_PKEY_ADDR_ADDR : Fd := ⟨Reg.SEC_PKEY_ADDR, 39, 0⟩
def Fd.SEC_PART_RESULT (i : Nat) : Fd := ⟨(Reg.SEC_PART i), 63, 56⟩
def Fd.SEC_PART_KEY_GEN (i : Nat) : Fd := ⟨(Reg.SEC_PART i), 55, 32⟩
def Fd.SEC_PART_PSTATE (i : Nat) : Fd := ⟨(Reg.SEC_PART i), 1, 0⟩
def Fd.SEC_MOLT_LO_ENGINES : Fd := ⟨Reg.SEC_MOLT_LO, 63, 0⟩
def Fd.SEC_MOLT_HI_ENGINES : Fd := ⟨Reg.SEC_MOLT_HI, 15, 0⟩
def Fd.SEC_MOLT_MASK_MASK : Fd := ⟨Reg.SEC_MOLT_MASK, 15, 0⟩
def Fd.SEC_MOLT_DONE_LO_DONE : Fd := ⟨Reg.SEC_MOLT_DONE_LO, 63, 0⟩
def Fd.SEC_MOLT_DONE_HI_DONE : Fd := ⟨Reg.SEC_MOLT_DONE_HI, 15, 0⟩
def Fd.SEC_MEAS_SEL_SLOT : Fd := ⟨Reg.SEC_MEAS_SEL, 2, 0⟩
def Fd.SEC_MEAS_EXT_SLOT : Fd := ⟨Reg.SEC_MEAS_EXT, 58, 56⟩
def Fd.SEC_MEAS_EXT_ADDR : Fd := ⟨Reg.SEC_MEAS_EXT, 39, 0⟩
def Fd.SEC_SIGN_RESULT : Fd := ⟨Reg.SEC_SIGN, 63, 56⟩
def Fd.SEC_SIGN_BUSY : Fd := ⟨Reg.SEC_SIGN, 41, 41⟩
def Fd.SEC_SIGN_ADDR : Fd := ⟨Reg.SEC_SIGN, 39, 0⟩
def Fd.SEC_QUOTE_RESULT : Fd := ⟨Reg.SEC_QUOTE, 63, 56⟩
def Fd.SEC_QUOTE_BUSY : Fd := ⟨Reg.SEC_QUOTE, 41, 41⟩
def Fd.SEC_QUOTE_ADDR : Fd := ⟨Reg.SEC_QUOTE, 39, 0⟩
def Fd.SEC_CERT_LEN : Fd := ⟨Reg.SEC_CERT, 63, 48⟩
def Fd.SEC_CERT_ADDR : Fd := ⟨Reg.SEC_CERT, 39, 0⟩
def Fd.SEC_DBG_SESSIONS : Fd := ⟨Reg.SEC_DBG, 63, 32⟩
def Fd.SEC_QUOTES_COUNT : Fd := ⟨Reg.SEC_QUOTES, 63, 0⟩
def Fd.SEC_SIGNS_COUNT : Fd := ⟨Reg.SEC_SIGNS, 63, 0⟩
def Fd.SEC_MOLTS_COUNT : Fd := ⟨Reg.SEC_MOLTS, 63, 0⟩
def Fd.GLB_SERIAL_SERIAL : Fd := ⟨Reg.GLB_SERIAL, 63, 0⟩
def Fd.GLB_RST_CAUSE_CAUSE : Fd := ⟨Reg.GLB_RST_CAUSE, 5, 0⟩
def Fd.GLB_PWR_WARN : Fd := ⟨Reg.GLB_PWR, 8, 8⟩
def Fd.GLB_PWR_STATE : Fd := ⟨Reg.GLB_PWR, 1, 0⟩
def Fd.GLB_TEMP_ALARM_C : Fd := ⟨Reg.GLB_TEMP, 47, 40⟩
def Fd.GLB_TEMP_MAX_C : Fd := ⟨Reg.GLB_TEMP, 39, 32⟩
def Fd.GLB_TEMP_ALARM : Fd := ⟨Reg.GLB_TEMP, 0, 0⟩
def Fd.GLB_MEMCFG_MAP_GIB : Fd := ⟨Reg.GLB_MEMCFG, 47, 40⟩
def Fd.GLB_MEMCFG_CTL_GIB : Fd := ⟨Reg.GLB_MEMCFG, 7, 0⟩
def Fd.GLB_WDOG_PERIOD_MS : Fd := ⟨Reg.GLB_WDOG, 31, 16⟩
def Fd.GLB_WDOG_EXPIRED : Fd := ⟨Reg.GLB_WDOG, 1, 1⟩
def Fd.GLB_MTIME_TIME : Fd := ⟨Reg.GLB_MTIME, 63, 0⟩
def Fd.GLB_USEC_USEC : Fd := ⟨Reg.GLB_USEC, 63, 0⟩
def Fd.GLB_CORE_CTL_BOOT_ADDR (i : Nat) : Fd := ⟨(Reg.GLB_CORE_CTL i), 39, 2⟩
def Fd.GLB_CORE_CTL_RUN (i : Nat) : Fd := ⟨(Reg.GLB_CORE_CTL i), 0, 0⟩
def Fd.GLB_CORE_STATUS_STATE (i : Nat) : Fd := ⟨(Reg.GLB_CORE_STATUS i), 1, 0⟩
def Fd.GLB_MTIMECMP_CMP (i : Nat) : Fd := ⟨(Reg.GLB_MTIMECMP i), 63, 0⟩
def Fd.GLB_MSIP_MSIP (i : Nat) : Fd := ⟨(Reg.GLB_MSIP i), 0, 0⟩
def Fd.EVC_CTL_ENABLE : Fd := ⟨Reg.EVC_CTL, 0, 0⟩
def Fd.EVC_CLAIMS_COUNT : Fd := ⟨Reg.EVC_CLAIMS, 63, 0⟩
def Fd.EVC_EMPTY_CLAIMS_COUNT : Fd := ⟨Reg.EVC_EMPTY_CLAIMS, 63, 0⟩
def Fd.EVC_MB_DROPS_COUNT : Fd := ⟨Reg.EVC_MB_DROPS, 63, 0⟩
def Fd.EVC_THRESH_LEVEL (i : Nat) : Fd := ⟨(Reg.EVC_THRESH i), 3, 0⟩
def Fd.EVC_ACTIVE_LAST (i : Nat) : Fd := ⟨(Reg.EVC_ACTIVE i), 26, 16⟩
def Fd.EVC_ACTIVE_INSVC (i : Nat) : Fd := ⟨(Reg.EVC_ACTIVE i), 11, 0⟩
def Fd.EVC_PEND_BITS (i : Nat) : Fd := ⟨(Reg.EVC_PEND i), 63, 0⟩
def Fd.EVC_CQ_PEND_BITS (i : Nat) : Fd := ⟨(Reg.EVC_CQ_PEND i), 63, 0⟩
def Fd.EVC_MB_BASE_ADDR (i : Nat) : Fd := ⟨(Reg.EVC_MB_BASE i), 39, 0⟩
def Fd.EVC_MB_CFG_ENABLE (i : Nat) : Fd := ⟨(Reg.EVC_MB_CFG i), 63, 63⟩
def Fd.EVC_MB_CFG_LOG2SIZE (i : Nat) : Fd := ⟨(Reg.EVC_MB_CFG i), 60, 56⟩
def Fd.EVC_MB_IDX_PI (i : Nat) : Fd := ⟨(Reg.EVC_MB_IDX i), 63, 32⟩
def Fd.EVC_MB_IDX_CI (i : Nat) : Fd := ⟨(Reg.EVC_MB_IDX i), 31, 0⟩
def Fd.EVC_MB_ACK_ACK (i : Nat) : Fd := ⟨(Reg.EVC_MB_ACK i), 31, 0⟩
def Fd.EVC_SRC_LEVEL (i : Nat) : Fd := ⟨(Reg.EVC_SRC i), 63, 63⟩
def Fd.EVC_SRC_PENDING (i : Nat) : Fd := ⟨(Reg.EVC_SRC i), 62, 62⟩
def Fd.EVC_SRC_INSVC (i : Nat) : Fd := ⟨(Reg.EVC_SRC i), 61, 61⟩
def Fd.EVC_SRC_OWNER (i : Nat) : Fd := ⟨(Reg.EVC_SRC i), 55, 52⟩
def Fd.EVC_SRC_TARGET (i : Nat) : Fd := ⟨(Reg.EVC_SRC i), 31, 16⟩
def Fd.EVC_SRC_PRIO (i : Nat) : Fd := ⟨(Reg.EVC_SRC i), 3, 0⟩
def Fd.MGT_CTL_FEC : Fd := ⟨Reg.MGT_CTL, 2, 2⟩
def Fd.MGT_CTL_MCAST : Fd := ⟨Reg.MGT_CTL, 1, 1⟩
def Fd.MGT_CTL_ENABLE : Fd := ⟨Reg.MGT_CTL, 0, 0⟩
def Fd.MGT_STATUS_LINK_UP : Fd := ⟨Reg.MGT_STATUS, 0, 0⟩
def Fd.MGT_ERR_COMP_REJECT : Fd := ⟨Reg.MGT_ERR, 3, 3⟩
def Fd.MGT_ERR_LOG_FULL : Fd := ⟨Reg.MGT_ERR, 2, 2⟩
def Fd.MGT_ERR_RX_DROP : Fd := ⟨Reg.MGT_ERR, 1, 1⟩
def Fd.MGT_ERR_LINK_CHANGE : Fd := ⟨Reg.MGT_ERR, 0, 0⟩
def Fd.MGT_MAC_MAC : Fd := ⟨Reg.MGT_MAC, 47, 0⟩
def Fd.MGT_RX_RING_LOG2SIZE : Fd := ⟨Reg.MGT_RX_RING, 63, 60⟩
def Fd.MGT_RX_RING_ADDR : Fd := ⟨Reg.MGT_RX_RING, 39, 0⟩
def Fd.MGT_TX_RING_ADDR : Fd := ⟨Reg.MGT_TX_RING, 39, 0⟩
def Fd.MGT_RX_IDX_PI : Fd := ⟨Reg.MGT_RX_IDX, 63, 32⟩
def Fd.MGT_RX_IDX_CI : Fd := ⟨Reg.MGT_RX_IDX, 31, 0⟩
def Fd.MGT_TX_IDX_PI : Fd := ⟨Reg.MGT_TX_IDX, 63, 32⟩
def Fd.MGT_TX_IDX_CI : Fd := ⟨Reg.MGT_TX_IDX, 31, 0⟩
def Fd.MGT_RX_FRAMES_COUNT : Fd := ⟨Reg.MGT_RX_FRAMES, 63, 0⟩
def Fd.MGT_TX_FRAMES_COUNT : Fd := ⟨Reg.MGT_TX_FRAMES, 63, 0⟩
def Fd.MGT_RX_DROPS_COUNT : Fd := ⟨Reg.MGT_RX_DROPS, 63, 0⟩
def Fd.MGT_USAGE_CTL_ENABLE : Fd := ⟨Reg.MGT_USAGE_CTL, 16, 16⟩
def Fd.MGT_USAGE_CTL_PERIOD_S : Fd := ⟨Reg.MGT_USAGE_CTL, 15, 0⟩
def Fd.MGT_LOG_BASE_LOG2SIZE : Fd := ⟨Reg.MGT_LOG_BASE, 59, 56⟩
def Fd.MGT_LOG_BASE_ADDR : Fd := ⟨Reg.MGT_LOG_BASE, 39, 0⟩
def Fd.MGT_LOG_IDX_PI : Fd := ⟨Reg.MGT_LOG_IDX, 63, 32⟩
def Fd.MGT_LOG_IDX_CI : Fd := ⟨Reg.MGT_LOG_IDX, 31, 0⟩
def Fd.MGT_USAGE_SEL_PART : Fd := ⟨Reg.MGT_USAGE_SEL, 3, 0⟩
def Fd.MGT_PART_COMP_COMP_ID (i : Nat) : Fd := ⟨(Reg.MGT_PART_COMP i), 63, 32⟩
def Fd.MGT_PART_COMP_MAP_EPOCH (i : Nat) : Fd := ⟨(Reg.MGT_PART_COMP i), 31, 0⟩
def Fd.MGT_TEMP_HIST_DIE_SECONDS (i : Nat) : Fd := ⟨(Reg.MGT_TEMP_HIST_DIE i), 31, 0⟩
def Fd.MGT_TEMP_HIST_HBM_SECONDS (i : Nat) : Fd := ⟨(Reg.MGT_TEMP_HIST_HBM i), 31, 0⟩

/-- Registers of the CVU block. -/
def regsCvu : List RegDef := [
  ⟨0x40200000, [(16, 0x40)], [⟨3, 3, .rw, 1, .plain⟩, ⟨2, 2, .rw, 0, .plain⟩, ⟨1, 1, .rw, 0, .plain⟩, ⟨0, 0, .wo, 0, .plain⟩]⟩,
  ⟨0x40200008, [(16, 0x40)], [⟨39, 0, .rw, 0, .plain⟩]⟩,
  ⟨0x40200010, [(16, 0x40)], [⟨31, 0, .rw, 0, .plain⟩]⟩,
  ⟨0x40200018, [(16, 0x40)], [⟨63, 0, .rw, 0, .plain⟩]⟩,
  ⟨0x40200020, [(16, 0x40)], [⟨63, 0, .ro, 0, .plain⟩]⟩,
  ⟨0x40200028, [(16, 0x40)], [⟨3, 3, .w1c, 0, .plain⟩, ⟨2, 2, .w1c, 0, .plain⟩, ⟨1, 1, .w1c, 0, .plain⟩, ⟨0, 0, .ro, 0, .plain⟩]⟩]

/-- Registers of the PGT block. -/
def regsPgt : List RegDef := [
  ⟨0x42800000, [], [⟨7, 0, .rw, 4, .zeroAs 1⟩]⟩,
  ⟨0x42800008, [], [⟨31, 0, .ro, 0, .plain⟩]⟩,
  ⟨0x42800010, [], [⟨32, 32, .ro, 1, .plain⟩, ⟨31, 0, .ro, 0, .plain⟩]⟩,
  ⟨0x42800018, [], [⟨63, 0, .ro, 0, .plain⟩]⟩,
  ⟨0x42800020, [], [⟨63, 0, .ro, 0, .plain⟩]⟩,
  ⟨0x42800028, [], [⟨63, 0, .ro, 0, .plain⟩]⟩,
  ⟨0x42800030, [], [⟨31, 0, .rw, 10000, .plain⟩]⟩,
  ⟨0x42800038, [], [⟨63, 0, .rc, 0, .plain⟩]⟩,
  ⟨0x42800040, [], [⟨7, 0, .rw, 0, .plain⟩]⟩,
  ⟨0x42800048, [], [⟨51, 48, .rw, 0, .plain⟩, ⟨41, 32, .rw, 0, .plain⟩, ⟨26, 16, .rw, 0, .plain⟩, ⟨15, 15, .rw, 0, .plain⟩, ⟨14, 12, .rw, 0, .plain⟩, ⟨11, 8, .rw, 0, .plain⟩, ⟨7, 4, .rw, 0, .plain⟩, ⟨0, 0, .rw, 0, .plain⟩]⟩,
  ⟨0x42800050, [], [⟨16, 16, .rw, 0, .plain⟩, ⟨15, 8, .rw, 0, .plain⟩, ⟨5, 0, .rw, 0, .plain⟩]⟩,
  ⟨0x42800058, [], [⟨3, 3, .w1c, 0, .plain⟩, ⟨2, 2, .w1c, 0, .plain⟩, ⟨1, 1, .w1c, 0, .plain⟩, ⟨0, 0, .w1c, 0, .plain⟩]⟩,
  ⟨0x42800060, [], [⟨31, 0, .rw, 0, .plain⟩]⟩,
  ⟨0x42800068, [], [⟨63, 0, .ro, 0, .plain⟩]⟩,
  ⟨0x42800070, [], [⟨63, 0, .ro, 0, .plain⟩]⟩,
  ⟨0x42800078, [], [⟨63, 0, .ro, 0, .plain⟩]⟩,
  ⟨0x42800080, [], [⟨63, 0, .ro, 0, .plain⟩]⟩,
  ⟨0x42800100, [(16, 0x8)], [⟨24, 0, .rw, 0x1000000, .plain⟩]⟩]

/-- Registers of the PDIR block. -/
def regsPdir : List RegDef := [
  ⟨0x42c00000, [], [⟨8, 1, .rw, 50, .zeroAs 1⟩, ⟨0, 0, .rw, 0, .plain⟩]⟩,
  ⟨0x42c00008, [], [⟨39, 0, .rw, 0, .lowIgnored 21⟩]⟩,
  ⟨0x42c00010, [], [⟨15, 0, .rw, 100, .plain⟩]⟩,
  ⟨0x42c00018, [], [⟨18, 0, .ro, 0, .plain⟩]⟩,
  ⟨0x42c00020, [], [⟨6, 0, .ro, 0, .plain⟩]⟩,
  ⟨0x42c00028, [], [⟨63, 0, .rc, 0, .plain⟩]⟩,
  ⟨0x42c00030, [], [⟨63, 0, .rc, 0, .plain⟩]⟩,
  ⟨0x42c00038, [], [⟨63, 0, .rc, 0, .plain⟩]⟩,
  ⟨0x42c00040, [], [⟨63, 0, .rc, 0, .plain⟩]⟩,
  ⟨0x42c00048, [], [⟨63, 0, .rc, 0, .plain⟩]⟩,
  ⟨0x42c00050, [], [⟨63, 0, .rc, 0, .plain⟩]⟩,
  ⟨0x42c00058, [], [⟨2, 2, .w1c, 0, .plain⟩, ⟨1, 1, .w1c, 0, .plain⟩, ⟨0, 0, .w1c, 0, .plain⟩]⟩,
  ⟨0x42c00100, [(16, 0x8)], [⟨18, 0, .rw, 262144, .plain⟩]⟩,
  ⟨0x42c00180, [(16, 0x8)], [⟨18, 0, .ro, 0, .plain⟩]⟩,
  ⟨0x42c00800, [(256, 0x8)], [⟨63, 0, .rw, 0, .plain⟩]⟩]

/-- Registers of the AE block. -/
def regsAe : List RegDef := [
  ⟨0x41000000, [(80, 0x10000)], [⟨31, 16, .rw, 0xFFFF, .plain⟩, ⟨1, 1, .rw, 0, .plain⟩, ⟨0, 0, .rw, 1, .plain⟩]⟩,
  ⟨0x41000008, [(80, 0x10000)], [⟨5, 3, .ro, 0, .plain⟩, ⟨2, 2, .ro, 0, .plain⟩, ⟨1, 1, .ro, 0, .plain⟩, ⟨0, 0, .ro, 0, .plain⟩]⟩,
  ⟨0x41000010, [(80, 0x10000)], [⟨57, 32, .ro, 0, .plain⟩, ⟨20, 20, .ro, 0, .plain⟩, ⟨19, 16, .ro, 0, .plain⟩, ⟨15, 0, .ro, 0, .plain⟩]⟩,
  ⟨0x41000018, [(80, 0x10000)], [⟨2, 2, .w1c, 0, .plain⟩, ⟨1, 1, .w1c, 0, .plain⟩, ⟨0, 0, .w1c, 0, .plain⟩]⟩,
  ⟨0x41000020, [(80, 0x10000)], [⟨63, 0, .rc, 0, .plain⟩]⟩,
  ⟨0x41000028, [(80, 0x10000)], [⟨63, 0, .rc, 0, .plain⟩]⟩,
  ⟨0x41000030, [(80, 0x10000)], [⟨63, 0, .rc, 0, .plain⟩]⟩,
  ⟨0x41000038, [(80, 0x10000)], [⟨63, 0, .rc, 0, .plain⟩]⟩,
  ⟨0x41f00000, [], [⟨0, 0, .rw, 0, .plain⟩]⟩,
  ⟨0x41f00008, [], [⟨27, 0, .rw, 0, .lowIgnored 23⟩]⟩,
  ⟨0x41f00010, [], [⟨35, 8, .rw, 0x800000, .plain⟩, ⟨7, 0, .rw, 32, .clamp 4 64⟩]⟩,
  ⟨0x41f00018, [], [⟨39, 0, .rw, 0, .plain⟩]⟩,
  ⟨0x41f00020, [], [⟨15, 0, .rw, 64, .plain⟩]⟩,
  ⟨0x41f00028, [], [⟨15, 0, .rw, 100, .zeroAs 1⟩]⟩,
  ⟨0x41f00030, [], [⟨43, 32, .rw, 500, .plain⟩, ⟨16, 4, .rw, 32, .zeroAs 1⟩, ⟨3, 0, .rw, 15, .plain⟩]⟩,
  ⟨0x41f00038, [], [⟨16, 0, .ro, 0, .plain⟩]⟩,
  ⟨0x41f00040, [], [⟨63, 0, .rc, 0, .plain⟩]⟩,
  ⟨0x41f00048, [], [⟨63, 0, .rc, 0, .plain⟩]⟩,
  ⟨0x41f00050, [], [⟨63, 0, .rc, 0, .plain⟩]⟩,
  ⟨0x41f00058, [], [⟨63, 0, .rc, 0, .plain⟩]⟩,
  ⟨0x41f00060, [], [⟨63, 0, .rc, 0, .plain⟩]⟩,
  ⟨0x41f00068, [], [⟨63, 0, .rc, 0, .plain⟩]⟩,
  ⟨0x41f00100, [(16, 0x8)], [⟨48, 32, .ro, 0, .plain⟩, ⟨16, 0, .rw, 65536, .plain⟩]⟩,
  ⟨0x41f00070, [], [⟨16, 4, .rw, 16, .zeroAs 1⟩, ⟨0, 0, .rw, 1, .plain⟩]⟩,
  ⟨0x41f00078, [], [⟨63, 0, .rc, 0, .plain⟩]⟩,
  ⟨0x41f00080, [], [⟨63, 0, .rc, 0, .plain⟩]⟩,
  ⟨0x41f00088, [], [⟨63, 0, .rc, 0, .plain⟩]⟩,
  ⟨0x41f00090, [], [⟨63, 0, .rc, 0, .plain⟩]⟩,
  ⟨0x41f00098, [], [⟨63, 0, .rc, 0, .plain⟩]⟩]

/-- Registers of the MRG block. -/
def regsMrg : List RegDef := [
  ⟨0x42000000, [], [⟨27, 20, .rw, 0, .plain⟩, ⟨19, 16, .rw, 7, .zeroAs 1⟩, ⟨7, 2, .rw, 16, .zeroAs 1⟩]⟩,
  ⟨0x42000008, [], [⟨12, 0, .rw, 2048, .clamp 1 4096⟩]⟩,
  ⟨0x42000010, [], [⟨12, 0, .ro, 0, .plain⟩]⟩,
  ⟨0x42000018, [], [⟨2, 2, .w1c, 0, .plain⟩, ⟨1, 1, .w1c, 0, .plain⟩, ⟨0, 0, .w1c, 0, .plain⟩]⟩,
  ⟨0x42000020, [(4, 0x8)], [⟨63, 32, .ro, 0, .plain⟩, ⟨17, 17, .ro, 0, .plain⟩, ⟨16, 16, .ro, 0, .plain⟩, ⟨15, 0, .ro, 0, .plain⟩]⟩,
  ⟨0x42000040, [], [⟨63, 0, .rc, 0, .plain⟩]⟩,
  ⟨0x42000048, [], [⟨63, 0, .rc, 0, .plain⟩]⟩,
  ⟨0x42000050, [], [⟨63, 0, .rc, 0, .plain⟩]⟩,
  ⟨0x42000058, [], [⟨63, 0, .rc, 0, .plain⟩]⟩,
  ⟨0x42000060, [], [⟨63, 0, .rc, 0, .plain⟩]⟩,
  ⟨0x42000068, [], [⟨63, 0, .rc, 0, .plain⟩]⟩,
  ⟨0x42000070, [], [⟨63, 0, .rc, 0, .plain⟩]⟩,
  ⟨0x42000078, [], [⟨63, 0, .rc, 0, .plain⟩]⟩,
  ⟨0x42000080, [], [⟨63, 0, .rc, 0, .plain⟩]⟩]

/-- Registers of the WXP block. -/
def regsWxp : List RegDef := [
  ⟨0x44800000, [], [⟨0, 0, .rw, 0, .plain⟩]⟩,
  ⟨0x44800008, [], [⟨15, 8, .ro, 0, .plain⟩, ⟨7, 0, .ro, 0, .plain⟩]⟩,
  ⟨0x44800010, [], [⟨3, 3, .w1c, 0, .plain⟩, ⟨2, 2, .w1c, 0, .plain⟩, ⟨1, 1, .w1c, 0, .plain⟩, ⟨0, 0, .w1c, 0, .plain⟩]⟩,
  ⟨0x44800018, [], [⟨6, 3, .rw, 0, .plain⟩, ⟨2, 0, .rw, 0, .plain⟩]⟩,
  ⟨0x44800020, [], [⟨63, 62, .rw, 0, .plain⟩, ⟨61, 51, .rw, 0, .plain⟩, ⟨50, 42, .rw, 0, .plain⟩, ⟨41, 33, .rw, 0, .plain⟩, ⟨15, 8, .rw, 0, .plain⟩, ⟨7, 0, .rw, 0, .plain⟩]⟩,
  ⟨0x44800028, [], [⟨39, 0, .rw, 0, .plain⟩]⟩,
  ⟨0x44800030, [], [⟨39, 0, .rw, 0, .plain⟩]⟩,
  ⟨0x44800038, [], [⟨63, 32, .rw, 0, .plain⟩, ⟨1, 0, .wo, 0, .plain⟩]⟩,
  ⟨0x44800040, [], [⟨63, 32, .ro, 0, .plain⟩, ⟨31, 24, .ro, 0, .plain⟩, ⟨3, 1, .ro, 0, .plain⟩]⟩,
  ⟨0x44800048, [], [⟨39, 0, .rw, 0, .plain⟩]⟩,
  ⟨0x44800050, [], [⟨39, 0, .rw, 0, .plain⟩]⟩,
  ⟨0x44800058, [], [⟨63, 63, .wo, 0, .plain⟩, ⟨31, 0, .rw, 0, .plain⟩]⟩,
  ⟨0x44800060, [], [⟨1, 1, .w1c, 0, .plain⟩, ⟨0, 0, .ro, 0, .plain⟩]⟩,
  ⟨0x44800080, [], [⟨63, 0, .rc, 0, .plain⟩]⟩,
  ⟨0x44800088, [], [⟨63, 0, .rc, 0, .plain⟩]⟩,
  ⟨0x44800090, [], [⟨63, 0, .rc, 0, .plain⟩]⟩,
  ⟨0x44800098, [], [⟨63, 0, .rc, 0, .plain⟩]⟩]

/-- Registers of the TIER block. -/
def regsTier : List RegDef := [
  ⟨0x43000000, [], [⟨31, 16, .rw, 250, .zeroAs 1⟩, ⟨7, 4, .rw, 2, .plain⟩, ⟨2, 2, .rw, 0, .plain⟩, ⟨1, 1, .rw, 0, .plain⟩, ⟨0, 0, .rw, 0, .plain⟩]⟩,
  ⟨0x43000008, [], [⟨40, 40, .rw, 1, .plain⟩, ⟨39, 32, .rw, 3, .plain⟩, ⟨31, 24, .rw, 32, .plain⟩, ⟨23, 16, .rw, 64, .plain⟩, ⟨15, 8, .rw, 8, .plain⟩, ⟨7, 0, .rw, 1, .plain⟩]⟩,
  ⟨0x43000010, [], [⟨63, 32, .rw, 8192, .plain⟩, ⟨31, 0, .rw, 4096, .plain⟩]⟩,
  ⟨0x43000018, [], [⟨39, 32, .rw, 32, .clamp 4 64⟩, ⟨31, 16, .rw, 8192, .zeroAs 1⟩, ⟨15, 0, .rw, 1024, .zeroAs 1⟩]⟩,
  ⟨0x43000020, [], [⟨7, 0, .rw, 16, .plain⟩]⟩,
  ⟨0x43000028, [], [⟨6, 6, .w1c, 0, .plain⟩, ⟨5, 5, .w1c, 0, .plain⟩, ⟨4, 4, .w1c, 0, .plain⟩, ⟨3, 3, .w1c, 0, .plain⟩, ⟨2, 2, .w1c, 0, .plain⟩, ⟨1, 1, .w1c, 0, .plain⟩, ⟨0, 0, .w1c, 0, .plain⟩]⟩,
  ⟨0x43000030, [], [⟨51, 42, .ro, 0, .plain⟩, ⟨41, 32, .ro, 0, .plain⟩, ⟨31, 0, .ro, 0, .plain⟩]⟩,
  ⟨0x43000038, [], [⟨47, 32, .rw, 500, .zeroAs 1⟩, ⟨25, 16, .rw, 32, .plain⟩, ⟨9, 0, .rw, 0, .plain⟩]⟩,
  ⟨0x43000040, [], [⟨15, 8, .ro, 0, .plain⟩, ⟨2, 2, .ro, 0, .plain⟩, ⟨1, 0, .wo, 0, .plain⟩]⟩,
  ⟨0x43000048, [], [⟨63, 0, .rw, 0, .plain⟩]⟩,
  ⟨0x43000050, [], [⟨9, 9, .rw, 0, .plain⟩, ⟨8, 0, .rw, 0, .plain⟩]⟩,
  ⟨0x43000058, [], [⟨38, 28, .ro, 0, .plain⟩, ⟨26, 24, .ro, 0, .plain⟩, ⟨23, 20, .ro, 0, .plain⟩, ⟨19, 0, .ro, 0, .plain⟩]⟩,
  ⟨0x43000080, [], [⟨63, 0, .rc, 0, .plain⟩]⟩,
  ⟨0x43000088, [], [⟨63, 0, .rc, 0, .plain⟩]⟩,
  ⟨0x43000090, [], [⟨63, 0, .rc, 0, .plain⟩]⟩,
  ⟨0x43000098, [], [⟨63, 0, .rc, 0, .plain⟩]⟩,
  ⟨0x430000a0, [], [⟨63, 0, .rc, 0, .plain⟩]⟩,
  ⟨0x430000a8, [], [⟨63, 0, .rc, 0, .plain⟩]⟩,
  ⟨0x430000b0, [], [⟨63, 0, .rc, 0, .plain⟩]⟩,
  ⟨0x430000b8, [], [⟨63, 0, .rc, 0, .plain⟩]⟩,
  ⟨0x43000400, [(16, 0x40), (4, 0x8)], [⟨63, 32, .rw, 0xFFFFFFFF, .plain⟩, ⟨31, 0, .rw, 0xFFFFFFFF, .plain⟩]⟩,
  ⟨0x43000420, [(16, 0x40), (4, 0x8)], [⟨47, 0, .ro, 0, .plain⟩]⟩,
  ⟨0x43000800, [(16, 0x8)], [⟨47, 0, .ro, 0, .plain⟩]⟩,
  ⟨0x43000900, [(16, 0x8)], [⟨61, 61, .rw, 0, .plain⟩, ⟨60, 60, .rw, 0, .plain⟩, ⟨47, 32, .rw, 0, .plain⟩, ⟨19, 0, .rw, 0, .plain⟩]⟩]

/-- Registers of the HBM block. -/
def regsHbm : List RegDef := [
  ⟨0x44000000, [(8, 0x100000)], [⟨47, 32, .rw, 2000, .plain⟩, ⟨31, 24, .rw, 25, .clamp 0 50⟩, ⟨23, 8, .rw, 100, .zeroAs 1⟩, ⟨1, 1, .rw, 0, .plain⟩, ⟨0, 0, .rw, 0, .plain⟩]⟩,
  ⟨0x44000008, [(8, 0x100000)], [⟨47, 40, .ro, 0, .plain⟩, ⟨1, 1, .ro, 0, .plain⟩, ⟨0, 0, .ro, 0, .plain⟩]⟩,
  ⟨0x44000010, [(8, 0x100000)], [⟨2, 2, .w1c, 0, .plain⟩, ⟨1, 1, .w1c, 0, .plain⟩, ⟨0, 0, .w1c, 0, .plain⟩]⟩,
  ⟨0x44000018, [(8, 0x100000)], [⟨31, 0, .rw, 3600, .plain⟩]⟩,
  ⟨0x44000020, [(8, 0x100000)], [⟨31, 0, .ro, 0, .plain⟩]⟩,
  ⟨0x44000100, [(8, 0x100000), (32, 0x20)], [⟨20, 16, .ro, 0, .plain⟩, ⟨3, 3, .ro, 0, .plain⟩, ⟨2, 2, .ro, 0, .plain⟩, ⟨1, 1, .ro, 0, .plain⟩, ⟨0, 0, .ro, 0, .plain⟩]⟩,
  ⟨0x44000108, [(8, 0x100000), (32, 0x20)], [⟨63, 0, .rc, 0, .plain⟩]⟩,
  ⟨0x44000110, [(8, 0x100000), (32, 0x20)], [⟨63, 0, .rc, 0, .plain⟩]⟩,
  ⟨0x44000118, [(8, 0x100000), (32, 0x20)], [⟨63, 63, .rc, 0, .plain⟩, ⟨62, 62, .ro, 0, .plain⟩, ⟨38, 31, .ro, 0, .plain⟩, ⟨30, 0, .ro, 0, .plain⟩]⟩]

/-- Registers of the GK block. -/
def regsGk : List RegDef := [
  ⟨0x44080000, [(8, 0x100000), (32, 0x1000)], [⟨31, 16, .rw, 1000, .plain⟩, ⟨2, 2, .rw, 0, .plain⟩, ⟨1, 1, .wo, 0, .plain⟩, ⟨0, 0, .rw, 0, .plain⟩]⟩,
  ⟨0x44080008, [(8, 0x100000), (32, 0x1000)], [⟨42, 32, .ro, 0, .plain⟩, ⟨15, 8, .ro, 0, .plain⟩, ⟨2, 0, .ro, 0, .plain⟩]⟩,
  ⟨0x44080010, [(8, 0x100000), (32, 0x1000)], [⟨7, 0, .wo, 0, .plain⟩]⟩,
  ⟨0x44080018, [(8, 0x100000), (32, 0x1000)], [⟨7, 0, .w1c, 0, .plain⟩]⟩,
  ⟨0x44080020, [(8, 0x100000), (32, 0x1000)], [⟨23, 16, .ro, 0, .plain⟩, ⟨6, 6, .w1c, 0, .plain⟩, ⟨5, 5, .w1c, 0, .plain⟩, ⟨4, 4, .w1c, 0, .plain⟩, ⟨3, 3, .w1c, 0, .plain⟩, ⟨2, 2, .w1c, 0, .plain⟩, ⟨1, 1, .w1c, 0, .plain⟩, ⟨0, 0, .w1c, 0, .plain⟩]⟩,
  ⟨0x44080028, [(8, 0x100000), (32, 0x1000)], [⟨10, 0, .rw, 0, .plain⟩]⟩,
  ⟨0x44080030, [(8, 0x100000), (32, 0x1000)], [⟨31, 0, .rw, 0, .plain⟩]⟩,
  ⟨0x44080038, [(8, 0x100000), (32, 0x1000)], [⟨13, 2, .rw, 0, .plain⟩]⟩,
  ⟨0x44080040, [(8, 0x100000), (32, 0x1000)], [⟨31, 0, .rw, 0, .plain⟩]⟩,
  ⟨0x44080048, [(8, 0x100000), (32, 0x1000)], [⟨4, 0, .rw, 0, .plain⟩]⟩,
  ⟨0x44080050, [(8, 0x100000), (32, 0x1000)], [⟨63, 0, .ro, 0, .plain⟩]⟩,
  ⟨0x44080058, [(8, 0x100000), (32, 0x1000)], [⟨63, 0, .rc, 0, .plain⟩]⟩,
  ⟨0x44080060, [(8, 0x100000), (32, 0x1000)], [⟨63, 0, .rc, 0, .plain⟩]⟩,
  ⟨0x44080100, [(8, 0x100000), (32, 0x1000), (8, 0x20)], [⟨63, 0, .rw, 0, .plain⟩]⟩,
  ⟨0x44080108, [(8, 0x100000), (32, 0x1000), (8, 0x20)], [⟨63, 0, .rw, 0, .plain⟩]⟩,
  ⟨0x44080110, [(8, 0x100000), (32, 0x1000), (8, 0x20)], [⟨63, 0, .rw, 0, .plain⟩]⟩,
  ⟨0x44080118, [(8, 0x100000), (32, 0x1000), (8, 0x20)], [⟨63, 0, .rw, 0, .plain⟩]⟩]

/-- Registers of the FLT block. -/
def regsFlt : List RegDef := [
  ⟨0x45000000, [], [⟨23, 16, .rw, 12, .clamp 7 50⟩, ⟨15, 8, .rw, 0, .plain⟩, ⟨5, 5, .wo, 0, .plain⟩, ⟨4, 4, .rw, 1, .plain⟩, ⟨3, 3, .rw, 1, .plain⟩, ⟨1, 1, .wo, 0, .plain⟩, ⟨0, 0, .rw, 0, .plain⟩]⟩,
  ⟨0x45000008, [], [⟨47, 32, .ro, 0, .plain⟩, ⟨31, 16, .ro, 0, .plain⟩, ⟨2, 0, .ro, 0, .plain⟩]⟩,
  ⟨0x45000010, [], [⟨6, 6, .w1c, 0, .plain⟩, ⟨5, 5, .w1c, 0, .plain⟩, ⟨4, 4, .w1c, 0, .plain⟩, ⟨3, 3, .w1c, 0, .plain⟩, ⟨2, 2, .w1c, 0, .plain⟩, ⟨1, 1, .w1c, 0, .plain⟩, ⟨0, 0, .w1c, 0, .plain⟩]⟩,
  ⟨0x45000018, [], [⟨49, 48, .ro, 0, .plain⟩, ⟨47, 32, .ro, 0, .plain⟩, ⟨28, 16, .ro, 0, .plain⟩, ⟨15, 5, .ro, 0, .plain⟩, ⟨4, 3, .ro, 0, .plain⟩, ⟨2, 0, .ro, 0, .plain⟩]⟩,
  ⟨0x45000020, [], [⟨31, 0, .ro, 0, .plain⟩]⟩,
  ⟨0x45000028, [], [⟨39, 0, .rw, 0, .plain⟩]⟩,
  ⟨0x45000030, [], [⟨39, 0, .rw, 0, .plain⟩]⟩,
  ⟨0x45000038, [], [⟨47, 40, .rw, 16, .clamp 4 64⟩, ⟨39, 0, .rw, 0, .plain⟩]⟩,
  ⟨0x45000040, [], [⟨63, 32, .rw, 512, .plain⟩, ⟨31, 0, .rw, 32, .plain⟩]⟩,
  ⟨0x45000048, [], [⟨47, 32, .rw, 16, .plain⟩, ⟨31, 16, .rw, 64, .plain⟩, ⟨15, 8, .rw, 8, .plain⟩]⟩,
  ⟨0x45000050, [], [⟨47, 32, .rw, 1024, .clamp 64 4096⟩, ⟨31, 16, .rw, 50, .zeroAs 1⟩]⟩,
  ⟨0x45000058, [], [⟨63, 32, .rw, 30000, .zeroAs 1⟩, ⟨31, 0, .rw, 1000, .zeroAs 1⟩]⟩,
  ⟨0x45000060, [], [⟨63, 56, .ro, 0, .plain⟩, ⟨55, 48, .ro, 0, .plain⟩, ⟨47, 40, .ro, 0, .plain⟩, ⟨39, 32, .ro, 0, .plain⟩, ⟨9, 0, .ro, 0, .plain⟩]⟩,
  ⟨0x45000068, [], [⟨31, 0, .rw, 0, .plain⟩]⟩,
  ⟨0x45000070, [], [⟨39, 0, .rw, 0, .plain⟩]⟩,
  ⟨0x45000078, [], [⟨63, 56, .ro, 0, .plain⟩, ⟨3, 3, .ro, 0, .plain⟩, ⟨2, 0, .wo, 0, .plain⟩]⟩,
  ⟨0x45000100, [(4, 0x8)], [⟨63, 32, .rw, 0, .plain⟩, ⟨31, 0, .rw, 0, .plain⟩]⟩,
  ⟨0x45000200, [], [⟨63, 0, .rc, 0, .plain⟩]⟩,
  ⟨0x45000208, [], [⟨63, 0, .rc, 0, .plain⟩]⟩,
  ⟨0x45000210, [], [⟨63, 0, .rc, 0, .plain⟩]⟩,
  ⟨0x45000218, [], [⟨63, 0, .rc, 0, .plain⟩]⟩,
  ⟨0x45000220, [], [⟨63, 0, .rc, 0, .plain⟩]⟩,
  ⟨0x45000228, [], [⟨63, 0, .rc, 0, .plain⟩]⟩,
  ⟨0x45000280, [(8, 0x8)], [⟨63, 0, .rc, 0, .plain⟩]⟩,
  ⟨0x45000400, [(16, 0x8)], [⟨41, 41, .ro, 0, .plain⟩, ⟨40, 40, .ro, 0, .plain⟩, ⟨39, 32, .ro, 0, .plain⟩, ⟨31, 0, .ro, 0, .plain⟩]⟩,
  ⟨0x45000800, [(64, 0x8)], [⟨31, 0, .ro, 0, .plain⟩]⟩]

/-- Registers of the TRL block. -/
def regsTrl : List RegDef := [
  ⟨0x46000000, [], [⟨23, 16, .rw, 4, .zeroAs 1⟩, ⟨3, 2, .rw, 0, .plain⟩, ⟨1, 1, .ro, 0, .plain⟩, ⟨0, 0, .rw, 0, .plain⟩]⟩,
  ⟨0x46000008, [], [⟨19, 0, .rw, 0, .plain⟩]⟩,
  ⟨0x46000010, [], [⟨32, 32, .rw, 0, .plain⟩, ⟨31, 0, .rw, 0, .plain⟩]⟩,
  ⟨0x46000018, [], [⟨63, 0, .rw, 0, .plain⟩]⟩,
  ⟨0x46000020, [], [⟨63, 0, .rw, 0, .plain⟩]⟩,
  ⟨0x46000028, [], [⟨23, 16, .rw, 64, .zeroAs 1⟩, ⟨15, 0, .rw, 0xB86B, .plain⟩]⟩,
  ⟨0x46000030, [], [⟨63, 48, .rw, 8000, .plain⟩, ⟨47, 36, .rw, 1000, .zeroAs 1⟩, ⟨35, 32, .rw, 10, .zeroAs 1⟩, ⟨31, 16, .rw, 2000, .plain⟩, ⟨15, 0, .rw, 4000, .plain⟩]⟩,
  ⟨0x46000038, [], [⟨23, 8, .rw, 1000, .zeroAs 1⟩, ⟨7, 0, .rw, 4, .zeroAs 1⟩]⟩,
  ⟨0x46000040, [], [⟨63, 48, .rw, 1, .zeroAs 1⟩, ⟨47, 32, .rw, 16, .zeroAs 1⟩, ⟨31, 16, .rw, 8, .plain⟩, ⟨15, 8, .rw, 3, .clamp 0 7⟩, ⟨7, 0, .rw, 2, .clamp 1 7⟩]⟩,
  ⟨0x46000048, [], [⟨63, 56, .rw, 1, .clamp 1 8⟩, ⟨55, 40, .rw, 16384, .clamp 1024 65535⟩, ⟨39, 0, .rw, 0, .plain⟩]⟩,
  ⟨0x46000050, [], [⟨63, 48, .rw, 256, .clamp 16 4096⟩, ⟨39, 0, .rw, 0, .plain⟩]⟩,
  ⟨0x46000058, [], [⟨15, 0, .rw, 100, .plain⟩]⟩,
  ⟨0x46000060, [], [⟨3, 3, .w1c, 0, .plain⟩, ⟨2, 2, .w1c, 0, .plain⟩, ⟨1, 1, .w1c, 0, .plain⟩, ⟨0, 0, .w1c, 0, .plain⟩]⟩,
  ⟨0x46000068, [], [⟨63, 48, .rw, 0, .plain⟩, ⟨47, 0, .rw, 0, .plain⟩]⟩,
  ⟨0x46000070, [], [⟨15, 0, .rw, 0, .plain⟩]⟩,
  ⟨0x46000078, [], [⟨15, 8, .ro, 0, .plain⟩, ⟨1, 0, .wo, 0, .plain⟩]⟩,
  ⟨0x46000080, [], [⟨63, 0, .rw, 0, .plain⟩]⟩,
  ⟨0x46000088, [], [⟨63, 0, .rw, 0, .plain⟩]⟩,
  ⟨0x46000090, [], [⟨63, 0, .rw, 0, .plain⟩]⟩,
  ⟨0x46000098, [], [⟨63, 0, .rw, 0, .plain⟩]⟩,
  ⟨0x460000a0, [], [⟨63, 0, .rw, 0, .plain⟩]⟩,
  ⟨0x460000a8, [], [⟨63, 0, .rw, 0, .plain⟩]⟩,
  ⟨0x460000b0, [], [⟨63, 0, .rw, 0, .plain⟩]⟩,
  ⟨0x460000b8, [], [⟨63, 0, .rw, 0, .plain⟩]⟩,
  ⟨0x46000100, [], [⟨63, 0, .rc, 0, .plain⟩]⟩,
  ⟨0x46000108, [], [⟨63, 0, .rc, 0, .plain⟩]⟩,
  ⟨0x46000110, [], [⟨63, 0, .rc, 0, .plain⟩]⟩,
  ⟨0x46000118, [], [⟨63, 0, .rc, 0, .plain⟩]⟩,
  ⟨0x46000120, [], [⟨63, 0, .rc, 0, .plain⟩]⟩,
  ⟨0x46000128, [], [⟨63, 0, .rc, 0, .plain⟩]⟩,
  ⟨0x46000130, [], [⟨63, 0, .rc, 0, .plain⟩]⟩,
  ⟨0x46000180, [(8, 0x8)], [⟨63, 0, .rc, 0, .plain⟩]⟩,
  ⟨0x46001000, [(64, 0x20)], [⟨63, 48, .rw, 0, .plain⟩, ⟨47, 16, .rw, 0, .plain⟩, ⟨15, 4, .rw, 0, .plain⟩, ⟨3, 3, .rw, 0, .plain⟩, ⟨2, 1, .rw, 0, .plain⟩, ⟨0, 0, .rw, 0, .plain⟩]⟩,
  ⟨0x46001008, [(64, 0x20)], [⟨11, 4, .ro, 0, .plain⟩, ⟨3, 3, .ro, 0, .plain⟩, ⟨2, 2, .ro, 0, .plain⟩, ⟨0, 0, .ro, 0, .plain⟩]⟩,
  ⟨0x46001010, [(64, 0x20)], [⟨48, 48, .rw, 0, .plain⟩, ⟨47, 0, .rw, 0, .plain⟩]⟩,
  ⟨0x46001018, [(64, 0x20)], [⟨63, 32, .rc, 0, .plain⟩, ⟨31, 0, .rc, 0, .plain⟩]⟩]

/-- Registers of the RMO block. -/
def regsRmo : List RegDef := [
  ⟨0x46800000, [], [⟨31, 16, .rw, 1, .zeroAs 1⟩, ⟨0, 0, .rw, 0, .plain⟩]⟩,
  ⟨0x46800008, [], [⟨60, 40, .rw, 65536, .clamp 1 1048576⟩, ⟨39, 0, .rw, 0, .plain⟩]⟩,
  ⟨0x46800010, [], [⟨60, 40, .rw, 262144, .clamp 1024 1048576⟩, ⟨39, 0, .rw, 0, .plain⟩]⟩,
  ⟨0x46800018, [], [⟨4, 4, .w1c, 0, .plain⟩, ⟨3, 3, .w1c, 0, .plain⟩, ⟨2, 2, .w1c, 0, .plain⟩, ⟨1, 1, .w1c, 0, .plain⟩, ⟨0, 0, .w1c, 0, .plain⟩]⟩,
  ⟨0x46800020, [], [⟨19, 0, .rw, 0, .plain⟩]⟩,
  ⟨0x46800028, [], [⟨63, 32, .ro, 0, .plain⟩, ⟨31, 24, .ro, 0, .plain⟩, ⟨1, 0, .wo, 0, .plain⟩]⟩,
  ⟨0x46800030, [], [⟨63, 0, .rw, 0, .plain⟩]⟩,
  ⟨0x46800038, [], [⟨63, 0, .rw, 0, .plain⟩]⟩,
  ⟨0x46800040, [], [⟨63, 0, .rw, 0, .plain⟩]⟩,
  ⟨0x46800048, [], [⟨63, 0, .rw, 0, .plain⟩]⟩,
  ⟨0x46800050, [], [⟨11, 0, .rw, 0, .plain⟩]⟩,
  ⟨0x46800058, [], [⟨63, 63, .rw, 0, .plain⟩, ⟨62, 61, .rw, 0, .plain⟩, ⟨59, 55, .rw, 6, .clamp 6 16⟩, ⟨54, 51, .rw, 0, .plain⟩, ⟨39, 0, .rw, 0, .plain⟩]⟩,
  ⟨0x46800060, [], [⟨63, 32, .rw, 0, .plain⟩, ⟨31, 16, .rw, 1, .zeroAs 1⟩, ⟨15, 0, .rw, 1000, .plain⟩]⟩,
  ⟨0x46800068, [], [⟨63, 32, .ro, 0, .plain⟩, ⟨31, 0, .rw, 0, .plain⟩]⟩,
  ⟨0x46800070, [], [⟨15, 0, .rw, 0, .plain⟩]⟩,
  ⟨0x46800078, [], [⟨31, 0, .rw, 0, .plain⟩]⟩,
  ⟨0x46800080, [], [⟨63, 63, .rw, 0, .plain⟩, ⟨59, 56, .rw, 0, .plain⟩, ⟨31, 16, .ro, 0, .plain⟩, ⟨15, 0, .rw, 256, .zeroAs 1⟩]⟩,
  ⟨0x46800100, [], [⟨63, 0, .rc, 0, .plain⟩]⟩,
  ⟨0x46800108, [], [⟨63, 0, .rc, 0, .plain⟩]⟩,
  ⟨0x46800110, [], [⟨63, 0, .rc, 0, .plain⟩]⟩,
  ⟨0x46800118, [], [⟨63, 0, .rc, 0, .plain⟩]⟩,
  ⟨0x46800120, [], [⟨63, 0, .rc, 0, .plain⟩]⟩,
  ⟨0x46800128, [], [⟨63, 0, .rc, 0, .plain⟩]⟩,
  ⟨0x46800130, [], [⟨63, 0, .rc, 0, .plain⟩]⟩,
  ⟨0x46800138, [], [⟨63, 0, .rc, 0, .plain⟩]⟩,
  ⟨0x46800140, [], [⟨63, 0, .rc, 0, .plain⟩]⟩,
  ⟨0x46800180, [(16, 0x8)], [⟨52, 32, .ro, 0, .plain⟩, ⟨20, 0, .rw, 1048576, .plain⟩]⟩]

/-- Registers of the SCH block. -/
def regsSch : List RegDef := [
  ⟨0x47000000, [], [⟨1, 1, .rw, 0, .plain⟩, ⟨0, 0, .rw, 0, .plain⟩]⟩,
  ⟨0x47000008, [], [⟨1, 1, .w1c, 0, .plain⟩, ⟨0, 0, .w1c, 0, .plain⟩]⟩,
  ⟨0x47000010, [], [⟨15, 0, .ro, 0, .plain⟩]⟩,
  ⟨0x47000040, [], [⟨63, 0, .rc, 0, .plain⟩]⟩,
  ⟨0x47000048, [], [⟨63, 0, .rc, 0, .plain⟩]⟩,
  ⟨0x47000050, [], [⟨63, 0, .rc, 0, .plain⟩]⟩,
  ⟨0x47000058, [], [⟨63, 0, .rc, 0, .plain⟩]⟩,
  ⟨0x47000100, [(8, 0x8)], [⟨63, 63, .rw, 0, .plain⟩, ⟨55, 48, .rw, 0, .zeroAs 1⟩, ⟨47, 38, .rw, 0, .clamp 0 1000⟩, ⟨37, 28, .rw, 0, .clamp 0 1000⟩, ⟨27, 14, .rw, 0, .plain⟩, ⟨13, 0, .rw, 0, .plain⟩]⟩,
  ⟨0x47000200, [(16, 0x8)], [⟨25, 16, .rw, 0, .plain⟩, ⟨8, 8, .rw, 0, .plain⟩, ⟨6, 0, .rw, 20, .plain⟩]⟩,
  ⟨0x47000300, [], [⟨11, 0, .rw, 0, .plain⟩]⟩,
  ⟨0x47000308, [], [⟨55, 32, .rw, 0, .plain⟩, ⟨15, 0, .rw, 256, .plain⟩]⟩,
  ⟨0x47000310, [], [⟨55, 32, .rw, 0xFFFFFF, .plain⟩, ⟨15, 0, .rw, 256, .plain⟩]⟩,
  ⟨0x47000318, [], [⟨33, 32, .ro, 0, .plain⟩, ⟨7, 0, .rw, 1, .zeroAs 1⟩]⟩,
  ⟨0x47000400, [], [⟨12, 0, .rw, 0, .plain⟩]⟩,
  ⟨0x47000408, [], [⟨7, 6, .rw, 2, .threeAsTwo⟩, ⟨5, 4, .rw, 1, .threeAsTwo⟩, ⟨2, 2, .rw, 0, .plain⟩, ⟨1, 1, .rw, 0, .plain⟩, ⟨0, 0, .rw, 0, .plain⟩]⟩,
  ⟨0x47000410, [], [⟨55, 32, .rw, 0xFFFFFF, .plain⟩, ⟨15, 0, .rw, 256, .zeroAs 1⟩]⟩,
  ⟨0x47000418, [], [⟨55, 32, .rw, 0xFFFFFF, .plain⟩, ⟨15, 0, .rw, 256, .zeroAs 1⟩]⟩,
  ⟨0x47000420, [], [⟨63, 0, .rc, 0, .plain⟩]⟩,
  ⟨0x47000428, [], [⟨63, 0, .rc, 0, .plain⟩]⟩,
  ⟨0x47000430, [], [⟨63, 0, .rc, 0, .plain⟩]⟩,
  ⟨0x47000440, [], [⟨11, 0, .rw, 0, .plain⟩]⟩,
  ⟨0x47000448, [], [⟨63, 63, .rw, 0, .plain⟩, ⟨60, 48, .rw, 0, .plain⟩, ⟨47, 47, .rw, 0, .plain⟩, ⟨45, 40, .rw, 0, .plain⟩]⟩,
  ⟨0x47000450, [], [⟨63, 0, .rw, 0, .pairsThreeAsTwo⟩]⟩,
  ⟨0x47000458, [], [⟨63, 0, .rw, 0, .pairsThreeAsTwo⟩]⟩]

/-- Registers of the TWN block. -/
def regsTwn : List RegDef := [
  ⟨0x47800000, [], [⟨63, 48, .rw, 0, .plain⟩, ⟨47, 32, .rw, 0, .plain⟩, ⟨3, 2, .rw, 1, .plain⟩, ⟨0, 0, .rw, 0, .plain⟩]⟩,
  ⟨0x47800008, [], [⟨63, 48, .ro, 0, .plain⟩, ⟨4, 4, .ro, 0, .plain⟩, ⟨3, 3, .ro, 0, .plain⟩, ⟨2, 0, .ro, 0, .plain⟩]⟩,
  ⟨0x47800010, [], [⟨31, 0, .ro, 0, .plain⟩]⟩,
  ⟨0x47800018, [], [⟨31, 16, .rw, 2000, .clamp 500 10000⟩, ⟨15, 8, .rw, 4, .clamp 2 16⟩, ⟨7, 0, .rw, 3, .plain⟩]⟩,
  ⟨0x47800020, [], [⟨63, 63, .rw, 0, .plain⟩, ⟨51, 36, .rw, 0, .plain⟩, ⟨35, 28, .rw, 4, .zeroAs 1⟩, ⟨19, 0, .rw, 0, .plain⟩]⟩,
  ⟨0x47800028, [], [⟨63, 63, .rw, 0, .plain⟩, ⟨51, 36, .rw, 0, .plain⟩, ⟨19, 0, .rw, 0, .plain⟩]⟩,
  ⟨0x47800030, [], [⟨9, 0, .rw, 0, .plain⟩]⟩,
  ⟨0x47800038, [], [⟨39, 0, .rw, 0, .plain⟩]⟩,
  ⟨0x47800040, [], [⟨63, 56, .ro, 0, .plain⟩, ⟨47, 16, .rw, 0, .plain⟩, ⟨8, 8, .ro, 0, .plain⟩, ⟨2, 0, .wo, 0, .plain⟩]⟩,
  ⟨0x47800048, [], [⟨8, 8, .w1c, 0, .plain⟩, ⟨7, 7, .w1c, 0, .plain⟩, ⟨6, 6, .w1c, 0, .plain⟩, ⟨5, 5, .w1c, 0, .plain⟩, ⟨4, 4, .w1c, 0, .plain⟩, ⟨3, 3, .w1c, 0, .plain⟩, ⟨2, 2, .w1c, 0, .plain⟩, ⟨1, 1, .w1c, 0, .plain⟩, ⟨0, 0, .w1c, 0, .plain⟩]⟩,
  ⟨0x47800050, [], [⟨7, 0, .rw, 8, .zeroAs 1⟩]⟩,
  ⟨0x47800058, [], [⟨63, 0, .ro, 0, .plain⟩]⟩,
  ⟨0x47800060, [], [⟨59, 40, .ro, 0, .plain⟩, ⟨39, 20, .ro, 0, .plain⟩, ⟨19, 0, .ro, 0, .plain⟩]⟩,
  ⟨0x47800068, [], [⟨15, 8, .rw, 20, .clamp 8 31⟩, ⟨7, 4, .rw, 12, .clamp 6 15⟩, ⟨0, 0, .rw, 1, .plain⟩]⟩,
  ⟨0x47800070, [], [⟨9, 0, .ro, 1000, .plain⟩]⟩,
  ⟨0x47800078, [], [⟨63, 52, .rw, 0, .plain⟩, ⟨39, 0, .rw, 0, .plain⟩]⟩,
  ⟨0x47800080, [], [⟨63, 56, .rw, 1, .plain⟩, ⟨55, 40, .rw, 60, .zeroAs 1⟩, ⟨39, 0, .rw, 0, .plain⟩]⟩,
  ⟨0x47800088, [], [⟨18, 16, .rw, 0, .plain⟩, ⟨15, 8, .rw, 0, .plain⟩, ⟨2, 0, .rw, 0, .plain⟩]⟩,
  ⟨0x47800090, [], [⟨31, 0, .ro, 0, .plain⟩]⟩,
  ⟨0x47800098, [], [⟨13, 8, .ro, 0, .plain⟩, ⟨5, 0, .rw, 0, .plain⟩]⟩,
  ⟨0x478000a0, [], [⟨63, 0, .ro, 0, .plain⟩]⟩,
  ⟨0x478000a8, [], [⟨63, 0, .ro, 0, .plain⟩]⟩,
  ⟨0x478000b0, [], [⟨63, 0, .ro, 0, .plain⟩]⟩,
  ⟨0x478000b8, [], [⟨63, 0, .ro, 0, .plain⟩]⟩,
  ⟨0x47800100, [], [⟨63, 0, .rc, 0, .plain⟩]⟩,
  ⟨0x47800108, [], [⟨63, 0, .rc, 0, .plain⟩]⟩,
  ⟨0x47800110, [], [⟨63, 0, .rc, 0, .plain⟩]⟩,
  ⟨0x47800118, [], [⟨63, 0, .rc, 0, .plain⟩]⟩,
  ⟨0x47800120, [], [⟨63, 0, .rc, 0, .plain⟩]⟩,
  ⟨0x47800128, [], [⟨63, 0, .rc, 0, .plain⟩]⟩,
  ⟨0x47800200, [(2, 0x8)], [⟨63, 32, .rw, 0, .zeroAs 1⟩, ⟨31, 16, .rw, 0, .plain⟩, ⟨2, 0, .rw, 0, .oneOf [0, 1, 2]⟩]⟩,
  ⟨0x47800210, [(3, 0x8)], [⟨63, 32, .rw, 0, .zeroAs 1⟩, ⟨31, 16, .rw, 0, .plain⟩, ⟨2, 0, .rw, 0, .oneOf [0, 3]⟩]⟩,
  ⟨0x47800228, [(1, 0x8)], [⟨63, 32, .rw, 0, .zeroAs 1⟩, ⟨31, 16, .rw, 0, .plain⟩, ⟨2, 0, .rw, 0, .oneOf [0, 1, 2]⟩]⟩,
  ⟨0x47800230, [(1, 0x8)], [⟨63, 32, .rw, 0, .zeroAs 1⟩, ⟨31, 16, .rw, 0, .plain⟩, ⟨2, 0, .rw, 0, .oneOf [0]⟩]⟩,
  ⟨0x47800238, [(1, 0x8)], [⟨63, 32, .rw, 0, .zeroAs 1⟩, ⟨31, 16, .rw, 0, .plain⟩, ⟨2, 0, .rw, 0, .oneOf [0, 3]⟩]⟩]

/-- Registers of the SEC block. -/
def regsSec : List RegDef := [
  ⟨0x47c00000, [], [⟨0, 0, .rw, 0, .plain⟩]⟩,
  ⟨0x47c00008, [], [⟨7, 7, .ro, 0, .plain⟩, ⟨6, 6, .ro, 0, .plain⟩, ⟨5, 4, .ro, 0, .plain⟩]⟩,
  ⟨0x47c00010, [], [⟨3, 3, .w1c, 0, .plain⟩, ⟨2, 2, .w1c, 0, .plain⟩, ⟨1, 1, .w1c, 0, .plain⟩, ⟨0, 0, .w1c, 0, .plain⟩]⟩,
  ⟨0x47c00018, [], [⟨58, 52, .ro, 0, .plain⟩, ⟨16, 16, .ro, 0, .plain⟩, ⟨15, 12, .ro, 0, .plain⟩, ⟨11, 8, .ro, 0, .plain⟩, ⟨7, 4, .ro, 0, .plain⟩]⟩,
  ⟨0x47c00020, [], [⟨63, 56, .ro, 0, .plain⟩, ⟨3, 2, .rw, 0, .plain⟩, ⟨1, 0, .wo, 0, .plain⟩]⟩,
  ⟨0x47c00028, [], [⟨63, 0, .rw, 0, .plain⟩]⟩,
  ⟨0x47c00030, [], [⟨63, 0, .rw, 0, .plain⟩]⟩,
  ⟨0x47c00038, [], [⟨63, 0, .rw, 0, .plain⟩]⟩,
  ⟨0x47c00040, [], [⟨63, 0, .rw, 0, .plain⟩]⟩,
  ⟨0x47c00048, [], [⟨11, 0, .rw, 0, .plain⟩]⟩,
  ⟨0x47c00050, [], [⟨63, 56, .ro, 0, .plain⟩, ⟨19, 16, .rw, 0, .plain⟩, ⟨1, 0, .wo, 0, .plain⟩]⟩,
  ⟨0x47c00058, [], [⟨63, 0, .wo, 0, .plain⟩]⟩,
  ⟨0x47c00060, [], [⟨63, 0, .wo, 0, .plain⟩]⟩,
  ⟨0x47c00068, [], [⟨63, 0, .wo, 0, .plain⟩]⟩,
  ⟨0x47c00070, [], [⟨63, 0, .wo, 0, .plain⟩]⟩,
  ⟨0x47c00078, [], [⟨39, 0, .rw, 0, .plain⟩]⟩,
  ⟨0x47c00080, [(16, 0x8)], [⟨63, 56, .ro, 0, .plain⟩, ⟨55, 32, .ro, 0, .plain⟩, ⟨3, 2, .wo, 0, .plain⟩, ⟨1, 0, .ro, 0, .plain⟩]⟩,
  ⟨0x47c00100, [], [⟨63, 0, .rw, 0, .plain⟩]⟩,
  ⟨0x47c00108, [], [⟨15, 0, .rw, 0, .plain⟩]⟩,
  ⟨0x47c00110, [], [⟨15, 0, .rw, 0xFFFF, .plain⟩]⟩,
  ⟨0x47c00118, [], [⟨63, 0, .w1c, 0, .plain⟩]⟩,
  ⟨0x47c00120, [], [⟨15, 0, .w1c, 0, .plain⟩]⟩,
  ⟨0x47c00128, [], [⟨2, 0, .rw, 0, .plain⟩]⟩,
  ⟨0x47c00130, [], [⟨63, 0, .ro, 0, .plain⟩]⟩,
  ⟨0x47c00138, [], [⟨63, 0, .ro, 0, .plain⟩]⟩,
  ⟨0x47c00140, [], [⟨63, 0, .ro, 0, .plain⟩]⟩,
  ⟨0x47c00148, [], [⟨63, 0, .ro, 0, .plain⟩]⟩,
  ⟨0x47c00150, [], [⟨63, 63, .wo, 0, .plain⟩, ⟨58, 56, .rw, 0, .plain⟩, ⟨39, 0, .rw, 0, .plain⟩]⟩,
  ⟨0x47c00158, [], [⟨63, 56, .ro, 0, .plain⟩, ⟨41, 41, .ro, 0, .plain⟩, ⟨40, 40, .wo, 0, .plain⟩, ⟨39, 0, .rw, 0, .plain⟩]⟩,
  ⟨0x47c00160, [], [⟨63, 56, .ro, 0, .plain⟩, ⟨41, 41, .ro, 0, .plain⟩, ⟨40, 40, .wo, 0, .plain⟩, ⟨39, 0, .rw, 0, .plain⟩]⟩,
  ⟨0x47c00168, [], [⟨63, 48, .ro, 0, .plain⟩, ⟨39, 0, .ro, 0, .plain⟩]⟩,
  ⟨0x47c00170, [], [⟨63, 0, .ro, 0, .plain⟩]⟩,
  ⟨0x47c00178, [], [⟨63, 32, .ro, 0, .plain⟩, ⟨0, 0, .wo, 0, .plain⟩]⟩,
  ⟨0x47c00180, [], [⟨63, 0, .rc, 0, .plain⟩]⟩,
  ⟨0x47c00188, [], [⟨63, 0, .rc, 0, .plain⟩]⟩,
  ⟨0x47c00190, [], [⟨63, 0, .rc, 0, .plain⟩]⟩]

/-- Registers of the GLB block. -/
def regsGlb : List RegDef := [
  ⟨0x40000000, [], [⟨23, 16, .ro, 0xB1, .plain⟩, ⟨15, 0, .ro, 0x0816, .plain⟩]⟩,
  ⟨0x40000008, [], [⟨63, 0, .ro, 0, .plain⟩]⟩,
  ⟨0x40000010, [], [⟨5, 0, .ro, 0, .plain⟩]⟩,
  ⟨0x40000018, [], [⟨15, 8, .wo, 0, .plain⟩, ⟨0, 0, .wo, 0, .plain⟩]⟩,
  ⟨0x40000020, [], [⟨21, 6, .ro, 0, .plain⟩, ⟨5, 0, .ro, 0, .plain⟩]⟩,
  ⟨0x40000028, [], [⟨8, 8, .w1c, 0, .plain⟩, ⟨1, 0, .ro, 0, .plain⟩]⟩,
  ⟨0x40000030, [], [⟨47, 40, .rw, 100, .plain⟩, ⟨39, 32, .ro, 0, .plain⟩, ⟨0, 0, .w1c, 0, .plain⟩]⟩,
  ⟨0x40000038, [], [⟨47, 40, .ro, 0, .plain⟩, ⟨7, 0, .ro, 16, .plain⟩]⟩,
  ⟨0x40000040, [], [⟨31, 16, .rw, 0, .plain⟩, ⟨1, 1, .w1c, 0, .plain⟩, ⟨0, 0, .wo, 0, .plain⟩]⟩,
  ⟨0x40000048, [], [⟨63, 0, .ro, 0, .plain⟩]⟩,
  ⟨0x40000050, [], [⟨63, 0, .ro, 0, .plain⟩]⟩,
  ⟨0x40000100, [(16, 0x20)], [⟨39, 2, .rw, 0, .plain⟩, ⟨1, 1, .wo, 0, .plain⟩, ⟨0, 0, .rw, 0, .plain⟩]⟩,
  ⟨0x40000108, [(16, 0x20)], [⟨1, 0, .ro, 0, .plain⟩]⟩,
  ⟨0x40000110, [(16, 0x20)], [⟨63, 0, .rw, 0xFFFFFFFFFFFFFFFF, .plain⟩]⟩,
  ⟨0x40000118, [(16, 0x20)], [⟨0, 0, .rw, 0, .plain⟩]⟩]

/-- Registers of the EVC block. -/
def regsEvc : List RegDef := [
  ⟨0x40100000, [], [⟨0, 0, .rw, 0, .plain⟩]⟩,
  ⟨0x40100010, [], [⟨63, 0, .rc, 0, .plain⟩]⟩,
  ⟨0x40100018, [], [⟨63, 0, .rc, 0, .plain⟩]⟩,
  ⟨0x40100020, [], [⟨63, 0, .rc, 0, .plain⟩]⟩,
  ⟨0x40100100, [(16, 0x20)], [⟨10, 0, .ro, 0, .plain⟩]⟩,
  ⟨0x40100108, [(16, 0x20)], [⟨10, 0, .wo, 0, .plain⟩]⟩,
  ⟨0x40100110, [(16, 0x20)], [⟨3, 0, .rw, 0, .plain⟩]⟩,
  ⟨0x40100118, [(16, 0x20)], [⟨26, 16, .ro, 0, .plain⟩, ⟨11, 0, .ro, 0, .plain⟩]⟩,
  ⟨0x40100400, [(32, 0x8)], [⟨63, 0, .ro, 0, .plain⟩]⟩,
  ⟨0x40100600, [(64, 0x8)], [⟨63, 0, .ro, 0, .plain⟩]⟩,
  ⟨0x40100800, [(16, 0x20)], [⟨39, 0, .rw, 0, .plain⟩]⟩,
  ⟨0x40100808, [(16, 0x20)], [⟨63, 63, .rw, 0, .plain⟩, ⟨60, 56, .rw, 6, .clamp 6 16⟩]⟩,
  ⟨0x40100810, [(16, 0x20)], [⟨63, 32, .mb, 0, .plain⟩, ⟨31, 0, .mb, 0, .plain⟩]⟩,
  ⟨0x40100818, [(16, 0x20)], [⟨31, 0, .rw, 0, .plain⟩]⟩,
  ⟨0x40110000, [(2048, 0x8)], [⟨63, 63, .ro, 0, .plain⟩, ⟨62, 62, .ro, 0, .plain⟩, ⟨61, 61, .ro, 0, .plain⟩, ⟨55, 52, .ro, 0, .plain⟩, ⟨31, 16, .rw, 0, .plain⟩, ⟨3, 0, .rw, 0, .plain⟩]⟩]

/-- Registers of the MGT block. -/
def regsMgt : List RegDef := [
  ⟨0x47e00000, [], [⟨2, 2, .rw, 0, .plain⟩, ⟨1, 1, .rw, 0, .plain⟩, ⟨0, 0, .rw, 0, .plain⟩]⟩,
  ⟨0x47e00008, [], [⟨0, 0, .ro, 0, .plain⟩]⟩,
  ⟨0x47e00010, [], [⟨3, 3, .w1c, 0, .plain⟩, ⟨2, 2, .w1c, 0, .plain⟩, ⟨1, 1, .w1c, 0, .plain⟩, ⟨0, 0, .w1c, 0, .plain⟩]⟩,
  ⟨0x47e00018, [], [⟨47, 0, .rw, 0, .plain⟩]⟩,
  ⟨0x47e00020, [], [⟨63, 60, .rw, 6, .clamp 6 12⟩, ⟨39, 0, .rw, 0, .plain⟩]⟩,
  ⟨0x47e00028, [], [⟨63, 60, .rw, 6, .clamp 6 12⟩, ⟨39, 0, .rw, 0, .plain⟩]⟩,
  ⟨0x47e00030, [], [⟨63, 32, .ro, 0, .plain⟩, ⟨31, 0, .rw, 0, .plain⟩]⟩,
  ⟨0x47e00038, [], [⟨63, 32, .rw, 0, .plain⟩, ⟨31, 0, .ro, 0, .plain⟩]⟩,
  ⟨0x47e00040, [], [⟨63, 0, .rc, 0, .plain⟩]⟩,
  ⟨0x47e00048, [], [⟨63, 0, .rc, 0, .plain⟩]⟩,
  ⟨0x47e00050, [], [⟨63, 0, .rc, 0, .plain⟩]⟩,
  ⟨0x47e00100, [], [⟨16, 16, .rw, 0, .plain⟩, ⟨15, 0, .rw, 60, .plain⟩]⟩,
  ⟨0x47e00108, [], [⟨59, 56, .rw, 10, .clamp 6 15⟩, ⟨39, 0, .rw, 0, .plain⟩]⟩,
  ⟨0x47e00110, [], [⟨63, 32, .ro, 0, .plain⟩, ⟨31, 0, .rw, 0, .plain⟩]⟩,
  ⟨0x47e00118, [], [⟨3, 0, .rw, 0, .plain⟩]⟩,
  ⟨0x47e00200, [], [⟨63, 0, .ro, 0, .plain⟩]⟩,
  ⟨0x47e00208, [], [⟨63, 0, .ro, 0, .plain⟩]⟩,
  ⟨0x47e00210, [], [⟨63, 0, .ro, 0, .plain⟩]⟩,
  ⟨0x47e00218, [], [⟨63, 0, .ro, 0, .plain⟩]⟩,
  ⟨0x47e00220, [], [⟨63, 0, .ro, 0, .plain⟩]⟩,
  ⟨0x47e00228, [], [⟨63, 0, .ro, 0, .plain⟩]⟩,
  ⟨0x47e00230, [], [⟨63, 0, .ro, 0, .plain⟩]⟩,
  ⟨0x47e00238, [], [⟨63, 0, .ro, 0, .plain⟩]⟩,
  ⟨0x47e00240, [], [⟨63, 0, .ro, 0, .plain⟩]⟩,
  ⟨0x47e00248, [], [⟨63, 0, .ro, 0, .plain⟩]⟩,
  ⟨0x47e00250, [], [⟨63, 0, .ro, 0, .plain⟩]⟩,
  ⟨0x47e00258, [], [⟨63, 0, .ro, 0, .plain⟩]⟩,
  ⟨0x47e00260, [], [⟨63, 0, .ro, 0, .plain⟩]⟩,
  ⟨0x47e00268, [], [⟨63, 0, .ro, 0, .plain⟩]⟩,
  ⟨0x47e00270, [], [⟨63, 0, .ro, 0, .plain⟩]⟩,
  ⟨0x47e00278, [], [⟨63, 0, .ro, 0, .plain⟩]⟩,
  ⟨0x47e00280, [], [⟨63, 0, .ro, 0, .plain⟩]⟩,
  ⟨0x47e00288, [], [⟨63, 0, .ro, 0, .plain⟩]⟩,
  ⟨0x47e00290, [], [⟨63, 0, .ro, 0, .plain⟩]⟩,
  ⟨0x47e00298, [], [⟨63, 0, .ro, 0, .plain⟩]⟩,
  ⟨0x47e002a0, [], [⟨63, 0, .ro, 0, .plain⟩]⟩,
  ⟨0x47e002a8, [], [⟨63, 0, .ro, 0, .plain⟩]⟩,
  ⟨0x47e002b0, [], [⟨63, 0, .ro, 0, .plain⟩]⟩,
  ⟨0x47e002b8, [], [⟨63, 0, .ro, 0, .plain⟩]⟩,
  ⟨0x47e002c0, [], [⟨63, 0, .ro, 0, .plain⟩]⟩,
  ⟨0x47e002c8, [], [⟨63, 0, .ro, 0, .plain⟩]⟩,
  ⟨0x47e002d0, [], [⟨63, 0, .ro, 0, .plain⟩]⟩,
  ⟨0x47e002d8, [], [⟨63, 0, .ro, 0, .plain⟩]⟩,
  ⟨0x47e002e0, [], [⟨63, 0, .ro, 0, .plain⟩]⟩,
  ⟨0x47e002e8, [], [⟨63, 0, .ro, 0, .plain⟩]⟩,
  ⟨0x47e002f0, [], [⟨63, 0, .ro, 0, .plain⟩]⟩,
  ⟨0x47e002f8, [], [⟨63, 0, .ro, 0, .plain⟩]⟩,
  ⟨0x47e00300, [(16, 0x8)], [⟨63, 32, .rw, 0, .plain⟩, ⟨31, 0, .rw, 0, .plain⟩]⟩,
  ⟨0x47e00400, [(64, 0x8)], [⟨31, 0, .ro, 0, .plain⟩]⟩,
  ⟨0x47e00600, [(64, 0x8)], [⟨31, 0, .ro, 0, .plain⟩]⟩]

/-- The registers of the block an address belongs to (R3, Table 1-2). -/
def regsAt (a : Nat) : List RegDef :=
  if a < 0x40000000 ∨ 0x48000000 ≤ a then []
  else if a < 0x40100000 then regsGlb
  else if a < 0x40200000 then regsEvc
  else if a < 0x41000000 then regsCvu
  else if a < 0x42000000 then regsAe
  else if a < 0x42800000 then regsMrg
  else if a < 0x42C00000 then regsPgt
  else if a < 0x43000000 then regsPdir
  else if a < 0x44000000 then regsTier
  else if a < 0x44800000 then regsHbm ++ regsGk
  else if a < 0x45000000 then regsWxp
  else if a < 0x46000000 then regsFlt
  else if a < 0x46800000 then regsTrl
  else if a < 0x47000000 then regsRmo
  else if a < 0x47800000 then regsSch
  else if a < 0x47C00000 then regsTwn
  else if a < 0x47E00000 then regsSec
  else regsMgt

/-- The indices of an offset in an array of registers, if it hits one. -/
def gridIndex : List (Nat × Nat) → Nat → Option (List Nat)
  | [], off => if off = 0 then some [] else none
  | (c, st) :: ds, off =>
    if off / st < c then (gridIndex ds (off % st)).map (fun r => off / st :: r) else none

/-- The indices of an address in a register definition. -/
def RegDef.indices? (r : RegDef) (a : Nat) : Option (List Nat) :=
  if a < r.base then none else gridIndex r.dims (a - r.base)

/-- The register at an address, if there is one. -/
def regAt (a : Nat) : Option RegDef :=
  (regsAt a).find? (fun r => (r.indices? a).isSome)

/-- The field's reset bits in place. -/
def RegField.resetBits (f : RegField) : Nat := f.reset <<< f.lo

/-- The service settings of Table 14-1, as SCH_SVC holds them. -/
def svcReset (weight cir pir burst : Nat) : Nat :=
  weight <<< 48 ||| cir <<< 38 ||| pir <<< 28 ||| burst <<< 14 ||| burst

/-- Table 14-1. Bursts are in 256-byte units. -/
def svcResets : List Nat :=
  [svcReset 32 100 1000 256, svcReset 64 200 1000 256, svcReset 64 150 1000 256, svcReset 32 100 1000 256,
   svcReset 64 200 1000 256, svcReset 16 50 500 1024, 1 <<< 63 ||| svcReset 1 50 50 64, svcReset 1 0 10 64]

/-- Table 15-8: WINDOW_MS, LIMIT and ACTION of class k. -/
def classResets : List (Nat × Nat × Nat) :=
  [(1000, 64, 1), (10000, 3, 2), (1000, 256, 3), (60000, 2, 3), (1000, 1, 3), (60000, 3, 2), (1000, 100, 0),
   (60000, 2, 3)]

/-- Reset values that depend on the register's index or on the object selected. -/
def resetSpecial (bank a : Nat) : Option Nat :=
  if 0x40200000 + 0x40 * 12 ≤ a ∧ a < 0x40200400 ∧ a % 0x40 = 0 then some 0b1100
  else if 0x43000400 ≤ a ∧ a < 0x43000800 ∧ a % 0x40 = 0x10 then some 0
  else if 0x47000100 ≤ a ∧ a < 0x47000140 then svcResets[(a - 0x47000100) / 8]?
  else if a = Reg.SCH_MTR_CFG then
    (if bank < 64 then some 0b01000100 else none)
  else if 0x47800200 ≤ a ∧ a < 0x47800240 then
    (classResets[(a - 0x47800200) / 8]?).map (fun (w, l, x) => w <<< 32 ||| l <<< 16 ||| x)
  else if a = Reg.GLB_CORE_CTL 0 then some 1
  else none

/-- The reset value of the register at an address (the Reset columns); 0 where there is no register (R4). -/
def resetWord (bank a : Nat) : BitVec 64 :=
  match regAt a with
  | none => 0
  | some r =>
    let base := (r.fields.map RegField.resetBits).foldl (· + ·) 0
    BitVec.ofNat 64 ((resetSpecial bank a).getD base)

end Sys2Proof.Machine
end

