-- ==== Sys2Proof/Machine/Tbl.lean ====
section
/-! DEFINITION. Sparse tables: lists of (key, value) with keys strictly rising. Memory is such a table with no entry equal
to what an unlisted address reads as (R8). -/

namespace Sys2Proof.Machine

/-- A sparse table. -/
abbrev Tbl (α : Type) := List (Nat × α)

/-- The entry at a key. -/
def tfind {α : Type} : Tbl α → Nat → Option α
  | [], _ => none
  | (k, v) :: t, a => if k = a then some v else tfind t a

/-- The table with the entry at a key set. -/
def tset {α : Type} : Tbl α → Nat → α → Tbl α
  | [], a, x => [(a, x)]
  | (k, v) :: t, a, x =>
    if k = a then (a, x) :: t else if a < k then (a, x) :: (k, v) :: t else (k, v) :: tset t a x

/-- The table without the entry at a key. -/
def tdel {α : Type} (t : Tbl α) (a : Nat) : Tbl α := t.filter (fun p => p.1 != a)

/-- The entry at a key, or the default. -/
def tget {α : Type} (d : α) (t : Tbl α) (a : Nat) : α := (tfind t a).getD d

/-- The table with a value at a key, where the default is not listed. -/
def tput {α : Type} [DecidableEq α] (d : α) (t : Tbl α) (a : Nat) (x : α) : Tbl α :=
  if x = d then tdel t a else tset t a x

/-- The table with the entry at a key changed, if there is one. -/
def tmod {α : Type} (t : Tbl α) (a : Nat) (f : α → α) : Tbl α :=
  match tfind t a with
  | none => t
  | some x => tset t a (f x)

/-- Keys above a bound, strictly rising. -/
def keysAbove {α : Type} : Nat → Tbl α → Bool
  | _, [] => true
  | n, (k, _) :: t => decide (n ≤ k) && keysAbove (k + 1) t

/-- The canonical form of a table: keys strictly rising. -/
def twf {α : Type} (t : Tbl α) : Bool := keysAbove 0 t

/-- The canonical form of a memory: keys strictly rising, no entry equal to the default. -/
def mwf {α : Type} [DecidableEq α] (d : α) (t : Tbl α) : Bool :=
  twf t && t.all (fun p => decide (p.2 ≠ d))

/-- A memory in its canonical form: the same bytes. -/
def canon {α : Type} [DecidableEq α] (d : α) (t : Tbl α) : Tbl α :=
  if mwf d t then t else t.foldr (fun p m => tput d m p.1 p.2) []

/-- The values of a table. -/
def tvals {α : Type} (t : Tbl α) : List α := t.map Prod.snd

end Sys2Proof.Machine
end

