-- ==== Sys2Proof/Machine/State.lean ====
section
/-! DEFINITION. The state of the TLF-816: every register, table, queue, memory and pin of spec/, as plain data, with
`pending`, the queue of commands that wait. INVENTORY.md, State, names the rule of each piece. -/

namespace Sys2Proof.Machine

/-- No command of the block faults: an access the spec refuses is refused by an answer, which is state. The type has the
one reason a step could stop for, raised by no meaning. Safe. -/
inductive Fault where
  /-- Raised by no command. Safe. -/
  | none
  deriving DecidableEq, Repr

/-- Why a command has no meaning. -/
inductive Refusal where
  /-- Raised by an arm of `exec` whose command has no meaning yet. Safe. -/
  | notModelled (mnemonic : String)
  deriving DecidableEq, Repr

/-! ## Messages (chapter 12) -/

/-- What a message sent is for, so that its acknowledgement, its answer or its loss reaches its producer. -/
inductive Purpose where
  /-- Nothing waits for it. -/
  | plain
  /-- The RESULT of a stream (R120). -/
  | result (stream : Nat)
  /-- A SUBQUERY of stream `stream`, slot `sub`, generation `gen` (R121). -/
  | subquery (stream sub gen : Nat)
  /-- The PARTIAL of a SUBQUERY served here (R122, R131). -/
  | partialOf (work : Nat)
  /-- The MIRROR of the operation with TAG `tag` (R318). -/
  | mirror (tag : Nat)
  /-- A FETCH for page `desc` (R323). -/
  | fetch (desc : Nat)
  /-- A regrow MIRROR (R335). -/
  | regrow
  /-- The LEAP_PUSH of leap `serial`, of page `desc`, into borrowed extent `ext` (R175). -/
  | leapPush (desc ext serial : Nat)
  /-- A LEAP_PULL of the fault on page `desc` (R180). -/
  | leapPull (desc : Nat)
  /-- An OFFER of extent `ext` (R184). -/
  | offer (ext : Nat)
  /-- A RELEASE of frames (R185). -/
  | release
  /-- A RETURN of extent `ext` (R186). -/
  | giveBack (ext : Nat)
  /-- A REASSIGN of the borrowed extent `ext` (R187). -/
  | reassign (ext : Nat)
  /-- A CUSTODY message of kind `kind` about `handle` (R354). -/
  | custody (kind handle : Nat)
  /-- A page, or a piece of the image, pushed or pulled for a transfer of `handle` (R354). -/
  | custodyPush (handle key : Nat)
  | custodyPull (handle key : Nat)
  /-- A MIRROR of an import (R354 step 4). -/
  | custodyMirror (handle : Nat)
  /-- A CUSTODY SYNC whose acknowledgement lets change `id` take effect (R352). -/
  | sync (id : Nat)
  /-- A request forwarded for request (conduit, msgseq) (R359). -/
  | forward (conduit msgseq : Nat)
  /-- The WRITE or WRITE_IMM of work request `id` or of a result placed in a region (R283, R290). -/
  | write (id : Nat)
  /-- A notification of completion queue `cq` (R286). -/
  | notify (cq : Nat)
  /-- The message of entry `index` of mailbox 15 (R408). -/
  | posted (index : Nat)
  /-- A CUSTODY PREPARE posted so, for a sequence held here (R354 step 1). -/
  | prepare (index handle epoch target mapEpoch : Nat)
  /-- The READ_RESP of a READ that holds region entry `index` (R281). -/
  | readResp (index : Nat)
  /-- An ANNOUNCE (R330). -/
  | announce
  deriving DecidableEq, Repr

/-- Where a segment of a queued message will leave (R245, R298). -/
inductive Egress where
  /-- No port was up when it was queued; it waits for one. -/
  | waiting
  | port (p : Nat)
  /-- Its port went down with it queued; it is lost, and counts as sent. -/
  | lost
  deriving DecidableEq, Repr

/-- A message waiting to be sent or being sent on a conduit (R249, R300). -/
structure OutMsg where
  /-- Queue number of R257. -/
  q : Nat
  op : Nat
  svc : Nat
  payload : List Byte
  key : Nat
  imm : Nat
  /-- FLAGS besides LAST, ENC, RETX and ACKREQ. -/
  flags : Nat
  unseq : Bool
  /-- MSGSEQ, once the scheduler has first selected the message (R257). -/
  seq : Option Nat
  /-- The egress of each segment, and how many have been taken from the queue. -/
  egress : List Egress
  sent : Nat
  /-- In the hold list until a GRANT (R125, R301). -/
  hold : Bool
  purpose : Purpose
  deriving DecidableEq, Repr

/-- A segment sent and not yet acknowledged (R263-R265). -/
structure OutSeg where
  msgseq : Nat
  index : Nat
  /-- Retransmissions so far (r of R257). -/
  tries : Nat
  /-- Timer expiries of this segment (R255). -/
  expiries : Nat
  sentAt : Nat
  acked : Bool
  /-- Waits to be retransmitted on this egress (R264, R265). -/
  requeue : Option Egress
  /-- When a later segment was first acknowledged (R265). -/
  reorderAt : Option Nat
  deriving DecidableEq, Repr

/-- A message sent and not wholly acknowledged. -/
structure SentMsg where
  msg : OutMsg
  msgseq : Nat
  segs : List OutSeg
  deriving DecidableEq, Repr

/-- A reassembly context (R260). -/
structure RxCtx where
  msgseq : Nat
  op : Nat
  msglen : Nat
  key : Nat
  imm : Nat
  noord : Bool
  /-- The segments that have come, by index; the bitmap of R260 lists them. -/
  segs : Tbl (List Byte)
  /-- Receive-buffer bytes taken (R262). -/
  buffer : Nat
  /-- For WRITE: the region entry counted in INFLIGHT (R277). -/
  region : Option Nat
  /-- For WRITE: OFFSET, once segment 0 has arrived; the segments are held until then (R277). -/
  dest : Option Nat
  deriving DecidableEq, Repr

/-- A conduit entry (Table 12-7) with its sender and receiver. -/
structure ConduitState where
  /-- CSTATE: 0 CLOSED, 1 ACTIVE, 2 DRAINING, 3 FAILED. -/
  cstate : Nat
  enc : Bool
  ipv6 : Bool
  multipath : Bool
  loopback : Bool
  part : Nat
  segcode : Nat
  peerConduit : Nat
  txCgen : Nat
  rxCgen : Nat
  peerNode : Nat
  subscriber : Nat
  peerPort : Nat
  peerIp : List Byte
  keySlot : Nat
  txSalt : Nat
  rxSalt : Nat
  txNext : Nat
  rxNext : Nat
  rateMbps : Nat
  srttNs : Nat
  rttvarNs : Nat
  /-- RX_CGEN of the index's previous OPEN, if any since the cold start (R253). -/
  lastCgen : Option Nat
  qnext : Nat
  unseqNext : Nat
  queue : List OutMsg
  sent : List SentMsg
  rx : List RxCtx
  /-- Numbers at or above RX_NEXT already handed over or refused (R261), with their segments. -/
  rxDone : Tbl Nat
  /-- Segments placed since the last TACK, and when the first of them came (R263). -/
  ackSegs : Nat
  ackSince : Option Nat
  /-- A CE mark waits to be echoed (R267). -/
  eceDue : Bool
  /-- The retransmit timer's value, and when it was started, if it runs (R264). -/
  timerNs : Nat
  timerAt : Option Nat
  /-- Times of the last cut (R267), of the last rate step, and of the CLOSE. -/
  cutAt : Option Nat
  recoverAt : Nat
  drainAt : Nat
  /-- The time until which TACKs carry ECE (R267). -/
  eceUntil : Nat
  /-- The rate shaper of R300, in 1/256 bytes. -/
  bucket : Int
  deriving DecidableEq, Repr

/-- A message handed over and not yet taken by its consumer (R261). -/
structure Handed where
  conduit : Nat
  msgseq : Nat
  op : Nat
  payload : List Byte
  key : Nat
  imm : Nat
  /-- The region entry a WRITE, WRITE_IMM or READ was admitted to. -/
  region : Option Nat
  deriving DecidableEq, Repr

/-- A request sent that its answer will name by RSEQ (R252). -/
structure Await where
  conduit : Nat
  msgseq : Nat
  op : Nat
  purpose : Purpose
  deriving DecidableEq, Repr

/-- What left the block on a port: the whole frame (R246). -/
structure WireFrame where
  port : Nat
  frame : List Byte
  deriving DecidableEq, Repr

/-- Receive-buffer space of a mailbox entry: it is held until CI passes the entry (R407). -/
structure MbHold where
  mb : Nat
  /-- The entry's PI. -/
  index : Nat
  conduit : Nat
  off : Nat
  len : Nat
  deriving DecidableEq, Repr

/-- An entry taken from mailbox 15 whose message is not complete (R408). -/
structure Posting where
  index : Nat
  status : Option Nat
  deriving DecidableEq, Repr

/-- The transport (chapter 12). -/
structure Trl where
  conduits : Tbl ConduitState
  handed : List Handed
  awaiting : List Await
  wireOut : List WireFrame
  /-- Frames of the control cores waiting for their port (R308, R408): port, entry index, frame. -/
  frames : List (Nat × Nat × List Byte)
  holds : List MbHold
  postings : List Posting
  /-- The next entry of mailbox 15 to take. -/
  postNext : Nat
  /-- Messages delivered or failed, for the producers whose own command takes the outcome. -/
  ended : List (Purpose × Nat)
  /-- Frames punted in the current millisecond (R247). -/
  punted : Nat
  puntAt : Nat
  deriving DecidableEq, Repr

/-! ## Scheduling (chapter 14) -/

/-- A child of a node of the scheduler: start and finish time, backlog and credit (R306, R307). -/
structure VChild where
  start : Nat
  finish : Nat
  backlogged : Bool
  credit : Int
  deriving DecidableEq, Repr

/-- The SCH beside its registers. Buckets hold (committed, peak) in 1/256 bytes; an unlisted one is at its bursts. -/
structure Sch where
  /-- Node number: subscriber n; 4096 + p * 8 + s a service node; 4224 + n a port node. -/
  nodes : Tbl (Int × Int)
  meters : Tbl (Int × Int)
  /-- Virtual time of each parent: 0-15 a port node, 16 + p * 8 + s a service node,
  144 + (p * 8 + s) * 4096 + n a pair of subscriber and service node. -/
  vtime : Tbl Nat
  /-- Children, by parent * 2^16 + child. -/
  child : Tbl VChild
  /-- The child visited last under R307, by parent. -/
  cycle : Tbl Nat
  /-- The port served last, by port node. -/
  turn : Tbl Nat
  /-- The SCH registers as of the last refill (R304). -/
  applied : Tbl Word
  deriving DecidableEq, Repr

/-! ## Events (chapter 18) -/

/-- The event concentrator and core control beside their registers. -/
structure Evc where
  /-- Sources in service: source to owner (R400). -/
  insvc : Tbl Nat
  /-- Mailboxes with records dropped since their last entry (Table 18-3). -/
  overflow : List Nat
  /-- GLB_MTIME of the last watchdog kick or period write, and whether a first expiry has passed since (R397). -/
  wdogAt : Nat
  wdogFirst : Bool
  deriving DecidableEq, Repr

/-! ## Sequences and pages (chapter 3) -/

/-- Tiers of LOC (Table 3-4). -/
inductive Tier where
  | pcache | hbm | lent | flash
  deriving DecidableEq, Repr

/-- Page states (Table 3-5). -/
inductive PageState where
  | free | tadpole | sealed | lockedBank | inLeap | poisoned
  deriving DecidableEq, Repr

/-- What the twin holds of a page (R319). -/
inductive MirrorState where
  | none | staged | flashed | hot
  deriving DecidableEq, Repr

/-- LOC of a descriptor (Table 3-4); frame in 2 KiB units of the tier's address space. -/
structure Loc where
  tier : Tier
  node : Nat
  frame : Nat
  deriving DecidableEq, Repr

/-- A sequence class (Table 3-17), as its window registers hold it. -/
structure SeqClass where
  def0 : Nat
  def1 : Nat
  deriving DecidableEq, Repr

/-- A page descriptor (Table 3-4). -/
structure Desc where
  loc : Loc
  fmtA : Nat
  fmtB : Nat
  frameCode : Nat
  valid : Nat
  state : PageState
  mirror : MirrorState
  digestValid : Bool
  pinned : Bool
  heat : Nat
  crc : W32
  refcnt : Nat
  part : Nat
  freeEpoch : Nat
  digest : Nat
  /-- Class shape of the rows it holds (PGT_CLASS_DEF0). -/
  def0 : Nat
  /-- The 16 slots are committed, or SEAL has closed the page (R52 step 1). -/
  sealDue : Bool
  /-- Its check value is being computed by this CVU unit (R52 step 2). -/
  sealUnit : Option Nat
  /-- The content belongs to a page of the peer, held for it as twin (R319). -/
  ofTwin : Bool
  /-- It was SEALED when it became POISONED (Table 3-6). -/
  wasSealed : Bool
  /-- No copy is left to restore it from (R48). -/
  lost : Bool
  deriving DecidableEq, Repr

/-- SSTATE (Table 3-3). -/
inductive SeqState where
  | active | cold | freeing
  deriving DecidableEq, Repr

/-- A cold image: what R43 step 1 says it holds. -/
structure ColdImage where
  /-- Page-table entries: key as in `Seq.pt`, descriptor index. -/
  pt : Tbl Nat
  layerLen : List Nat
  /-- The descriptors with REFCNT 1, taken out of the pool. -/
  descs : Tbl Desc
  /-- Contents of tadpoles, by page-table key. -/
  tadpoles : Tbl (List Byte)
  /-- The prefix slot (R67). -/
  chainKey : Nat
  keyed : Nat
  broken : Bool
  tokids : List Nat
  /-- Keys formed and not yet inserted (R68 step 3). -/
  pendKeys : List (Nat × Nat)
  /-- The flash units that hold it. -/
  units : List Nat
  /-- Its CRC-64, as written. -/
  crc : Word
  deriving DecidableEq, Repr

/-- A sequence record (Table 3-3), its page table and its prefix slot (Table 4-1). -/
structure Seq where
  handle : Nat
  cls : Nat
  /-- The class definition words, which stand while the sequence exists (Table 3-17). -/
  def0 : Nat
  def1 : Nat
  sstate : SeqState
  closed : Bool
  thawing : Bool
  ptLoc : Nat
  ptSize : Nat
  ptCrc : Word
  custodyEpoch : Nat
  lastUse : Nat
  /-- Committed length of each layer. -/
  layerLen : List Nat
  /-- Length of each layer with the appends applied and not committed. -/
  applied : List Nat
  /-- Page tables: (layer * 64 + group) * 2^20 + position to descriptor index. -/
  pt : Tbl Nat
  chainKey : Nat
  keyed : Nat
  broken : Bool
  /-- Token IDs from position 16 * KEYED on. -/
  tokids : List Nat
  /-- Keys formed whose position is not yet sealed in every layer and group (R68 step 3). -/
  pendKeys : List (Nat × Nat)
  cold : Option ColdImage
  /-- The epoch a thaw holds (R61). -/
  thawEpoch : Option Nat
  /-- A FORK child that has not committed, or a custody import not yet settled, admits nothing. -/
  hidden : Bool
  deriving DecidableEq, Repr

/-- Operations that take a place in a sequence's order (R345). -/
inductive OpKind where
  | append | seal | fork | truncate | free | query | entry (k : Nat) | pin | unpin | info | adopt
  deriving DecidableEq, Repr

/-- How far an operation has come. -/
inductive Phase where
  /-- Holds its place, not begun. -/
  | waiting
  /-- Waits for copies of pages, by faults or gecko jobs (R55, R58). -/
  | copying
  /-- Waits for an entry of the purge filter (R81). -/
  | purging
  /-- Applied; its MIRROR awaits the MIRROR_ACK (R318). -/
  | mirrored
  /-- Applied and acknowledged; it waits for the operations ordered before it (R346). -/
  | acked
  deriving DecidableEq, Repr

/-- One operation in the order of a sequence; `id` is its place and its MIRROR's TAG. -/
structure SeqOp where
  id : Nat
  seq : Nat
  kind : OpKind
  conduit : Nat
  msgseq : Nat
  payload : List Byte
  arrived : Nat
  phase : Phase
  /-- The work request that posted it, if any (R291). -/
  byWr : Option Nat
  /-- APPEND: descriptors of tadpoles it allocated, by page-table key. -/
  fresh : Tbl Nat
  /-- APPEND: layer and end; TRUNCATE: new length; FORK: fork point. -/
  layer : Nat
  point : Nat
  child : Option Nat
  /-- FORK and TRUNCATE: new tadpoles by page-table key. -/
  copies : Tbl Nat
  /-- The epoch its copies hold (R61). -/
  epoch : Option Nat
  deriving DecidableEq, Repr

/-- A fork or truncate copy of the first `slots` rows of `src` into `dst` (R55, R58), waiting for its page or its job. -/
structure CopyJob where
  op : Nat
  src : Nat
  dst : Nat
  slots : Nat
  /-- Issued as COW job on this gecko and slot. -/
  issued : Option (Nat × Nat)
  deriving DecidableEq, Repr

/-- A page or frame in deferred reclamation (R61). -/
structure Reclaim where
  /-- The descriptor it is the page of; none for a frame a page has left. -/
  desc : Option Nat
  /-- The frame; none where only a digest is given back. -/
  loc : Option Loc
  /-- The class shape of the page (Table 3-17). -/
  def0 : Nat
  part : Nat
  /-- It is charged to no partition: a landing frame, or a page held for the twin. -/
  free_ : Bool
  /-- A digest that goes with it, in 16-byte units (R134). -/
  digest : Option Nat
  epoch : Nat
  deriving DecidableEq, Repr

/-- What a check-value unit of the pool computes (R52, R53). -/
inductive CvuUse where
  /-- A software job (R54). -/
  | software
  /-- The seal of a page. -/
  | seal (desc : Nat)
  deriving DecidableEq, Repr

/-- The PGT and CVU beside their registers. -/
structure Pgt where
  seqs : Tbl Seq
  /-- Last GEN of an index, and the µs at which its free completed (R39). -/
  gens : Tbl (Nat × Nat)
  descs : Tbl Desc
  /-- The 2 MiB chunks of the descriptor pool, by first unit, chunk n holding descriptors 65,536 n on (R42). -/
  chunks : List Nat
  /-- The 2 MiB chunks of the sequence table and of the prefix slots, by first unit: chunk n holds the records of 32,768 indices
  (R42), chunk 2^20 + n the slots of 16,384 (R67). -/
  seqChunks : Tbl Nat
  /-- The 4 KiB frames of a sequence's page tables in HBM, root first (Table 3-3). -/
  tables : Tbl (List Nat)
  epoch : Nat
  epochAt : Nat
  /-- The order of operations of all sequences (R345). -/
  ops : List SeqOp
  nextOp : Nat
  copies : List CopyJob
  reclaim : List Reclaim
  /-- Jobs of the check-value units. -/
  cvu : Tbl CvuUse
  /-- Frees whose references are not yet all dropped (R60): sequence index and custody home to tell. -/
  freeing : List Nat
  deriving DecidableEq, Repr

/-! ## Prefix directory (chapter 4) -/

/-- A directory entry (Table 4-2) and its AGE. -/
structure PdirEntry where
  key : Nat
  part : Nat
  cls : Nat
  index : Nat
  gen : Nat
  pos : Nat
  insEpoch : Nat
  stamp : Nat
  age : Nat
  deriving DecidableEq, Repr
/-- A purge of a donor's entries (R81); no epoch until the TRUNCATE commits. -/
structure Purge where
  donor : Nat
  cutoff : Nat
  epoch : Option Nat
  /-- The operation that registered it. -/
  op : Nat
  deriving DecidableEq, Repr

/-- The PDIR beside its registers; its shadow lies in HBM (R71). -/
structure Pdir where
  /-- Entry number to entry (set * 16 + way). -/
  entries : Tbl PdirEntry
  stamp : Nat
  /-- The 64 filter entries. -/
  purges : Tbl Purge
  /-- GLB_MTIME of the last ageing step and of the last scrub pass. -/
  agedAt : Nat
  /-- PDIR_CTL.AGE_PERIOD as the running interval took it (Table 4-7). -/
  agePeriod : Nat
  scrubAt : Nat
  deriving DecidableEq, Repr

/-! ## Twins (chapter 15) and custody (chapter 16) -/

/-- ROLE (TWN_STATUS). -/
inductive Role where
  | down | joining | paired | solo | fenced | regrowing | mirrorBuild
  deriving DecidableEq, Repr

/-- REASON of a TAKEOVER (Table 15-4). -/
inductive Reason where
  | silence | expel | handoff | regrow
  deriving DecidableEq, Repr

/-- A CLAIM sent and not answered (R327). -/
structure Claim where
  reason : Reason
  /-- REGROW for HANDBACK (R336) rather than for a regrow's end (R335). -/
  handback : Bool
  sends : Nat
  at_ : Nat
  deriving DecidableEq, Repr

/-- An entry of the witness's table (R328). -/
structure WitnessRec where
  epoch : Nat
  serving : Nat
  deriving DecidableEq, Repr

/-- One error window: the counts of sixteen sub-windows by their number (R337). -/
structure ErrWindow where
  slots : List (Nat × Nat)
  /-- The action has been taken (R338). -/
  acted : Bool
  deriving DecidableEq, Repr

/-- What a regrow still has to send (R335). -/
inductive RegrowItem where
  | table (seq : Nat)
  | page (seq key : Nat)
  deriving DecidableEq, Repr

/-- An entry of the cross-check log (Table 15-9). -/
structure XlogEntry where
  engines : List Nat
  band : Nat
  verdict : Nat
  busy : Nat
  tag : Nat
  conduit : Nat
  row : Nat
  time : Nat
  deriving DecidableEq, Repr

/-- Pages packed in seal order for a flash unit (R183, R319). -/
structure Assembly where
  /-- MIRROR area (true) or DEMOTE area. -/
  forTwin : Bool
  part : Nat
  /-- Pages, with their slot in the unit. -/
  pages : List (Nat × Nat)
  /-- 2 KiB slots filled. -/
  fill : Nat
  firstAt : Nat
  deriving DecidableEq, Repr

/-- The TWN beside its registers. -/
structure Twn where
  role : Role
  epoch : Nat
  /-- Number of the last croak sent, and the times of recent ones. -/
  cseq : Nat
  sentAt : List (Nat × Nat)
  lastSent : Nat
  /-- Highest CSEQ received, and when the last croak counting against silence came. -/
  peerCseq : Nat
  heardAt : Nat
  /-- Until when the lease holds (R326). -/
  leaseUntil : Option Nat
  peerRole : Role
  peerHandoff : Bool
  peerHealth : Nat
  peerDomain : Nat
  suspect : Bool
  /-- Silence declared, and the µs at which (R325, R362). -/
  silentAt : Option Nat
  claim : Option Claim
  /-- A PERMIT sent and not answered (R343). -/
  permitAt : Option Nat
  /-- Carries PEER_SUSPECT in its croaks (R343). -/
  accuse : Bool
  /-- A HANDOFF runs; its work has drained (R334). -/
  handoff : Bool
  drained : Bool
  /-- The CONTROL peak limit is lifted until the last ANNOUNCE has left (R329). -/
  announcing : Bool
  regrow : List RegrowItem
  regrowAt : Nat
  /-- Sequences whose TABLE has been sent, whose operations are mirrored (R335). -/
  tabled : List Nat
  witness : Tbl WitnessRec
  /-- Expulsions counted per domain: times in µs (R343). -/
  governor : Tbl (List Nat)
  windows : Tbl ErrWindow
  /-- Sampled dispatches so far (R340), the log and its next index. -/
  xcount : Nat
  xlog : Tbl XlogEntry
  xnext : Nat
  /-- The twin table is live: the peer's sequences are served here (R329). -/
  live : Bool
  /-- FORK MIRRORs applied: sequence key and µs (R362). -/
  forked : List (Nat × Nat)
  /-- Unconfirmed children and the µs at which each is freed (R362). -/
  orphans : List (Nat × Nat)
  /-- Highest takeover epoch seen for a pair (R361). -/
  pairEpochs : Tbl Nat
  /-- Node that serves in place of a failed one (R330). -/
  serving : Tbl Nat
  healthAt : Nat
  /-- Hot mirror copies (R320): the FLASH frame of a twin page whose HBM frame is kept; partitions whose MIRRORs say HOT. -/
  hot : Tbl Nat
  hotParts : List Nat
  /-- The witness refused a joining member, or did not answer it (R425). -/
  joinFailed : Bool
  deriving DecidableEq, Repr

/-- CSTATE of a custody record (Table 16-3). -/
inductive CustodyState where
  | held | transfer | freeing
  deriving DecidableEq, Repr

/-- A custody record (Table 16-3); also an inbound entry. -/
structure CustodyRec where
  handle : Nat
  epoch : Nat
  holder : Nat
  cstate : CustodyState
  target : Nat
  deadline : Nat
  movedAt : Nat
  mapEpoch : Nat
  /-- The source of a running transfer. -/
  source : Nat
  deriving DecidableEq, Repr

/-- A custody change that waits for its SYNC (R352), or takes effect at once. -/
inductive CustodyChange where
  /-- The home's record of a sequence index. -/
  | record (idx : Nat) (r : CustodyRec)
  /-- Removal of the record (R358). -/
  | drop (idx : Nat)
  /-- An inbound entry: handle and local index. -/
  | inbound (handle local_ : Nat)
  /-- Removal of an inbound entry. -/
  | outbound (handle : Nat)
  /-- The quiesce mark of a source (R354, R357). -/
  | quiesce (seq : Nat) (on : Bool)
  deriving DecidableEq, Repr

/-- What is answered or sent once a change has taken effect. -/
structure CustodySend where
  conduit : Nat
  op : Nat
  payload : List Byte
  deriving DecidableEq, Repr

structure PendingSync where
  id : Nat
  change : CustodyChange
  after : List CustodySend
  deriving DecidableEq, Repr

/-- A request held at a node that does not admit it (R354, R359), or forwarded. -/
structure HeldReq where
  conduit : Nat
  msgseq : Nat
  op : Nat
  payload : List Byte
  handle : Nat
  arrived : Nat
  /-- The work request that posted it, if any (R291). -/
  byWr : Option Nat
  deriving DecidableEq, Repr

/-- A request forwarded to the holder (R359). -/
structure Forwarded where
  conduit : Nat
  msgseq : Nat
  /-- Conduit to the holder and the request's TAG there. -/
  via : Nat
  op : Nat
  payload : List Byte
  rkey : Nat
  roff : Nat
  imm : Nat
  byWr : Option Nat
  deriving DecidableEq, Repr

/-- Where a transfer stands: at S the copy, the REASSIGNs, the wait for an outcome; at T the import, its mirrors, the wait. -/
inductive TransferPhase where
  | copying | reassigning | handed | pulling | mirroring | accepted
  deriving DecidableEq, Repr

/-- A transfer this node takes part in as S or T (R354). -/
structure Transfer where
  handle : Nat
  /-- The local index of the sequence. -/
  seq : Nat
  epoch : Nat
  source : Nat
  target : Nat
  home : Nat
  mapEpoch : Nat
  phase : TransferPhase
  /-- The lender of the copy, and the indices of its extents. -/
  lender : Nat
  exts : List Nat
  /-- Pages (by page-table key) and image pieces sent or asked for and not yet answered, or extents not yet reassigned. -/
  out : List Nat
  /-- S: the lender's frame of each page and piece. -/
  done : Tbl Nat
  /-- T: what has been pulled. -/
  pieces : Tbl (List Byte)
  /-- The image: frame, bytes, check value. -/
  frame : Nat
  bytes : Nat
  crc : Nat
  def0 : Nat
  def1 : Nat
  /-- When the last message of the transfer was sent or ASKed, in µs (R355). -/
  askedAt : Nat
  deriving DecidableEq, Repr

structure Custody where
  records : Tbl CustodyRec
  inbound : Tbl Nat
  /-- Sequences (local index) that admit nothing while a transfer runs. -/
  quiesced : List Nat
  syncs : List PendingSync
  nextSync : Nat
  held : List HeldReq
  forwarded : List Forwarded
  transfers : List Transfer
  /-- Sequences this node gave away: handle, new holder and the µs of the commit (R359). -/
  moved : List (Nat × Nat × Nat)
  /-- RELEASEs to send again when a conduit to the home opens: handle and epoch (R364). -/
  releases : List (Nat × Nat)
  deriving DecidableEq, Repr

/-! ## Streams (chapters 5 to 7) -/

/-- KIND of a unit (Table 5-7). -/
inductive UnitKind where
  | local_ | remote | deferred | landed
  deriving DecidableEq, Repr

/-- A unit of a stream's window (Table 5-7). -/
structure PageUnit where
  loc : Loc
  desc : Nat
  page : Nat
  group : Nat
  kind : UnitKind
  /-- The slots to read: 16 or VALID for a sealed page, the captured count for a tadpole (R51, R99). -/
  slots : Nat
  tadpole : Bool
  /-- The content of a tadpole as of admission (R350); empty for a sealed page. -/
  snap : List Byte
  deriving DecidableEq, Repr

/-- The three-level accumulators of one row (R27) with its running maximum and skipped mass (R140). -/
structure RowAcc where
  row : Nat
  m : W32
  lBlk : W32
  lRun : W32
  oBlk : List W32
  oRun : List W32
  nan : Bool
  empty : Bool
  skipped : W32
  deriving DecidableEq, Repr

/-- ISTATE of a work item (Table 5-7); `held` is a sampled item whose records wait for the comparison (R340). -/
inductive ItemState where
  | waiting | queued | running | parked | done | held
  deriving DecidableEq, Repr

/-- A unit of an item in the order it will be processed (R139): its index, and whether it may be skipped, with its key. -/
structure TodoUnit where
  ix : Nat
  eligible : Bool
  key : W32
  /-- TOPK: computed by rank (R141). -/
  chosen : Bool
  /-- The bound U of each row that sees it, of the digest read in the bound pass (R136, R140). -/
  bounds : Tbl W32
  deriving DecidableEq, Repr

/-- A partial record (Table 6-2) of a row. -/
structure Rec where
  row : Nat
  m : W32
  l : W32
  o : List W32
  deriving DecidableEq, Repr

/-- A work item of a stream. -/
structure WorkItem where
  units : List PageUnit
  istate : ItemState
  engine : Option Nat
  tile : Nat
  /-- Units still to process in this tile; none before the tile's bound pass. -/
  todo : Option (List TodoUnit)
  /-- Units added to the block accumulators since it was last folded. -/
  inBlock : Nat
  accs : List RowAcc
  /-- Its save area (R106), by block of the pool. -/
  saveAt : Option Nat
  /-- It has been parked or restarted, so it goes first in line (R103). -/
  resumed : Bool
  /-- Cross-check: the sampled item's index of which this is a re-run or third run (R340, R341). -/
  rerunOf : Option Nat
  sampled : Bool
  /-- It selects pages (R137), as of its dispatch. -/
  sel : Bool
  /-- It found no room to park, and keeps its engine (R108). -/
  stalled : Bool
  /-- Tiles whose records have been emitted. -/
  emitted : Nat
  /-- Records held for comparison, of every tile. -/
  heldRecs : List Rec
  /-- LATENT_EXPANDED: the tile's slices are in the work area (R156). -/
  slicesIn : Bool
  /-- The request now outstanding brings them (R156). -/
  asked : Bool
  /-- Engines busy when it was dispatched to be sampled (Table 15-9). -/
  busyAt : Nat
  deriving DecidableEq, Repr

/-- A SUBQUERY outstanding (R121). -/
structure SubQuery where
  sub : Nat
  gen : Nat
  lender : Nat
  conduit : Nat
  units : List PageUnit
  /-- A merge credit is held (R124). -/
  credit : Bool
  /-- Sent with HOLD and not yet granted (R125). -/
  hold : Bool
  /-- The SUB of the relay this member answers to, or of the members this relay gathers (R126). -/
  via : Option Nat
  members : List Nat
  /-- Its block has come and its records wait for the merge units. -/
  landed : Bool
  deriving DecidableEq, Repr

/-- What a lender's stream owes (R122). -/
structure LenderWork where
  node : Nat
  hstream : Nat
  sub : Nat
  subgen : Nat
  sendto : Nat
  hold : Bool
  granted : Bool
  relay : Bool
  groupIn : Nat
  /-- Members' answers merged so far, their units, and a failure among them (R126). -/
  answered : Nat
  memberUnits : Nat
  failed : Option Nat
  nunits : Nat
  deriving DecidableEq, Repr

/-- CSTATE of a stream (Table 5-6). -/
inductive StreamState where
  | dispatch | running | parked | merging | delivering | aborting
  deriving DecidableEq, Repr

/-- A stream context (Table 5-6) with its workspace. -/
structure Stream where
  seq : Nat
  handle : Nat
  tag : Nat
  epoch : Nat
  llen : Nat
  qcount : Nat
  qheads : Nat
  layer : Nat
  byte9 : Nat
  byte14 : Nat
  byte15 : Nat
  cstate : StreamState
  part : Nat
  qpos : Nat
  maskarg : Nat
  scale : W32
  capval : W32
  selparam : W32
  rkey : Nat
  roff : Nat
  imm : Nat
  conduit : Nat
  msgseq : Nat
  /-- GLB_USEC at which it times out. -/
  deadline : Nat
  batch : Option Nat
  entry : Nat
  def0 : Nat
  def1 : Nat
  /-- SMODE it runs under (R137): 0 EXACT, 1 BOUNDED, 2 TOPK. -/
  smode : Nat
  keyWidth : Nat
  owidth : Nat
  slopes : List W32
  rows : List (List Byte)
  /-- Decoded weight blocks of the stream's layer, by block number (R156). -/
  slices : Tbl (List Byte)
  /-- The workspace and merge area, once had (R108, R116), by block of the pool. -/
  workAt : Option Nat
  /-- Units as listed at admission, how many of them are in the windows split so far, and those of the current window. -/
  scanned : List PageUnit
  taken : Nat
  units : List PageUnit
  items : List WorkItem
  recs : Tbl Rec
  subs : List SubQuery
  subgens : Tbl Nat
  /-- Rerun generation (R117). -/
  gen : Nat
  lender : Option LenderWork
  /-- The work request that fired it, if any (R290). -/
  byWr : Option Nat
  /-- The region entry its result is admitted to (R120). -/
  region : Option Nat
  status : Nat
  deriving DecidableEq, Repr

/-- An entry of an admitted BATCH_QUERY (R90). -/
structure BatchEntry where
  handle : Nat
  qpos : Nat
  qcount : Nat
  stream : Option Nat
  status : Option Nat
  body : List Byte
  deriving DecidableEq, Repr

/-- An admitted BATCH_QUERY, by the number it was given. -/
structure Batch where
  conduit : Nat
  msgseq : Nat
  part : Nat
  header : List Byte
  rest : List Byte
  /-- The definition of its class, once an entry has passed step 2 of R89 (R91), and the o width. -/
  cls : Option (Nat × Nat)
  owidth : Nat
  entries : List BatchEntry
  rkey : Nat
  region : Option Nat
  byWr : Option Nat
  delivering : Bool
  deriving DecidableEq, Repr

/-- A record waiting at the merge units (R116). -/
structure MergeItem where
  stream : Nat
  gen : Nat
  r : Rec
  /-- The SUBQUERY slot of a block, whose credit goes with its last record. -/
  sub : Option Nat
  /-- A member's answer merged at a relay (R126). -/
  relay : Bool
  deriving DecidableEq, Repr

/-- A member's answer or own partial waiting at a lender for its GRANT is the PARTIAL in its queue (R125). -/
structure Ae where
  streams : Tbl Stream
  batches : Tbl Batch
  nextBatch : Nat
  /-- Engine queues: (stream, item) running and waiting. -/
  running : Tbl (Nat × Nat)
  queues : Tbl (List (Nat × Nat))
  /-- Items waiting in the dispatcher, in order (R103). -/
  waiting : List (Nat × Nat)
  mergeQ : List MergeItem
  /-- Blocks of 4 KiB in use: of the stream pool by number in PCACHE, of the spill area from 2^40 on (R100). -/
  poolUsed : Tbl Nat
  /-- GLB_MTIME at which the running item of an engine began. -/
  busySince : Tbl Nat
  /-- Engines waiting on the LOCK of a page: engine to descriptor and the GLB_MTIME since (R109, R212). -/
  lockWait : Tbl (Nat × Nat)
  deriving DecidableEq, Repr

/-! ## Tiers (chapter 9) -/

/-- A leap in progress (R175). -/
structure Leap where
  desc : Nat
  src : Loc
  dst : Tier
  /-- The destination frame once it is had. -/
  target : Option Loc
  epoch : Nat
  /-- From a landing frame (R180 step 3). -/
  fromLanding : Bool
  /-- The content, once it has been read. -/
  content : Option (List Byte)
  /-- The source answered with a failure. -/
  bad : Bool
  /-- The lender and extent of a leap to LENT. -/
  ext : Option Nat
  prefetch : Bool
  /-- The bin of which a page is demoted in its place (R170). -/
  inPlace : Option Nat
  serial : Nat
  deriving DecidableEq, Repr

/-- What a fault's landing wakes: a work item, or an operation's copy. -/
inductive Waiter where
  | item (stream : Nat)
  | op (id : Nat)
  | custody (handle : Nat)
  deriving DecidableEq, Repr

/-- A fault on a page (R180); `landing` is its landing frame once issued. -/
structure PageFault where
  desc : Nat
  loc : Loc
  issued : Bool
  landing : Option Nat
  waiters : List Waiter
  /-- The copy has come from a lender, with its status. -/
  answer : Option (Nat × List Byte)
  /-- GLB_MTIME at which it was issued. -/
  issuedAt : Nat
  deriving DecidableEq, Repr

/-- ESTATE of an extent. -/
inductive ExtState where
  | free | offered | active | recalling | returning
  deriving DecidableEq, Repr

/-- An extent lent out or borrowed (R184-R189). -/
structure Extent where
  estate : ExtState
  node : Nat
  part : Nat
  base : Nat
  /-- Lender: frames in use, in 2 KiB units, by first unit. -/
  frames : Tbl Nat
  /-- Lender: the µs of its recall deadline, and whether it was found late. -/
  deadline : Option Nat
  late : Bool
  conduit : Nat
  /-- Borrower: it was inherited by REASSIGN (R187). -/
  inherited : Bool
  /-- Lender: the epoch at which the borrower was lost (R189). -/
  lostEpoch : Option Nat
  /-- Lender: the RETURN has come (R186 step 4). -/
  returned : Bool
  deriving DecidableEq, Repr

/-- A prefetch waiting (R182). -/
structure Prefetch where
  desc : Nat
  deriving DecidableEq, Repr

/-- A page restoration in progress (R48). -/
structure Restore where
  desc : Nat
  /-- The FETCH has been sent. -/
  asked : Bool
  deriving DecidableEq, Repr

/-- The TIER block beside its registers. -/
structure TierBlock where
  /-- Frames in use in tier 2, by first 2 KiB unit: length in units. -/
  hbmUsed : Tbl Nat
  /-- Frames in use in tier 1, by first 2 KiB unit, landing frames included. -/
  pcUsed : Tbl Nat
  /-- Those that are landing frames. -/
  landing : List Nat
  /-- Released PCACHE blocks of 4 KiB not yet zeroed, with the engine that last wrote each, 80 for another unit (R369). -/
  pcDirty : List (Nat × Nat)
  /-- Bytes charged: partition * 4 + tier (Table 9-2). -/
  usage : Tbl Nat
  /-- Digests, by address in 16-byte units: length in them; and the 2 MiB chunks they lie in, by first unit (R135). -/
  digests : Tbl Nat
  digestChunks : List Nat
  leaps : List Leap
  faults : List PageFault
  prefetch : List Prefetch
  restores : List Restore
  assemblies : List Assembly
  lent : Tbl Extent
  borrowed : Tbl Extent
  lendTurn : Nat
  /-- Candidate lists of the last sweep (R168). -/
  candidates : Tbl (List Nat)
  histograms : Tbl Nat
  /-- The sweep running: pieces still to sweep, as (gecko, base); what it has gathered. -/
  sweepLeft : List Nat
  sweepAt : Nat
  sweeping : Bool
  gathered : List (Nat × Nat)
  /-- A PIN waiting for its promotions: sequence, epoch. -/
  pinning : Option Nat
  /-- Free tier-2 has fallen below LOW_MIB and not yet reached HIGH_MIB again (R172). -/
  pressure : Bool
  /-- Promotions an increment has made due, and pages that leave PCACHE since the last sweep: page and destination (R173). -/
  due : List (Nat × Tier)
  /-- Demotions in place of promotions made above a soft quota: partition, tier, bin (R170). -/
  owed : List (Nat × Nat × Nat)
  /-- The serial number of the next leap. -/
  nextLeap : Nat
  /-- TIER_CTL.DECAY_MS as the running interval took it (Table 9-10). -/
  decay : Nat
  /-- Output areas of the running sweep: piece to frame (R214). -/
  sweepOut : Tbl Nat
  /-- Contents of tadpoles and mirror pages that came from the twin and found no frame in HBM: they return when one is free (R46,
  R48). -/
  unplaced : Tbl (List Byte)
  deriving DecidableEq, Repr

/-! ## HBM and geckos (chapter 10) -/

/-- GK_STATUS.STATE. -/
inductive GeckoState where
  | stopped | running | waiting | stalled | halted
  deriving DecidableEq, Repr

/-- A gecko (R200, R201) beside its registers on the main die. -/
structure Gecko where
  regs : Vector W32 16
  vregs : Vector (BitVec 256) 8
  pc : BitVec 11
  /-- The micro-program store; an unlisted word is 0. -/
  store : Tbl W32
  scratch : Tbl Byte
  /-- The command area: eight slots of 32 bytes. -/
  cmd : Tbl Byte
  state : GeckoState
  /-- Slots rung and not yet taken, slots taken and not ended, slots ever rung (R206). -/
  rung : List Nat
  busy : List Nat
  everRung : List Nat
  ue : Bool
  unbounded : Bool
  cycles : W32
  /-- Ring messages held: sender and data (R210). -/
  inbox : List (Nat × BitVec 256)
  /-- GLB_MTIME at which the running job was taken, moved on by the time it has stalled since (R208). -/
  since : Nat
  /-- What is left, in 10 ns, of a stall for a refresh or a retraining (R198, R199). -/
  stallLeft : Nat
  deriving DecidableEq, Repr

/-- Types of a lock table entry (R211). -/
inductive LockKind where
  | lock | win | atom
  deriving DecidableEq, Repr

/-- An entry of a channel's lock table: a range of channel data addresses. -/
structure LockEntry where
  start : Nat
  len : Nat
  kind : LockKind
  slot : Nat
  deriving DecidableEq, Repr

/-- Who issued a gecko job and what for. -/
inductive JobUse where
  /-- The digest of a page at a digest address (R52 step 4). -/
  | digest (desc at_ part : Nat)
  /-- A fork or truncate copy (R55, R58). -/
  | copy (dst : Nat)
  /-- Compaction of a page to a new frame. -/
  | compact (desc dst : Nat)
  /-- Zeroing of a reclaimed frame (R61). -/
  | zero (frame units : Nat) (desc : Option Nat)
  /-- Zeroing of a returned lent frame (R185). -/
  | zeroLent (ext frame : Nat)
  | scrub (desc : Option Nat)
  | sweep (piece : Nat)
  /-- A firmware job. -/
  | user
  deriving DecidableEq, Repr

/-- A job of the main die for a gecko: waiting in its issuer, then in a slot (R206, R211). -/
structure GkJob where
  chan : Nat
  code : Nat
  param : Nat
  arg0 : Nat
  arg1 : Nat
  arg2 : Nat
  use : JobUse
  /-- LOCK, WIN and ATOM ranges it needs. -/
  entries : List LockEntry
  /-- The page it locks. -/
  locks : Option Nat
  slot : Option Nat
  epoch : Nat
  deriving DecidableEq, Repr

/-- A core's read of tier 2 held on a LOCK range (R212): its bytes, what it finds in error, and the GLB_MTIME since. -/
structure HeldRead where
  addr : Nat
  len : Nat
  errs : Errs
  since : Nat
  deriving DecidableEq, Repr

structure HbmBlock where
  geckos : Tbl Gecko
  locks : Tbl (List LockEntry)
  jobs : List GkJob
  trained : List Nat
  worn : List Nat
  /-- Channels being retired, and retired (R338). -/
  retiring : List Nat
  retired : List Nat
  failed : List Nat
  /-- Channels that retrain next, per stack, and when the last one did (R199). -/
  retrain : Tbl Nat
  retrainAt : Tbl Nat
  /-- Scrub pass positions per channel, and when the last job was issued (R215). -/
  scrubPos : Tbl Nat
  scrubAt : Tbl Nat
  /-- Pages leaping down out of PCACHE to be scrubbed (R179). -/
  scrubDue : List Nat
  /-- Reads held, by core (R212, R393). -/
  held : Tbl HeldRead
  deriving DecidableEq, Repr

/-! ## Security (chapter 17) -/

/-- A fuse command that runs (R380). -/
inductive FuseCmd where
  | program (slot : Nat) (hash : List Byte)
  | revoke (slot : Nat)
  | svn
  deriving DecidableEq, Repr

/-- The SEC beside its registers. -/
structure Sec where
  /-- Conduit key slots: 32 bytes, and the partition each is bound to (R376). -/
  keys : Tbl (List Byte)
  keyPart : Tbl Nat
  /-- XTS keys: 0 to 15 a partition, 16 the system key (R376). -/
  xts : Tbl (List Byte)
  /-- The device secret (R377), the identity key and the certificate stand in Config. MEAS0-MEAS7 (R383). -/
  meas : Tbl (List Byte)
  /-- Molts queued: engine and captured mask; the one running (R374). -/
  molts : Tbl Nat
  molting : Option (Nat × Nat)
  /-- A signature being made: buffer, and its bytes; true for a quote (R384, R385). -/
  signing : Option (Nat × List Byte × Bool)
  /-- One has completed since the last GO (source 36). -/
  signed : Bool
  /-- Key-hash slots (R379), and the fuse command that runs. -/
  hashes : Tbl (List Byte)
  fusing : Option FuseCmd
  /-- SEC_KEY_DATA0-3, which read as zero. -/
  keyData : Tbl Nat
  deriving DecidableEq, Repr

/-! ## Remote memory operations (chapter 13) -/

/-- A region entry (Table 13-2). -/
structure Region where
  base : Nat
  len : Nat
  /-- 0 FREE, 1 VALID, 2 REVOKING. -/
  rstate : Nat
  remote : Bool
  rd : Bool
  wr : Bool
  imm : Bool
  ctren : Bool
  cqen : Bool
  gen : Nat
  conduit : Nat
  peerKey : Nat
  ctr : Nat
  cq : Nat
  part : Nat
  inflight : Nat
  /-- The µs at which it was last freed (R275). -/
  freedAt : Option Nat
  deriving DecidableEq, Repr

/-- A completion queue beside its registers (R285, R286). -/
structure CqState where
  reserved : Nat
  /-- Entries of a REMOTE ring written and not sent: index and 16 bytes. -/
  unsent : List (Nat × List Byte)
  /-- GLB_MTIME at which the oldest unsent entry was written. -/
  oldestAt : Nat
  deriving DecidableEq, Repr

/-- A work request in the pool (Table 13-6). -/
structure WorkReq where
  id : Nat
  bytes : List Byte
  conduit : Nat
  ctr : Nat
  /-- The µs at which it fired; none while it waits. -/
  firedAt : Option Nat
  /-- Regions it holds until delivery (R295). -/
  holds : List Nat
  /-- Admission answered BUSY at this GLB_USEC, and this copy of the request is tried again (R291). -/
  retry : Option (List Byte × Nat)
  /-- A completion queue entry is reserved for it. -/
  reserved : Bool
  deriving DecidableEq, Repr

/-- The RMO beside its registers. -/
structure Rmo where
  regions : Tbl Region
  cqs : Tbl CqState
  wrs : List WorkReq
  nextWr : Nat
  deriving DecidableEq, Repr
/-! ## Flash (chapter 11) -/

/-- An entry of the map that is not UNMAPPED (R222). -/
inductive UnitEntry where
  | allocated
  | lost
  /-- Written at a physical unit address (Table 11-3). -/
  | at_ (pua : Nat)
  deriving DecidableEq, Repr

/-- A logical unit: its map entry and its occupancy (R222). -/
structure LUnit where
  entry : UnitEntry
  occ : Nat
  deriving DecidableEq, Repr

/-- A programmed physical unit: its header (Table 11-4), the key it was encrypted under and its plain content. -/
structure PUnit where
  lunit : Nat
  sb : Nat
  wseq : Nat
  key : Nat
  keyVal : List Byte
  content : List Byte
  deriving DecidableEq, Repr

/-- What a unit is written for, so that its user is told of the commit (R226). -/
inductive FltUse where
  /-- FLT_CMD (Table 11-13). -/
  | firmware
  /-- A user that asked by UNIT_WRITE. -/
  | user
  /-- Demoted pages: descriptor and slot (R183). -/
  | demote (pages : List (Nat × Nat))
  /-- Mirror pages of the peer: descriptor and slot (R319). -/
  | mirror (pages : List (Nat × Nat))
  /-- Part of the cold image of a sequence (R43). -/
  | image (seq : Nat)
  /-- A move of collection or folding (R234). -/
  | move
  deriving DecidableEq, Repr

/-- Write streams (chapter 11): 0 SYS, 1 BUFFER, 2 NATIVE, 3 MIRROR, 4 GC. A unit being written. -/
structure FltWrite where
  lunit : Nat
  slots : Nat
  key : Nat
  keyVal : List Byte
  content : List Byte
  use : FltUse
  strm : Nat
  /-- Where it is programmed, once it has a place, and the JSEQ of its record. -/
  pua : Option Nat
  jseq : Nat
  /-- The source of a MOVE. -/
  old : Option Nat
  deriving DecidableEq, Repr

/-- A read of a unit that is outstanding, or answered with a status and the content. -/
structure FltRead where
  lunit : Nat
  /-- Asked by FLT_CMD READ. -/
  cmd : Bool
  answer : Option (Nat × List Byte)
  deriving DecidableEq, Repr

/-- States of a superblock. -/
inductive SbState where
  | free | erasing | open_ | closed
  deriving DecidableEq, Repr

/-- A superblock that has been opened since the format (R220). -/
structure SuperBlock where
  sbState : SbState
  slc : Bool
  strm : Nat
  /-- Units programmed, parity aside. -/
  filled : Nat
  /-- Channels whose member has retired with no spare left. -/
  gone : List Nat
  /-- Members replaced by a spare: channel to block index. -/
  swapped : Tbl Nat
  /-- Order in which it was opened, and last erased. -/
  openedAt : Nat
  /-- First in line for collection (R229, R230, R237). -/
  first : Bool
  deriving DecidableEq, Repr

/-- A journal record, its JSEQ aside (Table 11-6). `none` is PAD; it also stands for a record whose unit was never programmed. -/
inductive JEffect where
  | none
  | map (lunit pua count : Nat)
  | trim (lunit n : Nat)
  | slots (lunit count : Nat)
  | move (lunit old new : Nat)
  /-- A block retired, UPAGE 0. -/
  | retire (pua : Nat)
  /-- The copy of a segment, by its first unit. -/
  | ckpt (segment pua : Nat)
  deriving DecidableEq, Repr

/-- The FLT beside its registers. -/
structure Flt where
  /-- The map and the occupancy table; an unlisted unit is UNMAPPED. -/
  map : Tbl LUnit
  /-- The map as the newest checkpoint of each segment holds it, and the JSEQ of that checkpoint (R232). -/
  ckpt : Tbl LUnit
  segAt : Tbl Nat
  phys : Tbl PUnit
  sbs : Tbl SuperBlock
  writes : List FltWrite
  reads : List FltRead
  /-- The next JSEQ, records of the open journal unit with their effects, and the time of the first. -/
  jseq : Nat
  jopen : List (Nat × JEffect)
  jopenAt : Nat
  /-- Records committed: all below this. -/
  jdone : Nat
  /-- Journal units since the oldest live checkpoint, and the segment saved next (R232). -/
  jtail : List (List (Nat × JEffect))
  segment : Nat
  /-- Spares used, by channel * 32 + CE * 4 + LUN. -/
  spares : Tbl Nat
  /-- Failed LUNs: channel * 32 + CE * 4 + LUN (R230). -/
  lunFail : List Nat
  /-- Recent step-4 reads, LUN and µs, and failures in a row, by LUN (R230). -/
  rebuilds : List (Nat × Nat)
  failsRow : Tbl Nat
  /-- Blocks retired for good, by bits 31:10 of their unit addresses. -/
  retired : List Nat
  /-- Blocks left out of the superblocks and spares by the last format: those then bad or retired (R220). -/
  excluded : List Nat
  /-- Erases of a block in native and in SLC mode, by bits 31:10 of its unit address (R220). -/
  erases : Tbl (Nat × Nat)
  /-- The rate each trained channel runs at, in MT/s; the others run SDR timing mode 0 (R217). -/
  rates : Tbl Nat
  /-- B of R225 in GB, as last computed. -/
  slcB : Nat
  /-- Journal units programmed so far: number n lies on channels n mod 8 and n mod 8 + 8 (R231). -/
  junits : Nat
  /-- Superblocks opened so far. -/
  opens : Nat
  /-- Outcome of the last operation of a user: status and units. -/
  result : Nat
  given : List Nat
  /-- Power-fail steps are running (R239). -/
  stopped : Bool
  /-- The value FORMAT drew for the system key, in the anchor record (R377). -/
  anchor : List Byte
  /-- When the last temperature was read (R241), and when a native block of a stream was last programmed (R226). -/
  tempAt : Nat
  strmAt : Tbl Nat
  /-- Segment copies whose CKPT record has not committed: segment, JSEQ of the record, the copy (R232). -/
  ckpts : List (Nat × Nat × Tbl LUnit)
  /-- The buffer of the FLT_CMD that runs, and the content of the last unit a user read. -/
  cmdAddr : Nat
  readBack : List Byte
  deriving DecidableEq, Repr

/-! ## The expander (chapter 8) -/

/-- A tile's blocks asked of the WXP (R156): the stream, its rerun generation, the tile, the blocks not yet taken by a lane. -/
structure TileReq where
  serial : Nat
  /-- Partition * 8 + image index. -/
  image : Nat
  stream : Nat
  gen : Nat
  item : Nat
  tile : Nat
  todo : List Nat
  deriving DecidableEq, Repr

/-- The WXP beside its registers. Images are numbered partition * 8 + index. -/
structure Wxp where
  reqs : List TileReq
  /-- Lanes that decode: lane to request and block. -/
  lanes : Tbl (TileReq × Nat)
  /-- Images LOADING, and RESTORING with the block. -/
  loads : List Nat
  restores : Tbl Nat
  /-- Images UNLOADING, with the epoch captured (R159). -/
  unloads : Tbl Nat
  /-- The copy that runs: source, destination, bytes (R162). -/
  copy : Option (Nat × Nat × Nat)
  /-- The serial number of the next request. -/
  nextReq : Nat
  /-- The areas of tier 2 an image holds: first unit and length (R158). -/
  areas : Tbl (List (Nat × Nat))
  deriving DecidableEq, Repr

/-! ## Control, start-up and supply (chapters 18, 19, 21) -/

/-- Why reset is held: PORST_N or the internal power-on reset (R411, R412), the power-fail protocol (R429), the thermal trip
(R458). -/
inductive Hold where
  | none | porst | powerFail | thermtrip
  deriving DecidableEq, Repr

/-- What is left of start-up and supply handling beside the registers. -/
structure Glb where
  hold : Hold
  /-- Start-up status code (Table 19-7), also I²C register 0x00; the codes written on the UART. -/
  status : Nat
  uart : List Byte
  /-- Start-up has stopped with the code held. -/
  stopped : Bool
  /-- The image running was accepted (R379); its accepting slot stands in SEC_STATUS. -/
  accepted : Bool
  /-- What the board's NOR held when it was last read; the NAND as it was found (R217, R218). -/
  nor : List Byte
  nand : Nand
  /-- FLASH_GEOM and the 48 firmware bytes of the NODE record (R418). -/
  geom : List Byte
  nodeBytes : List Byte
  /-- GLB_MTIME at which the shelter began (R428). -/
  shelterAt : Nat
  /-- Engines whose unit was in progress when it began (R427). -/
  finishing : List Nat
  /-- Flash units whose read was in flight when it began (R427). -/
  finishingReads : List Nat
  /-- Causes of a warm restart that waits for the shelter to end (R432). -/
  waiting : Option Nat
  /-- WRST_N came during the power-fail protocol (R432). -/
  pinSeen : Bool
  /-- THERMTRIP_N is asserted. -/
  thermtrip : Bool
  /-- Where each core was last released to run. -/
  coreAt : Tbl Nat
  /-- Cores that take a machine timer interrupt (R396). -/
  timerIrq : List Nat
  /-- GLB_MEMCFG stands as an accepted image has set it since the cold start (R14). -/
  sized : Bool
  deriving DecidableEq, Repr

/-- The IEEE 1149.1 port (R459). -/
structure Tap where
  /-- Instruction register. -/
  ir : Nat
  /-- What the data register captured last, least significant bit first. -/
  captured : List Bool
  /-- The update cells of the boundary register, and whether they drive the balls. -/
  boundary : List Bool
  driving : Bool
  deriving DecidableEq, Repr

/-! ## Management port and metering (chapter 20) -/

/-- The MGT beside its registers. -/
structure Mgt where
  /-- Usage: partition * 32 + quantity in the order of Table 20-3; engine time in 10 ns. -/
  usage : Tbl Nat
  /-- As of the last 1 ms boundary, and as of the last record of the partition. -/
  sampled : Tbl Nat
  recorded : Tbl Nat
  /-- GLB_USEC of the last boundary, and of the end of each partition's last record. -/
  sampleAt : Nat
  recordAt : Tbl Nat
  /-- Composition changes that wait for the next sample: COMP_ID and MAP_EPOCH (R437). -/
  comps : Tbl (Nat × Nat)
  /-- The scheduled point last served (R440). -/
  periodAt : Nat
  /-- Frames sent on the management port. -/
  out : List (List Byte)
  deriving DecidableEq, Repr

/-! ## The whole machine -/

/-- The state of the TLF-816. -/
structure State where
  /-- The commands that wait, first in, first out. -/
  pending : List Instr
  /-- Registers that differ from their reset value, by bank * 2^32 + address. -/
  csr : Tbl Word
  /-- Data of the last register read, and the access-fault lines of the control cores. -/
  rdata : Word
  accessFault : List Nat
  /-- GLB_MTIME, in 10 ns (R396). -/
  mtime : Nat
  /-- Reset is held: nothing acts (R412). -/
  inReset : Bool
  glb : Glb
  mgt : Mgt
  tap : Tap
  hbm : List Host.Cell
  pcache : List Host.Cell
  trl : Trl
  sch : Sch
  evc : Evc
  sec : Sec
  rmo : Rmo
  pgt : Pgt
  pdir : Pdir
  twn : Twn
  cust : Custody
  ae : Ae
  tier : TierBlock
  hb : HbmBlock
  flt : Flt
  wxp : Wxp
  /-- The next index of the free values of Config. -/
  free : Nat
  deriving DecidableEq, Repr

def Trl.reset : Trl := ⟨[], [], [], [], [], [], [], 0, [], 0, 0⟩
def Sch.reset : Sch := ⟨[], [], [], [], [], [], []⟩
/-- Slot 0 is programmed at manufacture (R379). -/
def Sec.reset : Sec := ⟨[], [], [], [], [], none, none, false, [(0, Config.fusedHash)], none, []⟩
def Glb.reset : Glb := ⟨.none, 0, [], false, false, [], ⟨0, [], [], []⟩, [], [], 0, [], [], none, false, false, [], [], false⟩
def Tap.reset : Tap := ⟨1, [], List.replicate 846 false, false⟩
def Mgt.reset : Mgt := ⟨[], [], [], 0, [], [], 0, []⟩
def Rmo.reset : Rmo := ⟨[], [], [], 1⟩
def Evc.reset : Evc := ⟨[], [], 0, false⟩
def Pgt.reset : Pgt := ⟨[], [], [], [], [], [], 0, 0, [], 1, [], [], [], []⟩
def Pdir.reset : Pdir := ⟨[], 0, [], 0, 50, 0⟩
def Custody.reset : Custody := ⟨[], [], [], [], 1, [], [], [], [], []⟩
def Ae.reset : Ae := ⟨[], [], 1, [], [], [], [], [], [], []⟩
def Wxp.reset : Wxp := ⟨[], [], [], [], [], none, 0, []⟩
def TierBlock.reset : TierBlock :=
  ⟨[], [], [], [], [], [], [], [], [], [], [], [], [], [], 0, [], [], [], 0, false, [], none, false, [], [], 0, 250, [], []⟩
def HbmBlock.reset : HbmBlock := ⟨[], [], [], [], [], [], [], [], [], [], [], [], [], []⟩

def Flt.reset : Flt :=
  ⟨[], [], [], [], [], [], [], 0, [], 0, 0, [], 0, [], [], [], [], [], [], [], [], 0, 0, 0, 0, [], false, [], 0, [], [], 0, []⟩

def Twn.reset : Twn where
  role := .down
  epoch := 0
  cseq := 0
  sentAt := []
  lastSent := 0
  peerCseq := 0
  heardAt := 0
  leaseUntil := none
  peerRole := .down
  peerHandoff := false
  peerHealth := 0
  peerDomain := 0
  suspect := false
  silentAt := none
  claim := none
  permitAt := none
  accuse := false
  handoff := false
  drained := false
  announcing := false
  regrow := []
  regrowAt := 0
  tabled := []
  witness := []
  governor := []
  windows := []
  xcount := 0
  xlog := []
  xnext := 0
  live := false
  forked := []
  orphans := []
  pairEpochs := []
  serving := []
  healthAt := 0
  hot := []
  hotParts := []
  joinFailed := false

/-- The machine right after reset (R414): every register at its Reset column, every table empty. -/
def State.reset : State where
  pending := []
  csr := []
  rdata := 0
  accessFault := []
  mtime := 0
  inReset := false
  glb := Glb.reset
  mgt := Mgt.reset
  tap := Tap.reset
  hbm := []
  pcache := []
  trl := Trl.reset
  sch := Sch.reset
  evc := Evc.reset
  sec := Sec.reset
  rmo := Rmo.reset
  pgt := Pgt.reset
  pdir := Pdir.reset
  twn := Twn.reset
  cust := Custody.reset
  ae := Ae.reset
  tier := TierBlock.reset
  hb := HbmBlock.reset
  flt := Flt.reset
  wxp := Wxp.reset
  free := 0

end Sys2Proof.Machine
end

