-- ==== Sys2Proof/Machine/Flags.lean ====
section
/-! DEFINITION. Register fields and status bits: reading and writing them by hardware and by software (R3-R7, R463). The
block has no flags of a processor's kind; this file holds the computations of its status fields. -/

namespace Sys2Proof.Machine

/-- The word a register holds; the key is bank * 2^32 + address (window registers have a bank per selection). -/
def State.reg (s : State) (a : Nat) : Nat := (tget (resetWord (a / 2 ^ 32) (a % 2 ^ 32)) s.csr a).toNat

/-- The register set by hardware. -/
def State.setReg (s : State) (a v : Nat) : State :=
  { s with csr := tput (resetWord (a / 2 ^ 32) (a % 2 ^ 32)) s.csr a (BitVec.ofNat 64 v) }

/-- A field. -/
def State.fd (s : State) (f : Fd) : Nat := bits (s.reg f.addr) f.hi f.lo

/-- A one-bit field as a Bool. -/
def State.flag (s : State) (f : Fd) : Bool := s.fd f == 1

/-- A field set by hardware. -/
def State.setFd (s : State) (f : Fd) (v : Nat) : State := s.setReg f.addr (setBits (s.reg f.addr) f.hi f.lo v)

/-- A status bit set by hardware. -/
def State.raise (s : State) (f : Fd) : State := s.setFd f 1

/-- A counter advanced by n; it holds at its maximum (R7). -/
def State.count (s : State) (f : Fd) (n : Nat) : State := s.setFd f (min (s.fd f + n) (2 ^ (f.hi + 1 - f.lo) - 1))

/-- A counter advanced by one. -/
def State.inc (s : State) (f : Fd) : State := s.count f 1

/-- The same field in the bank of a window (a register behind a selection). -/
def Fd.at (f : Fd) (bank : Nat) : Fd := { f with addr := bank * 2 ^ 32 + f.addr }

/-- The value a store leaves in a field (R463). DESIGN CHOICE: the ignored low bits of AE_STREAM_BASE.OFFSET and
PDIR_SHADOW_BASE.ADDR read back as 0 (notes/assumptions/61.md). -/
def Treat.apply (t : Treat) (v : Nat) : Nat :=
  match t with
  | .plain => v
  | .zeroAs n => if v = 0 then n else v
  | .clamp lo hi => max lo (min v hi)
  | .threeAsTwo => if v % 4 = 3 then 2 else v
  | .pairsThreeAsTwo => (List.range 32).foldl (fun acc i => if bits acc (2 * i + 1) (2 * i) = 3
      then setBits acc (2 * i + 1) (2 * i) 2 else acc) v
  | .lowIgnored n => v - v % 2 ^ n
  | .oneOf l => if l.contains v then v else 0

/-- What a store of `v` leaves of a register that holds `old` (Table 0-2): RW takes the value, W1C clears the bits written
as 1, RO and RC ignore it, WO keeps nothing. Bits of no field are reserved and stay zero (R5). -/
def RegField.store (old v : Nat) (f : RegField) : Nat :=
  let o := bits old f.hi f.lo
  let n := bits v f.hi f.lo
  match f.acc with
  | .rw => (f.treat.apply n % 2 ^ (f.hi + 1 - f.lo)) <<< f.lo
  | .mb => n <<< f.lo
  | .w1c => (o - (o &&& n)) <<< f.lo
  | .ro => o <<< f.lo
  | .rc => o <<< f.lo
  | .wo => 0

/-- What a store of `v` leaves of a whole register. -/
def RegDef.store (r : RegDef) (old v : Nat) : Nat := (r.fields.map (RegField.store old v)).foldl (· + ·) 0

/-- What a load returns of a word that holds `w`: fields that are not write-only. -/
def RegDef.load (r : RegDef) (w : Nat) : Nat :=
  (r.fields.map (fun f => if f.acc = .wo then 0 else bits w f.hi f.lo <<< f.lo)).foldl (· + ·) 0

/-- What a load leaves: RC fields read as zero next (Table 0-2). -/
def RegDef.afterLoad (r : RegDef) (w : Nat) : Nat :=
  (r.fields.map (fun f => if f.acc = .rc then 0 else bits w f.hi f.lo <<< f.lo)).foldl (· + ·) 0

/-- A store by software to the fields of a register, by their access codes alone. -/
def State.storeFields (s : State) (bank a v : Nat) : State :=
  match regAt a with
  | none => s
  | some r => s.setReg (bank * 2 ^ 32 + a) (r.store (s.reg (bank * 2 ^ 32 + a)) v)

/-- Time in µs (GLB_USEC, R396). -/
def State.usec (s : State) : Nat := s.mtime / 100

/-- Time in ns (GLB_MTIME counts 10 ns). -/
def State.nsec (s : State) : Nat := s.mtime * 10

/-- The end of a command that began in `s`: the queue is not its concern, and memory is in its canonical form. -/
def State.commit (s t : State) : State :=
  { t with pending := s.pending, hbm := canon 0 t.hbm, pcache := canon 0 t.pcache }

/-- A command that acts also where reset is held. -/
def actAlways (s : State) (f : State → State) : Host.Outcome State Fault Refusal := .next (s.commit (f s))

/-- A command's act: where reset is held nothing acts (R412). -/
def act (s : State) (f : State → State) : Host.Outcome State Fault Refusal :=
  if s.inReset then .next s else actAlways s f

/-- An act under a condition; where it does not hold the command finds nothing to do. -/
def actIf (s : State) (c : Bool) (f : State → State) : Host.Outcome State Fault Refusal :=
  act s (fun s => if c then f s else s)

end Sys2Proof.Machine
end

