-- ==== Sys2Proof/Machine/Operands.lean ====
section
/-! DEFINITION. The forms operands take: little-endian structures in payloads and memory (R8), network byte order in
headers (R9), CRCs and the internet checksum. -/

namespace Sys2Proof.Machine

/-- Number `v` as n bytes, little-endian (R8). -/
def le : Nat → Nat → List Byte
  | 0, _ => []
  | n + 1, v => BitVec.ofNat 8 v :: le n (v / 256)

/-- The number little-endian bytes spell. -/
def unle : List Byte → Nat
  | [] => 0
  | b :: l => b.toNat + 256 * unle l

/-- Number `v` as n bytes, most significant first (R9). -/
def be (n v : Nat) : List Byte := (le n v).reverse

/-- The number big-endian bytes spell. -/
def unbe (l : List Byte) : Nat := unle l.reverse

/-- n bytes of a structure from offset `off`; bytes past its end read 0. -/
def slice (p : List Byte) (off n : Nat) : List Byte :=
  let t := (p.drop off).take n
  t ++ List.replicate (n - t.length) 0

/-- The little-endian field of n bytes at `off`. -/
def lat (p : List Byte) (off n : Nat) : Nat := unle (slice p off n)

/-- The big-endian field of n bytes at `off`. -/
def bat (p : List Byte) (off n : Nat) : Nat := unbe (slice p off n)

/-- Whether n bytes from `off` are all zero, as a reserved field is sent. -/
def zeroAt (p : List Byte) (off n : Nat) : Bool := lat p off n == 0

/-- n zero bytes. -/
def zeros (n : Nat) : List Byte := List.replicate n 0

/-- Elements of n bytes each, in order. -/
def cut (n : Nat) : Nat → List Byte → List (List Byte)
  | 0, _ => []
  | k + 1, l => l.take n :: cut n k (l.drop n)

/-- One bit step of a reflected CRC. -/
def crcStepR (poly w : Nat) : Nat := if w % 2 = 1 then (w / 2) ^^^ poly else w / 2

/-- One byte of a reflected CRC. -/
def crcByteR (poly w : Nat) (b : Byte) : Nat :=
  let w := w ^^^ b.toNat
  crcStepR poly <| crcStepR poly <| crcStepR poly <| crcStepR poly <|
  crcStepR poly <| crcStepR poly <| crcStepR poly <| crcStepR poly w

/-- CRC-32C over bytes from a running context (R53): no inversion. -/
def crc32cFrom (ctx : Nat) (l : List Byte) : Nat := l.foldl (crcByteR 0x82F63B78) ctx

/-- CRC-32C of a byte string: all-ones start, inverted result. -/
def crc32c (l : List Byte) : Nat := crc32cFrom 0xFFFFFFFF l ^^^ 0xFFFFFFFF

/-- The frame check sequence of IEEE 802.3. -/
def fcs (l : List Byte) : Nat := l.foldl (crcByteR 0xEDB88320) 0xFFFFFFFF ^^^ 0xFFFFFFFF

/-- One bit step of CRC-64/ECMA-182. -/
def crcStep64 (w : Nat) : Nat :=
  if w / 2 ^ 63 = 1 then (w * 2 % 2 ^ 64) ^^^ 0x42F0E1EBA9EA3693 else w * 2 % 2 ^ 64

/-- One byte of CRC-64/ECMA-182. -/
def crcByte64 (w : Nat) (b : Byte) : Nat :=
  let w := w ^^^ (b.toNat * 2 ^ 56)
  crcStep64 <| crcStep64 <| crcStep64 <| crcStep64 <| crcStep64 <| crcStep64 <| crcStep64 <| crcStep64 w

/-- CRC-64/ECMA-182 from a running context. -/
def crc64From (ctx : Nat) (l : List Byte) : Nat := l.foldl crcByte64 ctx

/-- The ones' complement sum of 16-bit words. -/
def sum16 : List Byte → Nat
  | [] => 0
  | [a] => a.toNat * 256
  | a :: b :: l => a.toNat * 256 + b.toNat + sum16 l

/-- A sum folded to 16 bits. -/
def fold16 (n : Nat) : Nat :=
  let n := n % 65536 + n / 65536
  let n := n % 65536 + n / 65536
  n % 65536 + n / 65536

/-- The internet checksum of a byte string. -/
def inetSum (l : List Byte) : Nat := 65535 - fold16 (sum16 l)

/-- a is before b by serial arithmetic modulo 2^n. -/
def serialLt (n a b : Nat) : Bool :=
  let d := (b + 2 ^ n - a % 2 ^ n) % 2 ^ n
  d != 0 && d < 2 ^ (n - 1)

/-- The distance from a to b modulo 2^n. -/
def serialDist (n a b : Nat) : Nat := (b + 2 ^ n - a % 2 ^ n) % 2 ^ n

/-- The next message sequence number: modulo 2^32, skipping 0 (R254). -/
def seqNext (q : Nat) : Nat := if q + 1 ≥ 2 ^ 32 then 1 else q + 1

end Sys2Proof.Machine
end

