-- ==== Sys2Proof/Machine/Ops.lean ====
section
/-! DEFINITION. The shared operations over the machine: memory, free values, mailboxes and the queueing of messages. -/

namespace Sys2Proof.Machine

def State.onTrl (s : State) (f : Trl → Trl) : State := { s with trl := f s.trl }
def State.onSch (s : State) (f : Sch → Sch) : State := { s with sch := f s.sch }
def State.onEvc (s : State) (f : Evc → Evc) : State := { s with evc := f s.evc }
def State.onPgt (s : State) (f : Pgt → Pgt) : State := { s with pgt := f s.pgt }
def State.onPdir (s : State) (f : Pdir → Pdir) : State := { s with pdir := f s.pdir }
def State.onTwn (s : State) (f : Twn → Twn) : State := { s with twn := f s.twn }
def State.onCust (s : State) (f : Custody → Custody) : State := { s with cust := f s.cust }
def State.onAe (s : State) (f : Ae → Ae) : State := { s with ae := f s.ae }
def State.onTier (s : State) (f : TierBlock → TierBlock) : State := { s with tier := f s.tier }
def State.onRmo (s : State) (f : Rmo → Rmo) : State := { s with rmo := f s.rmo }
def State.onSec (s : State) (f : Sec → Sec) : State := { s with sec := f s.sec }
def State.onFlt (s : State) (f : Flt → Flt) : State := { s with flt := f s.flt }
def State.onWxp (s : State) (f : Wxp → Wxp) : State := { s with wxp := f s.wxp }
def State.onGlb (s : State) (f : Glb → Glb) : State := { s with glb := f s.glb }
def State.onMgt (s : State) (f : Mgt → Mgt) : State := { s with mgt := f s.mgt }
def State.onTap (s : State) (f : Tap → Tap) : State := { s with tap := f s.tap }
def State.onHb (s : State) (f : HbmBlock → HbmBlock) : State := { s with hb := f s.hb }

/-! ## Status codes (Table 12-6) -/

def stOK : Nat := 0x00
def stEMPTY : Nat := 0x01
def stALREADY : Nat := 0x02
def stREVOKED : Nat := 0x10
def stKEYINV : Nat := 0x11
def stBOUNDS : Nat := 0x12
def stQUOTA : Nat := 0x13
def stSTALEMAP : Nat := 0x14
def stNOTCUST : Nat := 0x15
def stBUSY : Nat := 0x16
def stPOISONED : Nat := 0x20
def stLOST : Nat := 0x21
def stABORTED : Nat := 0x22
def stTIMEOUT : Nat := 0x23
def stFORMAT : Nat := 0x30
def stOVERRUN : Nat := 0x31
def stUNDERRUN : Nat := 0x32

/-! ## Free values (notes/assumptions/2.md) -/

/-- The state after one free value is drawn. -/
def State.drawn (s : State) : State := { s with free := s.free + 1 }

/-- The object of a list the device picks: any of them. -/
def pickOf {α : Type} (s : State) (l : List α) : Option α := l[Config.pick s.free % l.length]?

/-! ## Memory (R8, R192) -/

/-- The byte at an address; a byte nothing has written reads 0. -/
def byteOf (m : List Host.Cell) (a : Nat) : Byte := tget 0 m a

/-- n bytes from an address. -/
def bytesOf (m : List Host.Cell) (a n : Nat) : List Byte := (List.range n).map (fun i => byteOf m (a + i))

/-- Bytes written from an address on. -/
def putBytes : List Host.Cell → Nat → List Byte → List Host.Cell
  | m, _, [] => m
  | m, a, b :: l => putBytes (tput 0 m a b) (a + 1) l

/-- Usable HBM (Table 1-3). -/
def hbmBytes : Nat := 496 * 2 ^ 30

/-- The page cache (Table 1-3). -/
def pcacheBytes : Nat := 192 * 2 ^ 20

/-- Bytes written at device address A (R192); bytes beyond the usable HBM are not written. -/
def State.hbmWrite (s : State) (a : Nat) (l : List Byte) : State :=
  { s with hbm := putBytes s.hbm a (l.take (hbmBytes - a)) }

def State.hbmRead (s : State) (a n : Nat) : List Byte := bytesOf s.hbm a n

def State.pcWrite (s : State) (a : Nat) (l : List Byte) : State :=
  { s with pcache := putBytes s.pcache a (l.take (pcacheBytes - a)) }

def State.pcRead (s : State) (a n : Nat) : List Byte := bytesOf s.pcache a n

/-- Size of the control-memory reservation and of the FTL map region (R14, R391). -/
def State.ctlBytes (s : State) : Nat := s.fd Fd.GLB_MEMCFG_CTL_GIB * 2 ^ 30
def State.tier2Base (s : State) : Nat := s.ctlBytes + s.fd Fd.GLB_MEMCFG_MAP_GIB * 2 ^ 30

/-- A range that holds no unit of `used` (start to length), `n` units long, aligned to `al`, within [lo, hi): the first
free one from `hint` on, then from `lo`. -/
def roomAt (used : Tbl Nat) (lo hi n al hint : Nat) : Option Nat :=
  let up := fun x => ceilDiv x al * al
  let ends := used.map (fun p => up (p.1 + p.2))
  let free := fun a => lo ≤ a && a + n ≤ hi && used.all (fun p => p.1 + p.2 ≤ a || a + n ≤ p.1)
  let h := up (lo + hint % (hi - lo + 1))
  let cands := h :: ends.filter (h ≤ ·) ++ up lo :: ends
  cands.find? free

/-- The gecko stalls: a refresh or a retraining holds it, or a full ring (R198, R199, R210). -/
def Gecko.stalls (g : Gecko) : Bool := g.stallLeft != 0 || g.state == .stalled

/-- 10 ns of a stalled gecko: they count towards no watchdog (R208), and on a full ring in GK_STALL_NS. -/
def State.stallTick (s : State) (k : Nat) (g : Gecko) : State :=
  let s := { s with hb := { s.hb with geckos := tset s.hb.geckos k { g with since := g.since + 1, stallLeft := g.stallLeft - 1 } } }
  if g.stallLeft = 0 then s.count (Fd.GK_STALL_NS_NS (k / 32) (k % 32)) 10 else s

/-- With no command waiting, 10 ns pass (R396; notes/assumptions/5.md). -/
def State.tick (s : State) : State :=
  if s.inReset then s else
  (s.hb.geckos.filter (fun e => e.2.stalls)).foldl (fun s e => s.stallTick e.1 e.2) { s with mtime := s.mtime + 1 }

/-! ## Lists -/

/-- The first element that satisfies p is removed. -/
def eraseFirst {α : Type} (p : α → Bool) : List α → List α
  | [] => []
  | x :: l => if p x then l else x :: eraseFirst p l

/-- The first element that satisfies p is changed. -/
def modFirst {α : Type} (p : α → Bool) (f : α → α) : List α → List α
  | [] => []
  | x :: l => if p x then f x :: l else x :: modFirst p f l

/-- Whether the first element satisfies p, if there is one. -/
def headIs {α : Type} (p : α → Bool) : List α → Bool
  | [] => false
  | x :: _ => p x

/-- A step repeated while it applies, at most n times. -/
def iter {α : Type} : Nat → (α → Option α) → α → α
  | 0, _, a => a
  | n + 1, f, a => match f a with
    | none => a
    | some b => iter n f b

/-! ## Mailboxes (R405-R407) -/

/-- The ring size of a mailbox. -/
def State.mbSize (s : State) (m : Nat) : Nat := 2 ^ s.fd (Fd.EVC_MB_CFG_LOG2SIZE m)

/-- The mailbox can take an entry. -/
def State.mbRoom (s : State) (m : Nat) : Bool :=
  s.flag (Fd.EVC_MB_CFG_ENABLE m) &&
  decide (serialDist 32 (s.fd (Fd.EVC_MB_IDX_CI m)) (s.fd (Fd.EVC_MB_IDX_PI m)) < s.mbSize m)

/-- An inbound entry written and PI advanced (R405, Table 18-4). -/
def State.mbPut (s : State) (m ty len addr : Nat) (body : List Byte) : State :=
  let pi := s.fd (Fd.EVC_MB_IDX_PI m)
  let ov := if s.evc.overflow.contains m then 0x80 else 0
  let e := le 2 ty ++ le 1 (m + ov) ++ le 1 0 ++ le 4 (len % 2 ^ 31) ++ le 8 s.usec ++ le 8 addr ++ slice body 0 40
  let s := s.hbmWrite (s.fd (Fd.EVC_MB_BASE_ADDR m) + pi % s.mbSize m * 64) e
  let s := s.setFd (Fd.EVC_MB_IDX_PI m) ((pi + 1) % 2 ^ 32)
  s.onEvc fun v => { v with overflow := v.overflow.filter (· != m) }

/-- A record for mailbox m, 2 to 5 (Table 18-3): dropped and counted where there is no room. -/
def State.mbRecord (s : State) (m ty : Nat) (body : List Byte) : State :=
  if s.mbRoom m then s.mbPut m ty 0 0 body
  else (s.inc Fd.EVC_MB_DROPS_COUNT).onEvc
    fun v => if v.overflow.contains m then v else { v with overflow := m :: v.overflow }

/-- An ENGINE_EVENT record (Table 18-5): the unit, its cause bit, and the stream it worked on. -/
def State.engineEvent (s : State) (unit_ cause stream unitNo handle tag : Nat) : State :=
  s.mbRecord 2 0x03 (le 1 unit_ ++ le 1 cause ++ le 2 stream ++ le 4 unitNo ++ le 8 handle ++ le 8 tag ++ zeros 16)

/-- A MEMORY_EVENT record: kind 0 uncorrectable, 1 halt, 2 watchdog. -/
def State.memoryEvent (s : State) (ch kind addr desc code : Nat) : State :=
  s.mbRecord 3 0x04 (le 1 (ch / 32) ++ le 1 (ch % 32) ++ le 1 kind ++ le 1 0 ++ le 4 addr ++ le 4 desc ++ le 1 code ++ zeros 27)

/-- A FLASH_EVENT record: the error class, the place and the unit. -/
def State.flashEvent (s : State) (cls pua lunit : Nat) : State :=
  s.mbRecord 4 0x05 (le 1 cls ++ zeros 3 ++ le 4 pua ++ le 4 lunit ++ zeros 28)

/-- The number of a role in records and registers. -/
def roleCode : Role → Nat
  | .down => 0 | .joining => 1 | .paired => 2 | .solo => 3 | .fenced => 4 | .regrowing => 5 | .mirrorBuild => 6

/-- Work may go on: the device is not in shelter or past a power-fail notice (R427, R429). -/
def State.awake (s : State) : Bool := s.fd Fd.GLB_PWR_STATE == 0

/-! ## Reports (R419, Table 19-7) -/

def hexDigit (n : Nat) : Byte := BitVec.ofNat 8 (if n < 10 then 0x30 + n else 0x37 + n)

/-- A status code, on the UART and in I²C register 0x00. -/
def State.report (s : State) (code : Nat) : State :=
  s.onGlb fun g => { g with status := code, uart := g.uart ++ [hexDigit (code / 16), hexDigit (code % 16)] ++ Config.lineEnd }

/-- Start-up stops with a code. -/
def State.stopAt (s : State) (code : Nat) : State := (s.report code).onGlb fun g => { g with stopped := true }


/-! ## Usage (R438) -/

/-- A usage quantity of a partition grows: 0 to 4 BYTE_MS, 5 engine time in 10 ns, 6 to 13 TX_BYTES, 14 to 21 RX_BYTES, 22
STREAMS. -/
def State.use (s : State) (part k n : Nat) : State :=
  let top := if k = 5 then (2 ^ 64 - 1) * 100 else 2 ^ 64 - 1
  { s with mgt := { s.mgt with usage := tput 0 s.mgt.usage (part * 32 + k) (min top (tget 0 s.mgt.usage (part * 32 + k) + n)) } }

/-! ## Conduits (chapter 12) -/

def State.node (s : State) : Nat := s.fd Fd.TRL_NODE_NODE

def State.conduit (s : State) (c : Nat) : Option ConduitState := tfind s.trl.conduits c

def State.modConduit (s : State) (c : Nat) (f : ConduitState → ConduitState) : State :=
  s.onTrl fun t => { t with conduits := tmod t.conduits c f }

/-- The partition of a conduit. -/
def State.partOf (s : State) (c : Nat) : Nat := ((s.conduit c).map (·.part)).getD 0

/-- The node at the far end of a conduit. -/
def State.peerOf (s : State) (c : Nat) : Nat := ((s.conduit c).map (·.peerNode)).getD 0

/-- The node that answers for a node: its twin once that has taken over (R330, R361). -/
def State.servedBy (s : State) (node : Nat) : Nat := tget node s.twn.serving node

/-- The conduit to a node, or to the one that serves for it, for a partition: the ACTIVE one of lowest index. -/
def State.conduitTo (s : State) (node part : Nat) : Option Nat :=
  (s.trl.conduits.find? (fun p => p.2.cstate == 1 && p.2.peerNode == s.servedBy node && p.2.part == part)).map Prod.fst

/-- Any ACTIVE conduit to a node, the lowest index. -/
def State.conduitToNode (s : State) (node : Nat) : Option Nat :=
  (s.trl.conduits.find? (fun p => p.2.cstate == 1 && p.2.peerNode == s.servedBy node)).map Prod.fst

/-- A FENCED member sends on the witness conduit only (R331). -/
def State.muted (s : State) (c : Nat) : Bool := s.twn.role == .fenced && c != s.fd Fd.TWN_WITNESS_CONDUIT

/-- Ports of the mode (Table 12-1) and lanes of each. -/
def State.portCount (s : State) : Nat :=
  match s.fd Fd.TRL_CTL_PORT_MODE with
  | 0 => 16 | 1 => 8 | 2 => 32 | _ => 64
def State.portLanes (s : State) : Nat := 64 / s.portCount

/-- MAC rate of a port in Gb/s (Table 12-1). -/
def State.portGbps (s : State) : Nat := 200 * s.portLanes

/-- The port node that serves a port (R243). -/
def State.portNode (s : State) (p : Nat) : Nat :=
  match s.fd Fd.TRL_CTL_PORT_MODE with
  | 0 => p | 1 => 2 * p | 2 => p / 2 | _ => p / 4

/-- The list of ports that are up, ascending (R245). -/
def State.upPorts (s : State) : List Nat := (List.range 64).filter (fun p => s.flag (Fd.TRL_PORT_STATUS_UP p))

/-- The path hash (R257). -/
def pathHash (cd : ConduitState) (q i r : Nat) : Nat :=
  if cd.multipath then crc32c (be 2 cd.peerConduit ++ be 4 q ++ be 4 i ++ be 2 r)
  else crc32c (be 2 cd.peerConduit ++ be 4 0 ++ be 4 0 ++ be 2 0)

/-- The egress of a segment queued now (R245). -/
def State.egressOf (s : State) (cd : ConduitState) (q i r : Nat) : Egress :=
  let l := s.upPorts
  match l[pathHash cd q i r % l.length]? with
  | none => .waiting
  | some p => .port p

/-- Segment size G (R256) and the number of segments of a message. -/
def ConduitState.segSize (cd : ConduitState) : Nat := 1024 * 2 ^ cd.segcode
def ConduitState.segCount (cd : ConduitState) (len : Nat) : Nat := max 1 (ceilDiv len cd.segSize)

/-- The service of an opcode's sender (Table 12-4); `dflt` where it is that of the request. -/
def serviceOf (op dflt : Nat) : Nat :=
  if op = 0x01 ∨ op = 0x02 ∨ op = 0x03 ∨ op = 0x0D then 0
  else if op = 0x05 ∨ op = 0x10 ∨ op = 0x11 ∨ op = 0x12 then 1
  else if op = 0x04 then 2
  else if 0x08 ≤ op ∧ op ≤ 0x0C then 3
  else if op = 0x20 ∨ op = 0x21 then 4
  else if 0x18 ≤ op ∧ op ≤ 0x1A then 5
  else if op = 0x22 ∨ op = 0x23 ∨ op = 0x24 ∨ op = 0x32 ∨ op = 0x3F then 6
  else dflt

/-- The opcodes of Table 12-4. -/
def knownOp (op : Nat) : Bool :=
  (0x01 ≤ op && op ≤ 0x05) || (0x08 ≤ op && op ≤ 0x0D) || (0x10 ≤ op && op ≤ 0x13) || (0x18 ≤ op && op ≤ 0x1A) ||
  (0x20 ≤ op && op ≤ 0x24) || (0x30 ≤ op && op ≤ 0x32) || op == 0x3F

/-- A message not yet queued. -/
def OutMsg.mk' (op svc : Nat) (payload : List Byte) (purpose : Purpose) : OutMsg :=
  ⟨0, op, svc, payload, 0, 0, 0, false, none, [], 0, false, purpose⟩

/-- A message that ended for its producer with a status (R255, R263). -/
def State.endMsg (s : State) (p : Purpose) (st : Nat) : State :=
  match p with
  | .plain => s
  | _ => s.onTrl fun t => { t with ended := t.ended ++ [(p, st)] }

/-- A sequenced message entering its service queue (R257, R300); only an ACTIVE conduit takes one (R255). -/
def State.enqueue (s : State) (c : Nat) (m : OutMsg) : State :=
  match s.conduit c with
  | none => s.endMsg m.purpose stTIMEOUT
  | some cd =>
    if cd.cstate != 1 || s.muted c then s.endMsg m.purpose stTIMEOUT
    else if m.hold then s.modConduit c fun cd => { cd with queue := cd.queue ++ [m] }
    else
      let eg := (List.range (cd.segCount m.payload.length)).map (fun i => s.egressOf cd cd.qnext i 0)
      let m := { m with q := cd.qnext, egress := eg }
      s.modConduit c fun cd => { cd with queue := cd.queue ++ [m], qnext := (cd.qnext + 1) % 2 ^ 32 }

/-- A message sent to the far end of a conduit. -/
def State.send (s : State) (c op svc : Nat) (payload : List Byte) (purpose : Purpose) : State :=
  s.enqueue c (OutMsg.mk' op svc payload purpose)

/-- An unsequenced packet (R254, R300), ahead of the sequenced messages of the CONTROL queue. -/
def State.sendUnseq (s : State) (c op flags : Nat) (payload : List Byte) (eg : Option Egress) : State :=
  match s.conduit c with
  | none => s
  | some cd =>
    if (cd.cstate != 1 && cd.cstate != 2) || s.muted c then s else
    let e := eg.getD (s.egressOf cd cd.qnext 0 0)
    let m : OutMsg := ⟨cd.qnext, op, 6, payload, 0, 0, flags, true, none, [e], 0, false, .plain⟩
    s.modConduit c fun cd => { cd with queue := cd.queue ++ [m], qnext := (cd.qnext + 1) % 2 ^ 32 }

/-- The response header of Table 12-5. -/
def respHeader (rseq status : Nat) : List Byte := le 4 rseq ++ le 1 status ++ zeros 3

/-- A response to request (c, q): an ACK for OK, EMPTY and ALREADY_DONE, otherwise a NACK (R252). -/
def State.respond (s : State) (c q svc status : Nat) (body : List Byte) : State :=
  s.send c (if status ≤ 2 then 0x30 else 0x31) svc (respHeader q status ++ body) .plain

/-- The handed-over message a consumer takes; its key and immediate. -/
def State.takeHanded (s : State) (c q op : Nat) : State :=
  s.onTrl fun t => { t with handed := eraseFirst (fun h => h.conduit == c && h.msgseq == q && h.op == op) t.handed }

/-- The HANDLE fields (Table 3-2). -/
def hPart (h : Nat) : Nat := bits h 63 60
def hHome (h : Nat) : Nat := bits h 59 40
def hIndex (h : Nat) : Nat := bits h 39 16
def hGen (h : Nat) : Nat := bits h 15 0

end Sys2Proof.Machine
end

