-- ==== Sys2Proof/Machine/Frames.lean ====
section
/-! DEFINITION. Frames of tiers 1 and 2 and the quotas (R14, R169-R172, R369). Frames are numbered in units of 2 KiB of
the tier's address space. -/

namespace Sys2Proof.Machine

/-- The channel index of a tier-2 address (R192): 64 KiB pieces in turn over the 256 channels. -/
def mapIdx (a : Nat) : Nat := a / 2 ^ 16 % 256

/-- The number stack * 32 + channel of a channel index: the stack is c mod 8, the channel within it c div 8 (R192). -/
def chanNum (c : Nat) : Nat := c % 8 * 32 + c / 8

/-- The channel a tier-2 address lies in, numbered stack * 32 + channel. -/
def chanOf (a : Nat) : Nat := chanNum (mapIdx a)

/-- The channel data address of a device address, and the device address of channel k's data address (R192). -/
def chanAddr (a : Nat) : Nat := a / 2 ^ 24 * 2 ^ 16 + a % 2 ^ 16
def devAddr (k a : Nat) : Nat := (a / 2 ^ 16 * 256 + (k % 32 * 8 + k / 32)) * 2 ^ 16 + a % 2 ^ 16

/-- Numbers of tiers in LOC.TIER (Table 3-4). -/
def Tier.code : Tier → Nat
  | .pcache => 0 | .hbm => 1 | .lent => 2 | .flash => 3

/-! ## Usage and quotas (R169-R171) -/

def State.usage (s : State) (part t : Nat) : Nat := (tfind s.tier.usage (part * 4 + t)).getD 0

def State.charge4 (s : State) (part t bytes : Nat) : State :=
  s.onTier fun b => { b with usage := tput 0 b.usage (part * 4 + t) ((tfind b.usage (part * 4 + t)).getD 0 + bytes) }

def State.uncharge4 (s : State) (part t bytes : Nat) : State :=
  s.onTier fun b => { b with usage := tput 0 b.usage (part * 4 + t) ((tfind b.usage (part * 4 + t)).getD 0 - bytes) }

/-- Whether `bytes` more stay within the hard quota. -/
def State.underHard (s : State) (part t bytes : Nat) : Bool :=
  let q := s.fd (Fd.TIER_QUOTA_HARD_MIB part t)
  q == 0xFFFFFFFF || s.usage part t + bytes ≤ q * 2 ^ 20

/-- Whether the usage exceeds the soft quota (R170), and whether it is below it (R174). -/
def State.overSoft (s : State) (part t : Nat) : Bool :=
  let q := s.fd (Fd.TIER_QUOTA_SOFT_MIB part t)
  q != 0xFFFFFFFF && q * 2 ^ 20 < s.usage part t
def State.belowSoft (s : State) (part t : Nat) : Bool :=
  let q := s.fd (Fd.TIER_QUOTA_SOFT_MIB part t)
  q == 0xFFFFFFFF || s.usage part t < q * 2 ^ 20

/-- A blocked placement (R171). -/
def State.hardBlock (s : State) : State := s.raise Fd.TIER_ERR_HARD_BLOCK

/-! ## Tier 2 -/

/-- Channels whose frames are given out: not failed, retiring or retired (R338, R419). -/
def State.chanUsable (s : State) (c : Nat) : Bool :=
  !s.hb.retiring.contains c && !s.hb.retired.contains c && !s.hb.failed.contains c

/-- Bytes of a range of n units that lie in channel k (R192). -/
def chanShare (k a n : Nat) : Nat :=
  if n ≤ 32 then (if chanOf (a * 2048) = k then n * 2048 else 0)
  else
    let i := k % 32 * 8 + k / 32
    let upTo := fun u => (u + 255 - i) / 256
    (upTo ((a + n) / 32) - upTo (a / 32)) * 65536

/-- Tier-2 bytes of a channel that are in no frame: they are taken off the free lists when it is retired (R192, R199). -/
def State.chanFree (s : State) (k : Nat) : Nat :=
  1984 * 2 ^ 20 - s.tier2Base / 256 - s.tier.hbmUsed.foldl (fun n p => n + chanShare k p.1 p.2) 0

/-- Free tier-2 bytes: none of them in a channel out of service. -/
def State.freeTier2 (s : State) : Nat :=
  (hbmBytes - s.tier2Base) - s.tier.hbmUsed.foldl (fun n p => n + p.2 * 2048) 0 -
    ((List.range 256).filter fun k => !s.chanUsable k).foldl (fun n k => n + s.chanFree k) 0

/-- A free tier-2 range of n units aligned to al, the device's choice among those whose channel satisfies `ok`. -/
def State.findHbm (s : State) (n al : Nat) (ok : Nat → Bool) : Option Nat :=
  let lo := s.tier2Base / 2048
  let hi := hbmBytes / 2048
  let up := fun x => ceilDiv x al * al
  let used := s.tier.hbmUsed
  let free := fun a => lo ≤ a && a + n ≤ hi && used.all (fun p => p.1 + p.2 ≤ a || a + n ≤ p.1) &&
    (List.range (min 256 (ceilDiv n 32))).all (fun i => ok (chanOf ((a + 32 * i) * 2048)))
  let step := max 32 al
  let next := fun c => c :: ((List.range 257).map (fun j => (c / step + 1 + j) * step)).filter (fun x => ok (chanOf (x * 2048)))
  let hint := up (lo + Config.pick s.free % (hi - lo + 1))
  let starts := hint :: up lo :: used.map (fun p => up (p.1 + p.2))
  (starts.findSome? (fun c => ((next c).take 2).find? free)).or (starts.findSome? (fun c => (next c).find? free))

/-- A tier-2 frame of n units taken, charged to nobody; a WORN channel's only where no other has room (R338). -/
def State.takeHbmRaw (s : State) (n al : Nat) (ok : Nat → Bool) : Option (Nat × State) :=
  let fit := fun c => s.chanUsable c && ok c
  ((s.findHbm n al (fun c => fit c && !s.hb.worn.contains c)).or (s.findHbm n al fit)).map fun a =>
    (a, (s.onTier fun b => { b with hbmUsed := tset b.hbmUsed a n }).drawn)

/-- A tier-2 frame of n units taken for a partition under its hard quota (R171). -/
def State.takeHbm (s : State) (part n al : Nat) (ok : Nat → Bool) : Option (Nat × State) :=
  if !s.underHard part 1 (n * 2048) then none else
  (s.takeHbmRaw n al ok).map fun r => (r.1, r.2.charge4 part 1 (n * 2048))

/-- A tier-2 frame given back: its content reads zero before it is used again (R61, R368). -/
def zeroRange (m : List Host.Cell) (a n : Nat) : List Host.Cell := m.filter (fun p => p.1 < a || a + n ≤ p.1)

def State.freeHbm (s : State) (a : Nat) : State :=
  let n := (tfind s.tier.hbmUsed a).getD 0
  { s with hbm := zeroRange s.hbm (a * 2048) (n * 2048), tier := { s.tier with hbmUsed := tdel s.tier.hbmUsed a } }

/-! ## Tier 1 (R100, R164, R369) -/

/-- PCACHE taken from tier 1 by the stream table and the stream pool, as (first unit, units). -/
def State.pcReserved (s : State) : Tbl Nat :=
  [(s.fd Fd.AE_STREAM_BASE_OFFSET / 2 ^ 23 * 4096, 4096), (s.fd Fd.AE_POOL_OFFSET / 2048, s.fd Fd.AE_POOL_SIZE * 512)]

/-- Bytes of landing frames in use, and of placed pages. -/
def State.landingBytes (s : State) : Nat := s.tier.landing.foldl
  (fun n a => n + (tfind s.tier.pcUsed a).getD 0 * 2048) 0
def State.placedBytes (s : State) : Nat := s.tier.pcUsed.foldl (fun n p => n + p.2 * 2048) 0 - s.landingBytes

/-- Tier-1 bytes for placed pages (R164). -/
def State.pcCapacity (s : State) : Nat :=
  pcacheBytes - 2 ^ 23 - s.fd Fd.AE_POOL_SIZE * 2 ^ 20 - s.fd Fd.TIER_FAULT_LAND_MIB * 2 ^ 20

/-- A free tier-1 range of n units in whole 4 KiB blocks, none of them released and unzeroed (R369). -/
def State.findPc (s : State) (n : Nat) : Option Nat :=
  let n := max 2 n
  roomAt (s.pcReserved ++ s.tier.pcUsed ++ s.tier.pcDirty.map (fun b => (2 * b.1, 2))) 0 (pcacheBytes / 2048) n n
    (Config.pick s.free)

/-- A tier-1 frame taken: a landing frame within TIER_FAULT.LAND_MIB, or one for a placed page. -/
def State.takePc (s : State) (n : Nat) (landing : Bool) : Option (Nat × State) :=
  let bytes := max 2 n * 2048
  let room := if landing then s.landingBytes + bytes ≤ s.fd Fd.TIER_FAULT_LAND_MIB * 2 ^ 20
    else s.placedBytes + bytes ≤ s.pcCapacity
  if room then (s.findPc n).map fun a =>
    (a, (s.onTier fun b => { b with
      pcUsed := tset b.pcUsed a (max 2 n)
      landing := if landing then a :: b.landing else b.landing }).drawn)
  else none

/-- A tier-1 frame released: its blocks wait to be zeroed. -/
def State.freePc (s : State) (a : Nat) : State :=
  let n := (tfind s.tier.pcUsed a).getD 0
  s.onTier fun b => { b with
    pcUsed := tdel b.pcUsed a
    landing := b.landing.filter (· != a)
    pcDirty := b.pcDirty ++ (List.range (n / 2)).map (fun i => (a / 2 + i, 80)) }

/-- A landing frame becomes the frame of a placed page, when there is room (R180 step 3). -/
def State.placeLanding (s : State) (a : Nat) : State :=
  s.onTier fun b => { b with landing := b.landing.filter (· != a) }

end Sys2Proof.Machine
end

