-- ==== Sys2Proof/Machine/Ecc.lean ====
section
/-! DEFINITION. The check code of tier 2: a Reed-Solomon code over GF(2^8) on groups of 128 bytes (R192, R194, R195). A
command that reads tier 2 carries the symbols its reads find in error; the decoder settles what comes of them. -/

namespace Sys2Proof.Machine

/-! ## Where a group and its check bytes lie (R192-R194) -/

/-- The pseudo-channel of a channel data address, and the offset in its data (R192). -/
def pseudoOf (a : Nat) : Nat := bits a 8 8
def pseudoOff (a : Nat) : Nat := a / 2 ^ 9 * 2 ^ 8 + a % 2 ^ 8

/-- The check-area offset of the 4 check bytes of the group at pseudo-channel data offset x (R194). -/
def checkOff (x : Nat) : Nat := 4 * (x / 128)

/-- The first byte of the group an address lies in. -/
def groupAt (a : Nat) : Nat := a / 128 * 128

/-! ## GF(2^8) with x^8 + x^4 + x^3 + x^2 + 1 (R194) -/

/-- The product with α = 0x02. -/
def gfTwice (a : Nat) : Nat := if a < 128 then 2 * a else (2 * a) ^^^ 0x11D

/-- Products of a and the n low bits of b, added. -/
def gfTerms : Nat → Nat → Nat → Nat
  | 0, _, _ => 0
  | n + 1, a, b => (if b % 2 = 1 then a else 0) ^^^ gfTerms n (gfTwice a) (b / 2)

def gfMul (a b : Nat) : Nat := gfTerms 8 a b

/-- α to a power. -/
def gfExp : Nat → Nat
  | 0 => 1
  | n + 1 => gfTwice (gfExp n)

/-- The quotient a / b of elements, b not 0: the element whose product with b is a. -/
def gfDiv (a b : Nat) : Nat := ((List.range 256).find? (fun q => gfMul q b == a)).getD 0

/-! ## The code word (R194) -/

/-- One more coefficient taken into the remainder by g(x), held from its x^3 to its x^0 coefficient. -/
def rsStep (r : Nat × Nat × Nat × Nat) (b : Byte) : Nat × Nat × Nat × Nat :=
  let f := r.1 ^^^ b.toNat
  (r.2.1 ^^^ gfMul f 0x0F, r.2.2.1 ^^^ gfMul f 0x36, r.2.2.2 ^^^ gfMul f 0x78, gfMul f 0x40)

/-- The 4 check bytes of a group. -/
def rsCheck (data : List Byte) : List Byte :=
  let r := data.foldl rsStep (0, 0, 0, 0)
  [r.1, r.2.1, r.2.2.1, r.2.2.2].map (BitVec.ofNat 8)

/-- The 132 symbols of a group: symbol i is the coefficient of x^(131 - i). -/
def codeWord (data : List Byte) : List Byte := data ++ rsCheck data

/-! ## The decoder (R195) -/

/-- The value of the received polynomial at α^j. -/
def syndrome (w : List Byte) (j : Nat) : Nat := w.foldl (fun acc b => gfMul acc (gfExp j) ^^^ b.toNat) 0

/-- The corrections of up to two symbols that make the word a code word, as (symbol, value); none where the decoder fails. -/
def rsDecode (w : List Byte) : Option (List (Nat × Nat)) :=
  let s0 := syndrome w 0
  let s1 := syndrome w 1
  let s2 := syndrome w 2
  let s3 := syndrome w 3
  if s0 = 0 ∧ s1 = 0 ∧ s2 = 0 ∧ s3 = 0 then some [] else
  let at_ := fun p => gfExp (131 - p)
  match (List.range 132).find? (fun p => s0 ≠ 0 ∧ gfMul s0 (at_ p) = s1 ∧ gfMul s1 (at_ p) = s2 ∧ gfMul s2 (at_ p) = s3) with
  | some p => some [(p, s0)]
  | none =>
    let det := gfMul s0 s2 ^^^ gfMul s1 s1
    if det = 0 then none else
    let a := gfDiv (gfMul s0 s3 ^^^ gfMul s1 s2) det
    let b := gfDiv (gfMul s1 s3 ^^^ gfMul s2 s2) det
    match (List.range 132).filter (fun p => gfMul (at_ p) (at_ p) ^^^ gfMul a (at_ p) ^^^ b == 0) with
    | [p, q] =>
      let e := gfDiv (s1 ^^^ gfMul s0 (at_ q)) (at_ p ^^^ at_ q)
      if e = 0 ∨ e = s0 then none else some [(p, e), (q, s0 ^^^ e)]
    | _ => none

/-- Symbols of a word changed. -/
def addSyms (w : List Byte) (e : List (Nat × Nat)) : List Byte :=
  e.foldl (fun w x => w.set x.1 (byteAt w x.1 ^^^ BitVec.ofNat 8 x.2)) w

/-- The block of a group a symbol belongs to: check bytes 0 and 1 are block 0's. -/
def symBlock (i : Nat) : Nat := if i < 128 then i / 64 else (i - 128) / 2

/-- How a block is classed. -/
inductive BlockEcc where
  | clean
  /-- Corrected, at this symbol. -/
  | corrected (sym : Nat)
  | bad
  deriving DecidableEq, Repr

/-- The class of a block, of the symbols the decoder located. -/
def classOf (located : Option (List (Nat × Nat))) (blk : Nat) : BlockEcc :=
  match located with
  | none => .bad
  | some l => match l.filter (fun x => symBlock x.1 == blk) with
    | [] => .clean
    | [x] => .corrected x.1
    | _ => .bad

/-- A group as a read returns it. -/
structure GroupRead where
  data : List Byte
  b0 : BlockEcc
  b1 : BlockEcc
  deriving DecidableEq, Repr

/-- The read of a group with symbols in error: the bytes of an uncorrectable block read as zero (R203), those of a group
miscorrected or missed as they came out. -/
def readWord (data : List Byte) (errs : List (Nat × Nat)) : GroupRead :=
  if errs.isEmpty then ⟨data, .clean, .clean⟩ else
  let w := addSyms (codeWord data) errs
  let loc := rsDecode w
  let out := addSyms w (loc.getD [])
  let half := fun k => if classOf loc k = .bad then zeros 64 else slice out (64 * k) 64
  ⟨half 0 ++ half 1, classOf loc 0, classOf loc 1⟩

def GroupRead.isBad (r : GroupRead) : Bool := r.b0 == .bad || r.b1 == .bad
def GroupRead.isClean (r : GroupRead) : Bool := r.b0 == .clean && r.b1 == .clean

/-- The symbols of a group among those a command finds in error. -/
def errsAt (errs : Errs) (g : Nat) : List (Nat × Nat) :=
  ((errs.find? (fun e => groupAt e.1 == g)).map (fun e => e.2.map fun x => (x.1.val, x.2.toNat))).getD []

/-- The groups of a range that are named, each once. -/
def errGroups (errs : Errs) (a n : Nat) : List Nat :=
  (errs.foldl (fun (t : Tbl Unit) e => if groupAt a ≤ groupAt e.1 ∧ groupAt e.1 < a + n then tset t (groupAt e.1) () else t) []).map Prod.fst

/-- A group of tier 2 as read, by its first byte's device address. -/
def State.readGroup (s : State) (errs : Errs) (g : Nat) : GroupRead := readWord (s.hbmRead g 128) (errsAt errs g)

/-- The check bytes of the group an address lies in, as they stand in the check area (R194). -/
def State.checkBytes (s : State) (a : Nat) : List Byte := rsCheck (s.hbmRead (groupAt a) 128)

/-- The 64-byte blocks of a range, by address, that are uncorrectable. -/
def State.badBlocks (s : State) (errs : Errs) (a n : Nat) : List Nat :=
  ((errGroups errs a n).flatMap fun g =>
    let r := s.readGroup errs g
    (if r.b0 = .bad then [g] else []) ++ (if r.b1 = .bad then [g + 64] else [])).filter fun b => a < b + 64 && b < a + n

/-- n bytes of tier 2 as a read of them returns them. -/
def State.hbmFetch (s : State) (errs : Errs) (a n : Nat) : List Byte :=
  let gs := (errGroups errs a n).map fun g => (g, (s.readGroup errs g).data)
  if gs.isEmpty then s.hbmRead a n else
  ((s.hbmRead a n).zipIdx).map fun (b, i) => match gs.find? (fun g => g.1 == groupAt (a + i)) with
    | some g => byteAt g.2 (a + i - g.1)
    | none => b

end Sys2Proof.Machine
end

