-- ==== Sys2Proof/Machine/SeqOps.lean ====
section
/-! DEFINITION. Sequences, pages and their descriptors: shapes, references, routing of handles, the mirror of an operation
(chapters 3, 15, 16). -/

namespace Sys2Proof.Machine

/-! ## Class shapes (R40, R41, Table 3-17) -/

def latent (def0 : Nat) : Bool := bits def0 0 0 == 1
def fmtA (def0 : Nat) : Nat := bits def0 7 4
def fmtB (def0 : Nat) : Nat := bits def0 11 8
def frameCode (def0 : Nat) : Nat := bits def0 14 12
def clsValid (def0 : Nat) : Bool := bits def0 15 15 == 1
def widthA (def0 : Nat) : Nat := bits def0 26 16
def widthB (def0 : Nat) : Nat := bits def0 41 32
def clsPart (def0 : Nat) : Nat := bits def0 51 48
def clsLayers (def1 : Nat) : Nat := bits def1 15 8 + 1
def clsGroups (def1 : Nat) : Nat := bits def1 5 0 + 1
def clsPrefix (def1 : Nat) : Bool := bits def1 16 16 == 1

/-- The words of class c. -/
def State.def0 (s : State) (c : Nat) : Nat := s.reg (c * 2 ^ 32 + Reg.PGT_CLASS_DEF0)
def State.def1 (s : State) (c : Nat) : Nat := s.reg (c * 2 ^ 32 + Reg.PGT_CLASS_DEF1)

/-- Bytes of n elements in a format code; 0 for a reserved code. -/
def codeBytes (code n : Nat) : Nat := match fmtOf code with | some f => f.rowBytes n | none => 0

def rowA (def0 : Nat) : Nat := codeBytes (fmtA def0) (widthA def0)
def rowB (def0 : Nat) : Nat := codeBytes (fmtB def0) (widthB def0)

/-- Bytes of one token of one group. -/
def tokenBytes (def0 : Nat) : Nat := rowA def0 + rowB def0

/-- Content size of a page (R40). -/
def contentSize (def0 : Nat) : Nat := 16 * tokenBytes def0

/-- 2 KiB units of a frame (Table 3-2). -/
def frameUnits (code : Nat) : Nat := 2 ^ code

/-- Where slot i lies in the content: (offset, length, offset in the token's bytes). -/
def slotParts (def0 i : Nat) : List (Nat × Nat × Nat) :=
  if latent def0 then [(i * tokenBytes def0, tokenBytes def0, 0)]
  else [(i * rowA def0, rowA def0, 0), (16 * rowA def0 + i * rowB def0, rowB def0, rowA def0)]

/-- Content with slot i replaced by a token's bytes. -/
def putSlot (def0 : Nat) (content : List Byte) (i : Nat) (tok : List Byte) : List Byte :=
  (slotParts def0 i).foldl (fun c x => c.take x.1 ++ slice tok x.2.2 x.2.1 ++ c.drop (x.1 + x.2.1)) content

/-- Content with the slots from n upward zero. -/
def firstSlots (def0 : Nat) (content : List Byte) (n : Nat) : List Byte :=
  (List.range 16).foldl (fun c i => if i < n then c else putSlot def0 c i []) content

/-! ## Page tables and descriptors -/

def ptKey (layer group pos : Nat) : Nat := (layer * 64 + group) * 2 ^ 20 + pos
def keyLayer (k : Nat) : Nat := k / 2 ^ 26
def keyGroup (k : Nat) : Nat := k / 2 ^ 20 % 64
def keyPos (k : Nat) : Nat := k % 2 ^ 20

def State.seq (s : State) (k : Nat) : Option Seq := tfind s.pgt.seqs k
def State.desc (s : State) (d : Nat) : Option Desc := tfind s.pgt.descs d
def State.modSeq (s : State) (k : Nat) (f : Seq → Seq) : State := s.onPgt fun p => { p with seqs := tmod p.seqs k f }
def State.modDesc (s : State) (d : Nat) (f : Desc → Desc) : State := s.onPgt fun p => { p with descs := tmod p.descs d f }

/-- Committed length of a layer, and LENGTH (R50). -/
def Seq.len (q : Seq) (layer : Nat) : Nat := (q.layerLen[layer]?).getD 0
def Seq.length (q : Seq) : Nat := match q.layerLen with | [] => 0 | a :: l => l.foldl min a

/-- A key no entry of a table holds, below a bound, from a hint on. -/
def freeKey {α : Type} (t : Tbl α) (bound hint : Nat) : Option Nat :=
  ((hint % bound) :: 0 :: t.map (fun p => p.1 + 1)).find? (fun k => k < bound && (tfind t k).isNone)

/-- A free descriptor index in the chunks of the pool, or in one more 2 MiB chunk taken from tier 2 (R42). -/
def State.takeDesc (s : State) : Option (Nat × State) :=
  let n := s.pgt.chunks.length * 65536
  match (if n = 0 then none else freeKey s.pgt.descs n (Config.pick s.free)) with
  | some d => some (d, s.drawn)
  | none => (s.takeHbmRaw 1024 1024 (fun _ => true)).map fun (a, s) => (n, s.onPgt fun p => { p with chunks := p.chunks ++ [a] })

/-- Chunks at the end of the pool that hold no descriptor are given back (R42). -/
def State.shrinkPool (s : State) : State :=
  match s.pgt.chunks.getLast? with
  | none => s
  | some a =>
    if s.pgt.descs.any (fun e => (s.pgt.chunks.length - 1) * 65536 ≤ e.1) then s
    else (s.freeHbm a).onPgt fun p => { p with chunks := p.chunks.dropLast }

/-! ## The sequence table, prefix slots and page tables in HBM (R42, R67, Table 3-3) -/

/-- The chunks a sequence record needs: that of its record, and of its prefix slot while it has one. -/
def Seq.chunks (q : Seq) (k : Nat) : List Nat :=
  if 2 ^ 24 ≤ k then [] else
  k / 32768 :: (if clsPrefix q.def1 && q.sstate != .cold then [2 ^ 20 + k / 16384] else [])

/-- 2 MiB chunks taken for a record and its slot where they are not there yet; none where tier 2 has no room. -/
def State.takeSeqChunks (s : State) (l : List Nat) : Option State :=
  l.foldl (fun r c => r.bind fun s =>
    if (tfind s.pgt.seqChunks c).isSome then some s else
    (s.takeHbmRaw 1024 1024 (fun _ => true)).map fun (a, s) => s.onPgt fun p => { p with seqChunks := tset p.seqChunks c a }) (some s)

/-- Chunks that hold no record and no slot are given back. -/
def State.shrinkSeqChunks (s : State) : State :=
  (s.pgt.seqChunks.filter fun c => !s.pgt.seqs.any fun q => (q.2.chunks q.1).contains c.1).foldl
    (fun s c => (s.freeHbm c.2).onPgt fun p => { p with seqChunks := tdel p.seqChunks c.1 }) s

/-- Page-table chunks of 1,024 positions that a page table fills (Table 3-3). -/
def chunkCount (pt : Tbl Nat) : Nat :=
  (pt.foldl (fun (r : Option Nat × Nat) e => if r.1 = some (e.1 / 1024) then r else (some (e.1 / 1024), r.2 + 1)) (none, 0)).2

/-- 4 KiB frames of a sequence's page tables: the root, with one length of 4 bytes per layer and 8 bytes per chunk, and the
chunks. -/
def Seq.tableFrames (q : Seq) : Nat :=
  if q.sstate == .cold then 0 else
  max 1 (ceilDiv (4 * clsLayers q.def1 + 8 * chunkCount q.pt) 4096) + chunkCount q.pt

/-- One more page-table frame of a sequence. -/
def State.addTable (s : State) (k : Nat) : Option State :=
  (s.takeHbmRaw 2 2 (fun _ => true)).map fun (a, s) =>
    s.onPgt fun p => { p with tables := tset p.tables k ((tfind p.tables k).getD [] ++ [a]) }

/-- An HBM descriptor of an empty tadpole (Table 3-6). -/
def newTadpole (def0 frame part : Nat) (twin : Bool) : Desc :=
  ⟨⟨.hbm, 0, frame⟩, fmtA def0, fmtB def0, frameCode def0, 0, .tadpole, .none, false, false, 0, 0, 1, part, 0, 0, def0,
   false, none, twin, false, false⟩

/-- A frame and a descriptor for a new tadpole, or a QUOTA (R49, R171). Pages held for the twin count against no quota. -/
def State.allocTadpole (s : State) (def0 part : Nat) (twin : Bool) (ok : Nat → Bool) : Option (Nat × State) :=
  let n := frameUnits (frameCode def0)
  match (if twin then s.takeHbmRaw n n ok else s.takeHbm part n n ok) with
  | none => none
  | some (a, s) =>
    s.takeDesc.map fun (d, s) => (d, s.onPgt fun p => { p with descs := tset p.descs d (newTadpole def0 a part twin) })

/-- Content of a page in HBM or PCACHE. -/
def State.readLoc (s : State) (l : Loc) (n : Nat) : List Byte :=
  match l.tier with
  | .hbm => s.hbmRead (l.frame * 2048) n
  | .pcache => s.pcRead (l.frame * 2048) n
  | _ => zeros n

def State.pageContent (s : State) (d : Desc) : List Byte := s.readLoc d.loc (contentSize d.def0)

/-- Content written into a page's frame in HBM. -/
def State.writePage (s : State) (d : Desc) (c : List Byte) : State := s.hbmWrite (d.loc.frame * 2048) c

/-! ## References and reclamation (R56, R57, R61) -/

/-- REFCNT raised by one unless it would exceed its field (R57). -/
def State.addRef (s : State) (d : Nat) : Option State :=
  match s.desc d with
  | none => none
  | some x => if x.refcnt ≥ 2 ^ 24 - 1 then none else some (s.modDesc d fun x => { x with refcnt := x.refcnt + 1 })

/-- A frame a page has left, held until every reader is gone (R61). -/
def State.retireFrame (s : State) (loc : Loc) (def0 part : Nat) (free_ : Bool) : State :=
  s.onPgt fun p => { p with reclaim := p.reclaim ++ [⟨none, some loc, def0, part, free_, none, p.epoch⟩] }

/-- Page-table frames a sequence holds, and those it needs. -/
def State.tablesOf (s : State) (k : Nat) : List Nat := (tfind s.pgt.tables k).getD []
def State.tableNeed (s : State) (k : Nat) : Nat := ((s.seq k).map Seq.tableFrames).getD 0

/-- Page-table frames a sequence no longer needs go under deferred reclamation. -/
def State.trimTables (s : State) (k : Nat) : State :=
  let need := s.tableNeed k
  let l := s.tablesOf k
  if l.length ≤ need then s else
  let s := (l.drop need).foldl (fun s a => s.retireFrame ⟨.hbm, 0, a⟩ (2 ^ 12) 0 true) s
  s.onPgt fun p => { p with tables := if need = 0 then tdel p.tables k else tset p.tables k (l.take need) }

/-- The page tables of a sequence grow to what they need, or shrink to it; none where tier 2 has no room. -/
def State.fitTables (s : State) (k : Nat) : Option State :=
  ((List.range (s.tableNeed k - (s.tablesOf k).length)).foldl (fun r _ => r.bind fun s => s.addTable k) (some s)).map
    fun s => s.trimTables k

/-- A sequence record goes, with its page tables and the chunks nothing lies in any more. -/
def State.dropSeq (s : State) (k : Nat) : State :=
  ((s.onPgt fun p => { p with seqs := tdel p.seqs k }).trimTables k).shrinkSeqChunks

/-- PT_LOC while the sequence is ACTIVE: the root in HBM (Table 3-3). -/
def State.rootLoc (s : State) (k : Nat) : Nat :=
  match (tfind s.pgt.tables k).getD [] with
  | [] => 0
  | a :: _ => 2 ^ 62 + a

/-- A digest released (R134). -/
def State.retireDigest (s : State) (x : Desc) : State :=
  if x.digestValid then s.onPgt fun p => { p with reclaim := p.reclaim ++ [⟨none, none, x.def0, x.part, false, some x.digest, p.epoch⟩] }
  else s

/-- A page whose last reference is gone, with its frame and digest (R61). -/
def State.retirePage (s : State) (d : Nat) (x : Desc) : State :=
  s.onPgt fun p => { p with reclaim := p.reclaim ++
    [⟨some d, some x.loc, x.def0, x.part, x.ofTwin, if x.digestValid then some x.digest else none, p.epoch⟩] }

/-- A descriptor that leaves the pool for an image (R43 step 3): the page stays where it is. -/
def State.retireDesc (s : State) (d : Nat) (x : Desc) : State :=
  (s.modDesc d fun x => { x with refcnt := 0 }).onPgt fun p => { p with reclaim := p.reclaim ++
    [⟨some d, none, x.def0, x.part, true, none, p.epoch⟩] }

/-- One reference dropped; the last one starts reclamation (R61). -/
def State.dropRef (s : State) (d : Nat) : State :=
  match s.desc d with
  | none => s
  | some x =>
    let s := s.modDesc d fun x => { x with refcnt := x.refcnt - 1 }
    if x.refcnt ≤ 1 then (s.modDesc d fun x => { x with freeEpoch := s.pgt.epoch }).retirePage d x else s

/-- Epochs held by streams, leaps, jobs, copies and thaws. -/
def State.heldEpochs (s : State) : List Nat :=
  s.ae.streams.map (fun p => p.2.epoch) ++ s.tier.leaps.map (·.epoch) ++
  (s.hb.jobs.filter (fun j => j.slot.isSome)).map (·.epoch) ++ s.pgt.ops.filterMap (·.epoch) ++
  s.pgt.seqs.filterMap (fun p => p.2.thawEpoch)

/-- The oldest held epoch, by serial arithmetic against the current one. -/
def State.minEpoch (s : State) : Option Nat :=
  (s.heldEpochs).foldl (fun b e => match b with
    | none => some e
    | some x => if serialDist 32 x s.pgt.epoch < serialDist 32 e s.pgt.epoch then some e else some x) none

/-- No admitted stream or job holds an epoch at or before e (R61). -/
def State.epochClear (s : State) (e : Nat) : Bool :=
  match s.minEpoch with
  | none => true
  | some m => serialLt 32 e m

/-! ## Handles, custody and routing (R38, R351, R359) -/

/-- Key of the twin's record of the peer's sequence `idx` among the sequences (R319). -/
def twinKey (idx : Nat) : Nat := 2 ^ 24 + idx

/-- Where a request that names a handle goes. -/
inductive Route where
  /-- This node holds custody: the sequence's key. -/
  | here (k : Nat)
  /-- No such sequence (R38). -/
  | bounds
  /-- Held as in a TRANSFER (Table 16-5). -/
  | hold
  | forward (holder : Nat)
  | stale (mapEpoch holder custEpoch : Nat)
  deriving DecidableEq, Repr

/-- Key of a handle's sequence here, custody aside. -/
def State.keyOf (s : State) (h : Nat) : Option Nat :=
  if hHome h = s.node then some (hIndex h)
  else if hHome h = s.node ^^^ 1 ∧ s.twn.live then some (twinKey (hIndex h))
  else tfind s.cust.inbound h

/-- The record of a handle this node homes, itself or for its lost twin. -/
def State.custRec (s : State) (h : Nat) : Option CustodyRec :=
  if hHome h = s.node then tfind s.cust.records (hIndex h)
  else if hHome h = s.node ^^^ 1 ∧ s.twn.live then tfind s.cust.records (twinKey (hIndex h))
  else none

/-- A node that this one answers as. -/
def State.isSelf (s : State) (n : Nat) : Bool := n == s.node || (n == s.node ^^^ 1 && s.twn.live)

/-- The µs since this node gave a handle away, and to whom. -/
def State.movedTo (s : State) (h : Nat) : Option (Nat × Nat) :=
  (s.cust.moved.find? (fun m => m.1 == h)).map Prod.snd

/-- Table 16-5. -/
def State.route (s : State) (h : Nat) : Route :=
  match s.custRec h with
  | some r =>
    if r.handle != h then .bounds
    else if r.cstate == .transfer then .hold
    else if s.isSelf r.holder then (match s.keyOf h with | some k => .here k | none => .bounds)
    else if s.usec < r.movedAt + 2000 then .forward r.holder
    else .stale r.mapEpoch r.holder r.epoch
  | none =>
    match (tfind s.cust.inbound h).filter (fun k => !((s.seq k).map (·.hidden)).getD true) with
    | some k => if s.cust.quiesced.contains k then .hold else .here k
    | none =>
      match s.movedTo h with
      | some (holder, at_) => if s.usec < at_ + 2000 then .forward holder else
          .stale (s.fd (Fd.MGT_PART_COMP_MAP_EPOCH (hPart h))) (hHome h) 0
      | none => if s.isSelf (hHome h) then .bounds else .stale (s.fd (Fd.MGT_PART_COMP_MAP_EPOCH (hPart h))) (hHome h) 0

/-- The checks of R38 on a sequence this node holds. -/
def State.handleOk (s : State) (h part k : Nat) : Bool :=
  match s.seq k with
  | none => false
  | some q => hPart h == part && q.handle == h && hGen h != 0 && q.sstate != .freeing && !q.hidden

/-- The body of a NACK STALE_MAP (R359). -/
def staleBody (mapEpoch holder custEpoch : Nat) : List Byte := le 4 mapEpoch ++ le 4 (holder % 2 ^ 20) ++ le 4 custEpoch ++ zeros 4

/-- The sequence response body (Table 16-1). -/
def Seq.body (q : Seq) (handle layerLen : Nat) : List Byte :=
  le 8 handle ++ le 4 (q.length + (if q.closed then 2 ^ 31 else 0)) ++ le 4 layerLen ++ le 4 q.custodyEpoch ++ zeros 4

/-! ## The pair (R317, R318, R326) -/

def State.role (s : State) : Role := s.twn.role

/-- The lease holds (R326). -/
def State.leaseHolds (s : State) : Bool := match s.twn.leaseUntil with | some t => decide (s.nsec ≤ t) | none => false

/-- Requests that take a place in a sequence's order are admitted: always, but while PAIRED only under the lease; a member
that does not serve admits none. -/
def State.admits (s : State) : Bool :=
  match s.role with
  | .paired => s.leaseHolds && !s.twn.handoff
  | .down => true
  | .solo => true
  | .regrowing => true
  | .joining => false
  | .mirrorBuild => false
  | .fenced => false

/-- Whether the operations of a sequence are mirrored: while PAIRED all, while REGROWING those whose TABLE has gone. -/
def State.mirrors (s : State) (k : Nat) : Bool :=
  s.role == .paired || (s.role == .regrowing && s.twn.tabled.contains k)

/-- The MIRROR payload header (Table 15-1). -/
def State.mirrorHeader (s : State) (mop handle layer group pos tag : Nat) : List Byte :=
  let hot := bits (s.fd Fd.TWN_CTL_HOT_MASK) (hPart handle) (hPart handle)
  le 4 s.twn.epoch ++ le 1 mop ++ le 1 hot ++ zeros 2 ++ le 8 handle ++ le 4 (layer + group * 256) ++ le 4 pos ++ le 8 tag

/-- One MIRROR sent on the twin conduit. -/
def State.sendMirror (s : State) (mop handle layer group pos tag : Nat) (body : List Byte) (purpose : Purpose) : State :=
  let p := s.mirrorHeader mop handle layer group pos tag ++ body
  ((s.send (s.fd Fd.TWN_CTL_CONDUIT) 0x20 4 p purpose).inc Fd.TWN_MIRRORS_COUNT).count Fd.TWN_MIRROR_BYTES_COUNT p.length

/-- An error of the TWN, with its record in mailbox 5 (Table 18-5). -/
def State.twinError (s : State) (f : Fd) : State :=
  (s.raise f).mbRecord 5 0x06 (le 1 f.lo ++ le 1 (roleCode s.role) ++ zeros 2 ++ le 4 s.twn.epoch ++ le 4 (s.node ^^^ 1))

/-! ## Poisoned pages and restoration (R48, R323) -/

/-- A sequence and page-table key that name a page, for its FETCH. -/
def State.nameOf (s : State) (d : Nat) : Option (Nat × Nat) :=
  s.pgt.seqs.findSome? (fun p => (p.2.pt.find? (fun e => e.2 == d)).map (fun e => (p.1, e.1)))

/-- A page becomes POISONED and its restoration starts at once (R47, R48): a FETCH while PAIRED; without a twin copy it is
lost. -/
def State.poison (s : State) (d : Nat) : State :=
  match s.desc d with
  | none => s
  | some x =>
    if x.state != .tadpole && x.state != .sealed && x.state != .inLeap then s else
    let s := s.modDesc d fun x => { x with state := .poisoned, wasSealed := x.state != .tadpole, sealUnit := none }
    let twinHas := s.role == .paired || (s.role == .regrowing && x.mirror != .none) || x.ofTwin
    match s.nameOf d with
    | some (k, key) =>
      if twinHas then
        match s.seq k with
        | some q => (s.sendMirror 7 q.handle (keyLayer key) (keyGroup key) (keyPos key) d [] (.fetch d)).onTier
            fun b => { b with restores := b.restores ++ [⟨d, true⟩] }
        | none => s
      else s.modDesc d fun x => { x with lost := true }
    | none => s.modDesc d fun x => { x with lost := true }

/-- The state a restored page returns to (Table 3-6). -/
def restoredState (x : Desc) : PageState := if x.wasSealed then .sealed else .tadpole

/-! ## The order of operations (R345-R347, R464) -/

def OpKind.isQuery : OpKind → Bool
  | .query => true
  | .entry _ => true
  | _ => false

/-- Operations that commit: neither queries nor CUSTODY INFO. -/
def OpKind.commits (k : OpKind) : Bool := !k.isQuery && k != .info

/-- Operations ordered before op in its sequence. -/
def opsBefore (ops : List SeqOp) (op : SeqOp) : List SeqOp := ops.filter (fun o => o.seq == op.seq && o.id < op.id)

def Phase.begun (p : Phase) : Bool := p != .waiting
def Phase.applied (p : Phase) : Bool := p == .mirrored || p == .acked

def State.modOp (s : State) (id : Nat) (f : SeqOp → SeqOp) : State :=
  s.onPgt fun p => { p with ops := p.ops.map (fun o => if o.id == id then f o else o) }
def State.endOp (s : State) (id : Nat) : State :=
  s.onPgt fun p => { p with ops := p.ops.filter (fun o => o.id != id), copies := p.copies.filter (fun c => c.op != id) }

/-- A child that a request names is no orphan (R362). -/
def State.confirm (s : State) (k : Nat) : State := s.onTwn fun t => { t with orphans := t.orphans.filter (fun o => o.1 != k) }

/-- An operation takes its place (R345). -/
def State.takePlace (s : State) (seq : Nat) (kind : OpKind) (c q : Nat) (p : List Byte) (byWr : Option Nat) : State :=
  s.onPgt fun g => { g with
    ops := g.ops ++ [⟨g.nextOp, seq, kind, c, q, p, s.usec, .waiting, byWr, [], 0, 0, none, [], none⟩]
    nextOp := g.nextOp + 1 }

/-- The end of the last append to a layer applied and not committed before op (A of R347). -/
def appliedEnd (before : List SeqOp) (layer : Nat) : Option Nat :=
  before.foldl (fun b o => if o.kind == .append && o.phase.applied && o.layer == layer then some o.point else b) none

/-- An APPEND has to wait (R347, R56). -/
def appendWaits (before : List SeqOp) (layer start cnt committed : Nat) : Bool :=
  before.any (fun o => o.kind == .append && o.phase == .waiting && lat o.payload 14 1 == layer) ||
  (match appliedEnd before layer with
   | some a => start ≤ a && committed < start + cnt
   | none => false)

/-- An operation other than a query may begin in its place (R464). -/
def mayBegin (ops : List SeqOp) (op : SeqOp) (committed : Nat → Nat) : Bool :=
  let before := (opsBefore ops op).filter (fun o => o.kind.commits)
  if op.kind == .append then
    before.all (fun o => o.kind == .append || (o.kind == .fork && o.phase.applied)) &&
    !appendWaits before (lat op.payload 14 1) (lat op.payload 8 4 % 2 ^ 25) (lat op.payload 12 2) (committed (lat op.payload 14 1))
  else before.isEmpty

/-- An applied operation may commit: every operation ordered before it has ended (R346). -/
def mayCommit (ops : List SeqOp) (op : SeqOp) : Bool :=
  (op.phase == .acked) && ((opsBefore ops op).filter (fun o => o.kind.commits)).isEmpty

end Sys2Proof.Machine
end

