-- ==== Sys2Proof/Machine/Attend.lean ====
section
/-! DEFINITION. The arithmetic of the engines and merge units: rows and tiles, masks, scores, weights, accumulators,
records, digests, bounds and the merge rule (chapters 2, 5, 6 and 7). -/

namespace Sys2Proof.Machine

/-! ## A stream's settings -/

def Stream.amode (x : Stream) : Nat := bits x.byte9 1 0
def Stream.maskMode (x : Stream) : Nat := bits x.byte9 5 4
def Stream.pB16 (x : Stream) : Bool := bits x.byte9 6 6 == 1
def Stream.outF32 (x : Stream) : Bool := bits x.byte9 7 7 == 1
def Stream.qfmt (x : Stream) : Fmt := (fmtOf (bits x.byte14 3 0)).getD .f8a
def Stream.mimg (x : Stream) : Nat := bits x.byte14 6 4
def Stream.cap (x : Stream) : Bool := bits x.byte15 0 0 == 1
def Stream.bias (x : Stream) : Bool := bits x.byte15 1 1 == 1
def Stream.raw (x : Stream) : Bool := bits x.byte15 2 2 == 1
def Stream.maxEng (x : Stream) : Nat := bits x.byte15 6 3
def Stream.groups (x : Stream) : Nat := clsGroups x.def1
def Stream.rowCount (x : Stream) : Nat := x.qcount * x.qheads
def Stream.expanded (x : Stream) : Bool := x.amode == 2

/-- The KV group a head reads (R92, R93). -/
def Stream.headGroup (x : Stream) (h : Nat) : Nat := if latent x.def0 then 0 else h / max 1 (x.qheads / max 1 x.groups)

/-- Head and position of a row, rows in the order of R87. -/
def Stream.rowHead (x : Stream) (r : Nat) : Nat := r % max 1 x.qheads
def Stream.rowPos (x : Stream) (r : Nat) : Nat := x.qpos + r / max 1 x.qheads

/-! ## Masks (R95, R96) -/

/-- A pair of query position i and key position j is visible (Table 5-4). -/
def pairVisible (mode maskarg llen i j : Nat) : Bool :=
  decide (j < llen) &&
  (match mode with
   | 0 => decide (j ≤ i)
   | 1 => decide (j ≤ i) && decide (i < j + maskarg)
   | 2 => decide (j ≤ i) || decide (j < maskarg)
   | _ => true)

/-- The visible slots of a unit for query position i. -/
def Stream.slotsFor (x : Stream) (u : PageUnit) (i : Nat) : List Nat :=
  (List.range 16).filter (fun r => r < u.slots && pairVisible x.maskMode x.maskarg x.llen i (16 * u.page + r))

/-- A page with a visible pair (R96); `slots` of its slots are filled. -/
def Stream.liveAt (x : Stream) (page slots : Nat) : Bool :=
  (List.range x.qcount).any fun t => (List.range slots).any fun r =>
    pairVisible x.maskMode x.maskarg x.llen (x.qpos + t) (16 * page + r)

/-! ## Row tiles (R104) -/

def workArea : Nat := 1856 * 1024

/-- Bytes a row takes in the work area, and those its head brings with it. -/
def Stream.rowCost (x : Stream) : Nat := x.qfmt.rowBytes x.keyWidth + 4 * x.owidth + 8
def Stream.headCost (x : Stream) (wfmtBytes : Nat) : Nat :=
  if x.expanded then (x.keyWidth + x.owidth) * (widthA x.def0 + widthB x.def0) * wfmtBytes + 32 * (x.keyWidth + x.owidth) else 0

/-- The rows an item reads for its heads, head-major. -/
def Stream.itemRows (x : Stream) (it : WorkItem) : List Nat :=
  ((List.range x.qheads).filter (fun h => it.units.any (fun u => u.group == x.headGroup h))).flatMap fun h =>
    (List.range x.qcount).map fun t => t * x.qheads + h

/-- Rows cut into tiles, each as long as the work area allows. -/
def Stream.cutTiles (x : Stream) (wb : Nat) : Nat → List Nat → List Nat → Nat → List (List Nat)
  | 0, _, cur, _ => if cur.isEmpty then [] else [cur.reverse]
  | _ + 1, [], cur, _ => if cur.isEmpty then [] else [cur.reverse]
  | n + 1, r :: l, cur, used =>
    let new := match cur with | [] => true | c :: _ => x.rowHead c != x.rowHead r
    let cost := x.rowCost + (if new then x.headCost wb else 0)
    if !cur.isEmpty && workArea < used + cost then
      cur.reverse :: x.cutTiles wb n l [r] (x.rowCost + x.headCost wb)
    else x.cutTiles wb n l (r :: cur) (used + cost)

def Stream.tiles (x : Stream) (wb : Nat) (it : WorkItem) : List (List Nat) :=
  let rows := x.itemRows it
  match x.cutTiles wb rows.length rows [] 0 with
  | [] => [[]]
  | l => l

/-! ## Scores (R29, R92-R94, R98) -/

/-- L2E, and L2E rounded up (R136). -/
def fL2E : W32 := 0x3FB8AA3B
def fL2EUp : W32 := 0x3FB8AA3C

/-- Elements of a latent row, latent part then rotary part, before scales, with the scale byte of each run of 32. -/
def latentElems (def0 : Nat) (row : List Byte) : List W32 :=
  let fa := (fmtOf (fmtA def0)).getD .f8a
  let fb := (fmtOf (fmtB def0)).getD .f8a
  (List.range (widthA def0)).map (rowElem fa row) ++
    (List.range (widthB def0)).map (rowElem fb (row.drop (rowA def0)))

def latentScale (def0 : Nat) (row : List Byte) (b : Nat) : Nat :=
  let fa := (fmtOf (fmtA def0)).getD .f8a
  if fa.scaled && b * 32 < widthA def0 then rowScale fa row (widthA def0) b else 127

/-- An expanded element (R36): a projection row times the latent row, rounded to B16. -/
def expandElem (def0 : Nat) (wfmt : Fmt) (wrow : List Byte) (row : List Byte) : W32 :=
  let w := widthA def0 + widthB def0
  let prods := List.zipWith fMul ((List.range w).map (rowElem wfmt wrow)) (latentElems def0 row)
  decB16 (fToB16 (dotScaled prods (latentScale def0 row))).toNat

/-- The key elements of a token for a head: elements before scales, and the scales of their runs. `slice` is the head's
projection slice. -/
def Stream.keyOf (x : Stream) (content : List Byte) (slot : Nat) (wfmt : Fmt) (slice_ : List Byte) : List W32 × (Nat → Nat) :=
  if latent x.def0 then
    let row := slice content (slot * tokenBytes x.def0) (tokenBytes x.def0)
    if x.expanded then
      let wb := wfmt.rowBytes (widthA x.def0 + widthB x.def0)
      ((List.range x.keyWidth).map (fun d => expandElem x.def0 wfmt (slice slice_ (d * wb) wb) row), fun _ => 127)
    else (latentElems x.def0 row, latentScale x.def0 row)
  else
    let f := (fmtOf (fmtA x.def0)).getD .f8a
    let row := slice content (slot * rowA x.def0) (rowA x.def0)
    ((List.range (widthA x.def0)).map (rowElem f row), fun b => rowScale f row (widthA x.def0) b)

/-- The value elements of a token for a head. -/
def Stream.valueOf (x : Stream) (content : List Byte) (slot : Nat) (wfmt : Fmt) (slice_ : List Byte) : List (W32 × Nat) :=
  if latent x.def0 then
    let row := slice content (slot * tokenBytes x.def0) (tokenBytes x.def0)
    if x.expanded then
      let wb := wfmt.rowBytes (widthA x.def0 + widthB x.def0)
      (List.range x.owidth).map (fun d => (expandElem x.def0 wfmt (slice slice_ ((x.keyWidth + d) * wb) wb) row, 127))
    else (List.range x.owidth).map (fun d => (((latentElems x.def0 row)[d]?).getD 0, latentScale x.def0 row (d / 32)))
  else
    let f := (fmtOf (fmtB x.def0)).getD .f8a
    let row := slice content (16 * rowA x.def0 + slot * rowB x.def0) (rowB x.def0)
    (List.range x.owidth).map (fun d => (rowElem f row d, rowScale f row (widthB x.def0) (d / 32)))

/-- Query elements of a row. -/
def Stream.query (x : Stream) (r : Nat) : List W32 :=
  let row := (x.rows[r]?).getD []
  (List.range x.keyWidth).map (rowElem x.qfmt row)

/-- The base-2 score of a pair (Table 2-4); none: the head becomes NaN (R32). -/
def Stream.score (x : Stream) (r i j : Nat) (key : List W32 × (Nat → Nat)) : Option W32 :=
  let d := dotScaled (List.zipWith fMul (x.query r) key.1) key.2
  if !fIsFinite d then none else
  if !x.cap && !x.bias then
    let t := fMul d (fMul x.scale fL2E)
    if fIsFinite t then some t else none
  else
    let z := fMul d x.scale
    if !fIsFinite z then none else
    let z := if x.cap then fCap z x.capval else z
    let z := if x.bias then fMulSub z ((x.slopes[x.rowHead r]?).getD 0) (fOfInt ((i : Int) - j)) else z
    if !fIsFinite z then none else
    let t := fMul z fL2E
    if fIsFinite t then some t else none

/-! ## Accumulators (R27, R29-R32, R140) -/

def RowAcc.fresh (r ow : Nat) : RowAcc :=
  ⟨r, fNegInf, 0, 0, List.replicate ow 0, List.replicate ow 0, false, true, 0⟩

/-- A NaN head. -/
def RowAcc.toNaN (a : RowAcc) : RowAcc := { a with nan := true, empty := false }

def RowAcc.rescale (a : RowAcc) (f : W32) : RowAcc :=
  { a with lBlk := fMul a.lBlk f, lRun := fMul a.lRun f, oBlk := a.oBlk.map (fMul · f), oRun := a.oRun.map (fMul · f),
           skipped := fMulR .up a.skipped f }

/-- The page sums of a row: its maximum, weight sum and weighted value sums over 16 slots; none: NaN. -/
def Stream.pageSums (x : Stream) (r i : Nat) (u : PageUnit) (content : List Byte) (wfmt : Fmt) (slice_ : List Byte)
    (vis : List Nat) : Option (W32 × W32 × List W32) :=
  let ts := vis.map (fun k => (k, x.score r i (16 * u.page + k) (x.keyOf content k wfmt slice_)))
  if ts.any (fun t => t.2.isNone) then none else
  let ts := ts.map (fun t => (t.1, t.2.getD 0))
  let mp := ts.foldl (fun m t => fMax m t.2) fNegInf
  let rnd := fun w => if x.pB16 then decB16 (fToB16 w).toNat else roundF8A w
  let ps := ts.map (fun t => (t.1, rnd (exp2 (fSub t.2 mp))))
  let vals := ps.map (fun p => (p.1, p.2, x.valueOf content p.1 wfmt slice_))
  let at_ := fun (f : (Nat × W32 × List (W32 × Nat)) → W32) =>
    treeSum ((List.range 16).map (fun k => match vals.find? (fun v => v.1 == k) with | some v => f v | none => 0))
  let o := (List.range x.owidth).map fun d => at_ fun v =>
    let e := (v.2.2[d]?).getD (0, 127)
    if !fIsFinite e.1 || e.2 = 255 || !fIsFinite (applyScale e.1 e.2) then fNaN else applyScale (fMul v.2.1 e.1) e.2
  some (mp, at_ (fun v => v.2.1), o)

/-- A unit added to a row. -/
def Stream.addPage (x : Stream) (a : RowAcc) (u : PageUnit) (content : List Byte) (wfmt : Fmt) (slice_ : List Byte) : RowAcc :=
  let i := x.rowPos a.row
  let vis := x.slotsFor u i
  if a.nan || vis.isEmpty || x.headGroup (x.rowHead a.row) != u.group then a else
  match x.pageSums a.row i u content wfmt slice_ vis with
  | none => a.toNaN
  | some (mp, l, o) =>
    let m := if a.empty then mp else fMax a.m mp
    let a := if a.empty || fOrd m = fOrd a.m then a else a.rescale (exp2 (fSub a.m m))
    let f := exp2 (fSub mp m)
    { a with m := m, empty := false, lBlk := fAdd a.lBlk (fMul l f), oBlk := List.zipWith fAdd a.oBlk (o.map (fMul · f)) }

/-- A full block accumulator added to the running one (R27). -/
def RowAcc.fold (a : RowAcc) : RowAcc :=
  { a with lRun := fAdd a.lRun a.lBlk, lBlk := 0, oRun := List.zipWith fAdd a.oRun a.oBlk, oBlk := a.oBlk.map (fun _ => 0) }

/-- The partial record of a row (R31, R32, Table 6-2). -/
def RowAcc.record (a : RowAcc) : Rec :=
  if a.nan then ⟨a.row, fNaN, fNaN, a.oRun.map (fun _ => fNaN)⟩
  else if a.empty then ⟨a.row, fNegInf, 0, a.oRun.map (fun _ => 0)⟩
  else let a := a.fold; ⟨a.row, a.m, a.lRun, a.oRun⟩

/-! ## The merge rule (R115) and normalisation (R118) -/

def Rec.isEmpty (r : Rec) : Bool := r.m == fNegInf

def mergeRec (a b : Rec) : Rec :=
  if fIsNaN a.m || fIsNaN b.m then { a with m := fNaN, l := fNaN, o := a.o.map (fun _ => fNaN) }
  else if b.isEmpty then a
  else if a.isEmpty then { b with row := a.row }
  else
    let m := fMax a.m b.m
    let fa := exp2 (fSub a.m m)
    let fb := exp2 (fSub b.m m)
    { a with m := m, l := fAdd (fMul a.l fa) (fMul b.l fb),
             o := List.zipWith (fun p q => fAdd (fMul p fa) (fMul q fb)) a.o b.o }

/-- An element of a result in its format. -/
def outElem (f32 : Bool) (x : W32) : List Byte := if f32 then le 4 x.toNat else le 2 (fToB16 x).toNat

/-- The normalised row. -/
def Rec.normal (r : Rec) (f32 : Bool) : List Byte :=
  if r.isEmpty then r.o.flatMap (fun _ => outElem f32 0) else r.o.flatMap (fun e => outElem f32 (fDiv e r.l))

def Rec.bytes (r : Rec) : List Byte := le 4 r.m.toNat ++ le 4 r.l.toNat ++ r.o.flatMap (fun e => le 4 e.toNat)

/-- The records a block of n rows of width ow spells. -/
def recsOf (n ow : Nat) (p : List Byte) : List Rec :=
  (List.range n).map fun r =>
    let b := slice p (r * (8 + 4 * ow)) (8 + 4 * ow)
    ⟨r, BitVec.ofNat 32 (lat b 0 4), BitVec.ofNat 32 (lat b 4 4), (List.range ow).map (fun i => BitVec.ofNat 32 (lat b (8 + 4 * i) 4))⟩

/-- A partial block header (Table 6-1). -/
def blockHeader (handle hstream sub gen rows ow status units : Nat) : List Byte :=
  le 8 handle ++ le 4 (hstream + sub * 2 ^ 16 + gen * 2 ^ 28) ++ le 4 rows ++ le 4 0 ++ le 2 ow ++ le 1 status ++ le 1 6 ++
    le 4 units ++ zeros 4

/-- The running record of a row; EMPTY where none has come. -/
def Stream.recAt (x : Stream) (r : Nat) : Rec := (tfind x.recs r).getD ⟨r, fNegInf, 0, List.replicate x.owidth 0⟩

/-! ## Digests (R132, R133) -/

/-- Positions of a digest: the key elements, or the latent and rotary elements. -/
def digestK (def0 : Nat) : Nat := if latent def0 then widthA def0 + widthB def0 else widthA def0

def digestBytes (def0 : Nat) : Nat := ceilDiv (16 + 2 * digestK def0) 16 * 16

/-- Decoded element d of the key part of a slot. -/
def keyValue (def0 : Nat) (content : List Byte) (slot d : Nat) : W32 :=
  let fa := (fmtOf (fmtA def0)).getD .f8a
  if latent def0 then
    let row := slice content (slot * tokenBytes def0) (tokenBytes def0)
    if d < widthA def0 then rowValue fa row (widthA def0) d
    else rowValue ((fmtOf (fmtB def0)).getD .f8a) (row.drop (rowA def0)) (widthB def0) (d - widthA def0)
  else rowValue fa (slice content (slot * rowA def0) (rowA def0)) (widthA def0) d

/-- A scale byte of 0xFF in a covered row. -/
def badScale (def0 : Nat) (content : List Byte) (slot : Nat) : Bool :=
  let fa := (fmtOf (fmtA def0)).getD .f8a
  fa.scaled && (List.range (widthA def0 / 32)).any fun b =>
    rowScale fa (slice content (if latent def0 then slot * tokenBytes def0 else slot * rowA def0) (rowA def0)) (widthA def0) b == 255

/-- The digest of a page of `valid` slots (Table 7-1). -/
def digestOf (def0 desc crc valid : Nat) (content : List Byte) : List Byte :=
  let k := digestK def0
  let vals := (List.range k).map fun d => (List.range valid).map fun s => keyValue def0 content s d
  let unb := vals.any (fun l => l.any (fun v => !fIsFinite v)) || (List.range valid).any (badScale def0 content)
  let lo := vals.map fun l => toF8B .down (l.foldl fMin (l.headD 0))
  let hi := vals.map fun l => toF8B .up (l.foldl fMax (l.headD 0))
  le 2 k ++ le 1 valid ++ le 1 (2 + (if unb then 16 else 0)) ++ le 4 desc ++ le 4 crc ++ zeros 4 ++ lo ++ hi ++
    zeros (digestBytes def0 - 16 - 2 * k)

/-! ## Bounds and skipping (R136-R141) -/

/-- A finite number that is an integer. -/
def fIsInt (x : W32) : Bool := decide (0 ≤ (fMag x).2) || (fMag x).1 % 2 ^ (-(fMag x).2).toNat == 0

/-- 2^x rounded up, for any x; exact at the integers (R28). The table's product falls short by less than 2^-89. -/
def exp2Up (x : W32) : W32 :=
  let g := fixMag x
  if fIsNaN x then fNaN
  else if fIsInf x then (if fSign x then 0 else fInf)
  else if fIsInt x then fRound .up false 1 (if fSign x then -((min 512 (g / 2 ^ 64) : Nat) : Int) else (min 512 (g / 2 ^ 64) : Nat)) false
  else if fSign x then
    let a := exp2Approx x
    fRound .up false (a.1 + 128) a.2 false
  else if 2 ^ 72 ≤ g then fInf
  else fRound .up false (exp2Fix (g % 2 ^ 64) + 128) ((g / 2 ^ 64 : Nat) - 96) false

/-- A product where zero times infinity counts as 0 (R136 step 1), rounded up. -/
def mulUp0 (a b : W32) : W32 := if fIsZero a || fIsZero b then 0 else fMulR .up a b

/-- The bound U of a row against a digest (R136). -/
def Stream.bound (x : Stream) (dig : List Byte) (r : Nat) (u : PageUnit) (vis : List Nat) : W32 :=
  let k := digestK x.def0
  let q := x.query r
  let d := (List.range k).foldl (fun acc j =>
    let qd := (q[j]?).getD 0
    fAddR .up acc (fMax (mulUp0 qd (decF8B (byteAt dig (16 + j)))) (mulUp0 qd (decF8B (byteAt dig (16 + k + j)))))) 0
  let z := fMulR .up d x.scale
  let z := if x.cap then
      let t := ftanhUp (fDivR .up z x.capval)
      fMulR .up x.capval (fAddR .up t (fMulR .up (fAbs t) 0x35800000))
    else z
  let z := if x.bias then
      let sl := (x.slopes[x.rowHead r]?).getD 0
      let terms := vis.map fun s => fNeg (fMulR .down sl (fOfInt ((x.rowPos r : Int) - (16 * u.page + s))))
      fAddR .up z (terms.foldl fMax (terms.headD 0))
    else z
  fMulR .up z fL2EUp

/-- The test of R140 for one row with n visible pairs: the skipped mass it would have, where the page may be skipped. -/
def skipTest (a : RowAcc) (bound delta : W32) (n : Nat) : Option W32 :=
  let l := fAdd a.lRun a.lBlk
  if a.nan || a.empty || !fLt 0 l then none else
  let sm := fAddR .up a.skipped (fMulR .up (fOfInt n) (exp2Up (fAddR .up bound (fNeg a.m))))
  if fLe sm (fMul delta l) then some sm else none

/-- A key that orders units in descending bound; NaN is the highest. -/
def keyOrd (w : W32) : Int := if fIsNaN w then 2 ^ 32 else fOrd w

end Sys2Proof.Machine
end

