-- ==== Sys2Proof/Machine/Expand.lean ====
section
/-! DEFINITION. Weight blocks and their decoding (chapter 8). -/

namespace Sys2Proof.Machine

/-! ## The fixed tables (R152-R154) -/

/-- The stream bits of stored bytes: bit k mod 8 of byte k div 8. -/
def streamBits : List Byte → List Bool
  | [] => []
  | b :: l => (List.range 8).map (fun i => b.toNat.testBit i) ++ streamBits l

/-- n raw bits, leftmost first; none where the stream ends inside them. -/
def rawBits : Nat → Nat → List Bool → Option (Nat × List Bool)
  | 0, acc, l => some (acc, l)
  | _ + 1, _, [] => none
  | n + 1, acc, b :: l => rawBits n (2 * acc + (if b then 1 else 0)) l

/-- A symbol of Table A. -/
def symA (l : List Bool) : Option (Nat × List Bool) :=
  match l with
  | false :: false :: l => some (5, l)
  | false :: true :: l => some (6, l)
  | true :: false :: false :: l => some (4, l)
  | true :: false :: true :: l => some (7, l)
  | true :: true :: false :: false :: l => some (3, l)
  | true :: true :: false :: true :: l => some (8, l)
  | true :: true :: true :: false :: false :: l => some (2, l)
  | true :: true :: true :: false :: true :: l => some (9, l)
  | true :: true :: true :: true :: l =>
    (rawBits 3 0 l).map fun r => (if r.1 < 2 then r.1 else r.1 + 8, r.2)
  | _ => none

/-- A symbol of Table B; every form of the escape is taken. -/
def symB (l : List Bool) : Option (Nat × List Bool) :=
  match l with
  | false :: l => (rawBits 3 0 l).map fun r => (60 + r.1, r.2)
  | true :: false :: l => (rawBits 4 0 l).map fun r => (if r.1 < 8 then 52 + r.1 else 60 + r.1, r.2)
  | true :: true :: false :: l => (rawBits 5 0 l).map fun r => (if r.1 < 16 then 36 + r.1 else 60 + r.1, r.2)
  | true :: true :: true :: l => rawBits 7 0 l
  | _ => none

/-- One byte of a TABLE_A block (R152). -/
def elemA (shift : Nat) (l : List Bool) : Option (List Byte × List Bool) :=
  (symA l).bind fun h => (rawBits 4 0 h.2).map fun r =>
    (le 1 ((r.1 / 8) * 128 + (h.1 + 16 - shift % 16) % 16 * 8 + r.1 % 8), r.2)

/-- One element of a TABLE_B block (R153). -/
def elemB (shift : Nat) (l : List Bool) : Option (List Byte × List Bool) :=
  (symB l).bind fun t => (rawBits 1 0 t.2).bind fun sg => (rawBits 8 0 sg.2).map fun lo =>
    (le 2 (sg.1 * 2 ^ 15 + (t.1 + 128 - shift % 128) % 128 * 256 + lo.1), lo.2)

/-- Elements decoded in memory order; none: the stream ends first. -/
def elems (one : List Bool → Option (List Byte × List Bool)) : Nat → List Bool → Option (List Byte × List Bool)
  | 0, l => some ([], l)
  | n + 1, l => (one l).bind fun e => (elems one n e.2).map fun r => (e.1 ++ r.1, r.2)

/-! ## Blocks (R149, R150, R155) -/

/-- An image's shape and addresses, by the word of WXP_IMG_SHAPE (Table 8-8). -/
structure ImgShape where
  wfmt : Nat
  w : Nat
  vdim : Nat
  kdim : Nat
  heads : Nat
  layers : Nat
  base : Nat
  table : Nat
  deriving DecidableEq, Repr

def State.imgShape (s : State) (m : Nat) : ImgShape :=
  ⟨s.fd (Fd.WXP_IMG_SHAPE_WFMT.at m), s.fd (Fd.WXP_IMG_SHAPE_W.at m), s.fd (Fd.WXP_IMG_SHAPE_VDIM.at m),
   s.fd (Fd.WXP_IMG_SHAPE_KDIM.at m), s.fd (Fd.WXP_IMG_SHAPE_HEADS_M1.at m) + 1, s.fd (Fd.WXP_IMG_SHAPE_LAYERS_M1.at m) + 1,
   s.fd (Fd.WXP_IMG_BASE_ADDR.at m), s.fd (Fd.WXP_IMG_TABLE_ADDR.at m)⟩

def ImgShape.fmt (i : ImgShape) : Fmt := if i.wfmt = 0 then .f8a else if i.wfmt = 1 then .f8b else .b16
def ImgShape.sliceBytes (i : ImgShape) : Nat := (i.kdim + i.vdim) * i.fmt.rowBytes i.w
def ImgShape.bps (i : ImgShape) : Nat := ceilDiv i.sliceBytes 4096
def ImgShape.blocks (i : ImgShape) : Nat := i.layers * i.heads * i.bps
def ImgShape.bytes (i : ImgShape) : Nat := i.blocks * 4096 + ceilDiv (i.blocks * 16) 4096 * 4096

/-- A block decoded from its table entry and its stored bytes (Table 8-5): the status and the decoded bytes. `verify`
checks DCRC. -/
def decodeBlock (wfmt : Nat) (entry stored : List Byte) (verify : Bool) : Nat × List Byte :=
  let clen := lat entry 0 2
  let dlen := lat entry 2 2
  let code := lat entry 4 1
  let shift := lat entry 5 1
  let b16 := wfmt == 2
  if 3 ≤ code ∨ (code = 1 ∧ b16) ∨ (code = 2 ∧ !b16) ∨ clen = 0 ∨ 4096 < clen ∨ dlen = 0 ∨ 4096 < dlen ∨ (b16 ∧ dlen % 2 = 1) ∨
      2 ≤ lat entry 6 1 ∨ lat entry 7 1 ≠ 0 ∨ lat entry 12 4 ≠ 0 ∨ (code = 0 ∧ shift ≠ 0) ∨ (code = 1 ∧ 16 ≤ shift) ∨
      (code = 2 ∧ 128 ≤ shift) then (stFORMAT, [])
  else
    let src := slice stored 0 clen
    let r : Nat × List Byte :=
      if code = 0 then
        if clen < dlen then (stUNDERRUN, []) else if dlen < clen then (stOVERRUN, []) else (stOK, src)
      else
        let dec := if code = 1 then elems (elemA shift) dlen (streamBits src) else elems (elemB shift) (dlen / 2) (streamBits src)
        match dec with
        | none => (stUNDERRUN, [])
        | some (out, rest) => if 8 ≤ rest.length || rest.any id then (stOVERRUN, []) else (stOK, out)
    if r.1 ≠ stOK then r
    else if verify && crc32c r.2 != lat entry 8 4 then (stPOISONED, [])
    else r

/-- Entry and slot of block n. -/
def State.blockEntry (s : State) (i : ImgShape) (n : Nat) : List Byte := s.hbmRead (i.table + 16 * n) 16
def State.blockStored (s : State) (i : ImgShape) (n : Nat) : List Byte := s.hbmRead (i.base + 4096 * n) 4096

/-- A block marked poisoned (R157), or the mark cleared (R160), by one write of its entry. -/
def State.setPsn (s : State) (i : ImgShape) (n : Nat) (on : Bool) : State :=
  let b := lat (s.blockEntry i n) 6 1
  s.hbmWrite (i.table + 16 * n + 6) (le 1 (b - b % 2 + (if on then 1 else 0)))

/-- The image serves: LOADED or RESTORING. -/
def State.imgServes (s : State) (m : Nat) : Bool :=
  let st := s.fd (Fd.WXP_IMG_STATUS_STATE.at m)
  st == 2 || st == 5

/-- The projection slice of a head, from its decoded blocks. -/
def sliceOf (i : ImgShape) (blocks : Tbl (List Byte)) (layer head : Nat) : List Byte :=
  (List.range i.bps).flatMap fun b => (tfind blocks ((layer * i.heads + head) * i.bps + b)).getD []

end Sys2Proof.Machine
end

