-- ==== Sys2Proof/Machine/Crypto.lean ====
section
/-! DEFINITION. The cryptography of the standards of Table 0-4: AES-256-GCM (R268, R376), AES-256-XTS (R377), SHA-256 and
RSASSA-PSS verification (R380-R385). Numbers are naturals below 2^n; byte strings are lists. -/

namespace Sys2Proof.Machine

/-! ## AES-256 (FIPS 197, as SP 800-38D and IEEE 1619 use it) -/

/-- Multiplication by x in GF(2^8). -/
def xtime (a : Nat) : Nat := if a < 128 then 2 * a else (2 * a) ^^^ 0x11B

/-- Product in GF(2^8). -/
def gmulAux : Nat → Nat → Nat → Nat
  | 0, _, _ => 0
  | n + 1, a, b => (if b % 2 = 1 then a else 0) ^^^ gmulAux n (xtime a) (b / 2)
def gmul (a b : Nat) : Nat := gmulAux 8 a b

/-- Inverse in GF(2^8): the 254th power, by squarings; 0 for 0. -/
def ginv (a : Nat) : Nat :=
  let a2 := gmul a a
  let a4 := gmul a2 a2
  let a8 := gmul a4 a4
  let a16 := gmul a8 a8
  let a32 := gmul a16 a16
  let a64 := gmul a32 a32
  let a128 := gmul a64 a64
  gmul a2 (gmul a4 (gmul a8 (gmul a16 (gmul a32 (gmul a64 a128)))))

def rotl8 (a n : Nat) : Nat := (a * 2 ^ n + a / 2 ^ (8 - n)) % 256

/-- The S-box: the inverse under its affine map. -/
def sbox (a : Nat) : Nat :=
  let b := ginv a
  b ^^^ rotl8 b 1 ^^^ rotl8 b 2 ^^^ rotl8 b 3 ^^^ rotl8 b 4 ^^^ 0x63

def subBytes (l : List Nat) : List Nat := l.map sbox

/-- The word i of the key schedule from the words before it, newest first. -/
def keyWord (i rcon : Nat) (ws : List (List Nat)) : List Nat :=
  let prev := (ws[0]?).getD []
  let old := (ws[7]?).getD []
  let t := if i % 8 = 0 then
      match subBytes (prev.drop 1 ++ prev.take 1) with
      | a :: r => (a ^^^ rcon) :: r
      | [] => []
    else if i % 8 = 4 then subBytes prev else prev
  List.zipWith (· ^^^ ·) old t

def keyWords : Nat → Nat → Nat → List (List Nat) → List (List Nat)
  | 0, _, _, ws => ws
  | n + 1, i, rcon, ws =>
    keyWords n (i + 1) (if i % 8 = 0 then xtime rcon else rcon) (keyWord i rcon ws :: ws)

/-- n-element groups. -/
def groups {α : Type} (n : Nat) : Nat → List α → List (List α)
  | 0, _ => []
  | k + 1, l => l.take n :: groups n k (l.drop n)

/-- The 15 round keys of a 32-byte key. -/
def roundKeys (key : List Byte) : List (List Nat) :=
  let ws := groups 4 8 (key.map BitVec.toNat)
  (groups 4 15 (keyWords 52 8 1 ws.reverse).reverse).map List.flatten

def shiftRows (l : List Nat) : List Nat :=
  (List.range 16).map (fun i => (l[(i + 4 * (i % 4)) % 16]?).getD 0)

def mixColumn : List Nat → List Nat
  | [a, b, c, d] =>
    [xtime a ^^^ xtime b ^^^ b ^^^ c ^^^ d, a ^^^ xtime b ^^^ xtime c ^^^ c ^^^ d,
     a ^^^ b ^^^ xtime c ^^^ xtime d ^^^ d, xtime a ^^^ a ^^^ b ^^^ c ^^^ xtime d]
  | l => l
def mixColumns (l : List Nat) : List Nat := ((groups 4 4 l).map mixColumn).flatten

def aesRounds : List (List Nat) → List Nat → List Nat
  | [], st => st
  | [k], st => List.zipWith (· ^^^ ·) (shiftRows (subBytes st)) k
  | k :: ks, st => aesRounds ks (List.zipWith (· ^^^ ·) (mixColumns (shiftRows (subBytes st))) k)

/-- One block under the round keys. -/
def aesBlock (rks : List (List Nat)) (blk : List Byte) : List Byte :=
  match rks with
  | [] => blk
  | k :: ks => (aesRounds ks (List.zipWith (· ^^^ ·) (blk.map BitVec.toNat) k)).map (BitVec.ofNat 8)

/-! ## GCM -/

/-- Product in GF(2^128), bit 0 of a block being its most significant bit. -/
def ghMulAux : Nat → Nat → Nat → Nat → Nat
  | 0, _, _, z => z
  | n + 1, x, v, z =>
    let z := if x / 2 ^ n % 2 = 1 then z ^^^ v else z
    let v := if v % 2 = 1 then (v / 2) ^^^ (0xE1 * 2 ^ 120) else v / 2
    ghMulAux n x v z
def ghMul (x y : Nat) : Nat := ghMulAux 128 x y 0

/-- Zero-padding to whole 16-byte blocks. -/
def pad16 (l : List Byte) : List Byte := l ++ zeros ((16 - l.length % 16) % 16)

def ghash (h : Nat) (l : List Byte) : Nat :=
  (cut 16 (l.length / 16) l).foldl (fun y b => ghMul (y ^^^ unbe b) h) 0

/-- Counter-mode key stream over a 96-bit nonce, from counter `ctr`. -/
def ctrStream (rks : List (List Nat)) (nonce : List Byte) : Nat → Nat → List Byte
  | 0, _ => []
  | n + 1, ctr => aesBlock rks (nonce ++ be 4 ctr) ++ ctrStream rks nonce n (ctr + 1)

def xorBytes (a b : List Byte) : List Byte := List.zipWith (· ^^^ ·) a b

/-- The tag of a cipher text. -/
def gcmTag (rks : List (List Nat)) (nonce aad ct : List Byte) : List Byte :=
  let h := unbe (aesBlock rks (zeros 16))
  let g := ghash h (pad16 aad ++ pad16 ct ++ be 8 (8 * aad.length) ++ be 8 (8 * ct.length))
  xorBytes (be 16 g) (aesBlock rks (nonce ++ be 4 1))

/-- Cipher text and tag (R268). -/
def gcmSeal (key nonce aad pt : List Byte) : List Byte :=
  let rks := roundKeys key
  let ct := xorBytes pt (ctrStream rks nonce (ceilDiv pt.length 16) 2)
  ct ++ gcmTag rks nonce aad ct

/-- The plain text of a cipher text whose tag verifies. -/
def gcmOpen (key nonce aad ctTag : List Byte) : Option (List Byte) :=
  if ctTag.length < 16 then none else
  let rks := roundKeys key
  let ct := ctTag.take (ctTag.length - 16)
  if gcmTag rks nonce aad ct = ctTag.drop (ctTag.length - 16) then
    some (xorBytes ct (ctrStream rks nonce (ceilDiv ct.length 16) 2))
  else none

/-! ## XTS -/

/-- The tweak times x. -/
def xtsStep (t : Nat) : Nat := if t < 2 ^ 127 then 2 * t else (2 * t % 2 ^ 128) ^^^ 0x87

def xtsBlocks (rks : List (List Nat)) : Nat → List (List Byte) → List Byte
  | _, [] => []
  | t, b :: bs => xorBytes (aesBlock rks (xorBytes b (le 16 t))) (le 16 t) ++ xtsBlocks rks (xtsStep t) bs

/-- AES-256-XTS of a whole data unit of 16-byte blocks: data key, tweak key, unit number. -/
def xtsSeal (k1 k2 : List Byte) (unit : Nat) (pt : List Byte) : List Byte :=
  xtsBlocks (roundKeys k1) (unle (aesBlock (roundKeys k2) (le 16 unit))) (cut 16 (pt.length / 16) pt)

/-! ## SHA-256 (FIPS 180-4), its eight chaining words and its sixteen message words held as one number each -/

/-- The first 64 primes. -/
def primes64 : List Nat := [
  2, 3, 5, 7, 11, 13, 17, 19, 23, 29, 31, 37, 41, 43, 47, 53, 59, 61, 67, 71, 73, 79,
  83, 89, 97, 101, 103, 107, 109, 113, 127, 131, 137, 139, 149, 151, 157, 163, 167, 173, 179, 181, 191, 193,
  197, 199, 211, 223, 227, 229, 233, 239, 241, 251, 257, 263, 269, 271, 277, 281, 283, 293, 307, 311]

/-- The largest r < 2^n, above the part found so far, whose k-th power is at most m. -/
def rootFrom (k m : Nat) : Nat → Nat → Nat
  | 0, r => r
  | n + 1, r => rootFrom k m n (if (r + 2 ^ n) ^ k ≤ m then r + 2 ^ n else r)

/-- The first 32 bits of the fraction of the k-th root of p: FIPS 180-4 takes cube roots for its round constants and square roots
for its initial words. -/
def rootBits (k p : Nat) : Nat := rootFrom k (p * 2 ^ (32 * k)) 37 0 % 2 ^ 32

/-- Word i of a number, counted from its low end. -/
def word32 (x i : Nat) : Nat := x / 2 ^ (32 * i) % 2 ^ 32

/-- A word turned right. -/
def turn (n x : Nat) : Nat := (x * 2 ^ 32 + x) / 2 ^ n % 2 ^ 32

/-- The initial words, the first in the highest place. -/
def shaStart : Nat := (primes64.take 8).foldl (fun acc p => acc * 2 ^ 32 + rootBits 2 p) 0

/-- The message words move up by one, and the next one comes in: the oldest is word 15. -/
def shaSlide (w : Nat) : Nat :=
  let far := word32 w 14
  let near := word32 w 1
  let next := word32 w 15 + word32 w 6 + (turn 7 far ^^^ turn 18 far ^^^ far / 2 ^ 3) +
    (turn 17 near ^^^ turn 19 near ^^^ near / 2 ^ 10)
  w % 2 ^ 480 * 2 ^ 32 + next % 2 ^ 32

/-- One round: the words a to h are words 7 to 0; `m` is the message word with the round's constant. -/
def shaMix (st m : Nat) : Nat :=
  let w := word32 st
  let pick := (w 3 &&& w 2) ||| (w 1 - (w 3 &&& w 1))
  let most := (w 7 &&& (w 6 ||| w 5)) ||| (w 6 &&& w 5)
  let up := w 0 + (turn 6 (w 3) ^^^ turn 11 (w 3) ^^^ turn 25 (w 3)) + pick + m
  let top := up + (turn 2 (w 7) ^^^ turn 13 (w 7) ^^^ turn 22 (w 7)) + most
  top % 2 ^ 32 * 2 ^ 224 + (st / 2 ^ 32 - w 4 * 2 ^ 96 + (w 4 + up) % 2 ^ 32 * 2 ^ 96)

/-- The rounds of a block, one for each prime of the list. -/
def shaRounds : List Nat → Nat → Nat → Nat
  | [], _, st => st
  | p :: ps, w, st => shaRounds ps (shaSlide w) (shaMix st (word32 w 15 + rootBits 3 p))

/-- A block of 64 bytes taken in: each word of the result is added to its own. -/
def shaAbsorb (st : Nat) (blk : List Byte) : Nat :=
  let out := shaRounds primes64 (unbe blk) st
  (List.range 8).foldl (fun acc i => acc + (word32 st i + word32 out i) % 2 ^ 32 * 2 ^ (32 * i)) 0

/-- SHA-256 of a byte string: the string, a set bit, zeros, and its length in bits in the last 8 bytes of a block. -/
def sha256 (m : List Byte) : List Byte :=
  let n := ceilDiv (m.length + 9) 64
  be 32 ((cut 64 n (m ++ 0x80 :: zeros (64 * n - m.length - 9) ++ be 8 (8 * m.length))).foldl shaAbsorb shaStart)

/-! ## RSASSA-PSS with RSA-3072, SHA-256, MGF1 and salt length 32 (R379) -/

/-- b^e mod n by squaring, over the bits of e from the lowest. -/
def powMod : Nat → Nat → Nat → Nat → Nat
  | 0, _, _, n => 1 % n
  | k + 1, b, e, n => (if e % 2 = 1 then b else 1) * powMod k (b * b % n) (e / 2) n % n

/-- MGF1: n blocks from counter c. -/
def mgf1 (seed : List Byte) : Nat → Nat → List Byte
  | 0, _ => []
  | n + 1, c => sha256 (seed ++ be 4 c) ++ mgf1 seed n (c + 1)

/-- Whether `sig` (384 bytes) is a signature of the message digest under modulus n and exponent e. -/
def pssVerify (modulus exponent : Nat) (digest sig : List Byte) : Bool :=
  let em := be 384 (powMod 32 (unbe sig) exponent modulus)
  let masked := em.take 351
  let h := slice em 351 32
  let db := match xorBytes masked (mgf1 h 11 0) with
    | a :: l => BitVec.ofNat 8 (a.toNat % 128) :: l
    | [] => []
  let salt := db.drop 319
  sig.length == 384 && unbe sig < modulus && em.drop 383 == [0xBC] && decide ((byteAt0 em) < 128) &&
    db.take 318 == zeros 318 && slice db 318 1 == [0x01] && sha256 (zeros 8 ++ digest ++ salt) == h
where
  byteAt0 (l : List Byte) : Nat := ((l[0]?).getD 0).toNat

end Sys2Proof.Machine
end

