-- ==== Sys2Proof/Machine/FltOps.lean ====
section
/-! DEFINITION. The translation layer of the flash tier (chapter 11): units, areas, the map, superblocks, the journal. -/

namespace Sys2Proof.Machine

/-! ## Geometry (R217-R221) -/

/-- Bits per cell: 3 for TLC, 4 for QLC. -/
def State.cellBits (s : State) : Nat := if s.fd Fd.FLT_GEOM_CELL = 3 then 4 else 3

/-- A block by bits 31:10 of its unit addresses (Table 11-3); `lun` is CE * 4 + LUN. -/
def blockKey (ch lun blk : Nat) : Nat := ch * 2 ^ 18 + lun / 4 * 2 ^ 15 + lun % 4 * 2 ^ 13 + blk

/-- Blocks of a channel's LUN that the last format left out, ascending. -/
def State.excludedIn (s : State) (ch lun : Nat) : List Nat :=
  (s.flt.excluded.filter fun b => b / 2 ^ 13 == blockKey ch lun 0 / 2 ^ 13).map (· % 2 ^ 13)

/-- Good blocks of a channel's LUN, and the block index of the n-th of them (R220). -/
def State.goodBlocks (s : State) (ch lun : Nat) : Nat := s.fd Fd.FLT_GEOM_BLOCKS - (s.excludedIn ch lun).length
def State.goodAt (s : State) (ch lun n : Nat) : Nat := (s.excludedIn ch lun).foldl (fun i b => if b ≤ i then i + 1 else i) n

/-- Spare blocks of a LUN: 2 % of its good blocks and at least 8 (R220). -/
def State.sparesOf (s : State) (ch lun : Nat) : Nat := max 8 (s.goodBlocks ch lun * 2 / 100)

/-- Pairs of CE and LUN, as CE * 4 + LUN. -/
def State.ceLuns (s : State) : List Nat :=
  (List.range (s.fd Fd.FLT_GEOM_CE_M1 + 1)).flatMap fun c => (List.range (s.fd Fd.FLT_GEOM_LUNS_M1 + 1)).map fun l => c * 4 + l

/-- Superblock numbers: CE * 4 + LUN above, the block index below; block 0 of CE 0, LUN 0 is the anchor (R232). -/
def sbLun (sb : Nat) : Nat := sb / 8192
def sbIndex (sb : Nat) : Nat := sb % 8192

/-- Superblocks of a LUN, and of the device. -/
def State.sbFirst (lun : Nat) : Nat := if lun = 0 then 1 else 0
def State.sbPerLun (s : State) (lun : Nat) : Nat :=
  (List.range 15).foldl (fun n c => min n (s.goodBlocks (c + 1) lun - s.sparesOf (c + 1) lun)) (s.goodBlocks 0 lun - s.sparesOf 0 lun)
def State.sbTotal (s : State) : Nat := s.ceLuns.foldl (fun n l => n + s.sbPerLun l) 0 - 1

/-- L of R221, from the declared raw capacity, rounded down once. -/
def State.logicalUnits (s : State) : Nat :=
  s.fd Fd.FLT_GEOM_RAW_TB * 10 ^ 12 * 15 * (100 - s.fd Fd.FLT_CTL_OP_PCT) / (65536 * 1600)

/-- Members of a superblock: channels, ascending. -/
def SuperBlock.members (b : SuperBlock) : List Nat := (List.range 16).filter (fun c => !b.gone.contains c)

/-- Data units per stripe. -/
def SuperBlock.width (b : SuperBlock) : Nat := b.members.length - 1

/-- Pages of a block in its mode. -/
def State.sbPages (s : State) (b : SuperBlock) : Nat :=
  if b.slc then s.fd Fd.FLT_GEOM_PAGES / s.cellBits else s.fd Fd.FLT_GEOM_PAGES

/-- The address of a member's block, UPAGE 0. -/
def State.blockAt (s : State) (b : SuperBlock) (sb ch : Nat) : Nat :=
  blockKey ch (sbLun sb) ((tfind b.swapped ch).getD (s.goodAt ch (sbLun sb) (sbIndex sb))) * 2 ^ 10

/-- The PUA of data unit f of a superblock: the stripe's parity lies on member UPAGE mod M (R220, Table 11-3). -/
def State.puaAt (s : State) (b : SuperBlock) (sb f : Nat) : Nat :=
  let w := max 1 b.width
  let u := f / w
  let par := u % (w + 1)
  let i := if f % w < par then f % w else f % w + 1
  s.blockAt b sb ((b.members[i]?).getD 0) + u

/-- Whole pages programmed in each block. -/
def SuperBlock.pagesDone (b : SuperBlock) : Nat := b.filled / max 1 b.width

/-! ## The map (R222, R223) -/

def State.lunit (s : State) (l : Nat) : Option LUnit := tfind s.flt.map l

/-- First unit and size of an area (Table 11-13), and the area a unit lies in. -/
def State.area (s : State) (a : Nat) : Nat × Nat := (s.fd (Fd.FLT_AREA_BASE a), s.fd (Fd.FLT_AREA_SIZE a))
def State.areaOf (s : State) (l : Nat) : Option Nat :=
  (List.range 4).find? (fun a => (s.area a).1 ≤ l && l < (s.area a).1 + (s.area a).2)

/-- The tier serves: STATE SERVING and ENABLE (Table 11-13). -/
def State.fltServes (s : State) : Bool := s.fd Fd.FLT_STATUS_STATE == 4 && s.flag Fd.FLT_CTL_ENABLE && !s.flt.stopped

/-- The translation layer runs: STATE READY or SERVING. -/
def State.fltUp (s : State) : Bool := (s.fd Fd.FLT_STATUS_STATE == 3 || s.fd Fd.FLT_STATUS_STATE == 4) && !s.flt.stopped

/-- The key of a slot: 0 to 15 a partition's, 16 the system key (R228). -/
def State.xtsKey (s : State) (k : Nat) : Option (List Byte) := tfind s.sec.xts k

/-- An UNMAPPED unit of an area, the device's choice. -/
def State.freeUnit (s : State) (a : Nat) : Option Nat :=
  let (lo, n) := s.area a
  ((lo + Config.pick s.free % max 1 n) :: lo :: s.flt.map.map (fun p => p.1 + 1)).find?
    (fun l => lo ≤ l && l < lo + n && l < s.fd Fd.FLT_LOGICAL_UNITS && (s.lunit l).isNone)

/-- One unit handed to a user of an area (R223 step 1): the control firmware's at any time, the others' while the tier serves. -/
def State.fltAlloc (s : State) (a : Nat) : Option (Nat × State) :=
  (if (a = 0 ∧ s.fltUp) ∨ s.fltServes then s.freeUnit a else none).map fun l => (l, (s.onFlt fun f => { f with map := tset f.map l ⟨.allocated, 0⟩ }).drawn)

/-- n units, or none. -/
def State.fltAllocN : Nat → Nat → State → Option (List Nat × State)
  | 0, _, s => some ([], s)
  | n + 1, a, s => (s.fltAlloc a).bind fun r => (State.fltAllocN n a r.2).map fun q => (r.1 :: q.1, q.2)

/-! ## The journal (R231) -/

/-- A record appended to the open journal unit. -/
def State.journal (s : State) (e : JEffect) : State :=
  s.onFlt fun f => { f with
    jopen := f.jopen ++ [(f.jseq, e)]
    jopenAt := if f.jopen.isEmpty then s.mtime else f.jopenAt
    jseq := f.jseq + 1 }

/-- A journal record (Table 11-6). -/
def JEffect.bytes (e : JEffect) (jseq : Nat) : List Byte :=
  let b := fun (ty count pua lunit n old : Nat) =>
    let r := le 1 ty ++ le 1 count ++ zeros 2 ++ le 4 pua ++ le 8 jseq ++ le 8 (lunit + n * 2 ^ 40) ++ le 4 old
    r ++ le 4 (crc32c r)
  match e with
  | .none => b 7 0 0 0 0 0
  | .map l p c => b 1 c p l 0 0
  | .trim l n => b 3 0 0 l (n - 1) 0
  | .slots l c => b 4 c 0 l 0 0
  | .move l old new => b 2 0 new l 0 old
  | .retire p => b 5 0 p 0 0 0
  | .ckpt g p => b 6 0 p g 0 0

/-- A journal unit: its 32-byte header with the JSEQ of the first record, up to 2,047 records, PAD records for the rest. -/
def journalUnit (first : Nat) (l : List (Nat × JEffect)) : List Byte :=
  le 8 first ++ zeros 24 ++ l.flatMap (fun r => r.2.bytes r.1) ++
    (List.range (2047 - l.length)).flatMap (fun i => JEffect.none.bytes (first + l.length + i))

/-- The two channels journal unit n is programmed on. -/
def journalChannels (n : Nat) : Nat × Nat := (n % 8, n % 8 + 8)

/-- The journal units replay can still need, as programmed: their channels and bytes. -/
def State.journalStored (s : State) : List ((Nat × Nat) × List Byte) :=
  (s.flt.jtail.zipIdx (s.flt.junits - s.flt.jtail.length)).map fun u =>
    (journalChannels u.2, journalUnit ((u.1.map Prod.fst).headD 0) u.1)

/-- What a record does to the map: the entry of MAP and MOVE as each finds it. -/
def JEffect.apply (e : JEffect) (m : Tbl LUnit) : Tbl LUnit :=
  match e with
  | .none => m
  | .map l p c => match tfind m l with
    | some ⟨.allocated, _⟩ => tset m l ⟨.at_ p, c⟩
    | _ => m
  | .trim l n => m.filter (fun p => p.1 < l || l + n ≤ p.1)
  | .slots l c => if c = 0 then tdel m l else tmod m l fun u => { u with occ := c }
  | .move l old new => tmod m l fun u => if u.entry = .at_ old then { u with entry := .at_ new } else u
  | .retire _ => m
  | .ckpt _ _ => m

/-- A record applied by replay (R233 step 3): not to a unit of a segment saved after it. An entry's ALLOCATED state is in no
record, so MAP finds any entry that names no place. -/
def JEffect.replay (e : JEffect) (late : Nat → Bool) (m : Tbl LUnit) : Tbl LUnit :=
  match e with
  | .none => m
  | .map l p c =>
    if late l then m else
    match tfind m l with
    | some ⟨.at_ _, _⟩ => m
    | _ => tset m l ⟨.at_ p, c⟩
  | .trim l n => m.filter (fun p => p.1 < l || l + n ≤ p.1 || late p.1)
  | .slots l _ => if late l then m else e.apply m
  | .move l _ _ => if late l then m else e.apply m
  | .retire _ => m
  | .ckpt _ _ => m

/-- A change made now and journaled. -/
def State.fltChange (s : State) (e : JEffect) : State := (s.onFlt fun f => { f with map := e.apply f.map }).journal e

/-- TRIM of n units (R231). -/
def State.fltTrim (s : State) (l n : Nat) : State :=
  ((s.onFlt fun f => { f with writes := f.writes.filter (fun w => w.use == .move || w.lunit < l || l + n ≤ w.lunit) }).fltChange
    (.trim l n)).inc Fd.FLT_TRIMS_COUNT

/-- SLOTS: the live count set; 0 trims (R223). -/
def State.fltSlots (s : State) (l c : Nat) : State :=
  if c = 0 then s.fltTrim l 1 else s.fltChange (.slots l c)

/-- Segments of the map (R232), the oldest live checkpoint, and the journal units it still needs. -/
def State.segments (s : State) : Nat := max 1 (ceilDiv s.logicalUnits 1048576)
def State.oldestCkpt (s : State) : Nat :=
  (List.range s.segments).foldl (fun m g => min m ((tfind s.flt.segAt g).getD 0)) s.flt.jdone
def State.trimJournal (s : State) : State :=
  let o := s.oldestCkpt
  s.onFlt fun f => { f with jtail := f.jtail.filter (fun u => u.any (fun r => o < r.1)) }

/-- Segment copies whose CKPT record has committed are the ones replay uses (R232). -/
def State.takeCkpts (s : State) : State :=
  let due := s.flt.ckpts.filter (fun c => c.2.1 < s.flt.jdone)
  let s := due.foldl (fun (s : State) (c : Nat × Nat × Tbl LUnit) => s.onFlt fun f => { f with
    ckpt := f.ckpt.filter (fun p => p.1 / 1048576 < c.1) ++ c.2.2 ++ f.ckpt.filter (fun p => c.1 < p.1 / 1048576)
    segAt := tset f.segAt c.1 c.2.1
    ckpts := eraseFirst (fun y => y == c) f.ckpts }) s
  if due.isEmpty then s else s.trimJournal

/-- The journal unit is programmed on two channels, PAD records filling the rest: its records commit (R231). -/
def State.jflush (s : State) : State :=
  if s.flt.jopen.isEmpty then s else
  let unit_ := s.flt.jopen.take 2047
  let rest := s.flt.jopen.drop 2047
  (s.onFlt fun f => { f with
    jtail := f.jtail ++ [unit_]
    junits := f.junits + 1
    jopen := rest
    jopenAt := s.mtime
    jdone := match rest with | [] => f.jseq + (2047 - unit_.length) | r :: _ => r.1
    jseq := if rest.isEmpty then f.jseq + (2047 - unit_.length) else f.jseq }).count Fd.FLT_NAND_UNITS_COUNT 2 |>.takeCkpts

/-- The journal holds MAX_MIB of records since the oldest live checkpoint (R232). -/
def State.jfull (s : State) : Bool := s.fd Fd.FLT_JRNL_MAX_MIB * 16 ≤ s.flt.jtail.length

/-- The map replay yields from the checkpoints and the first n journal units, ALLOCATED entries cleared (R233). -/
def State.replayed (s : State) (n : Nat) : Tbl LUnit :=
  ((s.flt.jtail.take n).flatten.foldl (fun m r =>
    r.2.replay (fun l => decide (r.1 < (tfind s.flt.segAt (l / 1048576)).getD 0)) m) s.flt.ckpt).filter
    (fun p => p.2.entry != .allocated)

/-! ## Superblocks (R220, R225, R235) -/

def State.sb (s : State) (b : Nat) : SuperBlock := (tfind s.flt.sbs b).getD ⟨.free, false, 0, 0, [], [], 0, false⟩
def State.setSb (s : State) (b : Nat) (x : SuperBlock) : State := s.onFlt fun f => { f with sbs := tset f.sbs b x }

/-- Valid units of a superblock: those the map names in it. -/
def State.sbValid (s : State) (b : Nat) : Nat :=
  (s.flt.map.filter (fun p => match p.2.entry with
    | .at_ pua => (tfind s.flt.phys pua).any (fun u => u.sb == b) | _ => false)).length

/-- Superblocks that are not free, and the number that are (FLT_STATUS.FREE_SB). A closed one with no valid unit and no
write or move pending is free. -/
def State.sbBusy (s : State) (b : Nat) : Bool :=
  let x := s.sb b
  x.sbState == .erasing || x.sbState == .open_ || (x.sbState == .closed && (s.sbValid b != 0 ||
    s.flt.writes.any (fun w => match w.pua with | some p => (tfind s.flt.phys p).any (fun u => u.sb == b) | none => false)))
def State.freeSbs (s : State) : Nat := s.sbTotal - (s.flt.sbs.filter (fun p => s.sbBusy p.1)).length

/-- Bytes of superblocks in SLC mode that hold units of BUFFER, and S of R225. -/
def State.slcBytes (s : State) : Nat :=
  (s.flt.sbs.filter (fun p => p.2.slc && p.2.strm == 1 && s.sbBusy p.1)).foldl (fun n p => n + p.2.filled * 65536) 0
def State.fltSpare (s : State) : Nat :=
  (s.sbTotal * 15 - s.flt.sbs.foldl (fun n p => n + p.2.gone.length) 0) * (s.fd Fd.FLT_GEOM_PAGES * 65536) -
    (s.flt.map.filter (fun p => match p.2.entry with | .at_ _ => true | _ => false)).length * 65536

/-- B of R225 in GB, recomputed when a superblock is opened. -/
def State.slcCap (s : State) : Nat :=
  min (s.fd Fd.FLT_SLC_MAX_GB) (max (s.fd Fd.FLT_SLC_MIN_GB) (s.fltSpare / (32 * s.cellBits) / 10 ^ 9))

/-- B recomputed (R225). -/
def State.newB (s : State) : State := (s.setFd Fd.FLT_STATUS_SLC_GB s.slcCap).onFlt fun f => { f with slcB := s.slcCap }

/-- The open superblock of a stream with room. -/
def State.openSb (s : State) (strm : Nat) : Option Nat :=
  (s.flt.sbs.find? (fun p => p.2.sbState == .open_ && p.2.strm == strm &&
    p.2.filled < s.sbPages p.2 * p.2.width)).map Prod.fst

/-- The stream a user's unit goes to (R225), by its area. -/
def State.streamFor (s : State) (area : Nat) : Nat :=
  let asTier := if s.slcBytes < s.flt.slcB * 10 ^ 9 then 1 else 2
  if area = 0 then 0
  else if area = 2 && s.flag Fd.FLT_CTL_MIRROR_DIRECT then 3
  else asTier

/-- A unit programmed at the next place of its stream's open superblock, its record journaled; it waits where there is no
such superblock, or while the journal is full (R232). -/
def State.place1 (s : State) (w : FltWrite) : State × FltWrite :=
  match s.openSb w.strm with
  | none => (s, w)
  | some b =>
    if s.jfull || s.flt.stopped then (s, w) else
    let x := s.sb b
    let pua := s.puaAt x b x.filled
    let js := s.flt.jseq
    let s := s.onFlt fun f => { f with
      phys := tset f.phys pua ⟨w.lunit, b, if w.use = .move then w.jseq else js, w.key, w.keyVal, w.content⟩
      strmAt := tset f.strmAt w.strm s.mtime }
    let done := x.filled + 1
    let full : Bool := s.sbPages x * x.width ≤ done
    let s := s.setSb b { x with filled := done, sbState := if full then .closed else .open_ }
    let s := s.count Fd.FLT_NAND_UNITS_COUNT (if done % max 1 x.width = 0 then 2 else 1)
    let e : JEffect := match w.old with
      | some o => .move w.lunit o pua
      | none => .map w.lunit pua w.slots
    (s.journal e, { w with pua := some pua, jseq := js })

/-- Writes that have no place yet take one, in order. -/
def State.placeWaiting (s : State) : State :=
  s.flt.writes.foldl (fun s w =>
    if w.pua.isSome || !s.awake then s else
    let (s, w') := s.place1 w
    s.onFlt fun f => { f with writes := modFirst (fun y => y == w) (fun _ => w') f.writes }) s

/-- A user writes an ALLOCATED unit once, with a live-slot count (R223 step 2): the status and the state. -/
def State.fltWrite (s : State) (l slots key : Nat) (content : List Byte) (use : FltUse) : Nat × State :=
  match s.lunit l, s.areaOf l, s.xtsKey key with
  | some ⟨.allocated, _⟩, some a, some kv =>
    if slots = 0 ∨ 32 < slots ∨ s.flt.writes.any (fun w => w.lunit == l && w.use != .move) then (stBOUNDS, s) else
    let w : FltWrite := ⟨l, slots, key, kv, slice content 0 65536, use, s.streamFor a, none, 0, none⟩
    (stOK, ((s.onFlt fun f => { f with writes := f.writes ++ [w] }).inc Fd.FLT_USER_UNITS_COUNT).placeWaiting)
  | _, _, _ => (stBOUNDS, s)

/-- A write's unit is programmed beyond harm (R226 step 1). -/
def State.programmed (s : State) (w : FltWrite) : Bool :=
  match w.pua with
  | none => false
  | some p =>
    match tfind s.flt.phys p with
    | none => false
    | some u =>
      let x := s.sb u.sb
      x.slc || x.sbState == .closed || (p % 1024 / s.cellBits + 2) * s.cellBits ≤ x.pagesDone

/-- A write that may commit (R226). -/
def State.canCommit (s : State) (w : FltWrite) : Bool := s.programmed w && w.jseq < s.flt.jdone

/-- The commit of a write: the map names its place. -/
def State.commitUnit (s : State) (w : FltWrite) : State :=
  let s := s.onFlt fun f => { f with writes := eraseFirst (fun y => y == w) f.writes }
  match w.pua, w.old with
  | some p, none => s.onFlt fun f => { f with map := (JEffect.map w.lunit p w.slots).apply f.map }
  | some p, some old => (s.onFlt fun f => { f with map := (JEffect.move w.lunit old p).apply f.map }).inc Fd.FLT_MOVES_COUNT
  | none, _ => s

/-! ## What the NAND holds (R220, R227, R228) -/

/-- The plain 64 KiB of a unit. -/
def PUnit.data (u : PUnit) : List Byte := slice u.content 0 65536

/-- The unit's header (Table 11-4), in the clear in the spare area of plane 0. -/
def PUnit.header (u : PUnit) : List Byte :=
  let h := le 8 u.wseq ++ le 8 (u.lunit + u.key * 2 ^ 40) ++ le 4 (crc32c u.data) ++ zeros 8
  h ++ le 4 (crc32c h)

/-- The unit's bytes as stored: AES-256-XTS under its key, WSEQ the tweak (R228). Content and key stand in State; these bytes
follow from them, and decrypt to the content. -/
def PUnit.stored (u : PUnit) : List Byte := xtsSeal (u.keyVal.take 32) (u.keyVal.drop 32) u.wseq u.data

/-- The bytes stored at a unit address that no unit of data has: zeros. -/
def State.storedAt (s : State) (pua : Nat) : List Byte := ((tfind s.flt.phys pua).map PUnit.stored).getD (zeros 65536)

/-- The addresses of a stripe's members, by page index of their superblock, and the one that holds its parity (R220). -/
def State.stripe (s : State) (b : SuperBlock) (sb upage : Nat) : List Nat := b.members.map fun c => s.blockAt b sb c + upage
def State.parityAt (s : State) (b : SuperBlock) (sb upage : Nat) : Nat :=
  ((s.stripe b sb upage)[upage % max 1 b.members.length]?).getD 0

/-- The parity unit of a stripe: the XOR of its other members' stored bytes, a missing one as zero (R220, R239). A rebuild
(Table 11-5 step 4) is the same XOR over the members that are left. -/
def State.parity (s : State) (b : SuperBlock) (sb upage : Nat) : List Byte :=
  ((s.stripe b sb upage).filter (· != s.parityAt b sb upage)).foldl (fun x a => xorBytes x (s.storedAt a)) (zeros 65536)

/-! ## Reading (R224, R229, R378) -/

/-- What a read of a unit finds before the ladder: an answer, or the unit to be read. -/
def State.readAt (s : State) (l : Nat) : (Nat × List Byte) ⊕ (Nat × PUnit) :=
  match s.lunit l with
  | none => .inl (stOK, zeros 65536)
  | some u =>
    match u.entry with
    | .allocated => .inl (stBOUNDS, [])
    | .lost => .inl (stLOST, [])
    | .at_ p =>
      match tfind s.flt.phys p with
      | none => .inl (stLOST, [])
      | some x => if s.xtsKey x.key = some x.keyVal then .inr (p, x) else .inl (stLOST, [])

/-- A read asked for; one that needs no NAND is answered at once. Readers of one unit share one read. -/
def State.askRead (s : State) (l : Nat) (cmd : Bool) : State :=
  if !cmd && s.flt.reads.any (fun r => r.lunit == l && !r.cmd) then s else
  let a := match s.readAt l with | .inl r => some r | .inr _ => none
  s.onFlt fun f => { f with reads := f.reads ++ [⟨l, cmd, a⟩] }

/-- The answer of a shared read, if it has come. -/
def State.readAnswer (s : State) (l : Nat) : Option (Nat × List Byte) :=
  (s.flt.reads.find? (fun r => r.lunit == l && !r.cmd)).bind (·.answer)

/-- A shared read nobody needs any more is forgotten. -/
def State.dropRead (s : State) (l : Nat) : State :=
  s.onFlt fun f => { f with reads := f.reads.filter (fun r => r.lunit != l || r.cmd) }

/-- LUN number of a PUA: channel * 32 + CE * 4 + LUN. -/
def puaLun (p : Nat) : Nat := p / 2 ^ 28 * 32 + bits p 27 25 * 4 + bits p 24 23

/-- A LUN failed (R230): its superblocks come first, and a second failure in a stripe loses the stripe's units in both members. -/
def State.failLun (s : State) (lun cls : Nat) : State :=
  if s.flt.lunFail.contains lun then s else
  let s := (s.onFlt fun f => { f with lunFail := lun :: f.lunFail }).raise Fd.FLT_ERR_LUN_FAIL
  let ch := lun / 32
  let s := s.flashEvent cls (ch * 2 ^ 28 + lun % 32 / 4 * 2 ^ 25 + lun % 4 * 2 ^ 23) 0xFFFFFFFF
  let bit := 2 ^ (lun % 32)
  let m := s.fd (Fd.FLT_CH_STATUS_LUN_FAIL ch)
  let s := s.setFd (Fd.FLT_CH_STATUS_LUN_FAIL ch) (m ||| bit)
  let all := s.ceLuns.all (fun l => s.flt.lunFail.contains (ch * 32 + l))
  let s := if all then s.setFd (Fd.FLT_CH_STATUS_FAILED ch) 1 else s
  let s := s.onFlt fun f => { f with sbs := f.sbs.map (fun p => if sbLun p.1 = lun % 32
    then (p.1, { p.2 with first := true, sbState := if p.2.sbState == .open_ then .closed else p.2.sbState }) else p) }
  let out := fun (sb : Nat) => (s.sb sb).members.filter fun c => s.flt.lunFail.contains (c * 32 + sbLun sb)
  let hit := s.flt.map.filter (fun p => match p.2.entry with
    | .at_ q => (tfind s.flt.phys q).any fun u => decide (2 ≤ (out u.sb).length) && (out u.sb).contains (q / 2 ^ 28)
    | _ => false)
  if hit.isEmpty then s else
  (s.onFlt fun f => { f with map := hit.foldl (fun m p => tset m p.1 ⟨.lost, p.2.occ⟩) f.map }).raise Fd.FLT_ERR_LOST

/-- A failed operation of a LUN, or one that succeeded: four failures in a row fail the LUN (R230). -/
def State.lunOp (s : State) (lun cls : Nat) (ok : Bool) : State :=
  let n := (tfind s.flt.failsRow lun).getD 0 + 1
  if ok then s.onFlt fun f => { f with failsRow := tdel f.failsRow lun }
  else
    let s := s.onFlt fun f => { f with failsRow := tset f.failsRow lun n }
    if 4 ≤ n then s.failLun lun cls else s

/-- A LUN that has stopped answering, alone or with its whole channel, has failed (R230). -/
def State.fallSilent (s : State) (lun cls : Nat) (x : Silence) : State :=
  match x with
  | .none => s
  | .lun => s.failLun lun cls
  | .channel => s.ceLuns.foldl (fun s l => s.failLun (lun / 32 * 32 + l) cls) s

/-- The ladder's outcome for a read of a written unit (R229): `k` is the error class of the step that succeeded, 5 for none;
`x.mismatch`: a header read on the way named another unit, so that step 1 failed. A read that its LUN does not answer without a
rebuild is a failed operation of the LUN (R230; notes/assumptions/116.md). -/
def State.ladder (s : State) (l p : Nat) (u : PUnit) (k : Nat) (x : NandShown) : Nat × List Byte × State :=
  let s := s.fallSilent (puaLun p) 4 x.silent
  let k := if s.flt.lunFail.contains (puaLun p) then max 4 k else k
  let k := if u.lunit ≠ l then 5 else if x.mismatch then max 2 k else k
  let mismatch := x.mismatch || u.lunit != l
  let s := ((s.inc Fd.FLT_READ_UNITS_COUNT).inc (Fd.FLT_ERRCNT_COUNT k)).lunOp (puaLun p) 4 (k ≤ 3)
  let s := if mismatch then s.raise Fd.FLT_ERR_MAP_MISMATCH else s
  let s := if k = 4 ∨ k = 5 then s.flashEvent k p l else s
  let s := if k = 3 ∨ k = 4 then s.setSb u.sb { s.sb u.sb with first := true } else s
  let s := if k = 4 then
      let recent := (s.flt.rebuilds.filter (fun r => s.usec < r.2 + 1000000)) ++ [(puaLun p, s.usec)]
      let s := s.onFlt fun f => { f with rebuilds := recent }
      if 16 ≤ (recent.filter (fun r => r.1 == puaLun p)).length then s.failLun (puaLun p) 4 else s
    else s
  if k = 5 then
    (stLOST, [], (s.onFlt fun f => { f with map := tmod f.map l fun x => { x with entry := .lost } }).raise Fd.FLT_ERR_LOST)
  else (stOK, u.data, s)

/-- A block retired (R237): a RETIRE record, and a spare in its place if one is left. -/
def State.retireMember (s : State) (sb ch : Nat) : State :=
  let lun := ch * 32 + sbLun sb
  let used := (tfind s.flt.spares lun).getD 0
  let x := s.sb sb
  let s := s.journal (.retire (s.blockAt x sb ch))
  let s := s.onFlt fun f => { f with retired := f.retired ++ [s.blockAt x sb ch / 2 ^ 10] }
  if used < s.sparesOf ch (sbLun sb) then
    (s.onFlt fun f => { f with spares := tset f.spares lun (used + 1) }).setSb sb
      { x with swapped := tset x.swapped ch (s.goodAt ch (sbLun sb) (s.sbPerLun (sbLun sb) + used)), first := x.sbState != .erasing }
  else s.setSb sb { x with gone := ch :: x.gone, first := x.sbState != .erasing }

/-! ## Health (R240) -/

/-- The wear of blocks, in parts of NATIVE_PE * SLC_PE: a native erase counts SLC_PE, an SLC-mode one NATIVE_PE. -/
def State.wearOf (s : State) (l : List (Nat × Nat)) : Nat :=
  l.foldl (fun n e => n + e.1 * max 1 (s.fd Fd.FLT_ENDUR_SLC_PE) + e.2 * max 1 (s.fd Fd.FLT_ENDUR_NATIVE_PE)) 0
def State.wearPct (s : State) (wear blocks : Nat) : Nat :=
  wear * 100 / (max 1 (s.fd Fd.FLT_ENDUR_SLC_PE) * max 1 (s.fd Fd.FLT_ENDUR_NATIVE_PE) * max 1 blocks)

/-- The erase counts of a superblock's members. -/
def State.sbErases (s : State) (sb : Nat) (b : SuperBlock) : List (Nat × Nat) :=
  b.members.map fun c => (tfind s.flt.erases (s.blockAt b sb c / 2 ^ 10)).getD (0, 0)

/-- The erase count of a superblock: all erases of its members. -/
def State.eraseCount (s : State) (sb : Nat) (b : SuperBlock) : Nat := (s.sbErases sb b).foldl (fun n e => n + e.1 + e.2) 0

def State.wearMax (s : State) : Nat :=
  s.flt.sbs.foldl (fun m p => max m (s.wearPct (s.wearOf (s.sbErases p.1 p.2)) p.2.members.length)) 0
def State.wearMean (s : State) : Nat := min 255 (s.wearPct (s.wearOf (s.flt.erases.map Prod.snd)) (16 * s.sbTotal))
def State.sparesAll (s : State) : Nat :=
  (List.range 16).foldl (fun n c => s.ceLuns.foldl (fun n l => n + s.sparesOf c l) n) 0
def State.sparePct (s : State) : Nat :=
  let all := s.sparesAll
  if all = 0 then 0 else (all - s.flt.spares.foldl (fun n p => n + p.2) 0) * 100 / all

/-- FLT_ERR.WORN (R240). -/
def State.checkWorn (s : State) : State :=
  if 100 ≤ s.wearMean ∨ (s.sparePct = 0 ∧ s.sparesAll ≠ 0) then s.raise Fd.FLT_ERR_WORN else s

end Sys2Proof.Machine
end

