-- ==== Sys2Proof/Machine/Health.lean ====
section
/-! DEFINITION. Error windows and their actions (R337-R339). -/

namespace Sys2Proof.Machine

/-- The temperature band (R337). -/
def bandOf (t : Nat) : Nat := if t < 40 then 0 else if 100 ≤ t then 7 else (t - 30) / 10

/-- The band of a unit of an error class: HBM channels and their geckos by their stack, the others by the main die. -/
def State.unitBand (s : State) (k unit : Nat) : Nat :=
  if k = 0 ∨ k = 1 ∨ k = 5 then bandOf (s.fd (Fd.HBM_STATUS_TEMP (unit / 32))) else bandOf (s.fd Fd.GLB_TEMP_MAX_C)

def winKey (k unit band : Nat) : Nat := k * 2 ^ 16 + unit * 8 + band

/-- The number of the current sub-window of class k: a sixteenth of its window. -/
def State.subWindow (s : State) (k : Nat) : Nat := s.usec / (max 1 (s.fd (Fd.TWN_CLASS_WINDOW_MS k)) * 1000 / 16)

/-- Events of the last window. -/
def State.winCount (s : State) (k unit band : Nat) : Nat :=
  match tfind s.twn.windows (winKey k unit band) with
  | none => 0
  | some w => w.slots.foldl (fun n x => if s.subWindow k < x.1 + 16 then n + x.2 else n) 0

/-! ## Command slots of a gecko (R206, R207) -/

/-- A gecko nothing has touched. -/
def Gecko.fresh : Gecko := ⟨Vector.replicate 16 0, Vector.replicate 8 0, 0, [], [], [], .stopped, [], [], [], false, false, 0, [], 0, 0⟩

def State.gk (s : State) (k : Nat) : Gecko := (tfind s.hb.geckos k).getD Gecko.fresh
def State.setGk (s : State) (k : Nat) (g : Gecko) : State := s.onHb fun h => { h with geckos := tset h.geckos k g }

/-- A slot that has never been rung, or whose DONE is set. -/
def Gecko.slotIdle (g : Gecko) (n : Nat) : Bool := !g.everRung.contains n || (tget 0 g.cmd (32 * n + 1)).toNat % 2 == 1

/-- A job ends: STATUS and DONE are written and the slot's bit in GK_READY is set. -/
def State.slotDone (s : State) (k n st : Nat) : State :=
  let g := s.gk k
  let cmd := putBytes g.cmd (32 * n + 1) [BitVec.ofNat 8 ((tget 0 g.cmd (32 * n + 1)).toNat / 2 * 2 + 1), BitVec.ofNat 8 st]
  let s := s.setGk k { g with cmd := cmd, rung := g.rung.filter (· != n), busy := g.busy.filter (· != n) }
  let f := Fd.GK_READY_READY (k / 32) (k % 32)
  (s.setFd f (s.fd f ||| 2 ^ n)).inc (Fd.GK_JOBS_COUNT (k / 32) (k % 32))

/-- Every slot running or pending completes with a status (R204, R213, R216). -/
def State.gkComplete (s : State) (k st : Nat) : State :=
  ((s.gk k).busy ++ (s.gk k).rung).foldl (fun s n => s.slotDone k n st) s

/-- A channel leaves the free lists; its tadpoles are restored elsewhere (R338). -/
def State.retireChannel (s : State) (ch : Nat) : State :=
  if s.hb.retiring.contains ch || s.hb.retired.contains ch then s else
  let s := (s.onHb fun h => { h with retiring := ch :: h.retiring }).gkComplete ch stTIMEOUT
  let s := s.setGk ch { s.gk ch with state := .stopped }
  let s := s.twinError Fd.TWN_ERR_RETIRE
  s.pgt.descs.foldl (fun s p =>
    if p.2.state == .tadpole && p.2.loc.tier == .hbm && chanOf (p.2.loc.frame * 2048) == ch then s.poison p.1 else s) s

/-- The action of a class (Table 15-13): one that does not suit its unit counts as HEALTH. -/
def State.classAction (s : State) (k : Nat) : Nat :=
  let a := s.fd (Fd.TWN_CLASS_ACTION k)
  let chan := k == 0 || k == 1 || k == 5
  if (chan && (a == 1 || a == 2)) || ((k == 2 || k == 3 || k == 4 || k == 7) && a == 3) then a else 0

/-- Events of the window that ended j sub-windows ago. -/
def State.winCountAt (s : State) (k unit band j : Nat) : Nat :=
  match tfind s.twn.windows (winKey k unit band) with
  | none => 0
  | some w => w.slots.foldl (fun n x => if s.subWindow k < x.1 + j + 16 && x.1 + j ≤ s.subWindow k then n + x.2 else n) 0

/-- Every band of a unit has stayed below LIMIT / 4 for one whole window (R339). -/
def State.calm (s : State) (k unit : Nat) : Bool :=
  (List.range 8).all fun b => (List.range 17).all fun j => 4 * s.winCountAt k unit b j < s.fd (Fd.TWN_CLASS_LIMIT k)

/-- The action of a class on a unit (R338). -/
def State.takeAction (s : State) (k unit : Nat) : State :=
  match s.classAction k with
  | 1 =>
    let s := s.setFd (Fd.HBM_CH_STATUS_WORN (unit / 32) (unit % 32)) 1
    s.onHb fun h => { h with worn := if h.worn.contains unit then h.worn else unit :: h.worn }
  | 2 => s.retireChannel unit
  | 3 =>
    if k = 7 then (s.setFd (Fd.MRG_UNIT_STATUS_QUARANTINED unit) 1).twinError Fd.TWN_ERR_QUARANTINE
    else (s.setFd (Fd.AE_STATUS_QUARANTINED unit) 1).twinError Fd.TWN_ERR_QUARANTINE
  | _ => s

/-- n error events of class k on a unit (R337): counted in its band, and acted on at LIMIT, once. -/
def State.countErr (s : State) (k unit n : Nat) : State :=
  let b := s.unitBand k unit
  let key := winKey k unit b
  let w := (tfind s.twn.windows key).getD ⟨[], false⟩
  let sub := s.subWindow k
  let live := w.slots.filter (fun x => sub < x.1 + 32)
  let slots := match live.getLast? with
    | some (i, c) => if i = sub then live.dropLast ++ [(i, c + n)] else live ++ [(sub, n)]
    | none => [(sub, n)]
  let s := s.onTwn fun t => { t with windows := tset t.windows key ⟨slots, w.acted⟩ }
  let under := (List.range 8).any fun b => ((tfind s.twn.windows (winKey k unit b)).map (·.acted)).getD false
  if s.fd (Fd.TWN_CLASS_LIMIT k) ≠ 0 ∧ s.fd (Fd.TWN_CLASS_LIMIT k) ≤ s.winCount k unit b ∧ !under ∧ s.classAction k ≠ 0 then
    (s.onTwn fun t => { t with windows := tset t.windows key ⟨slots, true⟩ }).takeAction k unit
  else s
/-- A standard job runs in one of the gecko's slots (Tables 10-3 and 10-5). -/
def Gecko.onJob (g : Gecko) : Bool :=
  g.busy.any fun n => 1 ≤ (tget 0 g.cmd (32 * n)).toNat && (tget 0 g.cmd (32 * n)).toNat ≤ 8

/-- A halt or watchdog stop of gecko k counts in class GECKO where it was in a standard job (R337). -/
def State.gkCounted (s : State) (k : Nat) (job : Bool) : State := if job then s.countErr 5 k 1 else s

/-- A unit released from its action (R339): its windows may act again. -/
def State.clearActed (s : State) (k unit : Nat) : State :=
  s.onTwn fun t => { t with windows := t.windows.map fun p =>
    if p.1 / 8 = (winKey k unit 0) / 8 then (p.1, { p.2 with acted := false }) else p }

end Sys2Proof.Machine
end

