-- ==== Sys2Proof/Machine/Room.lean ====
section
/-! DEFINITION. Where a page of HBM could go, and what is refused when nothing can (R169-R174), and the pool of check-value
units (R54). -/

namespace Sys2Proof.Machine

/-- A free unit of the hardware pool: the device's choice (R54). -/
def State.poolUnit (s : State) : Option Nat :=
  pickOf s ((List.range 16).filter fun u => s.fd (Fd.CVU_CTL_OWNER u) == 0 && (tfind s.pgt.cvu u).isNone)

/-- 2 KiB slots of a page's content in FLASH (R183). -/
def flashSlots (def0 : Nat) : Nat := ceilDiv (contentSize def0) 2048

/-- Bytes a page is charged in a tier (Table 9-2). -/
def chargeOf (t : Tier) (def0 : Nat) : Nat :=
  if t = .flash then flashSlots def0 * 2048 else frameUnits (frameCode def0) * 2048

/-- The borrowed extent a LENT frame lies in. -/
def State.borrowedAt (s : State) (l : Loc) : Option (Nat × Extent) :=
  s.tier.borrowed.find? (fun e => e.2.node == l.node && decide (e.2.base ≤ l.frame * 2048) && decide (l.frame * 2048 < e.2.base + 2 ^ 30))

/-- A borrowed ACTIVE extent of a partition with room for n units: the pages and leaps in it leave that much. -/
def State.lentRoom (s : State) (part n : Nat) : Option (Nat × Extent) :=
  s.tier.borrowed.find? fun e =>
    e.2.estate == .active && e.2.part == part &&
    (let own := s.pgt.descs.foldl (fun k (p : Nat × Desc) =>
        if p.2.loc.tier == .lent && p.2.loc.node == e.2.node && e.2.base ≤ p.2.loc.frame * 2048 && p.2.loc.frame * 2048 < e.2.base + 2 ^ 30
        then k + frameUnits p.2.frameCode else k) 0
     let due := s.tier.leaps.foldl (fun k l => if l.ext == some e.1 then k + n else k) 0
     own + due + n ≤ 524288)

/-- The partition is below its LENT soft quota, and an extent of it has room (R174). -/
def State.lentOpen (s : State) (x : Desc) : Bool :=
  s.flag Fd.TIER_POLICY_PREFER_LENT && s.belowSoft x.part 2 && (s.lentRoom x.part (frameUnits x.frameCode)).isSome

/-- LENT can take a demoted page (R171, R174). -/
def State.lentTakes (s : State) (x : Desc) : Bool := s.lentOpen x && s.underHard x.part 2 (chargeOf .lent x.def0)

/-- HBM can take a page (R171, R172). -/
def State.hbmTakes (s : State) (x : Desc) : Bool :=
  (s.takeHbm x.part (frameUnits x.frameCode) (frameUnits x.frameCode) (fun _ => true)).isSome

/-- A page of HBM that some tier would take (R172). -/
def State.demotable (s : State) (x : Desc) : Bool :=
  x.state == .sealed && x.loc.tier == .hbm && !x.pinned && 0 < x.refcnt && !x.ofTwin &&
  (s.lentTakes x || s.underHard x.part 3 (chargeOf .flash x.def0))

/-- Free tier-2 against the water marks (R172). -/
def State.waterMark (s : State) : State :=
  let free := s.freeTier2
  let p := if free < s.fd Fd.TIER_WATER_LOW_MIB * 2 ^ 20 then true
    else if s.fd Fd.TIER_WATER_HIGH_MIB * 2 ^ 20 ≤ free then false else s.tier.pressure
  let s := s.onTier fun b => { b with pressure := p }
  if free = 0 ∧ !s.pgt.descs.any (fun p => s.demotable p.2) then s.raise Fd.TIER_ERR_DEVICE_FULL else s

/-- A frame of tier 2 is refused, by the hard quota or by a full device (R171, R172). -/
def State.refused (s : State) : State := s.waterMark.hardBlock

end Sys2Proof.Machine
end

