-- ==== Sys2Proof/Machine/Rmo.lean ====
section
/-! DEFINITION. Regions, key checks, one-sided writes and reads, completion queues and trigger counters (chapter 13). -/

namespace Sys2Proof.Machine

/-! ## Region keys and entries (R273-R275) -/

def keyPart (k : Nat) : Nat := bits k 31 28
def keyIndex (k : Nat) : Nat := bits k 27 8
def keyGen (k : Nat) : Nat := bits k 7 0

/-- The bytes of a region entry (Table 13-2). -/
def Region.bytes (r : Region) : List Byte :=
  let b := fun (x : Bool) (n : Nat) => if x then 2 ^ n else 0
  le 8 r.base ++ le 8 r.len ++
  le 1 (r.rstate + b r.remote 2 + b r.rd 3 + b r.wr 4 + b r.imm 5 + b r.ctren 6 + b r.cqen 7) ++ le 1 r.gen ++
  le 2 r.conduit ++ le 4 r.peerKey ++ le 2 r.ctr ++ le 2 (r.cq + r.part * 4096) ++ le 4 r.inflight

/-- An entry nothing has registered. -/
def Region.free : Region := ⟨0, 0, 0, false, false, false, false, false, false, 0, 0, 0, 0, 0, 0, 0, none⟩

def State.region (s : State) (i : Nat) : Region := (tfind s.rmo.regions i).getD Region.free

/-- The table entry changed, with its image in the control-memory reservation (R274). -/
def State.setRegion (s : State) (i : Nat) (r : Region) : State :=
  (s.onRmo fun m => { m with regions := tset m.regions i r }).hbmWrite (s.fd Fd.RMO_TABLE_BASE + 32 * i) r.bytes

/-- The rights a use needs. -/
inductive KeyUse where
  | write | writeImm | read
  deriving DecidableEq, Repr

def Region.allows (r : Region) : KeyUse → Bool
  | .write => r.wr
  | .writeImm => r.wr && r.imm
  | .read => r.rd

/-- Steps 1 and 2 of R276: the status and, where it is OK, the entry. A REMOTE entry is asked for by the device's own
writes (R283), a LOCAL one by received messages; `conduit` is checked against a LOCAL entry's. -/
def State.keyCheck (s : State) (key part : Nat) (conduit : Option Nat) (remote : Bool) (use : KeyUse) : Nat × Nat :=
  let i := keyIndex key
  let r := s.region i
  if !s.flag Fd.RMO_CTL_ENABLE || key == 0 || keyPart key != part || s.fd Fd.RMO_TABLE_ENTRIES ≤ i || r.rstate == 0 ||
      r.remote != remote || r.gen != keyGen key || r.part != part ||
      (match conduit with | some c => r.conduit != 0xFFFF && r.conduit != c | none => false) || !r.allows use then (stKEYINV, i)
  else if r.rstate = 2 then (stREVOKED, i)
  else (stOK, i)

/-- Whether [off, off + len) lies in a region. -/
def Region.holds (r : Region) (off len : Nat) : Bool := off + len < 2 ^ 64 && off + len ≤ r.len

def State.inflight (s : State) (i : Nat) : State := s.setRegion i { s.region i with inflight := (s.region i).inflight + 1 }
def State.outflight (s : State) (i : Nat) : State := s.setRegion i { s.region i with inflight := (s.region i).inflight - 1 }

def State.keyFail (s : State) : State := s.inc Fd.RMO_KEY_FAILS_COUNT

/-! ## Completion queues (R285-R287) -/

def State.cq (s : State) (q : Nat) : CqState := (tfind s.rmo.cqs q).getD ⟨0, [], 0⟩
def State.setCq (s : State) (q : Nat) (x : CqState) : State := s.onRmo fun m => { m with cqs := tset m.cqs q x }
def State.cqSize (s : State) (q : Nat) : Nat := 2 ^ s.fd (Fd.RMO_CQ_CFG0_LOG2SIZE.at q)

/-- A new reservation is admitted (R285). -/
def State.cqRoom (s : State) (q : Nat) : Bool :=
  s.flag (Fd.RMO_CQ_CFG0_ENABLE.at q) &&
  serialDist 32 (s.fd (Fd.RMO_CQ_IDX_CI.at q)) (s.fd (Fd.RMO_CQ_IDX_PI.at q)) + (s.cq q).reserved < s.cqSize q

def State.cqReserve (s : State) (q : Nat) : State := s.setCq q { s.cq q with reserved := (s.cq q).reserved + 1 }
def State.cqUnreserve (s : State) (q : Nat) : State := s.setCq q { s.cq q with reserved := (s.cq q).reserved - 1 }

/-- An entry written into a reserved slot; PI advances (R285, Table 13-5). -/
def State.cqPut (s : State) (q imm bytes conduit ty status ref : Nat) : State :=
  let pi := s.fd (Fd.RMO_CQ_IDX_PI.at q)
  let phase := 1 - pi / s.cqSize q % 2
  let e := le 4 imm ++ le 4 (bytes % 2 ^ 31) ++ le 2 conduit ++ le 1 ty ++ le 1 status ++ le 4 (ref % 2 ^ 20 + phase * 2 ^ 31)
  let s := s.cqUnreserve q
  let s := if s.fd (Fd.RMO_CQ_CFG0_NOTIFY.at q) = 2 then
      let x := s.cq q
      s.setCq q { x with unsent := x.unsent ++ [(pi, e)], oldestAt := if x.unsent.isEmpty then s.mtime else x.oldestAt }
    else s.hbmWrite (s.fd (Fd.RMO_CQ_CFG0_BASE.at q) + 16 * (pi % s.cqSize q)) e
  s.setFd (Fd.RMO_CQ_IDX_PI.at q) ((pi + 1) % 2 ^ 32)

/-- A device write to a REMOTE entry (R283): the address header and the data, on its CONDUIT. -/
def State.remoteWrite (s : State) (i off : Nat) (imm : Option Nat) (data : List Byte) (svc : Nat) (purpose : Purpose) : State :=
  let r := s.region i
  let m := OutMsg.mk' (if imm.isSome then 0x11 else 0x10) svc (le 8 (r.base + off) ++ zeros 8 ++ data) purpose
  s.enqueue r.conduit { m with key := r.peerKey, imm := imm.getD 0 }

/-- CQ_NOTIFY (R286): the unsent entries leave once NCOUNT wait or NDELAY_NS has passed since the oldest was written. -/
def State.cqNotify (s : State) (q : Nat) : State :=
  let x := s.cq q
  if !s.flag (Fd.RMO_CQ_CFG0_ENABLE.at q) || s.fd (Fd.RMO_CQ_CFG0_NOTIFY.at q) != 2 || x.unsent.isEmpty then s else
  if x.unsent.length < s.fd (Fd.RMO_CQ_CFG1_NCOUNT.at q) &&
      (s.mtime - x.oldestAt) * 10 < s.fd (Fd.RMO_CQ_CFG1_NDELAY_NS.at q) then s else
  let i := keyIndex (s.fd (Fd.RMO_CQ_CFG1_RKEY.at q))
  let n := s.cqSize q
  let first := ((x.unsent.head?).map Prod.fst).getD 0 % n
  let pi := s.fd (Fd.RMO_CQ_IDX_PI.at q)
  let a := (x.unsent.take (n - first)).flatMap Prod.snd
  let b := (x.unsent.drop (n - first)).flatMap Prod.snd
  let s := s.setCq q { x with unsent := [] }
  let s := if b.isEmpty then s.remoteWrite i (16 * first) (some pi) a 1 (.notify q)
    else (s.remoteWrite i (16 * first) none a 1 (.notify q)).remoteWrite i 0 (some pi) b 1 (.notify q)
  s.inc Fd.RMO_NOTIFIES_COUNT

/-- A REMOTE notification answered with NACK disables its queue (R286). -/
def State.notifyFailed (s : State) (q : Nat) : State :=
  (s.setFd (Fd.RMO_CQ_CFG0_ENABLE.at q) 0).raise Fd.RMO_ERR_NOTIFY_FAIL

/-! ## Counters (R288) -/

def State.stepCounter (s : State) (c : Nat) : State :=
  s.setFd (Fd.RMO_CTR_VAL_VALUE.at c) ((s.fd (Fd.RMO_CTR_VAL_VALUE.at c) + 1) % 2 ^ 32)

/-- A counter value has reached a threshold (R288). -/
def reached (v t : Nat) : Bool := serialDist 32 t v < 2 ^ 31

/-! ## WRITE, WRITE_IMM, READ (R276-R282) -/

/-- The receive key-check point (R276): the status and the entry; an admitted message is counted and holds its slot. -/
def State.admitWrite (s : State) (c op key msglen : Nat) : State × Nat × Nat :=
  let isImm := op == 0x11
  let (st, i) := s.keyCheck key (s.partOf c) (some c) false (if isImm then .writeImm else .write)
  let st := if st = stOK ∧ msglen < 16 then stKEYINV else st
  let r := s.region i
  if st != stOK then (s.keyFail, st, i)
  else if isImm && r.cqen && !s.cqRoom r.cq then (s, stBUSY, i)
  else
    let s := if isImm && r.cqen then s.cqReserve r.cq else s
    (s.inflight i, stOK, i)

/-- The bounds check when segment 0 is there (R277): the status. -/
def State.writeBounds (s : State) (i msglen : Nat) (hdr : List Byte) : Nat :=
  if lat hdr 8 1 > 1 || !zeroAt hdr 9 7 then stFORMAT
  else if (s.region i).holds (lat hdr 0 8) (msglen - 16) then stOK else stBOUNDS

/-- An admitted message that ends without hand-over (R277, R255). -/
def State.abandonWrite (s : State) (i op : Nat) : State :=
  let r := s.region i
  let s := if op == 0x11 && r.cqen then s.cqUnreserve r.cq else s
  s.outflight i

/-- Data bytes placed from message offset k ≥ 16 on (R277). -/
def State.placeWrite (s : State) (i off k : Nat) (data : List Byte) : State :=
  s.hbmWrite ((s.region i).base + off + k - 16) data

/-- A WRITE or WRITE_IMM handed over (R279): entry, counter, then the key is released; ACK OK where RESP is set (R278). -/
def State.handOverWrite (s : State) (c q op imm i : Nat) (p : List Byte) : State :=
  let r := s.region i
  let s := if op == 0x11 && r.cqen then s.cqPut r.cq imm (p.length - 16) c 1 stOK i else s
  let s := if op == 0x11 && r.ctren then s.stepCounter r.ctr else s
  let s := (s.outflight i).inc Fd.RMO_WRITES_COUNT
  if lat p 8 1 % 2 = 1 then s.respond c q 1 stOK [] else s

/-- A WRITE or WRITE_IMM that arrives whole, or whose segments have been placed and handed over (R276-R279). -/
def State.doWrite (s : State) (c q op key imm : Nat) (p : List Byte) : State :=
  match (s.trl.handed.find? (fun h => h.conduit == c && h.msgseq == q && h.op == op)).bind (·.region) with
  | some i => (s.takeHanded c q op).handOverWrite c q op imm i p
  | none =>
    let (s, st, i) := s.admitWrite c op key p.length
    if st != stOK then s.respond c q 1 st [] else
    let st := s.writeBounds i p.length p
    if st != stOK then (s.abandonWrite i op).respond c q 1 st [] else
    (s.placeWrite i (lat p 0 8) 16 (p.drop 16)).handOverWrite c q op imm i p

/-- Admission of a READ (R281): step 1 with RD, step 2, and its bounds. -/
def State.admitRead (s : State) (c key : Nat) (p : List Byte) : State × Nat × Nat :=
  let (st, i) := s.keyCheck key (s.partOf c) (some c) false .read
  if st != stOK then (s.keyFail, st, i)
  else if p.length ≠ 32 ∨ !zeroAt p 24 8 ∨ lat p 8 4 = 0 ∨ 2 ^ 31 - 16 < lat p 8 4 then (s, stFORMAT, i)
  else if (s.region i).holds (lat p 0 8) (lat p 8 4) then (s.inflight i, stOK, i)
  else (s, stBOUNDS, i)

/-- A READ executed at its hand-over (R281). -/
def State.doRead (s : State) (c q key : Nat) (p : List Byte) : State :=
  let h := (s.trl.handed.find? (fun h => h.conduit == c && h.msgseq == q && h.op == 0x12)).bind (·.region)
  let (s, st, i) := match h with
    | some i => (s.takeHanded c q 0x12, stOK, i)
    | none => s.admitRead c key p
  if st != stOK then s.respond c q 1 st [] else
  let data := s.hbmRead ((s.region i).base + lat p 0 8) (lat p 8 4)
  let m := OutMsg.mk' 0x13 1 (le 8 (lat p 16 8) ++ zeros 4 ++ le 4 q ++ data) (.readResp i)
  (s.enqueue c { m with key := lat p 12 4 }).inc Fd.RMO_READS_COUNT

/-! ## Registration and revocation (R275, R294) -/

/-- The entry DATA0-3 spell, with its reserved fields. -/
def State.regData (s : State) : List Byte :=
  le 8 (s.reg Reg.RMO_REG_DATA0) ++ le 8 (s.reg Reg.RMO_REG_DATA1) ++ le 8 (s.reg Reg.RMO_REG_DATA2) ++
    le 8 (s.reg Reg.RMO_REG_DATA3)

def regionOf (d : List Byte) : Region :=
  let f := fun n => lat d 16 1 / 2 ^ n % 2 == 1
  ⟨lat d 0 8, lat d 8 8, lat d 16 1 % 4, f 2, f 3, f 4, f 5, f 6, f 7, lat d 17 1, lat d 18 2, lat d 20 4, lat d 24 2,
   lat d 26 2 % 4096, lat d 26 2 / 4096, lat d 28 4, none⟩

/-- A region command ends with a status (R275). -/
def State.regResult (s : State) (st : Nat) : State :=
  let s := s.setFd Fd.RMO_REG_CMD_RESULT st
  if st = stOK then s else s.raise Fd.RMO_ERR_CMD_REJECT

/-- Entries of a partition that are not FREE. -/
def State.partRegions (s : State) (p : Nat) : Nat :=
  (s.rmo.regions.filter (fun x => x.2.rstate != 0 && x.2.part == p)).length

/-- Why REGISTER fails, if it does (R275). -/
def State.registerCheck (s : State) (r : Region) : Nat :=
  if r.len = 0 ∨ 2 ^ 40 ≤ r.len ∨ (!r.remote ∧ r.peerKey ≠ 0) ∨ (r.remote ∧ (r.ctren ∨ r.cqen)) ∨
      (!r.ctren ∧ r.ctr ≠ 0) ∨ (!r.cqen ∧ r.cq ≠ 0) then stFORMAT
  else if (r.ctren && s.fd (Fd.RMO_CTR_CFG_PART.at r.ctr) != r.part) ||
      (r.cqen && s.fd (Fd.RMO_CQ_CFG0_PART.at r.cq) != r.part) ||
      (r.remote && !(match s.conduit r.conduit with | some cd => cd.cstate == 1 && cd.part == r.part | none => false)) then stBOUNDS
  else if s.fd (Fd.RMO_PART_REGIONS_MAX r.part) ≤ s.partRegions r.part then stQUOTA
  else stOK

/-- The lowest FREE index not freed in the last second (R275). -/
def State.freeRegion (s : State) : Option Nat :=
  let ok := fun i => let r := s.region i
    r.rstate == 0 && (match r.freedAt with | none => true | some t => t + 1000000 ≤ s.usec)
  let n := s.fd Fd.RMO_TABLE_ENTRIES
  ((List.range (min n (s.rmo.regions.length + 1))).find? ok)

/-- REGISTER (R275). -/
def State.register (s : State) : State :=
  let r := regionOf s.regData
  let st := s.registerCheck r
  if st != stOK then s.regResult st else
  match s.freeRegion with
  | none => s.regResult stQUOTA
  | some i =>
    let g := (s.region i).gen
    let gen := if g ≥ 255 then 1 else g + 1
    let fin := fun (s : State) (base : Nat) =>
      let s := s.setRegion i { r with base := base, rstate := 1, gen := gen, inflight := 0 }
      (s.setFd Fd.RMO_REG_CMD_KEY (r.part * 2 ^ 28 + i * 256 + gen)).regResult stOK
    if r.remote then fin s r.base else
    let units := ceilDiv r.len (2 ^ 21) * 1024
    match s.takeHbm r.part units 1024 (fun _ => true) with
    | none => s.refused.regResult stQUOTA
    | some (a, s) => fin s (a * 2048)

/-- A completion queue names the region as its ring. -/
def State.ringOf (s : State) (i : Nat) : Bool :=
  (s.csr.any (fun p => p.1 % 2 ^ 32 == Reg.RMO_CQ_CFG0 && p.1 / 2 ^ 32 < 4096 &&
    s.flag (Fd.RMO_CQ_CFG0_ENABLE.at (p.1 / 2 ^ 32)) && s.fd (Fd.RMO_CQ_CFG0_NOTIFY.at (p.1 / 2 ^ 32)) == 2 &&
    keyIndex (s.fd (Fd.RMO_CQ_CFG1_RKEY.at (p.1 / 2 ^ 32))) == i))

/-- REVOKE (R294), phase one. -/
def State.revoke (s : State) : State :=
  let i := s.fd Fd.RMO_REG_SEL_INDEX
  let r := s.region i
  if r.rstate = 0 then s.regResult stBOUNDS
  else if s.ringOf i then s.regResult stBUSY
  else (s.setRegion i { r with rstate := 2 }).regResult stOK

/-- Phase two of a revocation (R294). -/
def State.revokeDone (s : State) (i : Nat) : State :=
  let r := s.region i
  if r.rstate != 2 || r.inflight != 0 then s else
  let s := s.setRegion i { Region.free with gen := r.gen, freedAt := some s.usec }
  let s := (s.raise Fd.RMO_ERR_REVOKE_DONE).inc Fd.RMO_REVOKES_COUNT
  if r.remote then s else
  (s.freeHbm (r.base / 2048)).uncharge4 r.part 1 (ceilDiv r.len (2 ^ 21) * 2 ^ 21)

/-! ## Meanings -/

/-- WRITE (R276-R279). -/
def execWrite (c : Conduit) (q key : W32) (p : List Byte) (s : State) : Host.Outcome State Fault Refusal :=
  act s fun s => s.doWrite c.val q.toNat 0x10 key.toNat 0 p

/-- WRITE_IMM (R276-R279). -/
def execWriteImm (c : Conduit) (q key imm : W32) (p : List Byte) (s : State) : Host.Outcome State Fault Refusal :=
  act s fun s => s.doWrite c.val q.toNat 0x11 key.toNat imm.toNat p

/-- READ (R281). -/
def execRead (c : Conduit) (q key : W32) (p : List Byte) (s : State) : Host.Outcome State Fault Refusal :=
  act s fun s => s.doRead c.val q.toNat key.toNat p

/-- READ_RESP: a device never issues READ, so one received is refused with FORMAT (R281). -/
def execReadResp (c : Conduit) (q : W32) (_p : List Byte) (s : State) : Host.Outcome State Fault Refusal :=
  act s fun s => (s.takeHanded c.val q.toNat 0x13).respond c.val q.toNat 1 stFORMAT []

/-- REGION_REGISTER: a store of CMD 1 to RMO_REG_CMD (R275). -/
def execRegionRegister (v : Word) (s : State) : Host.Outcome State Fault Refusal :=
  actIf s (bits v.toNat 1 0 == 1) State.register

/-- REGION_REVOKE: a store of CMD 2 (R294). -/
def execRegionRevoke (v : Word) (s : State) : Host.Outcome State Fault Refusal :=
  actIf s (bits v.toNat 1 0 == 2) State.revoke

/-- REVOKE_COMPLETE (R294). -/
def execRevokeComplete (idx : Nat) (s : State) : Host.Outcome State Fault Refusal :=
  act s fun s => s.revokeDone idx

/-- REGION_SNAPSHOT: a store to RMO_REG_SEL (Table 13-11). -/
def execRegionSnapshot (v : Word) (s : State) : Host.Outcome State Fault Refusal :=
  act s fun s =>
    let s := s.storeFields 0 Reg.RMO_REG_SEL v.toNat
    let b := (s.region (s.fd Fd.RMO_REG_SEL_INDEX)).bytes
    (((s.setReg Reg.RMO_REG_DATA0 (lat b 0 8)).setReg Reg.RMO_REG_DATA1 (lat b 8 8)).setReg Reg.RMO_REG_DATA2
      (lat b 16 8)).setReg Reg.RMO_REG_DATA3 (lat b 24 8)

/-- CQ_ENABLE: a store to RMO_CQ_CFG0 of the selected queue (R286). Setting ENABLE checks a REMOTE ring's key and sets PI
and CI to 0; while ENABLE is 1 only that bit takes a store. -/
def execCqEnable (v : Word) (s : State) : Host.Outcome State Fault Refusal :=
  act s fun s =>
    let q := s.fd Fd.RMO_CQ_SEL_INDEX
    let was := s.flag (Fd.RMO_CQ_CFG0_ENABLE.at q)
    let on := bits v.toNat 63 63
    if was then s.setFd (Fd.RMO_CQ_CFG0_ENABLE.at q) on else
    let s := s.storeFields q Reg.RMO_CQ_CFG0 v.toNat
    if on = 0 then s else
    let bad := s.fd (Fd.RMO_CQ_CFG0_NOTIFY.at q) == 2 &&
      (s.keyCheck (s.fd (Fd.RMO_CQ_CFG1_RKEY.at q)) (s.fd (Fd.RMO_CQ_CFG0_PART.at q)) none true .writeImm).1 != stOK
    if bad then (s.setFd (Fd.RMO_CQ_CFG0_ENABLE.at q) 0).raise Fd.RMO_ERR_CMD_REJECT
    else (s.setReg (q * 2 ^ 32 + Reg.RMO_CQ_IDX) 0).setCq q ⟨0, [], 0⟩

/-- CQ_NOTIFY (R286). -/
def execCqNotify (cq : Fin 4096) (s : State) : Host.Outcome State Fault Refusal :=
  act s fun s => s.cqNotify cq.val

/-- CQ_CREDIT: a CONTROL message of CTYPE 0x0021 (R287). -/
def execCqCredit (c : Conduit) (q : W32) (p : List Byte) (s : State) : Host.Outcome State Fault Refusal :=
  act s fun s =>
    let s := s.takeHanded c.val q.toNat 0x3F
    let k := lat p 2 2 % 4096
    let ci := lat p 4 4
    let old := s.fd (Fd.RMO_CQ_IDX_CI.at k)
    if p.length ≠ 8 ∨ lat p 0 2 ≠ 0x21 ∨ 4096 ≤ lat p 2 2 then s.respond c.val q.toNat 6 stFORMAT []
    else if s.fd (Fd.RMO_CQ_CFG0_NOTIFY.at k) ≠ 2 ∨ s.fd (Fd.RMO_CQ_CFG0_PART.at k) ≠ s.partOf c.val ∨
        serialDist 32 old (s.fd (Fd.RMO_CQ_IDX_PI.at k)) < serialDist 32 old ci then s.respond c.val q.toNat 6 stBOUNDS []
    else s.setFd (Fd.RMO_CQ_IDX_CI.at k) ci

/-- CQ_CONSUME: a store to RMO_CQ_IDX of the selected queue (R287). -/
def execCqConsume (v : Word) (s : State) : Host.Outcome State Fault Refusal :=
  act s fun s =>
    let k := s.fd Fd.RMO_CQ_SEL_INDEX
    let ci := bits v.toNat 31 0
    let old := s.fd (Fd.RMO_CQ_IDX_CI.at k)
    if s.fd (Fd.RMO_CQ_CFG0_NOTIFY.at k) = 2 ∨ serialDist 32 old (s.fd (Fd.RMO_CQ_IDX_PI.at k)) < serialDist 32 old ci then s
    else s.setFd (Fd.RMO_CQ_IDX_CI.at k) ci

end Sys2Proof.Machine
end

