-- ==== Sys2Proof/Machine/SeqApply.lean ====
section
/-! DEFINITION. The operations that take a place in a sequence's order, from their checks to their commit: APPEND, SEAL,
TRUNCATE, FREE, FORK and adoption (R49-R60, R345-R349). -/

namespace Sys2Proof.Machine

/-- A main-die job for a gecko: it waits in its issuer for a slot and for lock entries (R206, R211). -/
def State.queueJob (s : State) (j : GkJob) : State := s.onHb fun h => { h with jobs := h.jobs ++ [j] }

/-- The answer to an operation (R348): the sequence response body with OK and ALREADY_DONE. -/
def State.answerOp (s : State) (op : SeqOp) (st : Nat) (body : List Byte) : State :=
  let svc := if op.kind == .info then 6 else 3
  (s.respond op.conduit op.msgseq svc st body).endOp op.id

/-- An operation that fails: it commits nothing (R346). -/
def State.failOp (s : State) (op : SeqOp) (st : Nat) : State := s.answerOp op st []

/-- An operation has been applied: its MIRROR leaves, or it may commit at once (R318, R346). -/
def State.mirrorOp (s : State) (op : SeqOp) (mop handle : Nat) (body : List Byte) : State :=
  if s.mirrors op.seq then
    let s := s.modOp op.id fun o => { o with phase := if s.role == .paired then .mirrored else .acked }
    s.sendMirror mop handle 0 0 0 op.id body (.mirror op.id)
  else s.modOp op.id fun o => { o with phase := .acked }

/-! ## APPEND (R49, R50) -/

def apLayer (p : List Byte) : Nat := lat p 14 1
def apStart (p : List Byte) : Nat := lat p 8 4 % 2 ^ 25
def apCount (p : List Byte) : Nat := lat p 12 2
def apTok (p : List Byte) : Bool := lat p 15 1 % 2 == 1

/-- Bytes of an APPEND before its rows. -/
def apHead (p : List Byte) : Nat := 16 + (if apTok p then 4 * apCount p else 0)

/-- The status R49 gives an APPEND, before a frame is asked for; none: it is applied. -/
def appendCheck (q : Seq) (p : List Byte) : Option Nat :=
  let layers := clsLayers q.def1
  let groups := clsGroups q.def1
  let l := q.len (apLayer p)
  let e := apStart p + apCount p
  if p.length < 16 ∨ apCount p = 0 ∨ 256 < apCount p ∨ 2 ^ 25 ≤ lat p 8 4 ∨ 2 ≤ lat p 15 1 ∨ layers ≤ apLayer p ∨
      (apTok p ∧ apLayer p ≠ 0) ∨ (!apTok p ∧ apLayer p = 0 ∧ clsPrefix q.def1) ∨
      p.length ≠ apHead p + apCount p * groups * tokenBytes q.def0 then some stFORMAT
  else if e ≤ l then some stALREADY
  else if apStart p ≠ l ∨ 16777216 < e ∨ q.closed then some stBOUNDS
  else none

/-- One page of an append: a tadpole is there or allocated, the append's slots are written, VALID rises (R50). -/
def State.appendPage (s : State) (k : Nat) (q : Seq) (p : List Byte) (twin : Bool) (g pos : Nat) (fresh : Tbl Nat) :
    Option (State × Tbl Nat) :=
  let layer := apLayer p
  let start := apStart p
  let cnt := apCount p
  let key := ptKey layer g pos
  let at_ : Option (Nat × State × Tbl Nat) := match (s.seq k).bind (fun q => tfind q.pt key) with
    | some d => some (d, s, fresh)
    | none => (s.allocTadpole q.def0 (hPart q.handle) twin (fun _ => true)).map fun (r : Nat × State) =>
        (r.1, r.2.modSeq k fun q => { q with pt := tset q.pt key r.1 }, tset fresh key r.1)
  match at_ with
  | none => none
  | some (d, s, fresh) =>
    match s.desc d with
    | none => none
    | some x =>
      let tb := tokenBytes q.def0
      let base := x.loc.frame * 2048
      let s := (List.range cnt).foldl (fun s t =>
        if (start + t) / 16 = pos then
          let tok := slice p (apHead p + (g * cnt + t) * tb) tb
          (slotParts q.def0 ((start + t) % 16)).foldl (fun s y => s.hbmWrite (base + y.1) (slice tok y.2.2 y.2.1)) s
        else s) s
      some (s.modDesc d fun x => { x with valid := min 16 (start + cnt - 16 * pos) }, fresh)

/-- The pages an append touches, as (group, position). -/
def appendPages (q : Seq) (p : List Byte) : List (Nat × Nat) :=
  let first := apStart p / 16
  let last := (apStart p + apCount p - 1) / 16
  (List.range (last + 1 - first)).flatMap fun i => (List.range (clsGroups q.def1)).map fun g => (g, first + i)

/-- All pages of an append and the page-table chunks for new ones, or none of them. -/
def State.appendRows (s : State) (k : Nat) (q : Seq) (p : List Byte) (twin : Bool) : Option (State × Tbl Nat) :=
  ((appendPages q p).foldl (fun r y => r.bind fun x => x.1.appendPage k q p twin y.1 y.2 x.2) (some (s, []))).bind fun x =>
    if x.2.isEmpty then some x else (x.1.fitTables k).map fun s => (s, x.2)

/-- The POISONED tadpoles an append would write: it waits for their restoration (R48). -/
def State.appendBlocked (s : State) (k : Nat) (q : Seq) (p : List Byte) : List Desc :=
  (appendPages q p).filterMap fun y =>
    (((s.seq k).bind fun q => tfind q.pt (ptKey (apLayer p) y.1 y.2)).bind s.desc).filter fun x => x.state == .poisoned

/-- A tadpole of an undone operation loses its one reference: deferred reclamation takes it (R61). -/
def State.discardPage (s : State) (d : Nat) : State := s.dropRef d

/-- An applied append undone (R322): what it wrote above the committed length is zero again. -/
def State.undoAppend (s : State) (op : SeqOp) : State :=
  match s.seq op.seq with
  | none => s
  | some q =>
    let l := q.len op.layer
    let s := (op.fresh.foldl (fun s y => (s.discardPage y.2).modSeq op.seq fun q => { q with pt := tdel q.pt y.1 }) s).trimTables op.seq
    if l % 16 = 0 then s else
    (List.range (clsGroups q.def1)).foldl (fun s g =>
      match tfind q.pt (ptKey op.layer g (l / 16)) with
      | none => s
      | some d =>
        match s.desc d with
        | none => s
        | some x => (s.writePage x (firstSlots q.def0 (s.pageContent x) (l % 16))).modDesc d fun x => { x with valid := l % 16 }) s

/-- APPEND in its place (R49): refused, or applied and mirrored. -/
def State.beginAppend (s : State) (op : SeqOp) : State :=
  match s.seq op.seq with
  | none => s.failOp op stBOUNDS
  | some q =>
    let p := op.payload
    match appendCheck q p with
    | some st =>
      if st = stALREADY then s.answerOp op st (q.body q.handle (q.len (apLayer p)))
      else s.failOp op st
    | none =>
      let bad := s.appendBlocked op.seq q p
      if bad.any (·.lost) then s.failOp op stPOISONED else
      if !bad.isEmpty then s else
      match s.appendRows op.seq q p false with
      | none => s.refused.failOp op stQUOTA
      | some (s, fresh) =>
        let s := s.modOp op.id fun o => { o with layer := apLayer p, point := apStart p + apCount p, fresh := fresh }
        s.mirrorOp op 1 q.handle p

/-- Pages of a layer whose 16 slots are committed and that are still tadpoles are due to be sealed (R52 step 1). -/
def State.dueSeals (s : State) (k layer len : Nat) : State :=
  match s.seq k with
  | none => s
  | some q =>
    q.pt.foldl (fun s e =>
      if keyLayer e.1 = layer ∧ 16 * (keyPos e.1 + 1) ≤ len then
        s.modDesc e.2 fun x => if x.state == .tadpole then { x with sealDue := true } else x
      else s) s

/-- The commit of an append in a sequence record (R50, R68 step 1). -/
def Seq.appended (q : Seq) (p : List Byte) (layer point : Nat) : Seq :=
  let ids := if apTok p && !q.broken then (List.range (apCount p)).map (fun i => lat p (16 + 4 * i) 4) else []
  { q with layerLen := q.layerLen.set layer point, tokids := q.tokids ++ ids }

def State.commitAppend (s : State) (op : SeqOp) : State :=
  let s := s.modSeq op.seq fun q => q.appended op.payload op.layer op.point
  let s := s.dueSeals op.seq op.layer op.point
  match s.seq op.seq with
  | none => s.endOp op.id
  | some q => s.answerOp op stOK (q.body q.handle (q.len op.layer))

/-! ## SEAL (R59) -/

def State.beginSeal (s : State) (op : SeqOp) : State :=
  match s.seq op.seq with
  | none => s.failOp op stBOUNDS
  | some q =>
    if q.closed then s.answerOp op stALREADY (q.body q.handle q.length)
    else if q.layerLen.any (· != q.length) then s.failOp op stBOUNDS
    else s.mirrorOp op 2 q.handle []

/-- Every tadpole of a closed sequence is due to be sealed with its VALID. -/
def State.closeSeq (s : State) (k : Nat) : State :=
  match s.seq k with
  | none => s
  | some q =>
    let s := s.modSeq k fun q => { q with closed := true }
    q.pt.foldl (fun s e => s.modDesc e.2 fun x => if x.state == .tadpole then { x with sealDue := true } else x) s

def State.commitSeal (s : State) (op : SeqOp) : State :=
  let s := s.closeSeq op.seq
  match s.seq op.seq with
  | none => s.endOp op.id
  | some q => s.answerOp op stOK (q.body q.handle q.length)

/-! ## Copies of part pages (R55 step 2, R58) -/

/-- A COW job (Table 10-5) for the first `slots` rows of page src, in the channel of both pages. -/
def State.copyJob (s : State) (src : Nat) (x y : Desc) (dst slots : Nat) : State :=
  let a := x.loc.frame * 2048
  let b := y.loc.frame * 2048
  let lk := x.state != .tadpole
  let n := frameUnits x.frameCode * 2048
  s.queueJob ⟨chanOf a, 7, slots + (if lk then 128 else 0), chanAddr a, chanAddr b,
    (if latent x.def0 then tokenBytes x.def0 else rowA x.def0 + rowB x.def0 * 2 ^ 24), .copy dst,
    (if lk then [⟨chanAddr a, n, .lock, 0⟩] else []) ++ [⟨chanAddr b, n, .win, 0⟩], (if lk then some src else none), none, s.pgt.epoch⟩

/-- A gecko reaches both pages: they lie in one channel that is in service. -/
def State.oneChannel (s : State) (x y : Desc) : Bool :=
  x.loc.tier == .hbm && chanOf (x.loc.frame * 2048) == chanOf (y.loc.frame * 2048) && s.chanUsable (chanOf (x.loc.frame * 2048))

/-- A copy of the first `slots` rows of page src into tadpole dst is asked of the gecko of their channel; a source outside
HBM is faulted in first, and a source in PCACHE is copied by the PGT. -/
def State.startCopy (s : State) (op src dst slots : Nat) : State :=
  match s.desc src, s.desc dst with
  | some x, some y =>
    let s := s.onPgt fun p => { p with copies := p.copies ++ [⟨op, src, dst, slots, none⟩] }
    if s.oneChannel x y then s.copyJob src x y dst slots else s
  | _, _ => s

/-- A copy made in place by the PGT. -/
def State.copyNow (s : State) (src : List Byte) (dst slots : Nat) : State :=
  match s.desc dst with
  | none => s
  | some y => s.writePage y (firstSlots y.def0 src slots)

/-- A copy has ended: it is no longer waited for. -/
def State.copyDone (s : State) (dst : Nat) : State := s.onPgt fun p => { p with copies := p.copies.filter (fun c => c.dst != dst) }

/-- New tadpoles for the part pages at position t / 16 of every layer and group, with their copies started: by page-table
key; none where a frame cannot be had (QUOTA). `inPlace`: a tadpole needs no copy (TRUNCATE). -/
def State.partCopies (s : State) (op : Nat) (q : Seq) (t part : Nat) (inPlace : Bool) : Option (State × Tbl Nat) :=
  if t % 16 = 0 then some (s, []) else
  (List.range (clsLayers q.def1)).foldl (fun r l => (List.range (clsGroups q.def1)).foldl (fun r g =>
    r.bind fun (s, tb) =>
      let key := ptKey l g (t / 16)
      match tfind q.pt key with
      | none => some (s, tb)
      | some d =>
        match s.desc d with
        | none => some (s, tb)
        | some x =>
          if inPlace && x.state == .tadpole then some (s, tb) else
          let near := fun c => x.loc.tier != .hbm || c == chanOf (x.loc.frame * 2048)
          match (s.allocTadpole q.def0 part false near).or (s.allocTadpole q.def0 part false (fun _ => true)) with
          | none => none
          | some (y, s) =>
            let s := s.modDesc y fun z => { z with valid := t % 16 }
            some (s.startCopy op d y (t % 16), tset tb key y)) r) (some (s, []))

/-! ## TRUNCATE (R58) -/

def trT (p : List Byte) : Nat := lat p 8 4 % 2 ^ 25

/-- A purge of the donor's prefix entries is due before the commit (R81). -/
def Seq.purgeDue (q : Seq) (t : Nat) : Bool := clsPrefix q.def1 && t / 16 < q.keyed

/-- A filter entry registered for the TRUNCATE (R81); none where the filter is full. -/
def State.registerPurge (s : State) (op : SeqOp) : Option State :=
  ((List.range 64).find? (fun i => (tfind s.pdir.purges i).isNone)).map fun i =>
    s.onPdir fun p => { p with purges := tset p.purges i ⟨op.seq, op.point / 16, none, op.id⟩ }

/-- The copies are done: the purge is registered, or waited for, and the MIRROR leaves. -/
def State.truncateCopied (s : State) (op : SeqOp) : State :=
  match s.seq op.seq with
  | none => s.failOp op stBOUNDS
  | some q =>
    if q.purgeDue op.point && op.seq < 2 ^ 24 then
      match s.registerPurge op with
      | none => if op.phase == .purging then s else (s.raise Fd.PDIR_ERR_PURGE_FULL).modOp op.id fun o => { o with phase := .purging }
      | some s => s.mirrorOp op 4 q.handle op.payload
    else s.mirrorOp op 4 q.handle op.payload

def State.beginTruncate (s : State) (op : SeqOp) : State :=
  match s.seq op.seq with
  | none => s.failOp op stBOUNDS
  | some q =>
    let t := trT op.payload
    if q.layerLen.any (· < t) then s.failOp op stBOUNDS
    else if q.layerLen.all (· == t) && !q.closed then s.answerOp op stALREADY (q.body q.handle q.length)
    else
      match s.partCopies op.id q t (hPart q.handle) true with
      | none => s.refused.failOp op stQUOTA
      | some (s, tb) =>
        let op := { op with point := t, fresh := tb, epoch := if tb.isEmpty then none else some s.pgt.epoch, phase := .copying }
        let s := s.modOp op.id fun _ => op
        if tb.isEmpty then s.truncateCopied op else s

/-- A begun TRUNCATE will cut this tadpole in place: it does not seal before that (R52, R58). -/
def State.cutDue (s : State) (d : Nat) : Bool :=
  s.pgt.ops.any fun o => o.kind == .truncate && o.phase.begun && o.point % 16 != 0 &&
    (match s.seq o.seq with
     | some q => q.pt.any fun e => e.2 == d && keyPos e.1 == o.point / 16 && (tfind o.fresh e.1).isNone
     | none => false)

/-- The page table after a truncate to t, `copies` standing for sealed part pages: the pages dereferenced. -/
def truncated (pt : Tbl Nat) (t : Nat) (copies : Tbl Nat) : Tbl Nat × List Nat :=
  let keep := fun (e : Nat × Nat) => decide (16 * keyPos e.1 < t)
  ((pt.filter keep).map (fun e => (e.1, (tfind copies e.1).getD e.2)),
   ((pt.filter (fun e => !keep e)).map Prod.snd) ++ ((pt.filter (fun e => keep e && (tfind copies e.1).isSome)).map Prod.snd))

/-- A truncate applied to a record, its pages and its prefix slot (R58, R69). -/
def State.truncateSeq (s : State) (k t : Nat) (copies : Tbl Nat) : State :=
  match s.seq k with
  | none => s
  | some q =>
    let (pt, gone) := truncated q.pt t copies
    let br := q.broken || (clsPrefix q.def1 && decide (t / 16 < q.keyed))
    let s := s.modSeq k fun q => { q with
      pt := pt, closed := false, layerLen := q.layerLen.map (fun _ => t), broken := br,
      tokids := if br then [] else q.tokids.take (t - 16 * q.keyed),
      pendKeys := if br then [] else q.pendKeys.filter (fun x => x.1 < t / 16) }
    let s := (gone.foldl State.dropRef s).trimTables k
    if t % 16 = 0 then s else
    pt.foldl (fun s e =>
      if keyPos e.1 = t / 16 then
        match s.desc e.2 with
        | none => s
        | some x =>
          if x.state == .tadpole then
            (s.writePage x (firstSlots x.def0 (s.pageContent x) (t % 16))).modDesc e.2 fun x =>
              { x with valid := t % 16, sealDue := false, sealUnit := none }
          else s
      else s) s

def State.commitTruncate (s : State) (op : SeqOp) : State :=
  let s := s.truncateSeq op.seq op.point op.fresh
  let s := s.onPdir fun p => { p with
    purges := p.purges.map (fun x => if x.2.op == op.id && x.2.epoch.isNone then (x.1, { x.2 with epoch := some s.pgt.epoch }) else x) }
  match s.seq op.seq with
  | none => s.endOp op.id
  | some q => s.answerOp op stOK (q.body q.handle q.length)

/-- New tadpoles of an operation that fails are given back, and its purge entry with them. -/
def State.undoCopies (s : State) (op : SeqOp) : State :=
  let s := op.fresh.foldl (fun s y => (s.copyDone y.2).discardPage y.2) s
  let s := s.onHb fun h => { h with
    jobs := h.jobs.filter (fun j => j.slot.isSome || !(match j.use with | .copy d => op.fresh.any (fun y => y.2 == d) | _ => false)) }
  s.onPdir fun p => { p with purges := p.purges.filter (fun x => x.2.op != op.id || x.2.epoch.isSome) }

/-! ## FREE (R60) -/

def State.beginFree (s : State) (op : SeqOp) : State :=
  match s.seq op.seq with
  | none => s.failOp op stBOUNDS
  | some q => s.mirrorOp op 5 q.handle []

def State.commitFree (s : State) (op : SeqOp) : State :=
  match s.seq op.seq with
  | none => s.endOp op.id
  | some q =>
    let s := s.modSeq op.seq fun q => { q with sstate := .freeing }
    let s := s.onPgt fun p => { p with freeing := p.freeing ++ [op.seq] }
    s.answerOp op stOK (q.body q.handle q.length)

/-! ## FORK and adoption (R39, R42, R55-R57, R69, R77) -/

/-- Sequences held of a partition, inbound ones included (R352). -/
def State.partSeqs (s : State) (part : Nat) : Nat :=
  (s.pgt.seqs.filter (fun p => p.1 < 2 ^ 24 && hPart p.2.handle == part)).length
def State.allSeqs (s : State) : Nat := (s.pgt.seqs.filter (fun p => p.1 < 2 ^ 24)).length

/-- An index usable under R39: no sequence, no custody record, its last free at least 1 s ago. -/
def State.indexUsable (s : State) (i : Nat) : Bool :=
  (s.seq i).isNone && (tfind s.cust.records i).isNone &&
  (match tfind s.pgt.gens i with | none => true | some (_, t) => t + 1000000 ≤ s.usec)

/-- The index the device takes for a new sequence, its choice among the usable ones. -/
def State.newIndex (s : State) : Option Nat :=
  ((Config.pick s.free % 2 ^ 24) :: 0 :: (s.pgt.seqs.map Prod.fst ++ s.cust.records.map Prod.fst ++ s.pgt.gens.map Prod.fst).map (· + 1)
    ++ s.pgt.gens.map Prod.fst).find? (fun i => i < 2 ^ 24 && s.indexUsable i)

/-- The generation of the next sequence at an index. -/
def State.nextGen (s : State) (i : Nat) : Nat :=
  match tfind s.pgt.gens i with
  | none => 1
  | some (g, _) => if g ≥ 0xFFFF then 1 else g + 1

/-- QUOTA, BUSY or the index for a new sequence (R39, R55). -/
def State.seqRoom (s : State) (part : Nat) : Nat × Nat :=
  if s.fd (Fd.PGT_PART_SEQ_MAX_MAX part) ≤ s.partSeqs part ∨ 16777216 ≤ s.allSeqs then (stQUOTA, 0)
  else match s.newIndex with
    | none => (stBUSY, 0)
    | some i => (stOK, i)

/-- A record of a new sequence, all layers of length n. -/
def newSeq (handle cls def0 def1 n usec : Nat) (hidden : Bool) : Seq :=
  ⟨handle, cls, def0, def1, .active, false, false, 0, 0, 0, 1, usec, List.replicate (clsLayers def1) n, [], [], 0, 0, false, [], [], none, none, hidden⟩

/-- The custody record a sequence is created with (R351). -/
def State.newRecord (s : State) (i handle : Nat) : State :=
  s.onCust fun c => { c with records := tset c.records i ⟨handle, 1, s.node, .held, 0, 0, 0, 0, s.node⟩ }

/-- A new sequence at an index, its record, its prefix slot and the page tables that `pt` will fill in HBM; none where they
find no room. -/
def State.placeSeq (s : State) (i : Nat) (q : Seq) (pt : Tbl Nat) : Option State :=
  (((s.takeSeqChunks (q.chunks i)).map fun s => (s.onPgt fun p => { p with seqs := tset p.seqs i { q with pt := pt } }).drawn).bind
    fun s => s.fitTables i).map fun s => (s.modSeq i fun _ => q).newRecord i q.handle

/-- The pages of a parent or donor that a child at f has, shared or copied. -/
def Seq.pagesBelow (q : Seq) (f : Nat) : Tbl Nat := q.pt.filter fun e => 16 * keyPos e.1 < f

/-- The child of a FORK without a parent. -/
def State.beginCreate (s : State) (op : SeqOp) (part : Nat) : State :=
  let cls := lat op.payload 12 1
  let d0 := s.def0 cls
  if !clsValid d0 || clsPart d0 != part then s.failOp op stBOUNDS else
  match s.seqRoom part with
  | (0, i) =>
    let h := part * 2 ^ 60 + s.node * 2 ^ 40 + i * 2 ^ 16 + s.nextGen i
    match s.placeSeq i (newSeq h cls d0 (s.def1 cls) 0 s.usec true) [] with
    | none => s.refused.failOp op stBUSY
    | some s =>
      let op := { op with seq := i, child := some i }
      let s := s.modOp op.id fun _ => op
      s.mirrorOp op 3 h op.payload
  | (st, _) => s.failOp op st

/-- A child removed with what it holds (R55): undone entirely. -/
def State.undoFork (s : State) (op : SeqOp) : State :=
  match op.child with
  | none => s
  | some c =>
    let s := match s.seq c with
      | none => s
      | some q => (q.pt.filter (fun (e : Nat × Nat) => (tfind op.fresh e.1) != some e.2)).foldl
          (fun (s : State) (e : Nat × Nat) => s.dropRef e.2) s
    let s := (s.undoCopies op).dropSeq c
    s.onCust fun x => { x with records := tdel x.records c }

/-- Positions below n whose pages can be shared in every layer and group: an adoption stops at the first page that is not
SEALED or has lost its last reference (Table 3-10). -/
def State.adoptable (s : State) (q : Seq) (n : Nat) : Nat :=
  let bad := q.pt.filter (fun e => keyPos e.1 < n &&
    (match s.desc e.2 with | some x => x.refcnt == 0 || x.state != .sealed | none => true))
  bad.foldl (fun m e => min m (keyPos e.1)) n

/-- References taken on every page wholly below position n; none where a REFCNT is full (R57). -/
def State.shareBelow (s : State) (q : Seq) (child n : Nat) : Option State :=
  let es := q.pt.filter (fun e => keyPos e.1 < n)
  (es.foldl (fun (r : Option State) e => r.bind fun s => s.addRef e.2) (some s)).map fun s =>
    s.modSeq child fun c => { c with pt := es.foldl (fun t (e : Nat × Nat) => tset t e.1 e.2) c.pt }

/-- The prefix slot of a child (R69): `adopted` is the entry's key and MATCHED. That a plain child of a BROKEN parent is BROKEN
too is the model's reading (notes/assumptions/114.md). -/
def forkChain (parent child : Seq) (f len : Nat) (adopted : Option (Nat × Nat)) : Seq :=
  match adopted with
  | some (key, matched) =>
    if f = 16 * matched ∧ len = f then { child with chainKey := key, keyed := matched } else { child with broken := true }
  | none =>
    if parent.broken ∨ f / 16 ≠ parent.keyed then { child with broken := true }
    else { child with chainKey := parent.chainKey, keyed := parent.keyed, tokids := parent.tokids.take (f % 16) }

/-- Step 3 of R55 once the copies are there: references, chain, the MIRROR. -/
def State.forkShare (s : State) (op : SeqOp) (adopted : Option (Nat × Nat)) : State :=
  match s.seq op.seq, op.child.bind s.seq, op.child with
  | some q, some c, some ci =>
    let f := op.point
    let n := if op.kind == .adopt then s.adoptable q (f / 16) else f / 16
    let len := if n < f / 16 then 16 * n else f
    let s := if n < f / 16 then s.undoCopies op else s
    let fresh : Tbl Nat := if n < f / 16 then [] else op.fresh
    match s.shareBelow q ci n with
    | none => ((s.undoFork op).raise Fd.PGT_ERR_REFCNT_SAT).failOp op stQUOTA
    | some s =>
      let s := s.modSeq ci fun c' =>
        let c' := forkChain q c' f len adopted
        { c' with layerLen := c.layerLen.map (fun _ => len), pt := fresh.foldl (fun t (e : Nat × Nat) => tset t e.1 e.2) c'.pt }
      let op := { op with fresh := fresh, point := len, epoch := none }
      let s := (s.modOp op.id fun _ => op).trimTables ci
      let body := if op.kind == .adopt then le 8 q.handle ++ le 4 len ++ zeros 12 else op.payload
      s.mirrorOp op 3 c.handle body
  | _, _, _ => s.failOp op stBOUNDS

/-- A FORK of a parent or donor at f (R55): the child, its part pages, then the shared pages. -/
def State.beginFork (s : State) (op : SeqOp) (f part : Nat) (adopted : Option (Nat × Nat)) : State :=
  match s.seq op.seq with
  | none => s.failOp op stBOUNDS
  | some q =>
    if q.length < f ∨ !clsValid q.def0 then s.failOp op stBOUNDS else
    match s.seqRoom part with
    | (0, i) =>
      let h := part * 2 ^ 60 + s.node * 2 ^ 40 + i * 2 ^ 16 + s.nextGen i
      match s.placeSeq i (newSeq h q.cls q.def0 q.def1 f s.usec true) (q.pagesBelow f) with
      | none => s.refused.failOp op stBUSY
      | some s =>
      match s.partCopies op.id q f part false with
      | none => (s.undoFork { op with child := some i }).refused.failOp op stQUOTA
      | some (s, tb) =>
        let op := { op with child := some i, point := f, fresh := tb, epoch := if tb.isEmpty then none else some s.pgt.epoch, phase := .copying }
        let s := s.modOp op.id fun _ => op
        if tb.isEmpty && op.kind != .adopt then s.forkShare op adopted else s
    | (st, _) => s.failOp op st

def State.commitFork (s : State) (op : SeqOp) : State :=
  match op.child with
  | none => s.endOp op.id
  | some c =>
    let s := s.modSeq c fun q => { q with hidden := false }
    match s.seq c with
    | none => s.endOp op.id
    | some q => s.answerOp op stOK (q.body q.handle q.length)

/-! ## Commit, failure and what follows -/

/-- The commit of an applied operation (R346). -/
def State.commitOp (s : State) (op : SeqOp) : State :=
  match op.kind with
  | .append => s.commitAppend op
  | .seal => s.commitSeal op
  | .truncate => s.commitTruncate op
  | .free => s.commitFree op
  | .fork => s.commitFork op
  | .adopt => s.commitFork op
  | _ => s.endOp op.id

/-- An operation undone and ended with a status: a NACK to its MIRROR, or a page that cannot be restored (R322, R55, R58). -/
def State.abortOp (s : State) (op : SeqOp) (st : Nat) : State :=
  let s := match op.kind with
    | .append => s.undoAppend op
    | .truncate => s.undoCopies op
    | .fork => s.undoFork op
    | .adopt => s.undoFork op
    | _ => s
  s.failOp op st

/-- CUSTODY INFO answered (R348, R464). -/
def State.answerInfo (s : State) (op : SeqOp) : State :=
  match s.seq op.seq with
  | none => s.failOp op stBOUNDS
  | some q => s.answerOp op stOK (q.body q.handle q.length)

end Sys2Proof.Machine
end

