-- ==== Sys2Proof/Machine/Streams.lean ====
section
/-! DEFINITION. Streams: workspaces, units, work items, engines, lenders' work, merging and delivery (chapters 5 to 7). -/

namespace Sys2Proof.Machine

def State.stream (s : State) (i : Nat) : Option Stream := tfind s.ae.streams i
def State.modStream (s : State) (i : Nat) (f : Stream → Stream) : State := s.onAe fun a => { a with streams := tmod a.streams i f }
def State.modItem (s : State) (i k : Nat) (f : WorkItem → WorkItem) : State :=
  s.modStream i fun x => { x with items := (x.items.zipIdx).map fun (it, j) => if j = k then f it else it }
def State.item (s : State) (i k : Nat) : Option WorkItem := (s.stream i).bind fun x => x.items[k]?

/-! ## Work requests that end (R291, R292) -/

/-- A work request completes with a status: an entry of its completion queue, or RMO_ERR.WR_FAIL (R285, R292). -/
def State.endWr (s : State) (id st : Nat) : State :=
  match s.rmo.wrs.find? (fun w => w.id == id) with
  | none => s
  | some w =>
    let cq := lat w.bytes 44 2 % 4096
    let s := s.onRmo fun m => { m with wrs := m.wrs.filter (fun y => y.id != id) }
    let s := w.holds.foldl State.outflight s
    let bad := st ≠ stOK ∧ st ≠ stEMPTY
    let s := if bad then s.inc Fd.RMO_WR_FAILS_COUNT else s
    if lat w.bytes 1 1 % 2 = 1 ∧ (w.reserved ∨ s.cqRoom cq) then
      let s := if w.reserved then s else s.cqReserve cq
      s.cqPut cq (lat w.bytes 48 4) 0 w.conduit 2 st w.ctr
    else if bad then s.raise Fd.RMO_ERR_WR_FAIL else s

def State.endWrOf (s : State) (wr : Option Nat) (st : Nat) : State := match wr with | none => s | some id => s.endWr id st

/-! ## The stream pool and the spill area (R100, R108, R369) -/

def spillBase : Nat := 2 ^ 40

/-- n blocks of 4 KiB, from the pool or else from the spill area. -/
def State.takePool (s : State) (n : Nat) : Option (Nat × State) :=
  let lo := s.fd Fd.AE_POOL_OFFSET / 4096
  let hi := lo + s.fd Fd.AE_POOL_SIZE * 256
  let used := s.ae.poolUsed ++ s.tier.pcDirty.map (fun b => (b.1, 1))
  let spill := if s.fd Fd.AE_SPILL_BASE_ADDR = 0 then 0 else s.fd Fd.AE_SPILL_SIZE_MIB * 256
  ((roomAt used lo hi n 1 (Config.pick s.free)).or (roomAt used spillBase (spillBase + spill) n 1 0)).map fun a =>
    (a, (s.onAe fun x => { x with poolUsed := tset x.poolUsed a n }).drawn)

/-- Blocks given back, last written by an engine or another unit: PCACHE blocks wait to be zeroed. -/
def State.dropPool (s : State) (a : Option Nat) (owner : Nat) : State :=
  match a with
  | none => s
  | some a =>
    let n := (tfind s.ae.poolUsed a).getD 0
    let s := s.onAe fun x => { x with poolUsed := tdel x.poolUsed a }
    if spillBase ≤ a then s
    else s.onTier fun b => { b with pcDirty := b.pcDirty ++ (List.range n).map (fun i => (a + i, owner)) }

/-- Where a block of the pool or of the spill area lies: in tier 2, and from which byte. -/
def State.poolAt (s : State) (a : Nat) : Bool × Nat :=
  if spillBase ≤ a then (true, s.fd Fd.AE_SPILL_BASE_ADDR / 2 ^ 21 * 2 ^ 21 + (a - spillBase) * 4096) else (false, a * 4096)

/-- Bytes written into blocks of the pool. -/
def State.poolWrite (s : State) (a : Nat) (l : List Byte) : State :=
  let p := s.poolAt a
  if p.1 then s.hbmWrite p.2 l else s.pcWrite p.2 l

/-- The address of pool blocks as WORKSPACE and SAVE give it: bit 63 marks the spill area (Tables 5-6, 5-7). -/
def State.poolWord (s : State) (a : Option Nat) : Nat :=
  match a with
  | none => 0
  | some a => let p := s.poolAt a
    p.2 + (if p.1 then 2 ^ 63 else 0)

/-- Bytes of the workspace and merge area (R100, R116), and of a save area (R106). -/
def Stream.workBytes (x : Stream) : Nat := 512 + 16 * min 65536 x.scanned.length + x.rowCount * (8 + 4 * x.owidth)
def Stream.saveBytes (x : Stream) (rows : Nat) : Nat := 32 + rows * (8 + 4 * x.owidth)

/-- The workspace is had, or the stream waits in the dispatcher (R108). -/
def State.placeStream (s : State) (i : Nat) : State :=
  match s.stream i with
  | none => s
  | some x =>
    if x.workAt.isSome then s else
    match s.takePool (ceilDiv x.workBytes 4096) with
    | none => s
    | some (a, s) => s.modStream i fun x => { x with workAt := some a }

/-! ## Units (R101, R121) -/

/-- The page-table scan of a stream's layer: every live page, group by group, in position order (R101, R96). -/
def State.scan (s : State) (x : Stream) : List PageUnit :=
  match s.seq x.seq with
  | none => []
  | some q =>
    (List.range (clsGroups x.def1)).flatMap fun g => (List.range (ceilDiv x.llen 16)).filterMap fun p =>
      match tfind q.pt (ptKey x.layer g p) with
      | none => none
      | some d =>
        match s.desc d with
        | none => none
        | some y =>
          let slots := min 16 (x.llen - 16 * p)
          let tad := y.state == .tadpole || (y.state == .poisoned && !y.wasSealed)
          if !x.liveAt p slots then none else
          let kind : UnitKind :=
            if y.state == .poisoned then .deferred
            else match y.loc.tier with
              | .pcache => .local_
              | .hbm => .local_
              | .flash => .deferred
              | .lent => if x.expanded then .deferred else .remote
          some ⟨y.loc, d, p, g, kind, slots, tad, if tad then s.pageContent y else []⟩

/-- HEAT raised by one, and the promotion that makes due (R166, R173). -/
def State.warm (s : State) (u : PageUnit) : State :=
  match s.desc u.desc with
  | none => s
  | some x =>
    let h := min 255 (x.heat + 1)
    let to_ : Option Tier := match x.loc.tier with
      | .hbm => if s.fd Fd.TIER_POLICY_PROMOTE_PC ≤ h then some .pcache else none
      | .lent => if s.fd Fd.TIER_POLICY_PROMOTE_LENT ≤ h then some .hbm else none
      | _ => none
    let s := s.modDesc u.desc fun y => { y with heat := h }
    match to_ with
    | some t => if s.tier.due.contains (u.desc, t) then s else s.onTier fun b => { b with due := b.due ++ [(u.desc, t)] }
    | none => s

/-- HEAT raised by a listing (R166). -/
def State.heatUp (s : State) (us : List PageUnit) : State :=
  us.foldl State.warm s

/-- The content an engine reads for a unit, the groups in `errs` as their decoding returns them. -/
def State.unitContent (s : State) (x : Stream) (u : PageUnit) (errs : Errs) : List Byte :=
  if u.tadpole then u.snap
  else if u.loc.tier == .hbm then s.hbmFetch errs (u.loc.frame * 2048) (contentSize x.def0)
  else s.readLoc u.loc (contentSize x.def0)

/-- A fault asked for by a waiter; several on one page share one read (R180, R181). -/
def State.addFault (s : State) (d : Nat) (loc : Loc) (w : Waiter) : State :=
  if s.tier.faults.any (fun f => f.desc == d) then
    s.onTier fun b => { b with faults := b.faults.map fun f =>
      if f.desc == d && !f.waiters.contains w then { f with waiters := f.waiters ++ [w] } else f }
  else s.onTier fun b => { b with faults := b.faults ++ [⟨d, loc, false, none, [w], none, 0⟩] }

/-- Faults of the deferred units of a stream that lie in FLASH or LENT. -/
def State.deferFaults (s : State) (i : Nat) (us : List PageUnit) : State :=
  us.foldl (fun s u =>
    if u.kind == .deferred then
      match s.desc u.desc with
      | some y => if y.state != .poisoned && (y.loc.tier == .flash || y.loc.tier == .lent) then
          s.addFault u.desc y.loc (.item i) else s
      | none => s
    else s) s

/-- Streams that wait for a page which has come to lie in FLASH or LENT ask for it. -/
def State.askAgain (s : State) (d : Nat) (l : Loc) : State :=
  s.ae.streams.foldl (fun s p =>
    if p.2.lender.isNone && p.2.cstate != .aborting && p.2.items.any (fun it => it.units.any (fun u => u.desc == d && u.kind == .deferred))
    then s.addFault d l (.item p.1) else s) s

/-! ## Splitting (R102) -/

/-- Sizes of n contiguous ranges of u units, larger ones first. -/
def rangeSizes (u n : Nat) : List Nat := (List.range n).map fun k => u / n + (if k < u % n then 1 else 0)

def cutBySizes {α : Type} : List Nat → List α → List (List α)
  | [], _ => []
  | k :: ks, l => l.take k :: cutBySizes ks (l.drop k)

/-- Within a range deferred units go to the tail. -/
def tailDeferred (l : List PageUnit) : List PageUnit := l.filter (fun u => u.kind != .deferred) ++ l.filter (fun u => u.kind == .deferred)

/-- The range that takes the next tadpole: the fewest units, the last of those. -/
def fewest (rs : List (List PageUnit)) : Nat :=
  ((rs.zipIdx).foldl (fun (b : Nat × Nat) (x : List PageUnit × Nat) => if x.1.length ≤ b.1 then (x.1.length, x.2) else b)
    (((rs.head?).map List.length).getD 0, 0)).2

def dealTadpole (rs : List (List PageUnit)) (u : PageUnit) : List (List PageUnit) :=
  let k := fewest rs
  (rs.zipIdx).map fun (r, j) =>
    if j = k then r.filter (fun v => v.kind != .deferred) ++ (if u.kind == .deferred then [] else [u]) ++
      r.filter (fun v => v.kind == .deferred) ++ (if u.kind == .deferred then [u] else []) else r

def WorkItem.fresh (us : List PageUnit) (resumed : Bool) : WorkItem :=
  ⟨us, .waiting, none, 0, none, 0, [], none, resumed, none, false, false, false, 0, [], false, false, 0⟩

/-- The local and deferred units of a window split into work items (R102). -/
def State.splitUnits (s : State) (x : Stream) (us : List PageUnit) : List WorkItem :=
  let own := us.filter (fun u => u.kind != .remote)
  let sealed_ := own.filter (fun u => !u.tadpole)
  let u := sealed_.length
  let lim := ceilDiv u (max 1 (s.fd Fd.AE_SPLIT_MIN_UNITS))
  let n := max 1 (min (min 16 (s.fd Fd.AE_SPLIT_MAX_ENG_M1 + 1)) (min lim (if x.maxEng = 0 then 16 else x.maxEng)))
  let rs := (cutBySizes (rangeSizes u n) sealed_).map tailDeferred
  ((own.filter (·.tadpole)).foldl dealTadpole rs).map (WorkItem.fresh · false)

/-! ## The dispatcher and the engines (R103, R107) -/

def State.engineQueue (s : State) (e : Nat) : List (Nat × Nat) := (tfind s.ae.queues e).getD []

/-- The engine may take an item of a partition (R103). -/
def State.engineOk (s : State) (e part : Nat) : Bool :=
  s.flag (Fd.AE_CTL_ENABLE e) && !s.flag (Fd.AE_CTL_DRAIN e) && !s.flag (Fd.AE_STATUS_QUARANTINED e) &&
  bits (s.fd (Fd.AE_CTL_PART_MASK e)) part part == 1 && (s.engineQueue e).length < 4 &&
  (match s.sec.molting with | some (m, _) => m != e | none => true)

/-- The eligible engine with the fewest items waiting, ties to the lowest number, outside some mesh columns. -/
def State.chooseEngine (s : State) (part : Nat) (cols : List Nat) : Option Nat :=
  (((List.range 80).filter (fun e => s.engineOk e part && !cols.contains (e % 10))).foldl
    (fun (b : Option (Nat × Nat)) e => let n := (s.engineQueue e).length
      match b with | some (m, f) => if n < m then some (n, e) else some (m, f) | none => some (n, e)) none).map Prod.snd

/-- An idle engine takes the head of its queue. -/
def State.engineStart (s : State) (e : Nat) : State :=
  if !s.awake then s else
  match tfind s.ae.running e, s.engineQueue e with
  | none, (i, k) :: l =>
    let s := s.onAe fun a => { a with
      running := tset a.running e (i, k), queues := tput [] a.queues e l, busySince := tset a.busySince e s.mtime }
    let s := s.dropPool ((s.item i k).bind (·.saveAt)) e
    (s.modItem i k fun it => { it with istate := .running, engine := some e, saveAt := none, slicesIn := false, asked := false }).modStream i fun x =>
      if x.cstate == .aborting then x else { x with cstate := .running }
  | _, _ => s

/-- The time an engine has run its item is counted: since the last 1 ms boundary for its partition, unless it is a re-run
(R438, R439), and since it began, where it leaves the engine. -/
def State.engineTime (s : State) (e : Nat) (leaves : Bool) : State :=
  match tfind s.ae.running e with
  | none => s
  | some (i, k) =>
    let t := (tfind s.ae.busySince e).getD s.mtime
    let s := match s.stream i with
      | some x => if ((s.item i k).bind (·.rerunOf)).isSome then s else s.use x.part 5 (s.mtime - max t (s.mgt.sampleAt * 100))
      | none => s
    if leaves then s.count (Fd.AE_BUSY_NS_NS e) ((s.mtime - t) * 10) else s

/-- The engine's item leaves it; it takes the next one. -/
def State.engineFree (s : State) (e : Nat) : State :=
  ((s.engineTime e true).onAe fun a => { a with
    running := tdel a.running e, busySince := tdel a.busySince e, lockWait := tdel a.lockWait e }).engineStart e

/-- Items go in line at the dispatcher, resumed ones ahead of those of newly admitted streams. -/
def State.lineUp (s : State) (i k : Nat) : State :=
  let res := fun (y : Nat × Nat) => ((s.item y.1 y.2).map (·.resumed)).getD false
  let first := res (i, k)
  s.onAe fun a => { a with waiting :=
    if first then a.waiting.filter res ++ [(i, k)] ++ a.waiting.filter (fun y => !res y) else a.waiting ++ [(i, k)] }

/-- A waiting item given to an engine. -/
def State.giveItem (s : State) (i k e : Nat) : State :=
  let s := s.onAe fun a => { a with
    waiting := a.waiting.filter (· != (i, k)), queues := tset a.queues e (s.engineQueue e ++ [(i, k)]) }
  let min_ := max 1 (s.fd Fd.AE_SEL_CTL_MIN_UNITS)
  let s := match s.stream i with
    | none => s
    | some x => s.modItem i k fun it =>
        { it with istate := .queued, engine := some e, sel := x.smode != 0 && min_ ≤ it.units.length && x.lender.isNone }
  s.engineStart e

/-- Cross-check sampling of a dispatched item (R340): a re-run in another mesh column. -/
def State.sample (s : State) (i k e : Nat) : State :=
  let s := s.onTwn fun t => { t with xcount := t.xcount + 1 }
  if !s.flag Fd.TWN_XCHK_ENABLE || s.twn.xcount % 2 ^ s.fd Fd.TWN_XCHK_PERIOD_LOG2 != 0 then s else
  match s.stream i, s.item i k with
  | some x, some it =>
    match s.chooseEngine x.part [e % 10] with
    | none => s
    | some e2 =>
      let n := x.items.length
      let s := (s.modItem i k fun it => { it with sampled := true, busyAt := s.ae.running.length }).modStream i fun x =>
        { x with items := x.items ++ [{ WorkItem.fresh it.units false with rerunOf := some k, sampled := true, busyAt := s.ae.running.length }] }
      (s.giveItem i n e2).inc Fd.TWN_XCHK_RUNS_COUNT
  | _, _ => s

/-- The dispatcher's turn for a stream (R103): its first waiting item goes to an engine, unless one ahead of it in line
could go. -/
def State.dispatch (s : State) (i : Nat) : State :=
  let s := s.placeStream i
  match s.ae.waiting.find? (fun y => y.1 == i), s.stream i with
  | some (_, k), some x =>
    let ahead := s.ae.waiting.takeWhile (fun y => y != (i, k))
    if x.workAt.isNone || ahead.any (fun y => match s.stream y.1 with
        | some z => z.workAt.isSome && (s.chooseEngine z.part []).isSome | none => false) then s else
    match s.chooseEngine x.part [] with
    | none => s
    | some e =>
      let fresh := ((s.item i k).map (fun it => !it.resumed && it.rerunOf.isNone)).getD false
      let s := s.giveItem i k e
      if fresh then s.sample i k e else s
  | _, _ => s

/-- A restart of an item (R110): from its first unit and first row tile, first in line. -/
def State.restartItem (s : State) (i k : Nat) : State :=
  match s.item i k with
  | none => s
  | some _ =>
    let s := s.modItem i k fun it => { it with
      istate := .waiting, engine := none, tile := 0, todo := none, inBlock := 0, accs := [], resumed := true,
      heldRecs := [], stalled := false, slicesIn := false, asked := false }
    (s.lineUp i k).inc Fd.AE_RESTARTS_COUNT

/-! ## Merge credits and SUBQUERYs (R121, R124-R126) -/

/-- Credits held by streams, and landing areas held by relays (R124, R126). -/
def Stream.credits_ (x : Stream) : Nat :=
  (x.subs.filter (·.credit)).length + (match x.lender with | some w => w.groupIn - w.answered | none => 0)
def State.creditsUsed (s : State) : Nat := s.ae.streams.foldl (fun n p => n + p.2.credits_) 0
def State.creditFree (s : State) (x : Stream) : Bool :=
  x.credits_ < max 1 (s.fd Fd.MRG_CTL_STREAM_CREDITS) && s.creditsUsed < s.fd Fd.MRG_CREDIT_POOL_MAX

/-- The request header as admitted (Table 5-2), for a SUBQUERY. -/
def Stream.header (x : Stream) : List Byte :=
  le 8 x.handle ++ le 1 x.layer ++ le 1 x.byte9 ++ le 2 x.qcount ++ le 2 x.qheads ++ le 1 x.byte14 ++
  le 1 (if x.raw then x.byte15 else x.byte15 + 4) ++ le 4 x.qpos ++ le 4 x.maskarg ++ le 4 x.scale.toNat ++
  le 4 x.capval.toNat ++ le 4 x.selparam.toNat ++ le 4 0 ++ le 8 0 ++ le 4 0 ++ zeros 4 ++ le 8 x.tag

/-- LOC in the format of Table 3-4. -/
def Loc.word (l : Loc) : Nat := l.tier.code * 2 ^ 62 + l.node * 2 ^ 40 + l.frame

/-- A unit entry (Table 5-7) with KIND 0 and descriptor index 0. -/
def PageUnit.bytes (u : PageUnit) : List Byte := le 8 u.loc.word ++ le 4 0 ++ le 4 (u.page + u.group * 2 ^ 20)

/-- SUBQUERY payload (R121, Table 6-5). -/
def Stream.subPayload (x : Stream) (i : Nat) (y : SubQuery) (sendto : Nat) : List Byte :=
  let relay := !y.members.isEmpty
  x.header ++
  le 4 (i + y.sub * 2 ^ 16 + y.gen * 2 ^ 28) ++ le 4 x.llen ++ le 4 y.units.length ++
  le 1 ((if y.hold then 1 else 0) + (if relay then 2 else 0) + (if y.via.isSome then 4 else 0)) ++
  le 1 y.members.length ++ zeros 2 ++ le 4 sendto ++ zeros 4 ++
  le 8 (x.def0 % 2 ^ 42 + (clsGroups x.def1 - 1) * 2 ^ 42) ++
  (if x.bias then (x.slopes.flatMap (fun w => le 4 w.toNat)) else []) ++ y.units.flatMap PageUnit.bytes ++ x.rows.flatten

/-- Distinct lenders of remote units, ascending. -/
def lendersOf (us : List PageUnit) : List Nat :=
  ((us.filter (fun u => u.kind == .remote)).foldl (fun t u => tset t u.loc.node ()) ([] : Tbl Unit)).map Prod.fst

/-- Units made deferred in the stream's items: they join, at the tail, the items with the fewest units. -/
def State.addDeferred (s : State) (i : Nat) (us : List PageUnit) : State :=
  match us with
  | [] => s
  | _ =>
    let us := us.map fun u => { u with kind := .deferred }
    let s := s.modStream i fun x => { x with items := x.items ++ [WorkItem.fresh us true] }
    match s.stream i with
    | none => s
    | some x => (s.lineUp i (x.items.length - 1)).deferFaults i us

/-- A SUBQUERY given up: its units are handled at home (R123). -/
def State.fallBack (s : State) (i : Nat) (us : List PageUnit) : State :=
  (s.addDeferred i us).count Fd.MRG_FALLBACKS_COUNT us.length

/-- Pages that cannot be fetched for want of a conduit: poisoned and restored from the twin (R121, R188). -/
def State.unreachable (s : State) (i : Nat) (us : List PageUnit) : State :=
  let s := us.foldl (fun s u => s.poison u.desc) s
  s.fallBack i us

/-- The SUBQUERYs of a window (R121, R124, R126), in the lowest slots that none outstanding holds. -/
def State.sendSubs (s : State) (i : Nat) : State :=
  match s.stream i with
  | none => s
  | some x =>
    let ls := lendersOf x.units
    let taken := x.subs.map (·.sub)
    let slots := (List.range (ls.length + taken.length)).filter (fun k => !taken.contains k && decide (k < 4096))
    let unitsOf := fun n => x.units.filter (fun u => u.kind == .remote && u.loc.node == n)
    let reach := (ls.filter (fun n => (s.conduitTo n x.part).isSome))
    let lost := ls.filter (fun n => (s.conduitTo n x.part).isNone)
    let s := lost.foldl (fun s n => s.unreachable i (unitsOf n)) s
    let s := s.addDeferred i ((reach.drop slots.length).flatMap unitsOf)
    let sendTo := reach.take slots.length
    let slot := fun j => (slots[j]?).getD 0
    let run := max 2 (s.fd Fd.MRG_CTL_RELAY_FANIN_M1 + 1)
    let relaying := s.fd Fd.MRG_CTL_RELAY_MIN ≠ 0 ∧ s.fd Fd.MRG_CTL_RELAY_MIN < sendTo.length
    (sendTo.zipIdx).foldl (fun s (n, k) =>
      match s.stream i, s.conduitTo n x.part with
      | some y, some c =>
        let head := k / run * run
        let runLen := min run (sendTo.length - head)
        let via : Option Nat := if relaying ∧ k ≠ head then some (slot head) else none
        let mem : List Nat := if relaying ∧ k = head then (List.range (runLen - 1)).map (fun j => slot (k + 1 + j)) else []
        let credit := via.isNone && s.creditFree y
        let gen := (tfind y.subgens (slot k)).getD 0
        let sub : SubQuery := ⟨slot k, gen, n, c, unitsOf n, credit, via.isNone && !credit, via, mem, false⟩
        let dest := if relaying ∧ k ≠ head then (sendTo[head]?).getD s.node else s.node
        let s := s.modStream i fun y => { y with subs := y.subs ++ [sub] }
        let s := s.send c 0x03 0 (y.subPayload i sub dest) (.subquery i (slot k) gen)
        let s := s.inc Fd.MRG_SUBQUERIES_COUNT
        if sub.hold then s.inc Fd.MRG_HOLDS_COUNT else s
      | _, _ => s) s

/-- A released credit goes to the lowest waiting HOLD SUBQUERY of the stream (R125, Table 6-6). -/
def State.grantNext (s : State) (i : Nat) : State :=
  match s.stream i with
  | none => s
  | some x =>
    match x.subs.find? (·.hold) with
    | none => s
    | some y =>
      if !s.creditFree x then s else
      let s := s.modStream i fun x => { x with subs := x.subs.map fun z => if z.sub = y.sub then { z with hold := false, credit := true } else z }
      (s.send y.conduit 0x3F 6 (le 2 0x0101 ++ le 2 i ++ le 2 (y.sub + y.gen * 2 ^ 12) ++ zeros 2 ++ le 8 x.handle) .plain).inc
        Fd.MRG_GRANTS_COUNT

/-- A SUBQUERY ends: its slot takes a new generation and its credit is free. -/
def State.endSub (s : State) (i k : Nat) : State :=
  let s := s.modStream i fun x => { x with
    subs := x.subs.filter (fun y => y.sub != k)
    subgens := tset x.subgens k (((tfind x.subgens k).getD 0 + 1) % 16) }
  s.grantNext i

/-- The MSGSEQ under which a message of a purpose was last sent on a conduit, if a segment of it has been selected. -/
def State.sentAs (s : State) (c : Nat) (p : Purpose) : Option Nat :=
  ((s.trl.awaiting.filter (fun a => a.conduit == c && a.purpose == p)).getLast?).map (·.msgseq)

/-- An ABORT of an outstanding SUBQUERY, or its withdrawal from the queue (R130). -/
def State.abortSub (s : State) (i : Nat) (y : SubQuery) : State :=
  let p : Purpose := .subquery i y.sub y.gen
  match s.conduit y.conduit with
  | none => s
  | some cd =>
    if cd.queue.any (fun m => m.purpose == p && m.seq.isNone) then
      s.modConduit y.conduit fun cd => { cd with queue := cd.queue.filter (fun m => !(m.purpose == p && m.seq.isNone)) }
    else match s.sentAs y.conduit p with
      | some q => s.send y.conduit 0x32 6 (le 4 q ++ zeros 4) .plain
      | none => s

/-- Every SUBQUERY of a stream aborted and its credit released (R130). -/
def State.abortSubs (s : State) (i : Nat) : State :=
  match s.stream i with
  | none => s
  | some x =>
    let s := x.subs.foldl (fun s y => s.abortSub i y) s
    s.modStream i fun x => { x with
      subs := [], subgens := x.subs.foldl (fun t y => tset t y.sub ((y.gen + 1) % 16)) x.subgens }

/-! ## Results and the end of a stream (R118-R120, R91) -/

/-- RESULT header (Table 6-4). -/
def resultHeader (tag status : Nat) (raw f32 batch : Bool) (nseq rows : Nat) : List Byte :=
  le 8 tag ++ le 1 status ++ le 1 ((if raw then 1 else 0) + (if f32 then 2 else 0) + (if batch then 4 else 0)) ++ le 2 nseq ++
    le 4 rows

/-- The body of a stream's result: normalised rows, or under RAW one partial block (R118, R119). -/
def Stream.body (x : Stream) (units : Nat) : List Byte :=
  let rs := (List.range x.rowCount).map x.recAt
  if x.raw then
    blockHeader x.handle 0 0 0 x.rowCount x.owidth (if rs.all Rec.isEmpty then stEMPTY else stOK) units ++ rs.flatMap Rec.bytes
  else rs.flatMap (fun r => r.normal x.outF32)

/-- The status of a result (R118). -/
def Stream.resultStatus (x : Stream) : Nat := if ((List.range x.rowCount).map x.recAt).all Rec.isEmpty then stEMPTY else stOK

/-- A stream context released: its epoch, its workspace, its hold on the region. -/
def State.releaseStream (s : State) (i : Nat) : State :=
  match s.stream i with
  | none => s
  | some x =>
    let s := s.dropPool x.workAt 80
    let s := x.items.foldl (fun s it => s.dropPool it.saveAt ((it.engine).getD 80)) s
    let s := match x.region with | some r => s.outflight r | none => s
    let s := s.onAe fun a => { a with
      streams := tdel a.streams i
      waiting := a.waiting.filter (fun y => y.1 != i)
      mergeQ := a.mergeQ.filter (fun m => m.stream != i)
      queues := (a.queues.map (fun q => (q.1, q.2.filter (fun y => y.1 != i)))).filter (fun q => !q.2.isEmpty) }
    let s := s.onWxp fun w => { w with reqs := w.reqs.filter (fun r => r.stream != i) }
    (s.onTier fun b => { b with faults := (b.faults.map fun f =>
        { f with waiters := f.waiters.filter (· != .item i) }) }).use x.part 22 1

/-- A result written into its REMOTE region by WRITE_IMM, or a RESULT message (Table 6-3). -/
def State.deliver (s : State) (conduit : Nat) (rkey roff imm : Nat) (region : Option Nat) (hdr body : List Byte) (p : Purpose) :
    State :=
  match region with
  | some r => if rkey = 0 then s.send conduit 0x05 1 (hdr ++ body) p else s.remoteWrite r roff (some imm) body 1 p
  | none => s.send conduit 0x05 1 (hdr ++ body) p

/-- The batch header's settings. -/
def Batch.nseq (b : Batch) : Nat := lat b.header 0 2 % 2 ^ 10
def Batch.raw (b : Batch) : Bool := lat b.header 15 1 / 4 % 2 == 1
def Batch.f32 (b : Batch) : Bool := lat b.header 9 1 / 128 == 1

/-- A batch whose last entry has ended is delivered (R91, R119). -/
def State.finishBatch (s : State) (b : Nat) : State :=
  match tfind s.ae.batches b with
  | none => s
  | some x =>
    if x.delivering || x.entries.any (fun e => e.status.isNone) then s else
    let qh := lat x.header 12 2
    let known := x.owidth != 0
    let bodies := x.entries.flatMap fun e =>
      if (e.status == some stOK || e.status == some stEMPTY) then e.body
      else if !known then []
      else if x.raw then blockHeader e.handle 0 0 0 0 x.owidth ((e.status).getD 0) 0
      else zeros (e.qcount * qh * x.owidth * (if x.f32 then 4 else 2))
    let n := x.entries.length
    let table := x.entries.map (fun e => BitVec.ofNat 8 ((e.status).getD 0)) ++ zeros (ceilDiv n 8 * 8 - n)
    let rows := if known then lat x.header 10 2 * qh else 0
    let hdr := resultHeader (lat x.header 56 8) stOK x.raw x.f32 true x.nseq rows
    let parent := x.entries.findSome? (fun e => if e.status == some stOK || e.status == some stEMPTY then e.stream else none)
    let s := s.onAe fun a => { a with batches := tmod a.batches b fun y => { y with delivering := true } }
    let purpose : Purpose := match parent with | some i => .result i | none => .plain
    let s := s.deliver x.conduit x.rkey (lat x.header 40 8) (lat x.header 48 4) x.region hdr (bodies ++ table) purpose
    match parent with
    | some _ => s
    | none =>
      let s := match x.region with | some r => s.outflight r | none => s
      (s.onAe fun a => { a with batches := tdel a.batches b }).endWrOf x.byWr stOK

/-- An entry of a batch ends. -/
def State.endEntry (s : State) (b k st : Nat) (body : List Byte) : State :=
  let s := s.onAe fun a => { a with batches := tmod a.batches b fun y =>
    { y with entries := (y.entries.zipIdx).map fun (e, j) => if j = k then { e with status := some st, body := body } else e } }
  s.finishBatch b

/-- The conduit of a lender's answer, to SENDTO (R122). -/
def State.answerOn (s : State) (x : Stream) (w : LenderWork) : Option Nat :=
  if w.sendto = w.node then some x.conduit else s.conduitTo w.sendto x.part

/-- A lender's answer without records: it lands without a credit, so it waits for no GRANT (R122, R124). -/
def State.answerFailed (s : State) (x : Stream) (w : LenderWork) (st : Nat) : State :=
  match s.answerOn x w with
  | none => s
  | some c => s.send c 0x04 2 (blockHeader x.handle w.hstream w.sub w.subgen 0 x.owidth st (w.nunits + w.memberUnits)) .plain

/-- A lender's answer: one PARTIAL to SENDTO (R122), held where it awaits its GRANT (R125); a failing one ends the stream. -/
def State.answerPartial (s : State) (i : Nat) (x : Stream) (w : LenderWork) (st : Nat) : State :=
  if st ≠ stOK ∧ st ≠ stEMPTY then (s.answerFailed x w st).releaseStream i else
  let rs := (List.range x.rowCount).map x.recAt
  let p := blockHeader x.handle w.hstream w.sub w.subgen x.rowCount x.owidth st (w.nunits + w.memberUnits) ++ rs.flatMap Rec.bytes
  match s.answerOn x w with
  | none => s.releaseStream i
  | some c =>
    let m := OutMsg.mk' 0x04 2 p (.partialOf i)
    (s.modStream i fun x => { x with cstate := .delivering }).enqueue c { m with hold := w.hold && !w.granted }

/-- A request whose stream ends without a result (R89, R111, R112, Table 6-3): a RESULT header with the status. -/
def State.failRequest (s : State) (conduit tag st : Nat) (raw f32 : Bool) : State :=
  s.send conduit 0x05 1 (resultHeader tag st raw f32 false 0 0) .plain

/-- The last item of an ending stream has stopped: it is released. -/
def State.stopped (s : State) (i : Nat) : State :=
  match s.stream i with
  | none => s
  | some x =>
    if x.cstate == .aborting && !x.items.any (fun it => it.istate == .running) then s.releaseStream i else s

/-- Parked and queued items are dropped, and their save areas freed (R112). -/
def State.dropItems (s : State) (i : Nat) : State :=
  match s.stream i with
  | none => s
  | some x =>
    let s := x.items.foldl (fun s it => s.dropPool it.saveAt ((it.engine).getD 80)) s
    s.modStream i fun x => { x with
      items := x.items.map fun it => if it.istate == .running then { it with saveAt := none } else { it with istate := .done, saveAt := none } }

/-- A stream ends with a status other than OK or EMPTY (R109, R111, R112, R157). -/
def State.endStream (s : State) (i st : Nat) : State :=
  match s.stream i with
  | none => s
  | some x =>
    if x.cstate == .aborting || x.cstate == .delivering then s else
    let s := s.abortSubs i
    let s := match x.lender with
      | some w => if st = stABORTED then s else s.answerFailed x w st
      | none => s
    let s := s.dropItems i
    let s := s.modStream i fun x => { x with cstate := .aborting, status := st, taken := x.scanned.length }
    let s := s.onAe fun a => { a with
      waiting := a.waiting.filter (fun y => y.1 != i)
      mergeQ := a.mergeQ.filter (fun m => m.stream != i)
      queues := (a.queues.map (fun q => (q.1, q.2.filter (fun y => y.1 != i)))).filter (fun q => !q.2.isEmpty) }
    let s := match x.lender, x.batch with
      | some _, _ => s
      | none, some b => s.endEntry b x.entry st []
      | none, none => (s.failRequest x.conduit x.tag st x.raw x.outF32).endWrOf x.byWr st
    s.stopped i

/-- Nothing of the window is outstanding (PENDING, Table 5-6). -/
def State.settled (s : State) (i : Nat) (x : Stream) : Bool :=
  x.items.all (fun it => it.istate == .done) && x.subs.isEmpty && !s.ae.mergeQ.any (fun m => m.stream == i) &&
  (match x.lender with | some w => w.groupIn == w.answered | none => true)

/-- The collector (R118): the last piece is merged and no window is left. -/
def State.collect (s : State) (i : Nat) : State :=
  match s.stream i with
  | none => s
  | some x =>
    if x.cstate == .aborting || x.cstate == .delivering || x.items.isEmpty || x.taken != x.scanned.length || !s.settled i x then s else
    let st := x.resultStatus
    let nu := x.taken
    let body := x.body nu
    match x.lender, x.batch with
    | some w, _ => s.answerPartial i x w (match w.failed with | some f => f | none => st)
    | none, some b =>
      (s.modStream i fun x => { x with cstate := .delivering }).endEntry b x.entry st body
    | none, none =>
      let s := s.modStream i fun x => { x with cstate := .delivering, status := st }
      let asMsg := x.rkey = 0 ∨ st ≠ stOK
      if asMsg then
        let hdr := resultHeader x.tag st x.raw x.outF32 false 0 (if x.rkey = 0 then x.rowCount else 0)
        s.send x.conduit 0x05 1 (hdr ++ (if x.rkey = 0 then body else [])) (.result i)
      else s.deliver x.conduit x.rkey x.roff x.imm x.region [] body (.result i)

/-! ## Waking (R107, R180) -/

/-- Deferred units that can be read now, in the streams that `only` names, take the location `at_` gives; parked items wake. -/
def State.wakeUnits (s : State) (only : Nat → Stream → Bool) (at_ : Stream → PageUnit → Option Loc) : State :=
  let land := fun (x : Stream) (u : PageUnit) => if u.kind == .deferred then
    (match at_ x u with | some l => { u with kind := .landed, loc := l } | none => u) else u
  s.ae.streams.foldl (fun s p =>
    if !only p.1 p.2 || p.2.cstate == .aborting then s else
    (p.2.items.zipIdx).foldl (fun s (it, k) =>
      if it.units.any (fun u => u.kind == .deferred && (at_ p.2 u).isSome) then
        let s := s.modItem p.1 k fun it => { it with units := it.units.map (land p.2), stalled := false }
        if it.istate == .parked then
          (s.modItem p.1 k fun it => { it with istate := .waiting, resumed := true, engine := none }).lineUp p.1 k
        else s
      else s) s) s

/-- The units of a page in every stream that waits on it take a location that can be read. -/
def State.wakePage (s : State) (d : Nat) (loc : Loc) (only : Nat → Bool) : State :=
  s.wakeUnits (fun i x => only i && x.lender.isNone) (fun _ u => if u.desc == d then some loc else none)

/-- A restored page lies elsewhere (R188): streams that captured its old frame and have not read it find it there (R105). -/
def State.relocate (s : State) (d : Nat) (old new : Loc) : State :=
  let move := fun (u : PageUnit) => if u.desc == d && u.kind == .local_ && u.loc == old then { u with loc := new } else u
  s.onAe fun a => { a with streams := a.streams.map fun p =>
    if p.2.lender.isSome then p else
    (p.1, { p.2 with scanned := p.2.scanned.map move, items := p.2.items.map fun it => { it with units := it.units.map move } }) }

/-- A page that cannot be restored (R48): every stream that waits on it ends POISONED. -/
def State.failStreams (s : State) (d : Nat) : State :=
  s.ae.streams.foldl (fun s p =>
    if p.2.lender.isNone && p.2.items.any (fun it => it.istate != .done && it.units.any (fun u => u.desc == d && u.kind == .deferred))
    then s.endStream p.1 stPOISONED else s) s

end Sys2Proof.Machine
end

