-- ==== Sys2Proof/Machine/Query.lean ====
section
/-! DEFINITION. Admission of QUERY, BATCH_QUERY and SUBQUERY (R87-R91, R99, R122). -/

namespace Sys2Proof.Machine

/-! ## Shapes (R41, Table 2-3, Table 5-3) -/

/-- Format codes permitted for keys, values and latents, and for queries and rotary parts (Table 2-3). -/
def dataFmt (c : Nat) : Bool := 1 ≤ c && c ≤ 5
def plainFmt (c : Nat) : Bool := 1 ≤ c && c ≤ 3

/-- A width suits a format: a multiple of 32 for M8 and M4. -/
def widthFits (c w : Nat) : Bool := c != 4 && c != 5 || w % 32 == 0

/-- The class definition is accepted (R41). -/
def classDefOk (d0 groups : Nat) : Bool :=
  frameCode d0 ≤ 5 && contentSize d0 ≤ frameUnits (frameCode d0) * 2048 && dataFmt (fmtA d0) &&
  widthFits (fmtA d0) (widthA d0) && widthFits (fmtB d0) (widthB d0) && 1 ≤ widthA d0 &&
  (if latent d0 then
    widthA d0 ≤ 1024 && widthB d0 ≤ 128 && groups == 1 &&
    (if widthB d0 = 0 then fmtB d0 == fmtA d0 else plainFmt (fmtB d0))
  else widthA d0 ≤ 256 && widthB d0 == widthA d0 && dataFmt (fmtB d0))

def qAmode (p : List Byte) : Nat := lat p 9 1 % 4
def qSmode (p : List Byte) : Nat := lat p 9 1 / 4 % 4
def qMask (p : List Byte) : Nat := lat p 9 1 / 16 % 4
def qF32 (p : List Byte) : Bool := lat p 9 1 / 128 == 1
def qRaw (p : List Byte) : Bool := lat p 15 1 / 4 % 2 == 1
def qBias (p : List Byte) : Bool := lat p 15 1 / 2 % 2 == 1
def qImg (p : List Byte) : Nat := lat p 14 1 / 16 % 8
def qTag (p : List Byte) : Nat := lat p 56 8
def qRkey (p : List Byte) : Nat := lat p 36 4

def posFinite (w : W32) : Bool := fIsFinite w && fLt 0 w

/-- Step 1 of R89 fails; `batch`: the header of a BATCH_QUERY (R90). -/
def headerBad (p : List Byte) (batch : Bool) : Bool :=
  let w := fun off => BitVec.ofNat 32 (lat p off 4)
  p.length < 64 || qAmode p == 3 || qSmode p == 3 || 128 ≤ lat p 14 1 || 128 ≤ lat p 15 1 || 2 ^ 25 ≤ lat p 20 4 ||
  lat p 52 4 != 0 ||
  (if batch then lat p 0 8 == 0 || 512 < lat p 0 8 || lat p 10 2 == 0 || 4096 < lat p 10 2 || lat p 16 4 != 0
   else lat p 10 2 == 0 || 256 < lat p 10 2 || 2 ^ 25 ≤ lat p 16 4) ||
  lat p 12 2 == 0 || 256 < lat p 12 2 || !plainFmt (lat p 14 1 % 16) || !posFinite (w 24) ||
  (if lat p 15 1 % 2 = 1 then !posFinite (w 28) else lat p 28 4 != 0) ||
  (qMask p == 1 && lat p 20 4 == 0) || ((qMask p == 0 || qMask p == 3) && lat p 20 4 != 0) ||
  (match qSmode p with
   | 0 => lat p 32 4 != 0
   | 1 => !(fLt 0 (w 32) && fLt (w 32) 0x3F800000)
   | _ => lat p 32 4 == 0)

/-- Row widths: query row and o row (Table 5-3). -/
def rowWidths (amode d0 : Nat) (img : ImgShape) : Nat × Nat :=
  match amode with
  | 0 => (widthA d0, widthB d0)
  | 1 => (widthA d0 + widthB d0, widthA d0)
  | _ => (img.kdim, img.vdim)

/-- The size a request has beside its tables. -/
def rowsSize (p : List Byte) (kw : Nat) : Nat :=
  (if qBias p then 4 * lat p 12 2 else 0) + lat p 10 2 * lat p 12 2 * codeBytes (lat p 14 1 % 16) kw

/-- Step 3 of R89 fails for a class; `extra` are the bytes between the header and the slope table. An image that is not
loaded gives no row width and no size. -/
def State.shapeBad (s : State) (p : List Byte) (part d0 groups extra : Nat) : Bool :=
  let m := part * 8 + qImg p
  let img := s.imgShape m
  let am := qAmode p
  let blind := am == 2 && !s.imgServes m
  (am == 0) == latent d0 || (am == 0 && lat p 12 2 % max 1 groups != 0) ||
  (!blind && ((am == 2 && (img.w != widthA d0 + widthB d0 || img.layers ≤ lat p 8 1 || img.heads < lat p 12 2)) || p.length != 64 + extra + rowsSize p (rowWidths am d0 img).1))

/-- Position limit of Table 5-4. -/
def posOk (mask qpos qcount maskarg l : Nat) : Bool :=
  mask == 3 || (decide (qpos + qcount ≤ l) && (mask != 2 || decide (maskarg ≤ l)))

/-- Bytes of the result of n rows (R118, R119). -/
def resultBytes (raw f32 : Bool) (n ow : Nat) : Nat := if raw then 32 + n * (8 + 4 * ow) else n * ow * (if f32 then 4 else 2)

/-- Step 5 of R89: the status, and the region. -/
def State.resultKey (s : State) (part rkey roff bytes : Nat) : Nat × Option Nat :=
  if rkey = 0 then (stOK, none) else
  let (st, i) := s.keyCheck rkey part none true .writeImm
  if st ≠ stOK then (st, none) else if (s.region i).holds roff bytes then (stOK, some i) else (stBOUNDS, none)

/-- Stream contexts in use or promised to entries of admitted batches; of a partition where one is given. -/
def State.contexts (s : State) (part : Option Nat) : Nat :=
  (s.ae.streams.filter (fun x => part.all (· == x.2.part))).length +
  (s.ae.batches.filter (fun b => part.all (· == b.2.part))).foldl
    (fun n b => n + (b.2.entries.filter (fun e => e.status.isNone && e.stream.isNone)).length) 0

/-- Step 6 of R89 passes for n streams. -/
def State.contextRoom (s : State) (part n : Nat) : Bool :=
  s.flag Fd.AE_GCTL_ENABLE && s.contexts none + n ≤ 65536 && s.contexts (some part) + n ≤ s.fd (Fd.AE_PART_STREAMS_MAX part)

/-! ## Admitted streams (R99, R101, R137, R182) -/

def fW (p : List Byte) (off : Nat) : W32 := BitVec.ofNat 32 (lat p off 4)

/-- A stream of a request header; `slopesAt` and `rowsAt` are where its tables begin. -/
def State.mkStream (s : State) (p : List Byte) (k handle part conduit msgseq llen d0 d1 qpos qcount slopesAt rowsAt : Nat) : Stream where
  seq := k
  handle := handle
  tag := qTag p
  epoch := s.pgt.epoch
  llen := llen
  qcount := qcount
  qheads := lat p 12 2
  layer := lat p 8 1
  byte9 := lat p 9 1
  byte14 := lat p 14 1
  byte15 := lat p 15 1
  cstate := .dispatch
  part := part
  qpos := qpos
  maskarg := lat p 20 4
  scale := fW p 24
  capval := fW p 28
  selparam := fW p 32
  rkey := qRkey p
  roff := lat p 40 8
  imm := lat p 48 4
  conduit := conduit
  msgseq := msgseq
  deadline := s.usec + 1000 * max 1 (s.fd Fd.AE_TIMEOUT_MS)
  batch := none
  entry := 0
  def0 := d0
  def1 := d1
  smode := if qAmode p = 2 || !s.flag Fd.AE_SEL_CTL_ENABLE then 0 else qSmode p
  keyWidth := (rowWidths (qAmode p) d0 (s.imgShape (part * 8 + qImg p))).1
  owidth := (rowWidths (qAmode p) d0 (s.imgShape (part * 8 + qImg p))).2
  slopes := if qBias p then (List.range (lat p 12 2)).map (fun i => fW p (slopesAt + 4 * i)) else []
  rows :=
    let rb := codeBytes (lat p 14 1 % 16) (rowWidths (qAmode p) d0 (s.imgShape (part * 8 + qImg p))).1
    cut rb (qcount * lat p 12 2) (slice p rowsAt (qcount * lat p 12 2 * rb))
  slices := []
  workAt := none
  scanned := []
  taken := 0
  units := []
  items := []
  recs := []
  subs := []
  subgens := []
  gen := 0
  lender := none
  byWr := none
  region := none
  status := 0

/-- Promotions of the FLASH pages of the next layers (R182). -/
def State.prefetchLayers (s : State) (k layer : Nat) : State :=
  match s.seq k with
  | none => s
  | some q =>
    (List.range (s.fd Fd.TIER_CTL_PREFETCH_LAYERS)).foldl (fun s j =>
      let l := layer + 1 + j
      if clsLayers q.def1 ≤ l then s else
      (q.pt.filter (fun e => keyLayer e.1 == l)).foldl (fun s e =>
        match s.desc e.2 with
        | none => s
        | some x =>
          if x.loc.tier == .flash && x.state == .sealed && !s.tier.leaps.any (fun p => p.desc == e.2) &&
              !s.tier.prefetch.any (fun p => p.desc == e.2) then
            s.onTier fun b => { b with prefetch := b.prefetch ++ [⟨e.2⟩] }
          else s) s) s

/-- A context for a stream, the device's choice among the free ones, and its workspace where there is room (R108). -/
def State.addStream (s : State) (x : Stream) : State × Option Nat :=
  match freeKey s.ae.streams 65536 (Config.pick s.free) with
  | none => (s, none)
  | some i =>
    let s := (s.onAe fun a => { a with streams := tset a.streams i x }).drawn
    ((s.inc Fd.AE_ADMITS_COUNT).placeStream i, some i)

/-- A stream on a sequence held here is admitted: its snapshot is taken (R350), HEAT rises (R166). -/
def State.startStream (s : State) (x : Stream) (asked : Nat) : State × Option Nat :=
  let us := s.scan x
  let s := match x.region with | some r => s.inflight r | none => s
  let s := s.heatUp us
  let s := s.modSeq x.seq fun q => { q with lastUse := s.usec }
  let s := if asked != 0 && x.smode = 0 then s.inc Fd.AE_SEL_AS_EXACT_COUNT else s
  (s.prefetchLayers x.seq x.layer).addStream { x with scanned := us }

/-! ## QUERY in its place (R89, R347) -/

/-- A posted request found no room: it is tried again (R291). -/
def State.retryLater (s : State) (wr : Nat) (p : List Byte) : State :=
  s.onRmo fun m => { m with wrs := m.wrs.map fun w => if w.id = wr then { w with retry := some (p, s.usec) } else w }

/-- A query rejected, or ended before it is admitted (Table 6-3). -/
def State.rejectQuery (s : State) (c : Nat) (p : List Byte) (byWr : Option Nat) (st : Nat) : State :=
  let s := if st = stBUSY then s.inc Fd.AE_BUSY_REJECTS_COUNT else s
  match byWr with
  | some w => if st = stBUSY then s.retryLater w p else (s.failRequest c (qTag p) st (qRaw p) (qF32 p)).endWrOf byWr st
  | none => s.failRequest c (qTag p) st (qRaw p) (qF32 p)

/-- A COLD sequence that a request names is thawed (R44). -/
def State.askThaw (s : State) (k : Nat) : State :=
  s.modSeq k fun q => if q.sstate == .cold then { q with thawing := true } else q

/-- A query's checks in its place, from step 2 on; unchanged where it waits. -/
def State.tryQuery (s : State) (op : SeqOp) : State :=
  let p := op.payload
  let h := lat p 0 8
  let part := s.partOf op.conduit
  let layer := lat p 8 1
  let stop := fun (st : Nat) => (s.rejectQuery op.conduit p op.byWr st).endOp op.id
  match s.seq op.seq with
  | none => stop stBOUNDS
  | some q =>
    if !s.handleOk h part op.seq || clsLayers q.def1 ≤ layer then stop stBOUNDS
    else if q.sstate == .cold then s.askThaw op.seq
    else if s.shapeBad p part q.def0 (clsGroups q.def1) 0 then stop stFORMAT
    else
      let l := q.len layer
      let ahead := (appliedEnd (opsBefore s.pgt.ops op) layer).getD l
      let ok := posOk (qMask p) (lat p 16 4) (lat p 10 2) (lat p 20 4)
      let img := part * 8 + qImg p
      if (qAmode p = 2 && !s.imgServes img) || 16777216 < lat p 16 4 + lat p 10 2 || !ok (max l ahead) then stop stBOUNDS
      else if !ok l then s
      else
        let ow := (rowWidths (qAmode p) q.def0 (s.imgShape img)).2
        let (st, r) := s.resultKey part (qRkey p) (lat p 40 8) (resultBytes (qRaw p) (qF32 p) (lat p 10 2 * lat p 12 2) ow)
        if st ≠ stOK then stop st
        else if !s.contextRoom part 1 then stop stBUSY
        else
          let x := s.mkStream p op.seq h part op.conduit op.msgseq l q.def0 q.def1 (lat p 16 4) (lat p 10 2) 64
            (64 + (if qBias p then 4 * lat p 12 2 else 0))
          let (s, _) := (s.endOp op.id).startStream { x with region := r, byWr := op.byWr } (qSmode p)
          s

/-! ## BATCH_QUERY (R90, R91) -/

def batchN (p : List Byte) : Nat := lat p 0 2 % 2 ^ 10
def batchTable (p : List Byte) : Nat := 64 + (if qBias p then 4 * lat p 12 2 else 0)
def batchEntryAt (p : List Byte) (i : Nat) : List Byte := slice p (batchTable p + 16 * i) 16

/-- A failing BATCH_QUERY (Table 6-3). -/
def State.rejectBatch (s : State) (c : Nat) (p : List Byte) (byWr : Option Nat) (st : Nat) : State :=
  let s := if st = stBUSY then s.inc Fd.AE_BUSY_REJECTS_COUNT else s
  match byWr, decide (st = stBUSY) with
  | some w, true => s.retryLater w p
  | _, _ => (s.send c 0x05 1 (resultHeader (qTag p) st (qRaw p) (qF32 p) true (lat p 0 2 % 2 ^ 10) 0) .plain).endWrOf byWr st

/-- An entry of the table: reserved bits and its count are well formed. -/
def entryOk (e : List Byte) : Bool := lat e 8 4 < 2 ^ 25 && lat e 14 2 == 0 && 1 ≤ lat e 12 2 && lat e 12 2 ≤ 256

/-- What R90 and step 2 of R89 say of an entry: a status, or waiting, with the sequence where it is here. -/
def State.entryRoute (s : State) (part layer : Nat) (e : List Byte) : Option Nat × Option Nat :=
  let h := lat e 0 8
  match s.route h with
  | .here k => if s.handleOk h part k && (match s.seq k with | some q => decide (layer < clsLayers q.def1) | none => false)
      then (none, some k) else (some stBOUNDS, none)
  | .bounds => (some stBOUNDS, none)
  | .hold => (none, none)
  | .forward _ => (some stSTALEMAP, none)
  | .stale _ _ _ => (some stSTALEMAP, none)

/-- An admitted BATCH_QUERY ends before its delivery: its streams and its entries that wait end with it. -/
def State.endBatch (s : State) (b st : Nat) : State :=
  match tfind s.ae.batches b with
  | none => s
  | some x =>
    let ids := (s.ae.streams.filter (fun y => y.2.batch == some b)).map Prod.fst
    let s := ids.foldl (fun s i => (s.abortSubs i).modStream i fun y => { y with batch := none }) s
    let s := s.onPgt fun p => { p with ops := p.ops.filter (fun o => match o.kind with | .entry k => k / 1024 != b | _ => true) }
    let s := s.onCust fun u => { u with held := u.held.filter (fun h => h.op != 0x102 || lat h.payload 0 4 / 1024 != b) }
    let s := ids.foldl (fun s i =>
      let s := (s.dropItems i).modStream i fun y => { y with cstate := .aborting, status := st, taken := y.scanned.length }
      let s := s.onAe fun a => { a with
        waiting := a.waiting.filter (fun y => y.1 != i), mergeQ := a.mergeQ.filter (fun m => m.stream != i)
        queues := (a.queues.map (fun q => (q.1, q.2.filter (fun y => y.1 != i)))).filter (fun q => !q.2.isEmpty) }
      s.stopped i) s
    let s := match x.region with | some r => s.outflight r | none => s
    let s := s.onAe fun a => { a with batches := tdel a.batches b }
    (s.send x.conduit 0x05 1 (resultHeader (lat x.header 56 8) st x.raw x.f32 true x.nseq 0) .plain).endWrOf x.byWr st

/-- Bytes of a batch's result body, its class known or not (R91, R119). -/
def batchBytes (p : List Byte) (counts : List Nat) (ow : Option Nat) : Nat :=
  ceilDiv counts.length 8 * 8 + (match ow with
    | none => 0
    | some w => (counts.map (fun n => resultBytes (qRaw p) (qF32 p) (n * lat p 12 2) w)).foldl (· + ·) 0)

/-- The o width of a batch's rows for a class. -/
def State.batchWidth (s : State) (p : List Byte) (part def0 : Nat) : Nat :=
  (rowWidths (qAmode p) def0 (s.imgShape (part * 8 + qImg p))).2

/-- What the batch as a whole still has to pass when the class of its first passing entry becomes known, or a further entry's is
(R90, R91): a class that differs and a size that does not fit are FORMAT, a region too small is BOUNDS. -/
def State.batchClass (s : State) (x : Batch) (cls : Nat × Nat) : Nat :=
  let all := x.header ++ x.rest
  match x.cls with
  | some c => if c = cls then stOK else stFORMAT
  | none =>
    if s.shapeBad all x.part cls.1 (clsGroups cls.2) (16 * batchN all) then stFORMAT else
    let bytes := batchBytes all (x.entries.map (·.qcount)) (some (s.batchWidth all x.part cls.1))
    match x.region with
    | some r => if (s.region r).holds (lat all 40 8) bytes then stOK else stBOUNDS
    | none => stOK

/-- A BATCH_QUERY arrives: checked as a whole, then every entry takes its place (R90, R91). -/
def State.recvBatch (s : State) (c q : Nat) (p : List Byte) (byWr : Option Nat) : State :=
  let part := s.partOf c
  let stop := fun st => s.rejectBatch c p byWr st
  if headerBad p true then stop stFORMAT else
  let n := batchN p
  let es := (List.range n).map (batchEntryAt p)
  if es.any (fun e => !entryOk e) || es.foldl (fun t e => t + lat e 12 2) 0 != lat p 10 2 then stop stFORMAT else
  let rs := es.map (s.entryRoute part (lat p 8 1))
  let ks := rs.filterMap (fun r => r.2.bind s.seq)
  let cls := (ks.head?).map (fun q => (q.def0, q.def1))
  if ks.any (fun y => cls != some (y.def0, y.def1)) then stop stFORMAT else
  if (match cls with | some d => s.shapeBad p part d.1 (clsGroups d.2) (16 * n) | none => false) then stop stFORMAT else
  let ow := cls.map fun d => s.batchWidth p part d.1
  let bytes := batchBytes p (es.map (fun e => lat e 12 2)) ow
  let (st, r) := s.resultKey part (qRkey p) (lat p 40 8) bytes
  if st ≠ stOK then stop st else
  if !s.contextRoom part n then stop stBUSY else
  let s := match r with | some r => s.inflight r | none => s
  let b := s.ae.nextBatch
  let entries := (es.zip rs).map fun ((e, r) : List Byte × Option Nat × Option Nat) =>
    (⟨lat e 0 8, lat e 8 4, lat e 12 2, none, r.1, []⟩ : BatchEntry)
  let s := s.onAe fun a => { a with
    batches := tset a.batches b ⟨c, q, part, p.take 64, p.drop 64, cls, ow.getD 0, entries, qRkey p, r, byWr, false⟩, nextBatch := b + 1 }
  let s := (rs.zipIdx).foldl (fun s y =>
    match y.1 with
    | (none, some k) => (s.confirm k).takePlace k (.entry (b * 1024 + y.2)) c q [] none
    | (none, none) => s.onCust fun u => { u with held := u.held ++ [⟨c, q, 0x102, le 4 (b * 1024 + y.2), lat ((es[y.2]?).getD []) 0 8, s.usec, none⟩] }
    | _ => s) s
  s.finishBatch b

/-- An entry in its place: step 4 of R89, then its stream (R91). -/
def State.tryEntry (s : State) (op : SeqOp) (n : Nat) : State :=
  let b := n / 1024
  let i := n % 1024
  let stop := fun (st : Nat) => (s.endOp op.id).endEntry b i st []
  match tfind s.ae.batches b, s.seq op.seq with
  | some x, some q =>
    match x.entries[i]? with
    | none => s.endOp op.id
    | some e =>
      let p := x.header
      let layer := lat p 8 1
      if !s.handleOk e.handle x.part op.seq || clsLayers q.def1 ≤ layer then stop stBOUNDS
      else if q.sstate == .cold then s.askThaw op.seq
      else if s.batchClass x (q.def0, q.def1) ≠ stOK then s.endBatch b (s.batchClass x (q.def0, q.def1))
      else
        let s := s.onAe fun a => { a with batches := tmod a.batches b fun z =>
          { z with cls := some (q.def0, q.def1), owidth := s.batchWidth p x.part q.def0 } }
        let l := q.len layer
        let ahead := (appliedEnd (opsBefore s.pgt.ops op) layer).getD l
        let ok := posOk (qMask p) e.qpos e.qcount (lat p 20 4)
        if (qAmode p = 2 && !s.imgServes (x.part * 8 + qImg p)) || 16777216 < e.qpos + e.qcount || !ok (max l ahead) then stop stBOUNDS
        else if !ok l then s
        else
          let all := p ++ x.rest
          let before := (x.entries.take i).foldl (fun t y => t + y.qcount) 0
          let kw := (rowWidths (qAmode p) q.def0 (s.imgShape (x.part * 8 + qImg p))).1
          let rowsAt := batchTable p + 16 * batchN p + before * lat p 12 2 * codeBytes (lat p 14 1 % 16) kw
          let y := s.mkStream all op.seq e.handle x.part x.conduit x.msgseq l q.def0 q.def1 e.qpos e.qcount 64 rowsAt
          let (s, j) := (s.endOp op.id).startStream { y with batch := some b, entry := i, rkey := 0, roff := 0, imm := 0 } (qSmode p)
          s.onAe fun a => { a with batches := tmod a.batches b fun z =>
            { z with entries := (z.entries.zipIdx).map fun (e, k) => if k = i then { e with stream := j } else e } }
  | _, _ => s.endOp op.id

/-! ## SUBQUERY at a lender (R122) -/

/-- The extent lent to a node and partition that a frame of n units lies in, ACTIVE or RECALLING. -/
def State.lentAt (s : State) (node part frame n : Nat) : Option Nat :=
  (s.tier.lent.find? (fun e => (e.2.estate == .active || e.2.estate == .recalling) && e.2.node == node && e.2.part == part &&
    decide (e.2.base ≤ frame * 2048) && decide ((frame + n) * 2048 ≤ e.2.base + 2 ^ 30))).map Prod.fst

/-- A failing answer to a SUBQUERY. -/
def State.refuseSub (s : State) (c node : Nat) (p : List Byte) (st : Nat) (sendto : Nat) : State :=
  let b := le 8 (lat p 0 8) ++ le 4 (lat p 64 4) ++ zeros 8 ++ le 2 0 ++ le 1 st ++ le 1 6 ++ zeros 8
  let s := if st = stBUSY then s.inc Fd.AE_BUSY_REJECTS_COUNT else s
  match if sendto = node then some c else s.conduitTo sendto (s.partOf c) with
  | none => s
  | some c => s.send c 0x04 2 b .plain

/-- A SUBQUERY is admitted or refused (R122, R126): a GROUPIN above 15, or one without RELAY, is FORMAT, and a relay that cannot
reserve its landing areas answers BUSY (notes/assumptions/112.md). -/
def State.recvSub (s : State) (c q : Nat) (p : List Byte) : State :=
  let part := s.partOf c
  let node := s.peerOf c
  let d0 := lat p 88 8 % 2 ^ 42
  let groups := bits (lat p 88 8) 47 42 + 1
  let via := lat p 76 1 / 4 % 2 == 1
  let relay := lat p 76 1 / 2 % 2 == 1
  let sendto := lat p 80 4 % 2 ^ 20
  let nunits := lat p 72 4 % 2 ^ 26
  let sendOk := if via then sendto != s.node else sendto == node
  let kw := (rowWidths (qAmode p) d0 (s.imgShape 0)).1
  let slopes := if qBias p then 4 * lat p 12 2 else 0
  let unitsAt := 96 + slopes
  let rowsAt := unitsAt + 16 * nunits
  let units : List PageUnit := (List.range nunits).map fun i =>
    let u := slice p (unitsAt + 16 * i) 16
    ⟨⟨.hbm, 0, lat u 0 8 % 2 ^ 40⟩, lat u 8 4, lat u 12 4 % 2 ^ 20, bits (lat u 12 4) 25 20, .local_, 16, false, []⟩
  let badExt := 2 ^ 25 ≤ lat p 68 4 || 2 ^ 26 ≤ lat p 72 4 || 8 ≤ lat p 76 1 || 16 ≤ lat p 77 1 || lat p 78 2 != 0 ||
    2 ^ 20 ≤ lat p 80 4 || lat p 84 4 != 0 || 2 ^ 48 ≤ lat p 88 8 || (!relay && lat p 77 1 != 0)
  let n := frameUnits (frameCode d0)
  let inLent := units.all (fun u => (s.lentAt node part u.loc.frame n).isSome)
  let shape := (qAmode p == 0) == latent d0 || qAmode p == 2 || (qAmode p == 0 && lat p 12 2 % groups != 0)
  let st :=
    if headerBad p false || p.length < 96 then stFORMAT
    else if !sendOk || !inLent then stBOUNDS
    else if badExt || nunits = 0 || !classDefOk d0 groups || shape || p.length != 96 + 16 * nunits + rowsSize p kw then stFORMAT
    else if !s.contextRoom part 1 then stBUSY
    else stOK
  let groupIn := if relay then lat p 77 1 else 0
  let st := if st = stOK ∧ (max 1 (s.fd Fd.MRG_CTL_STREAM_CREDITS) < groupIn ∨ s.fd Fd.MRG_CREDIT_POOL_MAX < s.creditsUsed + groupIn)
    then stBUSY else st
  if st ≠ stOK then s.refuseSub c node p st (if sendOk then sendto else node) else
  let x := s.mkStream p (2 ^ 30) (lat p 0 8) part c q (lat p 68 4) d0 ((groups - 1) + 255 * 256) (lat p 16 4) (lat p 10 2) 96 rowsAt
  let w : LenderWork := ⟨node, lat p 64 4 % 2 ^ 16, bits (lat p 64 4) 27 16, bits (lat p 64 4) 31 28, sendto,
    lat p 76 1 % 2 == 1, false, relay, groupIn, 0, 0, none, nunits⟩
  (s.addStream { x with
    smode := 0, rkey := 0, lender := some w
    scanned := units.map fun u => { u with slots := min 16 (lat p 68 4 - 16 * u.page) } }).1

end Sys2Proof.Machine
end

