-- ==== Sys2Proof/Machine/Channel.lean ====
section
/-! DEFINITION. Errors of the channels as they are counted, and the pages they poison (R47, R48, R195, R196). -/

namespace Sys2Proof.Machine

/-! ## Poisoned pages (R47, R48) -/

/-- A page that has no copy left: every stream and operation that waits on it ends POISONED (R48). -/
def State.lostPage (s : State) (d : Nat) : State :=
  let ids := (s.pgt.copies.filter (fun c => c.src == d)).map (·.op)
  let s := (s.pgt.ops.filter (fun o => ids.contains o.id)).foldl (fun s op => s.abortOp op stPOISONED) s
  s.failStreams d

/-- A page becomes POISONED; where no copy is left to restore it from, it is lost. -/
def State.poisonPage (s : State) (d : Nat) : State :=
  let s := s.poison d
  match s.desc d with
  | some x => if x.lost then s.lostPage d else s
  | none => s

/-! ## Ranges of a channel, locks and accesses of the cores (R192, R211, R212) -/

/-- A channel range cut at 64 KiB, the piece that is contiguous in device addresses (R192): start and length of each. -/
def chPieces (a n : Nat) : List (Nat × Nat) :=
  (List.range ((a % 65536 + n + 65535) / 65536)).map fun i =>
    let lo := max a ((a / 65536 + i) * 65536)
    (lo, min (a + n) ((a / 65536 + i + 1) * 65536) - lo)

/-- A LOCK range of some channel meets the bytes. -/
def State.lockedAt (s : State) (a n : Nat) : Bool :=
  s.hb.locks.any fun t => t.2.any fun e =>
    e.kind == .lock && (chPieces e.start e.len).any fun p => decide (devAddr t.1 p.1 < a + n) && decide (a < devAddr t.1 p.1 + p.2)

/-- An access of a core that ends without a fault, and its data. -/
def State.accessOk (s : State) (core v : Nat) : State :=
  { s with rdata := BitVec.ofNat 64 v, accessFault := s.accessFault.filter (· != core) }

/-- An access that returns zero and raises an access fault to its core. -/
def State.accessFail (s : State) (core : Nat) : State :=
  { s with rdata := 0, accessFault := core :: s.accessFault.filter (· != core) }

/-! ## Blocks (R195) -/

/-- The page whose frame in HBM holds a byte. -/
def State.pageAt (s : State) (a : Nat) : Option Nat :=
  (s.pgt.descs.find? (fun p => p.2.loc.tier == .hbm && p.2.state != .free && decide (p.2.loc.frame * 2048 ≤ a) &&
    decide (a < (p.2.loc.frame + frameUnits p.2.frameCode) * 2048))).map Prod.fst

/-- HBM_CH_ERRADDR of a block's channel. -/
def State.setErrAddr (s : State) (a flags : Nat) : State :=
  let ch := chanOf a
  s.setReg (Fd.HBM_CH_ERRADDR_ADDR (ch / 32) (ch % 32)).addr (2 ^ 63 + flags + chanAddr a % 2 ^ 31)

/-- A corrected block, counted and windowed, its symbol reported. -/
def State.hbmCe (s : State) (a sym : Nat) : State :=
  let ch := chanOf a
  let s := (s.inc (Fd.HBM_CH_CE_COUNT (ch / 32) (ch % 32))).setErrAddr a (sym * 2 ^ 31)
  (s.raise (Fd.HBM_ERR_CE (ch / 32))).countErr 0 ch 1

/-- An uncorrectable block, counted and windowed; the page it lies in becomes POISONED, unless a gecko job holds it, whose end
settles that (R213). -/
def State.hbmUe (s : State) (a : Nat) : State :=
  let ch := chanOf a
  let s := (s.inc (Fd.HBM_CH_UE_COUNT (ch / 32) (ch % 32))).setErrAddr a (2 ^ 62)
  let d := s.pageAt a
  let s := ((s.raise (Fd.HBM_ERR_UE (ch / 32))).countErr 1 ch 1).memoryEvent ch 0 (chanAddr a) (d.getD 0xFFFFFFFF) 0
  match d with
  | some d => s.poisonPage d
  | none => s

/-- A block's outcome counts. -/
def State.eccBlock (s : State) (a : Nat) (o : BlockEcc) : State :=
  match o with
  | .clean => s
  | .corrected sym => s.hbmCe a sym
  | .bad => s.hbmUe a

/-- The two blocks of a group, read with symbols in error. -/
def State.eccGroup (s : State) (errs : Errs) (g : Nat) : State :=
  let r := s.readGroup errs g
  (s.eccBlock g r.b0).eccBlock (g + 64) r.b1

/-- A read of a range: what its groups meet counts. -/
def State.eccRange (s : State) (errs : Errs) (a n : Nat) : State := (errGroups errs a n).foldl (fun s g => s.eccGroup errs g) s

/-- Groups written back as their reads returned them, where no block of them is uncorrectable (R196, R203). -/
def State.writeBack (s : State) (errs : Errs) (a n : Nat) : State :=
  (errGroups errs a n).foldl (fun s g => let r := s.readGroup errs g
    if r.isBad then s else s.hbmWrite g r.data) s

/-- A write of less than a group, a read-modify-write of it in one step (R196): a corrected error is fixed in the write. What
the read half meets is counted by `eccRange`. -/
def State.hbmRmw (s : State) (errs : Errs) (a : Nat) (l : List Byte) : State := (s.writeBack errs a l.length).hbmWrite a l

end Sys2Proof.Machine
end

