-- ==== Sys2Proof/Machine/Engine.lean ====
section
/-! DEFINITION. The engines at work: bound pass and compute pass, parking, restart, merging, answers of lenders, aborts
(chapters 5 to 7). -/

namespace Sys2Proof.Machine

/-! ## Digests (R52, R134, R135, R193) -/

/-- A free 2 MiB chunk of tier 2 that has a piece in the channel of index ch. -/
def State.chunkFor (s : State) (ch : Nat) : Option Nat :=
  let lo := s.tier2Base / 2048
  let hi := hbmBytes / 2048
  let used := s.tier.hbmUsed
  let up := fun x => ceilDiv x 1024 * 1024
  let free := fun a => lo ≤ a && a + 1024 ≤ hi && mapIdx (a * 2048) / 32 == ch / 32 &&
    used.all (fun p => p.1 + p.2 ≤ a || a + 1024 ≤ p.1)
  (up lo :: used.map (fun p => up (p.1 + p.2))).findSome? fun a => ((List.range 8).map (fun j => a + 1024 * j)).find? free

/-- A place for a digest of n 16-byte units in the channel of index ch, of some chunk. -/
def State.digestRoom (s : State) (ch n : Nat) : Option Nat :=
  s.tier.digestChunks.findSome? fun c =>
    if mapIdx (c * 2048) / 32 = ch / 32 then
      let lo := c * 128 + ch % 32 * 4096
      roomAt s.tier.digests lo (lo + 4096) n n 0
    else none

/-- A digest job for a page in HBM, within the hard quota of its partition; otherwise the page stays without (R135). -/
def State.queueDigest (s : State) (d : Nat) : State :=
  match s.desc d with
  | none => s
  | some x =>
    let bytes := digestBytes x.def0
    let a := x.loc.frame * 2048
    let ch := mapIdx a
    if x.loc.tier != .hbm || x.state == .tadpole || s.hb.jobs.any (fun j => match j.use with | .digest e _ _ => e == d | _ => false)
      then s else
    if !s.underHard x.part 1 bytes then s.hardBlock else
    let s := if (s.digestRoom ch (bytes / 16)).isSome then s else
      match s.chunkFor ch with
      | none => s
      | some c => s.onTier fun b => { b with hbmUsed := tset b.hbmUsed c 1024, digestChunks := c :: b.digestChunks }
    match s.digestRoom ch (bytes / 16) with
    | none => s
    | some g =>
      let s := (s.onTier fun b => { b with digests := tset b.digests g (bytes / 16) }).charge4 x.part 1 bytes
      s.queueJob ⟨chanOf a, 1, x.valid, chanAddr a + x.crc.toNat * 2 ^ 32,
        d + fmtA x.def0 * 2 ^ 32 + fmtB x.def0 * 2 ^ 36 + widthA x.def0 * 2 ^ 40 +
          (if latent x.def0 then widthB x.def0 * 2 ^ 51 + 2 ^ 60 else 0),
        chanAddr (g * 16), .digest d g x.part, [⟨chanAddr (g * 16), bytes, .win, 0⟩], none, none, s.pgt.epoch⟩

/-- A digest given back: its bytes and their charge. -/
def State.freeDigest (s : State) (g part : Nat) : State :=
  let n := (tfind s.tier.digests g).getD 0
  (s.onTier fun b => { b with digests := tdel b.digests g }).uncharge4 part 1 (n * 16)

/-- The digest the engine reads of a page. -/
def State.digestAt (s : State) (y : Desc) : List Byte := s.hbmRead (y.digest * 16) (digestBytes y.def0)

/-! ## The bound pass (R136-R139, R141) -/

/-- A unit whose digest the engine would read. -/
def State.hasDigest (s : State) (u : PageUnit) : Bool :=
  u.kind == .local_ && !u.tadpole && (match s.desc u.desc with | some y => y.digestValid && y.state != .poisoned | none => false)

/-- The digest of a page as a read of it returns it. -/
def State.digestRead (s : State) (errs : Errs) (y : Desc) : List Byte := s.hbmFetch errs (y.digest * 16) (digestBytes y.def0)

/-- The read of a page's digest meets an uncorrectable error. -/
def State.digestBad (s : State) (errs : Errs) (u : PageUnit) : Bool :=
  match s.desc u.desc with
  | some y => s.hasDigest u && !(s.badBlocks errs (y.digest * 16) (digestBytes y.def0)).isEmpty
  | none => false

/-- A unit is eligible for skipping (R138). -/
def State.selectable (s : State) (errs : Errs) (u : PageUnit) : Bool :=
  s.hasDigest u && !s.digestBad errs u &&
  (match s.desc u.desc with | some y => lat (s.digestRead errs y) 3 1 / 16 % 2 == 0 | none => false)

/-- A digest read fails (R138): the digest is released under R61, and a new one asked for; a page in PCACHE leaps down for it
(R179). -/
def State.digestUe (s : State) (d : Nat) : State :=
  match s.desc d with
  | none => s
  | some y =>
    if !y.digestValid then s else
    let s := (s.retireDigest y).modDesc d fun y => { y with digestValid := false }
    let s := if y.loc.tier = .pcache then s.onTier fun b => { b with due := b.due ++ [(d, .hbm)] } else s.queueDigest d
    s.inc Fd.AE_SEL_DIGEST_UE_COUNT

/-- The digest reads of a bound pass count what they meet (R195). -/
def State.digestReads (s : State) (errs : Errs) (us : List PageUnit) : State :=
  us.foldl (fun s u => match s.desc u.desc with
    | some y => if s.hasDigest u then s.eccRange errs (y.digest * 16) (digestBytes y.def0) else s
    | none => s) s

/-- The bounds of a unit for the rows of a tile that see it (R136, R139). -/
def Stream.unitBounds (x : Stream) (dig : List Byte) (rows : List Nat) (u : PageUnit) : Tbl W32 :=
  rows.filterMap fun r =>
    let vis := x.slotsFor u (x.rowPos r)
    if x.headGroup (x.rowHead r) != u.group || vis.isEmpty then none else some (r, x.bound dig r u vis)

/-- The key of a unit: the largest of its bounds (R139). -/
def boundKey (bounds : Tbl W32) : W32 :=
  (bounds.foldl (fun (b : Option W32) p => match b with
    | none => some p.2
    | some m => if keyOrd m < keyOrd p.2 then some p.2 else some m) none).getD fNegInf

/-- Descending key, ties in unit order. -/
def insertTodo (t : TodoUnit) : List TodoUnit → List TodoUnit
  | [] => [t]
  | y :: l => if keyOrd t.key ≤ keyOrd y.key then y :: insertTodo t l else t :: y :: l
def sortTodo (l : List TodoUnit) : List TodoUnit := l.foldl (fun acc t => insertTodo t acc) []

/-- Units of group g an item computes under TOPK (R141). -/
def State.topkOf (s : State) (errs : Errs) (x : Stream) (it : WorkItem) (g : Nat) : Nat :=
  let n := fun (us : List PageUnit) => (us.filter (fun u => u.group == g && s.selectable errs u)).length
  let all := ((x.items.filter (fun i => i.rerunOf.isNone)).map (fun i => n i.units)).foldl (· + ·) 0
  let ni := n it.units
  min ni (ceilDiv (x.selparam.toNat * ni) (max 1 all))

/-- Rank of an entry among the eligible ones of its group before it. -/
def rankOf (us : List PageUnit) (before : List TodoUnit) (g : Nat) : Nat :=
  (before.filter (fun t => ((us[t.ix]?).map (·.group)) == some g)).length

/-- The order of a tile's units (R105, R139). -/
def State.tileOrder (s : State) (errs : Errs) (x : Stream) (it : WorkItem) (rows : List Nat) : List TodoUnit :=
  let ix := it.units.zipIdx
  let plain := fun (p : PageUnit × Nat) => (⟨p.2, false, 0, true, []⟩ : TodoUnit)
  if !it.sel then ix.map plain else
  let elig := ix.filter (fun p => s.selectable errs p.1)
  let keyed := elig.map fun p =>
    let bounds := x.unitBounds (match s.desc p.1.desc with | some y => s.digestRead errs y | none => []) rows p.1
    (⟨p.2, true, boundKey bounds, true, bounds⟩ : TodoUnit)
  let sorted := sortTodo keyed
  let marked := if x.smode != 2 then sorted else (sorted.zipIdx).map fun (t, j) =>
    let g := ((it.units[t.ix]?).map (·.group)).getD 0
    { t with chosen := decide (rankOf it.units (sorted.take j) g < s.topkOf errs x it g) }
  (ix.filter (fun p => p.1.kind != .deferred && !s.selectable errs p.1)).map plain ++ marked ++
    (ix.filter (fun p => p.1.kind == .deferred)).map plain

/-- The weights of an expanded stream: their format and slices (R94). -/
def Stream.imgOf (x : Stream) (s : State) : ImgShape := s.imgShape (x.part * 8 + x.mimg)
def Stream.wbytes (x : Stream) (s : State) : Nat := (x.imgOf s).fmt.rowBytes 1

/-- A tile begins: accumulators, and the bound pass where the item selects. -/
def State.beginTile (s : State) (i k : Nat) (errs : Errs) : State :=
  match s.stream i, s.item i k with
  | some x, some it =>
    if it.todo.isSome then s else
    let rows := ((x.tiles (x.wbytes s) it)[it.tile]?).getD []
    let bad := if it.sel then (it.units.filter (s.digestBad errs)).map (·.desc) else []
    let todo := s.tileOrder errs x it rows
    let none_ := if it.sel then (todo.filter (fun t => !t.eligible)).length else 0
    let s := if it.sel then s.digestReads errs it.units else s
    let s := bad.foldl State.digestUe s
    let s := s.count Fd.AE_SEL_NODIGEST_COUNT none_
    s.modItem i k fun it => { it with todo := some todo, inBlock := 0, accs := rows.map (fun r => RowAcc.fresh r x.owidth) }
  | _, _ => s

/-! ## The compute pass (R105, R109, R140) -/

def State.setUnit (s : State) (i k ix : Nat) (f : PageUnit → PageUnit) : State :=
  s.modItem i k fun it => { it with units := (it.units.zipIdx).map fun (u, j) => if j = ix then f u else u }

/-- A unit is deferred until its page can be read: it comes last in the tile, and is computed then (R138, R139). -/
def State.deferUnit (s : State) (i k ix : Nat) : State :=
  (s.setUnit i k ix fun u => { u with kind := .deferred }).modItem i k fun it => { it with
    todo := it.todo.map fun l => l.filter (fun t => t.ix != ix) ++
      (l.filter (fun t => t.ix == ix)).map fun t => { t with eligible := false, bounds := [] } }

/-- Rows of a tile that see a unit. -/
def Stream.seesUnit (x : Stream) (u : PageUnit) (r : Nat) : Bool :=
  x.headGroup (x.rowHead r) == u.group && !(x.slotsFor u (x.rowPos r)).isEmpty

/-- Skipped masses after a skip, where the test of R140 holds for every row that sees the unit. -/
def Stream.skip (x : Stream) (t : TodoUnit) (u : PageUnit) (accs : List RowAcc) : Option (List RowAcc) :=
  accs.foldr (fun a r => r.bind fun l =>
    match tfind t.bounds a.row with
    | none => some (a :: l)
    | some b => (skipTest a b x.selparam (x.slotsFor u (x.rowPos a.row)).length).map fun sm => { a with skipped := sm } :: l)
    (some [])

/-- A live row of the tile, one that sees some unit of the item, has no weight yet (R141). -/
def Stream.needsUnit (x : Stream) (it : WorkItem) : Bool :=
  it.accs.any (fun a => !a.nan && !fLt 0 (fAdd a.lRun a.lBlk) && it.units.any (fun u => x.seesUnit u a.row))

/-- What the engine does with an eligible unit: skips it, with the rows' new skipped masses, or computes it. -/
def Stream.skips (x : Stream) (it : WorkItem) (t : TodoUnit) (u : PageUnit) : Option (List RowAcc) :=
  if !t.eligible then none
  else if x.smode = 2 then (if t.chosen || x.needsUnit it then none else some it.accs)
  else x.skip t u it.accs

/-- A unit added to every row of the tile. -/
def State.computeUnit (s : State) (i k e : Nat) (x : Stream) (u : PageUnit) (errs : Errs) : State :=
  let content := s.unitContent x u errs
  let img := x.imgOf s
  let add := fun (a : RowAcc) =>
    x.addPage a u content img.fmt (if x.expanded then sliceOf img x.slices x.layer (x.rowHead a.row) else [])
  (s.modItem i k fun it =>
    let accs := it.accs.map add
    if it.inBlock + 1 = 64 then { it with accs := accs.map RowAcc.fold, inBlock := 0 }
    else { it with accs := accs, inBlock := it.inBlock + 1 }).inc (Fd.AE_UNITS_COUNT e)

/-- The unit leaves the list of those to do. -/
def State.unitOff (s : State) (i k ix : Nat) : State :=
  s.modItem i k fun it => { it with todo := it.todo.map fun l => l.filter (fun t => t.ix != ix) }

/-- The page of a unit as the engine finds it: it may be read, or must wait. -/
inductive UnitFound where
  | read | defer | locked | lost
  deriving DecidableEq, Repr

/-- Where a unit's content lies in tier 2. -/
def Stream.unitAt (x : Stream) (u : PageUnit) : Nat × Nat := (u.loc.frame * 2048, contentSize x.def0)

def State.findUnit (s : State) (x : Stream) (u : PageUnit) : UnitFound :=
  if x.lender.isSome then (if s.lockedAt (x.unitAt u).1 (x.unitAt u).2 then .locked else .read) else
  match s.desc u.desc with
  | none => .read
  | some y =>
    if y.state == .poisoned then (if y.lost then .lost else .defer)
    else if y.state == .lockedBank && y.loc == u.loc then .locked
    else if u.loc.tier == .flash || u.loc.tier == .lent then .defer
    else .read

/-- What names the page an engine waits on while it is locked: its descriptor, or at a lender its frame. -/
def Stream.lockName (x : Stream) (u : PageUnit) : Nat := if x.lender.isSome then 2 ^ 33 + u.loc.frame else u.desc

/-- A unit read by engine e, its fetch finding `errs` (R109, R195). -/
def State.fetchUnit (s : State) (i k e : Nat) (x : Stream) (t : TodoUnit) (u : PageUnit) (errs : Errs) : State :=
  let r := x.unitAt u
  let hbm := u.loc.tier == .hbm
  let bad := hbm && !(s.badBlocks errs r.1 r.2).isEmpty
  let s := if bad then s else (s.computeUnit i k e x u errs).unitOff i k t.ix
  let s := if hbm then s.eccRange errs r.1 r.2 else s
  if !bad then s else
  let s := (s.raise (Fd.AE_ERR_FETCH_UE e)).engineEvent e 2 i (u.page + u.group * 2 ^ 20) x.handle x.tag
  let s := s.deferUnit i k t.ix
  if x.lender.isSome then s.endStream i stPOISONED else s.poisonPage u.desc

/-- One unit processed by engine e: an eligible one is skipped, its page not looked at, where it may be (R140, R146). -/
def State.doUnit (s : State) (i k e : Nat) (x : Stream) (it : WorkItem) (t : TodoUnit) (u : PageUnit) (errs : Errs) : State :=
  let s := if t.eligible && x.smode == 1 then s.inc Fd.AE_SEL_TESTED_COUNT else s
  match x.skips it t u with
  | some accs => ((s.modItem i k fun it => { it with accs := accs }).unitOff i k t.ix).inc Fd.AE_SEL_SKIPPED_COUNT
  | none =>
    match s.findUnit x u with
    | .lost => (s.deferUnit i k t.ix).endStream i stPOISONED
    | .defer => (s.deferUnit i k t.ix).deferFaults i [{ u with kind := .deferred }]
    | .locked => s.onAe fun a => { a with lockWait := tset a.lockWait e (x.lockName u, s.mtime) }
    | .read => s.fetchUnit i k e x t u errs

/-- The end of a tile (R113): its records go to the merge units, or are held for the comparison; then the next tile, or the
end of the item. -/
def State.endTile (s : State) (i k e : Nat) : State :=
  match s.stream i, s.item i k with
  | some x, some it =>
    let rs := it.accs.map RowAcc.record
    let nans := (rs.filter (fun r => fIsNaN r.m)).length
    let held := it.sampled
    let s := s.count (Fd.AE_NAN_COUNT_COUNT e) nans
    let s := if held || it.tile < it.emitted then s else
      s.onAe fun a => { a with mergeQ := a.mergeQ ++ rs.map (fun r => ⟨i, x.gen, r, none, false⟩) }
    let more := it.tile + 1 < (x.tiles (x.wbytes s) it).length
    let s := s.modItem i k fun it => { it with
      heldRecs := if held then it.heldRecs ++ rs else it.heldRecs
      emitted := max it.emitted (it.tile + 1), todo := none, accs := [], inBlock := 0, slicesIn := false, asked := false
      tile := it.tile + 1, istate := if more then .running else if held then .held else .done }
    if more then s else (s.engineFree e).collect i
  | _, _ => s

/-- A save area (R106): a header the spec does not lay out, then m, l and o of each row. -/
def State.saveArea (s : State) (accs : List RowAcc) : List Byte :=
  (List.range 4).flatMap (fun i => le 8 (Config.random (s.free + i)).toNat) ++ accs.flatMap (fun a => a.record.bytes)

/-- An item parks, or keeps its engine where no room is left (R106, R108). The save area holds one l and one o of a row, so the
block accumulators are added to the running ones (notes/assumptions/113.md); no skip test runs after it (R142). -/
def State.park (s : State) (i k e : Nat) (x : Stream) (it : WorkItem) : State :=
  match s.takePool (ceilDiv (x.saveBytes it.accs.length) 4096) with
  | none => if it.stalled then s else (s.modItem i k fun it => { it with stalled := true }).inc Fd.AE_PARK_STALLS_COUNT
  | some (a, s) =>
    let s := (s.poolWrite a (s.saveArea it.accs)).drawn
    let s := (s.modItem i k fun it => { it with
      istate := .parked, engine := none, saveAt := some a, stalled := false, slicesIn := false, asked := false, inBlock := 0
      accs := it.accs.map fun a => { a.fold with skipped := 0 } }).inc Fd.AE_PARKS_COUNT
    let s := s.modStream i fun x => if x.items.any (fun it => it.istate == .running) then x else { x with cstate := .parked }
    s.engineFree e

/-- A parking item is woken at once where its page has landed meanwhile; otherwise what comes next for the item. -/
def State.afterUnit (s : State) (i k e : Nat) : State :=
  match s.stream i, s.item i k with
  | some x, some it =>
    if x.cstate == .aborting then ((s.modItem i k fun it => { it with istate := .done }).engineFree e).stopped i
    else match it.todo with
      | none => s
      | some todo =>
        if todo.isEmpty then s.endTile i k e
        else if todo.all (fun t => ((it.units[t.ix]?).map (·.kind)) == some .deferred) then s.park i k e x it
        else s
  | _, _ => s

/-- An engine finishes a unit and takes the next, parks, or ends its tile or item (R85, R106, R113). -/
def State.unitEnd (s : State) (e : Nat) (errs : Errs) : State :=
  match tfind s.ae.running e with
  | none => s
  | some (i, k) =>
    match s.stream i, s.item i k with
    | some x, some it =>
      if x.cstate == .aborting then s.afterUnit i k e
      else if (tfind s.ae.lockWait e).isSome then s
      else if x.expanded && !it.slicesIn && !(x.tiles (x.wbytes s) it == [[]]) then s
      else
        let s := s.beginTile i k errs
        match s.item i k with
        | none => s
        | some it =>
          let todo := (it.todo).getD []
          match todo.find? (fun t => ((it.units[t.ix]?).map (·.kind)) != some .deferred) with
          | none => s.afterUnit i k e
          | some t =>
            match it.units[t.ix]? with
            | none => s.unitOff i k t.ix
            | some u => (s.doUnit i k e x it t u errs).afterUnit i k e
    | _, _ => s.engineFree e

/-! ## Restarts (R110, R117) -/

/-- The running item of an engine starts again elsewhere. -/
def State.abandonItem (s : State) (e : Nat) : State :=
  match tfind s.ae.running e with
  | none => s
  | some (i, k) =>
    let s := (s.engineTime e true).onAe fun a => { a with
      running := tdel a.running e, busySince := tdel a.busySince e, lockWait := tdel a.lockWait e }
    match s.stream i with
    | none => s
    | some x => if x.cstate == .aborting then (s.modItem i k fun it => { it with istate := .done }).stopped i else s.restartItem i k

/-- An engine that leaves service gives back the items waiting for it. -/
def State.evictEngine (s : State) (e : Nat) : State :=
  let q := s.engineQueue e
  let s := (s.abandonItem e).onAe fun a => { a with queues := tdel a.queues e }
  q.foldl (fun s y => (s.modItem y.1 y.2 fun it => { it with istate := .waiting, engine := none }).lineUp y.1 y.2) s

/-- A stream runs again from admission (R117). -/
def State.rerun (s : State) (i : Nat) : State :=
  match s.stream i with
  | none => s
  | some x =>
    let s := s.abortSubs i
    let s := s.dropPool x.workAt 80
    let s := x.items.foldl (fun s it => s.dropPool it.saveAt ((it.engine).getD 80)) s
    let es := (s.ae.running.filter (fun r => r.2.1 == i)).map Prod.fst
    let s := s.onAe fun a => { a with
      waiting := a.waiting.filter (fun y => y.1 != i)
      mergeQ := a.mergeQ.filter (fun m => m.stream != i)
      queues := (a.queues.map (fun q => (q.1, q.2.filter (fun y => y.1 != i)))).filter (fun q => !q.2.isEmpty) }
    let s := s.modStream i fun x => { x with
      cstate := .dispatch, workAt := none, taken := 0, units := [], items := [], recs := [], gen := x.gen + 1 }
    es.foldl State.engineFree s

/-! ## Merging (R115, R116) -/

/-- The merge unit of a row (R116, Table 6-10). -/
def State.mergeUnit (s : State) (i row : Nat) : Nat :=
  (((List.range 4).map (fun j => (row + i + j) % 4)).find? (fun u => !s.flag (Fd.MRG_UNIT_STATUS_QUARANTINED u))).getD ((row + i) % 4)

/-- The last record of a block has been merged. -/
def State.blockMerged (s : State) (m : MergeItem) : State :=
  match m.sub with
  | none => s
  | some k =>
    if s.ae.mergeQ.any (fun y => y.stream == m.stream && y.sub == some k && y.relay == m.relay) then s else
    let s := s.inc Fd.MRG_MERGES_COUNT
    if m.relay then s.modStream m.stream fun x => { x with lender := x.lender.map fun w => { w with answered := w.answered + 1 } }
    else s.endSub m.stream k

/-- Unit u merges the record that has waited longest for it. -/
def State.mergeOne (s : State) (u : Nat) : State :=
  match s.ae.mergeQ.find? (fun m => s.mergeUnit m.stream m.r.row == u) with
  | none => s
  | some m =>
    let s := s.onAe fun a => { a with mergeQ := eraseFirst (fun y => y == m) a.mergeQ }
    let s := s.modStream m.stream fun x =>
      if x.gen = m.gen then { x with recs := tset x.recs m.r.row (mergeRec (x.recAt m.r.row) m.r) } else x
    (s.blockMerged m).collect m.stream

/-! ## Answers of lenders (R123, R126, R127) -/

/-- A failed or lost SUBQUERY; a relay's costs its whole run (R127). -/
def State.subFailed (s : State) (i : Nat) (y : SubQuery) : State :=
  match s.stream i with
  | none => s
  | some x =>
    let run := x.subs.filter (fun z => y.members.contains z.sub)
    let s := run.foldl (fun s z => s.abortSub i z) s
    let s := if y.members.isEmpty then s else
      (s.raise Fd.MRG_ERR_RELAY_LOST).engineEvent (0x80 + s.mergeUnit i 0) 4 i 0 x.handle x.tag
    let s := (y :: run).foldl (fun s z => s.endSub i z.sub) s
    let us := y.units ++ run.flatMap (·.units)
    let s := s.fallBack i us
    let s := us.foldl (fun s u => match s.desc u.desc with
      | some z => if z.lost && z.state == .poisoned then s.failStreams u.desc else s
      | none => s) s
    s.collect i

/-- A block is of the form R123 calls good, for a stream. -/
def blockGood (x : Stream) (p : List Byte) : Bool :=
  let st := lat p 22 1
  (st == stOK || st == stEMPTY) && lat p 12 4 == x.rowCount && lat p 16 4 == 0 && lat p 20 2 == x.owidth && lat p 23 1 == 6 &&
  p.length == 32 + x.rowCount * (8 + 4 * x.owidth)

/-- Records of a block queued at the merge units. -/
def State.queueBlock (s : State) (i : Nat) (x : Stream) (p : List Byte) (sub : Nat) (relay : Bool) : State :=
  s.onAe fun a => { a with mergeQ := a.mergeQ ++
    (recsOf x.rowCount x.owidth (p.drop 32)).map (fun r => ⟨i, x.gen, r, some sub, relay⟩) }

/-- An answer at the home node. -/
def State.homeAnswer (s : State) (i : Nat) (x : Stream) (y : SubQuery) (p : List Byte) : State :=
  if blockGood x p then
    let s := y.members.foldl (fun s k => s.endSub i k) s
    let s := s.modStream i fun x => { x with subs := x.subs.map fun z => if z.sub = y.sub then { z with landed := true } else z }
    if x.rowCount = 0 then (s.endSub i y.sub).collect i else s.queueBlock i x p y.sub false
  else s.subFailed i y

/-- A member's answer at its relay: one that is no good block under OK or EMPTY counts as FORMAT, and of several failures the
last stands (notes/assumptions/112.md). -/
def State.relayAnswer (s : State) (i : Nat) (x : Stream) (p : List Byte) : State :=
  if blockGood x p then
    (s.modStream i fun x => { x with lender := x.lender.map fun w => { w with memberUnits := w.memberUnits + lat p 24 4 } }).queueBlock
      i x p (bits (lat p 8 4) 27 16) true
  else
    let st := lat p 22 1
    (s.modStream i fun x => { x with lender := x.lender.map fun w => { w with
      answered := w.answered + 1, failed := some (if st = stOK ∨ st = stEMPTY then stFORMAT else st) } }).collect i

/-- A PARTIAL arrives (R123, R126). -/
def State.recvPartial (s : State) (p : List Byte) : State :=
  let h := lat p 0 8
  let hs := lat p 8 4 % 2 ^ 16
  let sub := bits (lat p 8 4) 27 16
  let gen := bits (lat p 8 4) 31 28
  let home : Option (Stream × SubQuery) := (s.stream hs).bind fun x =>
    if x.handle = h ∧ x.lender.isNone ∧ x.cstate ≠ .aborting then
      (x.subs.find? (fun y => y.sub == sub && y.gen == gen && !y.landed)).map fun y => (x, y) else none
  match home with
  | some (x, y) => s.homeAnswer hs x y p
  | none =>
    match s.ae.streams.find? (fun e => e.2.handle == h && e.2.cstate != .aborting && e.2.cstate != .delivering &&
        (match e.2.lender with | some w => w.relay && w.hstream == hs && decide (w.answered < w.groupIn) | none => false)) with
    | some (i, x) => s.relayAnswer i x p
    | none => s.inc Fd.MRG_STALE_COUNT

/-- A held PARTIAL may leave (R125). -/
def State.releaseHeld (s : State) (i : Nat) (x : Stream) : State :=
  let p : Purpose := .partialOf i
  match s.trl.conduits.find? (fun c => c.2.queue.any (fun m => m.purpose == p && m.hold)) with
  | none => s.modStream i fun _ => { x with lender := x.lender.map fun w => { w with granted := true } }
  | some (c, cd) =>
    match cd.queue.find? (fun m => m.purpose == p && m.hold) with
    | none => s
    | some m =>
      let s := s.modConduit c fun cd => { cd with queue := cd.queue.filter (fun y => !(y.purpose == p && y.hold)) }
      s.enqueue c { m with hold := false }

/-- A lender's stream dropped with its PARTIAL, which has not been sent (R125, R129, R130). -/
def State.dropWork (s : State) (i : Nat) : State :=
  let p : Purpose := .partialOf i
  let s := s.onTrl fun t => { t with conduits := t.conduits.map fun c =>
    (c.1, { c.2 with queue := c.2.queue.filter (fun m => !(m.purpose == p && m.seq.isNone)) }) }
  match s.stream i with
  | none => s
  | some x => if x.cstate == .delivering then s.releaseStream i else s.endStream i stABORTED

/-- A lender is lost for this home node (R128). -/
def State.lenderLost (s : State) (node : Nat) : State :=
  let hit := s.ae.streams.flatMap fun p => if p.2.lender.isSome then [] else
    (p.2.subs.filter (fun y => y.lender == node && !y.landed)).map (fun y => (p.1, y))
  let s := hit.foldl (fun s (h : Nat × SubQuery) =>
    match (s.stream h.1).bind (fun x => x.subs.find? (fun z => z.sub == h.2.sub && z.gen == h.2.gen)) with
    | none => s
    | some y =>
      let poisoned := y.units.foldl (fun s u => s.poisonPage u.desc) s
      poisoned.subFailed h.1 y) s
  ((s.raise Fd.MRG_ERR_LENDER_LOST).engineEvent 0x80 2 0 0 0 0).inc Fd.MRG_LENDERS_LOST_COUNT

/-- What is left to send of the PARTIAL of a lender's stream is dropped (R129). -/
def State.dropPartial (s : State) (i : Nat) : State :=
  s.onTrl fun t => { t with conduits := t.conduits.map fun c =>
    (c.1, { c.2 with queue := c.2.queue.filter (fun m => m.purpose != .partialOf i) }) }

/-- A home node is lost: its work here ends unanswered, its PARTIALs held or in flight are dropped (R129). -/
def State.homeLost (s : State) (node : Nat) : State :=
  (s.ae.streams.filter (fun p => match p.2.lender with | some w => w.node == node | none => false)).foldl
    (fun s p => (s.dropPartial p.1).dropWork p.1) s

/-! ## ABORT (R363) -/

/-- An ABORT of a request of its own conduit. -/
def State.abortRequest (s : State) (c q : Nat) (p : List Byte) : State :=
  let t := lat p 0 4
  if p.length ≠ 8 ∨ lat p 4 4 ≠ 0 ∨ t = 0 ∨ !serialLt 32 t q then s.respond c q 6 stFORMAT [] else
  let lend := s.ae.streams.find? (fun x => x.2.conduit == c && x.2.msgseq == t && x.2.lender.isSome)
  match lend with
  | some (i, _) => s.dropWork i
  | none =>
    match s.ae.streams.find? (fun x => x.2.conduit == c && x.2.msgseq == t && x.2.batch.isNone && x.2.byWr.isNone) with
    | some (i, x) =>
      if x.cstate == .delivering || x.cstate == .aborting then s.respond c q 6 stALREADY []
      else (s.endStream i stABORTED).respond c q 6 stOK []
    | none =>
      match s.ae.batches.find? (fun b => b.2.conduit == c && b.2.msgseq == t && b.2.byWr.isNone) with
      | some (b, x) => if x.delivering then s.respond c q 6 stALREADY [] else (s.endBatch b stABORTED).respond c q 6 stOK []
      | none =>
        match s.pgt.ops.find? (fun o => o.conduit == c && o.msgseq == t && o.byWr.isNone) with
        | some o =>
          if o.kind == .query then
            ((s.endOp o.id).failRequest c (qTag o.payload) stABORTED (qRaw o.payload) (qF32 o.payload)).respond c q 6 stOK []
          else s.onCust fun u => { u with held := u.held ++ [⟨c, q, 0x32, p, 0, s.usec, none⟩] }
        | none =>
          match s.cust.held.find? (fun h => h.conduit == c && h.msgseq == t && h.op != 0x32) with
          | some h =>
            if h.op = 0x01 then
              let s := s.onCust fun u => { u with held := eraseFirst (fun y => y == h) u.held }
              (s.failRequest c (qTag h.payload) stABORTED (qRaw h.payload) (qF32 h.payload)).respond c q 6 stOK []
            else s.onCust fun u => { u with held := u.held ++ [⟨c, q, 0x32, p, 0, s.usec, none⟩] }
          | none =>
            match s.cust.forwarded.find? (fun f => f.conduit == c && f.msgseq == t) with
            | some f =>
              match s.sentAs f.via (.forward c t) with
              | some v => ((s.send f.via 0x32 6 (le 4 v ++ zeros 4) (.forward c q)).onCust fun u => { u with
                  forwarded := u.forwarded ++ [⟨c, q, f.via, 0x32, [], 0, 0, 0, none⟩] })
              | none => s.respond c q 6 stALREADY []
            | none => s.respond c q 6 stALREADY []

/-! ## Meanings -/

/-- SUBQUERY (R122). -/
def execSubquery (c : Conduit) (q : W32) (p : List Byte) (s : State) : Host.Outcome State Fault Refusal :=
  act s fun s => (s.takeHanded c.val q.toNat 0x03).recvSub c.val q.toNat p

/-- WINDOW_SPLIT: the next 65,536 listed units become the window, once the items of the last one have ended and the stream has its
workspace (R101, R102, R108). -/
def execWindowSplit (st : Nat) (s : State) : Host.Outcome State Fault Refusal :=
  act s fun s =>
    match s.stream st with
    | none => s
    | some x =>
      let due := if x.items.isEmpty then true else x.taken != x.scanned.length
      let s := s.placeStream st
      let placed := ((s.stream st).bind (·.workAt)).isSome
      if !placed || x.cstate == .aborting || x.cstate == .delivering || !due || x.items.any (fun it => it.istate != .done) then s else
      let us := (x.scanned.drop x.taken).take 65536
      let items := s.splitUnits x us
      let s := s.modStream st fun x => { x with units := us, taken := x.taken + us.length, items := items }
      let s := (List.range items.length).foldl (fun s k => s.lineUp st k) s
      let s := (s.deferFaults st us).sendSubs st
      if us.any (fun u => match s.desc u.desc with | some y => y.lost && y.state == .poisoned | none => false)
      then s.endStream st stPOISONED else s

/-- WORK_ITEM_DISPATCH (R103). -/
def execWorkItemDispatch (st : Nat) (s : State) : Host.Outcome State Fault Refusal := act s fun s => s.dispatch st

/-- Corrected errors of an engine's SRAM, counted and windowed (R86, R337). -/
def State.sramCe (s : State) (e n : Nat) : State := if n = 0 then s else (s.count (Fd.AE_SRAM_CE_COUNT e) n).countErr 2 e n

/-- ENGINE_UNIT_END (R85): `ce` SRAM errors were corrected in it, and its fetches found `errs`. -/
def execEngineUnitEnd (e : Fin 80) (ce : Nat) (errs : Errs) (s : State) : Host.Outcome State Fault Refusal :=
  actIf s (s.awake || s.glb.finishing.contains e.val) fun s =>
    let s := (s.onGlb fun g => { g with finishing := g.finishing.filter (· != e.val) }).unitEnd e.val errs
    let s := s.sramCe e.val ce
    if s.flag (Fd.AE_STATUS_QUARANTINED e.val) then s.evictEngine e.val else s

/-- The read of a core held on a LOCK range has waited out HBM_CTL.LOCK_WAIT_NS: BUSY (R212, notes/assumptions/111.md). -/
def State.coreWaitEnds (s : State) (core : Nat) : State :=
  match tfind s.hb.held core with
  | none => s
  | some h =>
    if s.mtime * 10 < h.since * 10 + s.fd (Fd.HBM_CTL_LOCK_WAIT_NS (chanOf h.addr / 32)) then s
    else (s.onHb fun b => { b with held := tdel b.held core }).accessFail core

/-- The unit of a page is deferred, last in the tile. -/
def WorkItem.deferPage (it : WorkItem) (x : Stream) (name : Nat) : WorkItem :=
  let late := fun (t : TodoUnit) => ((it.units[t.ix]?).map x.lockName) == some name
  { it with
    units := it.units.map fun u => if x.lockName u = name then { u with kind := .deferred } else u
    todo := it.todo.map fun l => l.filter (fun t => !late t) ++ (l.filter late).map fun t => { t with eligible := false, bounds := [] } }

/-- The engine has waited long enough on a locked page. -/
def State.engineWaitEnds (s : State) (e : Nat) : State :=
  match tfind s.ae.lockWait e, tfind s.ae.running e with
  | some (d, t0), some (i, k) =>
    if s.mtime * 10 < t0 * 10 + s.fd Fd.AE_SPLIT_LOCK_WAIT_NS then s else
    match s.stream i with
    | none => s
    | some x =>
      let s := s.onAe fun a => { a with lockWait := tdel a.lockWait e }
      (s.modItem i k fun it => it.deferPage x d).afterUnit i k e
  | _, _ => s

/-- LOCK_WAIT_EXPIRE (R109, R212): engine 0 to 79 defers the unit until the gecko releases it; the read of core e - 80 ends. -/
def execLockWaitExpire (e : Fin 96) (s : State) : Host.Outcome State Fault Refusal :=
  act s fun s => if 80 ≤ e.val then s.coreWaitEnds (e.val - 80) else s.engineWaitEnds e.val

/-- ENGINE_SRAM_UE (R110). -/
def execEngineSramUe (e : Fin 80) (s : State) : Host.Outcome State Fault Refusal :=
  act s fun s =>
    let at_ := (tfind s.ae.running e.val).bind fun p => (s.stream p.1).map fun x => (p.1, x.handle, x.tag)
    let s := (s.raise (Fd.AE_ERR_SRAM_UE e.val)).countErr 3 e.val 1
    let s := match at_ with
      | some (i, h, t) => s.engineEvent e.val 1 i 0 h t
      | none => s.engineEvent e.val 1 0 0 0 0
    let s := s.abandonItem e.val
    if s.flag (Fd.AE_STATUS_QUARANTINED e.val) then s.evictEngine e.val else s.engineStart e.val

/-- STREAM_TIMEOUT (R111, R125). -/
def execStreamTimeout (st : Nat) (s : State) : Host.Outcome State Fault Refusal :=
  act s fun s =>
    match s.stream st with
    | none => s
    | some x =>
      if s.usec < x.deadline ∨ x.cstate = .aborting then s
      else if x.cstate = .delivering then
        if s.trl.conduits.any (fun c => c.2.queue.any (fun m => m.purpose == .partialOf st && m.hold)) then
          (s.dropWork st).inc Fd.AE_TIMEOUTS_COUNT
        else s
      else (s.endStream st stTIMEOUT).inc Fd.AE_TIMEOUTS_COUNT

/-- ABORT (R112, R130, R363). -/
def execAbort (c : Conduit) (q : W32) (p : List Byte) (s : State) : Host.Outcome State Fault Refusal :=
  act s fun s => (s.takeHanded c.val q.toNat 0x32).abortRequest c.val q.toNat p

/-- MERGE_RECORD (R115, R116). -/
def execMergeRecord (u : Fin 4) (s : State) : Host.Outcome State Fault Refusal := act s fun s => s.mergeOne u.val

/-- PARTIAL (R123, R126). -/
def execPartialRecord (c : Conduit) (q : W32) (p : List Byte) (s : State) : Host.Outcome State Fault Refusal :=
  act s fun s => (s.takeHanded c.val q.toNat 0x04).recvPartial p

/-- MERGE_AREA_UE (R117); a relay that has members' answers cannot have them again, so it fails (notes/assumptions/27.md). -/
def execMergeAreaUe (st : Nat) (s : State) : Host.Outcome State Fault Refusal :=
  act s fun s =>
    match s.stream st with
    | none => s
    | some x =>
      if x.cstate == .aborting || x.cstate == .delivering then s else
      let s := (s.raise Fd.MRG_ERR_AREA_UE).engineEvent (0x80 + s.mergeUnit st 0) 1 st 0 x.handle x.tag
      let gathered := s.ae.mergeQ.any (fun m => m.stream == st && m.relay) || (match x.lender with | some w => w.answered != 0 | none => false)
      if gathered then s.endStream st stPOISONED else (s.rerun st).inc Fd.MRG_RERUNS_COUNT

/-- RESULT_DELIVERED: the transport has placed the last byte; the stream, or its batch, is released (R120). -/
def execResultDelivered (st : Nat) (s : State) : Host.Outcome State Fault Refusal :=
  act s fun s =>
    match s.trl.ended.find? (fun p => p.1 == .result st || p.1 == .partialOf st), s.stream st with
    | some (p, status), some x =>
      let s := s.onTrl fun t => { t with ended := eraseFirst (fun y => y == (p, status)) t.ended }
      if x.cstate != .delivering then s else
      let fin := if status = stOK then x.status else status
      match p, x.batch with
      | .result _, some b =>
        let s := (s.ae.streams.filter (fun y => y.2.batch == some b)).foldl (fun s y => s.releaseStream y.1) s
        match tfind s.ae.batches b with
        | none => s
        | some y =>
          let s := match y.region with | some r => s.outflight r | none => s
          ((s.onAe fun a => { a with batches := tdel a.batches b }).inc Fd.MRG_RESULTS_COUNT).endWrOf y.byWr status
      | .result _, none => ((s.releaseStream st).inc Fd.MRG_RESULTS_COUNT).endWrOf x.byWr fin
      | _, _ => s.releaseStream st
    | _, _ => s

/-- GRANT: a CONTROL message of CTYPE 0x0101 (R125). -/
def execGrant (c : Conduit) (q : W32) (p : List Byte) (s : State) : Host.Outcome State Fault Refusal :=
  act s fun s =>
    let s := s.takeHanded c.val q.toNat 0x3F
    if lat p 0 2 ≠ 0x0101 ∨ p.length ≠ 16 then s else
    let n := s.peerOf c.val
    match s.ae.streams.find? (fun x => x.2.handle == lat p 8 8 && x.2.cstate != .aborting && (match x.2.lender with
        | some w => w.node == n && w.hstream == lat p 2 2 && w.sub == lat p 4 2 % 2 ^ 12 && w.subgen == lat p 4 2 / 2 ^ 12 && w.hold
        | none => false)) with
    | none => s
    | some (i, x) => s.releaseHeld i x

end Sys2Proof.Machine
end

