-- ==== Sys2Proof/Machine/Prefix.lean ====
section
/-! DEFINITION. The prefix directory (chapter 4). -/

namespace Sys2Proof.Machine

/-! ## Keys (R65-R68) -/

/-- The content key of a position (R65). -/
def contentKey (prev model : Nat) (tokids : List Nat) : Nat :=
  unle ((sha256 (le 8 prev ++ le 8 model ++ tokids.flatMap (le 4))).take 8)

/-- Position p of a sequence is sealed with 16 slots in every group of the layers given. -/
def State.posSealed (s : State) (q : Seq) (layers : List Nat) (p : Nat) : Bool :=
  layers.all fun l => (List.range (clsGroups q.def1)).all fun g =>
    match (tfind q.pt (ptKey l g p)).bind s.desc with
    | some x => x.state != .tadpole && x.state != .free && x.valid == 16 && !(x.state == .poisoned && !x.wasSealed)
    | none => false

/-! ## Entries and their shadow (R70, R71) -/

def pdirSet (key : Nat) : Nat := key % 2 ^ 14

/-- The shadow of an entry (Table 4-2). -/
def PdirEntry.bytes (e : PdirEntry) : List Byte :=
  le 8 e.key ++ le 8 (e.part + e.cls * 2 ^ 4 + e.index * 2 ^ 12 + e.gen * 2 ^ 36) ++ le 4 e.pos ++ le 4 e.insEpoch ++
    le 2 e.stamp ++ le 1 1 ++ zeros 5

def State.shadowAt (s : State) (e : Nat) : Nat := s.fd Fd.PDIR_SHADOW_BASE_ADDR + 32 * e

/-- An entry written to both copies. -/
def State.putEntry (s : State) (e : Nat) (x : PdirEntry) : State :=
  (s.hbmWrite (s.shadowAt e) x.bytes).onPdir fun p => { p with entries := tset p.entries e x }

/-- An entry removed from both copies. -/
def State.dropEntry (s : State) (e : Nat) : State :=
  (s.hbmWrite (s.shadowAt e) (zeros 32)).onPdir fun p => { p with entries := tdel p.entries e }

/-- The on-chip entry equals its shadow (R83). -/
def State.shadowOk (s : State) (e : Nat) (x : PdirEntry) : Bool := s.hbmRead (s.shadowAt e) 32 == x.bytes

/-- Conditions 2 to 4 of R72. -/
def State.donorOk (s : State) (x : PdirEntry) : Bool :=
  (match s.seq x.index with
   | some q => hGen q.handle == x.gen && q.sstate != .freeing && !q.hidden && decide (16 * (x.pos + 1) ≤ q.length)
   | none => false) &&
  !(s.pdir.purges.any (fun p => p.2.donor == x.index && p.2.cutoff ≤ x.pos &&
      (match p.2.epoch with | some c => serialLt 32 x.insEpoch c | none => false)))

/-- ENTRY_VALIDATE (R72, R83): whether the entry may be used; an invalid one is removed at once. `ue`: the entries whose shadow
meets an uncorrectable error. -/
def State.validate (s : State) (ue : List Nat) (e : Nat) (x : PdirEntry) : Bool × State :=
  if ue.contains e then (false, ((s.dropEntry e).raise Fd.PDIR_ERR_SHADOW_UE).inc Fd.PDIR_MISMATCHES_COUNT)
  else if !s.shadowOk e x then (false, ((s.dropEntry e).raise Fd.PDIR_ERR_MISMATCH).inc Fd.PDIR_MISMATCHES_COUNT)
  else if !s.donorOk x then (false, s.dropEntry e)
  else (true, s)

/-! ## Insertion (R78, R79) -/

/-- The entry of least AGE among some, ties to the highest way. -/
def victim (l : List (Nat × PdirEntry)) : Option Nat :=
  (l.foldl (fun (b : Option (Nat × PdirEntry)) x => match b with
    | none => some x
    | some y => if x.2.age ≤ y.2.age then some x else some y) none).map Prod.fst

/-- The entries of a set, ascending. -/
def State.setEntries (s : State) (st : Nat) : List (Nat × PdirEntry) :=
  (List.range 16).filterMap fun w => (tfind s.pdir.entries (st * 16 + w)).map fun x => (st * 16 + w, x)

def State.pdirInsert (s : State) (key part cls index gen pos : Nat) : State :=
  if !s.flag Fd.PDIR_CTL_ENABLE then s else
  let st := pdirSet key
  let es := s.setEntries st
  let same := es.filter (fun x => x.2.key == key && x.2.part == part && x.2.cls == cls)
  let own := es.filter (fun x => x.2.part == part)
  let full := s.fd (Fd.PDIR_PART_MAX_MAX part) ≤ (s.pdir.entries.filter (fun x => x.2.part == part)).length
  let free := (List.range 16).find? (fun w => (tfind s.pdir.entries (st * 16 + w)).isNone)
  let slot : Option Nat :=
    if 4 ≤ same.length then victim same
    else if full then victim own
    else match free with
      | some w => some (st * 16 + w)
      | none => victim es
  match slot with
  | none => s.inc Fd.PDIR_DROPS_COUNT
  | some e =>
    let s := if (tfind s.pdir.entries e).isSome then s.inc Fd.PDIR_EVICTS_COUNT else s
    let s := s.putEntry e ⟨key, part, cls, index, gen, pos, s.pgt.epoch, s.pdir.stamp, 15⟩
    (s.inc Fd.PDIR_INSERTS_COUNT).onPdir fun p => { p with stamp := (p.stamp + 1) % 2 ^ 16 }

/-- Keys formed for the positions that have sealed (R68 step 2). -/
def State.formKeys : Nat → State → Nat → State
  | 0, s, _ => s
  | n + 1, s, k =>
    match s.seq k with
    | none => s
    | some q =>
      if clsPrefix q.def1 && !q.broken && 16 ≤ q.tokids.length && s.posSealed q [0] q.keyed then
        let key := contentKey q.chainKey (s.fd (Fd.PDIR_MODEL_ID_ID q.cls)) (q.tokids.take 16)
        State.formKeys n (s.modSeq k fun q => { q with
          chainKey := key, keyed := q.keyed + 1, tokids := q.tokids.drop 16, pendKeys := q.pendKeys ++ [(q.keyed, key)] }) k
      else s

/-- A page of a sequence has sealed: keys are formed, and entries whose position is sealed everywhere go in (R68 step 3). -/
def State.prefixSeal (s : State) (k : Nat) : State :=
  let s := match s.seq k with
    | none => s
    | some q => State.formKeys (q.tokids.length / 16) s k
  match s.seq k with
  | none => s
  | some q =>
    let ready := if q.broken then [] else q.pendKeys.filter (fun x => s.posSealed q (List.range (clsLayers q.def1)) x.1)
    let s := s.modSeq k fun q => { q with pendKeys := q.pendKeys.filter (fun x => !ready.contains x) }
    if 2 ^ 24 ≤ k ∨ hHome q.handle ≠ s.node then s else
    ready.foldl (fun s x => s.pdirInsert x.2 (hPart q.handle) q.cls k (hGen q.handle) x.1) s

/-! ## LOOKUP (R73-R75) -/

def cursorOf (e : Nat) (x : PdirEntry) : Nat := e + x.stamp * 2 ^ 18 + x.part * 2 ^ 34

def lookupBody (matched : Nat) (multi : Bool) (cursor : Nat) : List Byte :=
  le 4 (matched + (if multi then 2 ^ 31 else 0)) ++ zeros 4 ++ le 8 cursor

/-- The valid matching entries of a set from way w on, in way order; invalid ones are removed. At most two are needed. -/
def State.probe (ue : List Nat) (s : State) (key part cls : Nat) : Nat → Nat → State × List (Nat × PdirEntry)
  | 0, _ => (s, [])
  | n + 1, w =>
    match tfind s.pdir.entries (pdirSet key * 16 + w) with
    | none => State.probe ue s key part cls n (w + 1)
    | some x =>
      if x.key != key || x.part != part || x.cls != cls then State.probe ue s key part cls n (w + 1) else
      let (ok, s) := s.validate ue (pdirSet key * 16 + w) x
      let (s, l) := State.probe ue s key part cls n (w + 1)
      (s, if ok then (pdirSet key * 16 + w, x) :: l else l)

/-- Probes from the highest position down (R73). -/
def State.probeKeys (ue : List Nat) (s : State) (part cls : Nat) : List Nat → State × List (Nat × PdirEntry)
  | [] => (s, [])
  | key :: l =>
    match State.probe ue s key part cls 16 0 with
    | (s, []) => State.probeKeys ue s part cls l
    | (s, r) => (s, r)

/-- A lookup ends with the first entry found, or EMPTY (R73, R80). -/
def State.lookupEnd (s : State) (c q : Nat) (found : List (Nat × PdirEntry)) : State :=
  match found with
  | [] => s.respond c q 0 stEMPTY (lookupBody 0 false 0)
  | (e, x) :: r =>
    let s := (s.onPdir fun p => { p with entries := tmod p.entries e fun y => { y with age := 15 } }).inc Fd.PDIR_HITS_COUNT
    s.respond c q 0 stOK (lookupBody (x.pos + 1) (!r.isEmpty) (cursorOf e x))

/-- The checks of R74: a status, or none. -/
def State.lookupCheck (s : State) (part : Nat) (p : List Byte) : Option Nat :=
  let next := lat p 1 1 % 2 == 1
  let n := lat p 2 2
  let cls := lat p 0 1
  if p.length ≠ 16 + 8 * n ∨ 2 ≤ lat p 1 1 ∨ !zeroAt p 4 4 ∨ (next ∧ n ≠ 0) ∨ (!next ∧ (n = 0 ∨ 4096 < n)) then some stFORMAT
  else if !clsValid (s.def0 cls) ∨ clsPart (s.def0 cls) ≠ part ∨ !clsPrefix (s.def1 cls) then some stBOUNDS
  else none

/-- A LOOKUP (R73-R75). A rejected one is not counted in PDIR_LOOKUPS, and a cursor whose bits 63:38 are not zero gets BOUNDS
(notes/assumptions/115.md). -/
def State.lookup (s : State) (c q : Nat) (p : List Byte) (ue : List Nat) : State :=
  let part := s.partOf c
  let cls := lat p 0 1
  match s.lookupCheck part p with
  | some st => s.respond c q 0 st []
  | none =>
    let s := s.inc Fd.PDIR_LOOKUPS_COUNT
    if !s.flag Fd.PDIR_CTL_ENABLE then s.respond c q 0 stEMPTY (lookupBody 0 false 0) else
    if lat p 1 1 % 2 = 1 then
      let cur := lat p 8 8
      match tfind s.pdir.entries (cur % 2 ^ 18) with
      | none => s.respond c q 0 stBOUNDS []
      | some x =>
        if bits cur 37 34 ≠ part ∨ cur / 2 ^ 38 ≠ 0 ∨ x.stamp ≠ bits cur 33 18 then s.respond c q 0 stBOUNDS [] else
        let w := cur % 2 ^ 18 % 16
        let (s, l) := State.probe ue s x.key part x.cls (15 - w) (w + 1)
        s.lookupEnd c q l
    else
      let keys := ((List.range (lat p 2 2)).map (fun i => lat p (16 + 8 * i) 8)).reverse
      let (s, l) := State.probeKeys ue s part cls keys
      s.lookupEnd c q l

/-! ## Adoption's re-read (R77) -/

/-- The entry an adopting FORK names: its donor, key and MATCHED; none: BOUNDS. -/
def State.adoptEntry (s : State) (part : Nat) (p : List Byte) (ue : List Nat) : State × Option (Nat × Nat × Nat) :=
  let cur := lat p 16 8
  let cls := lat p 12 1
  match tfind s.pdir.entries (cur % 2 ^ 18) with
  | none => (s, none)
  | some x =>
    if cur / 2 ^ 38 ≠ 0 ∨ x.stamp ≠ bits cur 33 18 ∨ bits cur 37 34 ≠ part ∨ x.part ≠ part ∨ x.cls ≠ cls ∨
        !s.flag Fd.PDIR_CTL_ENABLE then (s, none) else
    match s.validate ue (cur % 2 ^ 18) x with
    | (true, s) => (s, some (x.index, x.key, x.pos + 1))
    | (false, s) => (s, none)

/-! ## Meanings -/

/-- LOOKUP (R73, R74). -/
def execLookup (c : Conduit) (q : W32) (p : PdirReq) (s : State) : Host.Outcome State Fault Refusal :=
  act s fun s => (s.takeHanded c.val q.toNat 0x0D).lookup c.val q.toNat p.payload p.ue

/-- LOOKUP_NEXT: a LOOKUP whose NEXT flag is set (R75). -/
def execLookupNext (c : Conduit) (q : W32) (p : PdirReq) (s : State) : Host.Outcome State Fault Refusal :=
  act s fun s => (s.takeHanded c.val q.toNat 0x0D).lookup c.val q.toNat p.payload p.ue

/-- AGE_DECREMENT: every AGE_PERIOD ms the walker decrements every AGE (R80). -/
def execAgeDecrement (s : State) : Host.Outcome State Fault Refusal :=
  actIf s (decide (s.pdir.agedAt + s.pdir.agePeriod * 100000 ≤ s.mtime)) fun s =>
    s.onPdir fun p => { p with
      agedAt := s.mtime
      agePeriod := s.fd Fd.PDIR_CTL_AGE_PERIOD
      entries := p.entries.map (fun x => (x.1, { x.2 with age := x.2.age - 1 })) }

/-- PDIR_SCRUB_PASS: the walker compares every entry with its shadow and validates it (R72, R83); `ue` names the entries
whose shadow meets an uncorrectable error. -/
def execPdirScrubPass (ue : List Nat) (s : State) : Host.Outcome State Fault Refusal :=
  actIf s (s.flag Fd.PDIR_CTL_ENABLE && s.fd Fd.PDIR_SCRUB_MS_MS != 0 &&
      decide (s.pdir.scrubAt + s.fd Fd.PDIR_SCRUB_MS_MS * 100000 ≤ s.mtime)) fun s =>
    let s := s.onPdir fun p => { p with scrubAt := s.mtime }
    s.pdir.entries.foldl (fun s x =>
      (s.validate ue x.1 x.2).2) s

/-- The walker has visited every set for filter entry k: the donor's entries go, and the filter entry with them (R81). -/
def State.purgePass (s : State) (k : Nat) : State :=
  match tfind s.pdir.purges k with
  | none => s
  | some p =>
    match p.epoch with
    | none => s
    | some c =>
      let gone := s.pdir.entries.filter (fun x => x.2.index == p.donor && p.cutoff ≤ x.2.pos && serialLt 32 x.2.insEpoch c)
      (gone.foldl (fun s x => s.dropEntry x.1) s).onPdir fun d => { d with purges := tdel d.purges k }

/-- PDIR_DISABLE: a store to PDIR_CTL that clears ENABLE invalidates every entry in both copies (Table 4-7). -/
def execPdirDisable (v : Word) (s : State) : Host.Outcome State Fault Refusal :=
  actIf s (bits v.toNat 0 0 == 0) fun s =>
    let was := s.flag Fd.PDIR_CTL_ENABLE
    let s := s.storeFields 0 Reg.PDIR_CTL v.toNat
    if was then s.pdir.entries.foldl (fun s x => s.dropEntry x.1) s else s

/-- PDIR_ENABLE: a store to PDIR_CTL that sets ENABLE; ignored in that bit while the shadow has no base (Table 4-7). -/
def execPdirEnable (v : Word) (s : State) : Host.Outcome State Fault Refusal :=
  actIf s (bits v.toNat 0 0 == 1) fun s =>
    let v' := if s.fd Fd.PDIR_SHADOW_BASE_ADDR = 0 then v.toNat - 1 else v.toNat
    s.storeFields 0 Reg.PDIR_CTL v'

end Sys2Proof.Machine
end

