-- ==== Sys2Proof/Machine/Order.lean ====
section
/-! DEFINITION. The order of operations at work: routing a request to its sequence, taking a place, beginning, committing
(R38, R345-R348, R359, R462, R464), and the requests of chapters 3 and 5. -/

namespace Sys2Proof.Machine

/-! ## Copies in progress (R55, R58, R215) -/

/-- A page in PCACHE that a gecko job needs leaps down to HBM first (R179), within the hard quota; into a channel that `ok`
admits, if it has room there (R215). -/
def State.leapDown (s : State) (d : Nat) (x : Desc) (ok : Nat → Bool) : Option State :=
  let n := frameUnits x.frameCode
  if x.pinned || x.state != .sealed then none else
  ((s.takeHbm x.part n n ok).or (s.takeHbm x.part n n (fun _ => true))).map fun (a, s) =>
    (s.modDesc d fun x => { x with state := .inLeap }).onTier fun b => { b with
      nextLeap := b.nextLeap + 1
      leaps := b.leaps ++ [⟨d, x.loc, .hbm, some ⟨.hbm, 0, a⟩, s.pgt.epoch, false, some (s.pageContent x), false, none, false, none, b.nextLeap⟩] }

/-- A copy goes on: a COW job where a gecko reaches both pages, a leap down out of PCACHE first, a fault where the page lies
in FLASH or LENT; otherwise the PGT makes it. -/
def State.doCopy (s : State) (c : CopyJob) : State :=
  let jobs := s.hb.jobs.any (fun j => match j.use with | .copy d => d == c.dst | _ => false)
  match s.desc c.src, s.desc c.dst with
  | some x, some y =>
    let now := fun (s : State) => (s.copyNow (s.pageContent x) c.dst c.slots).copyDone c.dst
    if jobs then s
    else if x.state == .poisoned then
      if x.lost then match s.pgt.ops.find? (fun o => o.id == c.op) with
        | some op => s.abortOp op stPOISONED
        | none => s
      else s
    else match x.loc.tier with
      | .flash => s.addFault c.src x.loc (.op c.op)
      | .lent => s.addFault c.src x.loc (.op c.op)
      | .pcache =>
        if x.state == .inLeap then s
        else if x.pinned then now s
        else (s.leapDown c.src x (fun ch => ch == chanOf (y.loc.frame * 2048))).getD (now s.hardBlock)
      | .hbm =>
        if x.state == .lockedBank then s
        else if x.state == .inLeap then s
        else if s.oneChannel x y then s.copyJob c.src x y c.dst c.slots
        else now s
  | _, _ => s

/-! ## One operation -/

/-- The handle an operation names. -/
def State.opHandle (s : State) (op : SeqOp) : Nat :=
  match op.kind with
  | .adopt => ((s.seq op.seq).map (·.handle)).getD 0
  | .info => lat op.payload 8 8
  | _ => lat op.payload 0 8

/-- Key and MATCHED of an adoption, kept behind its payload. -/
def adoptedOf (op : SeqOp) : Option (Nat × Nat) :=
  if op.kind == .adopt then some (lat op.payload 24 8, lat op.payload 32 8) else none

/-- The fork point: POINT, or 16 * MATCHED where an adoption gives 0 (R77). -/
def forkPoint (op : SeqOp) : Nat :=
  let f := lat op.payload 8 4
  match adoptedOf op with
  | some (_, m) => if f = 0 then 16 * m else f
  | none => f

/-- The sequence number no sequence has, where a FORK without a parent waits for its child. -/
def noSeq : Nat := 2 ^ 30

/-! ## PIN (R178) -/

/-- A page of the sequence that lies in neither HBM nor PCACHE. -/
def State.pinFar (s : State) (k : Nat) : List Desc :=
  match s.seq k with
  | none => []
  | some q => ((q.pt.foldl (fun t (e : Nat × Nat) => tset t e.2 ()) ([] : Tbl Unit)).filterMap fun e => s.desc e.1).filter
      fun x => x.state != .tadpole && !x.lost && (x.loc.tier == .lent || x.loc.tier == .flash)

/-- A page a PIN still waits for: one not yet in HBM or PCACHE, one that leaps, one being restored (R178). -/
def State.pinAwaits (s : State) (k : Nat) : Bool :=
  !(s.pinFar k).isEmpty || (match s.seq k with
    | none => false
    | some q => q.pt.any fun e => match s.desc e.2 with
      | some x => x.state == .inLeap || (x.state == .poisoned && !x.lost)
      | none => false)

/-- The command ends with a status. -/
def State.pinEnd (s : State) (op : SeqOp) (st : Nat) : State :=
  let s := (s.setFd Fd.TIER_PIN_CTL_RESULT st).setFd Fd.TIER_PIN_CTL_BUSY 0
  let s := if st = stOK then s else s.raise Fd.TIER_ERR_PIN_FAIL
  (s.onTier fun b => { b with pinning := none }).endOp op.id

/-- Steps 1 and 2: the pages not in HBM or PCACHE are counted, and their promotion starts. -/
def State.beginPin (s : State) (op : SeqOp) : State :=
  let part := ((s.seq op.seq).map (fun q => hPart q.handle)).getD 0
  let bytes := (s.pinFar op.seq).foldl (fun n x => n + frameUnits (frameCode x.def0) * 2048) 0
  if !s.underHard part 1 bytes then s.refused.pinEnd op stQUOTA
  else (s.onTier fun b => { b with pinning := some op.seq }).modOp op.id fun o => { o with phase := .copying }

/-- PINNED set or cleared on the sealed pages the sequence references. -/
def State.setPinned (s : State) (k : Nat) (on : Bool) : State :=
  match s.seq k with
  | none => s
  | some q => q.pt.foldl (fun s (e : Nat × Nat) => s.modDesc e.2 fun x =>
      if on && x.state != .sealed && x.state != .lockedBank then x else { x with pinned := on }) s

/-- An operation other than a query begins. -/
def State.beginOp (s : State) (op : SeqOp) : State :=
  let s := s.modSeq op.seq fun q => { q with lastUse := s.usec }
  match op.kind with
  | .append => s.beginAppend op
  | .seal => s.beginSeal op
  | .truncate => s.beginTruncate op
  | .free => s.beginFree op
  | .fork => if op.seq = noSeq then s.beginCreate op (s.partOf op.conduit) else s.beginFork op (forkPoint op) (s.partOf op.conduit) none
  | .adopt => s.beginFork op (forkPoint op) (s.partOf op.conduit) (adoptedOf op)
  | .info => s.answerInfo op
  | .pin => s.beginPin op
  | _ => s

/-- A waiting operation begins if its turn has come (R326, R464). -/
def State.tryBegin (s : State) (op : SeqOp) : State :=
  if !s.admits then s else
  let committed := fun l => ((s.seq op.seq).map (·.len l)).getD 0
  let turn := if op.kind == .info then ((opsBefore s.pgt.ops op).filter (fun o => o.kind.commits)).isEmpty
    else mayBegin s.pgt.ops op committed
  match op.kind with
  | .query => s.tryQuery op
  | .entry k => s.tryEntry op k
  | .unpin => s
  | .pin =>
    if !turn then s
    else match s.seq op.seq with
      | none => s.pinEnd op stBOUNDS
      | some q => if q.sstate == .freeing then s.pinEnd op stBOUNDS else if q.sstate == .cold then s.askThaw op.seq else s.beginOp op
  | _ =>
    if !turn then s
    else if op.seq = noSeq then s.beginOp op
    else if !s.handleOk (s.opHandle op) (s.partOf op.conduit) op.seq then s.failOp op stBOUNDS
    else match s.seq op.seq with
      | some q =>
        if q.sstate != .cold then s.beginOp op
        else if op.kind != .free then s.askThaw op.seq
        else if q.thawing then s else s.beginOp op
      | none => s.beginOp op

/-- One operation goes as far as it can. -/
def State.opStep (s : State) (id : Nat) : State :=
  match s.pgt.ops.find? (fun o => o.id == id) with
  | none => s
  | some op =>
    match op.phase with
    | .waiting => s.tryBegin op
    | .copying =>
      let leaping := op.kind == .adopt && (match s.seq op.seq with
        | some q => q.pt.any (fun e => keyPos e.1 < op.point / 16 && (match s.desc e.2 with | some x => x.state == .inLeap | none => false))
        | none => false)
      if op.kind == .pin then
        if !s.pinAwaits op.seq then (s.setPinned op.seq true).pinEnd op stOK else s
      else if s.pgt.copies.any (fun c => c.op == id) || leaping then s
      else if op.kind == .truncate then s.truncateCopied op
      else s.forkShare op (adoptedOf op)
    | .purging => s.truncateCopied op
    | .mirrored => s
    | .acked => if mayCommit s.pgt.ops op then s.commitOp op else s

/-- Every copy and every operation, in order, goes as far as it can. -/
def State.settleOnce (s : State) : State :=
  let t := s.pgt.copies.foldl State.doCopy s
  (t.pgt.ops.map (·.id)).foldl State.opStep t

/-- That, until a pass leaves the operations and their copies as they were, at most n times. -/
def State.settleFor : Nat → State → State
  | 0, s => s
  | n + 1, s =>
    let t := s.settleOnce
    if t.pgt.ops == s.pgt.ops && t.pgt.copies == s.pgt.copies then t else State.settleFor n t

/-- ABORTs of requests other than queries are answered once the request has ended (R363). -/
def State.answerAborts (s : State) : State :=
  s.cust.held.foldl (fun s h =>
    if h.op != 0x32 then s else
    let t := lat h.payload 0 4
    if s.pgt.ops.any (fun o => o.conduit == h.conduit && o.msgseq == t && o.byWr.isNone) ||
        s.cust.held.any (fun g => g.conduit == h.conduit && g.msgseq == t && g.op != 0x32) then s else
    (s.onCust fun u => { u with held := eraseFirst (fun y => y == h) u.held }).respond h.conduit h.msgseq 6 stALREADY []) s

/-- The order of operations runs until nothing more can happen. -/
def State.settle (s : State) : State :=
  (State.settleFor (4 * s.pgt.ops.length + 4) s).answerAborts

/-! ## Requests that name a handle (R38, R359, R462) -/

def opKind : Nat → Option OpKind
  | 0x01 => some .query
  | 0x08 => some .append
  | 0x09 => some .seal
  | 0x0A => some .fork
  | 0x0B => some .free
  | 0x0C => some .truncate
  | 0x24 => some .info
  | _ => none

/-- The handle a request names. -/
def reqHandle (op : Nat) (p : List Byte) : Nat := if op = 0x24 then lat p 8 8 else lat p 0 8

/-- A request ends with a status and a body (R252, Table 6-3). -/
def State.endRequest (s : State) (c q op : Nat) (p : List Byte) (byWr : Option Nat) (st : Nat) (body : List Byte) : State :=
  if op = 0x01 ∧ (st ≠ stSTALEMAP ∨ byWr.isSome) then s.rejectQuery c p byWr st
  else s.respond c q (serviceOf op 0) st body

/-- A request forwarded to the holder, its result to come by message (R359). -/
def State.forwardReq (s : State) (c q op : Nat) (p : List Byte) (byWr : Option Nat) (holder : Nat) : State :=
  match s.conduitTo holder (s.partOf c) with
  | none =>
    let h := reqHandle op p
    s.endRequest c q op p byWr stSTALEMAP (staleBody (s.fd (Fd.MGT_PART_COMP_MAP_EPOCH (hPart h))) (hHome h) 0)
  | some v =>
    let p' := if op = 0x01 then p.take 36 ++ zeros 4 ++ p.drop 40 else p
    let s := s.onCust fun u => { u with forwarded := u.forwarded ++
      [⟨c, q, v, op, p, if op = 0x01 then qRkey p else 0, lat p 40 8, lat p 48 4, byWr⟩] }
    s.send v op (serviceOf op 0) p' (.forward c q)

/-- The payload is refused before its handle is looked at (R89 step 1, R55, R462). -/
def reqFormatBad (op : Nat) (p : List Byte) : Bool :=
  match op with
  | 0x01 => headerBad p false
  | 0x08 => p.length < 16
  | 0x09 => p.length != 8
  | 0x24 => p.length < 32
  | 0x0B => p.length != 8
  | 0x0C => p.length != 16 || 2 ^ 25 ≤ lat p 8 4 || lat p 12 4 != 0
  | 0x0A => p.length != 24 || 2 ^ 25 ≤ lat p 8 4 || 2 ≤ lat p 13 1 || lat p 14 2 != 0 || (lat p 13 1 == 1 && lat p 0 8 != 0)
  | _ => false

/-- A request that names a handle takes its place, is held, forwarded or refused (Table 16-5). -/
def State.recvNamed (s : State) (c q op : Nat) (p : List Byte) (byWr : Option Nat) : State :=
  let h := reqHandle op p
  if reqFormatBad op p then s.endRequest c q op p byWr stFORMAT []
  else if hPart h ≠ s.partOf c then s.endRequest c q op p byWr stBOUNDS []
  else match s.route h, opKind op with
    | .here k, some kind => (if s.handleOk h (s.partOf c) k then s.confirm k else s).takePlace k kind c q p byWr
    | .here _, none => s
    | .bounds, _ => s.endRequest c q op p byWr stBOUNDS []
    | .hold, _ => s.onCust fun u => { u with held := u.held ++ [⟨c, q, op, p, h, s.usec, byWr⟩] }
    | .forward holder, _ => s.forwardReq c q op p byWr holder
    | .stale me holder ce, _ => s.endRequest c q op p byWr stSTALEMAP (staleBody me holder ce)

/-- A FORK: creation, fork or adoption (R55, R77). A POINT above 16 * MATCHED gets BOUNDS (notes/assumptions/115.md). -/
def State.recvFork (s : State) (c q : Nat) (p : List Byte) (ue : List Nat) : State :=
  if reqFormatBad 0x0A p then s.respond c q 3 stFORMAT []
  else if lat p 0 8 ≠ 0 then s.recvNamed c q 0x0A p none
  else if lat p 13 1 = 0 then s.takePlace noSeq .fork c q p none
  else
    match s.adoptEntry (s.partOf c) p ue with
    | (s, none) => s.respond c q 3 stBOUNDS []
    | (s, some (donor, key, m)) =>
      if 16 * m < lat p 8 4 then s.respond c q 3 stBOUNDS []
      else s.takePlace donor .adopt c q (p ++ le 8 key ++ le 8 m) none

/-- Requests held for a transfer whose outcome is known (R354 step 6). -/
def State.retryHeld (s : State) : State :=
  s.cust.held.foldl (fun s h =>
    if h.op = 0x32 ∨ s.route h.handle = .hold then s else
    let s := s.onCust fun u => { u with held := eraseFirst (fun y => y == h) u.held }
    if h.op = 0x102 then
      let n := lat h.payload 0 4
      match tfind s.ae.batches (n / 1024) with
      | none => s
      | some b =>
        match s.entryRoute b.part (lat b.header 8 1) (le 8 h.handle) with
        | (some st, _) => s.endEntry (n / 1024) (n % 1024) st []
        | (none, some k) => (s.confirm k).takePlace k (.entry n) h.conduit h.msgseq [] none
        | _ => s
    else s.recvNamed h.conduit h.msgseq h.op h.payload h.byWr) s

/-- What follows a change of custody or role: held requests are looked at again, then the order runs. -/
def State.resume (s : State) : State := s.retryHeld.settle

/-! ## The responses of a forwarded request (R359) -/

/-- An ACK or NACK of the holder, relayed under the client's RSEQ. -/
def State.relayResponse (s : State) (f : Forwarded) (status : Nat) (body : List Byte) : State :=
  let s := s.onCust fun u => { u with forwarded := eraseFirst (fun y => y == f) u.forwarded }
  s.endRequest f.conduit f.msgseq f.op f.payload f.byWr status body

/-- A RESULT of the holder, delivered under the original RKEY (Table 6-3). -/
def State.relayResult (s : State) (v : Nat) (p : List Byte) : State :=
  match s.cust.forwarded.find? (fun f => f.via == v && (f.op == 0x01 || f.op == 0x02) && qTag f.payload == lat p 0 8) with
  | none => s
  | some f =>
    let s := s.onCust fun u => { u with forwarded := eraseFirst (fun y => y == f) u.forwarded }
    let st := lat p 8 1
    let s :=
      if f.rkey = 0 ∨ st ≠ stOK then
        s.send f.conduit 0x05 1 (if f.rkey = 0 then p else p.take 12 ++ zeros 4) .plain
      else
        let (ks, r) := s.resultKey (s.partOf f.conduit) f.rkey f.roff (p.length - 16)
        match r with
        | some i => s.remoteWrite i f.roff (some f.imm) (p.drop 16) 1 .plain
        | none => s.send f.conduit 0x05 1 (resultHeader (lat p 0 8) ks (lat p 9 1 % 2 == 1) (lat p 9 1 / 2 % 2 == 1) false 0 0) .plain
    s.endWrOf f.byWr st

/-! ## Meanings -/

def recvOp (c : Conduit) (q : W32) (op : Nat) (p : List Byte) (s : State) : Host.Outcome State Fault Refusal :=
  act s fun s => ((s.takeHanded c.val q.toNat op).recvNamed c.val q.toNat op p none).settle

/-- APPEND (R49, R50). -/
def execAppend (c : Conduit) (q : W32) (p : List Byte) (s : State) : Host.Outcome State Fault Refusal := recvOp c q 0x08 p s

/-- SEAL (R59). -/
def execSealSeq (c : Conduit) (q : W32) (p : List Byte) (s : State) : Host.Outcome State Fault Refusal := recvOp c q 0x09 p s

/-- FORK (R55). -/
def execFork (c : Conduit) (q : W32) (p : List Byte) (s : State) : Host.Outcome State Fault Refusal :=
  act s fun s => ((s.takeHanded c.val q.toNat 0x0A).recvFork c.val q.toNat p []).settle

/-- ADOPT_FORK: a FORK whose ADOPT flag is set (R77). -/
def execAdoptFork (c : Conduit) (q : W32) (p : PdirReq) (s : State) : Host.Outcome State Fault Refusal :=
  act s fun s => ((s.takeHanded c.val q.toNat 0x0A).recvFork c.val q.toNat p.payload p.ue).settle

/-- TRUNCATE (R58). -/
def execTruncate (c : Conduit) (q : W32) (p : List Byte) (s : State) : Host.Outcome State Fault Refusal := recvOp c q 0x0C p s

/-- FREE (R60). -/
def execFree (c : Conduit) (q : W32) (p : List Byte) (s : State) : Host.Outcome State Fault Refusal := recvOp c q 0x0B p s

/-- QUERY (R89). -/
def execQuery (c : Conduit) (q : W32) (p : List Byte) (s : State) : Host.Outcome State Fault Refusal := recvOp c q 0x01 p s

/-- BATCH_QUERY (R91). -/
def execBatchQuery (c : Conduit) (q : W32) (p : List Byte) (s : State) : Host.Outcome State Fault Refusal :=
  act s fun s => ((s.takeHanded c.val q.toNat 0x02).recvBatch c.val q.toNat p none).settle

/-- PURGE_REGISTER: the TRUNCATEs of a donor that wait for a filter entry look for one (R81). -/
def execPurgeRegister (idx : Nat) (s : State) : Host.Outcome State Fault Refusal :=
  act s fun s =>
    let ids := (s.pgt.ops.filter (fun o => o.seq == idx && o.phase == .purging)).map (·.id)
    (ids.foldl State.opStep s).settle

/-- PURGE_PASS_DONE: the walker has visited every set for filter entry k; a TRUNCATE that waited may go on (R81). -/
def execPurgePassDone (k : Fin 64) (s : State) : Host.Outcome State Fault Refusal :=
  act s fun s => (s.purgePass k.val).settle

end Sys2Proof.Machine
end

