-- ==== Sys2Proof/Machine/Gecko.lean ====
section
/-! DEFINITION. The gecko as a machine: its spaces, its instructions, its registers (R200-R213). A command that is an
instruction takes place when the gecko runs and the word at its PC is that instruction. Geckos are numbered
stack * 32 + gecko. -/

namespace Sys2Proof.Machine

/-! ## Words (R202, R203) -/

/-- The word of a format A instruction. -/
def wordA (op d a b imm : Nat) : Nat := op * 2 ^ 26 + d * 2 ^ 22 + a * 2 ^ 18 + b * 2 ^ 14 + imm

/-- The word of a format U instruction. -/
def wordU (op d imm : Nat) : Nat := op * 2 ^ 26 + d * 2 ^ 22 + imm

/-- An operation code of Table 10-2 with its unused fields zero and its vector fields in range (R202). -/
def legalWord (w : Nat) : Bool :=
  let op := bits w 31 26
  let d := bits w 25 22
  let a := bits w 21 18
  let b := bits w 17 14
  let imm := bits w 13 0
  if op = 0 then false
  else if op ≤ 0x0B then imm == 0
  else if 0x10 ≤ op ∧ op ≤ 0x15 then b == 0
  else if op = 0x16 ∨ op = 0x24 then a == 0
  else if op = 0x18 ∨ op = 0x1A ∨ op = 0x25 ∨ op = 0x28 ∨ op = 0x2B then b == 0
  else if op = 0x19 ∨ op = 0x1B ∨ (0x20 ≤ op ∧ op ≤ 0x23) ∨ op = 0x29 then d == 0
  else if op = 0x2A then d == 0 || d == 4
  else if op = 0x2C ∨ op = 0x2D then (d == 0 || d == 4) && b == 0
  else if op = 0x2E ∨ op = 0x2F then d < 8 && b == 0
  else if 0x30 ≤ op ∧ op ≤ 0x33 then d < 8 && a < 8 && b < 8 && imm == 0
  else if op = 0x34 then d < 8 && d % 2 == 0 && a < 8 && imm < 32 && (fmtOf (imm % 16)).isSome
  else if op = 0x35 then a < 8 && b == 0 && imm < 32
  else if op = 0x36 then d < 8 && a == 0 && imm == 0
  else if op = 0x38 then a < 8 && d == 0 && b == 0 && imm == 0
  else if op = 0x39 then d < 8 && a == 0 && b == 0 && imm == 0
  else if op = 0x3C then a == 0 && b == 0 && imm == 0
  else if op = 0x3D then d == 0 && b == 0 && imm < 256
  else if op = 0x3F then d == 0 && a == 0 && b == 0 && imm < 256
  else false

/-- imm14 and imm18 sign-extended, as 32-bit words. -/
def sext14 (i : BitVec 14) : W32 := i.signExtend 32
def zext14 (i : BitVec 14) : W32 := i.zeroExtend 32

/-! ## Registers -/

def Gecko.reg (g : Gecko) (i : Nat) : W32 := if i = 0 then 0 else (g.regs[i]?).getD 0
def Gecko.vreg (g : Gecko) (i : Nat) : BitVec 256 := (g.vregs[i]?).getD 0

/-- A register written; g0 discards the value. -/
def Gecko.setReg (g : Gecko) (i : Nat) (v : W32) : Gecko := if i = 0 then g else { g with regs := g.regs.setIfInBounds i v }
def Gecko.setV (g : Gecko) (i : Nat) (v : BitVec 256) : Gecko := { g with vregs := g.vregs.setIfInBounds i v }

/-- The bytes of a vector register, lowest first, and the register they make. -/
def vbytes (v : BitVec 256) : List Byte := le 32 v.toNat
def ofVbytes (l : List Byte) : BitVec 256 := BitVec.ofNat 256 (unle (l.take 32))

/-- Four vector registers from d on, set to a group. -/
def Gecko.setGroup (g : Gecko) (d : Nat) (l : List Byte) : Gecko :=
  (List.range 4).foldl (fun g i => g.setV (d + i) (ofVbytes (slice l (32 * i) 32))) g
def Gecko.group (g : Gecko) (d : Nat) : List Byte := (List.range 4).flatMap fun i => vbytes (g.vreg (d + i))

/-- The PC moves on; PC arithmetic wraps modulo 2,048. -/
def Gecko.next (g : Gecko) : Gecko := { g with pc := g.pc + 1 }
def Gecko.jump (g : Gecko) (t : Nat) : Gecko := { g with pc := BitVec.ofNat 11 t }

/-! ## The local space (R201) -/

/-- A byte of the local space: scratch, command area, cycle counter, index, flags. -/
def Gecko.localByte (g : Gecko) (k a : Nat) : Byte :=
  if a < 0x4000 then tget 0 g.scratch a
  else if a < 0x4100 then tget 0 g.cmd (a - 0x4000)
  else
    let w := if a < 0x4104 then g.cycles.toNat else if a < 0x4108 then k % 32 + k / 32 * 32
      else (if g.ue then 1 else 0) + (if g.unbounded then 2 else 0)
    BitVec.ofNat 8 (w / 256 ^ (a % 4))

def Gecko.localRead (g : Gecko) (k a n : Nat) : List Byte := (List.range n).map fun i => g.localByte k (a + i)

/-- Bytes written in the local space; the words from 0x4100 on are read-only, but 0 written to the flags clears them. -/
def Gecko.localWrite (g : Gecko) (a : Nat) (l : List Byte) : Gecko :=
  if a < 0x4000 then { g with scratch := putBytes g.scratch a l }
  else if a < 0x4100 then { g with cmd := putBytes g.cmd (a - 0x4000) l }
  else if a = 0x4108 ∧ unle l = 0 then { g with ue := false, unbounded := false }
  else g

/-! ## Outcomes (R204) -/

/-- Why an instruction faults (Table 10-10). -/
inductive GkFault where
  | illegal | localAddr | chanAddr | align | fence
  deriving DecidableEq, Repr

/-- What an instruction comes to. -/
inductive GkRes where
  | ok (s : State) (g : Gecko)
  /-- It waits; nothing is written. -/
  | wait
  /-- It stalls on a full ring; nothing is written (R210). -/
  | stall
  | fault (f : GkFault)
  /-- HALT with its code. -/
  | halt (code : Nat)

def GkFault.field (k : Nat) : GkFault → Fd
  | .illegal => Fd.GK_ERR_ILLEGAL (k / 32) (k % 32)
  | .localAddr => Fd.GK_ERR_LOCAL_ADDR (k / 32) (k % 32)
  | .chanAddr => Fd.GK_ERR_CHAN_ADDR (k / 32) (k % 32)
  | .align => Fd.GK_ERR_ALIGN (k / 32) (k % 32)
  | .fence => Fd.GK_ERR_WRITE_FENCE (k / 32) (k % 32)

/-- The gecko halts: every slot running or pending completes with FORMAT. -/
def State.gkHalt (s : State) (k code : Nat) : State :=
  let job := (s.gk k).onJob
  let s := (s.gkComplete k stFORMAT).memoryEvent k 1 0 0xFFFFFFFF code
  ((s.setGk k { s.gk k with state := .halted }).setFd (Fd.HBM_CH_STATUS_GK_HALTED (k / 32) (k % 32)) 1).gkCounted k job

/-- The gecko has been started and has not stopped. -/
def Gecko.started (g : Gecko) : Bool := g.state == .running || g.state == .waiting || g.state == .stalled

/-- The gecko may run: it is started and no refresh or retraining holds it, its stack grants gecko time (R427), its channel is in
service. -/
def State.gkRuns (s : State) (k : Nat) : Bool :=
  (s.gk k).started && (s.gk k).stallLeft == 0 && s.flag (Fd.HBM_CTL_GK_ENABLE (k / 32)) && s.chanUsable k && s.awake

/-- The word at the PC. -/
def Gecko.fetch (g : Gecko) : Nat := (tget 0 g.store g.pc.toNat).toNat

/-- An instruction takes place (R203, R204): an illegal word or a fault halts the gecko before it writes anything. -/
def State.gkExec (s : State) (k : Nat) (word : Nat) (f : State → Gecko → GkRes) : State :=
  let g := s.gk k
  if !s.gkRuns k || g.fetch != word then s else
  let g := { g with state := .running, cycles := g.cycles + 1 }
  match (if legalWord word then f s g else .fault .illegal) with
  | .ok s g => s.setGk k g
  | .wait => s.setGk k { g with state := .waiting }
  | .stall => s.setGk k { g with state := .stalled }
  | .fault c => (s.raise (c.field k)).gkHalt k 0
  | .halt code =>
    ((s.raise (Fd.GK_ERR_HALT (k / 32) (k % 32))).setFd (Fd.GK_ERR_HALT_CODE (k / 32) (k % 32)) code).gkHalt k code

/-- A scalar result: gd is written and the PC moves on. -/
def gkSet (f : Gecko → W32) (d : Nat) : State → Gecko → GkRes := fun s g => .ok s (g.setReg d (f g)).next

/-- A scalar register operation. -/
def State.gkAlu (s : State) (op : Nat) (k : Fin 256) (d a b : Fin 16) (imm : BitVec 14) (f : W32 → W32 → W32) : State :=
  s.gkExec k.val (wordA op d.val a.val b.val imm.toNat) (gkSet (fun g => f (g.reg a.val) (g.reg b.val)) d.val)

/-- A scalar operation with the immediate. -/
def State.gkImm (s : State) (op : Nat) (k : Fin 256) (d a b : Fin 16) (imm : BitVec 14) (f : W32 → BitVec 14 → W32) : State :=
  s.gkExec k.val (wordA op d.val a.val b.val imm.toNat) (gkSet (fun g => f (g.reg a.val) imm) d.val)

/-- A branch: the offset counts from the branch itself. -/
def State.gkBranch (s : State) (op : Nat) (k : Fin 256) (d a b : Fin 16) (imm : BitVec 14) (c : W32 → W32 → Bool) : State :=
  s.gkExec k.val (wordA op d.val a.val b.val imm.toNat) fun s g =>
    .ok s (if c (g.reg a.val) (g.reg b.val) then { g with pc := g.pc + imm.setWidth 11 } else g.next)

/-- A local access of n bytes at ga + imm14, aligned to al. -/
def gkLocal (g : Gecko) (a : Nat) (imm : BitVec 14) (n al top : Nat) (f : Nat → GkRes) : GkRes :=
  let at_ := (g.reg a + sext14 imm).toNat
  if top < at_ + n then .fault .localAddr else if at_ % al ≠ 0 then .fault .align else f at_

/-- A channel access of n bytes at ga + imm14, aligned to n. -/
def gkChan (g : Gecko) (a : Nat) (imm : BitVec 14) (n : Nat) (f : Nat → GkRes) : GkRes :=
  let at_ := (g.reg a + sext14 imm).toNat
  if 0x7C000000 < at_ + n then .fault .chanAddr else if at_ % n ≠ 0 then .fault .align else f at_

/-- A channel write lies in an entry of the kinds allowed (R205). -/
def State.fenceOk (s : State) (k a n : Nat) (kinds : List LockKind) : Bool :=
  ((tfind s.hb.locks k).getD []).any fun e => kinds.contains e.kind && e.start ≤ a && a + n ≤ e.start + e.len

/-! ## Reads of the channel (R195, R203) -/

/-- The symbols a read of the group at p finds in error, as those of a command. -/
def groupErrs (k p : Nat) (errs : Syms) : Errs := if errs.isEmpty then [] else [(devAddr k p, errs)]

/-- A load ends, and then the errors it met count: they may stop the gecko (R216, R338). -/
def State.gkLoaded (s : State) (k : Nat) (g : Gecko) (errs : State → State) : GkRes :=
  let s := errs (s.setGk k g)
  .ok s (s.gk k)

/-- VHALB's halving of one byte in each 32-byte quarter of a group; a descriptor's HEAT is byte 11 of its 32 (R167). -/
def State.halveGroup (s : State) (a i : Nat) : State :=
  let s := (List.range 4).foldl (fun s j =>
    s.hbmWrite (a + 32 * j + i) [BitVec.ofNat 8 ((byteOf s.hbm (a + 32 * j + i)).toNat / 2)]) s
  if i ≠ 11 then s else
  match s.pgt.chunks.zipIdx.find? (fun c => c.1 * 2048 ≤ a && a < c.1 * 2048 + 2 ^ 21) with
  | none => s
  | some (c, n) => (List.range 4).foldl (fun s j =>
      s.modDesc (n * 65536 + (a - c * 2048) / 32 + j) fun x => { x with heat := x.heat / 2 }) s

/-! ## VDIG (R132) -/

/-- The elements of a vector register in a format, with one scale byte, and the position of the first. -/
def digElems (fmt sc half : Nat) (v : List Byte) : List W32 × Nat :=
  match fmtOf fmt with
  | none => ([], 0)
  | some f =>
    let row := if f = .m4 then slice v (16 * half) 16 else v
    let n := if f = .b16 then 16 else if f = .f32 then 8 else 32
    ((List.range n).map (fun i => if f.scaled then applyScale (rowElem f row i) sc else rowElem f row i),
      if f = .b16 then 16 * half else 0)

/-- MIN and MAX of a position updated; a NaN changes neither. -/
def digUpdate (mn mx : List Byte) (i : Nat) (x : W32) : List Byte × List Byte :=
  if fIsNaN x then (mn, mx) else
  let lo := toF8B .down x
  let hi := toF8B .up x
  (if fLt (decF8B lo.toNat) (decF8B (byteAt mn i)) then mn.set i lo else mn,
   if fLt (decF8B (byteAt mx i)) (decF8B hi.toNat) then mx.set i hi else mx)

/-! ## Meanings: arithmetic -/

/-- ADD (R203). -/
def execAdd (k : Fin 256) (d a b : Fin 16) (imm : BitVec 14) (s : State) : Host.Outcome State Fault Refusal :=
  act s fun s => s.gkAlu 0x01 k d a b imm (· + ·)

/-- SUB (R203). -/
def execSub (k : Fin 256) (d a b : Fin 16) (imm : BitVec 14) (s : State) : Host.Outcome State Fault Refusal :=
  act s fun s => s.gkAlu 0x02 k d a b imm (· - ·)

/-- AND (R203). -/
def execAnd (k : Fin 256) (d a b : Fin 16) (imm : BitVec 14) (s : State) : Host.Outcome State Fault Refusal :=
  act s fun s => s.gkAlu 0x03 k d a b imm (· &&& ·)

/-- OR (R203). -/
def execOr (k : Fin 256) (d a b : Fin 16) (imm : BitVec 14) (s : State) : Host.Outcome State Fault Refusal :=
  act s fun s => s.gkAlu 0x04 k d a b imm (· ||| ·)

/-- XOR (R203). -/
def execXor (k : Fin 256) (d a b : Fin 16) (imm : BitVec 14) (s : State) : Host.Outcome State Fault Refusal :=
  act s fun s => s.gkAlu 0x05 k d a b imm (· ^^^ ·)

/-- SHL: shifted by gb and 31 (R203). -/
def execShl (k : Fin 256) (d a b : Fin 16) (imm : BitVec 14) (s : State) : Host.Outcome State Fault Refusal :=
  act s fun s => s.gkAlu 0x06 k d a b imm fun x y => x <<< (y.toNat % 32)

/-- SHR (R203). -/
def execShr (k : Fin 256) (d a b : Fin 16) (imm : BitVec 14) (s : State) : Host.Outcome State Fault Refusal :=
  act s fun s => s.gkAlu 0x07 k d a b imm fun x y => x >>> (y.toNat % 32)

/-- SRA (R203). -/
def execSra (k : Fin 256) (d a b : Fin 16) (imm : BitVec 14) (s : State) : Host.Outcome State Fault Refusal :=
  act s fun s => s.gkAlu 0x08 k d a b imm fun x y => x.sshiftRight (y.toNat % 32)

/-- MUL: the low 32 bits (R203). -/
def execMul (k : Fin 256) (d a b : Fin 16) (imm : BitVec 14) (s : State) : Host.Outcome State Fault Refusal :=
  act s fun s => s.gkAlu 0x09 k d a b imm (· * ·)

/-- SLTU (R203). -/
def execSltu (k : Fin 256) (d a b : Fin 16) (imm : BitVec 14) (s : State) : Host.Outcome State Fault Refusal :=
  act s fun s => s.gkAlu 0x0A k d a b imm fun x y => if x.toNat < y.toNat then 1 else 0

/-- SLT (R203). -/
def execSlt (k : Fin 256) (d a b : Fin 16) (imm : BitVec 14) (s : State) : Host.Outcome State Fault Refusal :=
  act s fun s => s.gkAlu 0x0B k d a b imm fun x y => if x.toInt < y.toInt then 1 else 0

/-- ADDI (R203). -/
def execAddi (k : Fin 256) (d a b : Fin 16) (imm : BitVec 14) (s : State) : Host.Outcome State Fault Refusal :=
  act s fun s => s.gkImm 0x10 k d a b imm fun x i => x + sext14 i

/-- ANDI: imm14 zero-extended (R203). -/
def execAndi (k : Fin 256) (d a b : Fin 16) (imm : BitVec 14) (s : State) : Host.Outcome State Fault Refusal :=
  act s fun s => s.gkImm 0x11 k d a b imm fun x i => x &&& zext14 i

/-- ORI (R203). -/
def execOri (k : Fin 256) (d a b : Fin 16) (imm : BitVec 14) (s : State) : Host.Outcome State Fault Refusal :=
  act s fun s => s.gkImm 0x12 k d a b imm fun x i => x ||| zext14 i

/-- XORI (R203). -/
def execXori (k : Fin 256) (d a b : Fin 16) (imm : BitVec 14) (s : State) : Host.Outcome State Fault Refusal :=
  act s fun s => s.gkImm 0x13 k d a b imm fun x i => x ^^^ zext14 i

/-- SHLI: shifted by imm14 bits 4:0 (R203). -/
def execShli (k : Fin 256) (d a b : Fin 16) (imm : BitVec 14) (s : State) : Host.Outcome State Fault Refusal :=
  act s fun s => s.gkImm 0x14 k d a b imm fun x i => x <<< (i.toNat % 32)

/-- SHRI (R203). -/
def execShri (k : Fin 256) (d a b : Fin 16) (imm : BitVec 14) (s : State) : Host.Outcome State Fault Refusal :=
  act s fun s => s.gkImm 0x15 k d a b imm fun x i => x >>> (i.toNat % 32)

/-- LUI: gd = imm18 << 14 (R203). -/
def execLui (k : Fin 256) (gd : Fin 16) (imm : BitVec 18) (s : State) : Host.Outcome State Fault Refusal :=
  act s fun s => s.gkExec k.val (wordU 0x16 gd.val imm.toNat) (gkSet (fun _ => imm.zeroExtend 32 <<< 14) gd.val)

/-! ## Meanings: the local space -/

/-- LDW (R203). -/
def execLdw (k : Fin 256) (d a b : Fin 16) (imm : BitVec 14) (s : State) : Host.Outcome State Fault Refusal :=
  act s fun s => s.gkExec k.val (wordA 0x18 d.val a.val b.val imm.toNat) fun s g =>
    gkLocal g a.val imm 4 4 0x410C fun p => .ok s (g.setReg d.val (BitVec.ofNat 32 (unle (g.localRead k.val p 4)))).next

/-- STW: the local word at ga + imm14 = gb (R203). -/
def execStw (k : Fin 256) (d a b : Fin 16) (imm : BitVec 14) (s : State) : Host.Outcome State Fault Refusal :=
  act s fun s => s.gkExec k.val (wordA 0x19 d.val a.val b.val imm.toNat) fun s g =>
    gkLocal g a.val imm 4 4 0x410C fun p => .ok s (g.localWrite p (le 4 (g.reg b.val).toNat)).next

/-- LDB: a zero-extended byte (R203). -/
def execLdb (k : Fin 256) (d a b : Fin 16) (imm : BitVec 14) (s : State) : Host.Outcome State Fault Refusal :=
  act s fun s => s.gkExec k.val (wordA 0x1A d.val a.val b.val imm.toNat) fun s g =>
    gkLocal g a.val imm 1 1 0x410C fun p => .ok s (g.setReg d.val (BitVec.ofNat 32 (unle (g.localRead k.val p 1)))).next

/-- STB (R203). -/
def execStb (k : Fin 256) (d a b : Fin 16) (imm : BitVec 14) (s : State) : Host.Outcome State Fault Refusal :=
  act s fun s => s.gkExec k.val (wordA 0x1B d.val a.val b.val imm.toNat) fun s g =>
    gkLocal g a.val imm 1 1 0x410C fun p => .ok s (g.localWrite p (le 1 (g.reg b.val).toNat)).next

/-- VLDL: vd = local 32 bytes at ga + imm14 (R203). -/
def execVldl (k : Fin 256) (d a b : Fin 16) (imm : BitVec 14) (s : State) : Host.Outcome State Fault Refusal :=
  act s fun s => s.gkExec k.val (wordA 0x2E d.val a.val b.val imm.toNat) fun s g =>
    gkLocal g a.val imm 32 32 0x4100 fun p => .ok s (g.setV d.val (ofVbytes (g.localRead k.val p 32))).next

/-- VSTL (R203). -/
def execVstl (k : Fin 256) (d a b : Fin 16) (imm : BitVec 14) (s : State) : Host.Outcome State Fault Refusal :=
  act s fun s => s.gkExec k.val (wordA 0x2F d.val a.val b.val imm.toNat) fun s g =>
    gkLocal g a.val imm 32 32 0x4100 fun p => .ok s (g.localWrite p (vbytes (g.vreg d.val))).next

/-! ## Meanings: control -/

/-- BEQ (R203). -/
def execBeq (k : Fin 256) (d a b : Fin 16) (imm : BitVec 14) (s : State) : Host.Outcome State Fault Refusal :=
  act s fun s => s.gkBranch 0x20 k d a b imm fun x y => x == y

/-- BNE (R203). -/
def execBne (k : Fin 256) (d a b : Fin 16) (imm : BitVec 14) (s : State) : Host.Outcome State Fault Refusal :=
  act s fun s => s.gkBranch 0x21 k d a b imm fun x y => x != y

/-- BLTU (R203). -/
def execBltu (k : Fin 256) (d a b : Fin 16) (imm : BitVec 14) (s : State) : Host.Outcome State Fault Refusal :=
  act s fun s => s.gkBranch 0x22 k d a b imm fun x y => decide (x.toNat < y.toNat)

/-- BGEU (R203). -/
def execBgeu (k : Fin 256) (d a b : Fin 16) (imm : BitVec 14) (s : State) : Host.Outcome State Fault Refusal :=
  act s fun s => s.gkBranch 0x23 k d a b imm fun x y => decide (y.toNat ≤ x.toNat)

/-- JAL: gd = PC + 1; PC = PC + imm18 (R203). -/
def execJal (k : Fin 256) (gd : Fin 16) (imm : BitVec 18) (s : State) : Host.Outcome State Fault Refusal :=
  act s fun s => s.gkExec k.val (wordU 0x24 gd.val imm.toNat) fun s g =>
    .ok s { g.setReg gd.val ((g.pc + 1).zeroExtend 32) with pc := g.pc + imm.setWidth 11 }

/-- JALR: gd = PC + 1; PC = ga + imm14 (R203). -/
def execJalr (k : Fin 256) (d a b : Fin 16) (imm : BitVec 14) (s : State) : Host.Outcome State Fault Refusal :=
  act s fun s => s.gkExec k.val (wordA 0x25 d.val a.val b.val imm.toNat) fun s g =>
    .ok s { g.setReg d.val ((g.pc + 1).zeroExtend 32) with pc := (g.reg a.val + sext14 imm).setWidth 11 }

/-! ## Meanings: the channel -/

/-- HLD: gd = the channel word at ga + imm14; an uncorrectable block leaves the value open (R195, R203). -/
def execHld (k : Fin 256) (d a b : Fin 16) (imm : BitVec 14) (errs : Syms) (s : State) : Host.Outcome State Fault Refusal :=
  act s fun s => s.gkExec k.val (wordA 0x28 d.val a.val b.val imm.toNat) fun s g =>
    gkChan g a.val imm 4 fun p =>
      let at_ := devAddr k.val p
      let es := groupErrs k.val p errs
      let bad := !(s.badBlocks es at_ 4).isEmpty
      let v := if bad then Config.pick s.free else unle (s.hbmFetch es at_ 4)
      (if bad then s.drawn else s).gkLoaded k.val (g.setReg d.val (BitVec.ofNat 32 v)).next (·.eccRange es at_ 4)

/-- HST: the channel word at ga + imm14 = gb, inside a LOCK or WIN entry, as a read-modify-write (R196, R203, R205). -/
def execHst (k : Fin 256) (d a b : Fin 16) (x : Rewrite) (s : State) : Host.Outcome State Fault Refusal :=
  act s fun s => s.gkExec k.val (wordA 0x29 d.val a.val b.val x.imm.toNat) fun s g =>
    gkChan g a.val x.imm 4 fun p =>
      let es := groupErrs k.val p x.errs
      if s.fenceOk k.val p 4 [.lock, .win] then
        (s.hbmRmw es (devAddr k.val p) (le 4 (g.reg b.val).toNat)).gkLoaded k.val g.next (·.eccRange es (devAddr k.val p) 4)
      else .fault .fence

/-- VHALB: vd..vd+3 = the old group, then byte (gb and 31) of each quarter is halved, inside an ATOM entry (R203, R205). -/
def execVhalb (k : Fin 256) (d a b : Fin 16) (x : Rewrite) (s : State) : Host.Outcome State Fault Refusal :=
  act s fun s => s.gkExec k.val (wordA 0x2A d.val a.val b.val x.imm.toNat) fun s g =>
    gkChan g a.val x.imm 128 fun p =>
      if s.fenceOk k.val p 128 [.atom] then
        let at_ := devAddr k.val p
        let es := groupErrs k.val p x.errs
        let s := s.writeBack es at_ 128
        (s.halveGroup at_ ((g.reg b.val).toNat % 32)).gkLoaded k.val (g.setGroup d.val (s.hbmRead at_ 128)).next (·.eccRange es at_ 128)
      else .fault .fence

/-- VFIX: gd = 0 clean, 1 corrected, 2 uncorrectable; a group with a corrected block is written back (R203). -/
def execVfix (k : Fin 256) (d a b : Fin 16) (imm : BitVec 14) (errs : Syms) (s : State) : Host.Outcome State Fault Refusal :=
  act s fun s => s.gkExec k.val (wordA 0x2B d.val a.val b.val imm.toNat) fun s g =>
    gkChan g a.val imm 128 fun p =>
      let at_ := devAddr k.val p
      let es := groupErrs k.val p errs
      let r := s.readGroup es at_
      let v : W32 := if r.isBad then 2 else if r.isClean then 0 else 1
      (if r.isClean then s else s.writeBack es at_ 128).gkLoaded k.val (({ g with ue := g.ue || r.isBad }).setReg d.val v).next
        (·.eccRange es at_ 128)

/-- VLD: vd..vd+3 = the group at ga + imm14 (R203). -/
def execVld (k : Fin 256) (d a b : Fin 16) (imm : BitVec 14) (errs : Syms) (s : State) : Host.Outcome State Fault Refusal :=
  act s fun s => s.gkExec k.val (wordA 0x2C d.val a.val b.val imm.toNat) fun s g =>
    gkChan g a.val imm 128 fun p =>
      let at_ := devAddr k.val p
      let es := groupErrs k.val p errs
      let r := s.readGroup es at_
      s.gkLoaded k.val (({ g with ue := g.ue || r.isBad }).setGroup d.val r.data).next (·.eccRange es at_ 128)

/-- VST: the group at ga + imm14 = vd..vd+3, inside a LOCK or WIN entry (R203, R205). -/
def execVst (k : Fin 256) (d a b : Fin 16) (imm : BitVec 14) (s : State) : Host.Outcome State Fault Refusal :=
  act s fun s => s.gkExec k.val (wordA 0x2D d.val a.val b.val imm.toNat) fun s g =>
    gkChan g a.val imm 128 fun p =>
      if s.fenceOk k.val p 128 [.lock, .win] then .ok (s.hbmWrite (devAddr k.val p) (g.group d.val)) g.next
      else .fault .fence

/-! ## Meanings: vectors -/

/-- A vector operation of va and vb. -/
def State.gkVec (s : State) (op : Nat) (k : Fin 256) (d a b : Fin 16) (imm : BitVec 14)
    (f : BitVec 256 → BitVec 256 → BitVec 256) : State :=
  s.gkExec k.val (wordA op d.val a.val b.val imm.toNat) fun s g =>
    .ok s (g.setV d.val (f (g.vreg a.val) (g.vreg b.val))).next

/-- VXOR (R203). -/
def execVxor (k : Fin 256) (d a b : Fin 16) (imm : BitVec 14) (s : State) : Host.Outcome State Fault Refusal :=
  act s fun s => s.gkVec 0x30 k d a b imm (· ^^^ ·)

/-- VAND (R203). -/
def execVand (k : Fin 256) (d a b : Fin 16) (imm : BitVec 14) (s : State) : Host.Outcome State Fault Refusal :=
  act s fun s => s.gkVec 0x31 k d a b imm (· &&& ·)

/-- VOR (R203). -/
def execVor (k : Fin 256) (d a b : Fin 16) (imm : BitVec 14) (s : State) : Host.Outcome State Fault Refusal :=
  act s fun s => s.gkVec 0x32 k d a b imm (· ||| ·)

/-- Eight lanes of 32 bits added. -/
def addLanes (x y : BitVec 256) : BitVec 256 :=
  ofVbytes ((List.range 8).flatMap fun i => le 4 ((bits x.toNat (32 * i + 31) (32 * i) + bits y.toNat (32 * i + 31) (32 * i)) % 2 ^ 32))

/-- VADDW (R203). -/
def execVaddw (k : Fin 256) (d a b : Fin 16) (imm : BitVec 14) (s : State) : Host.Outcome State Fault Refusal :=
  act s fun s => s.gkVec 0x33 k d a b imm addLanes

/-- VDIG: the digest update of R132. -/
def execVdig (k : Fin 256) (d a b : Fin 16) (imm : BitVec 14) (s : State) : Host.Outcome State Fault Refusal :=
  act s fun s => s.gkExec k.val (wordA 0x34 d.val a.val b.val imm.toNat) fun s g =>
    let sc := (g.reg b.val).toNat % 256
    let (xs, from_) := digElems (imm.toNat % 16) sc (imm.toNat / 16 % 2) (vbytes (g.vreg a.val))
    let (mn, mx) := (xs.zipIdx).foldl (fun (r : List Byte × List Byte) (x, i) => digUpdate r.1 r.2 (from_ + i) x)
      (vbytes (g.vreg d.val), vbytes (g.vreg (d.val + 1)))
    let scaled := ((fmtOf (imm.toNat % 16)).map Fmt.scaled).getD false
    let ub := xs.any (fun x => !fIsFinite x) || (scaled && sc == 255)
    .ok s ((({ g with unbounded := g.unbounded || ub }).setV d.val (ofVbytes mn)).setV (d.val + 1) (ofVbytes mx)).next

/-- VCRC: gd's CRC-32C context updated with the first (imm14 bits 4:0) + 1 bytes of va (R203). -/
def execVcrc (k : Fin 256) (d a b : Fin 16) (imm : BitVec 14) (s : State) : Host.Outcome State Fault Refusal :=
  act s fun s => s.gkExec k.val (wordA 0x35 d.val a.val b.val imm.toNat) fun s g =>
    .ok s (g.setReg d.val (BitVec.ofNat 32 (crc32cFrom (g.reg d.val).toNat
      ((vbytes (g.vreg a.val)).take (imm.toNat % 32 + 1))))).next

/-- VBCAST: every byte of vd = gb bits 7:0 (R203). -/
def execVbcast (k : Fin 256) (d a b : Fin 16) (imm : BitVec 14) (s : State) : Host.Outcome State Fault Refusal :=
  act s fun s => s.gkExec k.val (wordA 0x36 d.val a.val b.val imm.toNat) fun s g =>
    .ok s (g.setV d.val (ofVbytes (List.replicate 32 ((g.reg b.val).setWidth 8)))).next

/-! ## Meanings: the ring and jobs (R206, R207, R210) -/

/-- RSEND: va to the gecko whose index is ga bits 4:0; a full receiver stalls the sender (R210). -/
def execRsend (k : Fin 256) (d a b : Fin 16) (imm : BitVec 14) (s : State) : Host.Outcome State Fault Refusal :=
  act s fun s => s.gkExec k.val (wordA 0x38 d.val a.val b.val imm.toNat) fun s g =>
    let r := k.val / 32 * 32 + (g.reg a.val).toNat % 32
    let put := fun (h : Gecko) => { h with inbox := h.inbox ++ [(k.val % 32, g.vreg a.val)] }
    let h := if r = k.val then g else s.gk r
    if 4 ≤ h.inbox.length then .stall
    else if r = k.val then .ok s (put g).next
    else .ok (s.setGk r (put h)) g.next

/-- RRECV: vd = the data of the first ring message, gd = its sender's index (R210). -/
def execRrecv (k : Fin 256) (d a b : Fin 16) (imm : BitVec 14) (s : State) : Host.Outcome State Fault Refusal :=
  act s fun s => s.gkExec k.val (wordA 0x39 d.val a.val b.val imm.toNat) fun s g =>
    match g.inbox with
    | [] => .wait
    | (i, v) :: l => .ok s ((({ g with inbox := l }).setV d.val v).setReg d.val (BitVec.ofNat 32 i)).next

/-- WAITD: gd = the lowest rung slot, whose pending bit is cleared (R206). -/
def execWaitd (k : Fin 256) (d a b : Fin 16) (imm : BitVec 14) (s : State) : Host.Outcome State Fault Refusal :=
  act s fun s => s.gkExec k.val (wordA 0x3C d.val a.val b.val imm.toNat) fun s g =>
    match (List.range 8).find? (g.rung.contains ·) with
    | none => .wait
    | some n => .ok s (({ g with
        rung := g.rung.filter (· != n), busy := g.busy.filter (· != n) ++ [n], since := s.mtime }).setReg d.val (BitVec.ofNat 32 n)).next

/-- DONEJ: the job in slot ga ends with STATUS imm14 bits 7:0 (R207). -/
def execDonej (k : Fin 256) (d a b : Fin 16) (imm : BitVec 14) (s : State) : Host.Outcome State Fault Refusal :=
  act s fun s => s.gkExec k.val (wordA 0x3D d.val a.val b.val imm.toNat) fun s g =>
    let s := (s.setGk k.val g.next).slotDone k.val ((g.reg a.val).toNat % 8) imm.toNat
    .ok s (s.gk k.val)

/-- HALT: stop; GK_ERR.HALT_CODE = imm14 bits 7:0 (R203). -/
def execHalt (k : Fin 256) (d a b : Fin 16) (imm : BitVec 14) (s : State) : Host.Outcome State Fault Refusal :=
  act s fun s => s.gkExec k.val (wordA 0x3F d.val a.val b.val imm.toNat) fun _ _ => .halt imm.toNat

/-- ILLEGAL_OPCODE: the word at the PC is none of Table 10-2's, or a field of it is not as R202 says (R204). -/
def execIllegalOpcode (k : Fin 256) (s : State) : Host.Outcome State Fault Refusal :=
  act s fun s => if legalWord (s.gk k.val).fetch then s else s.gkExec k.val (s.gk k.val).fetch fun _ _ => .fault .illegal

/-! ## Meanings: the registers of a gecko (Table 10-10) -/

/-- A store to GK_CTL: reset, stop, run. -/
def State.gkCtl (s : State) (k : Nat) (v : Word) : State :=
  let st := k / 32
  let i := k % 32
  let stopped := s.flag (Fd.GK_CTL_STOP st i) && s.flag (Fd.GK_CTL_RUN st i)
  let s := s.storeFields 0 (Reg.GK_CTL st i) v.toNat
  let s := if bits v.toNat 1 1 = 1 then
      let g := s.gk k
      (((s.setGk k { g with
        regs := Vector.replicate 16 0, vregs := Vector.replicate 8 0, pc := 0, rung := [], busy := [], state := .stopped }).setFd
        (Fd.GK_READY_READY st i) 0).setFd (Fd.HBM_CH_STATUS_GK_HALTED st i) 0)
    else s
  let g := s.gk k
  if bits v.toNat 2 2 = 1 then
    if g.started then s.setGk k { g with state := .stopped } else s
  else if bits v.toNat 0 0 = 1 ∧ g.state = .stopped then
    if stopped ∧ bits v.toNat 1 1 = 0 then s.setGk k { g with state := .running }
    else s.setGk k { g with state := .running, pc := 0 }
  else s

/-- GECKO_STOP: a store to GK_CTL with STOP set (R204). -/
def execGeckoStop (k : Fin 256) (v : Word) (s : State) : Host.Outcome State Fault Refusal :=
  actIf s (bits v.toNat 2 2 == 1) fun s => s.gkCtl k.val v

/-- GECKO_RESET: a store to GK_CTL with RESET set (R209). -/
def execGeckoReset (k : Fin 256) (v : Word) (s : State) : Host.Outcome State Fault Refusal :=
  actIf s (bits v.toNat 1 1 == 1) fun s => s.gkCtl k.val v

/-- GECKO_RUN: a store to GK_CTL with RUN set and STOP clear (R209). -/
def execGeckoRun (k : Fin 256) (v : Word) (s : State) : Host.Outcome State Fault Refusal :=
  actIf s (bits v.toNat 2 2 == 0 && bits v.toNat 0 0 == 1) fun s => s.gkCtl k.val v

/-- A gecko whose store and scratch firmware may write (R209). -/
def Gecko.still (g : Gecko) : Bool := g.state == .stopped || g.state == .halted

/-- USTORE_ACCESS: a load, or a store of a word, at GK_USTORE_DATA; INDEX advances (R209). -/
def execUstoreAccess (k : Fin 256) (w : Option Word) (s : State) : Host.Outcome State Fault Refusal :=
  act s fun s =>
    let f := Fd.GK_USTORE_ADDR_INDEX (k.val / 32) (k.val % 32)
    let g := s.gk k.val
    let i := s.fd f
    let s := match w with
      | none => { s with rdata := (tget 0 g.store i).zeroExtend 64 }
      | some v => if g.still then s.setGk k.val { g with store := tput 0 g.store i (v.setWidth 32) } else s
    s.setFd f ((i + 1) % 2048)

/-- SCRATCH_ACCESS: a load, or a store of a word, at GK_SCR_DATA; INDEX advances (R201). -/
def execScratchAccess (k : Fin 256) (w : Option Word) (s : State) : Host.Outcome State Fault Refusal :=
  act s fun s =>
    let f := Fd.GK_SCR_ADDR_INDEX (k.val / 32) (k.val % 32)
    let g := s.gk k.val
    let i := s.fd f
    let s := match w with
      | none => { s with rdata := BitVec.ofNat 64 (unle (g.localRead k.val (4 * i) 4)) }
      | some v => if g.still then s.setGk k.val (g.localWrite (4 * i) (le 4 v.toNat)) else s
    s.setFd f ((i + 1) % 4096)

/-- SLOT_WRITE: word w of a slot, taken while the slot is idle (R206). -/
def execSlotWrite (k : Fin 256) (slot : Fin 8) (w : Fin 4) (v : Word) (s : State) : Host.Outcome State Fault Refusal :=
  act s fun s =>
    let g := s.gk k.val
    if g.slotIdle slot.val then
      s.setGk k.val { g with cmd := putBytes g.cmd (32 * slot.val + 8 * w.val) (le 8 v.toNat) }
    else s

/-- Slots rung (R206): a bit already pending is left as it is. -/
def Gecko.ring (g : Gecko) (slots : List Nat) : Gecko :=
  { g with
    rung := g.rung ++ slots.filter (fun n => !g.rung.contains n)
    everRung := g.everRung ++ slots.filter (fun n => !g.everRung.contains n)
    state := if g.state == .waiting && !slots.isEmpty then .running else g.state }

/-- GK_DOORBELL (R206). -/
def execGkDoorbell (k : Fin 256) (v : Word) (s : State) : Host.Outcome State Fault Refusal :=
  act s fun s => s.setGk k.val ((s.gk k.val).ring ((List.range 8).filter (fun n => v.toNat.testBit n)))

/-- GECKO_WATCHDOG (R208): the gecko is stopped and its job completes with TIMEOUT. Stalls do not count: `since` moves with them. -/
def execGeckoWatchdog (k : Fin 256) (s : State) : Host.Outcome State Fault Refusal :=
  act s fun s =>
    let g := s.gk k.val
    let us := s.fd (Fd.GK_CTL_WATCHDOG_US (k.val / 32) (k.val % 32))
    if us = 0 ∨ g.state ≠ .running ∨ g.busy.isEmpty ∨ s.mtime < g.since + us * 100 then s else
    let s := g.busy.foldl (fun s n => s.slotDone k.val n stTIMEOUT) s
    (((s.setGk k.val { s.gk k.val with state := .stopped }).raise (Fd.GK_ERR_WATCHDOG (k.val / 32) (k.val % 32))).memoryEvent
      k.val 2 0 0xFFFFFFFF 0).gkCounted k.val g.onJob

/-- A gecko that runs stalls for so many ns (R198, R199). -/
def State.gkStall (s : State) (k ns : Nat) : State :=
  if (s.gk k).state != .running || ns = 0 then s else
  (s.count (Fd.GK_STALL_NS_NS (k / 32) (k % 32)) ns).setGk k { s.gk k with stallLeft := (s.gk k).stallLeft + ceilDiv ns 10 }

/-- HBM_REFRESH (R198): the gecko, where it needs the bank that is refreshed, stalls for `stallNs`; 0 where it does not. -/
def execHbmRefresh (k : Fin 256) (_bank stallNs : Nat) (s : State) : Host.Outcome State Fault Refusal :=
  act s fun s => s.gkStall k.val stallNs

/-- HBM_RETRAIN (R199): every RETRAIN_MS a stack retrains its next channel, whose gecko stalls for `r.stallNs`, 2 µs at most
(R216). -/
def execHbmRetrain (stack : Fin 8) (r : Retraining) (s : State) : Host.Outcome State Fault Refusal :=
  act s fun s =>
    let st := stack.val
    let due := ((tfind s.hb.retrainAt st).getD 0) + max 1 (s.fd (Fd.HBM_CTL_RETRAIN_MS st)) * 100000
    if !s.flag (Fd.HBM_STATUS_TRAINED st) ∨ s.mtime < due then s else
    let c := (tfind s.hb.retrain st).getD 0
    let s := s.onHb fun h => { h with retrain := tset h.retrain st ((c + 1) % 32), retrainAt := tset h.retrainAt st s.mtime }
    let s := s.gkStall (st * 32 + c) (min r.stallNs 2000)
    if r.ok then s else s.raise (Fd.HBM_ERR_TRAIN_FAIL st)

end Sys2Proof.Machine
end

