-- ==== Sys2Proof/Machine/Sync.lean ====
section
/-! DEFINITION. Custody records and tables: their bytes, and changes that wait for the twin's acknowledgement of a SYNC
(R351, R352, Tables 16-3 and 16-4). -/

namespace Sys2Proof.Machine

def CustodyState.code : CustodyState → Nat
  | .held => 0 | .transfer => 1 | .freeing => 2

/-- A custody record (Table 16-3). -/
def CustodyRec.bytes (r : CustodyRec) : List Byte :=
  le 8 r.handle ++ le 4 r.epoch ++ le 4 (r.holder + r.cstate.code * 2 ^ 20) ++ le 4 r.target ++ le 4 r.deadline ++
    le 4 r.movedAt ++ le 4 r.mapEpoch

def custRecOf (p : List Byte) : CustodyRec :=
  ⟨lat p 0 8, lat p 8 4, lat p 12 4 % 2 ^ 20,
   (match bits (lat p 12 4) 21 20 with | 0 => .held | 1 => .transfer | _ => .freeing),
   lat p 16 4 % 2 ^ 20, lat p 20 4, lat p 24 4, lat p 28 4, lat p 12 4 % 2 ^ 20⟩

/-- A CUSTODY payload (Table 16-4). -/
def custPayload (kind timeout epoch handle source target mapEpoch : Nat) (body : List Byte) : List Byte :=
  le 1 kind ++ zeros 1 ++ le 2 timeout ++ le 4 epoch ++ le 8 handle ++ le 4 source ++ le 4 target ++ le 4 mapEpoch ++ zeros 4 ++ body

/-- The change as the record its SYNC carries. A removal is sent as a record in FREEING, a quiesce mark as one in TRANSFER. -/
def State.syncRec (s : State) (c : CustodyChange) : CustodyRec :=
  let rec0 := fun (h e : Nat) (st : CustodyState) => (⟨h, e, s.node, st, 0, 0, 0, 0, s.node⟩ : CustodyRec)
  match c with
  | .record _ r => r
  | .drop i => match tfind s.cust.records i with
    | some r => { r with cstate := .freeing }
    | none => rec0 0 0 .freeing
  | .inbound h k => rec0 h (((s.seq k).map (·.custodyEpoch)).getD 0) .held
  | .outbound h => rec0 h 0 .freeing
  | .quiesce k on => match s.seq k with
    | some q => rec0 q.handle q.custodyEpoch (if on then .transfer else .held)
    | none => rec0 0 0 .held

/-- A change takes effect. -/
def State.applyChange (s : State) (c : CustodyChange) : State :=
  match c with
  | .record i r => s.onCust fun u => { u with records := tset u.records i r }
  | .drop i =>
    let g := ((tfind s.cust.records i).map (fun r => hGen r.handle)).getD 0
    (s.onCust fun u => { u with records := tdel u.records i }).onPgt fun p => { p with gens := tset p.gens i (g, s.usec) }
  | .inbound h k => s.onCust fun u => { u with inbound := tset u.inbound h k }
  | .outbound h => s.onCust fun u => { u with inbound := tdel u.inbound h }
  | .quiesce k on => s.onCust fun u => { u with
      quiesced := if on then (if u.quiesced.contains k then u.quiesced else k :: u.quiesced) else u.quiesced.filter (· != k) }

/-- What follows a change: answers (opcode 0x30 or 0x31) and CUSTODY messages. -/
def State.custSend (s : State) (m : CustodySend) : State := s.send m.conduit m.op 6 m.payload .plain

/-- A change made: while PAIRED it waits for its SYNC (R352). -/
def State.custChange (s : State) (c : CustodyChange) (after : List CustodySend) : State :=
  if s.role == .paired then
    let id := s.cust.nextSync
    let r := s.syncRec c
    let s := s.onCust fun u => { u with syncs := u.syncs ++ [⟨id, c, after⟩], nextSync := id + 1 }
    s.send (s.fd Fd.TWN_CTL_CONDUIT) 0x24 6 (custPayload 8 0 r.epoch r.handle s.node r.target r.mapEpoch r.bytes) (.sync id)
  else (after.foldl State.custSend (s.applyChange c)).resume

/-- The SYNC of change id has been acknowledged. -/
def State.syncDone (s : State) (id : Nat) : State :=
  match s.cust.syncs.find? (fun y => y.id == id) with
  | none => s
  | some y =>
    let s := s.onCust fun u => { u with syncs := u.syncs.filter (fun z => z.id != id) }
    (y.after.foldl State.custSend (s.applyChange y.change)).resume

/-- A SYNC received from the twin: the record of a sequence the pair homes, or an inbound entry. -/
def State.recvSync (s : State) (r : CustodyRec) : State :=
  let home := hHome r.handle
  let k := if home = s.node then hIndex r.handle else if home = s.node ^^^ 1 then twinKey (hIndex r.handle) else 0
  if home = s.node ∨ home = s.node ^^^ 1 then
    if r.cstate = .freeing then s.applyChange (.drop k) else s.applyChange (.record k r)
  else
    match r.cstate with
    | .freeing => s.applyChange (.outbound r.handle)
    | _ => match tfind s.cust.inbound r.handle with
      | some _ => s
      | none => match s.pgt.seqs.find? (fun q => q.2.handle == r.handle) with
        | some (j, _) => s.applyChange (.inbound r.handle j)
        | none => s.applyChange (.inbound r.handle (twinKey (hIndex r.handle)))

end Sys2Proof.Machine
end

