-- ==== Sys2Proof/Machine/Place.lean ====
section
/-! DEFINITION. What a page occupies in each tier, its charge and its release; cold images (R43, R61, R169, R183-R185). -/

namespace Sys2Proof.Machine

/-- The page-cache units a frame takes: whole 4 KiB blocks. -/
def pcUnits (def0 : Nat) : Nat := max 2 (frameUnits (frameCode def0))

/-- LEND_OFFER payload (Table 9-5). -/
def lendPayload (ltype part ext node base deadline : Nat) (inherit_ : Bool) (frames : List Nat) : List Byte :=
  le 1 ltype ++ le 1 (part + (if inherit_ then 16 else 0)) ++ le 2 ext ++ le 4 node ++ le 8 base ++ le 2 deadline ++
    le 2 frames.length ++ zeros 12 ++ frames.flatMap (le 8)

/-- A LENT frame returned by RELEASE (R185). -/
def State.releaseLent (s : State) (l : Loc) (part : Nat) : State :=
  match s.borrowedAt l, s.conduitTo l.node part with
  | some (e, _), some c => s.send c 0x1A 5 (lendPayload 4 part (e % 512) 0 0 0 false [l.frame]) .release
  | _, _ => s

/-- The live slots of a flash unit lowered (R223). -/
def State.freeSlots (s : State) (frame n : Nat) : State :=
  match s.lunit (frame / 32) with
  | none => s
  | some u => s.fltSlots (frame / 32) (u.occ - n)

/-- A frame outside HBM released, with its charge. -/
def State.releaseLoc (s : State) (l : Loc) (def0 part : Nat) (free_ : Bool) : State :=
  let s := if free_ then s else s.uncharge4 part l.tier.code (chargeOf l.tier def0)
  match l.tier with
  | .hbm => s
  | .pcache => s.freePc l.frame
  | .lent => s.releaseLent l part
  | .flash => s.freeSlots l.frame (flashSlots def0)

/-- An HBM frame released: a gecko zeroes it and it becomes free (R61). -/
def State.zeroFrame (s : State) (frame def0 : Nat) (desc : Option Nat) : State :=
  let n := frameUnits (frameCode def0)
  let a := chanAddr (frame * 2048)
  s.queueJob ⟨chanOf (frame * 2048), 4, 0, a, n * 2048, 0, .zero frame n desc, [⟨a, n * 2048, .lock, 0⟩, ⟨a, n * 2048, .win, 0⟩],
    none, none, s.pgt.epoch⟩

/-- A frame lent out that its borrower has released: a gecko zeroes it (R185). -/
def State.zeroOwnLent (s : State) (frame : Nat) : State :=
  match s.tier.lent.find? (fun e => (tfind e.2.frames frame).isSome) with
  | none => s
  | some (e, x) =>
    let n := (tfind x.frames frame).getD 0
    let a := chanAddr (frame * 2048)
    s.queueJob ⟨chanOf (frame * 2048), 4, 0, a, n * 2048, 0, .zeroLent e frame, [⟨a, n * 2048, .lock, 0⟩, ⟨a, n * 2048, .win, 0⟩],
      none, none, s.pgt.epoch⟩

/-- A hot mirror copy goes with its page (R320): its charge, and the slots of its FLASH copy. -/
def State.dropHot (s : State) (d : Nat) (r : Reclaim) : State :=
  match tfind s.twn.hot d with
  | none => s
  | some f => ((s.onTwn fun t => { t with hot := tdel t.hot d }).uncharge4 r.part 1 (chargeOf .hbm r.def0)).freeSlots f (flashSlots r.def0)

/-- One entry of deferred reclamation carried out (R61). A LENT frame of this very node is one it lent out. -/
def State.reclaimOne (s : State) (r : Reclaim) : State :=
  let s := s.onPgt fun p => { p with reclaim := eraseFirst (fun y => y == r) p.reclaim }
  let s := match r.desc, r.loc with | some d, some _ => s.dropHot d r | _, _ => s
  let s := match r.digest with | some g => s.freeDigest g r.part | none => s
  match r.loc with
  | none => match r.desc with
    | some d => s.onPgt fun p => { p with descs := tdel p.descs d }
    | none => s
  | some l =>
    if l.tier = .lent ∧ l.node = s.node then s.zeroOwnLent l.frame
    else if l.tier = .hbm then
      let s := if r.free_ then s else s.uncharge4 r.part 1 (chargeOf .hbm r.def0)
      let s := match r.desc with | some d => s.modDesc d fun x => { x with state := .lockedBank, digestValid := false } | none => s
      s.zeroFrame l.frame r.def0 r.desc
    else
      let s := s.releaseLoc l r.def0 r.part r.free_
      match r.desc with
      | some d => s.onPgt fun p => { p with descs := tdel p.descs d }
      | none => s

/-- The pages a sequence's tables name, each once. -/
def Seq.pages (q : Seq) : List Nat := (q.pt.foldl (fun t (e : Nat × Nat) => tset t e.2 ()) ([] : Tbl Unit)).map Prod.fst

/-! ## Cold images (R43, R44) -/

/-- A descriptor's bytes (Table 3-4). -/
def PageState.code : PageState → Nat
  | .free => 0 | .tadpole => 1 | .sealed => 2 | .lockedBank => 3 | .inLeap => 4 | .poisoned => 5
def MirrorState.code : MirrorState → Nat
  | .none => 0 | .staged => 1 | .flashed => 2 | .hot => 3
def Desc.bytes (x : Desc) : List Byte :=
  let b := fun (c : Bool) (n : Nat) => if c then 2 ^ n else 0
  le 8 x.loc.word ++ le 2 (x.fmtA * 2 ^ 12 + x.fmtB * 2 ^ 8 + x.frameCode * 2 ^ 5 + x.valid) ++
    le 1 (x.state.code + x.mirror.code * 8 + b x.digestValid 5 + b x.pinned 6) ++ le 1 x.heat ++ le 4 x.crc.toNat ++
    le 4 (x.refcnt + x.part * 2 ^ 24) ++ le 4 x.freeEpoch ++ le 8 x.digest

/-- The record of Table 3-3; `root` is PT_LOC while the sequence is ACTIVE. -/
def Seq.record (q : Seq) (root : Nat) : List Byte :=
  let st := match q.sstate with | .active => 0 | .cold => 1 | .freeing => 2
  le 8 q.handle ++ le 1 q.cls ++ le 1 (st + (if q.closed then 4 else 0) + (if q.thawing then 8 else 0)) ++ zeros 2 ++ le 4 q.length ++
    le 8 (if q.sstate == .cold then q.ptLoc else root) ++ le 4 q.ptSize ++ le 4 q.custodyEpoch ++ le 8 q.ptCrc.toNat ++ le 8 q.lastUse ++ zeros 16

/-- The bytes of an image (R43 step 1, R67): the root, the page-table entries, the prefix slot, the descriptors it takes along
and the tadpoles' contents, filled up to a whole number of 4 KiB units. The order is the model's (notes/assumptions/15.md). -/
def ColdImage.bytes (im : ColdImage) : List Byte :=
  let body := im.layerLen.flatMap (le 4) ++ im.pt.flatMap (fun (e : Nat × Nat) => le 8 e.1 ++ le 4 e.2) ++
    le 8 im.chainKey ++ le 4 (im.keyed + (if im.broken then 2 ^ 31 else 0)) ++ le 4 im.tokids.length ++ im.tokids.flatMap (le 4) ++
    im.pendKeys.flatMap (fun (e : Nat × Nat) => le 8 e.1 ++ le 8 e.2) ++
    im.descs.flatMap (fun (p : Nat × Desc) => le 4 p.1 ++ p.2.bytes) ++
    im.tadpoles.flatMap (fun (t : Nat × List Byte) => le 8 t.1 ++ t.2)
  body ++ zeros (ceilDiv body.length 4096 * 4096 - body.length)

/-- The image of a sequence as it is now. Beside what R67 names of the prefix slot it keeps TOKID and the keys not yet inserted
(notes/assumptions/118.md). -/
def State.imageOf (s : State) (q : Seq) : ColdImage :=
  let own := (q.pages.filterMap fun d => (s.desc d).map fun x => (d, x)).filter (fun p => p.2.refcnt == 1 && p.2.state != .tadpole)
  let tads := q.pt.filterMap fun (e : Nat × Nat) => match s.desc e.2 with
    | some x => if x.state == .tadpole then some (e.1, s.pageContent x) else none
    | none => none
  let im : ColdImage := ⟨q.pt, q.layerLen, own.foldl (fun t (p : Nat × Desc) => tset t p.1 p.2) [],
    tads.foldl (fun t (p : Nat × List Byte) => tset t p.1 p.2) [], q.chainKey, q.keyed, q.broken, q.tokids, q.pendKeys, [], 0⟩
  { im with crc := BitVec.ofNat 64 (crc64From 0 im.bytes) }

/-- The image units of a sequence trimmed. -/
def State.trimImage (s : State) (im : ColdImage) : State := im.units.foldl (fun s l => s.fltTrim l 1) s

/-- Every unit of the image has committed: the sequence becomes a stub, if it is still idle; otherwise the image goes. -/
def State.coldCommitted (s : State) (k : Nat) : State :=
  match s.seq k with
  | none => s
  | some q =>
    match q.cold with
    | none => s
    | some im =>
      if q.sstate != .active then s else
      if !im.units.all (fun l => match s.lunit l with | some ⟨.at_ _, _⟩ => true | _ => false) then s else
      if s.usec < q.lastUse + s.fd Fd.PGT_COLD_DELAY_MS * 1000 ∨ s.pgt.ops.any (fun o => o.seq == k) ∨ q.pt ≠ im.pt ∨
          s.pgt.copies.any (fun c => (q.pt.map Prod.snd).contains c.src) then
        (s.trimImage im).modSeq k fun q => { q with cold := none }
      else
        let tads := q.pt.filter (fun (e : Nat × Nat) => (tfind im.tadpoles e.1).isSome)
        let s := tads.foldl (fun s (e : Nat × Nat) => s.dropRef e.2) s
        let s := im.descs.foldl (fun s (d : Nat × Desc) => s.retireDesc d.1 d.2) s
        ((s.modSeq k fun q => { q with
          sstate := .cold, pt := [], tokids := [], pendKeys := [], ptLoc := 3 * 2 ^ 62 + (im.units.headD 0) * 32,
          ptSize := im.bytes.length / 4096, ptCrc := im.crc }).trimTables k).shrinkSeqChunks

/-- Descriptors of an image taken back into the pool, under new indices: old index to new; none where the pool has no room. -/
def State.putBack (s : State) (im : ColdImage) : Option (State × Tbl Nat) :=
  im.descs.foldl (fun (r : Option (State × Tbl Nat)) (d : Nat × Desc) => r.bind fun r =>
    r.1.takeDesc.map fun t => (t.2.onPgt fun p => { p with descs := tset p.descs t.1 d.2 }, tset r.2 d.1 t.1)) (some (s, []))

/-- The page-table entries of an image, its descriptors under their new indices, and its tadpoles left out. -/
def ColdImage.pages (im : ColdImage) (names : Tbl Nat) : Tbl Nat :=
  (im.pt.filter (fun (e : Nat × Nat) => (tfind im.tadpoles e.1).isNone)).map fun e => (e.1, tget e.2 names e.2)

/-- A tadpole of an image returned to HBM, charged whatever the quota (R46). -/
def State.putTadpole (s : State) (k : Nat) (q : Seq) (im : ColdImage) (e : Nat × List Byte) : Option State :=
  let n := frameUnits (frameCode q.def0)
  let twin := decide (2 ^ 24 ≤ k)
  (s.takeHbmRaw n n (fun _ => true)).bind fun f => f.2.takeDesc.map fun d =>
    let s := if twin then d.2 else d.2.charge4 (hPart q.handle) 1 (n * 2048)
    let len := (im.layerLen[keyLayer e.1]?).getD 0
    let x := { newTadpole q.def0 f.1 (hPart q.handle) twin with valid := min 16 (len - 16 * keyPos e.1) }
    ((s.onPgt fun p => { p with descs := tset p.descs d.1 x }).writePage x e.2).modSeq k fun q => { q with pt := tset q.pt e.1 d.1 }

/-- A COLD sequence takes back what its image holds, all of it or, for want of room in HBM, nothing. -/
def State.reinstate (s : State) (k : Nat) : Option State :=
  (s.seq k).bind fun q => q.cold.bind fun im => (s.putBack im).bind fun r =>
    let q' := { q with
      sstate := .active, thawing := false, pt := im.pages r.2, layerLen := im.layerLen, chainKey := im.chainKey, keyed := im.keyed
      broken := im.broken, tokids := im.tokids, pendKeys := im.pendKeys, cold := none, thawEpoch := none, ptLoc := 0, ptSize := 0
      ptCrc := 0, lastUse := s.usec }
    (r.1.takeSeqChunks (q'.chunks k)).bind fun s =>
      (im.tadpoles.foldl (fun r e => r.bind fun s => s.putTadpole k q im e) (some (s.modSeq k fun _ => q'))).bind fun s =>
        (s.fitTables k).map fun s => s.trimImage im

end Sys2Proof.Machine
end

