-- ==== Sys2Proof/Machine/Leap.lean ====
section
/-! DEFINITION. Leaps, faults, promotion and demotion, the heat sweep (R164-R183). -/

namespace Sys2Proof.Machine

/-! ## Leaps in progress -/

def State.leap (s : State) (d : Nat) : Option Leap := s.tier.leaps.find? (fun l => l.desc == d)
def State.modLeap (s : State) (d : Nat) (f : Leap → Leap) : State :=
  s.onTier fun b => { b with leaps := b.leaps.map fun l => if l.desc = d then f l else l }
def State.dropLeap (s : State) (d : Nat) : State := s.onTier fun b => { b with leaps := b.leaps.filter (fun l => l.desc != d) }

/-- LEAP_PUSH and LEAP_PULL payload header (Table 9-6). -/
def leapHeader (tag ext part code len crc frame : Nat) (answer : Bool) : List Byte :=
  le 8 tag ++ le 2 ext ++ le 1 part ++ le 1 (code + (if answer then 8 else 0)) ++ le 4 len ++ le 4 crc ++ zeros 4 ++ le 8 frame

/-- A page pulled from its lender, for a leap or a fault. -/
def State.pullPage (s : State) (d : Nat) (x : Desc) : State :=
  match s.borrowedAt x.loc, s.conduitTo x.loc.node x.part with
  | some (e, _), some c =>
    s.send c 0x18 5 (leapHeader d (e % 512) x.part x.frameCode (contentSize x.def0) x.crc.toNat x.loc.frame false) (.leapPull d)
  | _, _ => s.endMsg (.leapPull d) stTIMEOUT

/-- The slot of a page in a flash unit's content (R183). -/
def flashPage (x : Desc) (unit_ : List Byte) : List Byte := slice unit_ (x.loc.frame % 32 * 2048) (contentSize x.def0)

/-- A read of a unit is still wanted by a fault or a leap out of it. -/
def State.unitWanted (s : State) (l : Nat) : Bool :=
  s.tier.faults.any (fun f => f.issued && f.loc.tier == .flash && f.loc.frame / 32 == l) ||
  s.tier.leaps.any (fun p => p.src.tier == .flash && p.src.frame / 32 == l && p.content.isNone && !p.bad)
def State.readDone (s : State) (l : Nat) : State := if s.unitWanted l then s else s.dropRead l

/-! ## Packing (R183) -/

def State.assembly (s : State) (forTwin : Bool) (part : Nat) : Option Assembly :=
  s.tier.assemblies.find? (fun a => a.forTwin == forTwin && a.part == part)

/-- The buffer that still takes pages of `slots` slots. -/
def State.assemblyFor (s : State) (forTwin : Bool) (part slots : Nat) : Option Assembly :=
  s.tier.assemblies.find? (fun a => a.forTwin == forTwin && a.part == part && a.fill + slots ≤ 32)

/-- The content of a page being packed: that of its leap, or a mirror page's own. -/
def State.packed (s : State) (forTwin : Bool) (d : Nat) : List Byte :=
  if forTwin then ((s.desc d).map s.pageContent).getD [] else ((s.leap d).bind (·.content)).getD []

/-- A leap that cannot commit ends (R176): the page is SEALED at its old LOC, the destination is released. -/
def State.endLeap (s : State) (l : Leap) : State :=
  let s := s.dropLeap l.desc
  match s.desc l.desc with
  | none => s
  | some x =>
    let s := s.modDesc l.desc fun x => if x.state == .inLeap then { x with state := .sealed } else x
    match l.target with
    | some t => s.retireFrame t x.def0 x.part false
    | none => s.uncharge4 x.part l.dst.code (chargeOf l.dst x.def0)

/-- A leap is abandoned: it ends, and counts. -/
def State.abandonLeap (s : State) (l : Leap) : State := (s.endLeap l).inc Fd.TIER_LEAPS_ABANDONED_COUNT

/-- An assembly buffer becomes a flash unit; where flash does not take it, its leaps are abandoned, and mirror pages stay
staged and are offered again. -/
def State.programAssembly (s : State) (a : Assembly) : State :=
  let s := s.onTier fun b => { b with assemblies := b.assemblies.filter (fun y => y != a) }
  let content := a.pages.foldl (fun (m : List Byte) (p : Nat × Nat) =>
    let m := m ++ zeros (p.2 * 2048 - m.length)
    m ++ s.packed a.forTwin p.1) []
  let use : FltUse := if a.forTwin then .mirror a.pages else .demote a.pages
  let r := match s.fltAlloc (if a.forTwin then 2 else 1) with
    | none => (stQUOTA, s)
    | some (l, t) =>
      let (st, u) := t.fltWrite l a.fill a.part content use
      if st = stOK then (stOK, u) else (st, t.fltTrim l 1)
  if r.1 = stOK then r.2
  else if a.forTwin then r.2.onTier fun b => { b with assemblies := b.assemblies ++ [a] }
  else a.pages.foldl (fun s p => match s.leap p.1 with | some l => s.abandonLeap l | none => s) r.2

/-- A page packed in order; a unit it does not fit in is programmed first, a unit it fills at once. -/
def State.pack (s : State) (forTwin : Bool) (part d slots : Nat) : State :=
  let s := match s.assembly forTwin part with
    | some a => if 32 < a.fill + slots then s.programAssembly a else s
    | none => s
  let a := (s.assemblyFor forTwin part slots).getD ⟨forTwin, part, [], 0, s.mtime⟩
  let a' := { a with pages := a.pages ++ [(d, a.fill)], fill := a.fill + slots }
  let s := s.onTier fun b => { b with assemblies := b.assemblies.filter (fun y => y != a) ++ [a'] }
  if a'.fill = 32 then s.programAssembly a' else s

/-! ## Beginning (R175 step 1) -/

/-! ## Heat bins (R168, R170) -/

/-- HEAT bin (R168). -/
def heatBin (h : Nat) : Nat := min 15 h

/-- Pages that could leave a tier: sealed, unpinned, referenced. -/
def Desc.movable (x : Desc) (t : Tier) : Bool :=
  x.state == .sealed && x.loc.tier == t && !x.pinned && 0 < x.refcnt && !x.ofTwin

/-- The least HEAT of a partition's movable pages in a tier. -/
def State.minHeat (s : State) (part : Option Nat) (t : Tier) : Option Nat :=
  s.pgt.descs.foldl (fun (b : Option Nat) (p : Nat × Desc) =>
    if p.2.movable t && part.all (· == p.2.part) then some (match b with | some m => min m p.2.heat | none => p.2.heat) else b) none

/-- The coldest bin of them. -/
def State.coldest (s : State) (part : Option Nat) (t : Tier) : Option Nat := (s.minHeat part t).map heatBin

/-- The leap begins: STATE becomes IN_LEAP, the destination is taken or asked for, the source is read or asked for. -/
def State.beginLeap (s : State) (d : Nat) (x : Desc) (dst : Tier) (landing : Option (List Byte)) (prefetch : Bool) : State :=
  let n := frameUnits x.frameCode
  let bytes := chargeOf dst x.def0
  if !s.underHard x.part dst.code bytes then s.hardBlock else
  let inPlace := if dst.code < x.loc.tier.code ∧ !s.belowSoft x.part dst.code then s.coldest (some x.part) dst else none
  let serial := s.tier.nextLeap
  let content := match landing with
    | some c => some c
    | none => if x.loc.tier = .hbm ∨ x.loc.tier = .pcache then some (s.pageContent x) else none
  let go := fun (s : State) (target : Option Loc) (ext : Option Nat) =>
    let s := (s.modDesc d fun x => { x with state := .inLeap }).onTier fun b => { b with
      nextLeap := serial + 1
      leaps := b.leaps ++ [⟨d, x.loc, dst, target, s.pgt.epoch, landing.isSome, content, false, ext, prefetch, inPlace, serial⟩] }
    let s := if content.isSome then s else if x.loc.tier = .flash then s.askRead (x.loc.frame / 32) false else s.pullPage d x
    if prefetch then s.inc Fd.TIER_PREFETCHES_COUNT else s
  match dst with
  | .hbm =>
    match s.takeHbm x.part n n (fun _ => true) with
    | none => s.refused
    | some (a, s) => go s (some ⟨.hbm, 0, a⟩) none
  | .pcache =>
    match s.takePc n false with
    | none => s
    | some (a, s) => go (s.charge4 x.part 0 bytes) (some ⟨.pcache, 0, a⟩) none
  | .lent =>
    match s.lentRoom x.part n with
    | none => s
    | some (e, b) =>
      match s.conduitTo b.node x.part with
      | none => s
      | some c => (go (s.charge4 x.part 2 bytes) none (some e)).send c 0x19 5
          (leapHeader d (e % 512) x.part x.frameCode (contentSize x.def0) x.crc.toNat 0 false ++ content.getD []) (.leapPush d e serial)
  | .flash =>
    let s := go (s.charge4 x.part 3 bytes) none none
    if content.isSome then s.pack false x.part d (flashSlots x.def0) else s

/-! ## Why a page leaps (R170-R174, R178, R186) -/

/-- A promotion into a tier at or above its soft quota needs a page hotter than the coldest bin there (R170). -/
def State.softOk (s : State) (x : Desc) (t : Tier) : Bool :=
  s.belowSoft x.part t.code || (match s.coldest (some x.part) t with | some b => b < heatBin x.heat | none => false)

/-- A page of a candidate list still fit for its demotion (R168, R175). -/
def State.candidateOk (s : State) (d : Nat) : Bool :=
  match s.desc d with
  | some x => x.state == .sealed && !x.pinned && 0 < x.refcnt && x.loc.tier == .hbm && x.heat ≤ s.fd Fd.TIER_POLICY_DEMOTE_MAX
  | none => false

/-- The next candidate of a partition. -/
def State.nextCandidate (s : State) (part : Nat) : Option Nat := (tget [] s.tier.candidates part).find? s.candidateOk

/-- The extent a page lies in is recalled. -/
def State.recalled (s : State) (x : Desc) : Bool :=
  match s.borrowedAt x.loc with
  | some (_, e) => e.estate == .recalling || e.estate == .returning
  | none => false

/-- A PIN that runs wants the page (R178). -/
def State.pinWants (s : State) (d : Nat) : Bool :=
  match s.tier.pinning with
  | some k => ((s.seq k).map (fun q => q.pt.any (fun e => e.2 == d))).getD false
  | none => false

/-- A demotion out of HBM is due for this page (R170, R172, R338). -/
def State.demoteDue (s : State) (d : Nat) (x : Desc) : Bool :=
  let overs := (List.range 16).filter (fun p => s.overSoft p 1)
  let bin := fun p => ((s.nextCandidate p).bind s.desc).map (fun y => heatBin y.heat)
  let least := (overs.filterMap bin).foldl min 15
  s.hb.retiring.contains (chanOf (x.loc.frame * 2048)) || s.tier.owed.contains (x.part, 1, heatBin x.heat) ||
  (s.overSoft x.part 1 && s.nextCandidate x.part == some d) ||
  (s.tier.pressure &&
    (if overs.any (fun p => (s.nextCandidate p).isSome) then
      s.overSoft x.part 1 && s.nextCandidate x.part == some d && heatBin x.heat == least
     else s.coldest none .hbm == some (heatBin x.heat)))

/-- Traffic to and from flash for anything but faults is let (R174). -/
def State.leapGbps (s : State) : Bool := s.fd Fd.TIER_LEAP_DEMOTE_GBPS != 0

/-- A prefetch still to be made: a sealed page in FLASH that R170 and R171 let into HBM (R182). -/
def State.prefetchFit (s : State) (d : Nat) : Bool :=
  match s.desc d with
  | some x => x.movable .flash && (s.leap d).isNone && s.softOk x .hbm && s.underHard x.part 1 (chargeOf .hbm x.def0)
  | none => false

/-- Prefetches at the head of the queue that are not to be made are dropped. -/
def State.prunePrefetch (s : State) : State :=
  s.onTier fun b => { b with prefetch := b.prefetch.dropWhile fun p => !s.prefetchFit p.desc }

/-- The leap is one the TIER makes now (Table 9-1, R170-R174). A page a PIN waits for goes no lower (R178). -/
def State.leapDue (s : State) (d : Nat) (x : Desc) (dst : Tier) : Bool :=
  if x.loc.tier.code < dst.code && s.pinWants d then false else
  match x.loc.tier, dst with
  | .hbm, .pcache => s.tier.due.contains (d, .pcache) && s.softOk x .pcache
  | .pcache, .hbm =>
    s.tier.due.contains (d, .hbm) || s.tier.owed.contains (x.part, 0, heatBin x.heat) ||
    (s.overSoft x.part 0 && s.minHeat (some x.part) .pcache == some x.heat) ||
    decide (s.pcCapacity ≤ s.placedBytes)
  | .hbm, .lent => s.demoteDue d x && s.lentTakes x
  | .hbm, .flash => s.demoteDue d x && !s.lentTakes x && s.leapGbps
  | .lent, .hbm =>
    (s.tier.due.contains (d, .hbm) && s.softOk x .hbm) || s.recalled x || s.pinWants d
  | .lent, .flash =>
    ((s.recalled x && !s.hbmTakes x) || (s.overSoft x.part 2 && s.minHeat (some x.part) .lent == some x.heat)) && s.leapGbps
  | .flash, .hbm =>
    s.leapGbps && (s.pinWants d ||
      (((s.tier.prefetch.head?).map (·.desc)) == some d && s.tier.faults.all (·.issued) && s.softOk x .hbm))
  | _, _ => false

def tierOf : Nat → Tier
  | 0 => .pcache | 1 => .hbm | 2 => .lent | _ => .flash

/-- A target of R174 or R186 that only the hard quota closes (R171). -/
def State.hardStops (s : State) (d : Nat) (x : Desc) (dst : Tier) : Bool :=
  match x.loc.tier, dst with
  | .hbm, .lent => s.demoteDue d x && s.lentOpen x && !s.lentTakes x
  | .hbm, .flash => s.demoteDue d x && s.lentOpen x && !s.lentTakes x
  | .lent, .flash => s.recalled x && !s.hbmTakes x
  | _, _ => false

/-- What was due of a leap is taken up: its promotion, whether it is made or not, and a demotion owed, once it begins. -/
def State.takeDue (s : State) (d : Nat) (x : Desc) (dst : Tier) (begins : Bool) : State :=
  s.onTier fun b => { b with
    due := b.due.filter (fun y => y != (d, dst))
    owed := if begins ∧ x.loc.tier.code < dst.code then eraseFirst (fun o => o == (x.part, x.loc.tier.code, heatBin x.heat)) b.owed
      else b.owed }

/-- A leap of a page, if the page's state allows it and it is due (R175 step 1). A prefetch is taken from its queue. -/
def State.tryLeap (s : State) (d : Nat) (dst : Tier) : State :=
  let s := s.waterMark.prunePrefetch
  match s.desc d with
  | none => s
  | some x =>
    if !s.flag Fd.TIER_CTL_ENABLE || x.state != .sealed || x.pinned || x.refcnt = 0 || x.ofTwin || (s.leap d).isSome then
      s.onTier fun b => { b with prefetch := b.prefetch.filter (fun p => p.desc != d || x.refcnt != 0) }
    else if !s.awake then s
    else
      let s := if s.hardStops d x dst then s.hardBlock else s
      let go := s.leapDue d x dst
      let s := s.takeDue d x dst go
      if !go then s else
      let pre := s.tier.prefetch.any (fun p => p.desc == d) && x.loc.tier == .flash
      let s := s.onTier fun b => { b with prefetch := b.prefetch.filter (fun p => p.desc != d) }
      s.beginLeap d x dst none pre

/-! ## Commit (R175 steps 2 to 4, R176) -/

/-- A pulled or read source reaches its leap; a leap to FLASH is then packed. -/
def State.leapContent (s : State) (d st : Nat) (c : List Byte) : State :=
  match s.leap d, s.desc d with
  | some l, some x =>
    if l.content.isSome || l.bad then s
    else if st ≠ stOK then s.modLeap d fun l => { l with bad := true }
    else
      let s := s.modLeap d fun l => { l with content := some c }
      if l.dst = .flash then s.pack false x.part d (flashSlots x.def0) else s
  | _, _ => s

/-- A leap takes its content from the unit read, once that has come. -/
def State.leapFromFlash (s : State) (d : Nat) : State :=
  match s.leap d, s.desc d with
  | some l, some x =>
    if l.content.isSome || l.bad || l.src.tier != .flash then s else
    match s.readAnswer (l.src.frame / 32) with
    | none => s
    | some (st, u) => (s.leapContent d st (flashPage x u)).readDone (l.src.frame / 32)
  | _, _ => s

/-- The commit write: new LOC and SEALED; the source is released and, from LENT or FLASH into HBM, a digest job queued. -/
def State.commitLeap (s : State) (l : Leap) (x : Desc) (t : Loc) (c : List Byte) : State :=
  let s := match t.tier with
    | .hbm => s.hbmWrite (t.frame * 2048) c
    | .pcache => s.pcWrite (t.frame * 2048) c
    | _ => s
  let leaves := t.tier == .lent || t.tier == .flash
  let s := if leaves then s.retireDigest x else s
  let s := (s.dropLeap l.desc).modDesc l.desc fun x => { x with
    loc := t, state := .sealed, digestValid := x.digestValid && !leaves }
  let s := s.retireFrame l.src x.def0 x.part false
  let s := match l.inPlace with
    | some b => s.onTier fun u => { u with owed := u.owed ++ [(x.part, t.tier.code, b)] }
    | none => s
  let up := t.tier.code < l.src.tier.code
  let s := if up then s.inc Fd.TIER_LEAPS_UP_COUNT else s.inc Fd.TIER_LEAPS_DOWN_COUNT
  let s := if leaves then s.askAgain l.desc t else s
  if t.tier == .hbm && (l.src.tier == .lent || l.src.tier == .flash || !x.digestValid) then s.queueDigest l.desc else s

/-- A leap whose copy is complete commits, or ends as R176 says; `ok` is false where the source read met an uncorrectable
error or its CRC differs. A check-value unit of the pool computes it (R54). -/
def State.leapDone (s : State) (d : Nat) (ok : Bool) : State :=
  let s := s.leapFromFlash d
  match s.leap d, s.desc d with
  | some l, some x =>
    if x.state != .inLeap ∨ x.refcnt = 0 then s.abandonLeap l
    else
      let fails := fun (s : State) =>
        let s := if l.src.tier == .hbm && !ok then s.hbmUe (l.src.frame * 2048) else s
        (s.endLeap l).poisonPage d
      if l.bad then fails s else
      match l.content, l.target with
      | some c, some t => if s.poolUnit.isNone then s else if ok && crc32c c == x.crc.toNat then s.commitLeap l x t c else fails s
      | _, _ => s
  | some l, none => s.abandonLeap l
  | none, _ => s

/-- The flash unit of demoted pages has committed (R175 step 2): each leap has its destination. -/
def State.demoteCommitted (s : State) (lunit : Nat) (pages : List (Nat × Nat)) : State :=
  pages.foldl (fun s p =>
    match s.leap p.1 with
    | some l => if l.dst = .flash ∧ l.target.isNone then
          s.modLeap p.1 fun l => { l with target := some ⟨.flash, 0, lunit * 32 + p.2⟩ } else s
    | none => s.freeSlots (lunit * 32 + p.2) (match s.desc p.1 with | some x => flashSlots x.def0 | none => 1)) s

/-- The frame of a push whose leap has ended goes back to its lender (R176). -/
def State.giveFrameBack (s : State) (ext frame : Nat) : State :=
  match tfind s.tier.borrowed ext with
  | some b => s.releaseLent ⟨.lent, b.node, frame⟩ b.part
  | none => s

/-- The lender answers the LEAP_PUSH of leap `serial` into extent `ext` (R185): the frame, or a failure. -/
def State.leapPushed (s : State) (d ext serial st frame : Nat) : State :=
  match s.leap d with
  | some l =>
    if l.serial ≠ serial then (if st = stOK then s.giveFrameBack ext frame else s)
    else match tfind s.tier.borrowed ext with
    | some b => if st = stOK then s.modLeap d fun l => { l with target := some ⟨.lent, b.node, frame⟩ } else s.abandonLeap l
    | none => s.abandonLeap l
  | none => if st = stOK then s.giveFrameBack ext frame else s

/-- A push into a borrowed extent is open. -/
def State.pushOpen (s : State) (ext : Nat) : Bool :=
  let into := fun (p : Purpose) => match p with | .leapPush _ e _ => e == ext | _ => false
  s.trl.awaiting.any (fun w => into w.purpose) ||
  s.trl.conduits.any (fun c => c.2.queue.any (fun m => into m.purpose) || c.2.sent.any (fun m => into m.msg.purpose))

/-- An extent being given back holds no page, no leap and no frame unreclaimed: RETURN is sent (R186 step 3). -/
def State.returnExtents (s : State) : State :=
  s.tier.borrowed.foldl (fun (s : State) (e : Nat × Extent) =>
    let inside := fun (l : Loc) => l.tier == .lent && l.node == e.2.node && e.2.base ≤ l.frame * 2048 && l.frame * 2048 < e.2.base + 2 ^ 30
    let busy := s.pgt.descs.any (fun p => inside p.2.loc) || s.tier.leaps.any (fun l => l.ext == some e.1 || inside l.src) ||
      s.pgt.reclaim.any (fun r => (r.loc.map inside).getD false) || s.pushOpen e.1
    if e.2.estate != .recalling || busy then s else
    let s := s.onTier fun b => { b with borrowed := tdel b.borrowed e.1 }
    match s.conduitTo e.2.node e.2.part with
    | some c => s.send c 0x1A 5 (lendPayload 3 e.2.part (e.1 % 512) 0 0 0 false []) (.giveBack e.1)
    | none => s) s

/-! ## Faults (R180, R181) -/

/-- The streams a fault serves. -/
def PageFault.streams (f : PageFault) : List Nat := f.waiters.filterMap fun w => match w with | .item i => some i | _ => none

/-- The limits of R181 let a fault be issued, landing room aside. -/
def State.faultRoom (s : State) (f : PageFault) : Bool :=
  let out := s.tier.faults.filter (·.issued)
  out.length < max 1 (s.fd Fd.TIER_FAULT_MAX_DEVICE) &&
  f.streams.all fun i => (out.filter (fun g => g.streams.contains i)).length < max 1 (s.fd Fd.TIER_FAULT_MAX_PER_STREAM)

/-- A fault is issued: a landing frame and one read (R180 step 1). It joins the read of a leap under way, which may have come
already; a page that has leapt to HBM or PCACHE since needs neither (R181). -/
def State.issueFault (s : State) (d : Nat) : State :=
  match s.tier.faults.find? (fun f => !f.issued && s.faultRoom f), s.desc d with
  | some f, some x =>
    if f.desc ≠ d then s else
    if x.loc.tier = .hbm ∨ x.loc.tier = .pcache then
      (s.onTier fun b => { b with faults := b.faults.filter (fun g => g.desc != d) }).wakePage d x.loc (fun _ => true)
    else
    match s.takePc (frameUnits x.frameCode) true with
    | none => s.raise Fd.TIER_ERR_LAND_FULL
    | some (a, s) =>
      let come := ((s.leap d).bind (·.content)).map fun c => (stOK, c)
      let s := s.onTier fun b => { b with faults := b.faults.map fun g =>
        if g.desc = d then { g with issued := true, landing := some a, loc := x.loc, issuedAt := s.mtime, answer := come } else g }
      let shared := ((s.leap d).map (fun l => !l.bad)).getD false
      match x.loc.tier with
      | .flash => (if shared then s else s.askRead (x.loc.frame / 32) false).inc Fd.TIER_FAULTS_FLASH_COUNT
      | .lent => (if shared then s else s.pullPage d x).inc Fd.TIER_FAULTS_LENT_COUNT
      | _ => s
  | _, _ => s

/-- The copy of a fault, once it has come. -/
def State.faultCopy (s : State) (f : PageFault) (x : Desc) : Option (Nat × List Byte) :=
  match f.answer with
  | some a => some a
  | none => if f.loc.tier = .flash then (s.readAnswer (f.loc.frame / 32)).map fun r => (r.1, slice r.2 (f.loc.frame % 32 * 2048) (contentSize x.def0)) else none

/-- A fault ends. -/
def State.dropFault (s : State) (d : Nat) : State := s.onTier fun b => { b with faults := b.faults.filter (fun f => f.desc != d) }

/-- The landing frame released once its waiters have been woken (R180 step 4). -/
def State.releaseLanding (s : State) (a : Option Nat) (x : Desc) : State :=
  match a with
  | some a => s.retireFrame ⟨.pcache, 0, a⟩ x.def0 x.part true
  | none => s

/-- The copies of operations that wait on a page are made from its landed copy. -/
def State.copyLanded (s : State) (d : Nat) (c : List Byte) : State :=
  (s.pgt.copies.filter (fun j => j.src == d)).foldl (fun s j => (s.copyNow c j.dst j.slots).copyDone j.dst) s

/-- The transfers of custody that copy a sequence as its source. -/
def State.copying (s : State) : List Transfer := s.cust.transfers.filter (fun t => t.phase == .copying)
def State.modTransfer (s : State) (h : Nat) (f : Transfer → Transfer) : State :=
  s.onCust fun u => { u with transfers := u.transfers.map fun t => if t.handle = h then f t else t }

/-- Content stored at the lender of a transfer, under a key; the extents are filled in turn (R354 step 3). -/
def State.custodyPush (s : State) (t : Transfer) (key code : Nat) (content : List Byte) : State :=
  let n := frameUnits code
  let used := (t.done.length + t.out.length) * n
  match t.exts[used / 524288]?, s.conduitTo t.lender (hPart t.handle) with
  | some e, some c =>
    (s.modTransfer t.handle fun t => { t with out := t.out ++ [key] }).send c 0x19 5
      (leapHeader key e (hPart t.handle) code content.length (crc32c content) 0 false ++ content) (.custodyPush t.handle key)
  | _, _ => s

/-- A page that has landed is copied for the transfers that wait for it. -/
def State.custodyLanded (s : State) (d : Nat) (c : List Byte) : State :=
  s.copying.foldl (fun s t =>
    match s.seq t.seq, s.desc d with
    | some q, some x => (q.pt.filter (fun e => e.2 == d && (tfind t.done e.1).isNone && !t.out.contains e.1)).foldl
        (fun s e => match s.cust.transfers.find? (fun y => y.handle == t.handle) with
          | some t => s.custodyPush t e.1 x.frameCode c
          | none => s) s
    | _, _ => s) s

/-- A fault lands (R180 steps 2 to 4): the waiters wake on the landing frame, or the page becomes POISONED. A check-value unit of
the pool computes its CRC (R54). -/
def State.landFault (s : State) (d : Nat) (ok : Bool) : State :=
  match s.tier.faults.find? (fun f => f.desc == d && f.issued), s.desc d with
  | some f, some x =>
    match s.faultCopy f x with
    | none => s
    | some (st, c) =>
      if s.poolUnit.isNone then s else
      let s := (s.dropFault d).count Fd.TIER_FAULT_NS_COUNT ((s.mtime - f.issuedAt) * 10)
      let s := if f.loc.tier = .flash then s.readDone (f.loc.frame / 32) else s
      let s := s.leapContent d st c
      if st ≠ stOK ∨ !ok ∨ crc32c c ≠ x.crc.toNat then (s.releaseLanding f.landing x).poisonPage d
      else
        let at_ := f.landing.getD 0
        let s := (s.pcWrite (at_ * 2048) c).wakePage d ⟨.pcache, 0, at_⟩ (fun _ => true)
        let s := ((s.copyLanded d c).custodyLanded d c).releaseLanding f.landing x
        let forCopy := !f.waiters.isEmpty && f.waiters.all (fun w => match w with | .custody _ => true | _ => false)
        let hot := s.fd Fd.TIER_POLICY_PROMOTE_FAULT ≤ x.heat
        if s.flag Fd.TIER_CTL_ENABLE && hot && !forCopy && x.state == .sealed && !x.pinned && 0 < x.refcnt && (s.leap d).isNone &&
            x.loc.tier == f.loc.tier && s.softOk x .hbm && (f.loc.tier != .flash || !f.streams.isEmpty || s.leapGbps) && s.awake then s.beginLeap d x .hbm (some c) false
        else s
  | some _, none => s.dropFault d
  | none, _ => s

/-- A lender answers a LEAP_PULL: the content, or a failure. -/
def State.pulled (s : State) (d st : Nat) (c : List Byte) : State :=
  (s.onTier fun b => { b with faults := b.faults.map fun f =>
    if f.desc = d ∧ f.issued ∧ f.answer.isNone then { f with answer := some (st, c) } else f }).leapContent d st c

/-! ## The heat sweep (R167, R168) -/

/-- Pieces of 2,048 descriptors: chunk * 32 + piece; the address of one. -/
def State.pieceAddr (s : State) (p : Nat) : Nat := ((s.pgt.chunks[p / 32]?).getD 0) * 2048 + p % 32 * 65536

/-- Bytes of the output area of one piece. -/
def sweepOutBytes : Nat := 16384

/-- The pieces a gecko still holds in a slot. -/
def State.sweepHeld (s : State) : List Nat :=
  s.hb.jobs.filterMap fun j => match j.use with | .sweep p => if j.slot.isSome then some p else none | _ => none

/-- What is left of a sweep goes: its jobs not yet in a slot and the output areas no gecko writes (R216). -/
def State.clearSweep (s : State) : State :=
  let held := s.sweepHeld
  let s := (s.tier.sweepOut.filter (fun o => !held.contains o.1)).foldl (fun s o => s.freeHbm o.2) s
  let s := s.onTier fun b => { b with sweepOut := b.sweepOut.filter (fun o => held.contains o.1), sweepLeft := [], sweeping := false }
  s.onHb fun h => { h with jobs := h.jobs.filter fun j => match j.use with | .sweep _ => j.slot.isSome | _ => true }

/-- The SWEEP job of a piece, with an output area in its channel (R167, R214); without room for one the piece is skipped. -/
def State.sweepJob (s : State) (p : Nat) : State :=
  let a := s.pieceAddr p
  match s.takeHbmRaw (sweepOutBytes / 2048) (sweepOutBytes / 2048) (fun c => c == chanOf a) with
  | none => s
  | some (o, s) =>
    let out := chanAddr (o * 2048)
    (s.onTier fun b => { b with sweepOut := tset b.sweepOut p o, sweepLeft := b.sweepLeft ++ [p] }).queueJob
      ⟨chanOf a, 8, 0, chanAddr a, 2048, out, .sweep p, [⟨chanAddr a, 65536, .atom, 0⟩, ⟨out, sweepOutBytes, .win, 0⟩], none, none, s.pgt.epoch⟩

/-- A sweep starts: a SWEEP job on every piece of the pool but those a stopped gecko still holds (R216). DECAY_MS is taken for the
interval that begins. -/
def State.startSweep (s : State) : State :=
  let s := s.clearSweep
  let ps := (List.range (s.pgt.chunks.length * 32)).filter fun p => !s.sweepHeld.contains p
  ps.foldl State.sweepJob (s.onTier fun b => { b with
    sweepAt := s.mtime, gathered := [], sweeping := true, decay := max 1 (s.fd Fd.TIER_CTL_DECAY_MS) })

/-- Order of a candidate list: bin, then sequence, layer and position. -/
def candLt (a b : Nat × Nat × Nat × Nat) : Bool :=
  a.1 < b.1 || (a.1 == b.1 && (a.2.1 < b.2.1 || (a.2.1 == b.2.1 && a.2.2.1 < b.2.2.1)))
def candInsert (x : Nat × Nat × Nat × Nat) : List (Nat × Nat × Nat × Nat) → List (Nat × Nat × Nat × Nat)
  | [] => [x]
  | y :: l => if candLt x y then x :: y :: l else y :: candInsert x l

/-- The candidate list of a partition from what the geckos gathered. -/
def State.candidateList (s : State) (part : Nat) : List Nat :=
  let l := s.tier.gathered.foldl (fun l g =>
    match s.desc g.1 with
    | some x =>
      if x.part = part ∧ x.state = .sealed ∧ !x.pinned ∧ !x.ofTwin ∧ x.loc.tier = .hbm ∧ g.2 ≤ s.fd Fd.TIER_POLICY_DEMOTE_MAX then
        let n := (s.nameOf g.1).getD (0, 0)
        candInsert (heatBin g.2, n.1, keyLayer n.2 * 2 ^ 20 + keyPos n.2, g.1) l
      else l
    | none => l) []
  l.map (·.2.2.2)

/-- The histogram of a partition and a tier: key (partition * 2 + tier) * 16 + bin. -/
def State.histograms (s : State) : Tbl Nat :=
  s.tier.gathered.foldl (fun t g =>
    match s.desc g.1 with
    | some x =>
      if x.loc.tier = .hbm ∨ x.loc.tier = .pcache then
        let k := (x.part * 2 + x.loc.tier.code) * 16 + heatBin g.2
        tset t k ((tfind t k).getD 0 + 1)
      else t
    | none => t) []

/-- Hot mirror copies of a heat the TIER would demote now are released; their FLASH copy is the page (R320). -/
def State.coolHot (s : State) : State :=
  s.twn.hot.foldl (fun (s : State) (h : Nat × Nat) =>
    match s.desc h.1 with
    | some x =>
      if x.heat ≤ s.fd Fd.TIER_POLICY_DEMOTE_MAX ∧ (s.tier.pressure ∨ s.overSoft x.part 1) then
        (((s.onTwn fun t => { t with hot := tdel t.hot h.1 }).uncharge4 x.part 1 (chargeOf .hbm x.def0)).retireFrame
          x.loc x.def0 x.part true).modDesc h.1 fun x => { x with loc := ⟨.flash, 0, h.2⟩ }
      else s
    | none => s) s

/-- The sweep is complete: its results replace the previous ones. -/
def State.endSweep (s : State) : State :=
  if !s.tier.sweeping || !s.tier.sweepLeft.isEmpty then s else
  let cs := (List.range 16).foldl (fun t p => tput [] t p (s.candidateList p)) ([] : Tbl (List Nat))
  let hs := s.histograms
  let cool := (s.pgt.descs.filter fun p => p.2.movable .pcache && p.2.heat < s.fd Fd.TIER_POLICY_KEEP_PC).map fun p => (p.1, Tier.hbm)
  ((s.clearSweep.onTier fun b => { b with
    candidates := cs, histograms := hs, gathered := [], due := b.due ++ cool.filter (fun y => !b.due.contains y) }).inc
    Fd.TIER_SWEEPS_COUNT).coolHot

/-! ## Meanings -/

/-- HEAT_SWEEP (R167): where the previous sweep has not ended by then, what is left of it is skipped (R216). -/
def execHeatSweep (s : State) : Host.Outcome State Fault Refusal :=
  actIf s (decide (s.tier.sweepAt + s.tier.decay * 100000 ≤ s.mtime)) State.startSweep

/-- SWEEP_DONE (R168). -/
def execSweepDone (s : State) : Host.Outcome State Fault Refusal := act s State.endSweep

/-- LEAP_BEGIN of page `desc` to tier `dest` of Table 3-4 (R175). -/
def execLeapBegin (desc dest : Nat) (s : State) : Host.Outcome State Fault Refusal :=
  act s fun s => (s.tryLeap desc (tierOf dest)).settle

/-- LEAP_COMMIT (R175, R176). -/
def execLeapCommit (desc : Nat) (ok : Bool) (s : State) : Host.Outcome State Fault Refusal :=
  act s fun s => (s.leapDone desc ok).settle.returnExtents

/-- A store to TIER_PIN_CTL while a command runs starts nothing (Table 9-10). -/
def State.pinStore (s : State) (f : State → State) : State :=
  if s.flag Fd.TIER_PIN_CTL_BUSY then s.setFd Fd.TIER_PIN_CTL_RESULT stBUSY else f s

/-- The sequence TIER_PIN_HANDLE names. -/
def State.pinSeq (s : State) : Option Nat :=
  let h := s.fd Fd.TIER_PIN_HANDLE_HANDLE
  match s.keyOf h with
  | some k => if s.handleOk h (hPart h) k then some k else none
  | none => none

/-- PIN: a store of CMD 1 to TIER_PIN_CTL (R178). -/
def execPin (v : Word) (s : State) : Host.Outcome State Fault Refusal :=
  actIf s (bits v.toNat 1 0 == 1) fun s => s.pinStore fun s =>
    match s.pinSeq with
    | none => (s.setFd Fd.TIER_PIN_CTL_RESULT stBOUNDS).raise Fd.TIER_ERR_PIN_FAIL
    | some k => ((s.setFd Fd.TIER_PIN_CTL_BUSY 1).takePlace k .pin 0 0 [] none).settle

/-- UNPIN: a store of CMD 2 (R178). -/
def execUnpin (v : Word) (s : State) : Host.Outcome State Fault Refusal :=
  actIf s (bits v.toNat 1 0 == 2) fun s => s.pinStore fun s =>
    match s.pinSeq with
    | none => s.setFd Fd.TIER_PIN_CTL_RESULT stBOUNDS
    | some k => (s.setPinned k false).setFd Fd.TIER_PIN_CTL_RESULT stOK

/-- FAULT_ISSUE (R181). -/
def execFaultIssue (desc : Nat) (s : State) : Host.Outcome State Fault Refusal := act s fun s => s.issueFault desc

/-- ASSEMBLY_UNIT_PROGRAM (R183): 1 ms after its first page a part-filled unit is programmed. -/
def execAssemblyUnitProgram (part : Fin 16) (mirror : Bool) (s : State) : Host.Outcome State Fault Refusal :=
  act s fun s =>
    match s.assembly mirror part.val with
    | some a => if a.firstAt + 100000 ≤ s.mtime ∨ 32 ≤ a.fill then s.programAssembly a else s
    | none => s

/-- PCACHE_BLOCK_ZEROED (R369): block `blk` of a slice reads zero and may be allocated again. -/
def execPcacheBlockZeroed (slice_ : Fin 32) (blk : Nat) (s : State) : Host.Outcome State Fault Refusal :=
  act s fun s =>
    let b := blk * 32 + slice_.val
    if s.tier.pcDirty.any (fun x => x.1 == b) then
      { (s.onTier fun t => { t with pcDirty := t.pcDirty.filter (fun x => x.1 != b) }) with
        pcache := zeroRange s.pcache (b * 4096) 4096 }
    else s

end Sys2Proof.Machine
end

