-- ==== Sys2Proof/Machine/Lend.lean ====
section
/-! DEFINITION. Lending and borrowing (R184-R189). Extents lent are kept by the lender's extent index; extents borrowed by
the lender's node * 512 + that index. -/

namespace Sys2Proof.Machine

def borrowKey (node ext : Nat) : Nat := node * 512 + ext % 512

/-- Frames of 1 GiB. -/
def gib : Nat := 524288

/-- A field of LEND_OFFER (Table 9-5). -/
def ltype (p : List Byte) : Nat := lat p 0 1
def lpart (p : List Byte) : Nat := lat p 1 1 % 16
def lext (p : List Byte) : Nat := lat p 2 2 % 512

/-- Reserved fields, and those of other LTYPEs, are zero, and the length fits. -/
def lendOk (p : List Byte) : Bool :=
  let t := ltype p
  let n := lat p 18 2
  1 ≤ t && t ≤ 5 && lat p 1 1 < 32 && (t == 1 || lat p 1 1 < 16) && lat p 2 2 < 512 && lat p 4 4 < 2 ^ 20 && (t == 5 || lat p 4 4 == 0) &&
  (t == 1 || lat p 8 8 == 0) && (t == 2 || lat p 16 2 == 0) && zeroAt p 20 12 && p.length == 32 + 8 * n &&
  (if t == 4 then 1 ≤ n && n ≤ 1000 else n == 0)

/-! ## The lender -/

def State.lentX (s : State) (e : Nat) : Option Extent := tfind s.tier.lent e
def State.modLent (s : State) (e : Nat) (f : Extent → Extent) : State := s.onTier fun b => { b with lent := tmod b.lent e f }

/-- Extents lent out, whatever their state but FREE. -/
def State.lentOut (s : State) : Nat := s.tier.lent.length

/-- An extent taken back into tier 2. -/
def State.takeBack (s : State) (e : Nat) : State :=
  match s.lentX e with
  | none => s
  | some x => (s.freeHbm (x.base / 2048)).onTier fun b => { b with lent := tdel b.lent e }

/-- A 1 GiB extent of free tier 2. -/
def State.freeExtent (s : State) : Option Nat :=
  let lo := s.tier2Base / 2048
  (List.range 496).map (· * gib) |>.find? fun a => lo ≤ a && a + gib ≤ hbmBytes / 2048 && s.tier.hbmUsed.all (fun p => p.1 + p.2 ≤ a || a + gib ≤ p.1)

/-- OFFER of one extent to peer i (R184). -/
def State.sendOffer (s : State) (i : Nat) : State :=
  let node := s.fd (Fd.TIER_PEER_NODE i)
  let next := ((List.range 16).map (fun j => (s.tier.lendTurn + j) % 16)).find? (fun j => s.flag (Fd.TIER_PEER_LEND_TO j))
  let free := s.freeTier2
  if !s.flag Fd.TIER_CTL_LEND || next != some i || s.tier.lent.any (fun e => e.2.estate == .offered && !e.2.inherited) ||
      free < (s.fd Fd.TIER_LEND_CTL_RESERVE_GIB + 1) * 2 ^ 30 || s.fd Fd.TIER_LEND_CTL_MAX_GIB ≤ s.lentOut then s else
  match s.freeExtent, (List.range 512).find? (fun e => (s.lentX e).isNone), s.conduitToNode node with
  | some a, some e, some c =>
    let s := s.onTier fun b => { b with
      lendTurn := (i + 1) % 16
      hbmUsed := tset b.hbmUsed a gib
      lent := tset b.lent e ⟨.offered, node, 0, a * 2048, [], none, false, c, false, none, false⟩ }
    s.send c 0x1A 5 (lendPayload 1 0 e 0 (a * 2048) 0 false []) (.offer e)
  | _, _, _ => s

/-- The peer answers an OFFER: ACTIVE for the partition it names, or taken back. -/
def State.offerAnswered (s : State) (e st part : Nat) : State :=
  match s.lentX e with
  | none => s
  | some x =>
    if x.estate != .offered then s
    else if st = stOK then s.modLent e fun x => { x with estate := .active, part := part % 16 }
    else s.takeBack e

/-- A free frame of n units in an extent, in a channel in service. -/
def State.extentRoom (s : State) (x : Extent) (n : Nat) : Option Nat :=
  let lo := x.base / 2048
  let bad := (List.range 256).filter fun i => !s.chanUsable (chanOf (x.base + 65536 * i))
  let free := fun a => lo ≤ a && a + n ≤ lo + gib && x.frames.all (fun p => p.1 + p.2 ≤ a || a + n ≤ p.1)
  let starts := lo :: x.frames.map (fun p => ceilDiv (p.1 + p.2) n * n)
  let next := fun a => a :: (List.range (bad.length + 1)).map (fun j => (a / 32 + 1 + j) * 32)
  (starts.flatMap next).find? fun a => free a && s.chanUsable (chanOf (a * 2048))

/-- The extent of the sender that admits a store (R185): a status, and the frame. -/
def State.storeAt (s : State) (node part ext n : Nat) : Nat × Option Nat :=
  match s.lentX ext with
  | none => (stBOUNDS, none)
  | some x =>
    if x.estate != .active || x.node != node || x.part != part then (stBOUNDS, none) else
    match s.extentRoom x n with
    | none => (stQUOTA, none)
    | some a => (stOK, some a)

/-- A LEAP_PUSH that stores a page (R185). -/
def State.leapStore (s : State) (c q : Nat) (p : List Byte) : State :=
  let part := lat p 10 1 % 16
  let ext := lat p 8 2 % 512
  let n := frameUnits (lat p 11 1 % 8)
  let len := lat p 12 4
  if p.length ≠ 32 + len ∨ 512 ≤ lat p 8 2 ∨ 16 ≤ lat p 10 1 ∨ 16 ≤ lat p 11 1 ∨ lat p 20 4 ≠ 0 ∨ lat p 24 8 ≠ 0 ∨
      5 < lat p 11 1 % 8 ∨ n * 2048 < len then s.respond c q 5 stFORMAT []
  else if part ≠ s.partOf c then s.respond c q 5 stBOUNDS []
  else
    match s.storeAt (s.peerOf c) part ext n with
    | (st, none) => s.respond c q 5 st []
    | (_, some a) =>
      let data := p.drop 32
      if crc32c data ≠ lat p 16 4 then s.respond c q 5 stPOISONED [] else
      ((s.modLent ext fun x => { x with frames := tset x.frames a n }).hbmWrite (a * 2048) data).respond c q 5 stOK (le 8 a)

/-- A LEAP_PULL (R185). -/
def State.leapPulled (s : State) (c q : Nat) (p : List Byte) : State :=
  let part := lat p 10 1 % 16
  let frame := lat p 24 8
  let n := frameUnits (lat p 11 1 % 8)
  if p.length ≠ 32 ∨ 512 ≤ lat p 8 2 ∨ 16 ≤ lat p 10 1 ∨ 8 ≤ lat p 11 1 ∨ 5 < lat p 11 1 ∨ lat p 20 4 ≠ 0 ∨ n * 2048 < lat p 12 4 then
    s.respond c q 5 stFORMAT []
  else if part ≠ s.partOf c ∨ (s.lentAt (s.peerOf c) part frame n).isNone then s.respond c q 5 stBOUNDS []
  else
    let data := s.hbmRead (frame * 2048) (lat p 12 4)
    s.send c 0x19 5 (leapHeader (lat p 0 8) (lat p 8 2) part (lat p 11 1) data.length (crc32c data) frame true ++ data) .plain

/-- RELEASE: the frames are reclaimed under the lender's own epochs (R185). -/
def State.lendRelease (s : State) (node : Nat) (p : List Byte) : State :=
  (List.range (lat p 18 2)).foldl (fun s i =>
    let f := lat p (32 + 8 * i) 8
    match s.lentX (lext p) with
    | some x =>
      if x.node = node ∧ (tfind x.frames f).isSome ∧
          !s.pgt.reclaim.any (fun r => r.loc == some ⟨.lent, s.node, f⟩) then
        s.retireFrame ⟨.lent, s.node, f⟩ 0 x.part true
      else s
    | none => s) s

/-- The lender recalls its ACTIVE extent with the fewest frames in use (R186). -/
def State.recall (s : State) : State :=
  let s := s.waterMark
  if s.fd Fd.TIER_WATER_LOW_MIB * 2 ^ 20 ≤ s.freeTier2 then s else
  let used := fun (x : Extent) => x.frames.foldl (fun n (p : Nat × Nat) => n + p.2) 0
  let best := (s.tier.lent.filter (fun e => e.2.estate == .active)).foldl (fun (b : Option (Nat × Extent)) e =>
    match b with
    | some y => if used e.2 < used y.2 then some e else some y
    | none => some e) none
  match best with
  | none => s
  | some (e, x) =>
    let ms := max 1 (s.fd Fd.TIER_LEND_CTL_RECALL_MS)
    let s := s.modLent e fun x => { x with estate := .recalling, deadline := some (s.usec + ms * 1000) }
    match s.conduitTo x.node x.part with
    | some c => s.send c 0x1A 5 (lendPayload 2 x.part e 0 0 ms false []) .plain
    | none => s

/-- A RETURNED or lost extent whose frames have all been reclaimed goes back to tier 2 (R186 step 4, R189). -/
def State.settleExtent (s : State) (e : Nat) : State :=
  match s.lentX e with
  | none => s
  | some x => if (x.returned || x.lostEpoch.isSome) && x.frames.isEmpty then s.takeBack e else s

/-- A lender loses a borrower (R189). -/
def State.loseBorrower (s : State) (node : Nat) : State :=
  let hit := s.tier.lent.filter (fun e => e.2.node == node && e.2.lostEpoch.isNone)
  if hit.isEmpty then s else
  (hit.foldl (fun s e =>
    if e.2.estate == .offered then s.takeBack e.1
    else s.modLent e.1 fun x => { x with estate := .returning, lostEpoch := some s.pgt.epoch }) s).raise Fd.TIER_ERR_BORROWER_LOST

/-- Every frame of a lost borrower's extent is reclaimed once the streams admitted before the loss have ended (R189). -/
def State.reclaimExtent (s : State) (e : Nat) : State :=
  match s.lentX e with
  | none => s
  | some x =>
    match x.lostEpoch with
    | none => s
    | some ep =>
      if !s.epochClear ep then s else
      (x.frames.foldl (fun (s : State) (p : Nat × Nat) =>
        if s.pgt.reclaim.any (fun r => r.loc == some ⟨.lent, s.node, p.1⟩) ||
            s.hb.jobs.any (fun j => j.use == .zeroLent e p.1) then s
        else s.zeroOwnLent p.1) s).settleExtent e

/-- REASSIGN (R187). -/
def State.reassign (s : State) (c q : Nat) (p : List Byte) : State :=
  let e := lext p
  let node := lat p 4 4
  match s.lentX e with
  | none => s.respond c q 5 stBOUNDS []
  | some x =>
    if x.node ≠ s.peerOf c ∨ x.part ≠ lpart p ∨ (x.estate ≠ .active ∧ x.estate ≠ .recalling) then s.respond c q 5 stBOUNDS []
    else
      let s := s.modLent e fun x => { x with node := node }
      let s := match s.conduitToNode node with
        | some v => s.send v 0x1A 5 (lendPayload 1 x.part e 0 x.base 0 true []) .plain
        | none => s
      s.respond c q 5 stOK []

/-! ## The borrower -/

/-- TIER_PEER entry for a node from which offers may be accepted. -/
def State.peerEntry (s : State) (node : Nat) : Option Nat :=
  (List.range 16).find? fun i => s.flag (Fd.TIER_PEER_BORROW_FROM i) && s.fd (Fd.TIER_PEER_NODE i) == node

/-- Partitions a peer's extent could be bound to: in its mask and below their LENT hard quota. -/
def State.borrowParts (s : State) (i : Nat) : List Nat :=
  (List.range 16).filter fun p => bits (s.fd (Fd.TIER_PEER_PART_MASK i)) p p == 1 &&
    (s.fd (Fd.TIER_QUOTA_HARD_MIB p 2) == 0xFFFFFFFF || s.usage p 2 < s.fd (Fd.TIER_QUOTA_HARD_MIB p 2) * 2 ^ 20)

/-- Usage above the HBM soft quota. -/
def State.aboveSoft (s : State) (p : Nat) : Int :=
  let q := s.fd (Fd.TIER_QUOTA_SOFT_MIB p 1)
  (s.usage p 1 : Int) - (if q = 0xFFFFFFFF then 2 ^ 60 else q * 2 ^ 20 : Nat)

/-- The partition furthest above its HBM soft quota. -/
def State.neediest (s : State) (l : List Nat) : Option Nat :=
  l.foldl (fun (b : Option Nat) p => match b with
    | none => some p
    | some y => if s.aboveSoft y < s.aboveSoft p then some p else some y) none

/-- An OFFER received (R184, R187). -/
def State.offered (s : State) (c q : Nat) (p : List Byte) : State :=
  let node := s.peerOf c
  let inherit_ := lat p 1 1 / 16 % 2 == 1
  let parts := ((s.peerEntry node).map s.borrowParts).getD []
  let part := if inherit_ then (if parts.contains (lpart p) then some (lpart p) else none) else s.neediest parts
  match part with
  | some part =>
    if s.flag Fd.TIER_CTL_BORROW && s.tier.borrowed.length < 512 && lat p 8 8 % 2 ^ 30 == 0 then
      (s.onTier fun b => { b with
        borrowed := tset b.borrowed (borrowKey node (lext p)) ⟨.active, node, part, lat p 8 8, [], none, false, c, inherit_, none, false⟩ }).respond
        c q 5 stOK (le 1 part)
    else s.respond c q 5 stQUOTA []
  | none => s.respond c q 5 stQUOTA []

/-- RECALL received (R186). -/
def State.recalledBy (s : State) (node : Nat) (p : List Byte) : State :=
  (s.onTier fun b => { b with borrowed := tmod b.borrowed (borrowKey node (lext p)) fun x =>
    if x.estate == .active then { x with estate := .recalling, deadline := some (s.usec + lat p 16 2 * 1000) } else x }).returnExtents

/-- A borrower loses a lender (R188): its pages there become POISONED, the extents are forgotten. -/
def State.loseLent (s : State) (node : Nat) : State :=
  let any_ := s.tier.borrowed.any (fun e => e.2.node == node) || s.pgt.descs.any (fun p => p.2.loc.tier == .lent && p.2.loc.node == node)
  if !any_ then s else
  let s := (s.tier.leaps.filter (fun l => (l.ext.map (fun e => e / 512 == node)).getD false)).foldl State.abandonLeap s
  let s := s.pgt.descs.foldl (fun (s : State) (p : Nat × Desc) =>
    if p.2.loc.tier == .lent && p.2.loc.node == node then s.poisonPage p.1 else s) s
  (s.onTier fun b => { b with borrowed := b.borrowed.filter (fun e => e.2.node != node) }).raise Fd.TIER_ERR_LENDER_LOST

/-! ## Meanings -/

/-- A LEND_OFFER message of one kind. -/
def recvLend (c : Conduit) (q : W32) (p : List Byte) (kind : Nat) (f : State → State) (s : State) : Host.Outcome State Fault Refusal :=
  act s fun s =>
    let s := s.takeHanded c.val q.toNat 0x1A
    if !lendOk p || ltype p != kind then s.respond c.val q.toNat 5 stFORMAT [] else (f s).settle

/-- OFFER_SEND (R184). -/
def execOfferSend (peer : Fin 16) (s : State) : Host.Outcome State Fault Refusal := act s fun s => s.sendOffer peer.val

/-- LEND_OFFER: a LEND_OFFER message of type OFFER (R184). -/
def execLendOffer (c : Conduit) (q : W32) (p : List Byte) (s : State) : Host.Outcome State Fault Refusal :=
  recvLend c q p 1 (fun s => s.offered c.val q.toNat p) s

/-- LEAP_PULL (R185): where a LOCK holds the frame, it is answered once that is released (R212). -/
def execLeapPull (c : Conduit) (q : W32) (p : List Byte) (s : State) : Host.Outcome State Fault Refusal :=
  actIf s (!s.lockedAt (lat p 24 8 * 2048) (lat p 12 4)) fun s => (s.takeHanded c.val q.toNat 0x18).leapPulled c.val q.toNat p

/-- LEND_RELEASE: a LEND_OFFER message of type RELEASE (R185). -/
def execLendRelease (c : Conduit) (q : W32) (p : List Byte) (s : State) : Host.Outcome State Fault Refusal :=
  recvLend c q p 4 (fun s => s.lendRelease (s.peerOf c.val) p) s

/-- RECALL_START (R186). -/
def execRecallStart (s : State) : Host.Outcome State Fault Refusal := act s State.recall

/-- LEND_RECALL: a LEND_OFFER message of type RECALL (R186). -/
def execLendRecall (c : Conduit) (q : W32) (p : List Byte) (s : State) : Host.Outcome State Fault Refusal :=
  recvLend c q p 2 (fun s => s.recalledBy (s.peerOf c.val) p) s

/-- LEND_RETURN: a LEND_OFFER message of type RETURN (R186). -/
def execLendReturn (c : Conduit) (q : W32) (p : List Byte) (s : State) : Host.Outcome State Fault Refusal :=
  recvLend c q p 3 (fun s =>
    match s.lentX (lext p) with
    | some x => if x.node = s.peerOf c.val then
        (s.modLent (lext p) fun x => { x with returned := true, estate := .returning }).settleExtent (lext p) else s
    | none => s) s

/-- RECALL_DEADLINE (R186): the lender sets RECALL_LATE and goes on waiting. -/
def execRecallDeadline (ext : Fin 512) (s : State) : Host.Outcome State Fault Refusal :=
  act s fun s =>
    match s.lentX ext.val with
    | some x =>
      match x.deadline with
      | some t => if x.estate == .recalling && !x.late && t ≤ s.usec then
          (s.modLent ext.val fun x => { x with late := true }).raise Fd.TIER_ERR_RECALL_LATE else s
      | none => s
    | none => s

/-- LEND_REASSIGN: a LEND_OFFER message of type REASSIGN (R187). -/
def execLendReassign (c : Conduit) (q : W32) (p : List Byte) (s : State) : Host.Outcome State Fault Refusal :=
  recvLend c q p 5 (fun s => s.reassign c.val q.toNat p) s

/-- EXTENT_RECLAIM (R189). -/
def execExtentReclaim (ext : Fin 512) (s : State) : Host.Outcome State Fault Refusal :=
  act s fun s => s.reclaimExtent ext.val

def ExtState.code : ExtState → Nat
  | .free => 0 | .offered => 1 | .active => 2 | .recalling => 3 | .returning => 4

/-- TIER_EXT_SNAPSHOT: a store to TIER_EXT_SEL (Table 9-10). Borrowed extents are indexed in the order of lender and extent. -/
def execTierExtSnapshot (v : Word) (s : State) : Host.Outcome State Fault Refusal :=
  act s fun s =>
    let s := s.storeFields 0 Reg.TIER_EXT_SEL v.toNat
    let i := s.fd Fd.TIER_EXT_SEL_INDEX
    let side := s.flag Fd.TIER_EXT_SEL_SIDE
    let x : Option (Nat × Extent) := if side then s.tier.borrowed[i]? else (s.lentX i).map fun x => (i, x)
    match x with
    | none => s.setReg Reg.TIER_EXT_INFO 0
    | some (_, x) =>
      let own := s.pgt.descs.foldl (fun n (p : Nat × Desc) =>
        if p.2.loc.tier == .lent && p.2.loc.node == x.node && x.base ≤ p.2.loc.frame * 2048 && p.2.loc.frame * 2048 < x.base + 2 ^ 30
        then n + frameUnits p.2.frameCode else n) 0
      let units := if side then own else x.frames.foldl (fun n (p : Nat × Nat) => n + p.2) 0
      s.setReg Reg.TIER_EXT_INFO (units * 2 / 1024 * 2 ^ 28 + x.estate.code * 2 ^ 24 + x.part * 2 ^ 20 + x.node)

end Sys2Proof.Machine
end

