-- ==== Sys2Proof/Machine/Pgt.lean ====
section
/-! DEFINITION. Seals, cold images, epochs and reclamation, the end of a FREE, check-value units and classes (chapter 3). -/

namespace Sys2Proof.Machine

/-! ## Seals (R52) -/

/-- A due tadpole takes a check-value unit (R52 step 2). -/
def State.startSeal (s : State) (d : Nat) : State :=
  match s.desc d, s.poolUnit with
  | some x, some u =>
    if x.state != .tadpole || !x.sealDue || x.sealUnit.isSome || s.cutDue d then s else
    let s := (s.onPgt fun p => { p with cvu := tset p.cvu u (.seal d) }).drawn
    (s.setFd (Fd.CVU_STATUS_BUSY u) 1).modDesc d fun x => { x with sealUnit := some u }
  | _, _ => s

/-- The units that compute the seal of a page are free again. -/
def State.freeSealUnits (s : State) (d : Nat) : State :=
  let us := (s.pgt.cvu.filter (fun p => p.2 == .seal d)).map Prod.fst
  us.foldl (fun s u => (s.onPgt fun p => { p with cvu := tdel p.cvu u }).setFd (Fd.CVU_STATUS_BUSY u) 0) s

/-- Steps 3 to 5 of R52. -/
def State.sealPage (s : State) (d : Nat) : State :=
  match s.desc d with
  | none => s
  | some x =>
    let c := crc32c (s.pageContent x)
    let s := s.modDesc d fun x => { x with
      crc := BitVec.ofNat 32 c, state := .sealed, sealDue := false, sealUnit := none }
    let s := s.queueDigest d
    (s.pgt.seqs.filter (fun q => q.2.pt.any (fun e => e.2 == d))).foldl (fun s q => s.prefixSeal q.1) s

/-- The check value is there: the page seals, unless the seal is abandoned. -/
def State.sealDone (s : State) (d : Nat) : State :=
  match s.desc d with
  | none => s.freeSealUnits d
  | some x =>
    let busy := s.pgt.cvu.any (fun p => p.2 == .seal d)
    let s := s.freeSealUnits d
    if !busy || x.sealUnit.isNone then s
    else if x.state != .tadpole || x.refcnt = 0 || s.cutDue d then s.modDesc d fun x => { x with sealUnit := none }
    else s.sealPage d

/-! ## The end of a FREE (R60, R358) -/

/-- What a freed sequence leaves in custody: its home's record, or the inbound entry and a RELEASE to its home. -/
def State.leaveCustody (s : State) (k : Nat) (q : Seq) : State :=
  let h := q.handle
  if hHome h = s.node then s.custChange (.drop (hIndex h)) []
  else if hHome h = s.node ^^^ 1 then s.custChange (.drop (twinKey (hIndex h))) []
  else
    let s := s.custChange (.outbound h) []
    let s := s.onPgt fun p => { p with gens := tset p.gens k (hGen h, s.usec) }
    match s.conduitTo (hHome h) (hPart h) with
    | some c => s.send c 0x24 6 (custPayload 9 0 q.custodyEpoch h s.node (hHome h) 0 []) (.custody 9 h)
    | none => s

/-- The references an image holds dropped, and its flash units trimmed (R44): a page whose descriptor the image took along
goes with it. -/
def State.dropImage (s : State) (im : ColdImage) : State :=
  (im.pages []).foldl (fun (s : State) (e : Nat × Nat) => match tfind im.descs e.2 with
    | some x => s.retireFrame x.loc x.def0 x.part x.ofTwin
    | none => s.dropRef e.2) (s.trimImage im)

/-- Every reference dropped, the tables and the record released. -/
def State.freeSeq (s : State) (k : Nat) : State :=
  match s.seq k with
  | none => s
  | some q =>
    let s := match q.cold with
      | some im => if q.pt.isEmpty then s.dropImage im else s.trimImage im
      | none => s
    let s := q.pt.foldl (fun s (e : Nat × Nat) => s.dropRef e.2) s
    (s.dropSeq k).onPgt fun p => { p with freeing := p.freeing.filter (· != k) }

/-- A FREE has ended: the sequence leaves, and its custody with it. -/
def State.freeDone (s : State) (k : Nat) : State :=
  match s.seq k with
  | none => s
  | some q => (s.freeSeq k).leaveCustody k q

/-! ## Meanings -/

/-- PAGE_SEAL (R52). -/
def execPageSeal (desc : Nat) (s : State) : Host.Outcome State Fault Refusal := act s fun s => s.startSeal desc

/-- SEAL_CRC_DONE (R52). -/
def execSealCrcDone (desc : Nat) (s : State) : Host.Outcome State Fault Refusal := actIf s s.awake fun s => s.sealDone desc

/-- COLD_CONVERSION (R43): the image of an idle sequence whose sealed pages all lie in FLASH is given to flash. -/
def execColdConversion (idx : Nat) (s : State) : Host.Outcome State Fault Refusal :=
  act s fun s =>
    match s.seq idx with
    | none => s
    | some q =>
      let ms := s.fd Fd.PGT_COLD_DELAY_MS
      let settled := q.pages.all fun d => match s.desc d with
        | some x => x.state == .tadpole && !x.sealDue || (x.state == .sealed && x.loc.tier == .flash)
        | none => false
      if ms = 0 ∨ q.sstate ≠ .active ∨ q.hidden ∨ q.cold.isSome ∨ s.usec < q.lastUse + ms * 1000 ∨ !settled ∨
          s.pgt.ops.any (fun o => o.seq == idx) ∨ s.cust.quiesced.contains idx then s else
      let im := s.imageOf q
      let body := im.bytes
      let n := max 1 (ceilDiv body.length 65536)
      match State.fltAllocN n (if idx < 2 ^ 24 then 3 else 2) s with
      | none => s
      | some (ls, t) =>
        let (st, u) := (ls.zipIdx).foldl (fun (r : Nat × State) (l, i) =>
          let live := ceilDiv (min 65536 (body.length - 65536 * i)) 2048
          let (st, s) := r.2.fltWrite l (max 1 live) (hPart q.handle) (slice body (65536 * i) 65536) (.image idx)
          (if r.1 = stOK then st else r.1, s)) (stOK, t)
        if st = stOK then u.modSeq idx fun q => { q with cold := some { im with units := ls } }
        else ls.foldl (fun s l => s.fltTrim l 1) u

/-- A thaw begins (R44): the image is read back; the thaw holds an epoch. -/
def State.startThaw (s : State) (idx : Nat) : State :=
  match s.seq idx with
  | none => s
  | some q =>
    if q.sstate != .cold || q.thawEpoch.isSome then s else
    let s := s.modSeq idx fun q => { q with thawing := true, thawEpoch := some s.pgt.epoch }
    ((q.cold.map (·.units)).getD []).foldl (fun s l => s.askRead l false) s

/-- THAW (R44). -/
def execThaw (idx : Nat) (s : State) : Host.Outcome State Fault Refusal := act s fun s => s.startThaw idx

/-- The bytes of an image as its units were read; none while a read is outstanding. -/
def State.imageRead (s : State) (im : ColdImage) : Option (List Byte) :=
  im.units.foldl (fun r l => r.bind fun b => (s.readAnswer l).map fun a => b ++ a.2) (some [])

/-- A thaw fails on both twins: every waiting request completes with POISONED, and the sequence stays COLD (R44). -/
def State.thawLost (s : State) (k : Nat) : State :=
  let s := (s.raise Fd.PGT_ERR_THAW_LOST).modSeq k fun q => { q with thawing := false, thawEpoch := none }
  (s.pgt.ops.filter (fun o => o.seq == k && o.phase == .waiting && o.kind != .free)).foldl (fun s op =>
    match op.kind with
    | .query => (s.rejectQuery op.conduit op.payload op.byWr stPOISONED).endOp op.id
    | .entry n => (s.endOp op.id).endEntry (n / 1024) (n % 1024) stPOISONED []
    | .pin => s.pinEnd op stPOISONED
    | .unpin => s
    | _ => s.failOp op stPOISONED) s

/-- The image has been read, and a check-value unit of the pool has compared its CRC-64 (R44, R53, R54); `twin`: the bytes of
the twin's mirror of it, which the pair's other member answers with where this member's image fails. -/
def State.thawDone (s : State) (k : Nat) (twin : Option (List Byte)) : State :=
  match s.seq k with
  | none => s
  | some q =>
    match q.cold with
    | none => s
    | some im =>
      match s.imageRead im with
      | none => s
      | some b =>
        if q.sstate != .cold || q.thawEpoch.isNone || s.poolUnit.isNone then s else
        let ok := fun (c : List Byte) => decide (crc64From 0 (slice c 0 (4096 * q.ptSize)) = q.ptCrc.toNat)
        let drop := fun (s : State) => im.units.foldl State.dropRead s
        if ok b || ((s.role == .paired || s.role == .regrowing) && (twin.map ok).getD false) then
          match s.reinstate k with
          | none => s
          | some s => ((drop s).inc Fd.PGT_THAWS_COUNT).settle
        else ((drop s).thawLost k).settle

/-- THAW_DONE (R44): the other member of the pair answered, with these bytes, or did not. -/
def execThawDone (idx : Nat) (answered : Bool) (twin : List Byte) (s : State) : Host.Outcome State Fault Refusal :=
  act s fun s => s.thawDone idx (if answered then some twin else none)

/-- PGT_EPOCH_ADVANCE (R62). -/
def execPgtEpochAdvance (s : State) : Host.Outcome State Fault Refusal :=
  actIf s (decide (s.pgt.epochAt + max 1 (s.fd Fd.PGT_CTL_EPOCH_PERIOD) * 100 ≤ s.mtime)) fun s =>
    s.onPgt fun p => { p with epoch := (p.epoch + 1) % 2 ^ 32, epochAt := s.mtime }

/-- PAGE_RECLAIM (R61): a page whose readers are gone is reclaimed; where none of that index waits, the oldest frame or
digest that a page has left. -/
def execPageReclaim (desc : Nat) (s : State) : Host.Outcome State Fault Refusal :=
  act s fun s =>
    let clear := fun (r : Reclaim) => s.epochClear r.epoch && (match r.desc with
      | some d => !s.tier.leaps.any (fun p => p.desc == d) && !s.hb.jobs.any (fun j => j.locks == some d) | none => true)
    match (s.pgt.reclaim.find? (fun r => r.desc == some desc && clear r)).or (s.pgt.reclaim.find? (fun r => r.desc.isNone && clear r)) with
    | none => s
    | some r => (s.reclaimOne r).shrinkPool.returnExtents

/-- CVU_GO: a store to CVU_CTL (Table 3-12). GO sees the owner before the store, so a store that takes a unit of the pool starts
no job (notes/assumptions/120.md). -/
def execCvuGo (u : Fin 16) (v : Word) (s : State) : Host.Outcome State Fault Refusal :=
  act s fun s =>
    let busy := (tfind s.pgt.cvu u.val).isSome
    let owner := s.fd (Fd.CVU_CTL_OWNER u.val)
    let s := s.storeFields 0 (Reg.CVU_CTL u.val) v.toNat
    let s := if busy then s.setFd (Fd.CVU_CTL_OWNER u.val) owner else s
    if busy || owner = 0 || bits v.toNat 0 0 = 0 then s
    else if s.fd (Fd.CVU_LEN_LEN u.val) = 0 then
      let c := s.fd (Fd.CVU_CTX_CTX u.val)
      let fin := if s.flag (Fd.CVU_CTL_FINAL u.val) && !s.flag (Fd.CVU_CTL_POLY u.val) then c ^^^ 0xFFFFFFFF else c
      (s.setReg (Reg.CVU_RESULT u.val) fin).raise (Fd.CVU_STATUS_DONE u.val)
    else (s.onPgt fun p => { p with cvu := tset p.cvu u.val .software }).setFd (Fd.CVU_STATUS_BUSY u.val) 1

/-- CVU_CTX_WRITE (Table 3-13). -/
def execCvuCtxWrite (u : Fin 16) (v : Word) (s : State) : Host.Outcome State Fault Refusal :=
  act s fun s =>
    if (tfind s.pgt.cvu u.val).isSome then s.raise (Fd.CVU_STATUS_CTX_BUSY u.val)
    else s.setReg (Reg.CVU_CTX u.val) (if s.flag (Fd.CVU_CTL_POLY u.val) then v.toNat else v.toNat % 2 ^ 32)

/-- The running value of a unit after n bytes of its job (Table 3-8), under the registers of the moment it ends: what is stored to
them while BUSY acts on the running job (notes/assumptions/120.md). -/
def State.cvuRun (s : State) (u n : Nat) : Nat :=
  let l := s.hbmRead (s.fd (Fd.CVU_SRC_ADDR u)) n
  if s.flag (Fd.CVU_CTL_POLY u) then crc64From (s.fd (Fd.CVU_CTX_CTX u)) l else crc32cFrom (s.fd (Fd.CVU_CTX_CTX u) % 2 ^ 32) l

/-- CVU_JOB_DONE (R54): the job ends, or stops before the 32 bytes that failed: an uncorrectable error at byte `errAt`, or an
address outside device memory. A job whose bytes lie in a LOCK range goes on until the lock is released (R212). -/
def execCvuJobDone (u : Fin 16) (errAt : Option Nat) (s : State) : Host.Outcome State Fault Refusal :=
  actIf s (tfind s.pgt.cvu u.val == some .software && s.awake && !s.lockedAt (s.fd (Fd.CVU_SRC_ADDR u.val)) (s.fd (Fd.CVU_LEN_LEN u.val))) fun s =>
    let len := s.fd (Fd.CVU_LEN_LEN u.val)
    let room := hbmBytes - s.fd (Fd.CVU_SRC_ADDR u.val)
    let bad : Option Nat := match errAt with
      | some k => if k < len then some (min k room) else if room < len then some room else none
      | none => if room < len then some room else none
    let s := (s.onPgt fun p => { p with cvu := tdel p.cvu u.val }).setFd (Fd.CVU_STATUS_BUSY u.val) 0
    match bad with
    | some k => (s.setReg (Reg.CVU_CTX u.val) (s.cvuRun u.val (k / 32 * 32))).raise (Fd.CVU_STATUS_ERR u.val)
    | none =>
      let c := s.cvuRun u.val len
      let fin := if s.flag (Fd.CVU_CTL_FINAL u.val) && !s.flag (Fd.CVU_CTL_POLY u.val) then c ^^^ 0xFFFFFFFF else c
      ((s.setReg (Reg.CVU_CTX u.val) c).setReg (Reg.CVU_RESULT u.val) fin).raise (Fd.CVU_STATUS_DONE u.val)

/-- A class that is valid and has sequences: its fields stand (Table 3-17). -/
def State.classHeld (s : State) (c : Nat) : Bool :=
  clsValid (s.def0 c) && s.pgt.seqs.any (fun q => q.1 < 2 ^ 24 && q.2.cls == c)

/-- CLASS_DEFINE: a store to PGT_CLASS_DEF0 (R41, Table 3-17). -/
def execClassDefine (v : Word) (s : State) : Host.Outcome State Fault Refusal :=
  act s fun s =>
    let c := s.fd Fd.PGT_CLASS_SEL_CLASS
    if s.classHeld c then s.raise Fd.PGT_ERR_CLASS_BUSY else
    let s := s.storeFields c Reg.PGT_CLASS_DEF0 v.toNat
    if bits v.toNat 15 15 = 0 then s
    else if classDefOk (s.def0 c) (clsGroups (s.def1 c)) then s
    else (s.setFd (Fd.PGT_CLASS_DEF0_VALID.at c) 0).raise Fd.PGT_ERR_CLASS_FORMAT

/-- CLASS_DEF1_WRITE: a store to PGT_CLASS_DEF1 (Table 3-17). -/
def execClassDef1Write (v : Word) (s : State) : Host.Outcome State Fault Refusal :=
  act s fun s =>
    let c := s.fd Fd.PGT_CLASS_SEL_CLASS
    if s.classHeld c then s.raise Fd.PGT_ERR_CLASS_BUSY
    else (s.storeFields c Reg.PGT_CLASS_DEF1 v.toNat).setFd (Fd.PGT_CLASS_DEF0_VALID.at c) 0

/-- DESC_SNAPSHOT: a store to PGT_DESC_SEL (R45, Table 3-18). -/
def execDescSnapshot (v : Word) (s : State) : Host.Outcome State Fault Refusal :=
  act s fun s =>
    let s := s.storeFields 0 Reg.PGT_DESC_SEL v.toNat
    let b := match s.desc (s.fd Fd.PGT_DESC_SEL_INDEX) with | some x => x.bytes | none => zeros 32
    (((s.setReg Reg.PGT_DESC_DATA0 (lat b 0 8)).setReg Reg.PGT_DESC_DATA1 (lat b 8 8)).setReg Reg.PGT_DESC_DATA2
      (lat b 16 8)).setReg Reg.PGT_DESC_DATA3 (lat b 24 8)

/-- FREE_COMPLETE (R60, R358). -/
def execFreeComplete (idx : Nat) (s : State) : Host.Outcome State Fault Refusal :=
  act s fun s => if s.pgt.freeing.contains idx then (s.freeDone idx).settle else s

end Sys2Proof.Machine
end

