-- ==== Sys2Proof/Machine/Restore.lean ====
section
/-! DEFINITION. Restoration of POISONED pages from the twin's copy (R46-R48, R52, R188, R323, R338). -/

namespace Sys2Proof.Machine

/-- A tadpole is due to be sealed: its 16 slots are committed, or a sequence that names it is CLOSED (R52). -/
def State.fullTadpole (s : State) (d : Nat) : Bool :=
  s.pgt.seqs.any fun q => q.2.pt.any fun e => e.2 == d && (q.2.closed || decide (16 * (keyPos e.1 + 1) ≤ q.2.len (keyLayer e.1)))

/-- A POISONED page returns to the state it had, at a location (Table 3-6). -/
def State.unpoison (s : State) (d : Nat) (l : Loc) : State :=
  let s := s.modDesc d fun x => { x with loc := l, state := restoredState x, lost := false }
  if ((s.desc d).map (·.state)) = some .tadpole && s.fullTadpole d then s.modDesc d fun x => { x with sealDue := true } else s

/-- That, and whatever waits on the page goes on. -/
def State.restoreAt (s : State) (d : Nat) (l : Loc) : State := (s.unpoison d l).wakePage d l (fun _ => true)

/-- The restored page goes to FLASH for want of room in HBM (R188): a leap that has its content, and a landing frame, if there is
one, for those that wait; the others ask again when it commits. -/
def State.restoreToFlash (s : State) (d : Nat) (x : Desc) (c : List Byte) : State :=
  let s := match s.takePc (frameUnits x.frameCode) true with
    | some (a, s) => ((s.pcWrite (a * 2048) c).wakePage d ⟨.pcache, 0, a⟩ (fun _ => true)).retireFrame ⟨.pcache, 0, a⟩ x.def0 x.part true
    | none => s
  let s := s.charge4 x.part 3 (chargeOf .flash x.def0)
  let s := if s.underHard x.part 3 0 then s else s.hardBlock
  let s := ((s.unpoison d x.loc).modDesc d fun x => { x with state := .inLeap }).onTier fun b => { b with
    nextLeap := b.nextLeap + 1
    leaps := b.leaps ++ [⟨d, x.loc, .flash, none, s.pgt.epoch, false, some c, false, none, false, none, b.nextLeap⟩] }
  s.pack false x.part d (flashSlots x.def0)

/-- The content of a POISONED page has come: it goes back into its frame, into a new one in HBM, or, for want of room, to
FLASH (R188, R338). A tadpole or a mirror page waits for a frame in HBM (R46). -/
def State.restorePage (s : State) (d : Nat) (x : Desc) (c : List Byte) : State :=
  let n := frameUnits x.frameCode
  let inPlace := (x.loc.tier == .hbm && s.chanUsable (chanOf (x.loc.frame * 2048))) || x.loc.tier == .pcache
  if inPlace then
    let s := if x.loc.tier = .hbm then s.writePage x c else s.pcWrite (x.loc.frame * 2048) c
    s.restoreAt d x.loc
  else
    let room := if x.ofTwin || !x.wasSealed then (s.takeHbmRaw n n (fun _ => true)).map (fun r => (r.1, if x.ofTwin then r.2 else r.2.charge4 x.part 1 (n * 2048)))
      else s.takeHbm x.part n n (fun _ => true)
    match room with
    | some (a, s) =>
      let s := (s.hbmWrite (a * 2048) c).retireFrame x.loc x.def0 x.part x.ofTwin
      let s := (s.restoreAt d ⟨.hbm, 0, a⟩).relocate d x.loc ⟨.hbm, 0, a⟩
      if x.ofTwin then s.pack true x.part d (flashSlots x.def0) else s
    | none =>
      if x.wasSealed && !x.ofTwin then s.restoreToFlash d x c
      else s.onTier fun b => { b with unplaced := tset b.unplaced d c }

/-- Frames have become free: restored pages that found none look for one again, and operations that wait for them go on. -/
def State.retryRestores (s : State) : State :=
  if s.tier.unplaced.isEmpty then s else
  let l := s.tier.unplaced
  (l.foldl (fun s p => match s.desc p.1 with
    | some x => if x.state == .poisoned then s.restorePage p.1 x p.2 else s
    | none => s) (s.onTier fun b => { b with unplaced := [] })).settle

/-- The twin cannot help: the page stays POISONED (R48). -/
def State.restoreFailed (s : State) (d : Nat) : State :=
  match s.desc d with
  | some x => if x.state == .poisoned then ((s.modDesc d fun x => { x with lost := true }).lostPage d).settle else s
  | none => s

end Sys2Proof.Machine
end

