-- ==== Sys2Proof/Machine/Layout.lean ====
section
/-! DEFINITION. The bytes a core reads where the device's own structures stand in HBM and in PCACHE: page descriptors, sequence
records, prefix slots and page tables (chapters 3 and 4), stream contexts, work lists, unit lists and merge areas (chapters 5 and
6), the flash map and occupancy table (R222). The model holds them as fields of State; what their tables do not lay out is in
notes/assumptions/119.md. -/

namespace Sys2Proof.Machine

/-- Byte `a` of a structure that starts at `base`. -/
def byteIn (base : Nat) (l : List Byte) (a : Nat) : Option Byte := if base ≤ a then l[a - base]? else none

/-! ## Chapters 3 and 4 -/

/-- The prefix slot of a sequence (Table 4-1). -/
def Seq.prefixSlot (q : Seq) : List Byte :=
  let ids := (q.tokids.take 16).flatMap (le 4)
  le 8 q.chainKey ++ le 4 (q.keyed + (if q.broken then 2 ^ 31 else 0)) ++ zeros 4 ++ ids ++ zeros (112 - ids.length)

/-- A chunk of the descriptor pool (R42). -/
def State.poolByte (s : State) (a : Nat) : Option Byte :=
  s.pgt.chunks.zipIdx.findSome? fun (c, i) =>
    let o := a - c * 2048
    if c * 2048 ≤ a ∧ o < 2 ^ 21 then (s.desc (65536 * i + o / 32)).bind fun x => x.bytes[o % 32]? else none

/-- A chunk of sequence records or of prefix slots (R42, R67). -/
def State.seqByte (s : State) (a : Nat) : Option Byte :=
  s.pgt.seqChunks.findSome? fun (c, f) =>
    let o := a - f * 2048
    if ¬(f * 2048 ≤ a ∧ o < 2 ^ 21) then none
    else if c < 2 ^ 20 then
      let k := 32768 * c + o / 64
      (s.seq k).bind fun q => (q.record (s.rootLoc k))[o % 64]?
    else (s.seq (16384 * (c - 2 ^ 20) + o / 128)).bind fun q => if clsPrefix q.def1 then q.prefixSlot[o % 128]? else none

/-- The page-table chunks of a sequence, by the positions they hold. -/
def Seq.tableChunks (q : Seq) : List Nat := (q.pt.foldl (fun t (e : Nat × Nat) => tset t (e.1 / 1024) ()) ([] : Tbl Unit)).map Prod.fst

/-- The root of a sequence whose chunks lie at `frames`: the layer lengths, then the chunks' addresses. -/
def Seq.rootBytes (q : Seq) (frames : List Nat) : List Byte := q.layerLen.flatMap (le 4) ++ frames.flatMap (fun f => le 8 (f * 2048))

/-- The page tables of a sequence: its root, then its chunks (Table 3-3). -/
def State.tableByte (s : State) (a : Nat) : Option Byte :=
  s.pgt.tables.findSome? fun (k, fs) =>
    match fs.findIdx? (fun f => decide (f * 2048 ≤ a ∧ a < f * 2048 + 4096)) with
    | none => none
    | some i => (s.seq k).bind fun q =>
      let o := a - (fs.getD i 0) * 2048
      let r := fs.length - q.tableChunks.length
      if i < r then (q.rootBytes (fs.drop r))[4096 * i + o]?
      else (q.tableChunks[i - r]?).bind fun c => (tfind q.pt (1024 * c + o / 4)).bind fun d => (le 4 d)[o % 4]?

/-! ## Chapter 11 -/

/-- A map entry that is not UNMAPPED (R222). -/
def UnitEntry.word : UnitEntry → Nat
  | .lost => 0xFFFFFFFE
  | .allocated => 0xFFFFFFFD
  | .at_ p => p

/-- The map and the occupancy table, once replay has built them. -/
def State.mapByte (s : State) (a : Nat) : Option Byte :=
  if !s.fltUp then none else
  let m := s.fd Fd.FLT_MAP_BASE_ADDR / 2 ^ 21 * 2 ^ 21
  let o := s.fd Fd.FLT_OCC_BASE_ADDR / 2 ^ 21 * 2 ^ 21
  if m ≤ a ∧ a < m + 4 * s.logicalUnits then (le 4 (((tfind s.flt.map ((a - m) / 4)).map (·.entry.word)).getD 0xFFFFFFFF))[(a - m) % 4]?
  else if o ≤ a ∧ a < o + s.logicalUnits then (le 1 (((tfind s.flt.map (a - o)).map (·.occ)).getD 0)).head?
  else none

/-! ## Chapters 5 and 6 -/

/-- CSTATE. -/
def StreamState.code : StreamState → Nat
  | .dispatch => 1 | .running => 2 | .parked => 3 | .merging => 4 | .delivering => 5 | .aborting => 6

/-- ISTATE: an item whose work is lost and starts again is 4. -/
def WorkItem.istateCode (it : WorkItem) : Nat :=
  match it.istate with
  | .waiting | .queued => if it.resumed && it.saveAt.isNone then 4 else 0
  | .running => 1
  | .parked => 2
  | .done | .held => 3

/-- KIND. -/
def UnitKind.code : UnitKind → Nat
  | .local_ => 0 | .remote => 1 | .deferred => 2 | .landed => 3

/-- A unit list entry (Table 5-7). -/
def PageUnit.entry (u : PageUnit) : List Byte :=
  le 8 u.loc.word ++ le 4 u.desc ++ le 4 (u.page + u.group * 2 ^ 20 + u.kind.code * 2 ^ 26)

/-- The unit list: the units of each item in turn, then the remote ones. -/
def Stream.unitList (x : Stream) : List PageUnit :=
  if x.items.isEmpty then x.units else x.items.flatMap (·.units) ++ x.units.filter (fun u => u.kind == .remote)

/-- A work list entry (Table 5-7) whose first unit is `first`. -/
def State.itemEntry (s : State) (it : WorkItem) (first : Nat) : List Byte :=
  let done := (it.todo.map fun t => it.units.length - t.length).getD 0
  le 4 first ++ le 4 it.units.length ++ le 4 done ++ le 2 it.tile ++ le 1 (it.engine.getD 0) ++ le 1 it.istateCode ++
    le 8 (s.poolWord it.saveAt) ++ zeros 8

/-- The work list. -/
def State.workList (s : State) (x : Stream) : List Byte :=
  let l := (x.items.foldl (fun (r : List Byte × Nat) it => (r.1 ++ s.itemEntry it r.2, r.2 + it.units.length)) ([], 0)).1
  (l ++ zeros (512 - l.length)).take 512

/-- A stream context (Table 5-6). -/
def State.contextOf (s : State) (i : Nat) (x : Stream) : List Byte :=
  let pending := (x.items.filter (fun it => it.istate != .done)).length + x.subs.length +
    (x.units.filter (fun u => u.kind == .deferred)).length
  let parent := ((x.batch.bind (tfind s.ae.batches ·)).bind fun b => (b.entries.filterMap (·.stream)).head?).getD 0
  le 8 x.handle ++ le 8 x.tag ++ le 4 x.epoch ++ le 4 x.llen ++ le 2 x.qcount ++ le 2 x.qheads ++ le 1 x.layer ++ le 1 x.byte9 ++
    le 1 (x.cstate.code + x.part * 16) ++ le 1 x.items.length ++ le 4 x.qpos ++ le 4 x.maskarg ++ le 4 x.scale.toNat ++
    le 4 x.capval.toNat ++ le 4 x.selparam.toNat ++ le 4 x.rkey ++ le 8 x.roff ++ le 4 x.imm ++ le 2 x.conduit ++ le 1 x.byte15 ++
    le 1 x.byte14 ++ le 4 x.msgseq ++ le 4 (pending % 2 ^ 20) ++ le 8 (Config.queryPlace i) ++ le 8 (s.poolWord x.workAt) ++
    le 4 x.deadline ++ le 4 (parent + x.entry * 2 ^ 16 + (if x.batch.isSome then 2 ^ 31 else 0)) ++ le 4 x.units.length ++
    le 4 (x.taken - x.units.length) ++ zeros 16

/-- A byte of a stream's workspace: its work list, its unit list and its merge area (R100, R116). -/
def State.workByte (s : State) (x : Stream) (o : Nat) : Option Byte :=
  let u := 512 + 16 * min 65536 x.scanned.length
  let w := 8 + 4 * x.owidth
  if o < 512 then (s.workList x)[o]?
  else if o < u then (x.unitList[(o - 512) / 16]?).bind fun e => e.entry[(o - 512) % 16]?
  else (tfind x.recs ((o - u) / w)).bind fun r =>
    (le 4 r.m.toNat ++ le 4 r.l.toNat ++ r.o.flatMap (fun v => le 4 v.toNat))[(o - u) % w]?

/-- A byte of a workspace, in the spill area or in the pool. -/
def State.placedByte (s : State) (spill : Bool) (a : Nat) : Option Byte :=
  s.ae.streams.findSome? fun (_, x) => x.workAt.bind fun w =>
    let p := s.poolAt w
    if p.1 = spill ∧ p.2 ≤ a ∧ a < p.2 + x.workBytes then s.workByte x (a - p.2) else none

/-- A byte of the stream table (R100). -/
def State.streamByte (s : State) (a : Nat) : Option Byte :=
  let b := s.fd Fd.AE_STREAM_BASE_OFFSET
  if b ≤ a ∧ a < b + 2 ^ 23 then (s.stream ((a - b) / 128)).bind fun x => (s.contextOf ((a - b) / 128) x)[(a - b) % 128]? else none

/-! ## What a core reads -/

/-- The device's structure at an address of HBM, and of PCACHE. -/
def State.hbmStruct (s : State) (a : Nat) : Option Byte :=
  (s.poolByte a).or ((s.seqByte a).or ((s.tableByte a).or ((s.mapByte a).or (s.placedByte true a))))
def State.pcStruct (s : State) (a : Nat) : Option Byte := (s.streamByte a).or (s.placedByte false a)

/-- Bytes read at an address, with the structures that stand there. -/
def overlay (at_ : Nat → Option Byte) (a : Nat) (l : List Byte) : List Byte := l.zipIdx.map fun (b, i) => (at_ (a + i)).getD b

end Sys2Proof.Machine
end

