-- ==== Sys2Proof/Machine/GkJobs.lean ====
section
/-! DEFINITION. The standard jobs of the geckos and the LOCKED_BANK protocol (R206-R216). A job command takes the oldest job
of its code that waits for the gecko, unless the slot is already rung, and the gecko, if it runs, carries it out whole. -/

namespace Sys2Proof.Machine

/-! ## Issuing (R206, R211) -/

/-- Slots of a job's user. -/
def jobSlots : JobUse → List Nat
  | .sweep _ => [4]
  | .scrub _ => [5]
  | .user => [6, 7]
  | _ => [0, 1, 2, 3]

/-- The bytes of a slot (Table 10-3). -/
def GkJob.bytes (j : GkJob) : List Byte :=
  le 1 j.code ++ zeros 2 ++ le 1 j.param ++ zeros 4 ++ le 8 j.arg0 ++ le 8 j.arg1 ++ le 8 j.arg2

def State.lockTable (s : State) (k : Nat) : List LockEntry := (tfind s.hb.locks k).getD []

/-- A job may be issued in a slot: the slot is its user's and idle, its entries fit, its page is SEALED in HBM. -/
def State.mayIssue (s : State) (k slot : Nat) (j : GkJob) : Bool :=
  j.slot.isNone && j.chan == k && (jobSlots j.use).contains slot && (s.gk k).slotIdle slot && !(s.gk k).rung.contains slot &&
  !s.hb.jobs.any (fun y => y.chan == k && y.slot == some slot) &&
  decide ((s.lockTable k).length + j.entries.length ≤ 16) &&
  (match j.locks with
   | none => true
   | some d => ((s.desc d).map (fun x => x.state == .sealed && x.loc.tier == .hbm)).getD false)

/-- LOCK_INSTALL, the slot write and the doorbell (R211). -/
def State.issue (s : State) (k slot : Nat) (j : GkJob) : State :=
  let s := match j.locks with
    | some d => s.modDesc d fun x => { x with state := .lockedBank }
    | none => s
  let s := s.onHb fun h => { h with
    locks := tset h.locks k ((tget [] h.locks k) ++ j.entries.map (fun e => { e with slot := slot }))
    jobs := modFirst (fun y => y == j) (fun y => { y with slot := some slot, epoch := s.pgt.epoch }) h.jobs }
  let g := s.gk k
  s.setGk k ({ g with cmd := putBytes g.cmd (32 * slot) j.bytes }.ring [slot])

/-! ## What the jobs do (Table 10-5) -/

/-- n bytes of channel k from a on. -/
def State.chBytes (s : State) (k a n : Nat) : List Byte := (chPieces a n).flatMap fun p => s.hbmRead (devAddr k p.1) p.2

/-- Bytes written in channel k. -/
def State.chWrite (s : State) (k a : Nat) (l : List Byte) : State :=
  (chPieces a l.length).foldl (fun (s : State) (p : Nat × Nat) => s.hbmWrite (devAddr k p.1) (slice l (p.1 - a) p.2)) s

/-- A range of channel k zeroed. -/
def State.chZero (s : State) (k a n : Nat) : State :=
  { s with hbm := (chPieces a n).foldl (fun m p => zeroRange m (devAddr k p.1) p.2) s.hbm }

/-- n bytes of channel k from a on, as the gecko reads them: the bytes of an uncorrectable block read zero. -/
def State.chRead (s : State) (k a n : Nat) (errs : Errs) : List Byte :=
  (chPieces a n).flatMap fun p => s.hbmFetch errs (devAddr k p.1) p.2

/-- Channel ranges as device ranges. -/
def devRanges (k : Nat) (l : List (Nat × Nat)) : List (Nat × Nat) :=
  l.flatMap fun r => (chPieces r.1 r.2).map fun p => (devAddr k p.1, p.2)

/-- VFIX on every group of a range (R203): corrected groups are written back. -/
def State.chFix (s : State) (k a n : Nat) (errs : Errs) : State :=
  (devRanges k [(a, n)]).foldl (fun s r => s.writeBack errs r.1 r.2) s

/-- The groups of a range that VFIX finds corrected, and uncorrectable. -/
def State.chFound (s : State) (k a n : Nat) (errs : Errs) : Nat × Nat :=
  let l := (devRanges k [(a, n)]).flatMap fun r => (errGroups errs r.1 r.2).map (s.readGroup errs)
  ((l.filter fun g => !g.isBad && !g.isClean).length, (l.filter GroupRead.isBad).length)

/-- A range of the channel's data. -/
def inChan (a n : Nat) : Bool := a + n ≤ 0x7C000000

/-- MIN and MAX over the values of a position list, row by row. -/
def digestRows (k : Nat) (rows : List (List W32)) : List Byte × List Byte :=
  rows.foldl (fun (r : List Byte × List Byte) row =>
    (row.zipIdx).foldl (fun (r : List Byte × List Byte) (x, i) => digUpdate r.1 r.2 i x) r) (List.replicate k 0x7C, List.replicate k 0xFC)

/-- The values a row contributes, and whether one is not finite or has scale 0xFF. -/
def digestRow (f : Fmt) (n : Nat) (row : List Byte) : List W32 := (List.range n).map (rowValue f row n)

/-- The digest of a page (Table 7-1). -/
def bankDigestOf (valid fa fb wa wb desc crc : Nat) (page : List Byte) (isLatent : Bool) : Option (List Byte) :=
  match fmtOf fa, (if isLatent then fmtOf fb else some .b16) with
  | some f, some g =>
    if valid = 0 ∨ 16 < valid ∨ wa = 0 then none else
    let ra := f.rowBytes wa
    let rb := if isLatent then g.rowBytes wb else 0
    let rows := (List.range valid).map fun i =>
      digestRow f wa (slice page (i * (ra + rb)) ra) ++ (if isLatent then digestRow g wb (slice page (i * (ra + rb) + ra) rb) else [])
    let k := wa + (if isLatent then wb else 0)
    let ub := rows.any (fun r => r.any (fun x => !fIsFinite x))
    let (mn, mx) := digestRows k rows
    let d := le 2 k ++ le 1 valid ++ le 1 (2 + (if ub then 16 else 0)) ++ le 4 desc ++ le 4 crc ++ zeros 4 ++ mn ++ mx
    some (d ++ zeros ((16 - d.length % 16) % 16))
  | _, _ => none

/-- What a job comes to. -/
inductive JobRes where
  /-- STATUS, and what ARG2 carries. -/
  | ok (st : Nat) (arg2 : Option Nat) (s : State)
  /-- A write outside the windows (R205). -/
  | breach

/-- A write of a job, inside its windows. -/
def State.jobWrite (s : State) (k a : Nat) (l : List Byte) : JobRes :=
  if s.fenceOk k a l.length [.lock, .win] then .ok stOK none (s.chWrite k a l) else .breach

/-- The bytes of a sweep's output area: 8 for each descriptor, its index and its HEAT (notes/assumptions/12.md). -/
def sweepBytes (l : List (Nat × Nat)) : List Byte := l.flatMap fun g => le 4 g.1 ++ le 1 g.2 ++ zeros 3

/-- Descriptors of a piece at a device address, with their HEAT halved, and what the sweep writes of them. -/
def State.sweepPiece (s : State) (k out a n : Nat) : State :=
  match s.pgt.chunks.zipIdx.find? (fun c => c.1 * 2048 ≤ a && a < c.1 * 2048 + 2 ^ 21) with
  | none => s
  | some (c, i) =>
    let lo := i * 65536 + (a - c * 2048) / 32
    let hit := fun (d : Nat) => lo ≤ d && d < lo + n
    let s := s.onPgt fun p => { p with descs := p.descs.map fun e => if hit e.1 then (e.1, { e.2 with heat := e.2.heat / 2 }) else e }
    let got := (s.pgt.descs.filter (fun e => hit e.1)).map fun e => (e.1, e.2.heat)
    (s.onTier fun b => { b with gathered := b.gathered ++ got }).chWrite k out (sweepBytes got)

/-- The channel ranges a standard job reads (Table 10-5). -/
def jobReads (code param a0 a1 a2 : Nat) : List (Nat × Nat) :=
  let src := a0 % 2 ^ 31
  let wa := bits a1 50 40
  let wb := bits a1 59 51
  let row := fun (c w : Nat) => ((fmtOf c).map (·.rowBytes w)).getD 0
  let l := match code with
    | 1 => [(src, 16 * (row (bits a1 35 32) wa + (if bits a1 60 60 = 1 then row (bits a1 39 36) wb else 0)))]
    | 2 => [(src, a1)]
    | 3 => [(src, a2)]
    | 5 => [(src, a1)]
    | 6 => [(src, a1)]
    | 7 => [(src, param % 16 * bits a2 23 0), (src + 16 * bits a2 23 0, param % 16 * bits a2 47 24)]
    | 8 => [(src, 65536)]
    | _ => []
  l.filter fun r => inChan r.1 r.2

def State.jobEffect (s : State) (k code param a0 a1 a2 : Nat) (errs : Errs) : JobRes :=
  let src := a0 % 2 ^ 31
  let dst := a1 % 2 ^ 31
  let format : JobRes := .ok stFORMAT none s
  match code with
  | 1 =>
    let wa := bits a1 50 40
    let wb := bits a1 59 51
    let isLatent := bits a1 60 60 == 1
    let fa := bits a1 35 32
    let fb := bits a1 39 36
    let n := 16 * (((fmtOf fa).map (·.rowBytes wa)).getD 0 + (if isLatent then ((fmtOf fb).map (·.rowBytes wb)).getD 0 else 0))
    if !inChan src n then format else
    match bankDigestOf param fa fb wa wb (a1 % 2 ^ 32) (a0 / 2 ^ 32) (s.chRead k src n errs) isLatent with
    | none => format
    | some d => if inChan (a2 % 2 ^ 31) d.length then s.jobWrite k (a2 % 2 ^ 31) d else format
  | 2 =>
    if !inChan src a1 then format else .ok stOK (some (a2 / 2 ^ 32 * 2 ^ 32 + crc32cFrom (a2 % 2 ^ 32) (s.chRead k src a1 errs))) s
  | 3 => if !inChan src a2 || !inChan dst a2 then format else s.jobWrite k dst (s.chRead k src a2 errs)
  | 4 =>
    if !inChan src a1 || a1 % 128 != 0 then format
    else if s.fenceOk k src a1 [.lock, .win] then .ok stOK none (s.chZero k src a1) else .breach
  | 5 => if !inChan src a1 then format else
    let f := s.chFound k src a1 errs
    .ok stOK (some (f.1 + f.2 * 2 ^ 32)) (s.chFix k src a1 errs)
  | 6 =>
    if !inChan src a1 then format
    else .ok (if crc32c (s.chRead k src a1 errs) = a2 % 2 ^ 32 then stOK else stPOISONED) none (s.chFix k src a1 errs)
  | 7 =>
    let n := param % 16
    let ra := bits a2 23 0
    let rb := bits a2 47 24
    if n = 0 ∨ !inChan src (16 * (ra + rb)) ∨ !inChan dst (16 * (ra + rb)) then format else
    match s.jobWrite k dst (s.chRead k src (n * ra) errs) with
    | .breach => .breach
    | .ok _ _ t => if rb = 0 then .ok stOK none t else t.jobWrite k (dst + 16 * ra) (s.chRead k (src + 16 * ra) (n * rb) errs)
  | 8 =>
    let out := a2 % 2 ^ 31
    if !inChan src 65536 || 2048 < a1 || !inChan out sweepOutBytes then format
    else if s.fenceOk k src 65536 [.atom] && s.fenceOk k out sweepOutBytes [.lock, .win] then
      .ok stOK none (s.sweepPiece k out (devAddr k src) a1) else .breach
  | _ => format

/-! ## The end of a job (R213) -/

/-- The page a job's errors poison. -/
def State.jobPage (s : State) (j : GkJob) : Option Nat :=
  match j.use with
  | .digest d _ _ => some d
  | .copy dst => (s.pgt.copies.find? (fun c => c.dst == dst)).map (·.src)
  | .scrub d => d
  | .compact d _ => some d
  | _ => j.locks

/-- The locked page is SEALED again; held reads and deferred units of it go on (R109, R212). -/
def State.unlockPage (s : State) (d : Nat) : State :=
  match s.desc d with
  | none => s
  | some x =>
    let s := s.modDesc d fun x => if x.state == .lockedBank then { x with state := .sealed } else x
    (s.onAe fun a => { a with lockWait := a.lockWait.filter (fun e => e.2.1 != d) }).wakePage d x.loc (fun _ => true)

/-- A copy whose job failed: its destination frame is released (R213), and the copy goes to a new one. -/
def State.reframe (s : State) (dst : Nat) : State :=
  match s.desc dst with
  | none => s
  | some y =>
    match s.takeHbm y.part (frameUnits y.frameCode) (frameUnits y.frameCode) (fun _ => true) with
    | some (a, s) => (s.retireFrame y.loc y.def0 y.part y.ofTwin).modDesc dst fun y => { y with loc := ⟨.hbm, 0, a⟩ }
    | none =>
      match (s.pgt.copies.find? (fun c => c.dst == dst)).bind (fun c => s.pgt.ops.find? (fun o => o.id == c.op)) with
      | some op => s.hardBlock.abortOp op stQUOTA
      | none => s

/-- What a job was for, once it has ended with a status. -/
def State.jobEnd (s : State) (j : GkJob) (st : Nat) : State :=
  let page := s.jobPage j
  let s := match j.use with
    | .digest d g part =>
      match s.desc d with
      | some x =>
        if st = stOK ∧ x.loc.tier = .hbm ∧ chanAddr (x.loc.frame * 2048) = j.arg0 % 2 ^ 31 ∧ x.state ≠ .poisoned ∧ 0 < x.refcnt ∧ !x.digestValid then
          s.modDesc d fun x => { x with digestValid := true, digest := g }
        else s.freeDigest g part
      | none => s.freeDigest g part
    | .copy dst => if st = stOK then s.copyDone dst else s.reframe dst
    | .compact d dst =>
      match s.desc d with
      | some x =>
        if st = stOK then (s.retireFrame x.loc x.def0 x.part false).modDesc d fun x => { x with loc := ⟨.hbm, 0, dst⟩ }
        else s.retireFrame ⟨.hbm, 0, dst⟩ x.def0 x.part false
      | none => s
    | .zero frame _ d =>
      if st = stOK ∨ !s.chanUsable j.chan then
        let s := s.freeHbm frame
        match d with
        | some d => (s.onPgt fun p => { p with descs := tdel p.descs d }).shrinkPool
        | none => s
      else s.queueJob { j with slot := none }
    | .zeroLent e frame =>
      if st = stOK ∨ !s.chanUsable j.chan then
        ((s.modLent e fun x => { x with frames := tdel x.frames frame })).settleExtent e
      else s.queueJob { j with slot := none }
    | .sweep p => s.onTier fun b => { b with sweepLeft := b.sweepLeft.filter (· != p) }
    | _ => s
  let s := match j.locks with | some d => s.unlockPage d | none => s
  if st = stPOISONED then match page with | some d => s.poisonPage d | none => s else s

/-! ## Reads held on a lock (R212) -/

/-- A core's read of tier 2. -/
def State.coreRead (s : State) (core a n : Nat) (errs : Errs) : State :=
  let v := unle (overlay s.hbmStruct a (s.hbmFetch errs a n))
  let bad := !(s.badBlocks errs a n).isEmpty
  let s := s.eccRange errs a n
  if bad then s.accessFail core else s.accessOk core v

/-- Held reads whose range is locked no more go on. -/
def State.resumeReads (s : State) : State :=
  s.hb.held.foldl (fun (s : State) (e : Nat × HeldRead) =>
    if s.lockedAt e.2.addr e.2.len then s else
    (s.onHb fun h => { h with held := tdel h.held e.1 }).coreRead e.1 e.2.addr e.2.len e.2.errs) s

/-- Units a lender's engines wait for, of frames no LOCK covers any more, are read (R109, R212). -/
def State.wakeLent (s : State) : State :=
  let free := fun (x : Stream) (frame : Nat) => !s.lockedAt (frame * 2048) (contentSize x.def0)
  let waits := fun (e : Nat × (Nat × Nat)) => decide (e.2.1 < 2 ^ 33) ||
    (match (tfind s.ae.running e.1).bind (fun r => s.stream r.1) with
     | some x => !free x (e.2.1 - 2 ^ 33)
     | none => false)
  (s.onAe fun a => { a with lockWait := a.lockWait.filter waits }).wakeUnits (fun _ x => x.lender.isSome)
    (fun x u => if free x u.loc.frame then some u.loc else none)

/-- The slot of a job is DONE: its READY bit is cleared, its entries removed, and its user told. -/
def State.lockRelease (s : State) (k slot : Nat) : State :=
  match s.hb.jobs.find? (fun j => j.chan == k && j.slot == some slot) with
  | none => s
  | some j =>
    let g := s.gk k
    if (tget 0 g.cmd (32 * slot + 1)).toNat % 2 = 0 then s else
    let st := (tget 0 g.cmd (32 * slot + 2)).toNat
    let f := Fd.GK_READY_READY (k / 32) (k % 32)
    let s := s.setFd f (s.fd f - (s.fd f &&& 2 ^ slot))
    let s := s.onHb fun h => { h with
      jobs := eraseFirst (fun y => y == j) h.jobs
      locks := tput [] h.locks k ((tget [] h.locks k).filter (fun e => e.slot != slot)) }
    (s.jobEnd j st).returnExtents.retryRestores.resumeReads.wakeLent.settle

/-! ## Running (R206, R213) -/

/-- The oldest waiting job of a code is issued in the slot; on a channel out of service it ends with TIMEOUT (R216). -/
def State.issueNext (s : State) (k slot code : Nat) (pick : GkJob → Bool) : State :=
  if !s.chanUsable k then
    match s.hb.jobs.find? (fun j => j.chan == k && j.code == code && j.slot.isNone) with
    | some j => ((s.onHb fun h => { h with jobs := eraseFirst (fun y => y == j) h.jobs }).jobEnd j stTIMEOUT).settle
    | none => s
  else
    match s.hb.jobs.find? (fun j => j.code == code && pick j && s.mayIssue k slot j) with
    | some j => s.issue k slot j
    | none => s

/-- A standard job runs (R214), its reads finding `errs`. -/
def State.runJob (s : State) (k slot code : Nat) (pick : GkJob → Bool) (errs : Errs) : State :=
  let s := if (s.gk k).rung.contains slot then s else s.issueNext k slot code pick
  let g := s.gk k
  let b := (List.range 32).map fun i => tget 0 g.cmd (32 * slot + i)
  if !g.rung.contains slot || lat b 0 1 != code || !s.gkRuns k || !g.busy.isEmpty then s else
  let reads := devRanges k (jobReads code (lat b 3 1) (lat b 8 8) (lat b 16 8) (lat b 24 8))
  let bad := reads.any fun r => !(s.badBlocks errs r.1 r.2).isEmpty
  let s := reads.foldl (fun s r => s.eccRange errs r.1 r.2) s
  let s := s.setGk k { s.gk k with ue := (s.gk k).ue || bad }
  if !s.chanUsable k then s else
  match s.jobEffect k code (lat b 3 1) (lat b 8 8) (lat b 16 8) (lat b 24 8) errs with
  | .breach =>
    let s := s.setGk k { s.gk k with rung := (s.gk k).rung.filter (· != slot), busy := slot :: (s.gk k).busy }
    (s.raise (Fd.GK_ERR_WRITE_FENCE (k / 32) (k % 32))).gkHalt k 0
  | .ok st r s =>
    let s := match r with
      | some v => s.setGk k { s.gk k with cmd := putBytes (s.gk k).cmd (32 * slot + 24) (le 8 v) }
      | none => s
    s.slotDone k slot (if st = stOK ∧ bad then stPOISONED else st)

def anyJob (_ : GkJob) : Bool := true

/-! ## Meanings

A job carries the symbols that the reads of its source find in error, `errs`, and those that the read halves of its writes
find, `rmw` (R195, R196). -/

/-- DIGEST (R214). -/
def execDigest (k : Fin 256) (slot : Fin 8) (errs rmw : Errs) (s : State) : Host.Outcome State Fault Refusal :=
  act s fun s => s.runJob k.val slot.val 1 anyJob (errs ++ rmw)

/-- CRC (R214). -/
def execCrc (k : Fin 256) (slot : Fin 8) (errs rmw : Errs) (s : State) : Host.Outcome State Fault Refusal :=
  act s fun s => s.runJob k.val slot.val 2 anyJob (errs ++ rmw)

/-- COMPACT of page `desc` (R214, R215): its destination is a free frame of its own channel, without which the job is not
issued; a page in PCACHE leaps down first (R179). -/
def execCompact (k : Fin 256) (slot : Fin 8) (desc : Nat) (errs rmw : Errs) (s : State) : Host.Outcome State Fault Refusal :=
  act s fun s =>
    if (s.gk k.val).rung.contains slot.val then s.runJob k.val slot.val 3 anyJob (errs ++ rmw) else
    match s.desc desc with
    | none => s
    | some x =>
      if x.loc.tier = .pcache then (s.leapDown desc x (fun c => c == k.val)).getD s
      else if x.loc.tier ≠ .hbm ∨ x.state ≠ .sealed ∨ x.refcnt = 0 ∨ chanOf (x.loc.frame * 2048) ≠ k.val ∨ s.hb.jobs.any (fun j => j.locks == some desc) then
        s.runJob k.val slot.val 3 anyJob (errs ++ rmw)
      else
        let n := frameUnits x.frameCode
        match s.takeHbm x.part n n (fun c => c == k.val) with
        | none => s
        | some (a, s) =>
          let from_ := chanAddr (x.loc.frame * 2048)
          let to_ := chanAddr (a * 2048)
          let len := n * 2048
          (s.queueJob ⟨k.val, 3, 0, from_, to_, contentSize x.def0, .compact desc a, [⟨from_, len, .lock, 0⟩, ⟨to_, len, .win, 0⟩], some desc, none,
            s.pgt.epoch⟩).runJob k.val slot.val 3 (fun j => j.locks == some desc) (errs ++ rmw)

/-- ZERO (R214). -/
def execZero (k : Fin 256) (slot : Fin 8) (errs rmw : Errs) (s : State) : Host.Outcome State Fault Refusal :=
  act s fun s => s.runJob k.val slot.val 4 anyJob (errs ++ rmw)

/-- SCRUB_RANGE (R214). -/
def execScrubRange (k : Fin 256) (slot : Fin 8) (errs rmw : Errs) (s : State) : Host.Outcome State Fault Refusal :=
  act s fun s => s.runJob k.val slot.val 5 anyJob (errs ++ rmw)

/-- SCRUB_PAGE (R214). -/
def execScrubPage (k : Fin 256) (slot : Fin 8) (errs rmw : Errs) (s : State) : Host.Outcome State Fault Refusal :=
  act s fun s => s.runJob k.val slot.val 6 anyJob (errs ++ rmw)

/-- COW (R214). -/
def execCow (k : Fin 256) (slot : Fin 8) (errs rmw : Errs) (s : State) : Host.Outcome State Fault Refusal :=
  act s fun s => s.runJob k.val slot.val 7 anyJob (errs ++ rmw)

/-- SWEEP (R214). -/
def execSweep (k : Fin 256) (slot : Fin 8) (errs rmw : Errs) (s : State) : Host.Outcome State Fault Refusal :=
  act s fun s => s.runJob k.val slot.val 8 anyJob (errs ++ rmw)

/-- LOCK_RELEASE (R213). -/
def execLockRelease (k : Fin 256) (slot : Fin 8) (s : State) : Host.Outcome State Fault Refusal :=
  act s fun s => s.lockRelease k.val slot.val

/-- The device address of a descriptor in the pool (R42). -/
def State.descAddr (s : State) (d : Nat) : Nat := ((s.pgt.chunks[d / 65536]?).getD 0) * 2048 + d % 65536 * 32

/-- The scrub reaches a sealed page: where it lies in the piece of its channel, or, where it lies in PCACHE, when its descriptor
does: it then leaps down first (R179). -/
def State.scrubPage (s : State) (ch pos d : Nat) (x : Desc) : State :=
  let a := x.loc.frame * 2048
  let here := fun (b : Nat) => chanOf b == ch && chanAddr b / 65536 == pos
  if x.state != .sealed || x.refcnt = 0 then s
  else if x.loc.tier = .hbm ∧ here a then
    s.queueJob ⟨ch, 6, 0, chanAddr a, contentSize x.def0, x.crc.toNat, .scrub (some d), [], none, none, s.pgt.epoch⟩
  else if x.loc.tier = .pcache ∧ here (s.descAddr d) then
    match s.leapDown d x (fun _ => true) with
    | some s => s.onHb fun h => { h with scrubDue := d :: h.scrubDue }
    | none => s
  else s

/-- HBM_SCRUB_SCHEDULE (R215): one 64 KiB piece of the channel, and the sealed pages in it, at the pace that covers the channel
once per PERIOD_S; pages leapt down for it since the last piece are scrubbed where they landed. -/
def execHbmScrubSchedule (k : Fin 256) (s : State) : Host.Outcome State Fault Refusal :=
  act s fun s =>
    let ch := k.val
    let period := s.fd (Fd.HBM_SCRUB_PERIOD_S (ch / 32))
    if period = 0 ∨ !s.chanUsable ch ∨ s.mtime < (tfind s.hb.scrubAt ch).getD 0 + period * 10 ^ 8 / 31744 then s else
    let pos := (tfind s.hb.scrubPos ch).getD 0
    let at_ := pos * 65536
    let s := s.onHb fun h => { h with scrubPos := tset h.scrubPos ch ((pos + 1) % 31744), scrubAt := tset h.scrubAt ch s.mtime }
    let s := s.queueJob ⟨ch, 5, 0, at_, 65536, 0, .scrub none, [], none, none, s.pgt.epoch⟩
    let landed := s.hb.scrubDue.filter fun d => (s.leap d).isNone
    let s := s.onHb fun h => { h with scrubDue := h.scrubDue.filter fun d => !landed.contains d }
    let s := landed.foldl (fun (s : State) d => match s.desc d with
      | some x => s.scrubPage (chanOf (x.loc.frame * 2048)) (chanAddr (x.loc.frame * 2048) / 65536) d x
      | none => s) s
    s.pgt.descs.foldl (fun (s : State) (p : Nat × Desc) => if landed.contains p.1 then s else s.scrubPage ch pos p.1 p.2) s

end Sys2Proof.Machine
end

