-- ==== Sys2Proof/Machine/Wxp.lean ====
section
/-! DEFINITION. The expander: image commands, the decoding of a tile's blocks, verbatim copies (R156-R163). -/

namespace Sys2Proof.Machine

/-! ## Images (R158-R160) -/

/-- The image WXP_IMG_SEL selects. -/
def State.imgSel (s : State) : Nat := s.fd Fd.WXP_IMG_SEL_PART * 8 + s.fd Fd.WXP_IMG_SEL_INDEX

def State.imgState (s : State) (m : Nat) : Nat := s.fd (Fd.WXP_IMG_STATUS_STATE.at m)
def State.setImgState (s : State) (m st : Nat) : State := s.setFd (Fd.WXP_IMG_STATUS_STATE.at m) st

/-- The result of a LOAD or RESTORE; the block where it failed. -/
def State.imgResult (s : State) (m st : Nat) (fail : Option Nat) : State :=
  let s := s.setFd (Fd.WXP_IMG_STATUS_RESULT.at m) st
  match fail with
  | some n => s.setFd (Fd.WXP_IMG_STATUS_FAIL_BLOCK.at m) n
  | none => s

/-- The shape keeps to Table 8-1. -/
def ImgShape.ok (i : ImgShape) : Bool :=
  i.wfmt != 3 && 1 ≤ i.w && i.w ≤ 1152 && 1 ≤ i.kdim && i.kdim ≤ 256 && 1 ≤ i.vdim && i.vdim ≤ 256 &&
  i.layers ≤ 256 && i.heads ≤ 256

/-- A block is read and decoded: its outcome under R155, or POISONED for an uncorrectable error of its slot or entry
(R151). The entry's PSN is passed over where a restore checks the block (R160). -/
def State.checkBlock (s : State) (i : ImgShape) (n : Nat) (ue tue psnOk verify : Bool) : Nat × List Byte :=
  let e := s.blockEntry i n
  if tue then (stPOISONED, [])
  else if !psnOk && lat e 6 1 % 2 = 1 then (stPOISONED, [])
  else if ue then (stPOISONED, [])
  else decodeBlock i.wfmt e (s.blockStored i n) verify

/-- A block decoded, in the counters (Table 8-8). -/
def State.countBlock (s : State) (i : ImgShape) (n out : Nat) : State :=
  ((s.inc Fd.WXP_BLOCKS_COUNT).count Fd.WXP_BYTES_IN_COUNT (lat (s.blockEntry i n) 0 2)).count Fd.WXP_BYTES_OUT_COUNT out

/-- The uncorrectable errors of a block's slot and entry, at their channels (R195). -/
def State.blockUe (s : State) (i : ImgShape) (n : Nat) (ue tue : Bool) : State :=
  let s := if ue then s.hbmUe (i.base + 4096 * n) else s
  if tue then (s.hbmUe (i.table + 16 * n)).raise Fd.WXP_ERR_TABLE_UE else s

/-- A block is poisoned (R157): PSN set, unless it was. -/
def State.poisonBlock (s : State) (i : ImgShape) (n : Nat) : State :=
  if lat (s.blockEntry i n) 6 1 % 2 = 1 then s
  else ((s.setPsn i n true).raise Fd.WXP_ERR_BLOCK_PSN).inc Fd.WXP_POISONED_COUNT

/-- The area of an image, slots and table, as first units and lengths (R158). -/
def ImgShape.area (i : ImgShape) : List (Nat × Nat) :=
  [(i.base / 2048, 2 * i.blocks), (i.table / 2048, ceilDiv (16 * i.blocks) 4096 * 2)].filter (fun r => r.2 != 0)

/-- The parts of an image's area that lie in nothing already taken from tier 2. -/
def State.newArea (s : State) (i : ImgShape) : List (Nat × Nat) :=
  i.area.filter fun r => s.tier.hbmUsed.all fun p => p.1 + p.2 ≤ r.1 || r.1 + r.2 ≤ p.1

/-- The area taken and charged to the partition (R158, R169, R177). -/
def State.takeArea (s : State) (m : Nat) (l : List (Nat × Nat)) : State :=
  let s := l.foldl (fun s r => (s.onTier fun b => { b with hbmUsed := tset b.hbmUsed r.1 r.2 }).charge4 (m / 8) 1 (r.2 * 2048)) s
  s.onWxp fun w => { w with areas := tset w.areas m l }

/-- The area of an image no longer counts, its bytes left as they are. -/
def State.leaveArea (s : State) (m : Nat) : State :=
  let l := (tfind s.wxp.areas m).getD []
  let s := l.foldl (fun s r => (s.onTier fun b => { b with hbmUsed := tdel b.hbmUsed r.1 }).uncharge4 (m / 8) 1 (r.2 * 2048)) s
  s.onWxp fun w => { w with areas := tdel w.areas m }

/-- The area of an image that is EMPTY again, given back. -/
def State.dropArea (s : State) (m : Nat) : State :=
  (((tfind s.wxp.areas m).getD []).foldl (fun s r => { s with hbm := zeroRange s.hbm (r.1 * 2048) (r.2 * 2048) }) s).leaveArea m

/-- LOAD (R158). A reserved weight format is FORMAT (R21); an area above the hard quota is refused (R171;
notes/assumptions/117.md). -/
def State.wxpLoad (s : State) : State :=
  let m := s.imgSel
  let i := s.imgShape m
  let st := s.imgState m
  if !s.flag Fd.WXP_CTL_XEN || (st != 0 && st != 3) then s.raise Fd.WXP_ERR_CMD_REJECT
  else if i.wfmt = 3 then (s.raise Fd.WXP_ERR_CMD_REJECT).imgResult m stFORMAT none
  else if !i.ok || i.base % 4096 != 0 || i.table % 4096 != 0 then s.raise Fd.WXP_ERR_CMD_REJECT
  else
    let s := s.leaveArea m
    let l := s.newArea i
    if !s.underHard (m / 8) 1 (l.foldl (fun n r => n + r.2 * 2048) 0) then (s.hardBlock).raise Fd.WXP_ERR_CMD_REJECT
    else ((s.takeArea m l).setImgState m 1).onWxp fun w => { w with loads := w.loads ++ [m] }

/-- The load check ends (R158): every block passes, or the first that fails is poisoned. -/
def State.loadDone (s : State) (m : Nat) (ue tue : List Nat) : State :=
  if !s.wxp.loads.contains m then s else
  let s := s.onWxp fun w => { w with loads := w.loads.filter (· != m) }
  let i := s.imgShape m
  let res := fun n => (s.checkBlock i n (ue.contains n) (tue.contains n) false true).1
  let marked := fun n => !tue.contains n && lat (s.blockEntry i n) 6 1 % 2 == 1
  match (List.range i.blocks).find? (fun n => res n != stOK) with
  | none => (((List.range i.blocks).foldl (fun s n => s.countBlock i n 0) s).setImgState m 2).imgResult m stOK none
  | some n =>
    let s := (List.range (if marked n then n else n + 1)).foldl (fun s n => s.countBlock i n 0) s
    let s := s.blockUe i n (ue.contains n && !marked n) (tue.contains n)
    ((s.poisonBlock i n).setImgState m 3).imgResult m (res n) (some n)

/-- UNLOAD (R159). -/
def State.wxpUnload (s : State) : State :=
  let m := s.imgSel
  (s.setImgState m 4).onWxp fun w => { w with
    loads := w.loads.filter (· != m), restores := tdel w.restores m, unloads := tset w.unloads m s.pgt.epoch }

/-- No stream holds an epoch at or before the captured one: the index is EMPTY. -/
def State.unloadDone (s : State) (m : Nat) : State :=
  match tfind s.wxp.unloads m with
  | none => s
  | some e => if s.epochClear e then ((s.setImgState m 0).onWxp fun w => { w with unloads := tdel w.unloads m }).dropArea m else s

/-- RESTORE (R160). -/
def State.wxpRestore (s : State) (n : Nat) : State :=
  let m := s.imgSel
  if !s.flag Fd.WXP_CTL_XEN || s.imgState m != 2 || (s.imgShape m).blocks ≤ n then s.raise Fd.WXP_ERR_CMD_REJECT
  else (s.setImgState m 5).onWxp fun w => { w with restores := tset w.restores m n }

/-- The restore check ends (R160). -/
def State.restoreDone (s : State) (m : Nat) (ue tue : Bool) : State :=
  match tfind s.wxp.restores m with
  | none => s
  | some n =>
    let s := (s.onWxp fun w => { w with restores := tdel w.restores m }).setImgState m 2
    let i := s.imgShape m
    let st := (s.checkBlock i n ue tue true true).1
    let s := s.countBlock i n 0
    if st = stOK then (s.setPsn i n false).imgResult m stOK none
    else ((s.blockUe i n ue tue).poisonBlock i n).imgResult m st (some n)

/-! ## Lanes (R156) -/

/-- Lanes that decode a block: for tiles, and for the checks of LOAD and RESTORE all that are free (R158). -/
def State.lanesBusy (s : State) (l : Nat) : Bool :=
  (tfind s.wxp.lanes l).isSome || ((!s.wxp.loads.isEmpty || !s.wxp.restores.isEmpty) && bits (s.fd Fd.WXP_STATUS_COPYING) l l == 0)

/-- A lane free of blocks and copies. -/
def State.laneFree (s : State) (l : Nat) : Bool :=
  (tfind s.wxp.lanes l).isNone && bits (s.fd Fd.WXP_STATUS_COPYING) l l == 0

/-- A free lane takes the next block of the oldest request that has one. -/
def State.fillLane (s : State) (l : Nat) : State :=
  if !s.laneFree l || !s.awake then s else
  match s.wxp.reqs.find? (fun r => !r.todo.isEmpty) with
  | none => s
  | some r =>
    match r.todo with
    | [] => s
    | b :: rest => s.onWxp fun w => { w with
        lanes := tset w.lanes l (r, b)
        reqs := modFirst (fun y => y == r) (fun y => { y with todo := rest }) w.reqs }

def State.fillLanes (s : State) : State := (List.range 8).foldl State.fillLane s

/-- The blocks of a tile's slices: those of the heads of its rows in the stream's layer. -/
def Stream.tileBlocks (x : Stream) (s : State) (it : WorkItem) : List Nat :=
  let i := x.imgOf s
  let heads := ((((x.tiles (x.wbytes s) it)[it.tile]?).getD []).map x.rowHead).eraseDups
  heads.flatMap fun h => (List.range i.bps).map fun b => (x.layer * i.heads + h) * i.bps + b

/-- An item of an expanded stream needs the slices of its tile. -/
def WorkItem.needsSlices (it : WorkItem) : Bool := it.istate == .running && !it.slicesIn

/-- The request of a stream for its tile at item k, in its block number order; the other items that need no more slices than
these get them by the same multicast. -/
def State.tileRequest (s : State) (i : Nat) : State :=
  match s.stream i with
  | none => s
  | some x =>
    if !x.expanded || x.cstate == .aborting || s.wxp.reqs.any (fun r => r.stream == i) then s else
    match (x.items.zipIdx).find? (fun y => y.1.needsSlices) with
    | none => s
    | some (it, k) =>
      let bs := x.tileBlocks s it
      if bs.isEmpty then s else
      let s := s.modStream i fun y => { y with items := y.items.map fun it =>
        if it.needsSlices && (x.tileBlocks s it).all (bs.contains ·) then { it with asked := true } else it }
      (s.onWxp fun w => { w with
        nextReq := w.nextReq + 1
        reqs := w.reqs ++ [⟨w.nextReq, x.part * 8 + x.mimg, i, x.gen, k, it.tile, bs⟩] }).fillLanes

/-- A request all of whose blocks have landed: the items it was made for have their slices, but for one that started anew
meanwhile (R156). -/
def State.tileLanded (s : State) (i : Nat) : State :=
  match s.wxp.reqs.find? (fun r => r.stream == i) with
  | none => s
  | some r =>
    if !r.todo.isEmpty || s.wxp.lanes.any (fun l => l.2.1.serial == r.serial) then s else
    let s := s.onWxp fun w => { w with reqs := w.reqs.filter (fun y => y.stream != i) }
    s.modStream i fun x => { x with
      items := x.items.map fun it => if it.asked && it.needsSlices then { it with slicesIn := true, asked := false } else it }

/-- An engine receives a multicast: its running item waits for slices of which a block is in flight (Table 8-6). -/
def State.multicastTo (s : State) (e : Nat) : Bool :=
  match tfind s.ae.running e with
  | none => false
  | some (i, k) =>
    s.wxp.lanes.any (fun l => l.2.1.stream == i) && ((s.stream i).bind fun x => x.items[k]?).any (·.asked)

/-- What was asked for a stream that has ended, or started over, is dropped. -/
def State.dropTiles (s : State) (i : Nat) : State :=
  s.onWxp fun w => { w with reqs := w.reqs.filter (fun r => r.stream != i) }

/-- The stream a request is made for still wants it. -/
def State.wanted (s : State) (r : TileReq) : Bool :=
  s.wxp.reqs.any (fun y => y.serial == r.serial) &&
  (match s.stream r.stream with
   | none => false
   | some x => x.cstate != .aborting && x.gen == r.gen)

/-- A lane ends a block (R155, R157): it is multicast, or poisoned and the stream ends. A block whose stream has ended
meanwhile is poisoned by a failure all the same. -/
def State.blockDone (s : State) (l : Nat) (ue tue : Bool) : State :=
  match tfind s.wxp.lanes l with
  | none => s
  | some (r, n) =>
    let s := s.onWxp fun w => { w with lanes := tdel w.lanes l }
    let i := s.imgShape r.image
    let marked := lat (s.blockEntry i n) 6 1 % 2 == 1 && !tue
    let (st, out) := s.checkBlock i n ue tue false false
    let s := if st = stOK then s.countBlock i n out.length else (s.blockUe i n (ue && !marked) tue).poisonBlock i n
    if !s.wanted r then
      (s.onWxp fun w => { w with reqs := w.reqs.filter (fun y => y.serial != r.serial) }).fillLanes
    else if st = stOK then
      ((s.modStream r.stream fun x => { x with slices := tset x.slices n out }).tileLanded r.stream).fillLanes
    else (((s.dropTiles r.stream).endStream r.stream stPOISONED).fillLanes).settle

/-! ## Verbatim copies (R162) -/

def State.copyGo (s : State) : State :=
  let l := ((List.range 8).find? s.laneFree).getD 7
  ((s.onWxp fun w => { w with
    copy := some (s.fd Fd.WXP_COPY_SRC_ADDR / 64 * 64, s.fd Fd.WXP_COPY_DST_ADDR / 64 * 64, s.fd Fd.WXP_COPY_LEN_LEN / 64 * 64) }).setFd
    Fd.WXP_COPY_STATUS_BUSY 1).setFd Fd.WXP_STATUS_COPYING (2 ^ l)

/-- A copy ends: the bytes have moved, or those before an uncorrectable error. -/
def State.copyEnd (s : State) (errAt : Option Nat) : State :=
  match s.wxp.copy with
  | none => s
  | some (a, b, n) =>
    let done := match errAt with | some k => min n (k / 64 * 64) | none => n
    let s := (s.onWxp fun w => { w with copy := none }).hbmWrite b (s.hbmRead a done)
    let s := match errAt with
      | some k => (s.hbmUe (a + k)).raise Fd.WXP_ERR_COPY_UE
      | none => s
    (((s.setFd Fd.WXP_COPY_STATUS_BUSY 0).raise Fd.WXP_COPY_STATUS_DONE).setFd Fd.WXP_STATUS_COPYING 0).fillLanes

/-! ## Meanings -/

/-- A store to WXP_IMG_CTL: its BLOCK field is kept. -/
def State.imgCtl (s : State) (v : Word) : State := s.storeFields s.imgSel Reg.WXP_IMG_CTL v.toNat

/-- WXP_LOAD: a store of CMD 1 to WXP_IMG_CTL (R158). -/
def execWxpLoad (v : Word) (s : State) : Host.Outcome State Fault Refusal :=
  actIf s (bits v.toNat 1 0 == 1) fun s => (s.imgCtl v).wxpLoad

/-- WXP_LOAD_COMPLETE (R158); `ue` and `tue` name the blocks whose slot or entry meets an uncorrectable error. -/
def execWxpLoadComplete (part : Fin 16) (img : Fin 8) (ue tue : List Nat) (s : State) : Host.Outcome State Fault Refusal :=
  actIf s s.awake fun s => s.loadDone (part.val * 8 + img.val) ue tue

/-- WXP_UNLOAD: a store of CMD 2 (R159). -/
def execWxpUnload (v : Word) (s : State) : Host.Outcome State Fault Refusal :=
  actIf s (bits v.toNat 1 0 == 2) fun s => (s.imgCtl v).wxpUnload

/-- WXP_UNLOAD_COMPLETE (R159). -/
def execWxpUnloadComplete (part : Fin 16) (img : Fin 8) (s : State) : Host.Outcome State Fault Refusal :=
  act s fun s => s.unloadDone (part.val * 8 + img.val)

/-- WXP_RESTORE: a store of CMD 3 (R160). -/
def execWxpRestore (v : Word) (s : State) : Host.Outcome State Fault Refusal :=
  actIf s (bits v.toNat 1 0 == 3) fun s => (s.imgCtl v).wxpRestore (bits v.toNat 63 32)

/-- WXP_RESTORE_COMPLETE (R160). -/
def execWxpRestoreComplete (part : Fin 16) (img : Fin 8) (ue tue : Bool) (s : State) : Host.Outcome State Fault Refusal :=
  act s fun s => s.restoreDone (part.val * 8 + img.val) ue tue

/-- WXP_TILE_REQUEST (R156). -/
def execWxpTileRequest (st : Nat) (s : State) : Host.Outcome State Fault Refusal := act s fun s => s.tileRequest st

/-- WXP_BLOCK_DECODED (R155, R157); `ue` and `tue`: an uncorrectable error of the block's slot, of its entry. -/
def execWxpBlockDecoded (lane : Fin 8) (ue tue : Bool) (s : State) : Host.Outcome State Fault Refusal :=
  act s fun s => s.blockDone lane.val ue tue

/-- WXP_COPY_GO: a store to WXP_COPY_LEN with GO set (R162). -/
def execWxpCopyGo (v : Word) (s : State) : Host.Outcome State Fault Refusal :=
  actIf s (bits v.toNat 63 63 == 1) fun s =>
    let t := s.storeFields 0 Reg.WXP_COPY_LEN v.toNat
    if s.wxp.copy.isSome then t else t.copyGo

/-- WXP_COPY_DONE (R162); `errAt`: the offset of an uncorrectable error that stops it. -/
def execWxpCopyDone (errAt : Option Nat) (s : State) : Host.Outcome State Fault Refusal := actIf s s.awake fun s => s.copyEnd errAt

end Sys2Proof.Machine
end

