-- ==== Sys2Proof/Machine/Sec.lean ====
section
/-! DEFINITION. Molts, fuses, keys, measurements, signatures and debug records (chapter 17). -/

namespace Sys2Proof.Machine

/-- A command is refused (SEC_ERR.CMD_REJECT). -/
def State.secReject (s : State) : State := s.raise Fd.SEC_ERR_CMD_REJECT

/-! ## Molts (R371-R374) -/

/-- Engines whose bits a store to SEC_MOLT_LO or SEC_MOLT_HI sets. -/
def moltBits (hi : Bool) (v : Nat) : List Nat :=
  if hi then ((List.range 16).filter (fun k => v / 2 ^ k % 2 == 1)).map (· + 64)
  else (List.range 64).filter (fun k => v / 2 ^ k % 2 == 1)

/-- The molt that runs begins: its engine's running item is abandoned and its queue returned (R372). -/
def State.moltStart (s : State) : State :=
  match s.sec.molting, s.sec.molts with
  | none, (n, m) :: l =>
    if s.multicastTo n then s else (s.onSec fun c => { c with molts := l, molting := some (n, m) }).evictEngine n
  | _, _ => s

/-- The share of an engine is zeroed (Table 17-2 step 7). -/
def State.zeroShare (s : State) (e : Nat) : State :=
  let mine := s.tier.pcDirty.filter (fun b => b.2 == e)
  let s := s.onTier fun t => { t with pcDirty := t.pcDirty.filter (fun b => b.2 != e) }
  { s with pcache := mine.foldl (fun m b => zeroRange m (b.1 * 4096) 4096) s.pcache }

/-- The molt ends: PART_MASK takes the captured mask, or it fails (R373). -/
def State.moltDone (s : State) (ok : Bool) : State :=
  match s.sec.molting with
  | none => s
  | some (n, m) =>
    let s := s.onSec fun c => { c with molting := none }
    if ok then
      let s := (s.zeroShare n).setFd (Fd.AE_CTL_PART_MASK n) m
      let s := if n < 64 then s.setFd Fd.SEC_MOLT_DONE_LO_DONE (s.fd Fd.SEC_MOLT_DONE_LO_DONE ||| 2 ^ n)
        else s.setFd Fd.SEC_MOLT_DONE_HI_DONE (s.fd Fd.SEC_MOLT_DONE_HI_DONE ||| 2 ^ (n - 64))
      s.inc Fd.SEC_MOLTS_COUNT
    else ((s.setFd (Fd.AE_CTL_PART_MASK n) 0).raise Fd.SEC_ERR_MOLT_FAIL).countErr 3 n 1

/-! ## Fuses (R379-R381) -/

/-- Slots that hold a hash, and those of a mask in SEC_FUSE_STATUS. -/
def State.slotMask (s : State) : Nat := s.sec.hashes.foldl (fun n h => n + 2 ^ h.1) 0
def State.slotIn (s : State) (f : Fd) (k : Nat) : Bool := s.fd f / 2 ^ k % 2 == 1

/-- What a fuse command would burn, where it is accepted (R380). -/
def State.fuseAccepted (s : State) (op slot : Nat) (hash : List Byte) : Option FuseCmd :=
  let prog := fun k => (tfind s.sec.hashes k).isSome
  if s.flag Fd.SEC_CTL_BOOT_DONE || !s.glb.accepted then none
  else match op with
  | 1 => if prog slot || s.slotIn Fd.SEC_FUSE_STATUS_SPOILED slot then none else some (.program slot hash)
  | 2 =>
    let other := (List.range 4).any (fun k => k != slot && prog k && !s.slotIn Fd.SEC_FUSE_STATUS_REVOKED k)
    if slot = s.fd Fd.SEC_STATUS_BOOT_SLOT ∨ !other then none else some (.revoke slot)
  | 3 => if s.fd Fd.SEC_FUSE_STATUS_SVN < 64 then some .svn else none
  | _ => none

/-- SEC_FUSE_DATA0-3. -/
def State.fuseData (s : State) : List Byte :=
  le 8 (s.reg Reg.SEC_FUSE_DATA0) ++ le 8 (s.reg Reg.SEC_FUSE_DATA1) ++ le 8 (s.reg Reg.SEC_FUSE_DATA2) ++ le 8 (s.reg Reg.SEC_FUSE_DATA3)

/-- A store to SEC_FUSE_CMD (Table 17-8). -/
def State.fuseCmd (s : State) (op slot : Nat) : State :=
  let s := s.setFd Fd.SEC_FUSE_CMD_SLOT slot
  if op = 0 then s
  else if s.sec.fusing.isSome then (s.setFd Fd.SEC_FUSE_CMD_RESULT stBUSY).secReject
  else match s.fuseAccepted op slot s.fuseData with
    | none => (s.setFd Fd.SEC_FUSE_CMD_RESULT stBOUNDS).secReject
    | some c => (s.onSec fun x => { x with fusing := some c }).setFd Fd.SEC_FUSE_STATUS_BUSY 1

/-- The fuse command ends: what it burned reads back, or a slot is spoiled, or the SVN is as it was (R381). -/
def State.fuseDone (s : State) (good : Bool) : State :=
  match s.sec.fusing with
  | none => s
  | some c =>
    let s := ((s.onSec fun x => { x with fusing := none }).setFd Fd.SEC_FUSE_STATUS_BUSY 0).setFd Fd.SEC_FUSE_CMD_RESULT stOK
    if good then
      match c with
      | .program k h => s.onSec fun x => { x with hashes := tset x.hashes k h }
      | .revoke k => s.setFd Fd.SEC_FUSE_STATUS_REVOKED (s.fd Fd.SEC_FUSE_STATUS_REVOKED ||| 2 ^ k)
      | .svn => s.setFd Fd.SEC_FUSE_STATUS_SVN (s.fd Fd.SEC_FUSE_STATUS_SVN + 1)
    else
      let s := s.raise Fd.SEC_ERR_FUSE_FAIL
      match c with
      | .program k _ => s.setFd Fd.SEC_FUSE_STATUS_SPOILED (s.fd Fd.SEC_FUSE_STATUS_SPOILED ||| 2 ^ k)
      | _ => s

/-! ## Keys (R376-R378) -/

/-- SEC_KEY_DATA0-3. -/
def State.keyBytes (s : State) : List Byte := (List.range 4).flatMap (fun k => le 8 (tget 0 s.sec.keyData k))

/-- A key slot of an ACTIVE or DRAINING conduit (R388). -/
def State.keyInUse (s : State) (k : Nat) : Bool :=
  s.trl.conduits.any (fun c => (c.2.cstate == 1 || c.2.cstate == 2) && c.2.enc && c.2.keySlot == k)

/-- A store to SEC_KEY_CMD. -/
def State.keyCmd (s : State) (v : Nat) : State :=
  let k := s.fd Fd.SEC_KEY_SEL_SLOT
  let part := bits v 19 16
  let s := s.setFd Fd.SEC_KEY_CMD_PART part
  let op := bits v 1 0
  if op = 0 then s
  else if op = 3 then (s.setFd Fd.SEC_KEY_CMD_RESULT stBOUNDS).secReject
  else if s.keyInUse k then (s.setFd Fd.SEC_KEY_CMD_RESULT stBUSY).secReject
  else
    let s := s.setFd Fd.SEC_KEY_CMD_RESULT stOK
    if op = 1 then
      s.onSec fun c => { c with keys := tset c.keys k s.keyBytes, keyPart := tset c.keyPart k part, keyData := [] }
    else s.onSec fun c => { c with keys := tdel c.keys k, keyPart := tdel c.keyPart k }

/-- A partition key command ends. -/
def State.pkeyResult (s : State) (p st : Nat) : State :=
  let s := s.setFd (Fd.SEC_PART_RESULT p) st
  if st = stOK then s else s.secReject

/-- 32 random bytes (R377). -/
def State.randomKey (s : State) : List Byte := (List.range 4).flatMap (fun k => le 8 (Config.random (s.free + k)).toNat)

/-- The storage root key, a key of AES-256 (R377). -/
def storageRootKey : List Byte := le 32 Config.rootKey.toNat

/-- CREATE: a new key, and its blob at SEC_PKEY_ADDR. -/
def State.pkeyCreate (s : State) (p : Nat) : State :=
  let gen := (s.fd (Fd.SEC_PART_KEY_GEN p) + 1) % 2 ^ 24
  let key := s.randomKey
  let nonce := (le 8 (Config.random (s.free + 4)).toNat ++ le 8 (Config.random (s.free + 5)).toNat).take 12
  let blob := nonce ++ gcmSeal storageRootKey nonce (le 4 gen) key ++ le 4 gen
  let s := { s with free := s.free + 6 }
  let s := ((s.onSec fun c => { c with xts := tset c.xts p key }).setFd (Fd.SEC_PART_KEY_GEN p) gen).setFd (Fd.SEC_PART_PSTATE p) 1
  (s.hbmWrite (s.fd Fd.SEC_PKEY_ADDR_ADDR) blob).pkeyResult p stOK

/-- LOAD: the key in the blob at SEC_PKEY_ADDR, if its tag verifies. -/
def State.pkeyLoad (s : State) (p : Nat) : State :=
  let b := s.hbmRead (s.fd Fd.SEC_PKEY_ADDR_ADDR) 64
  match gcmOpen storageRootKey (slice b 0 12) (slice b 60 4) (slice b 12 48) with
  | none => (s.raise Fd.SEC_ERR_PKEY_FAIL).pkeyResult p stFORMAT
  | some key =>
    (((s.onSec fun c => { c with xts := tset c.xts p key }).setFd (Fd.SEC_PART_KEY_GEN p) (lat b 60 4)).setFd
      (Fd.SEC_PART_PSTATE p) 1).pkeyResult p stOK

/-- Something of a partition still exists (R378). -/
def State.partHolds (s : State) (p : Nat) : Bool :=
  s.pgt.seqs.any (fun q => hPart q.2.handle == p) ||
  (List.range 8).any (fun k => s.fd ((Fd.WXP_IMG_STATUS_STATE).at (p * 8 + k)) != 0) ||
  s.rmo.regions.any (fun r => r.2.rstate != 0 && r.2.part == p) ||
  s.trl.conduits.any (fun c => (c.2.cstate == 1 || c.2.cstate == 2) && c.2.part == p)

/-- DESTROY; it waits for flash reads under the key, which end within their own step. -/
def State.pkeyDestroy (s : State) (p : Nat) : State :=
  if s.partHolds p then s.pkeyResult p stBUSY
  else ((s.onSec fun c => { c with xts := tdel c.xts p }).setFd (Fd.SEC_PART_PSTATE p) 0).pkeyResult p stOK

/-! ## Measurements (R383) -/

def State.meas (s : State) (k : Nat) : List Byte := (tfind s.sec.meas k).getD (zeros 32)

/-- A slot extended with a digest. -/
def State.extend (s : State) (k : Nat) (d : List Byte) : State :=
  let m := sha256 (s.meas k ++ d)
  s.onSec fun c => { c with meas := tset c.meas k m }

/-- A debug event: MEAS7 is extended and counted (R387). -/
def State.debugEvent (s : State) (kind : Nat) : State :=
  let n := s.fd Fd.SEC_DBG_SESSIONS
  ((s.extend 7 (Config.measured kind (le 4 n))).setFd Fd.SEC_DBG_SESSIONS (min (n + 1) (2 ^ 32 - 1))).setFd Fd.SEC_STATUS_DEBUG_SEEN 1

/-! ## Signatures (R384, R385) -/

/-- The body of a quote (Table 17-5). -/
def State.quoteBody (s : State) (nonce : List Byte) : List Byte :=
  [0x51, 0x55, 0x4F, 0x54] ++ le 2 1 ++ le 2 0x0816 ++ le 1 0xB1 ++
    le 1 (s.fd Fd.SEC_STATUS_BOOT_SLOT + 4 * s.fd Fd.SEC_STATUS_DEBUG_SEEN) ++ zeros 2 ++ le 4 (s.fd Fd.SEC_FUSE_STATUS_SVN) ++
    le 8 s.usec ++ le 8 Config.serial.toNat ++ nonce ++ (List.range 8).flatMap s.meas ++ le 4 s.node ++ zeros 12

/-- The CertificateVerify content of a transcript hash. -/
def tlsContent (hash : List Byte) : List Byte :=
  List.replicate 64 0x20 ++ [0x54, 0x4C, 0x53, 0x20, 0x31, 0x2E, 0x33, 0x2C, 0x20, 0x73, 0x65, 0x72, 0x76, 0x65, 0x72, 0x20, 0x43, 0x65,
    0x72, 0x74, 0x69, 0x66, 0x69, 0x63, 0x61, 0x74, 0x65, 0x56, 0x65, 0x72, 0x69, 0x66, 0x79] ++ [0x00] ++ hash

/-- A store to SEC_SIGN or SEC_QUOTE. The message is fixed at the start (R388). -/
def State.signCmd (s : State) (quote : Bool) (v : Nat) : State :=
  let fa := if quote then Fd.SEC_QUOTE_ADDR else Fd.SEC_SIGN_ADDR
  let fr := if quote then Fd.SEC_QUOTE_RESULT else Fd.SEC_SIGN_RESULT
  let fb := if quote then Fd.SEC_QUOTE_BUSY else Fd.SEC_SIGN_BUSY
  let go := bits v 40 40 = 1
  let s := s.setFd fa (bits v 39 0)
  if !go then s
  else if s.sec.signing.isSome then (s.setFd fr stBUSY).secReject
  else
    let a := bits v 39 0
    let input := s.hbmRead a 32
    let msg := if quote then s.quoteBody input else tlsContent input
    (s.onSec fun c => { c with signing := some (a, msg, quote), signed := false }).setFd fb 1

/-- The signature, or the quote, is written behind the hash or nonce (R384, R385). -/
def State.signDone (s : State) : State :=
  match s.sec.signing with
  | none => s
  | some (a, msg, quote) =>
    let sig := (Config.sign msg).take 384 ++ zeros (384 - (Config.sign msg).length)
    let s := s.hbmWrite (a + 32) (if quote then msg ++ sig else sig)
    let s := s.onSec fun c => { c with signing := none, signed := true }
    if quote then ((s.setFd Fd.SEC_QUOTE_BUSY 0).setFd Fd.SEC_QUOTE_RESULT stOK).inc Fd.SEC_QUOTES_COUNT
    else ((s.setFd Fd.SEC_SIGN_BUSY 0).setFd Fd.SEC_SIGN_RESULT stOK).inc Fd.SEC_SIGNS_COUNT

/-! ## Meanings -/

/-- MOLT_QUEUE: a store to SEC_MOLT_LO or SEC_MOLT_HI (R374). -/
def execMoltQueue (hi : Bool) (v : Word) (s : State) : Host.Outcome State Fault Refusal :=
  act s fun s => s.onSec fun c => { c with
    molts := (moltBits hi v.toNat).foldl (fun t n => tset t n (s.fd Fd.SEC_MOLT_MASK_MASK)) c.molts }

/-- MOLT_START (R371, R372). -/
def execMoltStart (s : State) : Host.Outcome State Fault Refusal := act s State.moltStart

/-- MOLT_DONE (R371, R373). -/
def execMoltDone (ok : Bool) (s : State) : Host.Outcome State Fault Refusal := act s fun s => s.moltDone ok

/-- FUSE_PROGRAM: a store of OP 1 to SEC_FUSE_CMD (R380). -/
def execFuseProgram (v : Word) (s : State) : Host.Outcome State Fault Refusal :=
  actIf s (bits v.toNat 1 0 == 1) fun s => s.fuseCmd 1 (bits v.toNat 3 2)

/-- FUSE_REVOKE: a store of OP 2 (R380). -/
def execFuseRevoke (v : Word) (s : State) : Host.Outcome State Fault Refusal :=
  actIf s (bits v.toNat 1 0 == 2) fun s => s.fuseCmd 2 (bits v.toNat 3 2)

/-- SVN_STEP: a store of OP 3 (R380). -/
def execSvnStep (v : Word) (s : State) : Host.Outcome State Fault Refusal :=
  actIf s (bits v.toNat 1 0 == 3) fun s => s.fuseCmd 3 (bits v.toNat 3 2)

/-- KEY_LOAD: a store of OP 1 to SEC_KEY_CMD (R376). -/
def execKeyLoad (v : Word) (s : State) : Host.Outcome State Fault Refusal :=
  actIf s (bits v.toNat 1 0 == 1) fun s => s.keyCmd v.toNat

/-- KEY_ERASE: a store of OP 2 (R376). -/
def execKeyErase (v : Word) (s : State) : Host.Outcome State Fault Refusal :=
  actIf s (bits v.toNat 1 0 == 2) fun s => s.keyCmd v.toNat

/-- PKEY_CREATE: a store of CMD 1 to SEC_PART (R377). -/
def execPkeyCreate (part : Fin 16) (v : Word) (s : State) : Host.Outcome State Fault Refusal :=
  actIf s (bits v.toNat 3 2 == 1) fun s => s.pkeyCreate part.val

/-- PKEY_LOAD: a store of CMD 2 (R377). -/
def execPkeyLoad (part : Fin 16) (v : Word) (s : State) : Host.Outcome State Fault Refusal :=
  actIf s (bits v.toNat 3 2 == 2) fun s => s.pkeyLoad part.val

/-- PKEY_DESTROY: a store of CMD 3 (R378). -/
def execPkeyDestroy (part : Fin 16) (v : Word) (s : State) : Host.Outcome State Fault Refusal :=
  actIf s (bits v.toNat 3 2 == 3) fun s => s.pkeyDestroy part.val

/-- MEAS_EXTEND: a store to SEC_MEAS_EXT (R383). Software never extends MEAS7, and MEAS0-MEAS3 only before BOOT_DONE. -/
def execMeasExtend (v : Word) (s : State) : Host.Outcome State Fault Refusal :=
  act s fun s =>
    let s := s.storeFields 0 Reg.SEC_MEAS_EXT v.toNat
    if bits v.toNat 63 63 = 0 then s else
    let k := s.fd Fd.SEC_MEAS_EXT_SLOT
    if k = 7 ∨ (k < 4 ∧ s.flag Fd.SEC_CTL_BOOT_DONE) then s.secReject
    else s.extend k (s.hbmRead (s.fd Fd.SEC_MEAS_EXT_ADDR) 32)

/-- SEC_SIGN: a store to SEC_SIGN (R385). -/
def execSecSign (v : Word) (s : State) : Host.Outcome State Fault Refusal := act s fun s => s.signCmd false v.toNat

/-- SEC_QUOTE: a store to SEC_QUOTE (R384). -/
def execSecQuote (v : Word) (s : State) : Host.Outcome State Fault Refusal := act s fun s => s.signCmd true v.toNat

/-- SIGNATURE_DONE (R384). -/
def execSignatureDone (s : State) : Host.Outcome State Fault Refusal := act s State.signDone

/-- BOOT_DONE: a store to SEC_CTL; the bit stays once set (R383). -/
def execBootDone (v : Word) (s : State) : Host.Outcome State Fault Refusal :=
  actIf s (bits v.toNat 0 0 == 1) fun s => s.setFd Fd.SEC_CTL_BOOT_DONE 1

/-- RNG_READ: a load of SEC_RNG (Table 17-8). -/
def execRngRead (s : State) : Host.Outcome State Fault Refusal :=
  act s fun s => { s with rdata := Config.random s.free, free := s.free + 1 }

/-- DEBUG_DECLARE: a store to SEC_DBG (R387). -/
def execDebugDeclare (v : Word) (s : State) : Host.Outcome State Fault Refusal :=
  actIf s (bits v.toNat 0 0 == 1) fun s => s.debugEvent 1

/-- DEBUG_ATTACH (R387). -/
def execDebugAttach (s : State) : Host.Outcome State Fault Refusal :=
  act s fun s => (s.debugEvent 0).setFd Fd.SEC_STATUS_DEBUG_ACTIVE 1

/-- DEBUG_DETACH (R387). -/
def execDebugDetach (s : State) : Host.Outcome State Fault Refusal :=
  act s fun s => s.setFd Fd.SEC_STATUS_DEBUG_ACTIVE 0

end Sys2Proof.Machine
end

