-- ==== Sys2Proof/Machine/Mirror.lean ====
section
/-! DEFINITION. Mirroring: what the twin does with a MIRROR, and the home with its answer (R317-R323, R331). -/

namespace Sys2Proof.Machine

/-! ## Autotomy (R331) and the pair epoch (R317) -/

def State.twinConduit (s : State) : Nat := s.fd Fd.TWN_CTL_CONDUIT

/-- A member fences itself: its streams and operations are abandoned unanswered, and nothing is sent but to the witness. -/
def State.fence (s : State) : State :=
  let s := (s.onTwn fun t => { t with
    role := .fenced, claim := none, leaseUntil := none, regrow := [], handoff := false, permitAt := none }).twinError Fd.TWN_ERR_FENCED
  let s := s.onAe fun a => { a with running := [], queues := [], waiting := [], mergeQ := [], lockWait := [], busySince := [], batches := [] }
  let s := s.ae.streams.foldl (fun s x => s.releaseStream x.1) s
  let s := s.onPgt fun p => { p with ops := [], copies := [] }
  let s := s.onCust fun u => { u with held := [], forwarded := [], syncs := [] }
  let w := s.fd Fd.TWN_WITNESS_CONDUIT
  s.onTrl fun t => { t with conduits := t.conduits.map fun c => if c.1 = w then c else (c.1, { c.2 with queue := [], sent := [] }) }

/-- What a message of the peer is to the epoch table of R317. -/
inductive PeerMsg where
  | croakPaired | croakRegrowing | mirror | handback | other
  deriving DecidableEq, Repr

def State.setRole (s : State) (r : Role) (e : Nat) : State := s.onTwn fun t => { t with role := r, epoch := e }

/-- The member becomes PAIRED at an epoch; it holds no lease before the next croak that echoes it (R326). -/
def State.becomePaired (s : State) (e : Nat) : State :=
  (s.onTwn fun t => { t with
    role := .paired, epoch := e, leaseUntil := none, silentAt := none, claim := none, regrow := [], tabled := []
    joinFailed := false, heardAt := s.nsec }).settle

/-- A message with a higher epoch (R317): the state, and whether the message is then handled. -/
def State.newEpoch (s : State) (e : Nat) (m : PeerMsg) : State × Bool :=
  if e ≤ s.twn.epoch then (s, true) else
  match s.role, m with
  | .joining, .croakPaired => (s.becomePaired e, true)
  | .joining, .croakRegrowing => (s.setRole .mirrorBuild e, true)
  | .joining, .mirror => (s.setRole .mirrorBuild e, true)
  | .mirrorBuild, .croakPaired => (s.becomePaired e, true)
  | .mirrorBuild, .mirror => (s.setRole .mirrorBuild e, true)
  | .paired, .croakPaired => (s.setRole .paired e, true)
  | .paired, .mirror => (s.setRole .paired e, true)
  | .paired, .handback => (s.setRole .paired e, true)
  | .joining, _ => (s, false)
  | .down, _ => (s, false)
  | .fenced, _ => (s, false)
  | _, _ => (s.fence, false)

/-! ## The twin table (R319) -/

/-- The twin's record of a handle. -/
def State.twinKeyOf (s : State) (h : Nat) : Option Nat :=
  (s.pgt.seqs.find? (fun p => decide (2 ^ 24 ≤ p.1) && p.2.handle == h)).map Prod.fst

/-- Where the twin's record of a new handle goes: by INDEX for the peer's own sequences, by INDEX in a second range for this
node's own that a regrow brings back, and elsewhere for sequences of other homes. -/
def State.newTwinKey (s : State) (h : Nat) : Nat :=
  if hHome h = s.node ^^^ 1 then twinKey (hIndex h)
  else if hHome h = s.node then 2 ^ 25 + hIndex h
  else 2 ^ 26 + (((List.range (s.pgt.seqs.length + 1)).find? (fun n => (s.seq (2 ^ 26 + n)).isNone)).getD 0)

/-- The custody record that goes with a mirrored sequence of this pair (R351). -/
def State.twinRecord (s : State) (h epoch : Nat) : State :=
  let i := if hHome h = s.node then some (hIndex h) else if hHome h = s.node ^^^ 1 then some (twinKey (hIndex h)) else none
  match i with
  | none => s
  | some i =>
    if (tfind s.cust.records i).isSome then s else
    s.onCust fun c => { c with records := tset c.records i ⟨h, epoch, hHome h, .held, 0, 0, 0, 0, hHome h⟩ }

/-- The content of a page as it can be read here at once, and checks; none where it cannot. -/
def State.copyOf (s : State) (d : Nat) : Option (List Byte) :=
  match s.desc d with
  | none => none
  | some x =>
    let raw : Option (List Byte) := match x.loc.tier with
      | .lent => none
      | .flash => match s.readAt (x.loc.frame / 32) with
        | .inr (_, u) => some (slice u.content (x.loc.frame % 32 * 2048) (contentSize x.def0))
        | .inl _ => none
      | _ => some (s.pageContent x)
    raw.bind fun c =>
      if x.state == .poisoned || (x.state != .tadpole && crc32c c != x.crc.toNat) then none else some c

/-- An entry of a MIRROR_ACK (Table 15-2). -/
def ackEntry (key crc : Nat) : List Byte := le 1 (keyLayer key) ++ le 1 (keyGroup key) ++ zeros 2 ++ le 4 (keyPos key) ++ le 4 crc

/-- A MIRROR_ACK sent (Table 15-2). -/
def State.mirrorAck (s : State) (rseq status kind handle tag n : Nat) (tail : List Byte) : State :=
  s.send s.twinConduit 0x21 4
    (le 4 s.twn.epoch ++ le 4 rseq ++ le 1 status ++ le 1 kind ++ le 2 n ++ zeros 4 ++ le 8 handle ++ le 8 tag ++ tail) .plain

/-- What applying a MIRROR comes to. -/
inductive MirrorRes where
  /-- Applied; the pages sealed, by page-table key with their CRC. -/
  | ok (s : State) (sealed_ : List (Nat × Nat))
  | nak (st : Nat)

/-- A staged tadpole seals at the twin: its CRC, and a place in a MIRROR-area unit. -/
def State.twinSeal (s : State) (d : Nat) : State × Nat :=
  match s.desc d with
  | none => (s, 0)
  | some x =>
    let c := crc32c (s.pageContent x)
    ((s.modDesc d fun x => { x with crc := BitVec.ofNat 32 c, state := .sealed, sealDue := false }).pack true x.part d (flashSlots x.def0), c)

/-- The staged tadpoles of a sequence that are full or closed seal. Where the MIRROR area is full the mirror is refused (R322). -/
def State.sealTwin (s : State) (k : Nat) : MirrorRes :=
  match s.seq k with
  | none => .ok s []
  | some q =>
    let due := q.pt.filter fun (e : Nat × Nat) => match s.desc e.2 with
      | some x => x.state == .tadpole && (q.closed || 16 * (keyPos e.1 + 1) ≤ q.len (keyLayer e.1))
      | none => false
    if !due.isEmpty && (s.freeUnit 2).isNone then .nak stQUOTA else
    let r := due.foldl (fun (r : State × List (Nat × Nat)) e => let t := r.1.twinSeal e.2; (t.1, r.2 ++ [(e.1, t.2)])) (s, [])
    .ok r.1 r.2

/-- A stub of the twin table is taken back before an operation on it; none where HBM has no room for it. -/
def State.wakeTwin (s : State) (k : Nat) : Option State :=
  match s.seq k with
  | some q => if q.sstate == .cold then s.reinstate k else some s
  | none => some s

/-- A record of the twin table, with its page tables. -/
def State.putTwin (s : State) (k : Nat) (q : Seq) : Option State := (s.onPgt fun g => { g with seqs := tset g.seqs k q }).fitTables k

/-- A twin record whose page table has changed. -/
def State.twinFitted (s : State) (k : Nat) (f : State → MirrorRes) : MirrorRes :=
  match s.fitTables k with
  | none => .nak stQUOTA
  | some s => f s

/-! ## The operations (R318) -/

/-- A mirrored APPEND. The layer length is that of the home, which the START names. -/
def State.twinAppend (s : State) (k : Nat) (p : List Byte) : MirrorRes :=
  let s := s.modSeq k fun q => if q.len (apLayer p) < apStart p then { q with layerLen := q.layerLen.set (apLayer p) (apStart p) } else q
  match s.seq k with
  | none => .nak stBOUNDS
  | some q =>
    match appendCheck q p with
    | some st => if st = stALREADY then .ok s [] else .nak st
    | none =>
      match s.appendRows k q p true with
      | none => .nak stQUOTA
      | some (s, _) => (s.modSeq k fun q => q.appended p (apLayer p) (apStart p + apCount p)).sealTwin k

/-- A mirrored SEAL. -/
def State.twinClose (s : State) (k : Nat) : MirrorRes := (s.modSeq k fun q => { q with closed := true }).sealTwin k

/-- A tadpole with the first n rows of a page, at a page-table key of sequence k. -/
def State.twinCopy (s : State) (k part : Nat) (key d n : Nat) : Except Nat State :=
  match s.desc d, s.copyOf d with
  | some x, some c =>
    match s.allocTadpole x.def0 part true (fun _ => true) with
    | none => .error stQUOTA
    | some (y, s) =>
      .ok (((s.copyNow c y n).modDesc y fun z => { z with valid := n }).modSeq k fun q => { q with pt := tset q.pt key y })
  | _, _ => .error stLOST

/-- Copies of the part pages at position t / 16, as a FORK or a TRUNCATE asks: keys and new pages. -/
def State.twinCopies (s : State) (k part t : Nat) (es : List (Nat × Nat)) : Except Nat State :=
  es.foldl (fun (r : Except Nat State) e => match r with
    | .error st => .error st
    | .ok s => s.twinCopy k part e.1 e.2 (t % 16)) (.ok s)

/-- A mirrored FORK, creation or adoption: HANDLE is the child (R55). -/
def State.twinFork (s : State) (h : Nat) (p : List Byte) : MirrorRes :=
  let parent := lat p 0 8
  let f := lat p 8 4
  let key := s.newTwinKey h
  let now := fun (s : State) => (s.twinRecord h 1).onTwn fun t => { t with
    forked := t.forked.filter (fun o => s.usec ≤ o.2 + 10000) ++ [(key, s.usec)] }
  if parent = 0 then
    let cls := lat p 12 1
    if !clsValid (s.def0 cls) then .nak stBOUNDS else
    match s.putTwin key (newSeq h cls (s.def0 cls) (s.def1 cls) 0 s.usec false) with
    | none => .nak stQUOTA
    | some s => .ok (now s) []
  else
    match s.twinKeyOf parent with
    | none => .nak stBOUNDS
    | some pk =>
      match s.wakeTwin pk with
      | none => .nak stQUOTA
      | some s =>
      match s.seq pk with
      | none => .nak stBOUNDS
      | some q =>
        let s := s.onPgt fun g => { g with seqs := tset g.seqs key (newSeq h q.cls q.def0 q.def1 f s.usec false) }
        match s.shareBelow q key (f / 16) with
        | none => .nak stQUOTA
        | some s =>
          match s.twinCopies key (hPart h) f (if f % 16 = 0 then [] else q.pt.filter (fun e => keyPos e.1 == f / 16)) with
          | .error st => .nak st
          | .ok s => s.twinFitted key fun s => .ok (now s) []

/-- A mirrored TRUNCATE (R58). -/
def State.twinTruncate (s : State) (k : Nat) (p : List Byte) : MirrorRes :=
  match s.seq k with
  | none => .nak stBOUNDS
  | some q =>
    let t := trT p
    let part := q.pt.filter fun (e : Nat × Nat) => t % 16 != 0 && keyPos e.1 == t / 16 &&
      (match s.desc e.2 with | some x => x.state != .tadpole | none => false)
    match s.twinCopies k (hPart q.handle) t part with
    | .error st => .nak st
    | .ok s' =>
      let copies : Tbl Nat := ((s'.seq k).map (fun q' => q'.pt.filter fun (e : Nat × Nat) => part.any (fun o => o.1 == e.1))).getD []
      .ok ((s'.modSeq k fun q' => { q' with pt := q.pt }).truncateSeq k t copies) []

/-- VALID of a page, told by the TAG of a PAGE MIRROR. -/
def pageTag (valid : Nat) : Nat := 2 ^ 63 + valid

/-- PAGE: the page at a position of a sequence is replaced, or new to the twin (R321, R335). -/
def State.twinPage (s : State) (k layer group pos tag : Nat) (c : List Byte) : MirrorRes :=
  match s.seq k with
  | none => .nak stBOUNDS
  | some q =>
    if c.length ≠ contentSize q.def0 ∨ clsLayers q.def1 ≤ layer ∨ clsGroups q.def1 ≤ group then .nak stFORMAT else
    let key := ptKey layer group pos
    let valid := if 2 ^ 63 ≤ tag then min 16 (tag % 2 ^ 63) else min 16 (q.len layer - 16 * pos)
    let s := s.modSeq k fun q => if q.len layer < 16 * pos + valid then { q with layerLen := q.layerLen.set layer (16 * pos + valid) } else q
    let put := fun (s : State) (d : Nat) => match s.desc d with
      | none => s
      | some x => (s.writePage x c).modDesc d fun x => { x with valid := valid }
    let there := tfind q.pt key
    match there.bind s.desc, there with
    | some x, some d =>
      if x.state == .tadpole then (put s d).sealTwin k
      else
        match s.allocTadpole q.def0 (hPart q.handle) true (fun _ => true) with
        | none => .nak stQUOTA
        | some (y, s) => (put ((s.dropRef d).modSeq k fun q => { q with pt := tset q.pt key y }) y).sealTwin k
    | _, _ =>
      match s.allocTadpole q.def0 (hPart q.handle) true (fun _ => true) with
      | none => .nak stQUOTA
      | some (d, s) => (s.modSeq k fun q => { q with pt := tset q.pt key d }).twinFitted k fun s => (put s d).sealTwin k

/-- TABLE: the record of a sequence the peer serves (R335): the record of Table 3-3, then DEF0 and DEF1. -/
def State.twinTable (s : State) (h : Nat) (b : List Byte) : MirrorRes :=
  if b.length < 80 then .nak stFORMAT else
  let key := (s.twinKeyOf h).getD (s.newTwinKey h)
  let s := s.freeSeq key
  let d1 := lat b 72 8
  let q := newSeq h (lat b 8 1) (lat b 64 8) d1 (lat b 12 4 % 2 ^ 25) s.usec false
  let q := { q with closed := lat b 9 1 / 4 % 2 == 1, custodyEpoch := lat b 28 4, broken := true }
  match s.putTwin key q with
  | none => .nak stQUOTA
  | some s => .ok (s.twinRecord h (lat b 28 4)) []

/-- The key of a page the peer asks for: of its own sequence, or of one this node serves. -/
def State.fetchKey (s : State) (h : Nat) : Option Nat := (s.twinKeyOf h).or (s.keyOf h)

/-- FETCH: the page as this member holds it (R323). -/
def State.fetched (s : State) (h layer group pos : Nat) : Option (List Byte) :=
  (s.fetchKey h).bind fun k => (s.seq k).bind fun q =>
    let key := ptKey layer group pos
    match q.cold with
    | some im =>
      if q.sstate == .cold then
        match tfind im.tadpoles key with
        | some c => some c
        | none => (tfind im.pt key).bind fun d => match tfind im.descs d with
          | some x => ({ s with pgt := { s.pgt with descs := tset s.pgt.descs d x } }).copyOf d
          | none => s.copyOf d
      else (tfind q.pt key).bind s.copyOf
    | none => (tfind q.pt key).bind s.copyOf

/-! ## Receiving a MIRROR -/

/-- The roles that take a MIRROR: a PAIRED member that has not declared silence, one being rebuilt, and, for FETCH, the source
of a regrow. -/
def State.takesMirror (s : State) (mop : Nat) : Bool :=
  match s.role with
  | .paired => s.twn.silentAt.isNone
  | .mirrorBuild => true
  | .regrowing => mop == 7
  | _ => false

/-- NACK NOT_CUSTODIAN to a MIRROR, with this member's epoch (R317). -/
def State.refuseMirror (s : State) (c q : Nat) : State := s.respond c q 4 stNOTCUST (le 4 s.twn.epoch ++ zeros 4)

/-- A MIRROR applied, by its MOP. -/
def State.applyMirror (s : State) (mop h : Nat) (p : List Byte) : MirrorRes :=
  let layer := lat p 16 4 % 2 ^ 8
  let group := bits (lat p 16 4) 13 8
  let pos := lat p 20 4 % 2 ^ 20
  let body := p.drop 32
  let on := fun (f : State → Nat → MirrorRes) => match s.twinKeyOf h with
    | none => MirrorRes.nak stBOUNDS
    | some k => match s.wakeTwin k with
      | none => .nak stQUOTA
      | some s => f s k
  match mop with
  | 1 => on fun s k => s.twinAppend k body
  | 2 => on fun s k => s.twinClose k
  | 3 => s.twinFork h body
  | 4 => on fun s k => s.twinTruncate k body
  | 5 => on fun s k =>
    let s := s.freeSeq k
    .ok (s.onTwn fun t => { t with forked := t.forked.filter (fun o => o.1 != k), orphans := t.orphans.filter (fun o => o.1 != k) }) []
  | 6 => on fun s k => s.twinPage k layer group pos (lat p 24 8) body
  | 8 => s.twinTable h body
  | _ => .nak stFORMAT

/-- A MIRROR received on conduit c (R317, R318, R322, R323). -/
def State.recvMirror (s : State) (c q : Nat) (p : List Byte) : State :=
  let e := lat p 0 4
  let mop := lat p 4 1
  let h := lat p 8 8
  let tag := lat p 24 8
  if c ≠ s.twinConduit ∨ s.role = .down then s.respond c q 4 stBOUNDS []
  else if p.length < 32 ∨ mop = 0 ∨ 8 < mop then s.respond c q 4 stFORMAT []
  else if e < s.twn.epoch then s.refuseMirror c q
  else
    match s.newEpoch e .mirror with
    | (s, false) => s
    | (s, true) =>
      if !s.takesMirror mop then s.refuseMirror c q
      else if mop = 7 then
        match s.fetched h (lat p 16 4 % 2 ^ 8) (bits (lat p 16 4) 13 8) (lat p 20 4 % 2 ^ 20) with
        | some c => s.mirrorAck q stOK 2 h tag 0 c
        | none => s.mirrorAck q stLOST 2 h tag 0 []
      else
        let part := hPart h
        let others := s.twn.hotParts.filter (· != part)
        let s := s.onTwn fun t => { t with hotParts := if bits (lat p 5 1) 0 0 = 0 then others else part :: others }
        match s.applyMirror mop h p with
        | .nak st => s.respond c q 4 st []
        | .ok s es => s.mirrorAck q stOK 0 h tag es.length (es.flatMap fun e => ackEntry e.1 e.2)

/-! ## Mirror units (R319, R320) -/

/-- A page of the twin table lies in its flash unit: the staging frame is released, or kept as a hot copy. -/
def State.twinFlashed (s : State) (d frame : Nat) : State :=
  match s.desc d with
  | none => s
  | some x =>
    if s.twn.hotParts.contains x.part then
      (s.onTwn fun t => { t with hot := tset t.hot d frame }).charge4 x.part 1 (chargeOf .hbm x.def0)
    else (s.retireFrame x.loc x.def0 x.part true).modDesc d fun x => { x with loc := ⟨.flash, 0, frame⟩ }

/-- A sequence of the twin table, and key, that name a page. -/
def State.twinName (s : State) (d : Nat) : Option (Nat × Nat) :=
  (s.pgt.seqs.filter (fun p => decide (2 ^ 24 ≤ p.1))).findSome? fun p => (p.2.pt.find? (fun e => e.2 == d)).map fun e => (p.2.handle, e.1)

/-- A unit of mirror pages has committed: MIRROR_ACKs of KIND FLUSHED name them, one for each sequence. Slots of pages that
are gone meanwhile are dead. -/
def State.mirrorCommitted (s : State) (lunit : Nat) (content : List Byte) (pages : List (Nat × Nat)) : State :=
  let live := pages.filter fun (p : Nat × Nat) => match s.desc p.1 with
    | some x => x.ofTwin && x.refcnt != 0 && x.state == .sealed && x.loc.tier == .hbm && (tfind s.twn.hot p.1).isNone &&
        crc32c (slice content (p.2 * 2048) (contentSize x.def0)) == x.crc.toNat
    | none => false
  let s := pages.foldl (fun s (p : Nat × Nat) => if live.contains p then s.twinFlashed p.1 (lunit * 32 + p.2)
    else s.freeSlots (lunit * 32 + p.2) (match s.desc p.1 with | some x => flashSlots x.def0 | none => 1)) s
  let named := live.filterMap fun (p : Nat × Nat) =>
    (s.twinName p.1).map fun (n : Nat × Nat) => (n.1, n.2, ((s.desc p.1).map (fun x => x.crc.toNat)).getD 0)
  let hs := named.foldl (fun l (n : Nat × Nat × Nat) => if l.contains n.1 then l else l ++ [n.1]) ([] : List Nat)
  hs.foldl (fun s h =>
    let es := named.filter (fun (n : Nat × Nat × Nat) => n.1 == h)
    s.mirrorAck 0 stOK 1 h 0 es.length (es.flatMap fun (n : Nat × Nat × Nat) => ackEntry n.2.1 n.2.2)) s

/-! ## MIRROR_ACK at the home -/

/-- The entries of a MIRROR_ACK: page-table key and CRC. -/
def ackEntries (p : List Byte) : List (Nat × Nat) :=
  (List.range (lat p 10 2)).map fun i => (ptKey (lat p (32 + 12 * i) 1) (lat p (33 + 12 * i) 1 % 64) (lat p (36 + 12 * i) 4 % 2 ^ 20), lat p (40 + 12 * i) 4)

/-- A page of a sequence for a PAGE MIRROR: content and VALID; none where there is none to send. -/
def State.pageFor (s : State) (k key : Nat) : Option (List Byte × Nat) :=
  (s.seq k).bind fun q =>
    let valid := fun (x : Desc) => if x.valid = 0 then 16 else x.valid
    match q.cold with
    | some im =>
      if q.sstate == .cold then
        match tfind im.tadpoles key with
        | some c => some (c, min 16 ((im.layerLen[keyLayer key]?).getD 0 - 16 * keyPos key))
        | none => (tfind im.pt key).bind fun d => match tfind im.descs d with
          | some x => (({ s with pgt := { s.pgt with descs := tset s.pgt.descs d x } }).copyOf d).map fun c => (c, valid x)
          | none => (s.desc d).bind fun x => (s.copyOf d).map fun c => (c, valid x)
      else (tfind q.pt key).bind fun d => (s.desc d).bind fun x => (s.copyOf d).map fun c => (c, valid x)
    | none => (tfind q.pt key).bind fun d => (s.desc d).bind fun x => (s.copyOf d).map fun c => (c, valid x)

/-- A PAGE MIRROR of a page. -/
def State.sendPage (s : State) (k key : Nat) (purpose : Purpose) : State :=
  match s.seq k, s.pageFor k key with
  | some q, some (c, v) => s.sendMirror 6 q.handle (keyLayer key) (keyGroup key) (keyPos key) (pageTag v) c purpose
  | _, _ => s

/-- A TABLE MIRROR of a sequence. -/
def State.sendTable (s : State) (k : Nat) (purpose : Purpose) : State :=
  match s.seq k with
  | some q => s.sendMirror 8 q.handle 0 0 0 (2 ^ 63) (q.record (s.rootLoc k) ++ le 8 q.def0 ++ le 8 q.def1) purpose
  | none => s

/-- The home's own CRC of a page: that of its descriptor, or of the content of a page not yet sealed here. -/
def State.homeCrc (s : State) (x : Desc) : Nat := if x.state == .tadpole then crc32c (s.pageContent x) else x.crc.toNat

/-- The CRCs of an APPLIED, compared (R321): a page that differs is sent again. -/
def State.checkEntries (s : State) (k : Nat) (es : List (Nat × Nat)) : State :=
  es.foldl (fun s e =>
    match ((s.seq k).bind (fun q => tfind q.pt e.1)).bind s.desc with
    | none => s
    | some x => if s.homeCrc x = e.2 then s else (s.twinError Fd.TWN_ERR_MIRROR_CRC).sendPage k e.1 .plain) s

/-- The pages of an applied operation are held by the twin in staging (R319). -/
def State.markStaged (s : State) (k : Nat) : State :=
  match s.seq k with
  | none => s
  | some q => q.pt.foldl (fun s (e : Nat × Nat) => s.modDesc e.2 fun x => if x.mirror == .none then { x with mirror := .staged } else x) s

/-- The key of a handle this node serves. -/
def State.ownKey (s : State) (h : Nat) : Option Nat :=
  ((s.pgt.seqs.find? (fun p => decide (p.1 < 2 ^ 24) && p.2.handle == h)).map Prod.fst).or (s.keyOf h)

/-- A MIRROR_ACK: its epoch, HANDLE and kind decide what is done with it (R317, R318). -/
def State.ackTaken (s : State) (c : Nat) (p : List Byte) (kind : Nat) (f : State → State) : State :=
  let e := lat p 0 4
  let s := if lat p 4 4 = 0 then s else
    s.onTrl fun t => { t with awaiting := t.awaiting.filter (fun a => !(a.conduit == c && a.msgseq == lat p 4 4)) }
  if c ≠ s.twinConduit ∨ p.length < 32 ∨ lat p 9 1 ≠ kind ∨ e < s.twn.epoch then s
  else match s.newEpoch e .other with
    | (s, false) => s
    | (s, true) => f s

/-- KIND APPLIED: the operation may commit (R318). -/
def State.ackApplied (s : State) (p : List Byte) : State :=
  let h := lat p 16 8
  let tag := lat p 24 8
  if lat p 8 1 ≠ stOK then s else
  let s := match s.ownKey h with
    | some k => (s.checkEntries k (ackEntries p)).markStaged k
    | none => s
  match s.pgt.ops.find? (fun o => o.id == tag && o.phase == .mirrored) with
  | some o => (s.modOp o.id fun o => { o with phase := .acked }).settle
  | none => s

/-- KIND FLUSHED: the pages named lie in the twin's flash. -/
def State.ackFlushed (s : State) (p : List Byte) : State :=
  match s.ownKey (lat p 16 8) with
  | none => s
  | some k =>
    (ackEntries p).foldl (fun s e =>
      match (s.seq k).bind (fun q => tfind q.pt e.1) with
      | none => s
      | some d => s.modDesc d fun x =>
          { x with mirror := if bits (s.fd Fd.TWN_CTL_HOT_MASK) x.part x.part = 1 then .hot else .flashed }) s

/-! ## The content of a page the twin restores (R323) -/

/-- KIND CONTENT: the answer to a FETCH for page TAG. -/
def State.ackContent (s : State) (p : List Byte) : State :=
  let d := lat p 24 8
  let c := p.drop 32
  let asked := s.tier.restores.any (fun r => r.desc == d)
  let s := s.onTier fun b => { b with restores := b.restores.filter (fun r => r.desc != d) }
  match s.desc d with
  | none => s
  | some x =>
    if !asked || x.state != .poisoned then s
    else if lat p 8 1 = stOK ∧ c.length = contentSize x.def0 ∧ (!x.wasSealed ∨ crc32c c = x.crc.toNat) then (s.restorePage d x c).settle
    else s.restoreFailed d

/-! ## A MIRROR the peer answers with a NACK (R322) -/

/-- The operation whose MIRROR was refused. -/
def State.mirrorNacked (s : State) (tag st : Nat) (body : List Byte) : State :=
  if st = stNOTCUST then (s.newEpoch (lat body 0 4) .other).1
  else
    let s := if st = stQUOTA then s else s.twinError Fd.TWN_ERR_MIRROR_CRC
    match s.pgt.ops.find? (fun o => o.id == tag && o.phase == .mirrored) with
    | some o => (s.abortOp o st).settle
    | none => s

/-! ## Meanings -/

def recvMirrorOp (c : Conduit) (q : W32) (p : List Byte) (mop : Nat) (s : State) : Host.Outcome State Fault Refusal :=
  act s fun s => if lat p 4 1 = mop then (s.takeHanded c.val q.toNat 0x20).recvMirror c.val q.toNat p else s

def execMirrorAppend (c : Conduit) (q : W32) (p : List Byte) (s : State) : Host.Outcome State Fault Refusal := recvMirrorOp c q p 1 s
def execMirrorSeal (c : Conduit) (q : W32) (p : List Byte) (s : State) : Host.Outcome State Fault Refusal := recvMirrorOp c q p 2 s
def execMirrorFork (c : Conduit) (q : W32) (p : List Byte) (s : State) : Host.Outcome State Fault Refusal := recvMirrorOp c q p 3 s
def execMirrorTruncate (c : Conduit) (q : W32) (p : List Byte) (s : State) : Host.Outcome State Fault Refusal := recvMirrorOp c q p 4 s
def execMirrorFree (c : Conduit) (q : W32) (p : List Byte) (s : State) : Host.Outcome State Fault Refusal := recvMirrorOp c q p 5 s
def execMirrorPage (c : Conduit) (q : W32) (p : List Byte) (s : State) : Host.Outcome State Fault Refusal := recvMirrorOp c q p 6 s
def execMirrorFetch (c : Conduit) (q : W32) (p : List Byte) (s : State) : Host.Outcome State Fault Refusal := recvMirrorOp c q p 7 s
def execMirrorTable (c : Conduit) (q : W32) (p : List Byte) (s : State) : Host.Outcome State Fault Refusal := recvMirrorOp c q p 8 s

def execMirrorAckApplied (c : Conduit) (q : W32) (p : List Byte) (s : State) : Host.Outcome State Fault Refusal :=
  act s fun s => (s.takeHanded c.val q.toNat 0x21).ackTaken c.val p 0 fun s => s.ackApplied p
def execMirrorAckFlushed (c : Conduit) (q : W32) (p : List Byte) (s : State) : Host.Outcome State Fault Refusal :=
  act s fun s => (s.takeHanded c.val q.toNat 0x21).ackTaken c.val p 1 fun s => s.ackFlushed p
def execMirrorAckContent (c : Conduit) (q : W32) (p : List Byte) (s : State) : Host.Outcome State Fault Refusal :=
  act s fun s => (s.takeHanded c.val q.toNat 0x21).ackTaken c.val p 2 fun s => s.ackContent p

end Sys2Proof.Machine
end

