-- ==== Sys2Proof/Machine/Pair.lean ====
section
/-! DEFINITION. The pair: croaks, leases, silence, takeover, handoff, regrow, expulsion, cross-checks and health (chapter 15). -/

namespace Sys2Proof.Machine

/-! ## TAKEOVER (Table 15-4) -/

def reasonCode : Reason → Nat
  | .silence => 0 | .expel => 1 | .handoff => 2 | .regrow => 3

def takeover (ttype reason status failed serving epoch domain : Nat) : List Byte :=
  le 1 ttype ++ le 1 reason ++ le 1 status ++ zeros 1 ++ le 4 (failed % 2 ^ 20) ++ le 4 (serving % 2 ^ 20) ++ le 4 epoch ++
    le 2 (domain % 1024) ++ zeros 14

def tFailed (p : List Byte) : Nat := lat p 4 4 % 2 ^ 20
def tServing (p : List Byte) : Nat := lat p 8 4 % 2 ^ 20
def tEpoch (p : List Byte) : Nat := lat p 12 4

/-- A CLAIM sent to the witness (R327). -/
def State.sendClaim (s : State) (r : Reason) : State :=
  s.send (s.fd Fd.TWN_WITNESS_CONDUIT) 0x23 6
    (takeover 1 (reasonCode r) 0 (s.node ^^^ 1) s.node s.twn.epoch s.twn.peerDomain) .plain

/-- The member claims, unless a claim of its own is out. -/
def State.startClaim (s : State) (r : Reason) (handback : Bool) : State :=
  if s.twn.claim.isSome then s else
  let s := s.onTwn fun t => { t with claim := some ⟨r, handback, 1, s.nsec⟩ }
  if s.flag Fd.TWN_WITNESS_VALID then s.sendClaim r else s

/-- Conduits of the notify bitmap (R316), ascending; the twin conduit is never among them. -/
def State.notified (s : State) : List Nat :=
  (s.trl.conduits.filter fun (c : Nat × ConduitState) => c.2.cstate == 1 && c.1 != s.twinConduit &&
    bits (byteOf s.hbm (s.fd Fd.TWN_NOTIFY_BASE_ADDR + c.1 / 8)).toNat (c.1 % 8) (c.1 % 8) == 1).map Prod.fst

/-- The same TAKEOVER on every conduit of the bitmap (R330, R336). -/
def State.notifyAll (s : State) (p : List Byte) (purpose : Purpose) : State :=
  s.notified.foldl (fun s c => s.send c 0x23 6 p purpose) s

/-! ## Activation (R329) -/

/-- A page of the twin table becomes its partition's own, charged at once. -/
def State.ownPage (s : State) (d : Nat) : State :=
  match s.desc d with
  | none => s
  | some x =>
    if !x.ofTwin then s else
    let s := s.modDesc d fun x => { x with ofTwin := false }
    match tfind s.twn.hot d with
    | some f => (s.onTwn fun t => { t with hot := tdel t.hot d }).freeSlots f (flashSlots x.def0)
    | none =>
      let s := s.charge4 x.part x.loc.tier.code (chargeOf x.loc.tier x.def0)
      if s.underHard x.part x.loc.tier.code 0 then s else s.hardBlock

/-- Frames of the twin table that wait for reclamation belong to nobody still; those of its pages are charged with them. -/
def State.ownPages (s : State) (ds : List Nat) : State :=
  let s := ds.foldl State.ownPage s
  s.onTier fun b => { b with assemblies := b.assemblies.filter fun a => !(a.forTwin && a.pages.any (fun p => ds.contains p.1)) }

/-- The pages of the twin table. -/
def State.twinPages (s : State) : List Nat := (s.pgt.descs.filter (fun p => p.2.ofTwin)).map Prod.fst

/-- FETCHes that nobody will answer now: the pages cannot be restored (R344). -/
def State.dropRestores (s : State) : State :=
  let ds := s.tier.restores.map (·.desc)
  ds.foldl State.restoreFailed (s.onTier fun b => { b with restores := [] })

/-- The survivor serves both sets of sequences (R329, R330, R362). -/
def State.becomeSolo (s : State) (e : Nat) (r : Reason) : State :=
  let declared := s.twn.silentAt.getD s.usec
  let s := s.onTwn fun t => { t with
    role := .solo, epoch := e, claim := none, leaseUntil := none, live := true, silentAt := none, handoff := false
    orphans := (t.forked.filter (fun o => declared ≤ o.2 + 10000)).map (fun o => (o.1, s.usec + 2000000))
    forked := [], tabled := [], regrow := [] }
  let s := ((s.setFd Fd.TRL_CTL_TWIN_RX 1).twinError Fd.TWN_ERR_TAKEOVER).inc Fd.TWN_TAKEOVERS_COUNT
  let s := s.ownPages s.twinPages
  let s := s.onPgt fun p => { p with
    descs := p.descs.map fun d => (d.1, { d.2 with mirror := .none })
    ops := p.ops.map fun o => if o.phase == .mirrored then { o with phase := .acked } else o }
  let s := s.cust.syncs.foldl (fun s y => s.syncDone y.id) s
  let s := s.dropRestores
  let s := s.onTwn fun t => { t with announcing := !s.notified.isEmpty }
  (s.notifyAll (takeover 4 (reasonCode r) 0 (s.node ^^^ 1) s.node e s.twn.peerDomain) .announce).resume

/-! ## Handback (R336) -/

/-- Sequences of the peer's own, under the keys of a live twin table. -/
def State.peersOwn (s : State) : List (Nat × Seq) :=
  s.pgt.seqs.filter fun p => decide (2 ^ 24 ≤ p.1) && hHome p.2.handle == s.node ^^^ 1

/-- Pages that only the given sequences name. -/
def State.pagesOnlyOf (s : State) (ks : List Nat) : List Nat :=
  let mine := (s.pgt.seqs.filter (fun p => ks.contains p.1)).flatMap (fun p => p.2.pt.map Prod.snd)
  let others := (s.pgt.seqs.filter (fun p => !ks.contains p.1)).flatMap (fun p => p.2.pt.map Prod.snd)
  (mine.filter (fun d => !others.contains d)).eraseDups

/-- A page becomes a mirror page again: uncharged, and flushed to the MIRROR area from HBM. -/
def State.disownPage (s : State) (d : Nat) : State :=
  match s.desc d with
  | none => s
  | some x =>
    let s := (s.uncharge4 x.part x.loc.tier.code (chargeOf x.loc.tier x.def0)).modDesc d fun x => { x with ofTwin := true, pinned := false }
    if x.loc.tier = .hbm ∧ x.state = .sealed then s.pack true x.part d (flashSlots x.def0) else s

/-- The source of a HANDBACK gives the peer's sequences back: requests for them are forwarded from now on. -/
def State.giveBackPeer (s : State) (e : Nat) : State :=
  let mine := s.peersOwn
  let ks := mine.map Prod.fst
  let p := takeover 5 3 0 s.node (s.node ^^^ 1) e s.twn.peerDomain
  let s := s.onTwn fun t => { t with epoch := e, claim := none, live := false }
  let s := (s.send s.twinConduit 0x23 6 p .plain).notifyAll p .plain
  let s := s.setFd Fd.TRL_CTL_TWIN_RX 0
  let s := (s.pagesOnlyOf ks).foldl State.disownPage s
  let moved := mine.map fun (q : Nat × Seq) => (q.2.handle, s.node ^^^ 1, s.usec)
  let s := s.onCust fun u => { u with moved := u.moved.filter (fun m => !moved.any (fun n => n.1 == m.1)) ++ moved }
  let again := s.pgt.ops.filter (fun o => ks.contains o.seq && o.phase == .waiting)
  again.foldl (fun s o =>
    let s := s.endOp o.id
    match o.kind with
    | .query => s.recvNamed o.conduit o.msgseq 0x01 o.payload o.byWr
    | .append => s.recvNamed o.conduit o.msgseq 0x08 o.payload o.byWr
    | .seal => s.recvNamed o.conduit o.msgseq 0x09 o.payload o.byWr
    | .fork => s.recvNamed o.conduit o.msgseq 0x0A o.payload o.byWr
    | .free => s.recvNamed o.conduit o.msgseq 0x0B o.payload o.byWr
    | .truncate => s.recvNamed o.conduit o.msgseq 0x0C o.payload o.byWr
    | .info => s.recvNamed o.conduit o.msgseq 0x24 o.payload o.byWr
    | .entry n => s.endEntry (n / 1024) (n % 1024) stSTALEMAP []
    | .adopt => s.respond o.conduit o.msgseq 3 stBOUNDS []
    | .pin => s.pinEnd o stBOUNDS
    | .unpin => s) s |>.settle

/-- A record of the twin table takes the index its handle names, with its page tables. Where tier 2 has no room for one more
chunk of the sequence table it stands without one (notes/assumptions/119.md). -/
def State.rekeySeq (s : State) (old k : Nat) (q : Seq) : State :=
  let s := (s.takeSeqChunks (q.chunks k)).getD s
  (s.onPgt fun p => { p with
    seqs := tset (tdel p.seqs old) k q
    tables := match tfind p.tables old with
      | some l => tset (tdel p.tables old) k l
      | none => p.tables }).onTwn fun t => { t with
    forked := t.forked.filter (fun o => o.1 != old), orphans := t.orphans.filter (fun o => o.1 != old) }

/-- The regrown member serves its own sequences from its twin table: their records take their own index again. -/
def State.takeBackOwn (s : State) : State :=
  let mine := s.pgt.seqs.filter (fun p => decide (2 ^ 25 ≤ p.1) && decide (p.1 < 2 ^ 26))
  let s := mine.foldl (fun (s : State) (q : Nat × Seq) => s.rekeySeq q.1 (q.1 - 2 ^ 25) q.2) s
  let ds := (mine.flatMap (fun (q : Nat × Seq) => q.2.pt.map Prod.snd)).eraseDups
  let s := s.ownPages ds
  let s := ds.foldl (fun s d => s.modDesc d fun x => { x with mirror := .flashed }) s
  s.resume

/-! ## GRANT, REFUSE, CLAIM (R327, R328) -/

/-- The regrow has completed (R335). -/
def State.regrown (s : State) (e : Nat) : State := (s.becomePaired e).twinError Fd.TWN_ERR_REGROW_DONE

/-- A GRANT with a new epoch. -/
def State.granted (s : State) (e : Nat) : State :=
  match s.twn.claim with
  | none => s
  | some cl =>
    match s.role, cl.reason with
    | .joining, .regrow => s.becomePaired e
    | .joining, _ => s.becomeSolo e cl.reason
    | .regrowing, .regrow => s.regrown e
    | .paired, .regrow => if cl.handback then s.giveBackPeer e else s
    | .paired, r => s.becomeSolo e r
    | _, _ => s.onTwn fun t => { t with claim := none }

/-- A claim refused, or unanswered twice (R327, R425). -/
def State.claimLost (s : State) (unanswered : Bool) : State :=
  let s := s.onTwn fun t => { t with claim := none }
  if s.role = .joining then (s.onTwn fun t => { t with joinFailed := true }).twinError Fd.TWN_ERR_WITNESS_FAIL
  else
    let s := if unanswered then s.twinError Fd.TWN_ERR_WITNESS_FAIL else s
    s.fence

/-- A CLAIM at a device: the record of the pair decides (R328). -/
def State.recvClaim (s : State) (c : Nat) (p : List Byte) : State :=
  let claimant := s.peerOf c
  let pair := claimant / 2
  let reply := fun (s : State) (ty st e : Nat) =>
    s.send c 0x23 6 (takeover ty (lat p 1 1) st (tFailed p) (tServing p) e (lat p 16 2)) .plain
  let pairs := s.fd Fd.TWN_WIT_CTL_PAIRS
  if pairs = 0 then reply s 3 stBOUNDS 0 else
  let take := fun (s : State) => reply (s.onTwn fun t => { t with witness := tset t.witness pair ⟨tEpoch p + 1, claimant⟩ }) 2 stOK (tEpoch p + 1)
  match tfind s.twn.witness pair with
  | none => if pairs ≤ s.twn.witness.length then reply s 3 stQUOTA 0 else take s
  | some r => if r.epoch = tEpoch p then take s else reply s 3 stNOTCUST r.epoch

/-! ## Nodes lost and found again (R128, R129, R188, R189, R330, R336) -/

/-- What this device lends to, borrows from and computes for a node ends. -/
def State.nodeLost (s : State) (node : Nat) : State :=
  let lender := s.tier.borrowed.any (fun e => e.2.node == node) ||
    s.ae.streams.any (fun p => p.2.lender.isNone && p.2.subs.any (fun y => y.lender == node && !y.landed))
  let s := if lender then s.lenderLost node else s
  ((s.homeLost node).loseBorrower node).loseLent node

/-- An ANNOUNCE received (R330); one that is not above the highest epoch seen for the pair is ignored. -/
def State.recvAnnounce (s : State) (p : List Byte) : State :=
  let pair := tFailed p / 2
  if tEpoch p ≤ tget 0 s.twn.pairEpochs pair then s else
  let s := s.onTwn fun t => { t with
    pairEpochs := tset t.pairEpochs pair (tEpoch p)
    serving := tdel (tset t.serving (tFailed p) (tServing p)) (tServing p) }
  (s.nodeLost (tFailed p)).settle

/-- A HANDBACK received on another conduit than the twin's: routing goes back, nothing else changes. -/
def State.recvHandback (s : State) (c : Nat) (p : List Byte) : State :=
  if c = s.twinConduit then
    if tServing p ≠ s.node ∨ s.role ≠ .paired ∨ tEpoch p ≤ s.twn.epoch then s else
    match s.newEpoch (tEpoch p) .handback with
    | (s, false) => s
    | (s, true) => s.takeBackOwn
  else
    let pair := tFailed p / 2
    if tEpoch p ≤ tget 0 s.twn.pairEpochs pair then s else
    s.onTwn fun t => { t with pairEpochs := tset t.pairEpochs pair (tEpoch p), serving := tdel t.serving (tServing p) }

/-! ## Croaks (R317, R324-R326) -/

def State.periodNs (s : State) : Nat := s.fd Fd.TWN_CROAK_PERIOD_NS
def State.leaseNs (s : State) : Nat := s.fd Fd.TWN_CROAK_LEASE * s.periodNs
def State.missNs (s : State) : Nat := s.fd Fd.TWN_CROAK_MISS * s.periodNs

/-- The CROAK payload (Table 15-3). -/
def State.croak (s : State) (cseq : Nat) : List Byte :=
  le 4 s.twn.epoch ++ le 4 cseq ++ le 4 s.twn.peerCseq ++
    le 1 (roleCode s.role + (if s.twn.drained then 8 else 0) + (if s.twn.accuse then 16 else 0)) ++ zeros 1 ++
    le 2 (s.fd Fd.TWN_HEALTH_SCORE) ++ le 2 (s.fd Fd.TWN_DOMAIN_DOMAIN) ++ zeros 14

/-- One croak, as PATHS_M1 + 1 copies on different up ports. -/
def State.sendCroak (s : State) : State :=
  let n := (s.twn.cseq + 1) % 2 ^ 32
  let keep := s.twn.sentAt.filter (fun x => s.nsec ≤ x.2 + s.leaseNs)
  let s := s.onTwn fun t => { t with cseq := n, sentAt := keep ++ [(n, s.nsec)], lastSent := s.nsec }
  let p := s.croak n
  let ports := s.upPorts
  let at_ := n % max 1 ports.length
  let copies := ((ports.drop at_ ++ ports.take at_).take (s.fd Fd.TWN_CTL_PATHS_M1 + 1))
  if ports.isEmpty then s.sendUnseq s.twinConduit 0x22 0 p none
  else copies.foldl (fun s port => s.sendUnseq s.twinConduit 0x22 0 p (some (.port port))) s

def roleOf : Nat → Role
  | 0 => .down | 1 => .joining | 2 => .paired | 3 => .solo | 4 => .fenced | 5 => .regrowing | _ => .mirrorBuild

/-- A CROAK received on the twin conduit. -/
def State.recvCroak (s : State) (p : List Byte) : State :=
  let e := lat p 0 4
  let cseq := lat p 4 4
  let echo := lat p 8 4
  let r := roleOf (lat p 12 1 % 8)
  let handoff := bits (lat p 12 1) 3 3 == 1
  let s := s.onTwn fun t => { t with peerRole := r }
  let first := r == .joining && s.twn.peerCseq != cseq && !serialLt 32 s.twn.peerCseq cseq
  let fresh := first || serialLt 32 s.twn.peerCseq cseq
  if !fresh then s else
  let s := s.onTwn fun t => { t with peerCseq := cseq, peerDomain := lat p 16 2 % 1024, peerHealth := lat p 14 2 }
  if e < s.twn.epoch then s else
  match s.newEpoch e (if r = .paired then .croakPaired else if r = .regrowing then .croakRegrowing else .other) with
  | (s, false) => s
  | (s, true) =>
    let missed := (s.nsec - s.twn.heardAt) / max 1 s.periodNs - 1
    let s := (if s.role = Role.paired then s.count Fd.TWN_CROAKS_MISSED_COUNT missed else s).onTwn fun t => { t with
      heardAt := s.nsec, suspect := bits (lat p 12 1) 4 4 == 1 }
    let s := match s.twn.sentAt.find? (fun x => x.1 == echo) with
      | some (_, t) =>
        let till := t + s.leaseNs
        if s.role = Role.paired ∧ s.nsec ≤ till then
          s.onTwn fun w => { w with leaseUntil := some (max till (w.leaseUntil.getD 0)) }
        else s
      | none => s
    let s := if s.role = .joining ∧ r = .joining ∧ s.node % 2 = 0 ∧ !s.twn.joinFailed then s.startClaim .regrow false else s
    let s := if s.role = Role.paired ∧ handoff then s.startClaim .handoff false else s
    s.resume

/-- A PERMIT sent to the governor (R343). -/
def State.sendPermit (s : State) (reason : Nat) : State :=
  if s.flag Fd.TWN_GOVERNOR_VALID then
    s.send (s.fd Fd.TWN_GOVERNOR_CONDUIT) 0x23 6 (takeover 6 reason 0 (s.node ^^^ 1) s.node s.twn.epoch s.twn.peerDomain) .plain
  else s

/-! ## Regrow (R335) -/

/-- What is left to send: a sequence's table brings its pages after it. -/
def State.regrowBytes (s : State) (it : RegrowItem) : Nat :=
  match it with
  | .table k => match s.seq k with
    | some q => 80 + (match q.cold with | some im => if q.sstate == SeqState.cold then im.pt.length else q.pt.length | none => q.pt.length) * contentSize q.def0
    | none => 0
  | .page k _ => match s.seq k with
    | some q => contentSize q.def0
    | none => 0

/-- Sequences served here that the twin does not yet know. -/
def State.notTabled (s : State) : List Nat :=
  (s.pgt.seqs.filter fun p => !s.twn.tabled.contains p.1 && !p.2.hidden && p.2.sstate != .freeing &&
    !s.twn.regrow.any (fun i => i == .table p.1)).map Prod.fst

/-- TWN_REGROW_LEFT brought up to date. -/
def State.regrowLeft (s : State) : State :=
  s.setFd Fd.TWN_REGROW_LEFT_BYTES (s.twn.regrow.foldl (fun n i => n + s.regrowBytes i) 0)

/-- The next TABLE or PAGE MIRROR. -/
def State.regrowNext (s : State) : State :=
  let s := s.onTwn fun t => { t with regrow := t.regrow ++ s.notTabled.map .table }
  match s.twn.regrow with
  | [] => s.regrowLeft
  | i :: l =>
    let n := match i with | .table _ => 112 | .page _ _ => 32 + s.regrowBytes i
    let now := max s.nsec s.twn.regrowAt
    let at_ := now + n / max 1 (s.fd Fd.TWN_REGROW_RATE_GBPS)
    let s := s.onTwn fun t => { t with regrow := l, regrowAt := at_ }
    match i with
    | .table k =>
      let keys := match s.seq k with
        | some q => match q.cold with
          | some im => if q.sstate == SeqState.cold then im.pt.map Prod.fst else q.pt.map Prod.fst
          | none => q.pt.map Prod.fst
        | none => []
      ((s.sendTable k .regrow).onTwn fun t => { t with tabled := k :: t.tabled, regrow := keys.map (.page k) ++ t.regrow }).regrowLeft
    | .page k key => (s.sendPage k key .regrow).regrowLeft

/-- MIRRORs of the regrow that have not been answered. -/
def State.regrowOut (s : State) : Bool :=
  s.trl.conduits.any (fun c => c.2.queue.any (fun m => m.purpose == .regrow)) || s.trl.awaiting.any (fun a => a.purpose == .regrow)

/-! ## Commands of TWN_CMD (Table 15-13) -/

/-- A store of command n to TWN_CMD; while one runs it stores ARG and sets RESULT BUSY. -/
def twnCmd (v : Word) (n : Nat) (f : State → State) (s : State) : Host.Outcome State Fault Refusal :=
  actIf s (bits v.toNat 2 0 == n) fun s =>
    let s := s.storeFields 0 Reg.TWN_CMD v.toNat
    if s.flag Fd.TWN_CMD_BUSY then s.setFd Fd.TWN_CMD_RESULT stBUSY else f s

def State.twnResult (s : State) (st : Nat) : State := (s.setFd Fd.TWN_CMD_RESULT st).setFd Fd.TWN_CMD_BUSY 0

/-- The end of a quarantine or of WORN (R339). -/
def State.releaseUnit (s : State) (kind u : Nat) : State :=
  if kind = 0 ∧ u < 80 then
    let s := (([2, 3, 4].foldl (fun s k => s.clearActed k u) s).setFd (Fd.AE_STATUS_QUARANTINED u) 0).twnResult stOK
    s.engineStart u
  else if kind = 1 ∧ u < 4 then ((s.clearActed 7 u).setFd (Fd.MRG_UNIT_STATUS_QUARANTINED u) 0).twnResult stOK
  else if kind = 2 ∧ u < 256 then
    (((s.clearActed 0 u).setFd (Fd.HBM_CH_STATUS_WORN (u / 32) (u % 32)) 0).onHb fun h => { h with worn := h.worn.filter (· != u) }).twnResult stOK
  else s.twnResult stBOUNDS

/-! ## Cross-check (R340, R341) -/

/-- |a - b| ≤ 2^-tol * max(|a|, |b|) + 2^-126, exactly; a value that is not finite agrees with the same bits only. -/
def closeTo (tol : Nat) (a b : W32) : Bool :=
  if a = b then true
  else if !fIsFinite a || !fIsFinite b then false
  else
    -- All in units of 2^-149, scaled by 2^tol.
    let v := fun (w : W32) => fSig w * ((2 ^ ((fMag w).2 + 149).toNat : Nat) : Int)
    let d := (v a - v b).natAbs * 2 ^ tol
    decide (d ≤ max (v a).natAbs (v b).natAbs + 2 ^ (23 + tol))

/-- Two records of a row agree. -/
def recAgrees (tol : Nat) (a b : Rec) : Bool :=
  a.m == b.m && closeTo tol a.l b.l && a.o.length == b.o.length && (a.o.zip b.o).all (fun p => closeTo tol p.1 p.2)

/-- The first place at which two runs disagree. -/
def firstOdd (tol : Nat) (a b : List Rec) : Option Nat :=
  if a.length ≠ b.length then some 0 else ((a.zip b).find? (fun p => !recAgrees tol p.1 p.2)).map fun p => p.1.row

/-- An entry of the cross-check log (Table 15-9). -/
def State.logXchk (s : State) (x : Stream) (es : List Nat) (busy verdict row : Nat) : State :=
  let b := bandOf (s.fd Fd.GLB_TEMP_MAX_C)
  let n := s.twn.xnext
  (s.onTwn fun t => { t with
    xlog := tset t.xlog n ⟨es, b, verdict, busy, x.tag, x.conduit, row, s.usec⟩, xnext := (n + 1) % 64 }).setFd
      Fd.TWN_XLOG_SEL_NEXT ((n + 1) % 64)

/-- An XCHK event of an engine, which leaves service if its class says so. -/
def State.xchkEvent (s : State) (i : Nat) (x : Stream) (e : Nat) : State :=
  let s := ((s.countErr 4 e 1).raise (Fd.AE_ERR_CROSSCHK e)).engineEvent e 4 i 0 x.handle x.tag
  if s.flag (Fd.AE_STATUS_QUARANTINED e) then s.evictEngine e else s

/-- The runs of a sampled item are over: the records of run `w` are merged. -/
def State.xchkEnd (s : State) (i : Nat) (x : Stream) (ks : List Nat) (rs : List Rec) : State :=
  let s := ks.foldl (fun s k => s.modItem i k fun it => { it with istate := .done }) s
  (s.onAe fun a => { a with mergeQ := a.mergeQ ++ rs.map (fun r => ⟨i, x.gen, r, none, false⟩) }).collect i

/-- The comparison of item k of stream i with its re-run, and with a third run on a disagreement. -/
def State.xchkCompare (s : State) (i k : Nat) : State :=
  match s.stream i, s.item i k with
  | some x, some it =>
    let tol := s.fd Fd.TWN_XCHK_TOL_LOG2
    let runs := (x.items.zipIdx).filter (fun p => p.1.rerunOf == some k)
    if !it.sampled || it.rerunOf.isSome || it.istate != .held then s else
    match runs with
    | [(b, kb)] =>
      if b.istate != .held then s else
      match firstOdd tol it.heldRecs b.heldRecs with
      | none => s.xchkEnd i x [k, kb] it.heldRecs
      | some _ =>
        let cols := [it.engine.getD 0 % 10, b.engine.getD 0 % 10]
        match s.chooseEngine x.part cols with
        | none => s
        | some e =>
          let n := x.items.length
          let s := (s.inc Fd.TWN_XCHK_MISMATCH_COUNT).modStream i fun x =>
            { x with items := x.items ++ [{ WorkItem.fresh it.units false with rerunOf := some k, sampled := true }] }
          (s.giveItem i n e).inc Fd.TWN_XCHK_RUNS_COUNT
    | [(b, kb), (c, kc)] =>
      if c.istate != .held then s else
      let es := [it, b, c].map fun y => y.engine.getD 255
      let row := (firstOdd tol it.heldRecs b.heldRecs).getD 0
      let ks := [k, kb, kc]
      if (firstOdd tol it.heldRecs c.heldRecs).isNone then
        ((s.logXchk x es it.busyAt 2 row).xchkEvent i x (b.engine.getD 0)).xchkEnd i x ks it.heldRecs
      else if (firstOdd tol b.heldRecs c.heldRecs).isNone then
        ((s.logXchk x es it.busyAt 1 row).xchkEvent i x (it.engine.getD 0)).xchkEnd i x ks b.heldRecs
      else
        let s := (s.logXchk x es it.busyAt 0 row).twinError Fd.TWN_ERR_XCHK_POISON
        let s := ks.foldl (fun s k => s.modItem i k fun it => { it with istate := .done }) s
        ([it, b, c].foldl (fun s y => s.xchkEvent i x (y.engine.getD 0)) s).endStream i stPOISONED
    | _ => s
  | _, _ => s

/-- Bytes of a log entry (Table 15-9). -/
def XlogEntry.bytes (x : XlogEntry) : List Byte :=
  (List.range 3).flatMap (fun i => le 1 ((x.engines[i]?).getD 255)) ++ le 1 (x.band + x.verdict * 8) ++ le 1 x.busy ++ zeros 3 ++
    le 8 x.tag ++ le 2 x.conduit ++ zeros 2 ++ le 4 x.row ++ le 8 x.time

/-! ## Health (R342) -/

/-- The penalties of Table 15-10. -/
def State.healthScore (s : State) : Nat :=
  let retired := 10 * s.hb.retired.length
  let worn := 2 * s.hb.worn.length
  let quarE := 10 * ((List.range 80).filter (fun e => s.flag (Fd.AE_STATUS_QUARANTINED e))).length
  let quarM := 100 * ((List.range 4).filter (fun u => s.flag (Fd.MRG_UNIT_STATUS_QUARANTINED u))).length
  let luns := 5 * s.flt.lunFail.length
  let hasFlash := s.fd Fd.FLT_GEOM_CELL != 0
  let wear := if hasFlash && 90 ≤ s.wearMean then 100 else 0
  let spare := if hasFlash && s.sparePct ≤ 10 then 100 else 0
  let atLimit := fun (num k u : Nat) => (List.range 8).any fun b =>
    0 < s.fd (Fd.TWN_CLASS_LIMIT k) && s.fd (Fd.TWN_CLASS_LIMIT k) ≤ num * s.winCount k u b
  let fec := 20 * ((List.range 64).filter (atLimit 1 6)).length
  let units := (s.twn.windows.map (fun p => p.1 / 8)).eraseDups
  let half := min 50 (units.filter (fun u => atLimit 2 (u / 2 ^ 13) (u % 2 ^ 13))).length
  1000 - (retired + worn + quarE + quarM + luns + wear + spare + fec + half)

/-! ## Meanings -/

/-- CROAK_SEND (R324). -/
def execCroakSend (s : State) : Host.Outcome State Fault Refusal :=
  actIf s (s.flag Fd.TWN_CTL_ENABLE && s.role != .fenced && decide (s.twn.lastSent + s.periodNs ≤ s.nsec)) State.sendCroak

/-- CROAK (R317, R325, R326). -/
def execCroak (c : Conduit) (q : W32) (p : List Byte) (s : State) : Host.Outcome State Fault Refusal :=
  act s fun s =>
    let s := s.takeHanded c.val q.toNat 0x22
    if c.val = s.twinConduit ∧ s.role ≠ .down ∧ s.role ≠ .fenced ∧ 32 ≤ p.length then s.recvCroak p else s

/-- LEASE_EXPIRE (R326). -/
def execLeaseExpire (s : State) : Host.Outcome State Fault Refusal :=
  actIf s (!s.leaseHolds) fun s => s.onTwn fun t => { t with leaseUntil := none }

/-- SILENCE (R325, R327, R343). -/
def execSilence (s : State) : Host.Outcome State Fault Refusal :=
  actIf s (s.role == .paired && s.twn.silentAt.isNone && decide (s.twn.heardAt + s.missNs ≤ s.nsec)) fun s =>
    let s := (s.count Fd.TWN_CROAKS_MISSED_COUNT (s.fd Fd.TWN_CROAK_MISS)).onTwn fun t => { t with silentAt := some s.usec }
    (s.startClaim .silence false).sendPermit 0

/-- JOIN_TIMEOUT (R425). -/
def execJoinTimeout (s : State) : Host.Outcome State Fault Refusal :=
  actIf s (s.role == .joining && !s.twn.joinFailed && decide (s.twn.heardAt + 100000000 ≤ s.nsec)) fun s => s.startClaim .silence false

def recvTakeover (c : Conduit) (q : W32) (p : List Byte) (n : Nat) (f : State → State) (s : State) : Host.Outcome State Fault Refusal :=
  act s fun s =>
    let s := s.takeHanded c.val q.toNat 0x23
    if lat p 0 1 = n ∧ 32 ≤ p.length then f s else s

/-- TAKEOVER CLAIM (R328). -/
def execTakeoverClaim (c : Conduit) (q : W32) (p : List Byte) (s : State) : Host.Outcome State Fault Refusal :=
  recvTakeover c q p 1 (fun s => s.recvClaim c.val p) s

/-- TAKEOVER GRANT (R329, R335, R336, R425). -/
def execTakeoverGrant (c : Conduit) (q : W32) (p : List Byte) (s : State) : Host.Outcome State Fault Refusal :=
  recvTakeover c q p 2 (fun s =>
    if c.val = s.fd Fd.TWN_WITNESS_CONDUIT ∧ s.twn.epoch < tEpoch p then s.granted (tEpoch p) else s) s

/-- TAKEOVER REFUSE (R331, R425). -/
def execTakeoverRefuse (c : Conduit) (q : W32) (p : List Byte) (s : State) : Host.Outcome State Fault Refusal :=
  recvTakeover c q p 3 (fun s =>
    if c.val = s.fd Fd.TWN_WITNESS_CONDUIT ∧ s.twn.claim.isSome then s.claimLost false else s) s

/-- CLAIM_TIMEOUT (R327). -/
def execClaimTimeout (s : State) : Host.Outcome State Fault Refusal :=
  act s fun s =>
    match s.twn.claim with
    | none => s
    | some cl =>
      if s.nsec < cl.at_ + s.fd Fd.TWN_WITNESS_TIMEOUT_US * 1000 then s
      else if cl.sends < 2 then
        let s := s.onTwn fun t => { t with claim := some { cl with sends := cl.sends + 1, at_ := s.nsec } }
        if s.flag Fd.TWN_WITNESS_VALID then s.sendClaim cl.reason else s
      else s.claimLost true

/-- TAKEOVER ANNOUNCE (R330). -/
def execTakeoverAnnounce (c : Conduit) (q : W32) (p : List Byte) (s : State) : Host.Outcome State Fault Refusal :=
  recvTakeover c q p 4 (fun s => s.recvAnnounce p) s

/-- TAKEOVER HANDBACK (R336). -/
def execTakeoverHandback (c : Conduit) (q : W32) (p : List Byte) (s : State) : Host.Outcome State Fault Refusal :=
  recvTakeover c q p 5 (fun s => s.recvHandback c.val p) s

/-- TAKEOVER PERMIT at a governor (R343). -/
def execTakeoverPermit (c : Conduit) (q : W32) (p : List Byte) (s : State) : Host.Outcome State Fault Refusal :=
  recvTakeover c q p 6 (fun s =>
    if s.fd Fd.TWN_GOV_CTL_BASE = 0 then s else
    let dom := lat p 16 2 % 1024
    let window := max 1 (s.fd Fd.TWN_GOV_CTL_WINDOW_MIN) * 60000000
    let past := (tget [] s.twn.governor dom).filter (fun t => s.usec < t + window)
    let silence := lat p 1 1 = 0
    if silence ∨ past.length < s.fd Fd.TWN_GOV_CTL_LIMIT then
      (s.onTwn fun t => { t with governor := tset t.governor dom (past ++ [s.usec]) }).send c.val 0x23 6
        (takeover 7 (lat p 1 1) 0 (tFailed p) (tServing p) (tEpoch p) dom) .plain
    else s) s

/-- TAKEOVER PERMIT_OK (R343). -/
def execTakeoverPermitOk (c : Conduit) (q : W32) (p : List Byte) (s : State) : Host.Outcome State Fault Refusal :=
  recvTakeover c q p 7 (fun s =>
    if c.val = s.fd Fd.TWN_GOVERNOR_CONDUIT ∧ s.twn.permitAt.isSome ∧ lat p 1 1 = 1 then
      ((s.onTwn fun t => { t with permitAt := none }).twnResult stOK).startClaim .expel false
    else s) s

/-- PERMIT_TIMEOUT (R343). -/
def execPermitTimeout (s : State) : Host.Outcome State Fault Refusal :=
  act s fun s =>
    match s.twn.permitAt with
    | none => s
    | some t =>
      if s.nsec < t + s.fd Fd.TWN_WITNESS_TIMEOUT_US * 1000 then s
      else ((s.onTwn fun t => { t with permitAt := none, accuse := true }).twnResult stTIMEOUT).twinError Fd.TWN_ERR_GOV_REFUSED

/-- HANDOFF (R334). -/
def execHandoff (v : Word) (s : State) : Host.Outcome State Fault Refusal :=
  twnCmd v 1 (fun s => if s.role = .paired then (s.onTwn fun t => { t with handoff := true }).setFd Fd.TWN_CMD_BUSY 1
    else s.twnResult stBOUNDS) s

/-- HANDOFF_DRAINED (R334). -/
def execHandoffDrained (s : State) : Host.Outcome State Fault Refusal :=
  actIf s (s.twn.handoff && !s.twn.drained && s.ae.streams.isEmpty && !s.pgt.ops.any (fun o => o.phase.begun)) fun s =>
    (s.onTwn fun t => { t with drained := true }).twnResult stOK

/-- EXPEL_PEER (R343). -/
def execExpelPeer (v : Word) (s : State) : Host.Outcome State Fault Refusal :=
  twnCmd v 2 (fun s => if s.role = .paired ∧ s.twn.permitAt.isNone then
      ((s.onTwn fun t => { t with permitAt := some s.nsec }).setFd Fd.TWN_CMD_BUSY 1).sendPermit 1
    else s.twnResult stBOUNDS) s

/-- REGROW_START (R335). -/
def execRegrowStart (v : Word) (s : State) : Host.Outcome State Fault Refusal :=
  twnCmd v 3 (fun s => if s.role = .solo ∧ s.twn.peerRole = .joining then
      ((s.onTwn fun t => { t with role := .regrowing, regrow := [], tabled := [], regrowAt := s.nsec }).twnResult stOK |> fun s =>
        (s.onTwn fun t => { t with regrow := s.notTabled.map .table }).regrowLeft)
    else s.twnResult stBOUNDS) s

/-- REGROW_MIRROR_SEND (R335). -/
def execRegrowMirrorSend (s : State) : Host.Outcome State Fault Refusal :=
  actIf s (s.role == .regrowing && decide (s.twn.regrowAt ≤ s.nsec)) State.regrowNext

/-- REGROW_CLAIM (R335). -/
def execRegrowClaim (s : State) : Host.Outcome State Fault Refusal :=
  actIf s (s.role == .regrowing && s.twn.regrow.isEmpty && s.notTabled.isEmpty && !s.regrowOut) fun s => s.startClaim .regrow false

/-- TWN_CMD HANDBACK (R336). -/
def execTwnHandback (v : Word) (s : State) : Host.Outcome State Fault Refusal :=
  twnCmd v 4 (fun s => if s.role = .paired ∧ s.twn.live then (s.startClaim .regrow true).twnResult stOK else s.twnResult stBOUNDS) s

/-- TWN_CMD RELEASE (R339). -/
def execTwnRelease (v : Word) (s : State) : Host.Outcome State Fault Refusal :=
  twnCmd v 5 (fun s => s.releaseUnit (bits v.toNat 47 40) (bits v.toNat 39 32)) s

/-- TWN_CMD CLEAR_SUSPECT (R343). -/
def execClearSuspect (v : Word) (s : State) : Host.Outcome State Fault Refusal :=
  twnCmd v 6 (fun s => (s.onTwn fun t => { t with accuse := false }).twnResult stOK) s

/-- WORN_CLEAR (R339). -/
def execWornClear (ch : Fin 256) (s : State) : Host.Outcome State Fault Refusal :=
  actIf s (s.hb.worn.contains ch.val && s.calm 0 ch.val) fun s =>
    ((s.clearActed 0 ch.val).setFd (Fd.HBM_CH_STATUS_WORN (ch.val / 32) (ch.val % 32)) 0).onHb
      fun h => { h with worn := h.worn.filter (· != ch.val) }

/-- XCHK_COMPARE (R341). -/
def execXchkCompare (st k : Nat) (s : State) : Host.Outcome State Fault Refusal := act s fun s => s.xchkCompare st k

/-- HEALTH_COMPUTE (R342). -/
def execHealthCompute (s : State) : Host.Outcome State Fault Refusal :=
  actIf s (decide (s.twn.healthAt + 100000 ≤ s.usec)) fun s =>
    (s.setFd Fd.TWN_HEALTH_SCORE s.healthScore).onTwn fun t => { t with healthAt := s.usec }

/-- WINDOW_SNAPSHOT: a store to TWN_WIN_SEL (R337). -/
def execWindowSnapshot (v : Word) (s : State) : Host.Outcome State Fault Refusal :=
  act s fun s =>
    let s := s.storeFields 0 Reg.TWN_WIN_SEL v.toNat
    s.setFd Fd.TWN_WIN_COUNT_COUNT (min (2 ^ 32 - 1)
      (s.winCount (s.fd Fd.TWN_WIN_SEL_CLASS) (s.fd Fd.TWN_WIN_SEL_UNIT) (s.fd Fd.TWN_WIN_SEL_BAND)))

/-- XLOG_SNAPSHOT: a store to TWN_XLOG_SEL (R341). -/
def execXlogSnapshot (v : Word) (s : State) : Host.Outcome State Fault Refusal :=
  act s fun s =>
    let s := s.storeFields 0 Reg.TWN_XLOG_SEL v.toNat
    let b := match tfind s.twn.xlog (s.fd Fd.TWN_XLOG_SEL_INDEX) with | some x => x.bytes | none => zeros 32
    (((s.setReg Reg.TWN_XLOG_DATA0 (lat b 0 8)).setReg Reg.TWN_XLOG_DATA1 (lat b 8 8)).setReg Reg.TWN_XLOG_DATA2 (lat b 16 8)).setReg
      Reg.TWN_XLOG_DATA3 (lat b 24 8)

end Sys2Proof.Machine
end

