-- ==== Sys2Proof/Machine/Flash.lean ====
section
/-! DEFINITION. The commands of the flash tier (chapter 11). -/

namespace Sys2Proof.Machine

/-! ## FLT_CTL: format, replay, enable (R233, R377, R426, Table 11-13) -/

/-- READY: L is reported, B of R225 is known, and ENABLE admits users (Table 11-13). -/
def State.fltReady (s : State) : State :=
  let s := s.setFd Fd.FLT_LOGICAL_UNITS s.logicalUnits
  s.newB.setFd Fd.FLT_STATUS_STATE (if s.flag Fd.FLT_CTL_ENABLE then 4 else 3)

/-- FORMAT: everything is erased, the blocks that are neither bad nor retired are grouped anew (R220), a map of UNMAPPED units is
built, and a new system key is derived (R377). -/
def State.fltFormat (s : State) : State :=
  let v := (List.range 4).flatMap fun i => le 8 (Config.random (s.free + i)).toNat
  let s := { s with free := s.free + 4 }
  let s := s.onFlt fun f => { f with
    map := [], ckpt := [], segAt := [], phys := [], sbs := [], writes := [], reads := [], spares := []
    excluded := ((s.glb.nand.chips.bad.map (·.val) ++ f.retired).foldl (fun t b => tset t b ()) ([] : Tbl Unit)).map Prod.fst
    jopen := [], jdone := f.jseq, jtail := [], segment := 0, ckpts := [], anchor := v }
  ((s.onSec fun c => { c with xts := tset c.xts 16 (Config.systemKey v) }).setFd Fd.FLT_CTL_FMT_KEY 0).fltReady

/-- A store to FLT_CTL (Table 11-13). -/
def State.fltCtl (s : State) (v : Nat) : State :=
  let st := s.fd Fd.FLT_STATUS_STATE
  let op := s.fd Fd.FLT_CTL_OP_PCT
  let s := s.storeFields 0 Reg.FLT_CTL v
  let s := if st ≤ 1 then s else s.setFd Fd.FLT_CTL_OP_PCT op
  let s := if bits v 5 5 = 1 ∧ bits v 15 8 = 0xA5 ∧ st = 1 then s.fltFormat else s
  let s := if bits v 1 1 = 1 ∧ s.fd Fd.FLT_STATUS_STATE = 1 then s.setFd Fd.FLT_STATUS_STATE 2 else s
  if s.flag Fd.FLT_CTL_ENABLE ∧ s.fd Fd.FLT_STATUS_STATE = 3 then s.setFd Fd.FLT_STATUS_STATE 4 else s

/-- FLT_FORMAT: a store to FLT_CTL with FORMAT set. -/
def execFltFormat (v : Word) (s : State) : Host.Outcome State Fault Refusal :=
  actIf s (bits v.toNat 5 5 == 1) fun s => s.fltCtl v.toNat

/-- FLT_REPLAY: a store to FLT_CTL with REPLAY set. -/
def execFltReplay (v : Word) (s : State) : Host.Outcome State Fault Refusal :=
  actIf s (bits v.toNat 1 1 == 1) fun s => s.fltCtl v.toNat

/-- FLT_ENABLE: a store to FLT_CTL with ENABLE set. -/
def execFltEnable (v : Word) (s : State) : Host.Outcome State Fault Refusal :=
  actIf s (bits v.toNat 0 0 == 1) fun s => s.fltCtl v.toNat

/-- Replay finds no anchor record: start-up stops, unless the image lets the firmware format (R423). -/
def State.noAnchor (s : State) : State :=
  let s := s.setFd Fd.FLT_STATUS_STATE 1
  if bits (lat s.glb.geom 3 1) 0 0 = 1 then s else s.stopAt 0x22

/-- REPLAY_DONE (R233): the map of the checkpoints and the journal up to the unit both of whose copies fail, if one does.
Open superblocks are closed. A tier without an anchor record has no map to replay. -/
def execReplayDone (cut : Option Nat) (s : State) : Host.Outcome State Fault Refusal :=
  actIf s (s.fd Fd.FLT_STATUS_STATE == 2) fun s =>
    if s.flt.anchor.isEmpty then s.noAnchor else
    let n := min (cut.getD s.flt.jtail.length) s.flt.jtail.length
    let lost : Bool := n < s.flt.jtail.length
    let s := s.onFlt fun f => { f with
      map := s.replayed n
      jtail := f.jtail.take n
      jopen := [], jdone := f.jseq, writes := [], reads := [], ckpts := []
      sbs := f.sbs.map fun b => (b.1, { b.2 with sbState := if b.2.sbState = .open_ ∨ b.2.sbState = .erasing then .closed else b.2.sbState }) }
    let s := if lost then s.raise Fd.FLT_ERR_JRNL_LOST else s
    (s.onSec fun c => { c with xts := tset c.xts 16 (Config.systemKey s.flt.anchor) }).fltReady

/-! ## Users (R222-R224) -/

/-- A user of an area may act: the control firmware on SYS while the layer runs, the others while it serves. -/
def State.fltUser (s : State) (a : Option Nat) : Bool := if a = some 0 then s.fltUp else s.fltServes

/-- A range of units trimmed by records of up to 65,536 units each (R231). -/
def State.trimRange (s : State) (l n : Nat) : State :=
  (List.range (ceilDiv n 65536)).foldl (fun s i => s.fltTrim (l + 65536 * i) (min 65536 (n - 65536 * i))) s

/-- UNIT_ALLOCATE (R223 step 1). -/
def execUnitAllocate (area : Fin 4) (n : Nat) (s : State) : Host.Outcome State Fault Refusal :=
  actIf s (s.fltUser (some area.val)) fun s =>
    match State.fltAllocN n area.val s with
    | some (ls, t) => t.onFlt fun f => { f with result := stOK, given := ls }
    | none => s.onFlt fun f => { f with result := stQUOTA, given := [] }

/-- UNIT_WRITE (R223 step 2, R225): reported done at its commit. -/
def execUnitWrite (lunit slots : Nat) (key : Fin 17) (data : List Byte) (s : State) : Host.Outcome State Fault Refusal :=
  actIf s (s.fltUser (s.areaOf lunit)) fun s =>
    match s.fltWrite lunit slots key.val data .user with
    | (0, t) => t
    | (st, t) => t.onFlt fun f => { f with result := st }

/-- UNIT_TRIM (R223 step 3, R231). -/
def execUnitTrim (lunit : Nat) (n : Nat) (s : State) : Host.Outcome State Fault Refusal :=
  actIf s (s.fltUser (s.areaOf lunit) && decide (lunit + n ≤ s.fd Fd.FLT_LOGICAL_UNITS)) fun s => s.trimRange lunit n

/-- SLOTS_UPDATE (R223 step 3): it only lowers the count of a written unit. -/
def execSlotsUpdate (lunit : Nat) (n : Nat) (s : State) : Host.Outcome State Fault Refusal :=
  actIf s (s.fltUser (s.areaOf lunit)) fun s =>
    match s.lunit lunit with
    | some ⟨.at_ _, occ⟩ => if n < occ then s.fltSlots lunit n else s
    | _ => s

/-! ## Reading (R224, R229) -/

/-- FLT_CMD ends. -/
def State.fltCmdEnd (s : State) (st : Nat) : State := (s.setFd Fd.FLT_CMD_RESULT st).setFd Fd.FLT_CMD_BUSY 0

/-- The end of FLT_CMD READ: the content goes to the buffer. -/
def State.fltCmdRead (s : State) (st : Nat) (c : List Byte) : State :=
  (if st = stOK then s.hbmWrite s.flt.cmdAddr c else s).fltCmdEnd st

/-- UNIT_READ: the answer comes for every reader of the unit; where nobody had asked, a user reads it now. -/
def execUnitRead (lunit : Nat) (k : Fin 6) (x : NandShown) (s : State) : Host.Outcome State Fault Refusal :=
  actIf s (!s.flt.stopped && (s.awake || s.glb.finishingReads.contains lunit)) fun s =>
    let asked := s.flt.reads.any (fun r => r.lunit == lunit && r.answer.isNone)
    if !asked && !s.fltServes then s else
    let (st, c, s) := match s.readAt lunit with
      | .inl (st, c) => (st, c, s)
      | .inr (p, u) => s.ladder lunit p u k.val x
    if !asked then s.onFlt fun f => { f with result := st, readBack := c } else
    let cmd := s.flt.reads.any (fun r => r.lunit == lunit && r.cmd)
    let s := s.onFlt fun f => { f with reads := (f.reads.filter (fun r => !(r.lunit == lunit && r.cmd))).map fun r =>
      if r.lunit = lunit ∧ r.answer.isNone then { r with answer := some (st, c) } else r }
    if cmd then s.fltCmdRead st c else s

/-! ## FLT_CMD (Table 11-13) -/

/-- A store to FLT_CMD. -/
def State.fltCmd (s : State) (v : Nat) : State :=
  let op := bits v 2 0
  let res := fun st => s.setFd Fd.FLT_CMD_RESULT st
  if op = 0 then s else
  if s.flag Fd.FLT_CMD_BUSY then res stBUSY else
  if 5 ≤ op then res stFORMAT else
  if !s.fltUp then res stBOUNDS else
  let l := s.fd Fd.FLT_CMD_LUNIT_LUNIT
  let s := s.onFlt fun f => { f with cmdAddr := s.fd Fd.FLT_CMD_ADDR_ADDR }
  match op with
  | 1 =>
    if s.fd Fd.FLT_LOGICAL_UNITS ≤ l then res stBOUNDS else
    match s.readAt l with
    | .inl (st, c) => s.fltCmdRead st c
    | .inr _ => (s.onFlt fun f => { f with reads := f.reads ++ [⟨l, true, none⟩] }).setFd Fd.FLT_CMD_BUSY 1
  | 2 =>
    if s.areaOf l ≠ some 0 ∨ s.fd Fd.FLT_LOGICAL_UNITS ≤ l ∨ (s.lunit l).isSome then res stBOUNDS else
    match (s.onFlt fun f => { f with map := tset f.map l ⟨.allocated, 0⟩ }).fltWrite l 32 16 (s.hbmRead s.flt.cmdAddr 65536) .firmware with
    | (0, t) => t.setFd Fd.FLT_CMD_BUSY 1
    | (st, _) => res st
  | 3 => if s.areaOf l ≠ some 0 then res stBOUNDS else (s.fltTrim l 1).fltCmdEnd stOK
  | _ =>
    let a := l % 4
    if a = 0 ∨ s.fd Fd.FLT_STATUS_STATE ≠ 3 then res stBOUNDS
    else (s.trimRange (s.area a).1 (s.area a).2).fltCmdEnd stOK

/-- FLT_CMD_READ. -/
def execFltCmdRead (v : Word) (s : State) : Host.Outcome State Fault Refusal :=
  actIf s (bits v.toNat 2 0 == 1) fun s => s.fltCmd v.toNat

/-- FLT_CMD_WRITE. -/
def execFltCmdWrite (v : Word) (s : State) : Host.Outcome State Fault Refusal :=
  actIf s (bits v.toNat 2 0 == 2) fun s => s.fltCmd v.toNat

/-- FLT_CMD_TRIM. -/
def execFltCmdTrim (v : Word) (s : State) : Host.Outcome State Fault Refusal :=
  actIf s (bits v.toNat 2 0 == 3) fun s => s.fltCmd v.toNat

/-- FLT_CMD_TRIM_AREA. -/
def execFltCmdTrimArea (v : Word) (s : State) : Host.Outcome State Fault Refusal :=
  actIf s (bits v.toNat 2 0 == 4) fun s => s.fltCmd v.toNat

/-! ## Programming and commit (R226, R231, R232) -/

/-- The user of a unit is told that its write has committed (R226). -/
def State.writeReported (s : State) (w : FltWrite) : State :=
  match w.use with
  | .firmware => s.fltCmdEnd stOK
  | .user => s.onFlt fun f => { f with result := stOK }
  | .demote pages => s.demoteCommitted w.lunit pages
  | .mirror pages => s.mirrorCommitted w.lunit w.content pages
  | .image k => s.coldCommitted k
  | .move => s

/-- WRITE_COMMIT (R226): a write of the unit, or a move of it, that is programmed and whose record has committed. -/
def execWriteCommit (lunit : Nat) (s : State) : Host.Outcome State Fault Refusal :=
  actIf s (!s.flt.stopped) fun s =>
    match s.flt.writes.find? (fun w => w.lunit == lunit && s.canCommit w) with
    | none => s
    | some w => (((w.pua.map (fun p => s.lunOp (puaLun p) 6 true)).getD s).commitUnit w).writeReported w

/-- NATIVE_PAD_TIMER (R226): a native block left open is padded to the end of the next wordline. -/
def execNativePadTimer (strm : Fin 5) (s : State) : Host.Outcome State Fault Refusal :=
  actIf s (s.fltUp && s.awake && decide ((tfind s.flt.strmAt strm.val).getD 0 + max 1 (s.fd Fd.FLT_JRNL_COMMIT_US) * 10000 ≤ s.mtime)) fun s =>
    match s.openSb strm.val with
    | none => s
    | some b =>
      let x := s.sb b
      let row := x.width * s.cellBits
      if x.slc || x.filled == 0 || row == 0 || !s.flt.writes.any (fun w => w.strm == strm.val && w.pua.isSome && !s.programmed w) then s else
      let last := s.sbPages x * x.width
      let upto := min last (((x.filled - 1) / row + 2) * row)
      let added := upto - x.filled + (upto / x.width - x.filled / x.width)
      (s.setSb b { x with filled := upto, sbState := if upto = last then .closed else .open_ }).count Fd.FLT_NAND_UNITS_COUNT added

/-- JOURNAL_FLUSH (R231): the open journal unit is full, or COMMIT_US has passed since its first record. -/
def execJournalFlush (s : State) : Host.Outcome State Fault Refusal :=
  actIf s (s.fltUp && s.awake && (decide (2047 ≤ s.flt.jopen.length) ||
    decide (s.flt.jopenAt + max 1 (s.fd Fd.FLT_JRNL_COMMIT_US) * 100 ≤ s.mtime))) State.jflush

/-- A segment of the map as every record so far leaves it. -/
def State.segmentCopy (s : State) (g : Nat) : Tbl LUnit :=
  let m := s.flt.writes.foldl (fun m w =>
    match w.pua, w.old with
    | some p, none => (JEffect.map w.lunit p w.slots).apply m
    | some p, some o => (JEffect.move w.lunit o p).apply m
    | none, _ => m) s.flt.map
  m.filter (fun p => p.1 / 1048576 == g && p.2.entry != .allocated)

/-- CHECKPOINT_SAVE (R232): the next segment is written as 80 SLC units, and a CKPT record names the copy. Where the
copy lies the spec does not say: its address is a free value. -/
def execCheckpointSave (s : State) : Host.Outcome State Fault Refusal :=
  actIf s (s.fltUp && s.awake && s.flt.ckpts.isEmpty) fun s =>
    let g := s.flt.segment % s.segments
    let s := s.onFlt fun f => { f with ckpts := f.ckpts ++ [(g, f.jseq, s.segmentCopy g)], segment := (g + 1) % s.segments }
    ((s.count Fd.FLT_NAND_UNITS_COUNT 80).journal (.ckpt g (Config.pick s.free % 2 ^ 32))).drawn

/-! ## Collection (R234, R235, R237, R240) -/

/-- The least of a list of superblocks by a measure. -/
def leastSb (f : Nat × SuperBlock → Nat) : List (Nat × SuperBlock) → Option (Nat × SuperBlock)
  | [] => none
  | b :: l => match leastSb f l with
    | none => some b
    | some c => some (if f b ≤ f c then b else c)

/-- A unit's superblock may be collected now: first in line, the oldest BUFFER superblock, the one of fewest valid units while
few are free, or one whose erase count lags. -/
def State.victim (s : State) (sb : Nat) : Bool :=
  let held := s.flt.sbs.filter (fun p => p.2.sbState == .closed && s.sbValid p.1 != 0)
  let x := s.sb sb
  let npe := max 1 (s.fd Fd.FLT_ENDUR_NATIVE_PE)
  let spe := max 1 (s.fd Fd.FLT_ENDUR_SLC_PE)
  let total := s.wearOf (s.flt.erases.map Prod.snd)
  let fold := leastSb (fun p => p.2.openedAt) (held.filter (fun p => p.2.slc && p.2.strm == 1))
  let coll := (leastSb (fun p => s.sbValid p.1 * 2 ^ 20 / max 1 (s.sbPages p.2 * p.2.width) * 2 ^ 40 + p.2.openedAt) held)
  x.sbState == .closed && (x.first || (fold.map Prod.fst) == some sb ||
    (!held.any (fun p => p.2.first) && decide (s.freeSbs < s.fd Fd.FLT_GC_LOW_SB) && (coll.map Prod.fst) == some sb) ||
    decide (s.wearOf (s.sbErases sb x) * s.sbTotal * 10 + npe * spe * 16 * s.sbTotal < total * 10))

/-- GC_MOVE (R234): the unit is read and programmed into the NATIVE or the GC stream, with a MOVE record. -/
def execGcMove (lunit : Nat) (r : Fin 6 × NandShown) (s : State) : Host.Outcome State Fault Refusal :=
  actIf s (s.fltUp && s.awake) fun s =>
    match s.readAt lunit with
    | .inl _ => s
    | .inr (p, u) =>
      if !s.victim u.sb || s.flt.writes.any (fun w => w.old == some p) then s else
      let x := s.sb u.sb
      match s.ladder lunit p u r.1.val r.2 with
      | (0, c, s) =>
        let w : FltWrite := ⟨lunit, 0, u.key, u.keyVal, c, .move, if x.slc && x.strm == 1 then 2 else 4, none, u.wseq, some p⟩
        (s.onFlt fun f => { f with writes := f.writes ++ [w] }).placeWaiting
      | (_, _, s) => s

/-- A record of the open journal unit takes a unit of a superblock out of the map (R235). -/
def State.sbFresh (s : State) (sb : Nat) : Bool :=
  s.flt.jopen.any fun r =>
    let hit := fun (lo n : Nat) => s.flt.phys.any (fun p => p.2.sb == sb && lo ≤ p.2.lunit && p.2.lunit < lo + n)
    match r.2 with
    | .trim l n => hit l n
    | .slots l _ => hit l 1
    | .move l _ _ => hit l 1
    | _ => false

/-- A superblock may be opened: free since a journal commit, and no read of its units is outstanding (R235). -/
def State.sbOpenable (s : State) (sb : Nat) : Bool :=
  !s.sbBusy sb && !s.sbFresh sb && decide (2 ≤ ((s.sb sb).members.filter (fun c => !s.flt.lunFail.contains (c * 32 + sbLun sb))).length) &&
  !s.flt.reads.any (fun r => r.answer.isNone && (match s.lunit r.lunit with
    | some ⟨.at_ p, _⟩ => (tfind s.flt.phys p).any (fun u => u.sb == sb) | _ => false))

/-- The superblock opened next: the least erased (R240), one never opened before the others. -/
def State.nextSb (s : State) : Option Nat :=
  let new := s.ceLuns.filterMap fun l =>
    let lo := l * 8192 + State.sbFirst l
    ((lo :: ((s.flt.sbs.filter (fun p => sbLun p.1 == l)).map (fun p => p.1 + 1))).find? (fun b =>
      decide (lo ≤ b) && decide (b < l * 8192 + s.sbPerLun l) && (tfind s.flt.sbs b).isNone && s.sbOpenable b))
  match pickOf s new with
  | some b => some b
  | none => (leastSb (fun p => s.eraseCount p.1 p.2) (s.flt.sbs.filter (fun p => s.sbOpenable p.1))).map Prod.fst

/-- SUPERBLOCK_OPEN (R235): a stream that has a unit to program and no open superblock takes a free one, which is erased. -/
def execSuperblockOpen (strm : Fin 5) (s : State) : Host.Outcome State Fault Refusal :=
  actIf s (s.fltUp && s.awake && s.flt.writes.any (fun w => w.strm == strm.val && w.pua.isNone) && (s.openSb strm.val).isNone &&
      !s.flt.sbs.any (fun p => p.2.sbState == .erasing && p.2.strm == strm.val)) fun s =>
    match s.nextSb with
    | none => s.raise Fd.FLT_ERR_NO_SPACE
    | some b =>
      let dead := (List.range 16).filter (fun c => s.flt.lunFail.contains (c * 32 + sbLun b))
      let x := s.sb b
      let s := (s.setSb b { x with
        sbState := .erasing, slc := decide (strm.val ≤ 1), strm := strm.val, filled := 0
        gone := x.gone ++ dead.filter (fun c => !x.gone.contains c) }).drawn
      let s := s.onFlt fun f => { f with phys := f.phys.filter (fun p => p.2.sb != b) }
      if s.freeSbs = 0 then s.raise Fd.FLT_ERR_NO_SPACE else s

/-- ERASE_COMPLETE (R235): failed members are retired, and the superblock is open. -/
def execEraseComplete (sb : Nat) (failed : List (Fin 16)) (s : State) : Host.Outcome State Fault Refusal :=
  actIf s (!s.flt.stopped && (s.sb sb).sbState == .erasing) fun s =>
    let bad := failed.map Fin.val
    let s := (s.sb sb).members.foldl (fun s c =>
      if bad.contains c then (((s.inc (Fd.FLT_ERRCNT_COUNT 7)).flashEvent 7 (s.blockAt (s.sb sb) sb c) 0xFFFFFFFF).retireMember sb c).lunOp (c * 32 + sbLun sb) 7 false
      else s.lunOp (c * 32 + sbLun sb) 7 true) s
    let x := s.sb sb
    let x := { x with
      sbState := if x.members.length < 2 then .closed else .open_
      openedAt := s.flt.opens, first := false, filled := 0 }
    let s := (s.setSb sb x).onFlt fun f => { f with opens := f.opens + 1, strmAt := tset f.strmAt x.strm s.mtime }
    let s := s.onFlt fun f => { f with erases := x.members.foldl (fun t c =>
      let b := s.blockAt x sb c / 2 ^ 10
      let e := (tfind t b).getD (0, 0)
      tset t b (if x.slc then (e.1, e.2 + 1) else (e.1 + 1, e.2))) f.erases }
    (s.inc Fd.FLT_ERASES_COUNT).newB.placeWaiting.checkWorn

/-- A record is taken out of the journal: the unit it names was never programmed. -/
def State.voidRecord (s : State) (js : Nat) (w : FltWrite) : State :=
  let out := fun (l : List (Nat × JEffect)) => l.map fun r => if r.1 = js then (r.1, JEffect.none) else r
  let drop := fun (m : Tbl LUnit) => m.filterMap fun p =>
    if p.1 = w.lunit ∧ w.pua.map (fun a => UnitEntry.at_ a) = some p.2.entry then
      (w.old.map fun o => (p.1, { p.2 with entry := UnitEntry.at_ o })) else some p
  s.onFlt fun f => { f with
    jopen := out f.jopen, jtail := f.jtail.map out, ckpt := drop f.ckpt
    ckpts := f.ckpts.map fun c => (c.1, c.2.1, drop c.2.2) }

/-- PROGRAM_FAIL (R237): the block of the unit is retired, its superblock collected first, the unit redirected. -/
def execProgramFail (w : Nat × Silence) (s : State) : Host.Outcome State Fault Refusal :=
  let lunit := w.1
  let silent := w.2
  actIf s (!s.flt.stopped) fun s =>
    match s.flt.writes.find? (fun w => w.lunit == lunit && w.pua.isSome && !s.canCommit w) with
    | none => s
    | some w =>
      let p := w.pua.getD 0
      match tfind s.flt.phys p with
      | none => s
      | some u =>
        let s := ((s.inc (Fd.FLT_ERRCNT_COUNT 6)).flashEvent 6 p lunit).voidRecord w.jseq w
        let s := s.onFlt fun f => { f with
          phys := tdel f.phys p
          writes := modFirst (fun y => y == w) (fun w => { w with pua := none, jseq := u.wseq }) f.writes }
        let s := s.setSb u.sb { s.sb u.sb with sbState := .closed }
        let s := (s.retireMember u.sb (p / 2 ^ 28)).lunOp (puaLun p) 6 false
        (s.fallSilent (puaLun p) 6 silent).placeWaiting.checkWorn

/-- Writes that have not committed are garbage to a replay (R233): what has been programmed and journaled stays. -/
def State.voidUncommitted (s : State) : State :=
  let s := s.flt.writes.foldl (fun s w => if w.pua.isSome && !s.canCommit w then s.voidRecord w.jseq w else s) s
  s.onFlt fun f => { f with writes := [], reads := [], ckpts := [] }

/-- FLT_TEMP_SAMPLE (R241): the hottest reading of the LUNs, in degrees. -/
def execFltTempSample (t : Int) (s : State) : Host.Outcome State Fault Refusal :=
  actIf s (decide (1 ≤ s.fd Fd.FLT_STATUS_STATE) && decide (s.flt.tempAt + 100000000 ≤ s.mtime)) fun s =>
    let b := min 63 (t.toNat / 2)
    let s := (s.inc (Fd.FLT_TEMP_HIST_SECONDS b)).setFd Fd.FLT_HEALTH_TEMP (t % 256).toNat
    s.onFlt fun f => { f with tempAt := s.mtime }

end Sys2Proof.Machine
end

