-- ==== Sys2Proof/Machine/Custody.lean ====
section
/-! DEFINITION. Transfers of custody (R352-R358, R362): the home's record, the source's copy, the target's import. -/

namespace Sys2Proof.Machine

/-! ## Mailbox 1 (R405-R407) -/

/-- Room in the receive buffer for an entry's payload among those the firmware still holds: its offset. -/
def State.rxRoom (s : State) (n : Nat) : Option Nat :=
  let used := s.trl.holds.foldl (fun (t : Tbl Nat) h => tset t h.off h.len) []
  roomAt used 0 (s.fd Fd.TRL_RXBUF_MIB * 2 ^ 20) n 64 0

/-- A payload put in the receive buffer with an entry of mailbox m that names it; none where the mailbox or the buffer is full. -/
def State.mbDeliver (s : State) (m ty c : Nat) (p body : List Byte) : Option State :=
  if !s.mbRoom m then none else
  (s.rxRoom (max 1 p.length)).map fun off =>
    let a := s.fd Fd.TRL_RXBUF_ADDR + off
    let i := s.fd (Fd.EVC_MB_IDX_PI m)
    ((s.hbmWrite a p).mbPut m ty p.length a body).onTrl fun t => { t with holds := t.holds ++ [⟨m, i, c, off, max 1 p.length⟩] }

/-- A MESSAGE_IN entry (Table 18-5). -/
def State.messageIn (s : State) (c q op key imm : Nat) (p : List Byte) : Option State :=
  s.mbDeliver 1 0x02 c p (le 2 c ++ le 1 op ++ le 1 (s.partOf c) ++ le 4 q ++ le 4 key ++ le 4 imm ++ zeros 24)

/-- A message that cannot be handed to the firmware (Table 18-3). -/
def State.mbRefused (s : State) (c q : Nat) : State := (s.inc Fd.EVC_MB_DROPS_COUNT).respond c q 6 stBUSY []

/-! ## Records (R351, R354, R355) -/

/-- Fields of a CUSTODY payload (Table 16-4). -/
def cKind (p : List Byte) : Nat := lat p 0 1
def cEpoch (p : List Byte) : Nat := lat p 4 4
def cHandle (p : List Byte) : Nat := lat p 8 8
def cSource (p : List Byte) : Nat := lat p 16 4 % 2 ^ 20
def cTarget (p : List Byte) : Nat := lat p 20 4 % 2 ^ 20
def cMapEpoch (p : List Byte) : Nat := lat p 24 4

/-- The key of the custody record of a handle this node answers for. -/
def State.recKey (s : State) (h : Nat) : Option Nat :=
  if hHome h = s.node then some (hIndex h)
  else if hHome h = s.node ^^^ 1 ∧ s.twn.live then some (twinKey (hIndex h)) else none

/-- A moment of the 1 µs timer has come, by its low 32 bits. -/
def State.due32 (s : State) (t : Nat) : Bool := serialDist 32 t (s.usec % 2 ^ 32) < 2 ^ 31

/-- A CUSTODY message to a node; none is sent where no conduit leads there or the node is this one. -/
def State.custTo (s : State) (node part kind epoch handle source target mapEpoch : Nat) (body : List Byte) : List CustodySend :=
  if s.isSelf node then [] else
  match s.conduitTo node part with
  | some c => [⟨c, 0x24, custPayload kind 0 epoch handle source target mapEpoch body⟩]
  | none => []

/-- The outcome of a transfer told to both sides. -/
def State.tellBoth (s : State) (r : CustodyRec) (kind target : Nat) : List CustodySend :=
  s.custTo r.source (hPart r.handle) kind r.epoch r.handle r.source target r.mapEpoch [] ++
    s.custTo target (hPart r.handle) kind r.epoch r.handle r.source target r.mapEpoch []

/-- A record returns to its source at the next epoch (R354 step 5, R355). -/
def State.revertRecord (s : State) (k : Nat) (r : CustodyRec) : State :=
  let r' := { r with cstate := .held, holder := r.source, epoch := (r.epoch + 1) % 2 ^ 32 }
  s.custChange (.record k r') (s.tellBoth r' 5 r.target)

/-- PREPARE at the home (R354 step 1): a status; where it is OK the record goes to TRANSFER and the ACK follows. -/
def State.prepare (s : State) (c q : Nat) (p : List Byte) : State :=
  let ms := lat p 2 2
  match s.recKey (cHandle p) with
  | none => s.respond c q 6 stNOTCUST []
  | some k =>
    match tfind s.cust.records k with
    | none => s.respond c q 6 stNOTCUST []
    | some r =>
      if ms = 0 ∨ 60000 < ms then s.respond c q 6 stFORMAT []
      else if r.handle ≠ cHandle p then s.respond c q 6 stNOTCUST []
      else if r.cstate = .transfer ∨ s.cust.syncs.any (fun y => match y.change with | .record i _ => i == k | _ => false) then s.respond c q 6 stBUSY []
      else if r.cstate ≠ .held ∨ r.holder ≠ cSource p ∨ r.epoch ≠ cEpoch p then s.respond c q 6 stNOTCUST []
      else
        let r' := { r with
          cstate := .transfer, target := cTarget p, epoch := (r.epoch + 1) % 2 ^ 32
          deadline := (s.usec + ms * 1000) % 2 ^ 32, source := cSource p }
        s.custChange (.record k r') [⟨c, 0x30, respHeader q stOK⟩]

/-- ACCEPT or CANCEL at the home (R354 step 5). -/
def State.settleRecord (s : State) (accept : Bool) (h epoch mapEpoch : Nat) : Option State :=
  (s.recKey h).bind fun k => (tfind s.cust.records k).bind fun r =>
    if r.handle ≠ h ∨ r.cstate ≠ .transfer ∨ r.epoch ≠ epoch ∨ s.due32 r.deadline ∨
        s.cust.syncs.any (fun y => match y.change with | .record i _ => i == k | _ => false) then none
    else if accept then
      let r' := { r with cstate := .held, holder := r.target, movedAt := s.usec % 2 ^ 32, mapEpoch := mapEpoch }
      some (s.custChange (.record k r') (s.tellBoth r' 4 r.target))
    else some (s.revertRecord k r)

/-- A CUSTODY message of a transfer to its home, or its effect where this node is the home. -/
def State.toHome (s : State) (t : Transfer) (kind : Nat) : State :=
  if s.isSelf t.home then
    match kind with
    | 3 => (s.settleRecord true t.handle t.epoch t.mapEpoch).getD s
    | 6 => (s.settleRecord false t.handle t.epoch t.mapEpoch).getD s
    | _ => s
  else
    match s.conduitTo t.home (hPart t.handle) with
    | some c => s.send c 0x24 6 (custPayload kind 0 t.epoch t.handle t.source t.target t.mapEpoch []) (.custody kind t.handle)
    | none => s

def State.transferOf (s : State) (h : Nat) : Option Transfer := s.cust.transfers.find? (fun t => t.handle == h)
def State.dropTransfer (s : State) (h : Nat) : State :=
  s.onCust fun u => { u with transfers := u.transfers.filter (fun t => t.handle != h) }

/-! ## The source (R354 steps 2, 3, 6) -/

/-- Borrowed extents that hold nothing yet, of one lender, for a partition: the lender, and their indices. -/
def State.emptyExtents (s : State) (part : Nat) : Option (Nat × List Nat) :=
  let free := s.tier.borrowed.filter fun e =>
    let inside := fun (l : Loc) => l.tier == .lent && l.node == e.2.node && e.2.base ≤ l.frame * 2048 && l.frame * 2048 < e.2.base + 2 ^ 30
    e.2.estate == .active && e.2.part == part && !s.pgt.descs.any (fun d => inside d.2.loc) &&
      !s.tier.leaps.any (fun l => l.ext == some e.1 || inside l.src) && !s.pgt.reclaim.any (fun r => (r.loc.map inside).getD false)
  (free.head?).map fun e => (e.2.node, ((free.filter (fun x => x.2.node == e.2.node)).map (fun x => x.1 % 512)))

/-- The frame units a copy of a sequence takes. -/
def copyUnits (q : Seq) : Nat := (q.pt.length + 1) * frameUnits (frameCode q.def0) + 64 + q.pt.length

/-- S starts: its sequence is quiesced and extents are set aside (R354 steps 2 and 3). -/
def State.startTransfer (s : State) (h epoch target home mapEpoch : Nat) : State :=
  match s.keyOf h with
  | none => s
  | some k =>
    if (s.transferOf h).isSome then s else
    match s.seq k with
    | none => s
    | some q =>
      let t : Transfer := ⟨h, k, epoch, s.node, target, home, mapEpoch, .copying, 0, [], [], [], [], 0, 0, 0, q.def0, q.def1, s.usec⟩
      let n := ceilDiv (copyUnits q) 524288
      let s := s.custChange (.quiesce k true) []
      match s.emptyExtents (hPart h) with
      | some (l, es) =>
        if es.length < n then (s.onCust fun u => { u with transfers := u.transfers ++ [t] }).toHome t 6 else
        let mine := es.take n
        let s := s.onTier fun b => { b with borrowed := mine.foldl (fun m e => tmod m (borrowKey l e) fun x => { x with estate := .returning }) b.borrowed }
        (s.onCust fun u => { u with transfers := u.transfers ++ [{ t with lender := l, exts := mine }] }).startThaw k
      | none => (s.onCust fun u => { u with transfers := u.transfers ++ [t] }).toHome t 6

/-- The image of a sequence whose pages lie at a lender: its record, layer lengths, descriptors of the copies, tadpoles. -/
def State.custImage (s : State) (q : Seq) (t : Transfer) : List Byte :=
  let ps := q.pt.filterMap fun (e : Nat × Nat) => match tfind t.done e.1, s.desc e.2 with
    | some f, some x => some (e.1, { x with
        loc := ⟨.lent, t.lender, f⟩, refcnt := 1, mirror := .none, digestValid := false, pinned := false, digest := 0, state := .sealed })
    | _, _ => none
  let ts := q.pt.filterMap fun (e : Nat × Nat) => match s.desc e.2 with
    | some x => if x.state == .tadpole then some (e.1, x.valid, s.pageContent x) else none
    | none => none
  q.record (s.rootLoc t.seq) ++ q.layerLen.flatMap (le 4) ++ le 4 ps.length ++ ps.flatMap (fun (p : Nat × Desc) => le 8 p.1 ++ p.2.bytes) ++
    le 4 ts.length ++ ts.flatMap (fun (p : Nat × Nat × List Byte) => le 8 p.1 ++ le 4 p.2.1 ++ p.2.2)

/-- The key of an image piece. -/
def pieceKey (i : Nat) : Nat := 2 ^ 40 + i

/-- One round of the copy: what can be pushed is pushed, what lies in FLASH or LENT is faulted; then the image. -/
def State.copyRound (s : State) (t : Transfer) (q : Seq) : State :=
  let sealed_ := q.pt.filter fun (e : Nat × Nat) => ((s.desc e.2).map (fun x => x.state != .tadpole)).getD false
  let left := sealed_.filter fun e => (tfind t.done e.1).isNone
  if !left.isEmpty then
    left.foldl (fun s e =>
      match s.transferOf t.handle, s.desc e.2 with
      | some t, some x =>
        if t.out.contains e.1 ∨ x.state = .poisoned then s
        else if x.loc.tier = .flash ∨ x.loc.tier = .lent then s.addFault e.2 x.loc (.custody t.handle)
        else s.custodyPush t e.1 x.frameCode (s.pageContent x)
      | _, _ => s) s
  else if !t.out.isEmpty then s
  else
    let im := s.custImage q t
    let n := ceilDiv im.length 65536
    if (tfind t.done (pieceKey 0)).isNone then
      (List.range n).foldl (fun s i => match s.transferOf t.handle with
        | some t => s.custodyPush t (pieceKey i) 5 (slice im (65536 * i) (min 65536 (im.length - 65536 * i)))
        | none => s) (s.modTransfer t.handle fun t => { t with bytes := im.length, crc := crc64From 0 im })
    else
      let f := (tfind t.done (pieceKey 0)).getD 0
      let straight := (List.range (ceilDiv t.bytes 65536)).all fun i => tfind t.done (pieceKey i) == some (f + 32 * i)
      if !straight then s.toHome t 6 else
      match s.conduitTo t.lender (hPart t.handle) with
      | none => s
      | some c =>
        let s := s.modTransfer t.handle fun t => { t with phase := .reassigning, out := t.exts, frame := f }
        t.exts.foldl (fun s e => s.send c 0x1A 5 (lendPayload 5 (hPart t.handle) e t.target 0 0 false []) (.reassign (borrowKey t.lender e))) s

/-- The lender has answered a store. -/
def State.pushed (s : State) (h key st frame : Nat) : State :=
  match s.transferOf h with
  | none => s
  | some t =>
    if st ≠ stOK then s.toHome t 6 else
    s.modTransfer h fun t => { t with out := t.out.filter (· != key), done := tset t.done key frame }

/-- The HANDOVER payload (Table 16-4). -/
def Transfer.handover (t : Transfer) : List Byte :=
  custPayload 2 0 t.epoch t.handle t.source t.target t.mapEpoch
    (le 8 t.def0 ++ le 8 t.def1 ++ le 4 t.lender ++ le 2 t.exts.length ++ zeros 2 ++ le 8 t.frame ++ le 4 t.bytes ++ zeros 4 ++
      le 8 t.crc ++ t.exts.flatMap (le 2))

/-- A REASSIGN has been answered; with the last one HANDOVER goes to T. -/
def State.reassigned (s : State) (b st : Nat) : State :=
  match s.cust.transfers.find? (fun t => t.phase == .reassigning && (t.exts.map (borrowKey t.lender)).contains b && t.out.contains (b % 512)) with
  | none => s
  | some t =>
    if st ≠ stOK then s.toHome t 6 else
    let s := s.onTier fun x => { x with borrowed := tdel x.borrowed b }
    let left := t.out.filter (· != b % 512)
    let s := s.modTransfer t.handle fun t => { t with out := left }
    if !left.isEmpty then s else
    match s.conduitTo t.target (hPart t.handle) with
    | none => s.toHome t 6
    | some c => (s.modTransfer t.handle fun t => { t with phase := .handed, askedAt := s.usec }).send c 0x24 6 t.handover (.custody 2 t.handle)

/-- S after a COMMIT: held requests are forwarded, and the sequence leaves as FREE does, its index kept where S is the home. -/
def State.sourceDone (s : State) (t : Transfer) : State :=
  let s := s.dropTransfer t.handle
  let s := if s.isSelf t.home then s else
    (s.onCust fun u => { u with moved := u.moved.filter (fun m => m.1 != t.handle) ++ [(t.handle, t.target, s.usec)] }).custChange (.outbound t.handle) []
  let s := s.custChange (.quiesce t.seq false) []
  let s := if s.role == .paired then s.sendMirror 5 t.handle 0 0 0 (2 ^ 63) [] .plain else s
  (s.resume.freeSeq t.seq).resume

/-- Extents S has set aside and not reassigned go back. -/
def State.dropExtents (s : State) (t : Transfer) : State :=
  (s.onTier fun b => { b with borrowed := t.exts.foldl (fun m e => tmod m (borrowKey t.lender e) fun x =>
    { x with estate := .recalling }) b.borrowed }).returnExtents

/-- S after a REVERT: it admits its held requests. -/
def State.sourceKeeps (s : State) (t : Transfer) : State :=
  let s := (s.dropTransfer t.handle).dropExtents t
  let s := s.modSeq t.seq fun q => { q with custodyEpoch := (t.epoch + 1) % 2 ^ 32 }
  (s.custChange (.quiesce t.seq false) []).resume

/-! ## The target (R354 steps 4, 6) -/

/-- The tag of a pull for an import. -/
def pullTag (seq key : Nat) : Nat := 2 ^ 63 + seq * 2 ^ 36 + key % 2 ^ 35 + (if 2 ^ 40 ≤ key then 2 ^ 35 else 0)

/-- A page or a piece asked of the lender. -/
def State.custodyPull (s : State) (t : Transfer) (key code len frame : Nat) : State :=
  match s.conduitTo t.lender (hPart t.handle) with
  | none => s
  | some c =>
    let ext := ((s.borrowedAt ⟨.lent, t.lender, frame⟩).map (fun e => e.1 % 512)).getD 0
    (s.modTransfer t.handle fun t => { t with out := t.out ++ [key] }).send c 0x18 5
      (leapHeader (pullTag t.seq key) ext (hPart t.handle) code len 0 frame false) (.custodyPull t.handle key)

/-- HANDOVER received: T declines what it cannot import (R354 step 4). -/
def State.handedOver (s : State) (c q : Nat) (p : List Byte) : State :=
  let b := p.drop 32
  let h := cHandle p
  let n := lat b 20 2
  if b.length ≠ 48 + 2 * n ∨ n = 0 then s.respond c q 6 stFORMAT []
  else if !s.isSelf (cTarget p) ∨ (s.transferOf h).isSome ∨ (tfind s.cust.inbound h).isSome then s.respond c q 6 stNOTCUST []
  else
    match s.seqRoom (hPart h) with
    | (0, i) =>
      let t : Transfer := ⟨h, i, cEpoch p, cSource p, cTarget p, hHome h, cMapEpoch p, .pulling, lat b 16 4 % 2 ^ 20,
        (List.range n).map (fun j => lat b (48 + 2 * j) 2 % 512), [], [], [], lat b 24 8, lat b 32 4, lat b 40 8, lat b 0 8, lat b 8 8, s.usec⟩
      let q0 := { newSeq h 0 t.def0 t.def1 0 s.usec true with custodyEpoch := t.epoch, broken := true }
      match s.takeSeqChunks (q0.chunks i) with
      | none => s.respond c q 6 stBUSY []
      | some s =>
        let s := (s.onPgt fun g => { g with seqs := tset g.seqs i q0 }).drawn
        ((s.onCust fun u => { u with transfers := u.transfers ++ [t] }).respond c q 6 stOK [])
    | (st, _) => s.respond c q 6 st []

/-- The pieces of the image are asked for once every extent has been inherited. -/
def State.pullImage (s : State) (t : Transfer) : State :=
  let have_ := t.exts.all fun e => match tfind s.tier.borrowed (borrowKey t.lender e) with
    | some x => x.part == hPart t.handle
    | none => false
  if !have_ || !t.out.isEmpty || !t.pieces.isEmpty then s else
  (List.range (ceilDiv t.bytes 65536)).foldl (fun s i => match s.transferOf t.handle with
    | some t => s.custodyPull t (pieceKey i) 5 (min 65536 (t.bytes - 65536 * i)) (t.frame + 32 * i)
    | none => s) s

/-- A descriptor read from an image (Table 3-4). -/
def descOf (b : List Byte) (def0 part : Nat) : Desc :=
  let w := lat b 8 2
  ⟨⟨.lent, bits (lat b 0 8) 59 40, lat b 0 8 % 2 ^ 40⟩, bits w 15 12, bits w 11 8, bits w 7 5, bits w 4 0, .sealed, .none, false, false,
   lat b 11 1, BitVec.ofNat 32 (lat b 12 4), 1, part, 0, 0, def0, false, none, false, true, false⟩

/-- The import: record, pages in the lender's extents, tadpoles in new frames, page tables (R354 step 4); none where it does not
fit or a hard quota refuses it (R171). -/
def State.importImage (s : State) (t : Transfer) (im : List Byte) : Option State :=
  let part := hPart t.handle
  let layers := clsLayers t.def1
  let lens := (List.range layers).map fun i => lat im (64 + 4 * i) 4
  let a := 64 + 4 * layers
  let n := lat im a 4
  let b := a + 4 + 44 * n
  let m := lat im b 4
  let size := contentSize t.def0
  let pages := (List.range n).map fun i => (lat im (a + 4 + 44 * i) 8, descOf (slice im (a + 12 + 44 * i) 36) t.def0 part)
  let tads := (List.range m).map fun i => let o := b + 4 + (12 + size) * i; (lat im o 8, lat im (o + 8) 4, slice im (o + 12) size)
  let s := s.modSeq t.seq fun q => { q with
    cls := lat im 8 1, layerLen := lens, closed := bits (lat im 9 1) 2 2 == 1 }
  let s? := if !s.underHard part 2 (n * chargeOf .lent t.def0) then none else pages.foldl (fun (r : Option State) e => r.bind fun s => s.takeDesc.map fun (d, s) =>
    ((s.onPgt fun g => { g with descs := tset g.descs d e.2 }).charge4 part 2 (chargeOf .lent t.def0)).modSeq t.seq fun q =>
      { q with pt := tset q.pt e.1 d }) (some s)
  (tads.foldl (fun (r : Option State) e => r.bind fun s => (s.allocTadpole t.def0 part false (fun _ => true)).map fun (d, s) =>
    ((s.copyNow e.2.2 d 16).modDesc d fun x => { x with valid := e.2.1 }).modSeq t.seq fun q => { q with pt := tset q.pt e.1 d }) s?).bind fun s => s.fitTables t.seq

/-- The mirrors of an import: TABLE, the tadpoles, and the sealed pages, which are pulled for it. -/
def State.mirrorImport (s : State) (t : Transfer) : State :=
  let s := s.modTransfer t.handle fun t => { t with phase := .mirroring, pieces := [] }
  if s.role != .paired then s else
  let s := s.sendTable t.seq (.custodyMirror t.handle)
  match s.seq t.seq with
  | none => s
  | some q => q.pt.foldl (fun s (e : Nat × Nat) => match s.desc e.2, s.transferOf t.handle with
      | some x, some t =>
        if x.loc.tier = .lent then s.custodyPull t e.1 x.frameCode (contentSize x.def0) x.loc.frame
        else s.sendPage t.seq e.1 (.custodyMirror t.handle)
      | _, _ => s) s

/-- T discards its import, its twin's copy with it, and returns the extents. -/
def State.discardImport (s : State) (t : Transfer) : State :=
  let s := if s.role == .paired ∧ t.phase ≠ .pulling then s.sendMirror 5 t.handle 0 0 0 (2 ^ 63) [] .plain else s
  let s := (s.dropTransfer t.handle).freeSeq t.seq
  let s := if (tfind s.cust.inbound t.handle).isSome then s.custChange (.outbound t.handle) [] else s
  (s.dropExtents t).resume

/-- The whole image is here: it is checked and imported. A T that cannot import discards it and lets the transfer revert. -/
def State.imported (s : State) (t : Transfer) : State :=
  let im := (t.pieces.flatMap Prod.snd).take t.bytes
  if im.length ≠ t.bytes ∨ crc64From 0 im ≠ t.crc then s.discardImport t else
  match s.importImage t im with
  | none => s.hardBlock.discardImport t
  | some s => (s.custChange (.inbound t.handle t.seq) []).mirrorImport t

/-- The lender's answer to a pull of an import. -/
def State.custodyPulled (s : State) (tag st : Nat) (content : List Byte) : State :=
  let seq := bits tag 62 36
  match s.cust.transfers.find? (fun t => t.seq == seq && (t.phase == .pulling || t.phase == .mirroring)) with
  | none => s
  | some t =>
    let key := if bits tag 35 35 = 1 then 2 ^ 40 + tag % 2 ^ 35 else tag % 2 ^ 35
    if !t.out.contains key then s
    else if st ≠ stOK then s.discardImport t
    else
      let s := s.modTransfer t.handle fun t => { t with out := t.out.filter (· != key) }
      if t.phase == .pulling then
        let s := s.modTransfer t.handle fun t => { t with pieces := tset t.pieces key content }
        match s.transferOf t.handle with
        | some t => if t.out.isEmpty then s.imported t else s
        | none => s
      else
        match (s.seq t.seq).bind (fun q => (tfind q.pt key).map (fun d => (q.handle, d))) with
        | some (h, d) =>
          let v := ((s.desc d).map (·.valid)).getD 0
          s.sendMirror 6 h (keyLayer key) (keyGroup key) (keyPos key) (pageTag (if v = 0 then 16 else v)) content (.custodyMirror t.handle)
        | none => s

/-- T after a COMMIT: it begins admitting. -/
def State.targetDone (s : State) (t : Transfer) : State :=
  ((s.dropTransfer t.handle).modSeq t.seq fun q => { q with hidden := false }).resume

/-! ## The outcome and the turn of a transfer (R354 step 6, R355, R356) -/

/-- A side this node is: source, or target. -/
def Transfer.asSource (t : Transfer) : Bool := t.phase == .copying || t.phase == .reassigning || t.phase == .handed

def State.outcome (s : State) (t : Transfer) (commit : Bool) : State :=
  if commit then (if t.asSource then s.sourceDone t else s.targetDone t)
  else (if t.asSource then s.sourceKeeps t else s.discardImport t)

/-- What a record says of a transfer: settled, and which way. -/
def Transfer.told (t : Transfer) (r : CustodyRec) : Option Bool :=
  if r.handle ≠ t.handle ∨ r.cstate ≠ .held then none
  else if r.epoch = t.epoch ∧ r.holder = t.target then some true
  else if serialLt 32 t.epoch r.epoch then some (r.holder == t.target && t.phase == .accepted)
  else none

def State.tellTransfer (s : State) (h : Nat) (r : CustodyRec) : State :=
  match s.transferOf h with
  | none => s
  | some t => match t.told r with
    | some b => s.outcome t b
    | none => s

/-- A message of purpose p is queued or unanswered. -/
def State.msgOut (s : State) (p : Purpose) : Bool :=
  s.trl.conduits.any (fun c => c.2.queue.any (fun m => m.purpose == p)) || s.trl.awaiting.any (fun a => a.purpose == p)

/-- One transfer goes as far as it can. -/
def State.transferStep (s : State) (h : Nat) : State :=
  match s.transferOf h with
  | none => s
  | some t =>
    let own := if s.isSelf t.home then ((s.recKey h).bind (tfind s.cust.records ·)).bind t.told else none
    match own with
    | some b => s.outcome t b
    | none =>
      match t.phase, s.seq t.seq with
      | .copying, some q =>
        if !s.cust.quiesced.contains t.seq || s.pgt.ops.any (fun o => o.seq == t.seq) || q.sstate == .cold || t.exts.isEmpty then s
        else s.copyRound t q
      | .pulling, _ => s.pullImage t
      | .mirroring, _ =>
        if t.out.isEmpty && !s.msgOut (.custodyMirror h) && (tfind s.cust.inbound h).isSome then
          let s := s.modTransfer h fun t => { t with phase := .accepted, askedAt := s.usec }
          s.toHome t 3
        else s
      | _, _ => s

/-- Every transfer goes as far as it can. -/
def State.transfersGo (s : State) : State := (s.cust.transfers.map (·.handle)).foldl State.transferStep s

/-! ## Meanings -/

/-- A CUSTODY message of one kind (R353): an entry of mailbox 1 hands it over, and it is answered BUSY where that is full.
A kind other than INFO is taken only from the nodes that may send it, or their twins; any other conduit is a client's. -/
def recvCustody (c : Conduit) (q : W32) (p : List Byte) (kind : Nat) (from_ : State → List Nat) (f : State → State) (s : State) :
    Host.Outcome State Fault Refusal :=
  actIf s (cKind p == kind) fun s =>
    let s := s.takeHanded c.val q.toNat 0x24
    if p.length < 32 then s.respond c.val q.toNat 6 stFORMAT [] else
    match s.messageIn c.val q.toNat 0x24 0 0 p with
    | none => s.mbRefused c.val q.toNat
    | some s =>
      let n := s.peerOf c.val
      if (from_ s).any (fun x => x == n || x == n ^^^ 1) then (f s).transfersGo else s.respond c.val q.toNat 6 stBOUNDS []

/-- CUSTODY_PREPARE (R354 step 1). Where this node is the source as well it starts at once. -/
def execCustodyPrepare (c : Conduit) (q : W32) (p : List Byte) (s : State) : Host.Outcome State Fault Refusal :=
  recvCustody c q p 1 (fun _ => [cSource p]) (fun s =>
    let before := (s.recKey (cHandle p)).bind (tfind s.cust.records ·)
    let n := s.cust.nextSync
    let t := s.prepare c.val q.toNat p
    let taken := t.cust.nextSync != n || ((t.recKey (cHandle p)).bind (tfind t.cust.records ·)) != before
    if taken ∧ s.isSelf (cSource p) then
      t.startTransfer (cHandle p) ((cEpoch p + 1) % 2 ^ 32) (cTarget p) (hHome (cHandle p)) (cMapEpoch p)
    else t) s

/-- CUSTODY_HANDOVER (R354 step 4). -/
def execCustodyHandover (c : Conduit) (q : W32) (p : List Byte) (s : State) : Host.Outcome State Fault Refusal :=
  recvCustody c q p 2 (fun _ => [cSource p]) (fun s => s.handedOver c.val q.toNat p) s

/-- CUSTODY_ACCEPT (R354 step 5). -/
def execCustodyAccept (c : Conduit) (q : W32) (p : List Byte) (s : State) : Host.Outcome State Fault Refusal :=
  recvCustody c q p 3 (fun _ => [cTarget p]) (fun s =>
    (s.settleRecord true (cHandle p) (cEpoch p) (cMapEpoch p)).getD (s.respond c.val q.toNat 6 stNOTCUST [])) s

/-- CUSTODY_CANCEL (R354 step 5). -/
def execCustodyCancel (c : Conduit) (q : W32) (p : List Byte) (s : State) : Host.Outcome State Fault Refusal :=
  recvCustody c q p 6 (fun _ => [cSource p]) (fun s =>
    (s.settleRecord false (cHandle p) (cEpoch p) (cMapEpoch p)).getD (s.respond c.val q.toNat 6 stNOTCUST [])) s

/-- CUSTODY_COMMIT (R354 step 6). -/
def execCustodyCommit (c : Conduit) (q : W32) (p : List Byte) (s : State) : Host.Outcome State Fault Refusal :=
  recvCustody c q p 4 (fun _ => [hHome (cHandle p)]) (fun s =>
    match s.transferOf (cHandle p) with
    | some t => if t.epoch = cEpoch p then s.outcome t true else s
    | none => s) s

/-- CUSTODY_REVERT (R354 step 6). -/
def execCustodyRevert (c : Conduit) (q : W32) (p : List Byte) (s : State) : Host.Outcome State Fault Refusal :=
  recvCustody c q p 5 (fun _ => [hHome (cHandle p)]) (fun s =>
    match s.transferOf (cHandle p) with
    | some t => if serialLt 32 t.epoch (cEpoch p) then s.outcome t false else s
    | none => s) s

/-- CUSTODY_ASK (R355): the home answers with the record. -/
def execCustodyAsk (c : Conduit) (q : W32) (p : List Byte) (s : State) : Host.Outcome State Fault Refusal :=
  recvCustody c q p 7 (fun _ => [cSource p, cTarget p]) (fun s =>
    match (s.recKey (cHandle p)).bind (tfind s.cust.records ·) with
    | some r => if r.handle = cHandle p then s.respond c.val q.toNat 6 stOK r.bytes else s.respond c.val q.toNat 6 stNOTCUST []
    | none => s.respond c.val q.toNat 6 stNOTCUST []) s

/-- CUSTODY_SYNC (R352): the twin's copy of a change; from a home, the record that settles a transfer (R356). -/
def execCustodySync (c : Conduit) (q : W32) (p : List Byte) (s : State) : Host.Outcome State Fault Refusal :=
  recvCustody c q p 8 (fun s => [s.node ^^^ 1, hHome (cHandle p)]) (fun s =>
    let r := custRecOf (p.drop 32)
    if p.length ≠ 64 then s.respond c.val q.toNat 6 stFORMAT []
    else if c.val = s.twinConduit then (s.recvSync r).respond c.val q.toNat 6 stOK []
    else (s.tellTransfer r.handle r).respond c.val q.toNat 6 stOK []) s

/-- CUSTODY_RELEASE (R358): the home removes the record after a SYNC. -/
def execCustodyRelease (c : Conduit) (q : W32) (p : List Byte) (s : State) : Host.Outcome State Fault Refusal :=
  recvCustody c q p 9 (fun _ => [cSource p]) (fun s =>
    match s.recKey (cHandle p) with
    | none => s.respond c.val q.toNat 6 stNOTCUST []
    | some k =>
      match tfind s.cust.records k with
      | some r =>
        if r.handle = cHandle p ∧ r.cstate ≠ .transfer ∧ (r.holder = cSource p ∨ r.holder = cSource p ^^^ 1) then
          s.custChange (.drop k) [⟨c.val, 0x30, respHeader q.toNat stOK⟩]
        else s.respond c.val q.toNat 6 stNOTCUST []
      | none => s.respond c.val q.toNat 6 stALREADY []) s

/-- CUSTODY_INFO (R348, R353, R464): taken from clients as well, in the order of its sequence. -/
def execCustodyInfo (c : Conduit) (q : W32) (p : List Byte) (s : State) : Host.Outcome State Fault Refusal :=
  actIf s (cKind p == 10) fun s =>
    let s := s.takeHanded c.val q.toNat 0x24
    match s.messageIn c.val q.toNat 0x24 0 0 p with
    | none => s.mbRefused c.val q.toNat
    | some s => (s.recvNamed c.val q.toNat 0x24 p none).settle

/-- CUSTODY_DEADLINE (R355). -/
def execCustodyDeadline (idx : Nat) (s : State) : Host.Outcome State Fault Refusal :=
  act s fun s =>
    match tfind s.cust.records idx with
    | some r =>
      if r.cstate = .transfer ∧ s.due32 r.deadline ∧
          !s.cust.syncs.any (fun y => match y.change with | .record i _ => i == idx | _ => false) then (s.revertRecord idx r).transfersGo
      else s
    | none => s

/-- CUSTODY_ASK_TIMER (R355): a side that has waited 1 ms asks the home; one still at work goes on. -/
def execCustodyAskTimer (idx : Nat) (s : State) : Host.Outcome State Fault Refusal :=
  act s fun s =>
    match s.cust.transfers.find? (fun t => t.seq == idx) with
    | none => s
    | some t =>
      if (t.phase = .handed ∨ t.phase = .accepted) ∧ t.askedAt + 1000 ≤ s.usec then
        ((s.modTransfer t.handle fun t => { t with askedAt := s.usec }).toHome t 7).transfersGo
      else s.transfersGo

/-- ORPHAN_FREE (R362): an unconfirmed child that no request has named in 2 s is freed, and its record released. -/
def execOrphanFree (idx : Nat) (s : State) : Host.Outcome State Fault Refusal :=
  act s fun s =>
    match s.twn.orphans.find? (fun o => o.1 == idx) with
    | some (_, due) =>
      if due ≤ s.usec then
        ((s.onTwn fun t => { t with orphans := t.orphans.filter (fun o => o.1 != idx) }).freeDone idx).settle
      else s
    | none => s

/-! ## Messages with a part in transfers -/

/-- LEAP_PUSH (R185): a store, or with ANSWER the content of a page pulled. -/
def execLeapPush (c : Conduit) (q : W32) (p : List Byte) (s : State) : Host.Outcome State Fault Refusal :=
  act s fun s =>
    let s := s.takeHanded c.val q.toNat 0x19
    if lat p 11 1 / 8 % 2 = 1 then
      let content := p.drop 32
      let st := if p.length = 32 + lat p 12 4 ∧ crc32c content = lat p 16 4 then stOK else stPOISONED
      if 2 ^ 63 ≤ lat p 0 8 then ((s.custodyPulled (lat p 0 8) st content).transfersGo).settle
      else (s.pulled (lat p 0 8) st content).settle
    else (s.leapStore c.val q.toNat p).settle

/-- FAULT_LAND (R180). -/
def execFaultLand (desc : Nat) (ok : Bool) (s : State) : Host.Outcome State Fault Refusal :=
  act s fun s => (s.landFault desc ok).transfersGo.settle

end Sys2Proof.Machine
end

