-- ==== Sys2Proof/Machine/Sched.lean ====
section
/-! DEFINITION. Scheduling, shaping, policing and the transmission of segments (chapter 14, R245, R246, R254, R257, R268). -/

namespace Sys2Proof.Machine

/-! ## Configuration as of the last refill (R304) -/

/-- A field of the SCH as the buckets and weights use it. -/
def State.cfg (s : State) (f : Fd) : Nat :=
  bits (tget (resetWord (f.addr / 2 ^ 32) (f.addr % 2 ^ 32)) s.sch.applied f.addr).toNat f.hi f.lo

/-- Bursts in 1/256 bytes; 0 is 256 bytes (R303). -/
def burstOf (units : Nat) : Int := (max 1 units) * 65536

/-- Rate of a port node in Mb/s (R309). -/
def State.nodeMbps (s : State) (n : Nat) : Nat :=
  let pm := s.cfg (Fd.SCH_PORT_RATE_PM n)
  let sum := if s.fd Fd.TRL_CTL_PORT_MODE = 1 then (if n % 2 = 0 then 1600 else 0) else 800
  sum * 1000 * (if pm = 0 then 1000 else pm) / 1000

/-- (rate in Mb/s, burst) of the committed and the peak bucket of a node; no rate: no limit (R303, R309). -/
def State.nodeCfg (s : State) (id : Nat) : (Option Nat × Int) × (Option Nat × Int) :=
  let lim := fun r => if r = 0xFFFFFF then none else some r
  if id < 4096 then
    ((lim (s.cfg (Fd.SCH_SUB_C_RATE_MBPS.at id)), burstOf (s.cfg (Fd.SCH_SUB_C_BURST.at id))),
     (lim (s.cfg (Fd.SCH_SUB_P_RATE_MBPS.at id)), burstOf (s.cfg (Fd.SCH_SUB_P_BURST.at id))))
  else if id < 4224 then
    let n := (id - 4096) / 8
    let v := (id - 4096) % 8
    ((some (s.cfg (Fd.SCH_SVC_CIR_PM v) * s.nodeMbps n / 1000), burstOf (s.cfg (Fd.SCH_SVC_CBS v))),
     (if s.twn.announcing && v == 6 then none else some (s.cfg (Fd.SCH_SVC_PIR_PM v) * s.nodeMbps n / 1000),
      burstOf (s.cfg (Fd.SCH_SVC_PBS v))))
  else
    let r := s.nodeMbps (id - 4224)
    ((some r, burstOf 256), (some r, burstOf 256))

/-- The same for meter m (R311). -/
def State.meterCfg (s : State) (m : Nat) : (Option Nat × Int) × (Option Nat × Int) :=
  let lim := fun r => if r = 0xFFFFFF then none else some r
  ((lim (s.cfg (Fd.SCH_MTR_C_RATE_MBPS.at m)), burstOf (s.cfg (Fd.SCH_MTR_C_BURST.at m))),
   (lim (s.cfg (Fd.SCH_MTR_P_RATE_MBPS.at m)), burstOf (s.cfg (Fd.SCH_MTR_P_BURST.at m))))

/-- Buckets of a node: at their bursts unless listed. -/
def State.buckets (s : State) (id : Nat) : Int × Int :=
  (tfind s.sch.nodes id).getD ((s.nodeCfg id).1.2, (s.nodeCfg id).2.2)

def State.meterBuckets (s : State) (m : Nat) : Int × Int :=
  (tfind s.sch.meters m).getD ((s.meterCfg m).1.2, (s.meterCfg m).2.2)

/-- What one refill of 128 ns leaves of a bucket: rate * 128 ns / 8 bytes, kept to 1/256 of a byte (R303). -/
def refill (cfg : Option Nat × Int) (v : Int) : Int :=
  match cfg.1 with
  | none => cfg.2
  | some r => min (v + ((r * 4096 / 1000 : Nat) : Int)) cfg.2

/-- Colours: 0 green, 1 yellow, 2 red (R303). -/
def colourOf (b : Int × Int) : Nat := if b.2 < 0 then 2 else if b.1 < 0 then 1 else 0

/-- The peak limit of the CONTROL service is lifted while ANNOUNCEs leave (R329). -/
def State.nodeColour (s : State) (id : Nat) : Nat :=
  let lifted := s.twn.announcing && 4096 ≤ id && id < 4224 && (id - 4096) % 8 == 6
  if s.flag Fd.SCH_CTL_SHAPE_EN then colourOf (if lifted then ((s.buckets id).1, 0) else s.buckets id) else 0

/-- The last ANNOUNCE has left its queue: the limit holds again. -/
def State.announceLeft (s : State) : State :=
  if s.twn.announcing && !s.trl.conduits.any (fun c => c.2.queue.any (fun m => m.purpose == .announce)) then
    { s with twn := { s.twn with announcing := false } }
  else s

/-- A node charged for a segment of len bytes sent while it had this colour (R303). -/
def State.charge (s : State) (id len : Nat) : State :=
  if s.flag Fd.SCH_CTL_SHAPE_EN then
    let b := s.buckets id
    let l : Int := (len * 256 : Nat)
    let b' := if colourOf b = 0 then (b.1 - l, b.2 - l) else (b.1, b.2 - l)
    s.onSch fun h => { h with nodes := tset h.nodes id b' }
  else s

/-- SCH registers among the registers. -/
def schKeys (t : Tbl Word) : Tbl Word := t.filter (fun p => 0x47000000 ≤ p.1 % 2 ^ 32 && p.1 % 2 ^ 32 < 0x47800000)

/-- Nodes and meters whose configuration has been written: they are listed before the new bursts apply. -/
def State.listWritten (s : State) : State :=
  let ks := (schKeys s.csr).map Prod.fst
  let subs := (ks.filter (fun k => k % 2 ^ 32 == Reg.SCH_SUB_C || k % 2 ^ 32 == Reg.SCH_SUB_P)).map (· / 2 ^ 32)
  let mtrs := (ks.filter (fun k => k % 2 ^ 32 == Reg.SCH_MTR_C || k % 2 ^ 32 == Reg.SCH_MTR_P)).map (· / 2 ^ 32)
  let svcs := if ks.any (fun k => k < 2 ^ 32 && Reg.SCH_SVC 0 ≤ k && k < Reg.SCH_PORT 16)
    then (List.range 128).map (· + 4096) else []
  s.onSch fun h => { h with
    nodes := (subs ++ svcs).foldl (fun t id => if (tfind t id).isSome then t else tset t id (s.buckets id)) h.nodes
    meters := mtrs.foldl (fun t m => if (tfind t m).isSome then t else tset t m (s.meterBuckets m)) h.meters }

/-- Buckets at their bursts are not listed. -/
def dropFull (cfg : Nat → (Option Nat × Int) × (Option Nat × Int)) (t : Tbl (Int × Int)) : Tbl (Int × Int) :=
  t.filter (fun p => p.2 != ((cfg p.1).1.2, (cfg p.1).2.2))

/-- The rate shaper of a conduit after a refill (R300): at most two segments. -/
def refillConduit (cd : ConduitState) : ConduitState :=
  { cd with bucket := refill (some cd.rateMbps, ((2 * cd.segSize * 256 : Nat) : Int)) cd.bucket }

/-- BUCKET_REFILL (R303, R304). -/
def State.refillAll (s : State) : State :=
  let s := s.listWritten
  let s := s.onSch fun h => { h with applied := schKeys s.csr }
  let step := fun (cfg : Nat → (Option Nat × Int) × (Option Nat × Int)) (t : Tbl (Int × Int)) =>
    dropFull cfg (t.map (fun p => (p.1, refill (cfg p.1).1 p.2.1, refill (cfg p.1).2 p.2.2)))
  let old := s.sch.nodes
  let s := s.onSch fun h => { h with nodes := step s.nodeCfg h.nodes, meters := step s.meterCfg h.meters }
  let s := s.onTrl fun t => { t with conduits := t.conduits.map (fun p => (p.1, refillConduit p.2)) }
  (old.filter (fun p => p.1 < 4096)).foldl
    (fun s p => s.setFd (Fd.SCH_SUB_CFG_COLOUR.at p.1) (colourOf (s.buckets p.1))) s

/-! ## Heads of the conduit queues (R300) -/

/-- What stands at the head of a conduit queue. -/
inductive HeadKind where
  /-- Segment `index` of the message sent as `msgseq`, again. -/
  | again (msgseq index : Nat)
  /-- The next segment of the queued message at this place of the queue. -/
  | fresh (place : Nat)
  /-- A frame of the control cores. -/
  | frame
  deriving DecidableEq, Repr

structure Head where
  conduit : Nat
  svc : Nat
  sub : Nat
  port : Nat
  /-- Charged length (R302). -/
  len : Nat
  kind : HeadKind
  eligible : Bool
  deriving DecidableEq, Repr

/-- The frame bytes of a segment with n bytes of payload, FCS included (R246). -/
def State.frameLen (s : State) (cd : ConduitState) (p n : Nat) : Nat :=
  14 + (if s.flag (Fd.TRL_PORT_CTL_VLAN_EN p) then 4 else 0) + (if cd.ipv6 then 40 else 20) + 8 + 32 + n +
    (if cd.enc then 16 else 0) + 4

/-- OVERHEAD as a signed number (R302). -/
def State.overhead (s : State) (n : Nat) : Int :=
  let v := s.cfg (Fd.SCH_PORT_OVERHEAD n)
  if v < 64 then v else (v : Int) - 128

/-- The length charged (R302). -/
def State.charged (s : State) (p frame : Nat) : Nat := (max 64 ((frame : Int) + s.overhead (s.portNode p))).toNat

/-- Subscriber node of a conduit (R299). -/
def ConduitState.subNode (cd : ConduitState) : Nat := cd.part * 256 + cd.subscriber % 256

/-- Payload bytes of segment i of a message. -/
def segBytes (cd : ConduitState) (payload : List Byte) (i : Nat) : List Byte :=
  (payload.drop (i * cd.segSize)).take cd.segSize

/-- Bytes sent and not acknowledged on a conduit (R254). -/
def ConduitState.unacked (cd : ConduitState) : Nat :=
  cd.sent.foldl (fun n m => n + (m.segs.filter (fun g => !g.acked)).foldl
    (fun k g => k + (segBytes cd m.msg.payload g.index).length) 0) 0

/-- A port that may send now. -/
def State.portSends (s : State) (p : Nat) : Bool :=
  s.flag (Fd.TRL_PORT_STATUS_UP p) && s.flag (Fd.TRL_PORT_NH_VALID p)

/-- The segment at the head of a conduit's queue for a service: unsequenced packets, retransmissions, then messages. -/
def ConduitState.headOf (cd : ConduitState) (svc : Nat) : Option (HeadKind × Egress × List Byte × Bool) :=
  let ix := (List.range cd.queue.length).zip cd.queue
  match ix.find? (fun x => x.2.svc == svc && x.2.unseq) with
  | some (i, m) => some (.fresh i, (m.egress[0]?).getD .waiting, m.payload, true)
  | none =>
    let again := cd.sent.findSome? (fun m =>
      if m.msg.svc == svc then
        (m.segs.find? (fun g => g.requeue.isSome && !g.acked)).map (fun g =>
          (HeadKind.again m.msgseq g.index, g.requeue.getD .waiting, segBytes cd m.msg.payload g.index, false))
      else none)
    match again with
    | some h => some h
    | none =>
      (ix.find? (fun x => x.2.svc == svc && !x.2.hold)).map (fun x =>
        (.fresh x.1, (x.2.egress[x.2.sent]?).getD .waiting, segBytes cd x.2.payload x.2.sent, false))

/-- Whether the head keeps the conduit within the window of R254. -/
def State.inWindow (s : State) (cd : ConduitState) (k : HeadKind) (n : Nat) : Bool :=
  match k with
  | .fresh i =>
    let first := ((cd.queue[i]?).map (fun m => m.seq.isNone)).getD true
    (!first || cd.sent.length < 65536) && cd.unacked + n ≤ s.fd Fd.TRL_CTL_WINDOW_MIB * 2 ^ 20
  | _ => true

/-- The heads of all queues on ports of the port node n. -/
def State.heads (s : State) (n : Nat) : List Head :=
  let ofConduit := fun (p : Nat × ConduitState) => (List.range 8).filterMap fun svc =>
    match p.2.headOf svc with
    | some (k, .port e, pl, unseq) =>
      if s.portNode e == n && !p.2.loopback then
        some (Head.mk p.1 svc p.2.subNode e (s.charged e (s.frameLen p.2 e pl.length)) k
          ((p.2.cstate == 1 || p.2.cstate == 2) && s.portSends e &&
           (unseq || (decide (0 < p.2.bucket) && s.inWindow p.2 k pl.length))))
      else none
    | _ => none
  let core := (s.trl.frames.find? (fun f => s.portNode f.1 == n)).map (fun f =>
    Head.mk 65536 7 0 f.1 (s.charged f.1 (f.2.2.length + 4)) .frame (s.portSends f.1))
  s.trl.conduits.flatMap ofConduit ++ core.toList

/-! ## Virtual time (R306, R307) -/

def vkey (parent child : Nat) : Nat := parent * 2 ^ 17 + child

def parentPort (n : Nat) : Nat := n
def parentSvc (n svc : Nat) : Nat := 16 + n * 8 + svc
def parentPair (n svc sub : Nat) : Nat := 144 + (n * 8 + svc) * 4096 + sub

def vmax (a b : Nat) : Nat := if serialLt 40 a b then b else a

def vadv (start len w : Nat) : Nat := (start + len * 256 / max 1 w) % 2 ^ 40

/-- A child gains a head segment of length len while not backlogged. -/
def State.vgain (s : State) (parent child len w : Nat) : State :=
  let c := (tfind s.sch.child (vkey parent child)).getD ⟨0, 0, false, 0⟩
  if c.backlogged then s else
  let st := vmax ((tfind s.sch.vtime parent).getD 0) c.finish
  s.onSch fun h => { h with child := tset h.child (vkey parent child) { c with start := st, finish := vadv st len w, backlogged := true } }

/-- A child has been selected; `next` is the length of its next head segment, if any. -/
def State.vselect (s : State) (parent child w : Nat) (next : Option Nat) : State :=
  let c := (tfind s.sch.child (vkey parent child)).getD ⟨0, 0, false, 0⟩
  let v := vmax ((tfind s.sch.vtime parent).getD 0) c.start
  let c' := match next with
    | some len => { c with start := c.finish, finish := vadv c.finish len w }
    | none => { c with backlogged := false }
  s.onSch fun h => { h with vtime := tset h.vtime parent v, child := tset h.child (vkey parent child) c' }

/-- The child of smallest finish time, the lowest index on a tie. -/
def State.vbest (s : State) (parent : Nat) (l : List Nat) : Option Nat :=
  let fin := fun c => ((tfind s.sch.child (vkey parent c)).getD ⟨0, 0, false, 0⟩).finish
  l.foldl (fun b c => match b with
    | none => some c
    | some x => if serialLt 40 (fin c) (fin x) || (fin c == fin x && c < x) then some c else some x) none

/-- One visit of R307: the visited child sends if its credit covers its head; otherwise the next child is visited. -/
def creditVisit (s : State) (parent : Nat) (cand : List (Nat × Nat)) (weight : Nat → Nat) (idleMax : Nat → Int) :
    Nat → Nat → State × Option Nat
  | 0, _ => (s, (cand.head?).map Prod.fst)
  | fuel + 1, at_ =>
    let kids := ((s.sch.child.filter (fun (p : Nat × VChild) => p.1 / 2 ^ 17 == parent)).map (fun (p : Nat × VChild) => p.1 % 2 ^ 17) ++ cand.map Prod.fst).eraseDups
    let cred := fun c => ((tfind s.sch.child (vkey parent c)).getD ⟨0, 0, false, 0⟩).credit
    let put := fun (s : State) (c : Nat) (x : Int) => s.onSch fun h => { h with
      child := tset h.child (vkey parent c) { ((tfind h.child (vkey parent c)).getD ⟨0, 0, false, 0⟩) with credit := x } }
    match cand.find? (fun x => x.1 == at_ && decide ((x.2 : Int) ≤ cred at_)) with
    | some (c, len) => ((put s c (cred c - len)).onSch fun h => { h with cycle := tset h.cycle parent c }, some c)
    | none =>
      let above := kids.filter (at_ < ·)
      let nxt := (above.foldl min ((above.head?).getD (kids.foldl min ((kids.head?).getD 0))))
      let w : Int := (max 1 (weight nxt)) * 256
      let s := if (cand.any (fun x => x.1 == nxt)) then put s nxt (cred nxt + w) else put s nxt (min (cred nxt + w) (idleMax nxt))
      creditVisit s parent cand weight idleMax fuel nxt

/-- The child a node picks among eligible children given as (child, colour, head length) (R305-R307). -/
def State.pickChild (s : State) (parent : Nat) (fallback : Bool) (weight : Nat → Nat) (idleMax : Nat → Int)
    (l : List (Nat × Nat × Nat)) : State × Option Nat :=
  let cls := if l.any (fun x => x.2.1 == 0) then 0 else 1
  let cand := l.filter (fun x => x.2.1 == cls)
  if fallback then creditVisit s parent (cand.map (fun x => (x.1, x.2.2))) weight idleMax 4096 ((tfind s.sch.cycle parent).getD 0)
  else (s, s.vbest parent (cand.map Prod.fst))

/-! ## Sending one segment -/

/-- The IP header of a packet with `n` bytes behind it (R246). -/
def State.ipHeader (s : State) (cd : ConduitState) (svc n : Nat) : List Byte :=
  let dscp := bits (s.fd Fd.TRL_DSCP_DSCP) (6 * svc + 5) (6 * svc)
  let ttl := s.fd Fd.TRL_UDP_TTL
  if cd.ipv6 then
    be 4 (0x60000000 + (dscp * 4 + 2) * 2 ^ 20) ++ be 2 n ++ be 1 17 ++ be 1 ttl ++
      be 8 (s.fd Fd.TRL_IP6_HI_ADDR) ++ be 8 (s.fd Fd.TRL_IP6_LO_ADDR) ++ cd.peerIp
  else
    let h := fun c => be 1 0x45 ++ be 1 (dscp * 4 + 2) ++ be 2 (n + 20) ++ be 2 0 ++ be 2 0x4000 ++ be 1 ttl ++ be 1 17 ++
      be 2 c ++ be 4 (s.fd Fd.TRL_IP4_ADDR) ++ cd.peerIp.drop 12
    h (inetSum (h 0))

/-- The pseudo-header that a UDP checksum covers. -/
def pseudo (v6 : Bool) (src dst : List Byte) (n : Nat) : List Byte :=
  if v6 then src ++ dst ++ be 4 n ++ be 4 17 else src ++ dst ++ be 2 17 ++ be 2 n

/-- The Trill header (Table 12-2). -/
def trillHeader (op flags part dnode conduit cgen msgseq segoff msglen key imm : Nat) : List Byte :=
  be 1 0x10 ++ be 1 op ++ be 2 flags ++ be 4 (part * 2 ^ 28 + dnode % 2 ^ 20) ++ be 2 conduit ++ be 2 cgen ++ be 4 msgseq ++
    be 4 segoff ++ be 4 msglen ++ be 4 key ++ be 4 imm

/-- The frame of a segment (R246, R249, R268), FCS included. -/
def State.frameOf (s : State) (cd : ConduitState) (p hash : Nat) (m : OutMsg) (msgseq segoff flags : Nat) (pl : List Byte) :
    List Byte :=
  let hdr := trillHeader m.op (flags + (if cd.enc then 0x4000 else 0)) cd.part cd.peerNode cd.peerConduit cd.txCgen msgseq
    segoff m.payload.length m.key m.imm
  let body := if cd.enc then
      gcmSeal ((tfind s.sec.keys cd.keySlot).getD (zeros 32)) (be 4 cd.txSalt ++ be 4 msgseq ++ be 4 segoff) hdr pl
    else pl
  let udpLen := 8 + 32 + body.length
  let src := if cd.ipv6 then be 8 (s.fd Fd.TRL_IP6_HI_ADDR) ++ be 8 (s.fd Fd.TRL_IP6_LO_ADDR) else be 4 (s.fd Fd.TRL_IP4_ADDR)
  let dst := if cd.ipv6 then cd.peerIp else cd.peerIp.drop 12
  let udp := fun c => be 2 (0xC000 + hash % 16384) ++ be 2 cd.peerPort ++ be 2 udpLen ++ be 2 c
  let sum := inetSum (pseudo cd.ipv6 src dst udpLen ++ udp 0 ++ hdr ++ body)
  let mac := s.fd (Fd.TRL_PORT_CTL_MAC_HI p) * 2 ^ 32 + s.fd (Fd.TRL_PORT_CTL_MAC_LO p)
  let pcp := if m.svc < 5 then bits (s.fd Fd.TRL_DSCP_PCP) (3 * m.svc + 2) (3 * m.svc) else 0
  let vlan := if s.flag (Fd.TRL_PORT_CTL_VLAN_EN p) then be 2 0x8100 ++ be 2 (pcp * 2 ^ 13 + s.fd (Fd.TRL_PORT_CTL_VID p)) else []
  let f := be 6 (s.fd (Fd.TRL_PORT_NH_MAC p)) ++ be 6 mac ++ vlan ++ be 2 (if cd.ipv6 then 0x86DD else 0x0800) ++
    s.ipHeader cd m.svc udpLen ++ udp (if sum = 0 then 65535 else sum) ++ hdr ++ body
  f ++ le 4 (fcs f)

/-- An encrypted conduit's counter has advanced to n (R269). -/
def State.rekey (s : State) (c n : Nat) : State :=
  match s.conduit c with
  | none => s
  | some cd =>
    if !cd.enc then s else
    let s := if n ≥ 0xFFFF0000 then s.raise Fd.TRL_ERR_REKEY else s
    if n ≥ 0xFFFFFFFF then s.modConduit c fun cd => { cd with cstate := if cd.cstate = 1 then 2 else cd.cstate, drainAt := s.nsec } else s

/-- The retransmit timer starts if it does not run (R264). -/
def ConduitState.startTimer (cd : ConduitState) (now : Nat) : ConduitState :=
  if cd.timerAt.isSome then cd else { cd with timerAt := some now }

/-- The next segment of the message at a place of a conduit's queue is taken: the message takes its MSGSEQ with its first
segment, the segment becomes outstanding, and a message whose segments are all taken leaves the queue. -/
def State.takeSegment (s : State) (c place : Nat) : State :=
  match s.conduit c with
  | none => s
  | some cd =>
    match cd.queue[place]? with
    | none => s
    | some m =>
      let q := m.seq.getD cd.txNext
      let seg : OutSeg := ⟨q, m.sent, 0, 0, s.nsec, false, none, none⟩
      let m' := { m with seq := some q, sent := m.sent + 1 }
      let done := cd.segCount m.payload.length ≤ m'.sent
      let sent := if m.seq.isNone then cd.sent ++ [⟨m', q, [seg]⟩]
        else modFirst (fun x => x.msgseq == q) (fun x => { x with segs := x.segs ++ [seg] }) cd.sent
      let queue := if done then cd.queue.eraseIdx place else cd.queue.set place m'
      let tx := if m.seq.isNone then seqNext cd.txNext else cd.txNext
      let s := s.modConduit c fun cd => ({ cd with queue := queue, sent := sent, txNext := tx }).startTimer s.nsec
      let s := if m.seq.isNone && ((m.purpose != .plain && m.purpose != .announce) || m.op == 0x10 || m.op == 0x11) then
          s.onTrl fun t => { t with awaiting := t.awaiting.filter (fun a => !(a.conduit == c && a.msgseq == q)) ++ [⟨c, q, m.op, m.purpose⟩] }
        else s
      if m.seq.isNone then s.rekey c tx else s

/-- The port node's turn: a segment leaves (R298-R302). -/
def State.sendHead (s : State) (h : Head) : State :=
  let out := fun (s : State) (f : List Byte) => s.onTrl fun t => { t with wireOut := t.wireOut ++ [⟨h.port, f⟩] }
  match h.kind with
  | .frame =>
    match s.trl.frames.find? (fun f => f.1 == h.port) with
    | none => s
    | some f =>
      let s := out s (f.2.2 ++ le 4 (fcs f.2.2))
      let s := s.onTrl fun t => { t with
        frames := eraseFirst (fun x => x.1 == h.port) t.frames,
        postings := t.postings.map (fun p => if p.index == f.2.1 then { p with status := some stOK } else p) }
      s
  | .again q i =>
    match s.conduit h.conduit with
    | none => s
    | some cd =>
      match cd.sent.find? (fun x => x.msgseq == q) with
      | none => s
      | some x =>
        let r := ((x.segs.find? (fun g => g.index == i)).map (·.tries)).getD 0
        let pl := segBytes cd x.msg.payload i
        let off := i * cd.segSize
        let last := if off + pl.length = x.msg.payload.length then 0x8000 else 0
        let s := out s (s.frameOf cd h.port (pathHash cd x.msg.q i r) x.msg q off (x.msg.flags + last + 0x2000) pl)
        let s := ((s.inc Fd.TRL_TX_SEGS_COUNT).inc Fd.TRL_RETX_SEGS_COUNT).use cd.part (6 + h.svc) h.len
        s.modConduit h.conduit fun cd => { cd with
          bucket := cd.bucket - ((h.len * 256 : Nat) : Int)
          sent := modFirst (fun y => y.msgseq == q) (fun y => { y with
            segs := modFirst (fun g => g.index == i) (fun g => { g with requeue := none, sentAt := s.nsec, reorderAt := none }) y.segs }) cd.sent }
  | .fresh place =>
    match s.conduit h.conduit with
    | none => s
    | some cd =>
      match cd.queue[place]? with
      | none => s
      | some m =>
        if m.unseq then
          let s := out s (s.frameOf cd h.port (pathHash cd m.q 0 0) m cd.unseqNext 0x80000000 (m.flags + 0x8100) m.payload)
          let s := (s.inc Fd.TRL_TX_SEGS_COUNT).use cd.part (6 + h.svc) h.len
          let n := (cd.unseqNext + 1) % 2 ^ 32
          let s := s.modConduit h.conduit fun cd => { cd with queue := cd.queue.eraseIdx place, unseqNext := n }
          s.rekey h.conduit n
        else
          let pl := segBytes cd m.payload m.sent
          let off := m.sent * cd.segSize
          let last := if off + pl.length = m.payload.length then 0x8000 else 0
          let q := m.seq.getD cd.txNext
          let s := out s (s.frameOf cd h.port (pathHash cd m.q m.sent 0) m q off (m.flags + last) pl)
          let s := (s.inc Fd.TRL_TX_SEGS_COUNT).use cd.part (6 + h.svc) h.len
          let s := s.takeSegment h.conduit place
          s.modConduit h.conduit fun cd => { cd with bucket := cd.bucket - ((h.len * 256 : Nat) : Int) }

/-- A queued segment whose port went down, at the head of its queue: it counts as sent (R245). -/
def State.skipLost (s : State) : Option State :=
  (s.trl.conduits.findSome? (fun p => (List.range 8).findSome? (fun svc =>
    match p.2.headOf svc with
    | some (.fresh i, .lost, _, false) => some (p.1, i)
    | _ => none))).map (fun x => s.takeSegment x.1 x.2)

/-- All such segments. -/
def State.settleLost (s : State) : State :=
  iter (s.trl.conduits.foldl (fun n p => n + (p.2.queue.foldl (fun k m => k + m.egress.length) 0)) 0) State.skipLost s

/-- Weights and idle limits of children. -/
def State.svcWeight (s : State) (svc : Nat) : Nat := s.cfg (Fd.SCH_SVC_WEIGHT svc)
def State.subWeight (s : State) (sub : Nat) : Nat := s.cfg (Fd.SCH_SUB_CFG_WEIGHT.at sub)
def State.idleMax (s : State) (id : Nat) : Int :=
  let cf := s.nodeCfg id
  (if cf.1.1 = some 0 then cf.2.2 else cf.1.2) / 256

/-- The port a node serves this time: its ports with an eligible head, in turn (R243, R298). -/
def State.turnPort (s : State) (n : Nat) (l : List Head) : Option Nat :=
  let ports := ((l.filter (·.eligible)).map (·.port)).eraseDups
  let last := (tfind s.sch.turn n).getD 64
  let least := fun (l : List Nat) => l.foldl (fun b x => match b with | none => some x | some y => some (min x y)) none
  (least (ports.filter (last < ·))).or (least ports)

/-- TRANSMIT_OPPORTUNITY at port node n (R298, R305-R307). -/
def State.transmit (s : State) (n : Nat) : State :=
  if !s.flag Fd.TRL_CTL_ENABLE then s else
  let all := s.heads n
  -- children that have gained a head since the last opportunity
  let s := all.foldl (fun s h =>
    let s := s.vgain (parentPort n) h.svc h.len (s.svcWeight h.svc)
    let s := s.vgain (parentSvc n h.svc) h.sub h.len (s.subWeight h.sub)
    s.vgain (parentPair n h.svc h.sub) h.conduit h.len 1) s
  if s.nodeColour (4224 + n) = 2 then s else
  match s.turnPort n all with
  | none => s
  | some p =>
    let el := all.filter (fun h => h.eligible && h.port == p && s.nodeColour h.sub != 2 && s.nodeColour (4096 + n * 8 + h.svc) != 2)
    let svcs := (el.map (·.svc)).eraseDups
    let headLen := fun (f : Head → Bool) => ((el.find? f).map (·.len)).getD 0
    let strict := svcs.contains 6 && s.cfg (Fd.SCH_SVC_STRICT 6) == 1
    let fb := s.cfg (Fd.SCH_PORT_FALLBACK n) == 1
    let (s, v) := if strict then (s, some 6) else
      s.pickChild (parentPort n) false (fun v => s.svcWeight v) (fun _ => 0)
        (svcs.map (fun v => (v, s.nodeColour (4096 + n * 8 + v), headLen (fun h => h.svc == v))))
    match v with
    | none => s
    | some svc =>
      let subs := ((el.filter (fun h => h.svc == svc)).map (·.sub)).eraseDups
      let (s, u) := s.pickChild (parentSvc n svc) fb (fun u => s.subWeight u) (fun u => s.idleMax u)
        (subs.map (fun u => (u, s.nodeColour u, headLen (fun h => h.svc == svc && h.sub == u))))
      match u with
      | none => s
      | some sub =>
        let cs := (el.filter (fun h => h.svc == svc && h.sub == sub))
        let (s, c) := s.pickChild (parentPair n svc sub) fb (fun _ => 1) (fun _ => s.idleMax sub)
          (cs.map (fun h => (h.conduit, 0, h.len)))
        match c.bind (fun c => cs.find? (fun h => h.conduit == c)) with
        | none => s
        | some h =>
          let s := ((s.charge h.sub h.len).charge (4096 + n * 8 + svc) h.len).charge (4224 + n) h.len
          let s := ((s.sendHead h).settleLost).announceLeft
          let s := s.onSch fun x => { x with turn := tset x.turn n p }
          let after := s.heads n
          let next := fun (f : Head → Bool) => (after.find? f).map (·.len)
          let s := s.vselect (parentPort n) svc (s.svcWeight svc) (next (fun h => h.svc == svc))
          let s := s.vselect (parentSvc n svc) sub (s.subWeight sub) (next (fun h => h.svc == svc && h.sub == sub))
          s.vselect (parentPair n svc sub) h.conduit 1 (next (fun x => x.svc == svc && x.conduit == h.conduit))

/-! ## Ingress meters (R310-R313) -/

/-- What a meter does with a packet. -/
inductive Verdict where
  | pass | ce | drop
  deriving DecidableEq, Repr

/-- Opcodes metered by the privileged meter. -/
def privileged (op flags : Nat) : Bool :=
  op == 0x20 || op == 0x21 || op == 0x22 || op == 0x23 || op == 0x24 || op == 0x32 || op == 0x3F ||
  (op == 0x30 && flags / 512 % 2 == 1)

/-- Colour of a packet of len bytes with pre-colour `pre`, and the buckets after it (RFC 2698, RFC 4115). -/
def meterColour (mode : Nat) (pre : Nat) (b : Int × Int) (len : Nat) : Nat × (Int × Int) :=
  let l : Int := (len * 256 : Nat)
  if mode = 0 then
    if pre = 2 ∨ b.2 - l < 0 then (2, b)
    else if pre = 1 ∨ b.1 - l < 0 then (1, (b.1, b.2 - l))
    else (0, (b.1 - l, b.2 - l))
  else
    if pre = 0 ∧ 0 ≤ b.1 - l then (0, (b.1 - l, b.2))
    else if pre ≠ 2 ∧ 0 ≤ b.2 - l then (1, (b.1, b.2 - l))
    else (2, b)

/-- A received packet metered (R310). -/
def State.meter (s : State) (cd : ConduitState) (port op flags dscp frame : Nat) : State × Verdict :=
  if !s.flag Fd.SCH_CTL_METER_EN then (s, .pass) else
  let sub := cd.subNode
  let m : Option Nat :=
    if privileged op flags then (if s.flag (Fd.SCH_IMAP_PVALID.at sub) then some (s.fd (Fd.SCH_IMAP_PMETER.at sub)) else none)
    else if s.flag (Fd.SCH_IMAP_VALID.at sub) then some (s.fd (Fd.SCH_IMAP_METER.at sub)) else none
  match m with
  | none => (s, .pass)
  | some m =>
    if !s.flag (Fd.SCH_MTR_CFG_ENABLE.at m) then (s.inc (Fd.SCH_MTR_GREEN_COUNT.at m), .pass) else
    let pre := if m < 64 && s.flag (Fd.SCH_MTR_CFG_AWARE.at m) then
        (if dscp < 32 then bits (s.fd Fd.SCH_ICOLOR0_COLOUR) (2 * dscp + 1) (2 * dscp)
         else bits (s.fd Fd.SCH_ICOLOR1_COLOUR) (2 * (dscp - 32) + 1) (2 * (dscp - 32)))
      else 0
    let (col, b) := meterColour (s.cfg (Fd.SCH_MTR_CFG_MODE.at m)) pre (s.meterBuckets m) (s.charged port frame)
    let s := s.onSch fun h => { h with meters := tset h.meters m b }
    if col = 0 then (s.inc (Fd.SCH_MTR_GREEN_COUNT.at m), .pass)
    else
      let s := if col = 1 then (s.inc (Fd.SCH_MTR_YELLOW_COUNT.at m)).inc Fd.SCH_YELLOW_COUNT
        else (s.inc (Fd.SCH_MTR_RED_COUNT.at m)).inc Fd.SCH_RED_COUNT
      let a := if col = 1 then s.fd (Fd.SCH_MTR_CFG_YACT.at m) else s.fd (Fd.SCH_MTR_CFG_RACT.at m)
      if a = 0 then (s, .pass)
      else if a = 1 then (s, .ce)
      else if op = 0x22 then
        (if col = 2 then (s.inc Fd.SCH_CROAK_RED_COUNT).raise Fd.SCH_ERR_CROAK_RED else s, .pass)
      else (s.inc Fd.SCH_DROPS_COUNT, .drop)

/-! ## Meanings -/

/-- BUCKET_REFILL (R303, R304). -/
def execBucketRefill (s : State) : Host.Outcome State Fault Refusal := act s State.refillAll

end Sys2Proof.Machine
end

