-- ==== Sys2Proof/Machine/Receive.lean ====
section
/-! DEFINITION. Receiving: frames, the checks of Table 12-8, reassembly, order and acknowledgement (R246-R251, R258-R263). -/

namespace Sys2Proof.Machine

/-! ## The frame (R246, R247) -/

/-- A Trill packet taken from a frame. -/
structure Pkt where
  /-- The source address as PEER_IP spells it. -/
  srcIp : List Byte
  v6 : Bool
  dscp : Nat
  ce : Bool
  /-- The Trill header and what follows it. -/
  hdr : List Byte
  body : List Byte
  deriving DecidableEq, Repr

/-- What the outer headers of a frame decide. -/
inductive FrameFate where
  | dropped (k : Nat)
  | punted
  | trill (p : Pkt)
  deriving DecidableEq, Repr

/-- A UDP datagram addressed to the device, from an IP packet: its checksum, length and port. -/
def State.udpFate (s : State) (v6 : Bool) (src dst : List Byte) (tc : Nat) (u : List Byte) : FrameFate :=
  let n := bat u 4 2
  if u.length < 8 ∨ n < 8 ∨ u.length < n then .dropped 2 else
  let d := u.take n
  if bat d 6 2 = 0 ∨ inetSum (pseudo v6 src dst n ++ d) ≠ 0 then .dropped 1
  else if bat d 2 2 ≠ s.fd Fd.TRL_UDP_PORT then .punted
  else if n < 40 then .dropped 2
  else .trill ⟨if v6 then src else zeros 12 ++ src, v6, tc / 4, tc % 4 == 3, slice d 8 32, d.drop 40⟩

/-- An IPv4 packet. -/
def State.ip4Fate (s : State) (p : List Byte) : FrameFate :=
  let n := bat p 2 2
  if p.length < 20 ∨ bits (bat p 0 1) 7 4 ≠ 4 ∨ bits (bat p 0 1) 3 0 ≠ 5 ∨ n < 20 ∨ p.length < n ∨ inetSum (p.take 20) ≠ 0 ∨
      bat p 6 2 % 2 ^ 14 ≠ 0 then .dropped 1
  else if !s.flag Fd.TRL_IP4_VALID || bat p 16 4 != s.fd Fd.TRL_IP4_ADDR || bat p 9 1 != 17 then .punted
  else s.udpFate false (slice p 12 4) (slice p 16 4) (bat p 1 1) ((p.take n).drop 20)

/-- The IPv6 extension headers. -/
def isExtHeader (h : Nat) : Bool := [0, 43, 44, 50, 51, 60, 135, 139, 140].contains h

/-- An IPv6 packet. -/
def State.ip6Fate (s : State) (p : List Byte) : FrameFate :=
  let n := bat p 4 2
  let nh := bat p 6 1
  let me := s.fd Fd.TRL_IP6_HI_ADDR * 2 ^ 64 + s.fd Fd.TRL_IP6_LO_ADDR
  if p.length < 40 ∨ bits (bat p 0 1) 7 4 ≠ 6 ∨ p.length < 40 + n ∨ isExtHeader nh then .dropped 1
  else if me = 0 ∨ bat p 24 16 ≠ me ∨ nh ≠ 17 then .punted
  else s.udpFate true (slice p 8 16) (slice p 24 16) (bits (bat p 0 4) 27 20) ((p.drop 40).take n)

/-- The MAC address of a port. -/
def State.portMac (s : State) (p : Nat) : Nat := s.fd (Fd.TRL_PORT_CTL_MAC_HI p) * 2 ^ 32 + s.fd (Fd.TRL_PORT_CTL_MAC_LO p)

/-- A frame received at a port, without its FCS (R247). -/
def State.frameFate (s : State) (port : Nat) (f : List Byte) (fcsOk : Bool) : FrameFate :=
  let dst := bat f 0 6
  if !fcsOk || f.length < 14 || 9216 < f.length + 4 then .dropped 0
  else if dst ≠ 2 ^ 48 - 1 ∧ !(List.range s.portCount).any (fun p => s.portMac p == dst) then .dropped 0
  else
    let tagged := bat f 12 2 == 0x8100
    let vlan := s.flag (Fd.TRL_PORT_CTL_VLAN_EN port)
    if tagged ≠ vlan ∨ (tagged ∧ bat f 14 2 % 4096 ≠ s.fd (Fd.TRL_PORT_CTL_VID port)) then .punted else
    let at_ := if tagged then 16 else 12
    let p := f.drop (at_ + 2)
    if bat f at_ 2 = 0x0800 then s.ip4Fate p
    else if bat f at_ 2 = 0x86DD then s.ip6Fate p
    else .punted

/-- A drop counted (Table 12-13). -/
def State.dropped (s : State) (k : Nat) : State := s.inc (Fd.TRL_DROP_COUNT k)

/-- A frame punted to mailbox 0: at most KPPS in a millisecond (R247, Table 18-3). -/
def State.punt (s : State) (port : Nat) (f : List Byte) : State :=
  let ms := s.usec / 1000
  let n := if s.trl.puntAt = ms then s.trl.punted else 0
  if s.fd Fd.TRL_PUNT_KPPS ≤ n then s.dropped 0 else
  match s.mbDeliver 0 0x01 65536 f (le 1 port ++ zeros 39) with
  | none => s.dropped 0
  | some s => s.onTrl fun t => { t with punted := n + 1, puntAt := ms }

/-! ## The Trill header (R249) -/

def hOp (h : List Byte) : Nat := bat h 1 1
def hFlags (h : List Byte) : Nat := bat h 2 2
def hNode (h : List Byte) : Nat := bat h 4 4 % 2 ^ 20
def hSeq (h : List Byte) : Nat := bat h 12 4
def hOff (h : List Byte) : Nat := bat h 16 4
def hLen (h : List Byte) : Nat := bat h 20 4
def hKey (h : List Byte) : Nat := bat h 24 4
def hImm (h : List Byte) : Nat := bat h 28 4
def hBit (h : List Byte) (n : Nat) : Bool := hFlags h / 2 ^ n % 2 == 1

/-- Step 2 of Table 12-8: version, node, enable. -/
def State.nodeOk (s : State) (h : List Byte) : Bool :=
  s.flag Fd.TRL_CTL_ENABLE && bits (bat h 0 1) 7 4 == 1 &&
    (hNode h == s.node || (s.flag Fd.TRL_CTL_TWIN_RX && hNode h == s.node ^^^ 1))

/-- Step 3: the conduit entry. -/
def ConduitState.matches_ (cd : ConduitState) (p : Pkt) : Bool :=
  (cd.cstate == 1 || cd.cstate == 2) && cd.ipv6 == p.v6 && cd.peerIp == p.srcIp && cd.part == bits (bat p.hdr 4 4) 31 28 &&
    cd.rxCgen == bat p.hdr 10 2

/-- Step 4: the plain payload. -/
def State.openBody (s : State) (cd : ConduitState) (p : Pkt) : Option (List Byte) :=
  if hBit p.hdr 14 != cd.enc then none
  else if !cd.enc then some p.body
  else match tfind s.sec.keys cd.keySlot with
    | none => none
    | some k =>
      if tfind s.sec.keyPart cd.keySlot = some cd.part then
        gcmOpen k (be 4 cd.rxSalt ++ slice p.hdr 12 4 ++ slice p.hdr 16 4) p.hdr p.body
      else none

/-! ## Acknowledgement (R263, R267) -/

/-- The distance from a to b among message sequence numbers, which skip 0 (R254). -/
def msgDist (a b : Nat) : Nat := if b < a then serialDist 32 a b - 1 else serialDist 32 a b

/-- The message d places after a. -/
def seqAdd (a d : Nat) : Nat := if a + d < 2 ^ 32 then a + d else a + d - 2 ^ 32 + 1

/-- Runs of consecutive indices: first and number, rising. -/
def runs : List Nat → List (Nat × Nat)
  | [] => []
  | i :: l => match runs l with
    | (j, n) :: r => if i + 1 = j then (i, n + 1) :: r else (i, 1) :: (j, n) :: r
    | [] => [(i, 1)]

/-- Segments of a context that count as placed: those of a WRITE only once segment 0 is (R277). -/
def RxCtx.visible (x : RxCtx) : List Nat := if x.region.isSome && x.dest.isNone then [] else x.segs.map Prod.fst

/-- The blocks of a TACK, newest message first (Table 12-9). -/
def ConduitState.ackBlocks (cd : ConduitState) : List (Nat × Nat × Nat) :=
  let part : Tbl (List (Nat × Nat × Nat)) := cd.rx.foldl (fun t x =>
    tset t (msgDist cd.rxNext x.msgseq) ((runs x.visible).reverse.map (fun r => (x.msgseq, r.1, r.2)))) []
  let all : Tbl (List (Nat × Nat × Nat)) := cd.rxDone.foldl (fun t (d : Nat × Nat) => tset t (msgDist cd.rxNext d.1) [(d.1, 0, d.2)]) part
  ((all.reverse.flatMap Prod.snd)).take 8

/-- A TACK is sent (R263). -/
def State.tack (s : State) (c : Nat) : State :=
  match s.conduit c with
  | none => s
  | some cd =>
    if cd.loopback then s else
    let bl := cd.ackBlocks
    let ece := cd.eceDue || decide (s.nsec < cd.eceUntil)
    let s := s.modConduit c fun cd => { cd with
      ackSegs := 0, ackSince := none, eceDue := false
      eceUntil := if cd.eceDue then s.nsec + s.fd Fd.TRL_ECN_CUT_US * 1000 else cd.eceUntil }
    s.sendUnseq c 0x30 (0x200 + (if ece then 0x400 else 0))
      (le 4 cd.rxNext ++ le 1 bl.length ++ zeros 3 ++ bl.flatMap (fun b => le 4 b.1 ++ le 4 b.2.1 ++ le 4 b.2.2)) none

/-- A segment has been placed or its message refused: a TACK now or later. -/
def State.noteSegment (s : State) (c : Nat) (now_ : Bool) : State :=
  match s.conduit c with
  | none => s
  | some cd =>
    if cd.loopback then s else
    let s := s.modConduit c fun cd => { cd with ackSegs := cd.ackSegs + 1, ackSince := some (cd.ackSince.getD s.nsec) }
    if now_ || decide (max 1 (s.fd Fd.TRL_ACK_ACK_SEGS) ≤ cd.ackSegs + 1) then s.tack c else s

/-! ## Resources (R262) -/

/-- Contexts in use, and those reserved. -/
def State.ctxUsed (s : State) : Nat := s.trl.conduits.foldl (fun n c => n + c.2.rx.length) 0
def State.ctxReserve (s : State) : Nat :=
  s.fd Fd.TRL_RASM_PER_CONDUIT * (s.trl.conduits.filter (fun c => c.2.cstate == 1 || c.2.cstate == 2)).length

/-- Bytes of the receive buffer, and those in use. -/
def State.rxSize (s : State) : Nat := s.fd Fd.TRL_RXBUF_MIB * 2 ^ 20
def State.rxUsed (s : State) : Nat :=
  s.trl.conduits.foldl (fun n c => n + c.2.rx.foldl (fun k x => k + x.buffer) 0) 0 + s.trl.holds.foldl (fun n h => n + h.len) 0

/-- n bytes of buffer are granted. -/
def State.bufferOk (s : State) (lowest : Bool) (n : Nat) : Bool :=
  n == 0 || decide (s.rxUsed + n + (if lowest then 0 else s.rxSize / 4) ≤ s.rxSize)

/-- A context is granted: the lowest incomplete message always has one. -/
def State.ctxOk (s : State) (lowest : Bool) : Bool :=
  lowest || decide (s.ctxUsed + 1 + s.ctxReserve ≤ s.fd Fd.TRL_RASM_CONTEXTS)

/-- Opcodes placed in the receive buffer (Table 12-4). -/
def buffered (op : Nat) : Bool := !(op == 0x04 || op == 0x05 || op == 0x10 || op == 0x11 || op == 0x13)

/-- Bytes a message takes of the receive buffer: its payload, and a bitmap of more than 2,048 segments (R260). -/
def ConduitState.bufferOf (cd : ConduitState) (op len : Nat) : Nat :=
  (if buffered op then len else 0) + (let n := cd.segCount len; if n ≤ 2048 then 0 else ceilDiv n 8)

/-! ## Hand-over (R261) -/

def State.modCtx (s : State) (c q : Nat) (f : RxCtx → RxCtx) : State :=
  s.modConduit c fun cd => { cd with rx := cd.rx.map fun x => if x.msgseq = q then f x else x }

/-- A context is complete. -/
def ConduitState.complete (cd : ConduitState) (x : RxCtx) : Bool := x.segs.length == cd.segCount x.msglen

/-- The kind of a message names no command: it is malformed (R252, Table 12-6). -/
def kindUnknown (op : Nat) (p : List Byte) : Bool :=
  let k := fun (off n : Nat) => lat p off 1 == 0 || n < lat p off 1
  match op with
  | 0x1A => k 0 5
  | 0x20 => k 4 8
  | 0x23 => k 0 7
  | 0x24 => k 0 10
  | _ => false

/-- A message handed to its consumer; its number is past, or noted as done. A RESULT is that of a request forwarded from
here (R359), and a message whose kind names nothing is answered FORMAT. -/
def State.handOver (s : State) (c : Nat) (cd : ConduitState) (x : RxCtx) : State :=
  let p := x.segs.flatMap Prod.snd
  let s := s.modConduit c fun _ => { cd with
    rx := cd.rx.filter (fun y => y.msgseq != x.msgseq), rxDone := tset cd.rxDone x.msgseq (cd.segCount x.msglen) }
  if x.op = 0x05 then s.relayResult c p
  else if kindUnknown x.op p then s.respond c x.msgseq (serviceOf x.op 6) stFORMAT []
  else s.onTrl fun t => { t with handed := t.handed ++ [⟨c, x.msgseq, x.op, p, x.key, x.imm, x.region⟩] }

/-- RX_NEXT passes one message handed over or refused, or the message it names is handed over. -/
def State.advanceOne (c : Nat) (s : State) : Option State :=
  (s.conduit c).bind fun cd =>
    if (tfind cd.rxDone cd.rxNext).isSome then
      some (s.modConduit c fun cd => { cd with rxDone := tdel cd.rxDone cd.rxNext, rxNext := seqNext cd.rxNext })
    else match cd.rx.find? (fun x => cd.complete x && (x.noord || x.msgseq == cd.rxNext)) with
      | some x => some (s.handOver c cd x)
      | none => none

def State.advance (s : State) (c : Nat) : State :=
  match s.conduit c with
  | none => s
  | some cd => iter (2 * cd.rx.length + cd.rxDone.length + 2) (State.advanceOne c) s

/-- A message refused: its context and bytes go, it counts as complete, and one NACK is sent (R259, R260). -/
def State.refuseMsg (s : State) (c q op len st : Nat) : State :=
  match s.conduit c with
  | none => s
  | some cd =>
    let s := match (cd.rx.find? (fun x => x.msgseq == q)).bind (fun x => x.region.map (fun r => (r, x.op))) with
      | some (i, o) => s.abandonWrite i o
      | none => s
    let s := s.modConduit c fun cd => { cd with
      rx := cd.rx.filter (fun y => y.msgseq != q), rxDone := tset cd.rxDone q (cd.segCount len) }
    (s.advance c).respond c q (serviceOf op (if op = 0x13 then 1 else 6)) st []

/-! ## Reassembly (R260) -/

/-- The form of a segment (R259). -/
def State.wellFormed (s : State) (cd : ConduitState) (h pl : List Byte) : Bool :=
  let g := cd.segSize
  let last := hOff h + pl.length == hLen h
  knownOp (hOp h) && hLen h ≤ 2 ^ 31 && (!buffered (hOp h) || decide (hLen h ≤ s.rxSize / 4)) && hOff h % g == 0 &&
    decide (hOff h < 2 ^ 31) && decide (hOff h + pl.length ≤ hLen h) && (pl.length == g || (hBit h 15 && last)) &&
    (match cd.rx.find? (fun x => x.msgseq == hSeq h) with
     | some x => x.op == hOp h && x.msglen == hLen h && x.key == hKey h && x.imm == hImm h
     | none => true)

/-- A segment leaves a gap before itself (R263). -/
def ConduitState.gap (cd : ConduitState) (x : RxCtx) (i : Nat) : Bool :=
  (List.range i).any (fun j => (tfind x.segs j).isNone) ||
  (List.range (msgDist cd.rxNext x.msgseq)).any (fun d =>
    let q := seqAdd cd.rxNext d
    (tfind cd.rxDone q).isNone && !cd.rx.any (fun y => y.msgseq == q))

/-- Admission opens the context (step 1 of R260): none where nothing is granted; else the status, and the state with the
context where that is OK. -/
def State.openCtx (s : State) (c : Nat) (cd : ConduitState) (h : List Byte) : Option (Nat × State) :=
  let q := hSeq h
  let lowest := q == cd.rxNext
  let n := cd.bufferOf (hOp h) (hLen h)
  if !s.ctxOk lowest || !s.bufferOk lowest n then none else
  let mk := fun (s : State) (r : Option Nat) => s.modConduit c fun cd => { cd with
    rx := cd.rx ++ [⟨q, hOp h, hLen h, hKey h, hImm h, hBit h 11, [], n, r, none⟩] }
  if hOp h = 0x10 ∨ hOp h = 0x11 then
    match s.admitWrite c (hOp h) (hKey h) (hLen h) with
    | (s, st, i) => some (st, if st = stOK then mk s (some i) else s)
  else some (stOK, mk s none)

/-- Segment i of an open context is placed (steps 2 to 4). `again`: it asks for an acknowledgement at once. -/
def State.placeSegment (s : State) (c : Nat) (x : RxCtx) (i : Nat) (pl : List Byte) (ce again : Bool) : State :=
  match s.conduit c with
  | none => s
  | some cd =>
    if (tfind x.segs i).isSome then s.tack c else
    let gap := cd.gap x i || again
    let mark := fun (s : State) => if ce then s.modConduit c fun cd => { cd with eceDue := true } else s
    match x.region with
    | none =>
      let s := mark (s.modCtx c x.msgseq fun x => { x with segs := tset x.segs i pl })
      (s.advance c).noteSegment c gap
    | some r =>
      match x.dest with
      | some off =>
        let data := if i = 0 then pl.drop 16 else pl
        let s := (mark (s.modCtx c x.msgseq fun x => { x with segs := tset x.segs i pl })).placeWrite r off (max 16 (i * cd.segSize)) data
        (s.advance c).noteSegment c gap
      | none =>
        if i = 0 then
          let st := s.writeBounds r x.msglen pl
          if st ≠ stOK then ((mark s).refuseMsg c x.msgseq x.op x.msglen st).noteSegment c gap else
          let off := lat pl 0 8
          let s := mark (s.modCtx c x.msgseq fun x => { x with
            segs := tset x.segs 0 pl, dest := some off, buffer := cd.bufferOf x.op x.msglen })
          let s := (s.placeWrite r off 16 (pl.drop 16))
          let s := x.segs.foldl (fun s (e : Nat × List Byte) => (s.placeWrite r off (e.1 * cd.segSize) e.2).modConduit c
            fun cd => { cd with ackSegs := cd.ackSegs + 1 }) s
          (s.advance c).noteSegment c gap
        else if s.bufferOk (x.msgseq == cd.rxNext) cd.segSize then
          let s := mark (s.modCtx c x.msgseq fun x => { x with segs := tset x.segs i pl, buffer := x.buffer + cd.segSize })
          if gap then s.tack c else s
        else s.inc Fd.RMO_HELD_DROPS_COUNT

/-- Steps 6 to 8 of Table 12-8 for a sequenced segment. -/
def State.receiveSegment (s : State) (c : Nat) (h pl : List Byte) (ce : Bool) : State :=
  match s.conduit c with
  | none => s
  | some cd =>
    let q := hSeq h
    if q = 0 then s.dropped 6
    else if (tfind cd.rxDone q).isSome ∨ serialLt 32 q cd.rxNext then (s.dropped 6).tack c
    else if 65535 < msgDist cd.rxNext q then s.dropped 6
    else if !s.wellFormed cd h pl then (s.refuseMsg c q (hOp h) (hLen h) stFORMAT).noteSegment c (hBit h 12 || hBit h 13)
    else
      let i := hOff h / cd.segSize
      let again := hBit h 12 || hBit h 13
      match cd.rx.find? (fun x => x.msgseq == q) with
      | some x => s.placeSegment c x i pl ce again
      | none =>
        if cd.cstate = 2 then s.dropped 4 else
        match s.openCtx c cd h with
        | none => s.dropped 7
        | some (st, s) =>
          match (s.conduit c).bind (fun cd => cd.rx.find? (fun x => x.msgseq == q)) with
          | some x => s.placeSegment c x i pl ce again
          | none => (s.refuseMsg c q (hOp h) (hLen h) st).noteSegment c again

/-- Step 5: an unsequenced packet goes to its consumer; a TACK is kept under opcode 0x130 with its FLAGS (R254). -/
def State.receiveUnseq (s : State) (c : Nat) (h pl : List Byte) : State :=
  let put := fun (op imm : Nat) => s.onTrl fun t => { t with handed := t.handed ++ [⟨c, hSeq h, op, pl, 0, imm, none⟩] }
  if hOp h = 0x30 ∧ hBit h 9 then put 0x130 (hFlags h)
  else if hOp h = 0x22 then put 0x22 0
  else s

/-- The service a received packet is counted under: that of its opcode, and for a response that of its request (R438). -/
def State.rxService (s : State) (c : Nat) (h pl : List Byte) : Nat :=
  if (hOp h = 0x30 ∨ hOp h = 0x31) ∧ !hBit h 9 ∧ hOff h = 0 then
    ((s.trl.awaiting.find? (fun a => a.conduit == c && a.msgseq == lat pl 0 4)).map (fun a => serviceOf a.op 1)).getD 6
  else serviceOf (hOp h) (if hOp h = 0x13 then 1 else 6)

/-- A packet whose conduit matches and whose tag verifies: metered, then steps 5 to 8 (R258, R310). -/
def State.receivePacket (s : State) (port c : Nat) (cd : ConduitState) (p : Pkt) (pl : List Byte) (frame : Nat) : State :=
  let s := s.use cd.part (14 + s.rxService c p.hdr pl) (s.charged port frame)
  let (s, v) := s.meter cd port (hOp p.hdr) (hFlags p.hdr) p.dscp frame
  match v with
  | .drop => s
  | _ =>
    let ce := p.ce || v == .ce
    let s := s.inc Fd.TRL_RX_SEGS_COUNT
    let s := if ce then s.inc Fd.TRL_ECN_CE_COUNT else s
    if hBit p.hdr 8 then s.receiveUnseq c p.hdr pl else s.receiveSegment c p.hdr pl ce

/-- PACKET_RECEIVE: a frame at a port (R258). -/
def execPacketReceive (port : Fin 64) (frame : List Byte) (fcsOk : Bool) (s : State) : Host.Outcome State Fault Refusal :=
  act s fun s =>
    match s.frameFate port.val frame fcsOk with
    | .dropped k => s.dropped k
    | .punted => s.punt port.val frame
    | .trill p =>
      if !s.nodeOk p.hdr then s.dropped 3 else
      let c := bat p.hdr 8 2
      match s.conduit c with
      | none => s.dropped 4
      | some cd =>
        if !cd.matches_ p then s.dropped 4 else
        match s.openBody cd p with
        | none => s.dropped 5
        | some pl => s.receivePacket port.val c cd p pl (frame.length + 4)

/-- ACK_DELAY_EXPIRE (R263). -/
def execAckDelayExpire (c : Conduit) (s : State) : Host.Outcome State Fault Refusal :=
  actIf s (s.flag Fd.TRL_CTL_ENABLE) fun s =>
    match (s.conduit c.val).bind (·.ackSince) with
    | some t => if t + max 1 (s.fd Fd.TRL_ACK_ACK_NS) ≤ s.nsec then s.tack c.val else s
    | none => s

end Sys2Proof.Machine
end

