-- ==== Sys2Proof/Machine/WorkReq.lean ====
section
/-! DEFINITION. Trigger counters and work requests (R288-R293). -/

namespace Sys2Proof.Machine

/-- Unfired requests of a counter, in posting order. -/
def State.unfired (s : State) (ctr : Nat) : List WorkReq := s.rmo.wrs.filter (fun w => w.ctr == ctr && w.firedAt.isNone)

/-- A counter belongs to a partition and is enabled. -/
def State.ctrOk (s : State) (ctr part : Nat) : Bool :=
  s.flag (Fd.RMO_CTR_CFG_ENABLE.at ctr) && s.fd (Fd.RMO_CTR_CFG_PART.at ctr) == part

def State.setWr (s : State) (id : Nat) (f : WorkReq → WorkReq) : State :=
  s.onRmo fun m => { m with wrs := m.wrs.map fun w => if w.id = id then f w else w }

/-- Reserved fields and OP of a work request (Table 13-6). -/
def wrBad (b : List Byte) : Bool :=
  lat b 0 1 = 0 || 5 < lat b 0 1 || 2 ≤ lat b 1 1 || lat b 12 4 != 0 || 4096 ≤ lat b 44 2 || lat b 46 2 != 0 || !zeroAt b 52 12

/-- POST_WR (R289). -/
def State.postWr (s : State) (c q : Nat) (p : List Byte) : State :=
  let b := slice p 8 64
  let part := s.partOf c
  let ctr := lat b 2 2
  let cqe := lat b 1 1 % 2 == 1
  let add := lat b 0 1 == 5
  if p.length ≠ 72 ∨ lat p 0 2 ≠ 0x20 ∨ !zeroAt p 2 6 ∨ wrBad b then s.respond c q 6 stFORMAT []
  else if !s.ctrOk ctr part || (cqe && s.fd (Fd.RMO_CQ_CFG0_PART.at (lat b 44 2)) != part) ||
      (add && !s.ctrOk (lat b 28 4 % 65536) part) then s.respond c q 6 stBOUNDS []
  else if s.fd Fd.RMO_WR_POOL_ENTRIES ≤ s.rmo.wrs.length ∨ max 1 (s.fd (Fd.RMO_CTR_CFG_MAXWR.at ctr)) ≤ (s.unfired ctr).length then
    s.respond c q 6 stQUOTA []
  else
    (s.onRmo fun m => { m with wrs := m.wrs ++ [⟨m.nextWr, b, c, ctr, none, [], none, false⟩], nextWr := m.nextWr + 1 }).respond c q 6 stOK []

/-- A posted query or batch is admitted, or tried (R291 step 4). -/
def State.submitWr (s : State) (w : WorkReq) (data : List Byte) : State :=
  if lat w.bytes 0 1 = 1 then s.recvNamed w.conduit 0 0x01 data (some w.id) else s.recvBatch w.conduit 0 data (some w.id)

/-- A work request fires (R291, R292). -/
def State.fireWr (s : State) (w : WorkReq) : State :=
  let b := w.bytes
  let op := lat b 0 1
  let cqe := lat b 1 1 % 2 == 1
  let cq := lat b 44 2 % 4096
  let part := s.partOf w.conduit
  let s := (s.setWr w.id fun w => { w with firedAt := some s.usec }).inc Fd.RMO_WR_FIRED_COUNT
  if cqe && !s.cqRoom cq then s.endWr w.id stBUSY else
  let s := if cqe then (s.cqReserve cq).setWr w.id fun w => { w with reserved := true } else s
  if op = 5 then (s.stepCounter (lat b 28 4 % 65536)).endWr w.id stOK else
  let (st, i) := s.keyCheck (lat b 8 4) part (some w.conduit) false .read
  let st := if st ≠ stOK then st else if (s.region i).holds (lat b 16 8) (lat b 24 4) then stOK else stBOUNDS
  if st ≠ stOK then s.endWr w.id st else
  let data := s.hbmRead ((s.region i).base + lat b 16 8) (lat b 24 4)
  if op ≤ 2 then s.submitWr w data else
  let (st, d) := s.keyCheck (lat b 28 4) part none true (if op = 4 then .writeImm else .write)
  let st := if st ≠ stOK then st else if (s.region d).holds (lat b 32 8) (lat b 24 4) then stOK else stBOUNDS
  if st ≠ stOK then s.endWr w.id st else
  let s := ((s.inflight i).inflight d).setWr w.id fun w => { w with holds := [i, d] }
  s.remoteWrite d (lat b 32 8) (if op = 4 then some (lat b 40 4) else none) data 1 (.write w.id)

/-- The head of a counter fires if its threshold is reached. -/
def State.fireHead (ctr : Nat) (s : State) : Option State :=
  if !s.flag Fd.RMO_CTL_ENABLE then none else
  match s.unfired ctr with
  | [] => none
  | w :: _ => if reached (s.fd (Fd.RMO_CTR_VAL_VALUE.at ctr)) (lat w.bytes 4 4) then some (s.fireWr w) else none

/-- Every request whose turn has come fires (R290). -/
def State.fireAll (s : State) (ctr : Nat) : State := (iter ((s.unfired ctr).length) (State.fireHead ctr) s).settle

/-- Unfired requests removed with ABORTED (R293). -/
def State.flushWrs (s : State) (l : List WorkReq) : State := l.foldl (fun s w => s.endWr w.id stABORTED) s
def State.flushConduit (s : State) (c : Nat) : State :=
  s.flushWrs (s.rmo.wrs.filter (fun w => w.conduit == c && w.firedAt.isNone))

/-! ## Meanings -/

/-- POST_WR: a CONTROL message of CTYPE 0x0020 (R289). -/
def execPostWr (c : Conduit) (q : W32) (p : List Byte) (s : State) : Host.Outcome State Fault Refusal :=
  act s fun s => (s.takeHanded c.val q.toNat 0x3F).postWr c.val q.toNat p

/-- WORK_REQUEST_FIRE (R290). -/
def execWorkRequestFire (ctr : Nat) (s : State) : Host.Outcome State Fault Refusal := act s fun s => s.fireAll ctr

/-- WR_RETRY: every RETRY_US a fired query that found no room is admitted again, until AE_TIMEOUT.MS has passed (R291). -/
def execWrRetry (id : Nat) (s : State) : Host.Outcome State Fault Refusal :=
  act s fun s =>
    match s.rmo.wrs.find? (fun w => w.id == id) with
    | none => s
    | some w =>
      match w.retry, w.firedAt with
      | some (p, at_), some t =>
        if t + max 1 (s.fd Fd.AE_TIMEOUT_MS) * 1000 ≤ s.usec then
          (s.failRequest w.conduit (qTag p) stBUSY (qRaw p) (qF32 p)).endWr id stBUSY
        else if s.usec < at_ + s.fd Fd.RMO_CTL_RETRY_US then s
        else ((s.setWr id fun w => { w with retry := none }).submitWr w p).settle
      | _, _ => s

/-- FLUSH_CTR: a CONTROL message of CTYPE 0x0022 (R293). -/
def execFlushCtr (c : Conduit) (q : W32) (p : List Byte) (s : State) : Host.Outcome State Fault Refusal :=
  act s fun s =>
    let s := s.takeHanded c.val q.toNat 0x3F
    if p.length ≠ 4 ∨ lat p 0 2 ≠ 0x22 then s.respond c.val q.toNat 6 stFORMAT []
    else if !s.ctrOk (lat p 2 2) (s.partOf c.val) then s.respond c.val q.toNat 6 stBOUNDS []
    else (s.flushWrs (s.unfired (lat p 2 2))).respond c.val q.toNat 6 stOK []

/-- COUNTER_SET: a store to RMO_CTR_VAL of the selected counter (R288, R290). -/
def execCounterSet (v : Word) (s : State) : Host.Outcome State Fault Refusal :=
  act s fun s =>
    let k := s.fd Fd.RMO_CTR_SEL_INDEX
    (s.storeFields k Reg.RMO_CTR_VAL v.toNat).fireAll k

/-- COUNTER_DISABLE: a store to RMO_CTR_CFG that clears ENABLE (R293). -/
def execCounterDisable (v : Word) (s : State) : Host.Outcome State Fault Refusal :=
  actIf s (bits v.toNat 63 63 == 0) fun s =>
    let k := s.fd Fd.RMO_CTR_SEL_INDEX
    let was := s.flag (Fd.RMO_CTR_CFG_ENABLE.at k)
    let part := s.fd (Fd.RMO_CTR_CFG_PART.at k)
    let s := s.storeFields k Reg.RMO_CTR_CFG v.toNat
    if was then (s.setFd (Fd.RMO_CTR_CFG_PART.at k) part).flushWrs (s.unfired k) else s

end Sys2Proof.Machine
end

