-- ==== Sys2Proof/Machine/Trill.lean ====
section
/-! DEFINITION. The sender's side of the transport: acknowledgements, timers, rates, ports, conduit commands, responses,
loopback, and the outcome of messages for their producers (R245, R252-R255, R263-R270). -/

namespace Sys2Proof.Machine

/-! ## Mailbox 15: completion in ring order (R408) -/

/-- The entry at CI is completed, if its message is: STATUS and DONE are written, then CI advances. -/
def State.postOne (s : State) : Option State :=
  match s.trl.postings with
  | ⟨i, some st⟩ :: l =>
    let a := s.fd (Fd.EVC_MB_BASE_ADDR 15) + i % s.mbSize 15 * 64
    let len := unle (s.hbmRead (a + 4) 4) % 2 ^ 31
    let s := (s.hbmWrite (a + 3) (le 1 st)).hbmWrite (a + 4) (le 4 (len + 2 ^ 31))
    some ((s.setFd (Fd.EVC_MB_IDX_CI 15) ((i + 1) % 2 ^ 32)).onTrl fun t => { t with postings := l })
  | _ => none

def State.postDone (s : State) : State := iter s.trl.postings.length State.postOne s

/-- The posted message of an entry has ended. -/
def State.posted (s : State) (i st : Nat) : State :=
  s.onTrl fun t => { t with postings := t.postings.map fun p => if p.index = i ∧ p.status.isNone then { p with status := some st } else p }

/-! ## Outcomes for producers (R128, R255, R263, R284) -/

/-- The SUBQUERY a slot holds has failed. -/
def State.subLost (s : State) (st k gen : Nat) : State :=
  match (s.stream st).bind (fun x => x.subs.find? (fun y => y.sub == k && y.gen == gen)) with
  | some y => if y.landed then s else s.subFailed st y
  | none => s

/-- A request forwarded for (c, q) is answered. -/
def State.forwardEnded (s : State) (c q st : Nat) (body : List Byte) : State :=
  match s.cust.forwarded.find? (fun f => f.conduit == c && f.msgseq == q) with
  | some f => s.relayResponse f st body
  | none => s

/-- A message lost with its conduit (R255). -/
def State.messageLost (s : State) (p : Purpose) (st : Nat) : State :=
  match p with
  | .subquery i k g => s.subLost i k g
  | .fetch d => s.restoreFailed d
  | .leapPush d e n => s.leapPushed d e n st 0
  | .leapPull d => s.pulled d st []
  | .offer e => s.offerAnswered e st 0
  | .reassign b => s.reassigned b st
  | .custodyPush h key => s.pushed h key st 0
  | .custodyPull h key => match s.transferOf h with
    | some t => s.custodyPulled (pullTag t.seq key) st []
    | none => s
  | .custodyMirror h => match s.transferOf h with
    | some t => s.discardImport t
    | none => s
  | .custody 9 h => s.onCust fun u => { u with releases := u.releases ++ [(h, 0)] }
  | .forward c q => s.forwardEnded c q st []
  | .write id => s.endWr id st
  | .notify q => s.notifyFailed q
  | .readResp i => s.outflight i
  | .posted i => s.posted i st
  | .prepare i _ _ _ _ => s.posted i st
  | _ => s

/-- A message delivered (R263): what was held until then is released. -/
def State.messageDelivered (s : State) (p : Purpose) : State :=
  match p with
  | .readResp i => s.outflight i
  | .write id => s.endWr id stOK
  | .posted i => s.posted i stOK
  | .prepare i _ _ _ _ => s.posted i stOK
  | _ => s

/-- Outcomes that RESULT_DELIVERED takes. -/
def Purpose.own : Purpose → Bool
  | .result _ => true
  | .partialOf _ => true
  | _ => false

def State.drainOne (s : State) : Option State :=
  (s.trl.ended.find? (fun e => !e.1.own)).map fun e =>
    let s := s.onTrl fun t => { t with ended := eraseFirst (fun y => y == e) t.ended }
    if e.2 = stOK then s.messageDelivered e.1 else s.messageLost e.1 e.2

/-- The outcomes of messages reach their producers. -/
def State.drainEnded (s : State) : State := iter (2 * s.trl.ended.length) State.drainOne s

/-! ## Conduits that end (R255) -/

/-- Requests of a conduit that no answer can reach any more. -/
def State.endAwaiting (s : State) (c : Nat) : State :=
  let mine := s.trl.awaiting.filter (fun a => a.conduit == c)
  let s := s.onTrl fun t => { t with awaiting := t.awaiting.filter (fun a => a.conduit != c) }
  (mine.filter (fun a => !a.purpose.own)).foldl (fun s a => s.endMsg a.purpose stTIMEOUT) s

/-- A DRAINING conduit with nothing outstanding becomes CLOSED. -/
def State.settleConduit (s : State) (c : Nat) : State :=
  match s.conduit c with
  | none => s
  | some cd =>
    if cd.cstate = 2 ∧ cd.queue.isEmpty ∧ cd.sent.isEmpty ∧ cd.rx.isEmpty then
      (s.modConduit c fun cd => { cd with cstate := 0, timerAt := none }).endAwaiting c
    else s

def State.settleDrain (s : State) : State := (s.trl.conduits.map Prod.fst).foldl State.settleConduit s

/-- What follows every act of the transport. -/
def State.trlDone (s : State) : State := ((s.settleDrain.drainEnded).transfersGo).postDone.settle

/-- A conduit becomes FAILED. -/
def State.failConduit (s : State) (c : Nat) : State :=
  match s.conduit c with
  | none => s
  | some cd =>
    let sentSeqs := cd.sent.map (·.msgseq)
    let s := cd.rx.foldl (fun s x => match x.region with | some i => s.abandonWrite i x.op | none => s) s
    let ps := cd.sent.map (·.msg.purpose) ++ (cd.queue.filter (fun m => m.seq.isNone)).map (·.purpose)
    let s := s.modConduit c fun cd => { cd with
      cstate := 3, queue := [], sent := [], rx := [], timerAt := none, ackSince := none, ackSegs := 0 }
    let s := s.onTrl fun t => { t with awaiting := t.awaiting.filter (fun a => !(a.conduit == c && sentSeqs.contains a.msgseq)) }
    let s := (ps.foldl (fun s p => s.endMsg p stTIMEOUT) s).endAwaiting c
    let s := ((s.raise Fd.TRL_ERR_CONDUIT_FAIL).inc Fd.TRL_CONDUIT_FAILS_COUNT).flushConduit c
    if cd.loopback then s else s.nodeLost cd.peerNode

/-! ## Acknowledgements received (R263-R265, R267) -/

/-- Opcodes that no response answers. -/
def unanswered (op : Nat) : Bool := op == 0x04 || op == 0x05 || op == 0x13 || op == 0x30 || op == 0x31

/-- The least rate (R267). -/
def State.minMbps (s : State) : Nat := max 1 (s.fd Fd.TRL_ECN_MIN_GBPS) * 1000

/-- A sample of the round-trip time (RFC 6298). -/
def ConduitState.sample (cd : ConduitState) (r : Nat) : ConduitState :=
  if cd.srttNs = 0 then { cd with srttNs := r, rttvarNs := r / 2 }
  else
    let d := max (cd.srttNs - r) (r - cd.srttNs)
    { cd with rttvarNs := (3 * cd.rttvarNs + d) / 4, srttNs := (7 * cd.srttNs + r) / 8 }

/-- The computed timer (R264). -/
def State.timerOf (s : State) (cd : ConduitState) : Nat :=
  if cd.srttNs = 0 then s.fd Fd.TRL_RETX_RTO_INIT_NS else max (s.fd Fd.TRL_RETX_RTO_MIN_NS) (cd.srttNs + 4 * cd.rttvarNs)

/-- A TACK names a segment. -/
def acked (cum : Nat) (bl : List (Nat × Nat × Nat)) (q i : Nat) : Bool :=
  serialLt 32 q cum || bl.any (fun b => b.1 == q && b.2.1 ≤ i && i < b.2.1 + b.2.2)

/-- What a TACK does to the segments of a conduit: those acknowledged, and, of the rest, those sent before one newly so. -/
def ackSegments (cum : Nat) (bl : List (Nat × Nat × Nat)) (now : Nat) (sent : List SentMsg) : List SentMsg :=
  let all := sent.flatMap (fun m => m.segs.map (fun g => (m.msgseq, g)))
  let fresh := (all.zipIdx).filter (fun x => !x.1.2.acked && acked cum bl x.1.1 x.1.2.index)
  let pos := fun (q i : Nat) => (all.findIdx? (fun x => x.1 == q && x.2.index == i)).getD 0
  let one := fun (m : SentMsg) (g : OutSeg) =>
    let later := fun (x : (Nat × OutSeg) × Nat) =>
      decide (g.sentAt < x.1.2.sentAt) || (g.sentAt == x.1.2.sentAt && decide (pos m.msgseq g.index < x.2))
    if acked cum bl m.msgseq g.index then { g with acked := true, requeue := none, reorderAt := none }
    else if !g.acked && fresh.any later then { g with reorderAt := some (g.reorderAt.getD now) }
    else g
  sent.map fun m => { m with segs := m.segs.map (one m) }

/-- Messages wholly acknowledged leave: delivered. -/
def State.deliverSent (s : State) (c : Nat) : State :=
  match s.conduit c with
  | none => s
  | some cd =>
    let whole := fun (m : SentMsg) => m.segs.length == cd.segCount m.msg.payload.length && m.segs.all (·.acked)
    let out := cd.sent.filter whole
    let s := s.modConduit c fun cd => { cd with sent := cd.sent.filter (fun m => !whole m) }
    out.foldl (fun s m =>
      let s := if unanswered m.msg.op && (match m.msg.purpose with | .posted _ => false | _ => true) then
          s.onTrl fun t => { t with awaiting := t.awaiting.filter (fun a => !(a.conduit == c && a.msgseq == m.msgseq)) } else s
      s.endMsg m.msg.purpose stOK) s

/-- A TACK taken (R263 to R265, R267). -/
def State.tackTaken (s : State) (c : Nat) (flags : Nat) (p : List Byte) : State :=
  match s.conduit c with
  | none => s
  | some cd =>
    if cd.cstate ≠ 1 ∧ cd.cstate ≠ 2 then s else
    let cum := lat p 0 4
    let n := min 8 (lat p 4 1 % 16)
    let bl := (List.range n).map (fun k => (lat p (8 + 12 * k) 4, lat p (12 + 12 * k) 4, lat p (16 + 12 * k) 4))
    let fresh := cd.sent.flatMap (fun m => m.segs.filter (fun g => !g.acked && acked cum bl m.msgseq g.index))
    let cd1 := (fresh.filter (fun g => g.tries == 0)).foldl (fun cd g => cd.sample (s.nsec - g.sentAt)) cd
    let sent := ackSegments cum bl s.nsec cd.sent
    let left := sent.any (fun m => m.segs.any (fun g => !g.acked))
    let cd2 := { cd1 with sent := sent }
    let cd3 := if fresh.isEmpty then cd2 else { cd2 with timerNs := s.timerOf cd2, timerAt := if left then some s.nsec else none }
    let mayCut : Bool := match cd3.cutAt with | none => true | some t => decide (t + s.fd Fd.TRL_ECN_CUT_US * 1000 ≤ s.nsec)
    let cd4 : ConduitState := if flags / 0x400 % 2 == 1 && mayCut then
        { cd3 with
          rateMbps := max s.minMbps (cd3.rateMbps - cd3.rateMbps / 2 ^ s.fd Fd.TRL_ECN_DEC_SHIFT)
          cutAt := some s.nsec
          recoverAt := s.nsec }
      else cd3
    ((s.modConduit c fun _ => cd4).deliverSent c)

/-- Segment i of message q goes to be sent again (R257, R264, R265). -/
def State.requeueSeg (s : State) (cd : ConduitState) (m : SentMsg) (expired : Bool) (g : OutSeg) : OutSeg :=
  { g with
    tries := g.tries + 1
    expiries := if expired then g.expiries + 1 else g.expiries
    requeue := some (s.egressOf cd m.msg.q g.index (g.tries + 1))
    reorderAt := none }

/-- The timer of a conduit has expired (R264, R267, R255). -/
def State.timerExpired (s : State) (c : Nat) : State :=
  match s.conduit c with
  | none => s
  | some cd =>
    match cd.timerAt, cd.sent.find? (fun m => m.segs.any (fun g => !g.acked)) with
    | some t, some m =>
      if s.nsec < t + cd.timerNs then s else
      let seg := m.segs.find? (fun g => !g.acked)
      let n := (seg.map (·.expiries)).getD 0 + 1
      let s := s.inc Fd.TRL_RTO_EXPIRIES_COUNT
      if max 1 (s.fd Fd.TRL_RETX_MAX_TRIES) ≤ n then s.failConduit c else
      s.modConduit c fun cd => { cd with
        sent := modFirst (fun x => x.msgseq == m.msgseq) (fun x => { x with
          segs := modFirst (fun g => !g.acked) (s.requeueSeg cd x true) x.segs }) cd.sent
        timerNs := min (2 * cd.timerNs) (max 1 (s.fd Fd.TRL_RETX_RTO_MAX_US) * 1000)
        timerAt := some s.nsec
        rateMbps := max s.minMbps (cd.rateMbps / 2)
        recoverAt := s.nsec }
    | _, _ => s

/-- Segments deemed lost by the reorder window (R265). -/
def State.reorderExpired (s : State) (c : Nat) : State :=
  let w := s.fd Fd.TRL_RETX_REORDER_NS
  if w = 0 then s else
  let one := fun (cd : ConduitState) (m : SentMsg) (g : OutSeg) =>
    match g.reorderAt with
    | some t => if !g.acked && g.requeue.isNone && decide (t + w ≤ s.nsec) then s.requeueSeg cd m false g else g
    | none => g
  s.modConduit c fun cd => { cd with sent := cd.sent.map fun m => { m with segs := m.segs.map (one cd m) } }

/-! ## Ports (R245) -/

/-- Segments that waited for a port have one. -/
def State.fillWaiting (s : State) : State :=
  let fix := fun (cd : ConduitState) (q i r : Nat) (e : Egress) => match e with
    | .waiting => s.egressOf cd q i r
    | e => e
  s.onTrl fun t => { t with conduits := t.conduits.map fun c => (c.1, { c.2 with
    queue := c.2.queue.map (fun m => { m with egress := (m.egress.zipIdx).map (fun x => fix c.2 m.q x.2 0 x.1) })
    sent := c.2.sent.map (fun m => { m with segs := m.segs.map (fun g => { g with requeue := g.requeue.map (fix c.2 m.msg.q g.index g.tries) }) }) }) }

/-- A port joins the list: it is one of the mode's, enabled, and does not loop (R271). -/
def State.portUp (s : State) (p : Nat) : State :=
  if s.portCount ≤ p || !s.flag Fd.TRL_CTL_ENABLE || !s.flag (Fd.TRL_PORT_CTL_ENABLE p) || s.fd (Fd.TRL_PORT_CTL_LOOP p) != 0 ||
      s.flag (Fd.TRL_PORT_STATUS_UP p) then s else
  let s := (s.setFd (Fd.TRL_PORT_STATUS_UP p) 1).setFd (Fd.TRL_PORT_STATUS_LANES_LOCKED p) (2 ^ s.portLanes - 1)
  (s.setFd (Fd.TRL_PORT_STATUS_TRAINING p) 0).fillWaiting

/-- A port leaves the list: what is queued on it is lost, and counts as sent; its frames complete with BOUNDS (R408). -/
def State.portDown (s : State) (p : Nat) : State :=
  if !s.flag (Fd.TRL_PORT_STATUS_UP p) then s else
  let s := (s.setFd (Fd.TRL_PORT_STATUS_UP p) 0).setFd (Fd.TRL_PORT_STATUS_LANES_LOCKED p) 0
  let s := (s.setFd (Fd.TRL_PORT_STATUS_TRAINING p) (s.fd (Fd.TRL_PORT_CTL_ENABLE p))).raise Fd.TRL_ERR_PORT_DOWN
  let mark := fun (e : Egress) => if e = .port p then Egress.lost else e
  let s := s.onTrl fun t => { t with
    conduits := t.conduits.map fun c => (c.1, { c.2 with
      queue := (c.2.queue.map (fun m => { m with egress := m.egress.map mark })).filter (fun m => !(m.unseq && m.egress.contains .lost))
      sent := c.2.sent.map (fun m => { m with segs := m.segs.map (fun g =>
        if g.requeue = some (.port p) then { g with requeue := none, sentAt := s.nsec } else g) }) })
    postings := t.postings.map fun x => if t.frames.any (fun f => f.1 == p && f.2.1 == x.index) then { x with status := some stBOUNDS } else x
    frames := t.frames.filter (fun f => f.1 != p) }
  s.settleLost

/-! ## Conduit commands (R253, R255, Table 12-13) -/

/-- The bytes of an entry (Table 12-7). -/
def ConduitState.bytes (cd : ConduitState) : List Byte :=
  let b := fun (x : Bool) (n : Nat) => if x then 2 ^ n else 0
  le 1 (cd.cstate + b cd.enc 2 + b cd.ipv6 3 + b cd.multipath 4 + b cd.loopback 5) ++ le 1 (cd.part + cd.segcode * 16) ++
    le 2 cd.peerConduit ++ le 2 cd.txCgen ++ le 2 cd.rxCgen ++ le 4 cd.peerNode ++ le 2 cd.subscriber ++ le 2 cd.peerPort ++
    cd.peerIp ++ le 4 cd.keySlot ++ le 4 cd.txSalt ++ le 4 cd.rxSalt ++ le 4 cd.txNext ++ le 4 cd.rxNext ++ le 4 cd.rateMbps ++
    le 4 cd.srttNs ++ zeros 4

/-- A CLOSED entry that no OPEN has written. -/
def ConduitState.closed : ConduitState :=
  ⟨0, false, false, false, false, 0, 0, 0, 0, 0, 0, 0, 0, zeros 16, 0, 0, 0, 0, 0, 0, 0, 0, none, 0, 0, [], [], [], [], 0, none, false, 0,
   none, none, 0, 0, 0, 0⟩

/-- The entry that DATA0-7 spell, opened at a rate and a timer. -/
def conduitOf (d : List Byte) (rate timer now : Nat) : ConduitState :=
  let f := fun n => lat d 0 1 / 2 ^ n % 2 == 1
  let g := 1024 * 2 ^ bits (lat d 1 1) 6 4
  { ConduitState.closed with
    cstate := 1, enc := f 2, ipv6 := f 3, multipath := f 4, loopback := f 5
    part := lat d 1 1 % 16, segcode := bits (lat d 1 1) 6 4, peerConduit := lat d 2 2, txCgen := lat d 4 2, rxCgen := lat d 6 2
    peerNode := lat d 8 4 % 2 ^ 20, subscriber := lat d 12 2 % 2 ^ 12, peerPort := lat d 14 2, peerIp := slice d 16 16
    keySlot := lat d 32 4 % 2 ^ 12, txSalt := lat d 36 4, rxSalt := lat d 40 4
    txNext := 1, rxNext := 1, rateMbps := rate, lastCgen := some (lat d 6 2), timerNs := timer, recoverAt := now
    bucket := ((2 * g * 256 : Nat) : Int) }

/-- DATA0-7. -/
def State.conduitData (s : State) : List Byte := (List.range 8).flatMap (fun k => le 8 (s.reg (Reg.TRL_CONDUIT_DATA0 + 8 * k)))

/-- A conduit command ends. -/
def State.conduitResult (s : State) (st : Nat) : State :=
  let s := s.setFd Fd.TRL_CONDUIT_CMD_RESULT st
  if st = stOK then s else s.raise Fd.TRL_ERR_CMD_REJECT

/-- RELEASEs that wait for a conduit to their home (R364). -/
def State.resendReleases (s : State) : State :=
  let todo := s.cust.releases
  todo.foldl (fun s (r : Nat × Nat) =>
    match s.conduitTo (hHome r.1) (hPart r.1) with
    | none => s
    | some c => (s.onCust fun u => { u with releases := eraseFirst (fun y => y == r) u.releases }).send c 0x24 6
        (custPayload 9 0 r.2 r.1 s.node 0 0 []) (.custody 9 r.1)) s

/-- OPEN. -/
def State.openConduit (s : State) : State :=
  let c := s.fd Fd.TRL_CONDUIT_SEL_INDEX
  let old := (s.conduit c).getD ConduitState.closed
  let n := conduitOf s.conduitData (s.portGbps * 1000) (s.fd Fd.TRL_RETX_RTO_INIT_NS) s.nsec
  if old.cstate ≠ 0 then s.conduitResult stBUSY
  else if 3 < n.segcode ∨ (n.enc ∧ n.txSalt = n.rxSalt) ∨ old.lastCgen = some n.rxCgen ∨ (n.loopback ∧ n.peerNode ≠ s.node) then
    s.conduitResult stFORMAT
  else ((s.onTrl fun t => { t with conduits := tset t.conduits c n }).conduitResult stOK).resendReleases

/-- CLOSE: an ACTIVE conduit drains, a FAILED one is closed. -/
def State.closeConduit (s : State) : State :=
  let c := s.fd Fd.TRL_CONDUIT_SEL_INDEX
  match (s.conduit c).map (·.cstate) with
  | some 1 => ((s.modConduit c fun cd => { cd with cstate := 2, drainAt := s.nsec }).flushConduit c).conduitResult stOK
  | some 3 => (s.modConduit c fun cd => { cd with cstate := 0 }).conduitResult stOK
  | _ => s.conduitResult stBOUNDS

/-- FAIL. -/
def State.failCommand (s : State) : State :=
  let c := s.fd Fd.TRL_CONDUIT_SEL_INDEX
  match (s.conduit c).map (·.cstate) with
  | some 1 => (s.failConduit c).conduitResult stOK
  | some 2 => (s.failConduit c).conduitResult stOK
  | _ => s.conduitResult stBOUNDS

/-! ## Responses (R252) -/

/-- A CUSTODY SYNC sent again, its copy at the twin having been refused. -/
def State.syncAgain (s : State) (id : Nat) : State :=
  match s.cust.syncs.find? (fun y => y.id == id) with
  | none => s
  | some y =>
    let r := s.syncRec y.change
    s.send (s.fd Fd.TWN_CTL_CONDUIT) 0x24 6 (custPayload 8 0 r.epoch r.handle s.node r.target r.mapEpoch r.bytes) (.sync id)

/-- A forwarded request the holder disowns: the home tells it what the record says (R356). -/
def State.tellHolder (s : State) (c q : Nat) : State :=
  match s.cust.forwarded.find? (fun f => f.conduit == c && f.msgseq == q) with
  | none => s
  | some f =>
    match (s.recKey (reqHandle f.op f.payload)).bind (tfind s.cust.records ·) with
    | none => s
    | some r => s.send f.via 0x24 6 (custPayload 8 0 r.epoch r.handle s.node r.target r.mapEpoch r.bytes) .plain

/-- A device write answered with NACK (R284). -/
def State.writeNacked (s : State) (op : Nat) : State :=
  if op = 0x10 ∨ op = 0x11 then (s.raise Fd.RMO_ERR_WRITE_NACK).inc Fd.RMO_WRITE_NACKS_COUNT else s

/-- The response to a message posted by the firmware goes to mailbox 1 (Table 18-3). -/
def State.postedAnswer (s : State) (c q : Nat) (op : Nat) (p : List Byte) : State :=
  (s.messageIn c q op 0 0 p).getD (s.mbRefused c q)

/-- An ACK for a request of this device. -/
def State.acked (s : State) (c q : Nat) (p : Purpose) (m : List Byte) : State :=
  let st := lat m 4 1
  let body := m.drop 8
  match p with
  | .leapPush d e n => s.leapPushed d e n st (lat body 0 8)
  | .offer e => s.offerAnswered e st (lat body 0 1)
  | .reassign b => s.reassigned b st
  | .custody 7 h => s.tellTransfer h (custRecOf body)
  | .custodyPush h key => s.pushed h key st (lat body 0 8)
  | .sync id => s.syncDone id
  | .forward c q => s.forwardEnded c q st body
  | .posted _ => s.postedAnswer c q 0x30 m
  | .prepare _ h e t me => (s.postedAnswer c q 0x30 m).startTransfer h ((e + 1) % 2 ^ 32) t (hHome h) me
  | _ => s

/-- A NACK for a request of this device. -/
def State.nacked (s : State) (c q op : Nat) (p : Purpose) (m : List Byte) : State :=
  let st := lat m 4 1
  let body := m.drop 8
  let s := s.writeNacked op
  match p with
  | .mirror tag => s.mirrorNacked tag st body
  | .custody 2 h => match s.transferOf h with
    | some t => s.toHome t 6
    | none => s
  | .custody 9 h => if st = stBUSY then s.onCust fun u => { u with releases := u.releases ++ [(h, 0)] } else s
  | .sync id => s.syncAgain id
  | .forward c q => if st = stNOTCUST then (s.tellHolder c q).forwardEnded c q st body else s.forwardEnded c q st body
  | .posted _ => s.postedAnswer c q 0x31 m
  | .prepare _ _ _ _ _ => s.postedAnswer c q 0x31 m
  | p => s.messageLost p st

/-- A response names its request by RSEQ; one that names none is ignored. -/
def State.response (s : State) (c q : Nat) (ack : Bool) (p : List Byte) : State :=
  let s := s.takeHanded c q (if ack then 0x30 else 0x31)
  match s.trl.awaiting.find? (fun a => a.conduit == c && a.msgseq == lat p 0 4) with
  | none => s
  | some a =>
    if p.length < 8 then s else
    let s := s.onTrl fun t => { t with awaiting := eraseFirst (fun y => y == a) t.awaiting }
    let s := if ack then s.acked c q a.purpose p else s.nacked c q a.op a.purpose p
    s.resendReleases

/-! ## Loopback (R270) -/

/-- The first queued message of a loopback conduit passes steps 5 to 8 of Table 12-8; one that finds no room waits. -/
def State.turnRound (s : State) (c : Nat) : State :=
  match s.conduit c with
  | none => s
  | some cd =>
    if !cd.loopback || (cd.cstate != 1 && cd.cstate != 2) then s else
    match (cd.queue.zipIdx).find? (fun x => !x.1.hold) with
    | none => s
    | some (m, place) =>
      let q := if m.unseq then cd.unseqNext else cd.txNext
      let hdr := fun (off flags : Nat) => trillHeader m.op (m.flags + flags) cd.part cd.peerNode cd.peerConduit cd.txCgen q off
        m.payload.length m.key m.imm
      let drop_ := fun (s : State) => s.modConduit c fun cd => { cd with queue := cd.queue.eraseIdx place }
      if m.unseq then
        (((drop_ s).modConduit c fun cd => { cd with unseqNext := (cd.unseqNext + 1) % 2 ^ 32 }).inc
          Fd.TRL_LOOPBACK_MSGS_COUNT).receiveUnseq c (hdr 0x80000000 0x8100) m.payload
      else
        let s' := (drop_ s).modConduit c fun cd => { cd with txNext := seqNext cd.txNext }
        let s' := if m.purpose = .plain then s' else
          s'.onTrl fun t => { t with awaiting := t.awaiting.filter (fun a => !(a.conduit == c && a.msgseq == q)) ++ [⟨c, q, m.op, m.purpose⟩] }
        let n := cd.segCount m.payload.length
        let s' := (List.range n).foldl (fun s i =>
          s.receiveSegment c (hdr (i * cd.segSize) (if i + 1 = n then 0x8000 else 0)) (segBytes cd m.payload i) false) s'
        let gone := match s'.conduit c with
          | some x => x.rxNext == q && !x.rx.any (fun y => y.msgseq == q)
          | none => false
        if gone then s else
        let s' := if unanswered m.op && (match m.purpose with | .posted _ => false | _ => true) then
            s'.onTrl fun t => { t with awaiting := t.awaiting.filter (fun a => !(a.conduit == c && a.msgseq == q)) } else s'
        (s'.endMsg m.purpose stOK).inc Fd.TRL_LOOPBACK_MSGS_COUNT

/-! ## Meanings -/

/-- TRANSMIT_OPPORTUNITY (R298). -/
def execTransmitOpportunity (node : Fin 16) (s : State) : Host.Outcome State Fault Refusal :=
  act s fun s => (s.transmit node.val).trlDone

/-- TACK_RECEIVE (R263): its FLAGS are those of the packet handed over, if there is one. -/
def execTackReceive (c : Conduit) (q : W32) (p : List Byte) (s : State) : Host.Outcome State Fault Refusal :=
  actIf s (s.flag Fd.TRL_CTL_ENABLE) fun s =>
    let fl := ((s.trl.handed.find? (fun h => h.conduit == c.val && h.msgseq == q.toNat && h.op == 0x130)).map (·.imm)).getD 0x200
    ((s.takeHanded c.val q.toNat 0x130).tackTaken c.val fl p).trlDone

/-- RETX_TIMER_EXPIRE (R264). -/
def execRetxTimerExpire (c : Conduit) (s : State) : Host.Outcome State Fault Refusal :=
  actIf s (s.flag Fd.TRL_CTL_ENABLE) fun s => (s.timerExpired c.val).trlDone

/-- REORDER_EXPIRE (R265). -/
def execReorderExpire (c : Conduit) (s : State) : Host.Outcome State Fault Refusal :=
  actIf s (s.flag Fd.TRL_CTL_ENABLE) fun s => s.reorderExpired c.val

/-- RATE_RECOVERY (R267). -/
def execRateRecovery (c : Conduit) (s : State) : Host.Outcome State Fault Refusal :=
  actIf s (s.flag Fd.TRL_CTL_ENABLE) fun s => s.modConduit c.val fun cd =>
    if cd.recoverAt + max 1 (s.fd Fd.TRL_ECN_INC_US) * 1000 ≤ s.nsec then
      { cd with rateMbps := cd.rateMbps + (s.portGbps * 1000 - cd.rateMbps) / 2 ^ s.fd Fd.TRL_ECN_INC_SHIFT, recoverAt := s.nsec }
    else cd

/-- PORT_UP (R245). -/
def execPortUp (port : Fin 64) (s : State) : Host.Outcome State Fault Refusal := act s fun s => s.portUp port.val

/-- PORT_DOWN (R245). -/
def execPortDown (port : Fin 64) (s : State) : Host.Outcome State Fault Refusal := act s fun s => (s.portDown port.val).trlDone

/-- CONDUIT_OPEN: a store of CMD 1 to TRL_CONDUIT_CMD (R253). -/
def execConduitOpen (v : Word) (s : State) : Host.Outcome State Fault Refusal :=
  actIf s (bits v.toNat 1 0 == 1) State.openConduit

/-- CONDUIT_CLOSE: a store of CMD 2 (R255). -/
def execConduitClose (v : Word) (s : State) : Host.Outcome State Fault Refusal :=
  actIf s (bits v.toNat 1 0 == 2) fun s => s.closeConduit.trlDone

/-- CONDUIT_FAIL: a store of CMD 3 (R255). -/
def execConduitFail (v : Word) (s : State) : Host.Outcome State Fault Refusal :=
  actIf s (bits v.toNat 1 0 == 3) fun s => s.failCommand.trlDone

/-- DRAIN_TIMEOUT (R255). -/
def execDrainTimeout (c : Conduit) (s : State) : Host.Outcome State Fault Refusal :=
  act s fun s =>
    let s := s.settleConduit c.val
    match s.conduit c.val with
    | some cd =>
      let limit := max 1 (s.fd Fd.TRL_RETX_RTO_MAX_US) * max 1 (s.fd Fd.TRL_RETX_MAX_TRIES) * 1000
      if cd.cstate = 2 ∧ cd.drainAt + limit ≤ s.nsec then (s.failConduit c.val).trlDone else s.trlDone
    | none => s

/-- CONDUIT_SNAPSHOT: a store to TRL_CONDUIT_SEL (Table 12-13). -/
def execConduitSnapshot (v : Word) (s : State) : Host.Outcome State Fault Refusal :=
  act s fun s =>
    let s := s.storeFields 0 Reg.TRL_CONDUIT_SEL v.toNat
    let b := ((s.conduit (s.fd Fd.TRL_CONDUIT_SEL_INDEX)).getD ConduitState.closed).bytes
    (List.range 8).foldl (fun s k => s.setReg (Reg.TRL_CONDUIT_DATA0 + 8 * k) (lat b (8 * k) 8)) s

/-- ACK (R252). -/
def execAck (c : Conduit) (q : W32) (p : List Byte) (s : State) : Host.Outcome State Fault Refusal :=
  act s fun s => (s.response c.val q.toNat true p).trlDone

/-- NACK (R252). -/
def execNack (c : Conduit) (q : W32) (p : List Byte) (s : State) : Host.Outcome State Fault Refusal :=
  act s fun s => (s.response c.val q.toNat false p).trlDone

/-- LOOPBACK_SEND (R270). -/
def execLoopbackSend (c : Conduit) (s : State) : Host.Outcome State Fault Refusal :=
  actIf s (s.flag Fd.TRL_CTL_ENABLE) fun s => (s.turnRound c.val).trlDone

/-- CONTROL_FIRMWARE (R252): the firmware's CTYPEs go to mailbox 1; one that no block knows is answered FORMAT. -/
def execControlFirmware (c : Conduit) (q : W32) (p : List Byte) (s : State) : Host.Outcome State Fault Refusal :=
  act s fun s =>
    let ty := lat p 0 2
    if 2 ≤ p.length ∧ (ty = 0x20 ∨ ty = 0x21 ∨ ty = 0x22 ∨ ty = 0x101) then s else
    let s := s.takeHanded c.val q.toNat 0x3F
    if p.length < 2 ∨ ty < 0x200 then s.respond c.val q.toNat 6 stFORMAT []
    else (s.messageIn c.val q.toNat 0x3F 0 0 p).getD (s.mbRefused c.val q.toNat)

end Sys2Proof.Machine
end

