-- ==== Sys2Proof/Machine/Evc.lean ====
section
/-! DEFINITION. The event concentrator, mailboxes, timers and core control (chapter 18). -/

namespace Sys2Proof.Machine

/-! ## Sources (R398-R404) -/

/-- Any of some bits of a register is set. -/
def State.anyBit (s : State) (a mask : Nat) : Bool := s.reg a &&& mask != 0

/-- The frames of the management port that firmware has not consumed (Table 20-4). -/
def State.mgtUnread (s : State) : Bool :=
  s.fd Fd.MGT_RX_IDX_PI != 0 &&
  s.fd Fd.MGT_RX_IDX_PI != (s.fd Fd.MGT_RX_IDX_CI + 2 ^ 32 - 2 ^ s.fd Fd.MGT_RX_RING_LOG2SIZE) % 2 ^ 32

/-- A completion queue has entries not consumed. -/
def State.cqPending (s : State) (q : Nat) : Bool := s.fd (Fd.RMO_CQ_IDX_PI.at q) != s.fd (Fd.RMO_CQ_IDX_CI.at q)

/-- The level of a mailbox's source: PI ≠ CI inbound, CI ≠ ACK outbound (R398). -/
def State.mbLevel (s : State) (m : Nat) : Bool :=
  s.flag (Fd.EVC_MB_CFG_ENABLE m) &&
  (if m = 15 then s.fd (Fd.EVC_MB_IDX_CI 15) != s.fd (Fd.EVC_MB_ACK_ACK 15)
   else m ≤ 5 && s.fd (Fd.EVC_MB_IDX_PI m) != s.fd (Fd.EVC_MB_IDX_CI m))

/-- The level of a gecko's source (Table 18-2). -/
def State.gkLevel (s : State) (st g : Nat) : Bool :=
  s.anyBit (Reg.GK_ERR st g) 0b1100011 || s.anyBit (Reg.GK_READY st g) 0b11000000

/-- The level of a source (Table 18-2). -/
def State.level (s : State) (n : Nat) : Bool :=
  if n = 1 then s.flag Fd.GLB_WDOG_EXPIRED
  else if n = 2 then s.flag Fd.GLB_TEMP_ALARM
  else if n = 3 then s.flag Fd.GLB_PWR_WARN
  else if 8 ≤ n ∧ n < 24 then s.flag (Fd.CVU_STATUS_DONE (n - 8))
  else if n = 24 then s.anyBit Reg.PGT_ERR 0b1000
  else if n = 25 then s.anyBit Reg.PDIR_ERR 0b11
  else if n = 26 then s.anyBit Reg.MRG_ERR 0b11
  else if n = 27 then s.anyBit Reg.WXP_ERR 0b1110 || s.flag Fd.WXP_COPY_STATUS_DONE
  else if n = 28 then s.anyBit Reg.TIER_ERR 0b1011100
  else if n = 29 then s.anyBit Reg.FLT_ERR 0b1111111
  else if n = 30 then s.anyBit Reg.TRL_ERR 0b1110
  else if n = 31 then s.anyBit Reg.RMO_ERR 0b11110
  else if n = 32 then s.anyBit Reg.SCH_ERR 0b1
  else if n = 33 then s.anyBit Reg.TWN_ERR 0b111111111
  else if n = 34 then s.anyBit Reg.SEC_ERR 0b1110
  else if n = 35 then s.fd Fd.SEC_MOLT_DONE_LO_DONE != 0 || s.fd Fd.SEC_MOLT_DONE_HI_DONE != 0
  else if n = 36 then s.sec.signed
  else if n = 37 then s.fd Fd.AE_SEL_DIGEST_UE_COUNT != 0
  else if n = 38 then s.anyBit Reg.MGT_ERR 0b1101
  else if n = 39 then s.fd Fd.MGT_LOG_IDX_PI != s.fd Fd.MGT_LOG_IDX_CI
  else if n = 40 then s.mgtUnread
  else if 48 ≤ n ∧ n < 64 then s.mbLevel (n - 48)
  else if 64 ≤ n ∧ n < 144 then s.anyBit (Reg.AE_ERR (n - 64)) 0b111
  else if 144 ≤ n ∧ n < 152 then s.anyBit (Reg.HBM_ERR (n - 144)) 0b110
  else if 152 ≤ n ∧ n < 408 then s.gkLevel ((n - 152) / 32) ((n - 152) % 32)
  else if 408 ≤ n ∧ n < 472 then
    (List.range 64).any (fun k => s.fd (Fd.RMO_CQ_CFG0_NOTIFY.at (64 * (n - 408) + k)) == 1 && s.cqPending (64 * (n - 408) + k))
  else false

/-- Sources that are not reserved (Table 18-2). -/
def sourceExists (n : Nat) : Bool := (1 ≤ n && n ≤ 3) || (8 ≤ n && n ≤ 40) || (48 ≤ n && n ≤ 471)

/-- A source is pending (R399). -/
def State.srcPending (s : State) (n : Nat) : Bool :=
  s.fd (Fd.EVC_SRC_PRIO n) != 0 && s.fd (Fd.EVC_SRC_TARGET n) != 0 && (tfind s.evc.insvc n).isNone && s.level n

/-- A pending source would assert the line of core c (R399). -/
def State.asserts (s : State) (c n : Nat) : Bool :=
  s.flag Fd.EVC_CTL_ENABLE && bits (s.fd (Fd.EVC_SRC_TARGET n)) c c == 1 &&
  decide (s.fd (Fd.EVC_THRESH_LEVEL c) < s.fd (Fd.EVC_SRC_PRIO n)) && s.srcPending n

/-- Sources with a priority or target set, ascending. -/
def State.srcSet (s : State) : List Nat :=
  ((s.csr.map Prod.fst).filter (fun a => Reg.EVC_SRC 0 ≤ a && a < Reg.EVC_SRC 2048)).map (fun a => (a - Reg.EVC_SRC 0) / 8)

/-- The interrupt request line of a core (R399). -/
def State.line (s : State) (c : Nat) : Bool := s.srcSet.any (s.asserts c)

/-- The source of highest PRIO among those that assert a core's line, the lowest number on a tie (R400). -/
def State.claimable (s : State) (c : Nat) : Option Nat :=
  (s.srcSet.filter (s.asserts c)).foldl (fun best n =>
    match best with
    | none => some n
    | some b =>
      let pb := s.fd (Fd.EVC_SRC_PRIO b)
      let pn := s.fd (Fd.EVC_SRC_PRIO n)
      if pb < pn ∨ (pb = pn ∧ n < b) then some n else some b) none

/-- A read of EVC_CLAIM[c] (R400). -/
def State.claim (s : State) (c : Nat) : State :=
  match s.claimable c with
  | none => { s.inc Fd.EVC_EMPTY_CLAIMS_COUNT with rdata := 0 }
  | some n =>
    let s := (s.onEvc fun v => { v with insvc := tset v.insvc n c }).setFd (Fd.EVC_ACTIVE_LAST c) n
    { s.inc Fd.EVC_CLAIMS_COUNT with rdata := BitVec.ofNat 64 n }

/-- A write of EVC_COMPLETE[c] (R401): the level is sampled anew by whatever reads it next. -/
def State.complete (s : State) (c n : Nat) : State :=
  if tfind s.evc.insvc n = some c then s.onEvc fun v => { v with insvc := tdel v.insvc n } else s

/-- A store to EVC_SRC[n] (R402). -/
def State.srcWrite (s : State) (n v : Nat) : State := if sourceExists n then s.storeFields 0 (Reg.EVC_SRC n) v else s

/-! ## Mailboxes (R405-R408) -/

/-- The mailbox is set up anew: indices at zero, the space of its entries free. -/
def State.mbFresh (s : State) (m : Nat) : State :=
  let s := (s.setReg (Reg.EVC_MB_IDX m) 0).setReg (Reg.EVC_MB_ACK m) 0
  let s := s.onTrl fun t => { t with holds := t.holds.filter (fun h => h.mb != m) }
  if m = 15 then s.onTrl fun t => { t with postings := [], postNext := 0, frames := [] } else s

/-- A store to EVC_MB_CFG[m]. -/
def State.mbCfg (s : State) (m v : Nat) : State :=
  let on := bits v 63 63
  if s.flag (Fd.EVC_MB_CFG_ENABLE m) then s.setFd (Fd.EVC_MB_CFG_ENABLE m) on
  else if 6 ≤ m ∧ m ≤ 14 then s.storeFields 0 (Reg.EVC_MB_CFG m) (setBits v 63 63 0)
  else
    let s := s.storeFields 0 (Reg.EVC_MB_CFG m) v
    if on = 1 then s.mbFresh m else s

/-- A store to EVC_MB_IDX[m] of an inbound mailbox: CI moves, unless it would pass PI, and the space of the entries it passes
is free (R405, R407). -/
def State.mbConsume (s : State) (m ci : Nat) : State :=
  let old := s.fd (Fd.EVC_MB_IDX_CI m)
  let d := serialDist 32 old ci
  if 5 < m ∨ serialDist 32 old (s.fd (Fd.EVC_MB_IDX_PI m)) < d then s
  else (s.setFd (Fd.EVC_MB_IDX_CI m) ci).onTrl fun t => { t with
    holds := t.holds.filter (fun h => !(h.mb == m && decide (serialDist 32 old h.index < d))) }

/-- The fields of a posted entry that are reserved are zero, and its kind and opcode are known (R408). -/
def postedOk (e : List Byte) : Bool :=
  let ty := lat e 0 2
  bits (lat e 2 1) 6 4 == 0 &&
  ((ty == 0x10 && knownOp (lat e 26 1) && zeroAt e 27 1 && zeroAt e 40 24) || (ty == 0x11 && zeroAt e 25 39))

/-- What a posted message is for: a PREPARE starts the copy where this node holds the sequence. -/
def postedFor (i op : Nat) (p : List Byte) : Purpose :=
  if op = 0x24 ∧ cKind p = 1 ∧ 32 ≤ p.length then .prepare i (cHandle p) (cEpoch p) (cTarget p) (cMapEpoch p) else .posted i

/-- The message of an entry is sent. -/
def State.postMessage (s : State) (i : Nat) (e : List Byte) : State :=
  let c := lat e 24 2
  let op := lat e 26 1
  let p := s.hbmRead (lat e 16 8) (lat e 4 4 % 2 ^ 31)
  match (s.conduit c).map (·.cstate) with
  | some 1 =>
    if op = 0x22 then (s.sendUnseq c 0x22 0 p none).posted i stOK
    else s.enqueue c { OutMsg.mk' op (serviceOf op 6) p (postedFor i op p) with key := lat e 28 4, imm := lat e 32 4 }
  | _ => s.posted i stBOUNDS

/-- The frame of an entry waits for its port. -/
def State.postFrame (s : State) (i : Nat) (e : List Byte) : State :=
  let p := lat e 24 1
  if p < 64 ∧ s.flag (Fd.TRL_PORT_STATUS_UP p) then
    let f := s.hbmRead (lat e 16 8) (lat e 4 4 % 2 ^ 31)
    s.onTrl fun t => { t with frames := t.frames ++ [(p, i, f)] }
  else s.posted i stBOUNDS

/-- The next entry of mailbox 15 is taken (R408). -/
def State.takePosting (s : State) : State :=
  let i := s.trl.postNext
  let e := s.hbmRead (s.fd (Fd.EVC_MB_BASE_ADDR 15) + i % s.mbSize 15 * 64) 64
  let s := s.onTrl fun t => { t with postings := t.postings ++ [⟨i, none⟩], postNext := (i + 1) % 2 ^ 32 }
  if !postedOk e then s.posted i stFORMAT
  else if lat e 0 2 = 0x10 then s.postMessage i e
  else s.postFrame i e

/-- A store to EVC_MB_IDX[15]: PI advances, but not past CI + 2^n (Table 18-3). -/
def State.mbPost (s : State) (pi : Nat) : State :=
  let ci := s.fd (Fd.EVC_MB_IDX_CI 15)
  let old := s.fd (Fd.EVC_MB_IDX_PI 15)
  if !s.flag (Fd.EVC_MB_CFG_ENABLE 15) || s.mbSize 15 < serialDist 32 ci pi || serialDist 32 ci pi < serialDist 32 ci old then s
  else
    let s := s.setFd (Fd.EVC_MB_IDX_PI 15) pi
    ((List.range (serialDist 32 old pi)).foldl (fun s _ => s.takePosting) s).trlDone

/-! ## Timers and cores (R395-R397) -/

/-- The machine timer interrupt of a core (R396). -/
def State.timerLine (s : State) (c : Nat) : State :=
  s.onGlb fun g => { g with
    timerIrq := if s.fd (Fd.GLB_MTIMECMP_CMP c) ≤ s.mtime then c :: g.timerIrq.filter (· != c) else g.timerIrq.filter (· != c) }

/-- A core takes a machine software interrupt while GLB_MSIP is set (R396). -/
def State.softLine (s : State) (c : Nat) : Bool := s.flag (Fd.GLB_MSIP_MSIP c)

/-- A store to GLB_WDOG: it writes PERIOD_MS, and KICK if set (R397). -/
def State.wdogWrite (s : State) (v : Nat) : State :=
  (s.storeFields 0 Reg.GLB_WDOG v).onEvc fun e => { e with
    wdogAt := s.mtime, wdogFirst := if bits v 0 0 = 1 then false else e.wdogFirst }

/-- A store to GLB_CORE_CTL[c] (R395). -/
def State.coreCtl (s : State) (c v : Nat) : State :=
  let s := s.storeFields 0 (Reg.GLB_CORE_CTL c) v
  if bits v 1 1 = 1 then (s.setFd (Fd.GLB_CORE_CTL_RUN c) 0).setFd (Fd.GLB_CORE_STATUS_STATE c) 0
  else if bits v 0 0 = 1 ∧ s.fd (Fd.GLB_CORE_STATUS_STATE c) = 0 then
    (s.setFd (Fd.GLB_CORE_STATUS_STATE c) 1).onGlb fun g => { g with
      coreAt := tset g.coreAt c (s.fd (Fd.GLB_CORE_CTL_BOOT_ADDR c) * 4) }
  else s

/-! ## Meanings -/

/-- EVC_CLAIM: a load of EVC_CLAIM[core] (R400). -/
def execEvcClaim (core : Fin 16) (s : State) : Host.Outcome State Fault Refusal := act s fun s => s.claim core.val

/-- EVC_COMPLETE: a store to EVC_COMPLETE[core] (R401). -/
def execEvcComplete (core : Fin 16) (v : Word) (s : State) : Host.Outcome State Fault Refusal :=
  act s fun s => s.complete core.val (bits v.toNat 10 0)

/-- EVC_SRC_WRITE: a store to EVC_SRC[src] (R402). -/
def execEvcSrcWrite (src : Fin 2048) (v : Word) (s : State) : Host.Outcome State Fault Refusal :=
  act s fun s => s.srcWrite src.val v.toNat

/-- MAILBOX_ENABLE: a store to EVC_MB_CFG with ENABLE set (Table 18-11). -/
def execMailboxEnable (mb : Fin 16) (v : Word) (s : State) : Host.Outcome State Fault Refusal :=
  actIf s (bits v.toNat 63 63 == 1) fun s => s.mbCfg mb.val v.toNat

/-- MAILBOX_CONSUME: a store to EVC_MB_IDX of an inbound mailbox (R405, R407). -/
def execMailboxConsume (mb : Fin 16) (v : Word) (s : State) : Host.Outcome State Fault Refusal :=
  act s fun s => s.mbConsume mb.val (bits v.toNat 31 0)

/-- MAILBOX_POST: a store to EVC_MB_IDX[15] (R408). -/
def execMailboxPost (v : Word) (s : State) : Host.Outcome State Fault Refusal := act s fun s => s.mbPost (bits v.toNat 63 32)

/-- MTIME_COMPARE (R396). -/
def execMtimeCompare (core : Fin 16) (s : State) : Host.Outcome State Fault Refusal := act s fun s => s.timerLine core.val

/-- WATCHDOG_KICK: a store to GLB_WDOG with KICK set (R397). -/
def execWatchdogKick (v : Word) (s : State) : Host.Outcome State Fault Refusal :=
  actIf s (bits v.toNat 0 0 == 1) fun s => s.wdogWrite v.toNat

/-- CORE_RUN: a store to GLB_CORE_CTL with RUN set and RESET clear (R395). -/
def execCoreRun (core : Fin 16) (v : Word) (s : State) : Host.Outcome State Fault Refusal :=
  actIf s (bits v.toNat 1 0 == 1) fun s => s.coreCtl core.val v.toNat

/-- CORE_RESET: a store to GLB_CORE_CTL with RESET set (R395). -/
def execCoreReset (core : Fin 16) (v : Word) (s : State) : Host.Outcome State Fault Refusal :=
  actIf s (bits v.toNat 1 1 == 1) fun s => s.coreCtl core.val v.toNat

/-- GLB_TEMP_SAMPLE (Table 18-9); a reading below 0 °C is held as 0. -/
def execGlbTempSample (t : Int) (s : State) : Host.Outcome State Fault Refusal :=
  act s fun s =>
    let s := s.setFd Fd.GLB_TEMP_MAX_C (min 255 t.toNat)
    if (s.fd Fd.GLB_TEMP_ALARM_C : Int) ≤ t then s.raise Fd.GLB_TEMP_ALARM else s

end Sys2Proof.Machine
end

