-- ==== Sys2Proof/Machine/Mgt.lean ====
section
/-! DEFINITION. The management port, compositions, usage records and temperature histories (chapter 20). -/

namespace Sys2Proof.Machine

/-! ## Rings (R433, R434) -/

/-- The frame is one the port accepts: Ethernet II, not too long, for this address (R433). `f` is the frame without FCS. -/
def State.mgtAccepts (s : State) (f : List Byte) : Bool :=
  let dst := bat f 0 6
  14 ≤ f.length && f.length ≤ 9212 && 0x600 ≤ bat f 12 2 &&
  (dst == s.fd Fd.MGT_MAC_MAC || dst == 2 ^ 48 - 1 || (s.flag Fd.MGT_CTL_MCAST && lat f 0 1 % 2 == 1))

/-- The address of an entry of a ring. -/
def State.mgtEntry (s : State) (ring : Nat) (i : Nat) : Nat :=
  bits (s.reg ring) 39 0 + 16 * (i % 2 ^ bits (s.reg ring) 63 60)

/-- FLAGS of an entry with bits set. -/
def State.mgtFlags (s : State) (a v : Nat) : State := s.hbmWrite (a + 10) (le 2 (lat (s.hbmRead (a + 10) 2) 0 2 ||| v))

/-- A frame arrives on the management port. -/
def State.mgtReceive (s : State) (f : List Byte) (fcsOk : Bool) : State :=
  if !s.flag Fd.MGT_CTL_ENABLE || !fcsOk || !s.mgtAccepts f then s else
  let pi := s.fd Fd.MGT_RX_IDX_PI
  if pi = s.fd Fd.MGT_RX_IDX_CI then (s.inc Fd.MGT_RX_DROPS_COUNT).raise Fd.MGT_ERR_RX_DROP
  else
    let a := s.mgtEntry Reg.MGT_RX_RING pi
    let s := (s.hbmWrite (lat (s.hbmRead a 8) 0 8) f).hbmWrite (a + 8) (le 2 f.length)
    ((s.mgtFlags a 1).inc Fd.MGT_RX_FRAMES_COUNT).setFd Fd.MGT_RX_IDX_PI ((pi + 1) % 2 ^ 32)

/-- A store to MGT_RX_IDX: CI, unless it passes PI + 2^n. -/
def State.mgtRxPost (s : State) (ci : Nat) : State :=
  if 2 ^ s.fd Fd.MGT_RX_RING_LOG2SIZE < serialDist 32 (s.fd Fd.MGT_RX_IDX_PI) ci then s else s.setFd Fd.MGT_RX_IDX_CI ci

/-- The frame at CI of the transmit ring is sent, or refused for its length. -/
def State.mgtSend (s : State) : State :=
  let ci := s.fd Fd.MGT_TX_IDX_CI
  if !s.flag Fd.MGT_CTL_ENABLE || ci == s.fd Fd.MGT_TX_IDX_PI then s else
  let a := s.mgtEntry Reg.MGT_TX_RING ci
  let n := lat (s.hbmRead (a + 8) 2) 0 2
  let f := s.hbmRead (lat (s.hbmRead a 8) 0 8) n
  let s := if n < 60 ∨ 9212 < n then s.mgtFlags a 3
    else ((s.onMgt fun m => { m with out := m.out ++ [f ++ le 4 (fcs f)] }).inc Fd.MGT_TX_FRAMES_COUNT).mgtFlags a 1
  s.setFd Fd.MGT_TX_IDX_CI ((ci + 1) % 2 ^ 32)

/-- LINK_UP changes. -/
def State.mgtLink (s : State) (up : Bool) : State :=
  if s.flag Fd.MGT_STATUS_LINK_UP = up ∨ (up ∧ !s.flag Fd.MGT_CTL_ENABLE) then s
  else (s.setFd Fd.MGT_STATUS_LINK_UP (if up then 1 else 0)).raise Fd.MGT_ERR_LINK_CHANGE

/-! ## Usage (R438-R440) -/

/-- Quantity k of a partition as of the last boundary, and as of its last record. -/
def State.sampled (s : State) (p k : Nat) : Nat := tget 0 s.mgt.sampled (p * 32 + k)
def State.recorded (s : State) (p k : Nat) : Nat := tget 0 s.mgt.recorded (p * 32 + k)

/-- A quantity in its unit: engine time in whole µs. -/
def inUnit (k n : Nat) : Nat := if k = 5 then n / 100 else n

/-- A usage record (Table 20-3). `since` is what is taken off each quantity. -/
def State.usageRecord (s : State) (p ty start : Nat) (since : Nat → Nat) : List Byte :=
  le 2 ty ++ le 1 p ++ zeros 1 ++ le 4 (s.fd (Fd.MGT_PART_COMP_COMP_ID p)) ++ le 4 (s.fd (Fd.MGT_PART_COMP_MAP_EPOCH p)) ++ zeros 4 ++
  le 8 start ++ le 8 s.mgt.sampleAt ++
  (List.range 23).flatMap (fun k => le 8 (inUnit k (s.sampled p k) - inUnit k (since k))) ++
  le 4 (s.pgt.seqs.filter (fun q => hPart q.2.handle == p)).length ++ zeros 36

/-- Records the log has room for. -/
def State.logRoom (s : State) : Nat :=
  2 ^ s.fd Fd.MGT_LOG_BASE_LOG2SIZE - serialDist 32 (s.fd Fd.MGT_LOG_IDX_CI) (s.fd Fd.MGT_LOG_IDX_PI)

/-- A record of a partition enters the log; its next record counts from here. -/
def State.logRecord (s : State) (p ty : Nat) : State :=
  let r := s.usageRecord p ty (tget 0 s.mgt.recordAt p) (s.recorded p)
  let pi := s.fd Fd.MGT_LOG_IDX_PI
  let s := s.hbmWrite (s.fd Fd.MGT_LOG_BASE_ADDR + 256 * (pi % 2 ^ s.fd Fd.MGT_LOG_BASE_LOG2SIZE)) r
  (s.setFd Fd.MGT_LOG_IDX_PI ((pi + 1) % 2 ^ 32)).onMgt fun m => { m with
    recordAt := tset m.recordAt p m.sampleAt
    recorded := (List.range 23).foldl (fun t k => tput 0 t (p * 32 + k) (tget 0 m.sampled (p * 32 + k))) m.recorded }

/-- What the partition holds for the twin: MIRROR-area units and hot pages, in KiB (Table 20-2). -/
def State.mirrorKib (s : State) (p : Nat) : Nat :=
  let mine := fun (u : Nat × LUnit) => s.areaOf u.1 == some 2 && (match u.2.entry with
    | .at_ a => ((tfind s.flt.phys a).map (·.key)) == some p
    | _ => s.flt.writes.any (fun w => w.lunit == u.1 && w.key == p))
  let hot := s.twn.hot.foldl (fun n h => match tfind s.pgt.descs h.1 with
    | some x => if x.part = p then n + 2 * frameUnits x.frameCode else n
    | none => n) 0
  64 * (s.flt.map.filter mine).length + hot

/-- Engine time up to a boundary (R439). -/
def State.engineUpTo (s : State) (us e : Nat) : State :=
  match tfind s.ae.running e with
  | none => s
  | some (i, k) =>
    match s.stream i with
    | none => s
    | some x =>
      let t := (tfind s.ae.busySince e).getD s.mtime
      if ((s.item i k).bind (·.rerunOf)).isSome then s else s.use x.part 5 (us * 100 - max t (s.mgt.sampleAt * 100))

/-- BYTE_MS of a partition for one ms. -/
def State.byteMs (s : State) (p : Nat) : State :=
  (((List.range 4).foldl (fun s t => s.use p t (s.usage p t / 1024)) s)).use p 4 (s.mirrorKib p)

/-- A composition change takes effect: a CLOSE record, then the new COMP_ID and MAP_EPOCH (R437). -/
def State.compose (s : State) (p : Nat) (c : Nat × Nat) : State :=
  let s := if s.flag Fd.MGT_USAGE_CTL_ENABLE then s.logRecord p 2 else s
  (s.setFd (Fd.MGT_PART_COMP_COMP_ID p) c.1).setFd (Fd.MGT_PART_COMP_MAP_EPOCH p) c.2

/-- The next 1 ms boundary is sampled (R438, R439). -/
def State.usageSample (s : State) : State :=
  let b := (s.mgt.sampleAt / 1000 + 1) * 1000
  if s.usec < b then s else
  let s := (s.ae.running.map Prod.fst).foldl (fun s e => s.engineUpTo b e) s
  let s := (List.range 16).foldl State.byteMs s
  let s := s.onMgt fun m => { m with sampled := m.usage, sampleAt := b, comps := [] }
  s

/-- A sample, with the composition changes that waited for it. -/
def State.usageBoundary (s : State) : State :=
  let todo := s.mgt.comps
  let t := s.usageSample
  if t.mgt.sampleAt = s.mgt.sampleAt then s else todo.foldl (fun s (c : Nat × (Nat × Nat)) => s.compose c.1 c.2) t

/-- A write to MGT_PART_COMP (R437). Changes that already wait keep their room in the log. -/
def State.composition (s : State) (p comp epoch : Nat) : State :=
  let waiting := (s.mgt.comps.filter (fun c => c.1 != p)).length
  if serialLt 32 (s.fd (Fd.MGT_PART_COMP_MAP_EPOCH p)) epoch && waiting < s.logRoom then
    s.onMgt fun m => { m with comps := tset m.comps p (comp, epoch) }
  else s.raise Fd.MGT_ERR_COMP_REJECT

/-- A partition whose record is due at a scheduled point. -/
def State.recordDue (s : State) (p : Nat) : Bool :=
  (s.fd (Fd.MGT_PART_COMP_COMP_ID p) != 0 || (List.range 23).any (fun k => s.sampled p k != s.recorded p k)) &&
  (tget 0 s.mgt.recordAt p != s.mgt.sampleAt)

/-- A scheduled point (R440). -/
def State.usagePeriodic (s : State) : State :=
  let period := s.fd Fd.MGT_USAGE_CTL_PERIOD_S * 1000000
  if !s.flag Fd.MGT_USAGE_CTL_ENABLE || period == 0 then s else
  let point := s.mgt.sampleAt / period * period
  if point ≤ s.mgt.periodAt then s else
  let s := (List.range 16).foldl (fun s p =>
    if !s.recordDue p then s
    else if s.logRoom = 0 then s.raise Fd.MGT_ERR_LOG_FULL
    else s.logRecord p 1) s
  s.onMgt fun m => { m with periodAt := point }

/-- A store to MGT_USAGE_SEL: the snapshot of R439. -/
def State.usageSnapshot (s : State) (v : Nat) : State :=
  let s := s.storeFields 0 Reg.MGT_USAGE_SEL v
  let r := s.usageRecord (s.fd Fd.MGT_USAGE_SEL_PART) 3 0 (fun _ => 0)
  (List.range 32).foldl (fun s k => s.setReg (Reg.MGT_USAGE_DATA0 + 8 * k) (lat r (8 * k) 8)) s

/-! ## Temperatures (R441) -/

/-- The bin of a temperature. -/
def tempBin (t : Nat) : Nat := min 63 (t / 2)

/-- HBM_STATUS.TEMP takes the stacks' readings, and the histograms count a second. -/
def State.tempHist (s : State) (hbm : List Byte) : State :=
  let s := (List.range 8).foldl (fun s i => match hbm[i]? with
    | some t => s.setFd (Fd.HBM_STATUS_TEMP i) t.toNat
    | none => s) s
  let top := (List.range 8).foldl (fun n i => max n (s.fd (Fd.HBM_STATUS_TEMP i))) 0
  (s.inc (Fd.MGT_TEMP_HIST_DIE_SECONDS (tempBin (s.fd Fd.GLB_TEMP_MAX_C)))).inc (Fd.MGT_TEMP_HIST_HBM_SECONDS (tempBin top))

/-! ## Meanings -/

/-- MGT_FRAME_RECEIVE (R433, R434). -/
def execMgtFrameReceive (frame : List Byte) (fcsOk : Bool) (s : State) : Host.Outcome State Fault Refusal :=
  act s fun s => s.mgtReceive frame fcsOk

/-- MGT_RX_POST: a store to MGT_RX_IDX (R434). -/
def execMgtRxPost (v : Word) (s : State) : Host.Outcome State Fault Refusal := act s fun s => s.mgtRxPost (bits v.toNat 31 0)

/-- MGT_TX_POST: a store to MGT_TX_IDX (R434). -/
def execMgtTxPost (v : Word) (s : State) : Host.Outcome State Fault Refusal :=
  act s fun s => s.setFd Fd.MGT_TX_IDX_PI (bits v.toNat 63 32)

/-- MGT_TX_DONE (R434). -/
def execMgtTxDone (s : State) : Host.Outcome State Fault Refusal := act s State.mgtSend

/-- MGT_LINK_CHANGE (Table 20-6). -/
def execMgtLinkChange (up : Bool) (s : State) : Host.Outcome State Fault Refusal := act s fun s => s.mgtLink up

/-- COMPOSITION_WRITE: a store to MGT_PART_COMP (R437). -/
def execCompositionWrite (part : Fin 16) (v : Word) (s : State) : Host.Outcome State Fault Refusal :=
  act s fun s => s.composition part.val (bits v.toNat 63 32) (bits v.toNat 31 0)

/-- USAGE_SAMPLE (R437-R439). -/
def execUsageSample (s : State) : Host.Outcome State Fault Refusal := act s State.usageBoundary

/-- USAGE_PERIODIC (R440). -/
def execUsagePeriodic (s : State) : Host.Outcome State Fault Refusal := act s State.usagePeriodic

/-- USAGE_SNAPSHOT: a store to MGT_USAGE_SEL (R439). -/
def execUsageSnapshot (v : Word) (s : State) : Host.Outcome State Fault Refusal := act s fun s => s.usageSnapshot v.toNat

/-- MGT_TEMP_SAMPLE (R441). -/
def execMgtTempSample (hbm : List Byte) (s : State) : Host.Outcome State Fault Refusal := act s fun s => s.tempHist hbm

end Sys2Proof.Machine
end

