-- ==== Sys2Proof/Machine/Tap.lean ====
section
/-! DEFINITION. The IEEE 1149.1 port (R459). -/

namespace Sys2Proof.Machine

/-- Cells of the boundary register. -/
def boundaryCells : Nat := 846

/-- Every engine, gecko and flash channel is idle, and AE_GCTL.ENABLE is 0 (R459). -/
def State.idleForTest (s : State) : Bool :=
  !s.flag Fd.AE_GCTL_ENABLE && s.ae.running.isEmpty && s.hb.geckos.all (fun g => g.2.state != .running && g.2.busy.isEmpty) &&
  s.flt.writes.all (fun w => w.pua.isNone) && s.flt.sbs.all (fun b => b.2.sbState != .erasing)

/-- A code in the instruction register, and what the data register it selects captures. -/
def Tap.select (t : Tap) (code : Nat) (captured : List Bool) : Tap := { t with ir := code, captured := captured, driving := false }

/-- Update cells loaded: those shifted in, the rest as they were. -/
def Tap.load (t : Tap) (cells : List Bool) : Tap :=
  { t with boundary := cells.take boundaryCells ++ t.boundary.drop (min cells.length boundaryCells) }

/-- The levels the boundary register captures at the balls. -/
def State.ballLevels (s : State) : List Bool := (List.range boundaryCells).map (Config.ball s.free)

/-- The bits of a number, least significant first. -/
def bitsOf (n v : Nat) : List Bool := (List.range n).map (fun i => v / 2 ^ i % 2 == 1)

/-- The code selects BYPASS (R459). -/
def isBypass (code : Nat) : Bool := !(code == 0x00 || code == 0x01 || code == 0x02 || code == 0x20)

/-- An act of the port: PORST_N low holds its output at high impedance (R448). -/
def tapAct (s : State) (f : State → State) : Host.Outcome State Fault Refusal :=
  actAlways s fun s => if s.glb.hold = .porst then s else f s

/-- EXTEST: the cells drive the balls where the device is idle; otherwise BYPASS is selected. -/
def execExtest (cells : List Bool) (s : State) : Host.Outcome State Fault Refusal :=
  tapAct s fun s =>
    if s.idleForTest then
      (s.onTap fun t => { (t.select 0x00 s.ballLevels).load cells with driving := true }).drawn
    else s.onTap fun t => t.select 0xFF [false]

/-- IDCODE. -/
def execIdcode (s : State) : Host.Outcome State Fault Refusal := tapAct s fun s => s.onTap fun t => t.select 0x01 (bitsOf 32 0xB0816A9B)

/-- SAMPLE/PRELOAD. -/
def execSamplePreload (cells : List Bool) (s : State) : Host.Outcome State Fault Refusal :=
  tapAct s fun s => (s.onTap fun t => (t.select 0x02 s.ballLevels).load cells).drawn

/-- DEBUG: the debug access port is selected. -/
def execTapDebug (s : State) : Host.Outcome State Fault Refusal := tapAct s fun s => s.onTap fun t => t.select 0x20 []

/-- BYPASS, by its own code or one not listed. -/
def execBypass (ir : Byte) (s : State) : Host.Outcome State Fault Refusal :=
  tapAct s fun s => if isBypass ir.toNat then s.onTap fun t => t.select 0xFF [false] else s

end Sys2Proof.Machine
end

