-- ==== Sys2Proof/Machine/Views.lean ====
section
/-! DEFINITION. Register fields that show state held elsewhere: what a load finds in them (the register tables). -/

namespace Sys2Proof.Machine

/-- The index of an address in an array of n registers at a stride. -/
def arr (base n stride a : Nat) : Option Nat :=
  if base ≤ a ∧ (a - base) % stride = 0 ∧ (a - base) / stride < n then some ((a - base) / stride) else none

/-- A field of a word shown with a value, at its maximum where it does not fit. -/
def shown (f : Fd) (v : Nat) : Fd × Nat := (f, min v (2 ^ (f.hi + 1 - f.lo) - 1))

def bit (b : Bool) : Nat := if b then 1 else 0

/-- A mask of the numbers below n that satisfy p. -/
def maskOf (n : Nat) (p : Nat → Bool) : Nat := (List.range n).foldl (fun m i => if p i then m + 2 ^ i else m) 0

/-! ## Blocks -/

def State.viewGlb (s : State) (a : Nat) : List (Fd × Nat) :=
  if a = Reg.GLB_MTIME then [shown Fd.GLB_MTIME_TIME s.mtime]
  else if a = Reg.GLB_USEC then [shown Fd.GLB_USEC_USEC s.usec]
  else if a = Reg.GLB_SERIAL then [shown Fd.GLB_SERIAL_SERIAL Config.serial.toNat]
  else []

def State.viewEvc (s : State) (a : Nat) : List (Fd × Nat) :=
  match arr (Reg.EVC_ACTIVE 0) 16 0x20 a, arr (Reg.EVC_PEND 0) 32 8 a, arr (Reg.EVC_CQ_PEND 0) 64 8 a, arr (Reg.EVC_SRC 0) 2048 8 a with
  | some c, _, _, _ => [shown (Fd.EVC_ACTIVE_INSVC c) (s.evc.insvc.filter (fun x => x.2 == c)).length]
  | _, some w, _, _ => [shown (Fd.EVC_PEND_BITS w) (maskOf 64 fun i => s.srcPending (64 * w + i))]
  | _, _, some i, _ => [shown (Fd.EVC_CQ_PEND_BITS i) (maskOf 64 fun k => s.cqPending (64 * i + k))]
  | _, _, _, some n =>
    [shown (Fd.EVC_SRC_LEVEL n) (bit (s.level n)), shown (Fd.EVC_SRC_PENDING n) (bit (s.srcPending n)),
     shown (Fd.EVC_SRC_INSVC n) (bit (tfind s.evc.insvc n).isSome), shown (Fd.EVC_SRC_OWNER n) (tget 0 s.evc.insvc n)]
  | _, _, _, _ => []

def State.viewPgt (s : State) (a : Nat) : List (Fd × Nat) :=
  if a = Reg.PGT_EPOCH then [shown Fd.PGT_EPOCH_EPOCH (s.pgt.epoch % 2 ^ 32)]
  else if a = Reg.PGT_MIN_EPOCH then
    [shown Fd.PGT_MIN_EPOCH_NONE (bit s.minEpoch.isNone), shown Fd.PGT_MIN_EPOCH_MIN (s.minEpoch.getD 0 % 2 ^ 32)]
  else if a = Reg.PGT_SEQ_COUNT then [shown Fd.PGT_SEQ_COUNT_COUNT (s.pgt.seqs.filter (fun q => q.1 < 2 ^ 24)).length]
  else if a = Reg.PGT_DESC_COUNT then [shown Fd.PGT_DESC_COUNT_COUNT s.pgt.descs.length]
  else if a = Reg.PGT_RECLAIM_PEND then [shown Fd.PGT_RECLAIM_PEND_COUNT s.pgt.reclaim.length]
  else []

def State.viewPdir (s : State) (a : Nat) : List (Fd × Nat) :=
  if a = Reg.PDIR_COUNT then [shown Fd.PDIR_COUNT_COUNT s.pdir.entries.length]
  else if a = Reg.PDIR_PURGE_PEND then [shown Fd.PDIR_PURGE_PEND_COUNT s.pdir.purges.length]
  else match arr (Reg.PDIR_PART_COUNT 0) 16 8 a with
  | some p => [shown (Fd.PDIR_PART_COUNT_COUNT p) (s.pdir.entries.filter (fun e => e.2.part == p)).length]
  | none => []

/-- The unit an engine processes. -/
def State.curUnit (s : State) (i k : Nat) : Nat :=
  match ((s.item i k).bind (·.todo)).bind (·[0]?) with
  | some u => u.ix
  | none => 0

def State.viewAe (s : State) (a : Nat) : List (Fd × Nat) :=
  if a = Reg.AE_INUSE then [shown Fd.AE_INUSE_COUNT s.ae.streams.length]
  else match arr (Reg.AE_STATUS 0) 80 0x10000 a, arr (Reg.AE_CUR 0) 80 0x10000 a, arr (Reg.AE_PART_STREAMS 0) 16 8 a with
  | some n, _, _ => [shown (Fd.AE_STATUS_QDEPTH n) (s.engineQueue n).length, shown (Fd.AE_STATUS_BUSY n) (bit (tfind s.ae.running n).isSome)]
  | _, some n, _ => match tfind s.ae.running n with
    | some (i, k) => [shown (Fd.AE_CUR_VALID n) 1, shown (Fd.AE_CUR_STREAM n) i, shown (Fd.AE_CUR_ITEM n) k,
        shown (Fd.AE_CUR_UNIT n) (s.curUnit i k)]
    | none => []
  | _, _, some p => [shown (Fd.AE_PART_STREAMS_COUNT p) (s.ae.streams.filter (fun x => x.2.part == p)).length]
  | _, _, _ => []

def State.viewMrg (s : State) (a : Nat) : List (Fd × Nat) :=
  if a = Reg.MRG_CREDIT_USED then [shown Fd.MRG_CREDIT_USED_COUNT s.creditsUsed]
  else match arr (Reg.MRG_UNIT_STATUS 0) 4 8 a with
  | some u =>
    let mine := s.ae.mergeQ.filter (fun m => s.mergeUnit m.stream m.r.row == u)
    match mine with
    | [] => []
    | m :: _ => [shown (Fd.MRG_UNIT_STATUS_QBYTES u) (mine.foldl (fun n x => n + x.r.bytes.length) 0),
        shown (Fd.MRG_UNIT_STATUS_BUSY u) 1, shown (Fd.MRG_UNIT_STATUS_STREAM u) m.stream]
  | none => []

/-- The digests charged to a partition (R134, R135): valid, being written, and released but not yet reclaimed. -/
def State.digestsOf (s : State) (p : Nat) : List Nat :=
  (s.pgt.descs.filter (fun d => d.2.part == p && d.2.digestValid)).map (fun d => d.2.digest) ++
  s.hb.jobs.filterMap (fun j => match j.use with
    | .digest _ g part => if part = p then some g else none
    | _ => none) ++
  (s.pgt.reclaim.filter (fun r => r.part == p)).filterMap (·.digest)

/-- Digest bytes of a partition (Table 9-10). -/
def State.digestBytes (s : State) (p : Nat) : Nat := (s.digestsOf p).foldl (fun n g => n + 16 * tget 0 s.tier.digests g) 0

def State.viewTier (s : State) (a : Nat) : List (Fd × Nat) :=
  if a = Reg.TIER_STATUS then
    let live := fun (t : Tbl Extent) => (t.filter (fun e => e.2.estate != .free)).length
    [shown Fd.TIER_STATUS_BORROWED_GIB (live s.tier.borrowed), shown Fd.TIER_STATUS_LENT_OUT_GIB (live s.tier.lent),
     shown Fd.TIER_STATUS_FREE_MIB (s.freeTier2 / 2 ^ 20)]
  else if Reg.TIER_USAGE 0 0 ≤ a ∧ a < Reg.TIER_DIGEST 0 ∧ a % 0x40 ≥ 0x20 then
    [shown (Fd.TIER_USAGE_KIB ((a - Reg.TIER_USAGE 0 0) / 0x40) (a % 0x40 / 8 - 4)) (s.usage ((a - Reg.TIER_USAGE 0 0) / 0x40) (a % 0x40 / 8 - 4) / 1024)]
  else match arr (Reg.TIER_DIGEST 0) 16 8 a with
  | some p => [shown (Fd.TIER_DIGEST_KIB p) (s.digestBytes p / 1024)]
  | none => []

/-- GK_STATUS.STATE. -/
def GeckoState.code : GeckoState → Nat
  | .stopped => 0 | .running => 1 | .waiting => 2 | .stalled => 3 | .halted => 4

def State.viewHbm (s : State) (a : Nat) : List (Fd × Nat) :=
  let st := (a - 0x44000000) / 0x100000
  let off := (a - 0x44000000) % 0x100000
  if off < 0x80000 then
    match arr 0x100 32 0x20 off with
    | some c =>
      let k := st * 32 + c
      [shown (Fd.HBM_CH_STATUS_LOCKS st c) (s.lockTable k).length,
       shown (Fd.HBM_CH_STATUS_RETIRED st c) (bit (s.hb.retired.contains k || s.hb.failed.contains k)),
       shown (Fd.HBM_CH_STATUS_TRAINED st c) (bit (s.hb.trained.contains k))]
    | none => []
  else
    let c := (off - 0x80000) / 0x1000
    let k := st * 32 + c
    let g := s.gk k
    let r := (off - 0x80000) % 0x1000
    if r = 0x08 then
      [shown (Fd.GK_STATUS_PC st c) g.pc.toNat, shown (Fd.GK_STATUS_PENDING st c) (maskOf 8 g.rung.contains),
       shown (Fd.GK_STATUS_STATE st c) (if g.started && g.stallLeft != 0 then 3 else g.state.code)]
    else if 0x100 ≤ r ∧ r < 0x200 then [(⟨a, 63, 0⟩, unle (bytesOf g.cmd (r - 0x100) 8))]
    else []

def State.viewFlt (s : State) (a : Nat) : List (Fd × Nat) :=
  if a = Reg.FLT_STATUS then [shown Fd.FLT_STATUS_FREE_SB (if s.fltUp then s.freeSbs else 0)]
  else if a = Reg.FLT_HEALTH then
    [shown Fd.FLT_HEALTH_SPARE_PCT s.sparePct, shown Fd.FLT_HEALTH_WEAR_PCT s.wearMean, shown Fd.FLT_HEALTH_WEAR_MAX_PCT s.wearMax,
     shown Fd.FLT_HEALTH_LUNS_FAILED s.flt.lunFail.length]
  else match arr (Reg.FLT_CH_STATUS 0) 16 8 a with
  | some c => [shown (Fd.FLT_CH_STATUS_TRAINED c) (bit (tfind s.flt.rates c).isSome),
      shown (Fd.FLT_CH_STATUS_QDEPTH c) (s.flt.writes.filter (fun w => w.pua.any (fun p => puaLun p / 32 == c))).length]
  | none => []

def State.viewRmo (s : State) (a : Nat) : List (Fd × Nat) :=
  if a = Reg.RMO_CTR_CFG then
    let k := s.fd Fd.RMO_CTR_SEL_INDEX
    [shown Fd.RMO_CTR_CFG_PENDING (s.rmo.wrs.filter (fun w => w.ctr == k && w.firedAt.isNone)).length]
  else match arr (Reg.RMO_PART_REGIONS 0) 16 8 a with
  | some p => [shown (Fd.RMO_PART_REGIONS_COUNT p) (s.rmo.regions.filter (fun r => r.2.rstate != 0 && r.2.part == p)).length]
  | none => []

def State.viewSch (s : State) (a : Nat) : List (Fd × Nat) :=
  if a = Reg.SCH_HELD then
    [shown Fd.SCH_HELD_COUNT (s.trl.conduits.foldl (fun n c => n + (c.2.queue.filter (·.hold)).length) 0)]
  else []

/-- Bytes of the twin table (R319): records of 64, descriptors of 32 and page-table entries of 4 bytes. -/
def State.twinTableBytes (s : State) : Nat :=
  s.pgt.seqs.foldl (fun n q => if q.1 < 2 ^ 24 then n else n + 64 + 4 * q.2.pt.length) 0 +
  32 * (s.pgt.descs.filter (fun d => d.2.ofTwin)).length

def State.viewTwn (s : State) (a : Nat) : List (Fd × Nat) :=
  if a = Reg.TWN_STATUS then
    [shown Fd.TWN_STATUS_PEER_HEALTH s.twn.peerHealth, shown Fd.TWN_STATUS_SUSPECT (bit s.twn.suspect),
     shown Fd.TWN_STATUS_LEASE (bit s.leaseHolds), shown Fd.TWN_STATUS_ROLE (roleCode s.twn.role)]
  else if a = Reg.TWN_EPOCH then [shown Fd.TWN_EPOCH_EPOCH (s.twn.epoch % 2 ^ 32)]
  else if a = Reg.TWN_MIRROR_USE then
    let frames := fun (p : Nat × Desc → Bool) => (s.pgt.descs.filter p).foldl (fun n d => n + 2048 * frameUnits d.2.frameCode) 0
    [shown Fd.TWN_MIRROR_USE_META_MIB (s.twinTableBytes / 2 ^ 20),
     shown Fd.TWN_MIRROR_USE_HOT_MIB (frames (fun d => (tfind s.twn.hot d.1).isSome) / 2 ^ 20),
     shown Fd.TWN_MIRROR_USE_STAGE_MIB (frames (fun d => d.2.ofTwin && d.2.loc.tier == .hbm && (tfind s.twn.hot d.1).isNone) / 2 ^ 20)]
  else if a = Reg.TWN_XLOG_SEL then [shown Fd.TWN_XLOG_SEL_NEXT (s.twn.xnext % 64)]
  else []

/-- A molt of the engine is queued or runs. -/
def State.moltOf (s : State) (n : Nat) : Bool := (tfind s.sec.molts n).isSome || s.sec.molting.any (fun m => m.1 == n)

def State.viewSec (s : State) (a : Nat) : List (Fd × Nat) :=
  if a = Reg.SEC_MOLT_LO then [shown Fd.SEC_MOLT_LO_ENGINES (maskOf 64 s.moltOf)]
  else if a = Reg.SEC_MOLT_HI then [shown Fd.SEC_MOLT_HI_ENGINES (maskOf 16 fun i => s.moltOf (64 + i))]
  else if a = Reg.SEC_FUSE_STATUS then [shown Fd.SEC_FUSE_STATUS_PROGRAMMED s.slotMask]
  else match arr Reg.SEC_MEAS_DATA0 4 8 a with
  | some k => [(⟨a, 63, 0⟩, lat (s.meas (s.fd Fd.SEC_MEAS_SEL_SLOT)) (8 * k) 8)]
  | none => []

/-- Fields of the register at an address that show other state. -/
def State.views (s : State) (a : Nat) : List (Fd × Nat) :=
  if a < 0x40000000 ∨ 0x48000000 ≤ a then []
  else if a < 0x40100000 then s.viewGlb a
  else if a < 0x40200000 then s.viewEvc a
  else if a < 0x41000000 then []
  else if a < 0x42000000 then s.viewAe a
  else if a < 0x42800000 then s.viewMrg a
  else if a < 0x42C00000 then s.viewPgt a
  else if a < 0x43000000 then s.viewPdir a
  else if a < 0x44000000 then s.viewTier a
  else if a < 0x44800000 then s.viewHbm a
  else if a < 0x45000000 then
    (if a = Reg.WXP_STATUS then [shown Fd.WXP_STATUS_BUSY (maskOf 8 s.lanesBusy)] else [])
  else if a < 0x46000000 then s.viewFlt a
  else if a < 0x46800000 then []
  else if a < 0x47000000 then s.viewRmo a
  else if a < 0x47800000 then s.viewSch a
  else if a < 0x47C00000 then s.viewTwn a
  else if a < 0x47E00000 then s.viewSec a
  else []

/-! ## Windows -/

/-- The bank a window register shows: the object its selector names. -/
def State.bankOf (s : State) (a : Nat) : Nat :=
  if a = Reg.PGT_CLASS_DEF0 ∨ a = Reg.PGT_CLASS_DEF1 then s.fd Fd.PGT_CLASS_SEL_CLASS
  else if Reg.WXP_IMG_SHAPE ≤ a ∧ a ≤ Reg.WXP_IMG_STATUS then s.imgSel
  else if Reg.RMO_CQ_CFG0 ≤ a ∧ a ≤ Reg.RMO_CQ_IDX then s.fd Fd.RMO_CQ_SEL_INDEX
  else if a = Reg.RMO_CTR_VAL ∨ a = Reg.RMO_CTR_CFG then s.fd Fd.RMO_CTR_SEL_INDEX
  else if Reg.SCH_SUB_C ≤ a ∧ a ≤ Reg.SCH_SUB_CFG then s.fd Fd.SCH_SUB_SEL_INDEX
  else if Reg.SCH_MTR_CFG ≤ a ∧ a ≤ Reg.SCH_MTR_RED then s.fd Fd.SCH_MTR_SEL_INDEX
  else if a = Reg.SCH_IMAP then s.fd Fd.SCH_IMAP_SEL_INDEX
  else 0

/-- The word a load of the register finds, write-only fields aside. -/
def State.word (s : State) (a : Nat) : Nat :=
  (s.views a).foldl (fun w (x : Fd × Nat) => setBits w x.1.hi x.1.lo x.2) (s.reg (s.bankOf a * 2 ^ 32 + a))

end Sys2Proof.Machine
end

