-- ==== Sys2Proof/Machine/Csr.lean ====
section
/-! DEFINITION. The CSR window: what an aligned 64-bit store and load do at every address of it (R3-R7, R463). A register
with a command of its own is written through that command's meaning. -/

namespace Sys2Proof.Machine

/-- What a meaning leaves. -/
def State.via (s : State) (f : State → Host.Outcome State Fault Refusal) : State :=
  match f s with
  | .next t => t
  | _ => s

/-- A store by the access codes, in the bank its selector names. -/
def State.plainStore (s : State) (a v : Nat) : State := s.storeFields (s.bankOf a) a v

/-- The same, but for fields that keep what they hold. -/
def State.storeKeep (s : State) (a v : Nat) (keep : List Fd) : State :=
  let b := s.bankOf a
  let old := s.reg (b * 2 ^ 32 + a)
  keep.foldl (fun s f => s.setFd { f with addr := b * 2 ^ 32 + a } (bits old f.hi f.lo)) (s.storeFields b a v)

/-- A store ignored under a condition. -/
def State.storeIf (s : State) (c : Bool) (a v : Nat) : State := if c then s.plainStore a v else s

/-! ## Blocks -/

def State.storeGlb (s : State) (a v : Nat) : State :=
  if a = Reg.GLB_WDOG then s.wdogWrite v
  else match arr (Reg.GLB_CORE_CTL 0) 16 0x20 a, arr (Reg.GLB_MTIMECMP 0) 16 0x20 a with
  | some c, _ => s.coreCtl c v
  | _, some c => (s.plainStore a v).timerLine c
  | _, _ => s.plainStore a v

def State.storeEvc (s : State) (a v : Nat) : State :=
  match arr (Reg.EVC_COMPLETE 0) 16 0x20 a, arr (Reg.EVC_MB_CFG 0) 16 0x20 a, arr (Reg.EVC_MB_IDX 0) 16 0x20 a,
      arr (Reg.EVC_MB_ACK 0) 16 0x20 a, arr (Reg.EVC_SRC 0) 2048 8 a with
  | some c, _, _, _, _ => s.complete c (bits v 10 0)
  | _, some m, _, _, _ => s.mbCfg m v
  | _, _, some m, _, _ => if m = 15 then s.mbPost (bits v 63 32) else s.mbConsume m (bits v 31 0)
  | _, _, _, some m, _ => s.storeIf (m == 15) a v
  | _, _, _, _, some n => s.srcWrite n v
  | _, _, _, _, _ => s.plainStore a v

def State.storeCvu (s : State) (a v : Nat) : State :=
  match arr (Reg.CVU_CTL 0) 16 0x40 a, arr (Reg.CVU_CTX 0) 16 0x40 a with
  | some u, _ => s.via (execCvuGo (Fin.ofNat 16 u) (BitVec.ofNat 64 v))
  | _, some u => s.via (execCvuCtxWrite (Fin.ofNat 16 u) (BitVec.ofNat 64 v))
  | _, _ => s.plainStore a v

def State.storePgt (s : State) (a v : Nat) : State :=
  let w := BitVec.ofNat 64 v
  if a = Reg.PGT_CLASS_DEF0 then s.via (execClassDefine w)
  else if a = Reg.PGT_CLASS_DEF1 then s.via (execClassDef1Write w)
  else if a = Reg.PGT_DESC_SEL then s.via (execDescSnapshot w)
  else s.plainStore a v

def State.storePdir (s : State) (a v : Nat) : State :=
  let w := BitVec.ofNat 64 v
  if a = Reg.PDIR_CTL then (if bits v 0 0 = 1 then s.via (execPdirEnable w) else s.via (execPdirDisable w))
  else if a = Reg.PDIR_SHADOW_BASE then s.storeIf (!s.flag Fd.PDIR_CTL_ENABLE) a v
  else match arr (Reg.PDIR_MODEL_ID 0) 256 8 a with
  | some c => if s.classHeld c then s.raise Fd.PGT_ERR_CLASS_BUSY else s.plainStore a v
  | none => s.plainStore a v

/-- The engines are enabled after start-up: the device serves, status 0x05 (step 16 of Table 19-8). -/
def State.serving (s : State) : State := if s.flag Fd.AE_GCTL_ENABLE ∧ s.glb.status = 0x04 then s.report 0x05 else s

def State.storeAe (s : State) (a v : Nat) : State :=
  let on := s.flag Fd.AE_GCTL_ENABLE
  if a = Reg.AE_STREAM_BASE then s.storeIf (!on) a v
  else if a = Reg.AE_POOL ∧ on then s.storeKeep a v [Fd.AE_POOL_OFFSET]
  else if a = Reg.AE_GCTL then (s.plainStore a v).serving
  else s.plainStore a v

def State.storeWxp (s : State) (a v : Nat) : State :=
  let w := BitVec.ofNat 64 v
  if a = Reg.WXP_IMG_SHAPE ∨ a = Reg.WXP_IMG_BASE ∨ a = Reg.WXP_IMG_TABLE then
    s.storeIf (s.imgState s.imgSel == 0 || s.imgState s.imgSel == 3) a v
  else if a = Reg.WXP_IMG_CTL then
    (if bits v 1 0 = 1 then s.via (execWxpLoad w)
     else if bits v 1 0 = 2 then s.via (execWxpUnload w)
     else if bits v 1 0 = 3 then s.via (execWxpRestore w)
     else s.imgCtl w)
  else if a = Reg.WXP_COPY_LEN ∧ bits v 63 63 = 1 then s.via (execWxpCopyGo w)
  else s.plainStore a v

def State.storeTier (s : State) (a v : Nat) : State :=
  let w := BitVec.ofNat 64 v
  if a = Reg.TIER_PIN_CTL then
    (if bits v 1 0 = 1 then s.via (execPin w) else if bits v 1 0 = 2 then s.via (execUnpin w) else s)
  else if a = Reg.TIER_EXT_SEL then s.via (execTierExtSnapshot w)
  else if a = Reg.TIER_FAULT ∧ s.flag Fd.AE_GCTL_ENABLE then s.storeKeep a v [Fd.TIER_FAULT_LAND_MIB]
  else s.plainStore a v

/-- The lane that the next read of GK_REG_DATA returns of a vector half (Table 10-11). -/
def laneKey (k : Nat) : Nat := 2 ^ 32 + Reg.GK_REG_DATA (k / 32) (k % 32)

def State.storeHbm (s : State) (a v : Nat) : State :=
  let w := BitVec.ofNat 64 v
  let st := (a - 0x44000000) / 0x100000
  let off := (a - 0x44000000) % 0x100000
  if off < 0x80000 then s.plainStore a v
  else
    let k := st * 32 + (off - 0x80000) / 0x1000
    let r := (off - 0x80000) % 0x1000
    let g : Fin 256 := Fin.ofNat 256 k
    if r = 0x00 then s.gkCtl k w
    else if r = 0x10 then s.via (execGkDoorbell g w)
    else if r = 0x30 then s.via (execUstoreAccess g (some w))
    else if r = 0x40 then s.via (execScratchAccess g (some w))
    else if r = 0x48 then (s.plainStore a v).setReg (laneKey k) 0
    else if 0x100 ≤ r ∧ r < 0x200 then s.via (execSlotWrite g (Fin.ofNat 8 ((r - 0x100) / 32)) (Fin.ofNat 4 (r % 32 / 8)) w)
    else s.plainStore a v

def State.storeFlt (s : State) (a v : Nat) : State :=
  let open_ := s.fd Fd.FLT_STATUS_STATE ≤ 1
  if a = Reg.FLT_CTL then s.fltCtl v
  else if a = Reg.FLT_CMD then s.fltCmd v
  else if a = Reg.FLT_MAP_BASE ∨ a = Reg.FLT_OCC_BASE ∨ a = Reg.FLT_WBUF ∨ (arr (Reg.FLT_AREA 0) 4 8 a).isSome then s.storeIf open_ a v
  else s.plainStore a v

/-- The ports' TRAINING bits and the list of R245 after a change of TRL_CTL or of a port's control. -/
def State.portControl (s : State) (p : Nat) : State :=
  let runs := s.flag (Fd.TRL_PORT_CTL_ENABLE p) && s.fd (Fd.TRL_PORT_CTL_LOOP p) == 0 && decide (p < s.portCount)
  let s := if runs then s else s.portDown p
  s.setFd (Fd.TRL_PORT_STATUS_TRAINING p) (bit (runs && s.flag Fd.TRL_CTL_ENABLE && !s.flag (Fd.TRL_PORT_STATUS_UP p)))

def State.storeTrl (s : State) (a v : Nat) : State :=
  let w := BitVec.ofNat 64 v
  let on := s.flag Fd.TRL_CTL_ENABLE
  if a = Reg.TRL_CTL then
    let s := if on then s.storeKeep a v [Fd.TRL_CTL_PORT_MODE] else s.plainStore a v
    ((List.range 64).foldl State.portControl s).trlDone
  else if a = Reg.TRL_NODE then s.storeIf (!on) a v
  else if a = Reg.TRL_RASM then (if on then s.storeKeep a v [Fd.TRL_RASM_BASE] else s.plainStore a v)
  else if a = Reg.TRL_RXBUF then (if on then s.storeKeep a v [Fd.TRL_RXBUF_ADDR] else s.plainStore a v)
  else if a = Reg.TRL_CONDUIT_SEL then s.via (execConduitSnapshot w)
  else if a = Reg.TRL_CONDUIT_CMD then
    (if bits v 1 0 = 1 then s.via (execConduitOpen w)
     else if bits v 1 0 = 2 then s.via (execConduitClose w)
     else if bits v 1 0 = 3 then s.via (execConduitFail w)
     else s)
  else match arr (Reg.TRL_PORT_CTL 0) 64 0x20 a with
  | some p => ((s.plainStore a v).portControl p).trlDone
  | none => s.plainStore a v

def State.storeRmo (s : State) (a v : Nat) : State :=
  let w := BitVec.ofNat 64 v
  let on := s.flag Fd.RMO_CTL_ENABLE
  if a = Reg.RMO_TABLE ∨ a = Reg.RMO_WR_POOL then s.storeIf (!on) a v
  else if a = Reg.RMO_REG_SEL then s.via (execRegionSnapshot w)
  else if a = Reg.RMO_REG_CMD then
    (if bits v 1 0 = 1 then s.via (execRegionRegister w)
     else if bits v 1 0 = 2 then s.via (execRegionRevoke w)
     else if bits v 1 0 = 3 then (s.setFd Fd.RMO_REG_CMD_RESULT stFORMAT).raise Fd.RMO_ERR_CMD_REJECT
     else s)
  else if a = Reg.RMO_CQ_CFG0 then s.via (execCqEnable w)
  else if a = Reg.RMO_CQ_CFG1 then s.storeIf (!s.flag (Fd.RMO_CQ_CFG0_ENABLE.at (s.fd Fd.RMO_CQ_SEL_INDEX))) a v
  else if a = Reg.RMO_CQ_IDX then s.via (execCqConsume w)
  else if a = Reg.RMO_CTR_VAL then s.via (execCounterSet w)
  else if a = Reg.RMO_CTR_CFG then
    (if bits v 63 63 = 0 then s.via (execCounterDisable w)
     else if s.flag (Fd.RMO_CTR_CFG_ENABLE.at (s.fd Fd.RMO_CTR_SEL_INDEX)) then s.storeKeep a v [Fd.RMO_CTR_CFG_PART]
     else s.plainStore a v)
  else s.plainStore a v

/-- A value written out of its range to an SCH register is clamped, and the clamp is reported (Table 14-5). -/
def State.schClamp (s : State) (bad : Bool) : State := if bad then s.raise Fd.SCH_ERR_CFG_CLAMP else s

def State.storeSch (s : State) (a v : Nat) : State :=
  match arr (Reg.SCH_SVC 0) 8 8 a, arr (Reg.SCH_PORT 0) 16 8 a with
  | some n, _ =>
    let v := if n = 6 then v else setBits v 63 63 0
    (s.plainStore a v).schClamp (decide (1000 < bits v 47 38 ∨ 1000 < bits v 37 28))
  | _, some _ => (s.plainStore a (setBits v 25 16 (min 1000 (bits v 25 16)))).schClamp (decide (1000 < bits v 25 16))
  | _, _ =>
    if a = Reg.SCH_MTR_CFG ∧ 64 ≤ s.fd Fd.SCH_MTR_SEL_INDEX then s.storeKeep a v [Fd.SCH_MTR_CFG_AWARE]
    else if a = Reg.SCH_IMAP ∧ bits v 60 48 < 64 then s.plainStore a (setBits v 63 63 0)
    else s.plainStore a v

/-- ENABLE of TWN_CTL rises: the member is JOINING; it falls: ROLE is DOWN (R425, Table 15-13). -/
def State.twnEnable (s : State) (was : Bool) : State :=
  match was, s.flag Fd.TWN_CTL_ENABLE with
  | false, true => s.onTwn fun t => { t with role := if t.role = .fenced then .fenced else .joining, epoch := 0, heardAt := s.nsec, joinFailed := false }
  | true, false => (s.onTwn fun t => { t with role := if t.role = .fenced then .fenced else .down, leaseUntil := none, claim := none, regrow := [] }).setFd Fd.TRL_CTL_TWIN_RX 0
  | _, _ => s

def State.storeTwn (s : State) (a v : Nat) : State :=
  let w := BitVec.ofNat 64 v
  let on := s.flag Fd.TWN_CTL_ENABLE
  if a = Reg.TWN_CTL then (if on then s.storeKeep a v [Fd.TWN_CTL_CONDUIT] else s.plainStore a v).twnEnable on
  else if a = Reg.TWN_CROAK then
    (if on then s else
      let s := s.plainStore a v
      s.setFd Fd.TWN_CROAK_LEASE (max 1 (min (s.fd Fd.TWN_CROAK_LEASE) (s.fd Fd.TWN_CROAK_MISS - 1))))
  else if a = Reg.TWN_CMD then
    (match bits v 2 0 with
     | 1 => s.via (execHandoff w)
     | 2 => s.via (execExpelPeer w)
     | 3 => s.via (execRegrowStart w)
     | 4 => s.via (execTwnHandback w)
     | 5 => s.via (execTwnRelease w)
     | 6 => s.via (execClearSuspect w)
     | _ => let s := s.plainStore a v
            if s.flag Fd.TWN_CMD_BUSY then s.setFd Fd.TWN_CMD_RESULT stBUSY else s)
  else if a = Reg.TWN_WIN_SEL then s.via (execWindowSnapshot w)
  else if a = Reg.TWN_XLOG_SEL then s.via (execXlogSnapshot w)
  else s.plainStore a v

def State.storeSec (s : State) (a v : Nat) : State :=
  let w := BitVec.ofNat 64 v
  if a = Reg.SEC_CTL then s.via (execBootDone w)
  else if a = Reg.SEC_FUSE_CMD then s.fuseCmd (bits v 1 0) (bits v 3 2)
  else if a = Reg.SEC_KEY_CMD then s.keyCmd v
  else if a = Reg.SEC_MOLT_LO then s.via (execMoltQueue false w)
  else if a = Reg.SEC_MOLT_HI then s.via (execMoltQueue true w)
  else if a = Reg.SEC_MEAS_EXT then s.via (execMeasExtend w)
  else if a = Reg.SEC_SIGN then s.via (execSecSign w)
  else if a = Reg.SEC_QUOTE then s.via (execSecQuote w)
  else if a = Reg.SEC_DBG then s.via (execDebugDeclare w)
  else match arr Reg.SEC_KEY_DATA0 4 8 a, arr (Reg.SEC_PART 0) 16 8 a with
  | some k, _ => s.onSec fun c => { c with keyData := tput 0 c.keyData k v }
  | _, some p =>
    (match bits v 3 2 with
     | 1 => s.pkeyCreate p
     | 2 => s.pkeyLoad p
     | 3 => s.pkeyDestroy p
     | _ => s)
  | _, _ => s.plainStore a v

def State.storeMgt (s : State) (a v : Nat) : State :=
  let w := BitVec.ofNat 64 v
  let on := s.flag Fd.MGT_CTL_ENABLE
  if a = Reg.MGT_CTL then (if on then s.storeKeep a v [Fd.MGT_CTL_FEC] else s.plainStore a v)
  else if a = Reg.MGT_RX_RING ∨ a = Reg.MGT_TX_RING then (if on then s.storeKeep a v [⟨a, 39, 0⟩] else s.plainStore a v)
  else if a = Reg.MGT_LOG_BASE then (if s.flag Fd.MGT_USAGE_CTL_ENABLE then s.storeKeep a v [Fd.MGT_LOG_BASE_ADDR] else s.plainStore a v)
  else if a = Reg.MGT_RX_IDX then s.mgtRxPost (bits v 31 0)
  else if a = Reg.MGT_TX_IDX then s.via (execMgtTxPost w)
  else if a = Reg.MGT_LOG_IDX then
    let ci := s.fd Fd.MGT_LOG_IDX_CI
    s.storeIf (decide (serialDist 32 ci (bits v 31 0) ≤ serialDist 32 ci (s.fd Fd.MGT_LOG_IDX_PI))) a v
  else if a = Reg.MGT_USAGE_SEL then s.usageSnapshot v
  else match arr (Reg.MGT_PART_COMP 0) 16 8 a with
  | some p => s.composition p (bits v 63 32) (bits v 31 0)
  | none => s.plainStore a v

/-- An aligned 64-bit store to a register other than GLB_RST_CTL; where there is no register it is ignored (R4). -/
def State.store (s : State) (a v : Nat) : State :=
  if (regAt a).isNone then s
  else if a < 0x40100000 then s.storeGlb a v
  else if a < 0x40200000 then s.storeEvc a v
  else if a < 0x41000000 then s.storeCvu a v
  else if a < 0x42000000 then s.storeAe a v
  else if a < 0x42800000 then s.plainStore a v
  else if a < 0x42C00000 then s.storePgt a v
  else if a < 0x43000000 then s.storePdir a v
  else if a < 0x44000000 then s.storeTier a v
  else if a < 0x44800000 then s.storeHbm a v
  else if a < 0x45000000 then s.storeWxp a v
  else if a < 0x46000000 then s.storeFlt a v
  else if a < 0x46800000 then s.storeTrl a v
  else if a < 0x47000000 then s.storeRmo a v
  else if a < 0x47800000 then s.storeSch a v
  else if a < 0x47C00000 then s.storeTwn a v
  else if a < 0x47E00000 then s.storeSec a v
  else s.storeMgt a v

/-! ## Loads -/

/-- GK_REG_DATA (Table 10-11): a general register, or the two 64-bit lanes of a vector half in turn; what it reads while the
gecko is not stopped is open. -/
def State.gkRegData (s : State) (k : Nat) : State :=
  let g := s.gk k
  let r := s.fd (Fd.GK_REG_SEL_REG (k / 32) (k % 32))
  if !g.still then { s with rdata := Config.random s.free, free := s.free + 1 }
  else if r < 16 then { s with rdata := (g.reg r).setWidth 64 }
  else
    let lane := s.reg (laneKey k) % 2
    let v := (g.vreg ((r - 16) / 2)).toNat / 2 ^ (128 * ((r - 16) % 2) + 64 * lane)
    { s with rdata := BitVec.ofNat 64 v }.setReg (laneKey k) (1 - lane)

/-- CVU_CTX while its job runs: the context after some whole 32-byte step (Table 3-13). -/
def State.cvuCtxBusy (s : State) (u : Nat) : State :=
  let n := Config.pick s.free % (s.fd (Fd.CVU_LEN_LEN u) / 32 + 1)
  { s with rdata := BitVec.ofNat 64 (s.cvuRun u (32 * n)), free := s.free + 1 }

/-- The word at an address that has no act of its own on a load; RC fields read zero next (R6). -/
def State.plainLoad (s : State) (a : Nat) : State :=
  match regAt a with
  | none => { s with rdata := 0 }
  | some r =>
    let b := s.bankOf a * 2 ^ 32 + a
    let w := r.load (s.word a)
    let s := if r.fields.any (fun f => f.acc == .rc) then s.setReg b (r.afterLoad (s.reg b)) else s
    { s with rdata := BitVec.ofNat 64 w }

/-- An aligned 64-bit load of the CSR window (R4, R6): its data. -/
def State.load (s : State) (a : Nat) : State :=
  let st := (a - 0x44000000) / 0x100000
  let off := (a - 0x44000000) % 0x100000
  let k := st * 32 + (off - 0x80000) / 0x1000
  let r := (off - 0x80000) % 0x1000
  let gk := decide (0x44000000 ≤ a ∧ a < 0x44800000 ∧ 0x80000 ≤ off ∧ off < 0xA0000)
  if (regAt a).isNone then { s with rdata := 0 }
  else if gk && r == 0x30 then s.via (execUstoreAccess (Fin.ofNat 256 k) none)
  else if gk && r == 0x40 then s.via (execScratchAccess (Fin.ofNat 256 k) none)
  else if gk && r == 0x50 then s.gkRegData k
  else if a = Reg.SEC_RNG then s.via execRngRead
  else match arr (Reg.EVC_CLAIM 0) 16 0x20 a, arr (Reg.CVU_CTX 0) 16 0x40 a with
  | some c, _ => s.claim c
  | _, some u => if tfind s.pgt.cvu u = some .software then s.cvuCtxBusy u else s.plainLoad a
  | _, _ => s.plainLoad a

end Sys2Proof.Machine
end

