-- ==== Sys2Proof/Machine/Startup.lean ====
section
/-! DEFINITION. Resets, the configuration image, start-up, shelter and the power-fail protocol (chapter 19, R451, R458). -/

namespace Sys2Proof.Machine

/-! ## The configuration image (R415-R418) -/

/-- A record (R416). -/
structure ImgRec where
  ty : Nat
  critical : Bool
  dest : Nat
  payload : List Byte
  deriving DecidableEq, Repr

/-- n records that fill a byte string, each on a 16-byte boundary; none where they do not. -/
def imgRecords : Nat → List Byte → Option (List ImgRec)
  | 0, l => if l.isEmpty then some [] else none
  | n + 1, l =>
    let len := lat l 4 4
    let whole := 16 + ceilDiv len 16 * 16
    if l.length < whole then none else
    (imgRecords n (l.drop whole)).map (⟨lat l 0 2, lat l 2 2 % 2 == 1, lat l 8 8, slice l 16 len⟩ :: ·)

def imgMagic : List Byte := [0x54, 0x4C, 0x46, 0x43]

/-- Check 1 of R417 behind the MAGIC, for a source of `size` bytes. -/
def imgHeaderOk (h : List Byte) (size : Nat) : Bool :=
  let n := lat h 12 4
  lat h 4 2 == 1 && lat h 6 2 == 0x0816 && n % 16 == 0 && 1024 ≤ n && n ≤ 2 ^ 26 && n ≤ size &&
  zeroAt h 20 12 && zeroAt h 420 28 && zeroAt h 832 192

/-- The signed message (R415). -/
def imgMessage (img : List Byte) : List Byte := img.take 448 ++ img.drop 832

def ofType (rs : List ImgRec) (ty : Nat) : List ImgRec := rs.filter (·.ty == ty)

/-- Check 4: the counts of Table 19-6, and no unknown type marked CRITICAL. -/
def imgCounts (rs : List ImgRec) : Bool :=
  let n := fun t => (ofType rs t).length
  n 0x01 == 1 && n 0x02 == 1 && 1 ≤ n 0x03 && n 0x11 ≤ 1 && n 0x20 == 1 && n 0x22 == 1 && 1 ≤ n 0x30 && n 0x40 ≤ 1 &&
  rs.all fun r => !r.critical || [0x01, 0x02, 0x03, 0x10, 0x11, 0x20, 0x21, 0x22, 0x30, 0x40, 0xFFFF].contains r.ty

/-- The DEST ranges of pass 2. -/
def imgRanges (rs : List ImgRec) : List (Nat × Nat) :=
  (rs.filter (fun r => r.ty == 0x20 || r.ty == 0x21 || r.ty == 0x22)).map fun r => (r.dest, r.payload.length)

def disjointRanges : List (Nat × Nat) → Bool
  | [] => true
  | a :: l => l.all (fun b => a.1 + a.2 ≤ b.1 || b.1 + b.2 ≤ a.1) && disjointRanges l

/-- CTL_GIB of the MEMCFG record, 8 to 64 (R14); the value nearest to one outside that range (notes/assumptions/42.md). -/
def imgCtlGib (rs : List ImgRec) : Nat := max 8 (min 64 ((((ofType rs 0x01).head?).map (fun r => lat r.payload 0 1)).getD 0))

/-- A GECKO_PROG record loads a word of a gecko's program store. -/
def ImgRec.supplies (r : ImgRec) (k w : Nat) : Bool :=
  let first := lat r.payload 8 2
  r.ty == 0x30 && bits (lat r.payload 0 1) (k / 32) (k / 32) == 1 && bits (lat r.payload 4 4) (k % 32) (k % 32) == 1 &&
  first ≤ w && w < first + (r.payload.length - 16) / 4

/-- The entries of a REG_WRITE record. -/
def ImgRec.writes (r : ImgRec) : List (List Byte) := cut 24 (r.payload.length / 24) r.payload

/-- An address no REG_WRITE entry may name (check 7). -/
def regForbidden (a : Nat) : Bool :=
  (0x47C00000 ≤ a && a < 0x47E00000) || a == Reg.GLB_RST_CTL || (arr (Reg.GLB_CORE_CTL 0) 16 0x20 a).isSome ||
  (arr (Reg.EVC_CLAIM 0) 16 0x20 a).isSome || (arr (Reg.EVC_COMPLETE 0) 16 0x20 a).isSome

/-- Checks 3 to 7. -/
def imgRecordsOk (img : List Byte) : Bool :=
  match imgRecords (lat img 16 4) (img.drop 1024) with
  | none => false
  | some rs =>
    ((ofType rs 0xFFFF).length == 1 && (rs.getLast?).any (·.ty == 0xFFFF)) && imgCounts rs &&
    (imgRanges rs).all (fun r => 2 ^ 26 ≤ r.1 && r.1 + r.2 ≤ imgCtlGib rs * 2 ^ 30) && disjointRanges (imgRanges rs) &&
    (List.range 256).all (fun k => (List.range 1024).all fun w => rs.any (·.supplies k w)) &&
    (ofType rs 0x10).all (fun r => r.writes.all fun e => !regForbidden (lat e 0 8))

/-- The key-hash slot of a public key: a programmed one, not revoked if there is such (R379). -/
def State.keySlotOf (s : State) (hash : List Byte) : Option Nat :=
  let l := (List.range 4).filter fun k => tfind s.sec.hashes k == some hash && !s.slotIn Fd.SEC_FUSE_STATUS_SPOILED k
  match l.find? (fun k => !s.slotIn Fd.SEC_FUSE_STATUS_REVOKED k) with
  | some k => some k
  | none => l.head?

/-- Every check of R417 on the image that `rd` reads, of a source of `size` bytes: the code of the first that fails, or the
accepting slot and the image. -/
def State.checkImage (s : State) (rd : Nat → Nat → List Byte) (size : Nat) : Nat ⊕ (Nat × List Byte) :=
  let h := rd 0 1024
  if h.take 4 ≠ imgMagic then .inl 0x10
  else if !imgHeaderOk h size then .inl 0x11
  else
    let img := rd 0 (lat h 12 4)
    match s.keySlotOf (sha256 (slice img 32 388)) with
    | none => .inl 0x12
    | some k =>
      if s.slotIn Fd.SEC_FUSE_STATUS_REVOKED k then .inl 0x13
      else if !pssVerify (bat img 32 384) (bat img 416 4) (sha256 (imgMessage img)) (slice img 448 384) then .inl 0x14
      else if lat img 8 4 < s.fd Fd.SEC_FUSE_STATUS_SVN then .inl 0x15
      else if !imgRecordsOk img then .inl 0x16
      else .inr (k, img)

/-- Slot A, then slot B where there is one (R419). -/
def State.norImage (s : State) : Nat ⊕ (Nat × List Byte) :=
  let nor := s.glb.nor
  match s.checkImage (slice nor) nor.length with
  | .inr x => .inr x
  | .inl c =>
    let b := nor.drop 0x4000000
    if 2 ^ 27 ≤ nor.length ∧ b.take 4 = imgMagic then s.checkImage (slice b) b.length else .inl c

/-- The image a start takes: a warm restart first the copy in the reservation (R420). -/
def State.startImage (s : State) (warm : Bool) : Nat ⊕ (Nat × List Byte) :=
  if !warm then s.norImage else
  match s.checkImage s.hbmRead (2 ^ 26) with
  | .inr x => .inr x
  | .inl _ => s.norImage

/-! ## Pass 1 (R416, R418, R14) -/

/-- The NODE record of this device. -/
def nodeRecord (rs : List ImgRec) : Option ImgRec :=
  let l := ofType rs 0x03
  match l.find? (fun r => lat r.payload 0 8 == Config.serial.toNat) with
  | some r => some r
  | none => l.find? (fun r => lat r.payload 0 8 == 0)

/-- Size of the FTL map region for a raw capacity in TB (R14). -/
def mapGib (tb : Nat) : Nat := min 8 (ceilDiv (ceilDiv (tb * 10 ^ 12) 65536 * 4) (2 ^ 30))

/-- An entry of a REG_WRITE record. -/
def State.regWrite (s : State) (e : List Byte) : State :=
  let a := lat e 0 8
  let m := lat e 16 8
  let t := s.load a
  let old := t.rdata.toNat
  { t with rdata := s.rdata }.store a ((old &&& (2 ^ 64 - 1 - m)) ||| (lat e 8 8 &&& m))

/-- The two regions of R14, sized by the first image accepted since the cold start. -/
def State.sizeMemory (s : State) (rs : List ImgRec) (geom : List Byte) : State :=
  if s.glb.sized then s else
  ((s.setFd Fd.GLB_MEMCFG_CTL_GIB (imgCtlGib rs)).setFd Fd.GLB_MEMCFG_MAP_GIB (mapGib (lat geom 6 2))).onGlb
    fun g => { g with sized := true }

def State.pass1 (s : State) (rs : List ImgRec) (node : ImgRec) : State :=
  let geom := (((ofType rs 0x02).head?).map (·.payload)).getD []
  let s := s.sizeMemory rs geom
  let s := (s.setFd Fd.TRL_NODE_NODE (lat node.payload 8 4)).setFd Fd.TWN_DOMAIN_DOMAIN (lat node.payload 12 2)
  let s := s.onGlb fun g => { g with geom := geom, nodeBytes := slice node.payload 16 48 }
  ((ofType rs 0x10).flatMap ImgRec.writes).foldl State.regWrite s

/-! ## Memory training and zeroing (R199, R422) -/

/-- Channels that did not train, at a cold start. -/
def State.train (s : State) (failed : List Nat) : State :=
  let bad := (List.range 256).filter failed.contains
  let s := (List.range 8).foldl (fun s i => (s.setFd (Fd.HBM_STATUS_TRAINED i) 1).setFd (Fd.HBM_TRAIN_FAIL i)
    ((List.range 32).foldl (fun n c => if bad.contains (32 * i + c) then n + 2 ^ c else n) 0)) s
  s.onHb fun h => { h with failed := bad, trained := (List.range 256).filter (fun c => !bad.contains c) }

/-- The stacks serve, all of memory zero. -/
def State.zeroMemory (s : State) : State :=
  { (List.range 8).foldl (fun s i => s.setFd (Fd.HBM_CTL_ENABLE i) 1) s with hbm := [] }

/-! ## Pass 2 (R416, R421) -/

/-- A GECKO_PROG record loads the geckos it names. -/
def State.loadGeckos (s : State) (r : ImgRec) : State :=
  let first := lat r.payload 8 2
  let words := cut 4 ((r.payload.length - 16) / 4) (r.payload.drop 16)
  (List.range 256).foldl (fun s k =>
    if !(r.supplies k first) then s else
    let g := s.gk k
    let store := (words.zipIdx).foldl (fun (m : Tbl W32) (w : List Byte × Nat) =>
      if first + w.2 < 2048 then tput 0 m (first + w.2) (BitVec.ofNat 32 (unle w.1)) else m) g.store
    s.setGk k { g with store := store }) s

/-- A record of pass 2 that copies or loads. -/
def State.pass2Record (s : State) (r : ImgRec) : State :=
  if r.ty = 0x20 ∨ r.ty = 0x21 ∨ r.ty = 0x22 then s.hbmWrite r.dest r.payload
  else if r.ty = 0x30 then s.loadGeckos r
  else s

/-- MEAS3 extended with each gecko's program store (Table 17-4). -/
def State.measureGeckos (s : State) : State :=
  (List.range 256).foldl (fun s k => s.extend 3 (Config.measured 4 ((List.range 2048).flatMap fun w => le 4 (tget 0 (s.gk k).store w).toNat))) s

/-- A fuse command of the image; whether its bits read back is not known beforehand. -/
def State.fuseRun (s : State) (op slot : Nat) (hash : List Byte) : State :=
  if s.glb.stopped then s else
  let s := (List.range 4).foldl (fun s i => s.setReg (Reg.SEC_FUSE_DATA0 + 8 * i) (lat hash (8 * i) 8)) s
  let s := s.fuseCmd op (slot % 4)
  if s.sec.fusing.isNone then s.onGlb fun g => { g with uart := g.uart ++ Config.skipReport op } else
  let t := s.drawn.fuseDone (Config.pick s.free % 2 == 0)
  if t.flag Fd.SEC_ERR_FUSE_FAIL then t.stopAt 0x21 else t

/-- An entry of the FUSE record (R421). -/
def State.fuseEntry (s : State) (e : List Byte) : State :=
  let slot := lat e 1 1
  let hash := slice e 8 32
  match lat e 0 1 with
  | 1 => if tfind s.sec.hashes slot = some hash then s else s.fuseRun 1 slot hash
  | 2 => if s.slotIn Fd.SEC_FUSE_STATUS_REVOKED slot then s else s.fuseRun 2 slot hash
  | 3 => (List.range (min (lat e 2 1) 65 - s.fd Fd.SEC_FUSE_STATUS_SVN)).foldl (fun s _ => s.fuseRun 3 0 hash) s
  | _ => s

/-- The identity certificate in the reservation (R382). -/
def State.placeCert (s : State) (rs : List ImgRec) : State :=
  let cert := Config.certificate.take 4096
  let a := (roomAt ((0, 2 ^ 26) :: imgRanges rs) 0 s.ctlBytes cert.length 1 (Config.pick s.free)).getD 0
  ((s.drawn.hbmWrite a cert).setFd Fd.SEC_CERT_ADDR a).setFd Fd.SEC_CERT_LEN cert.length

/-- The parts found are within Table 11-1. -/
def Nand.supported (n : Nat) : Bool :=
  [0, 1, 3, 7].contains (bits n 2 0) && [0, 1, 3].contains (bits n 4 3) && [2, 3].contains (bits n 49 48) &&
  0 < bits n 15 5 && bits n 15 5 ≤ 1024 && 0 < bits n 28 16 && bits n 28 16 ≤ 8191

/-- Raw bytes of the parts found, in 16 channels of four planes a LUN (R219). -/
def Nand.rawBytes (n : Nat) : Nat := 16 * (bits n 2 0 + 1) * (bits n 4 3 + 1) * 4 * bits n 28 16 * bits n 15 5 * 16384

/-- The detected geometry is the declared one in every channel, but for one whose LUNs are all listed as failed (R218). The raw
capacities are compared in whole TB, that of the parts rounded to the nearest (notes/assumptions/42.md). -/
def State.geometryOk (s : State) : Bool :=
  let g := s.glb.geom
  let n := s.glb.nand.geom.toNat
  let luns := (List.range (lat g 0 1 + 1)).flatMap fun ce => (List.range (lat g 1 1 + 1)).map fun l => ce * 4 + l
  Nand.supported n && lat g 0 1 == bits n 2 0 && lat g 1 1 == bits n 4 3 && lat g 2 1 == bits n 49 48 &&
  lat g 6 2 == (Nand.rawBytes n + 5 * 10 ^ 11) / 10 ^ 12 &&
  s.glb.nand.chips.odd.all fun c => luns.all fun l => bits (lat g (16 + 4 * c) 4) l l == 1

/-- Each channel at the highest rate in service that its parts and the image allow; SDR timing mode 0 where there is none
(R217). -/
def State.trainNand (s : State) : State :=
  s.onFlt fun f => { f with
    rates := s.glb.nand.chips.rates.foldl (fun t r => let x := min (min r.2 (lat s.glb.geom 4 2)) 3600
      if 1600 ≤ x then tset t r.1.val x else t) [] }

/-- The flash layer is in IDENT, or in FAILED and start-up stops (R218, R423; step 10 of Table 19-8). -/
def State.identify (s : State) : State :=
  let n := s.glb.nand.geom.toNat
  let g := s.glb.geom
  let s := s.trainNand.setReg Reg.FLT_GEOM (setBits (setBits n 47 32 (lat g 6 2)) 63 50 0)
  let listed := (List.range 512).filter fun l => bits (lat g (16 + 4 * (l / 32)) 4) (l % 32) (l % 32) == 1
  let s := s.onFlt fun f => { f with lunFail := f.lunFail ++ listed.filter (fun l => !f.lunFail.contains l) }
  if s.geometryOk then s.setFd Fd.FLT_STATUS_STATE 1
  else ((s.setFd Fd.FLT_STATUS_STATE 6).raise Fd.FLT_ERR_GEOMETRY).stopAt 0x22

/-- Steps 9 and 10 of Table 19-8 (7 and 8 of Table 19-11). -/
def State.pass2 (s : State) (rs : List ImgRec) (img : List Byte) : State :=
  let s := (rs.foldl State.pass2Record s).measureGeckos
  let s := ((ofType rs 0x40).flatMap fun r => cut 40 (r.payload.length / 40) r.payload).foldl State.fuseEntry s
  if s.glb.stopped then s else
  let s := ((s.hbmWrite 0 img).placeCert rs).setFd Fd.SEC_CTL_BOOT_DONE 1
  let entry := (((ofType rs 0x20).head?).map (fun r => r.dest + lat r.payload 0 8)).getD 0
  ((s.onGlb fun g => { g with coreAt := tset g.coreAt 0 (2 ^ 39 + entry) }).report 0x04).identify

/-! ## The start (R419, R422, R465) -/

/-- MEAS0 to MEAS2 (Table 17-4). -/
def State.measureBoot (s : State) (slot : Nat) (img : List Byte) : State :=
  let hashes := (List.range 4).flatMap fun k => (tfind s.sec.hashes k).getD (zeros 32)
  let fuses := hashes ++ le 1 (s.fd Fd.SEC_FUSE_STATUS_REVOKED) ++ le 1 (s.fd Fd.SEC_FUSE_STATUS_SVN)
  ((s.extend 0 (Config.measured 2 fuses)).extend 1 (sha256 (imgMessage img))).extend 2 (Config.measured 3 (le 1 slot ++ slice img 8 4))

/-- The boot ROM from reset on; `failed` are the channels that do not train at a cold start. -/
def State.boot (s : State) (warm : Bool) (failed : List Nat) : State :=
  let s := ((s.setReg Reg.GLB_CLK_STATUS (2 ^ 22 - 1)).setFd (Fd.GLB_CORE_STATUS_STATE 0) 1).report 0x00
  match s.startImage warm with
  | .inl c => ((if 0x12 ≤ c then s.report 0x01 else s).report c).stopAt 0x30
  | .inr (k, img) =>
    let s := ((s.report 0x01).report 0x02).setFd Fd.SEC_STATUS_BOOT_SLOT k
    let s := (s.onGlb fun g => { g with accepted := true }).measureBoot k img
    let rs := (imgRecords (lat img 16 4) (img.drop 1024)).getD []
    match nodeRecord rs with
    | none => s.stopAt 0x17
    | some r =>
      let s := s.pass1 rs r
      let s := if warm then s else (s.report 0x03).train failed
      if s.hb.trained.length < 224 then s.stopAt 0x20 else s.zeroMemory.pass2 rs img

/-! ## Resets (R413, R414) -/

/-- A fuse command cut off: the bit in progress is burned, and a slot whose hash is not whole is SPOILED (R381). -/
def State.fuseCut (s : State) : State :=
  match s.sec.fusing with
  | none => s
  | some c =>
    let s := (s.onSec fun x => { x with fusing := none }).setFd Fd.SEC_FUSE_STATUS_BUSY 0
    match c with
    | .program k _ => s.setFd Fd.SEC_FUSE_STATUS_SPOILED (s.fd Fd.SEC_FUSE_STATUS_SPOILED ||| 2 ^ k)
    | .revoke k => s.drawn.setFd Fd.SEC_FUSE_STATUS_REVOKED
        (if Config.pick s.free % 2 = 0 then s.fd Fd.SEC_FUSE_STATUS_REVOKED else s.fd Fd.SEC_FUSE_STATUS_REVOKED ||| 2 ^ k)
    | .svn => s

/-- The flash layer completes the steps of Table 11-9 (R239). -/
def State.flashFail (s : State) : State :=
  let s := if s.fltUp then s.voidUncommitted.jflush else s
  (s.onFlt fun f => { f with stopped := true }).setFd Fd.FLT_STATUS_STATE 5

/-- What the NAND holds, which no reset touches. -/
def Flt.kept (f : Flt) : Flt :=
  { Flt.reset with ckpt := f.ckpt, segAt := f.segAt, phys := f.phys, sbs := f.sbs, jseq := f.jseq, jdone := f.jdone, jtail := f.jtail, segment := f.segment, spares := f.spares, lunFail := f.lunFail, retired := f.retired, excluded := f.excluded, erases := f.erases, junits := f.junits, opens := f.opens, anchor := f.anchor }

/-- Every block at its reset values, but for the fuses, the NAND, the NOR and what has left the device. -/
def State.coldReset (s : State) : State :=
  let s := s.fuseCut.voidUncommitted
  { State.reset with
    pending := s.pending
    free := s.free
    tap := s.tap
    csr := s.csr.filter fun r => r.1 == Reg.SEC_FUSE_STATUS
    sec := { Sec.reset with hashes := s.sec.hashes }
    flt := s.flt.kept
    trl := { Trl.reset with wireOut := s.trl.wireOut }
    mgt := { Mgt.reset with out := s.mgt.out }
    glb := { Glb.reset with uart := s.glb.uart, nor := s.glb.nor, nand := s.glb.nand } }

/-- Registers a warm restart keeps whole. -/
def warmKept (a : Nat) : Bool :=
  a == Reg.SEC_FUSE_STATUS || a == Reg.GLB_MEMCFG || a == Reg.GLB_CLK_STATUS || a == Reg.SEC_DBG || (arr (Reg.HBM_TRAIN 0) 8 0x100000 a).isSome ||
  (arr (Reg.FLT_TEMP_HIST 0) 64 8 a).isSome || (arr (Reg.MGT_TEMP_HIST_DIE 0) 64 8 a).isSome || (arr (Reg.MGT_TEMP_HIST_HBM 0) 64 8 a).isSome

/-- A warm restart's reset (R414): time, DEBUG_SEEN, trained settings and memory stay as well. A FENCED member stays so
(R331), and the channel generations of R253 stand until a cold start. -/
def State.warmReset (s : State) : State :=
  let s := s.fuseCut
  let t := s.coldReset
  let ms := s.usec / 1000 * 1000
  let t := { t with
    mtime := s.mtime
    hbm := s.hbm
    csr := s.csr.filter fun r => warmKept r.1
    hb := { HbmBlock.reset with trained := s.hb.trained, failed := s.hb.failed }
    flt := { t.flt with tempAt := s.flt.tempAt }
    glb := { t.glb with sized := s.glb.sized }
    mgt := { t.mgt with sampleAt := ms, periodAt := ms, recordAt := (List.range 16).map fun p => (p, ms) }
    twn := { Twn.reset with role := if s.twn.role = Role.fenced then Role.fenced else Role.down }
    trl := { t.trl with conduits := s.trl.conduits.map fun (c : Nat × ConduitState) => (c.1, { ConduitState.closed with lastCgen := c.2.lastCgen }) } }
  let t := t.setFd Fd.SEC_STATUS_DEBUG_SEEN (s.fd Fd.SEC_STATUS_DEBUG_SEEN)
  (List.range 8).foldl (fun t i => t.setFd (Fd.HBM_STATUS_TRAINED i) (s.fd (Fd.HBM_STATUS_TRAINED i))) t

/-- A warm restart with causes; in a shelter it waits for the end of it (R432). -/
def State.restart (s : State) (causes : Nat) : State :=
  if s.fd Fd.GLB_PWR_STATE = 1 then s.onGlb fun g => { g with waiting := some (g.waiting.getD 0 ||| causes) }
  else (s.flashFail.warmReset.setFd Fd.GLB_RST_CAUSE_CAUSE causes).boot true []

/-- The device held in reset, its blocks at their reset values. -/
def State.held (s : State) (h : Hold) : State :=
  let t := s.coldReset
  { t with inReset := true, glb := { t.glb with hold := h } }

/-- The power-fail protocol, then reset held with cause POWERFAIL (R429, Table 19-9). -/
def State.powerFail (s : State) (h : Hold) : State :=
  ((s.flashFail.held h).setFd Fd.GLB_RST_CAUSE_CAUSE 0x10).setFd Fd.GLB_PWR_STATE 2

/-- A cold start from reset with causes, on what the board then holds. -/
def State.coldStart (s : State) (causes : Nat) (nor : List Byte) (failed : List (Fin 256)) (nand : Nand) : State :=
  let s := (s.coldReset).onGlb fun g => { g with nor := nor, nand := nand }
  (s.setFd Fd.GLB_RST_CAUSE_CAUSE causes).boot false (failed.map (·.val))

/-! ## Shelter (R427, R428) -/

/-- Shelter begins: engines finish the unit in progress. -/
def State.shelter (s : State) : State :=
  if s.fd Fd.GLB_PWR_STATE ≠ 0 then s else
  ((s.raise Fd.GLB_PWR_WARN).setFd Fd.GLB_PWR_STATE 1).onGlb fun g => { g with
    shelterAt := s.mtime
    finishing := (s.ae.running.map Prod.fst).filter fun e => (tfind s.ae.lockWait e).isNone
    finishingReads := (s.flt.reads.filter (fun r => r.answer.isNone)).map (·.lunit) }

/-- Shelter ends; what was paused resumes, or the restart that waited runs. -/
def State.unshelter (s : State) : State :=
  if s.fd Fd.GLB_PWR_STATE ≠ 1 ∨ s.mtime < s.glb.shelterAt + 2000 then s else
  let t := (s.setFd Fd.GLB_PWR_STATE 0).onGlb fun g => { g with finishing := [], finishingReads := [], waiting := none }
  match s.glb.waiting with
  | some c => t.restart c
  | none => ((List.range 80).foldl State.engineStart t).fillLanes.placeWaiting

/-! ## PLLs (R451) -/

/-- The ports that use a lane of SerDes group n. -/
def State.groupPorts (s : State) (n : Nat) : List Nat :=
  (List.range s.portCount).filter fun p => p * s.portLanes < 4 * n + 4 && 4 * n < (p + 1) * s.portLanes

def State.pllUnlock (s : State) (n : Nat) : State :=
  let w := s.reg Reg.GLB_CLK_STATUS
  let s := s.setReg Reg.GLB_CLK_STATUS (setBits w n n 0)
  if n < 5 then s.powerFail .powerFail
  else if n = 5 then s.mgtLink false
  else (s.groupPorts (n - 6)).foldl State.portDown s

/-! ## Pins (Table 19-3, R419, R448, R449) -/

/-- ALERT_N is low. -/
def State.alert (s : State) : Bool := s.fd Fd.GLB_PWR_STATE != 0 || s.glb.stopped || s.glb.hold == .porst

/-- A WP_N of the NAND is high. -/
def State.writeEnabled (s : State) : Bool :=
  !s.inReset && 2 ≤ s.fd Fd.FLT_STATUS_STATE && s.fd Fd.FLT_STATUS_STATE ≤ 4

/-- The octal-SPI pins are at high impedance. -/
def State.norFree (s : State) : Bool := s.inReset || (s.glb.stopped && s.glb.status == 0x30)

/-! ## Meanings -/

/-- COLD_START: PORST_N rises, or the internal power-on reset ends (R412, R422): what the NOR holds, the channels that do
not train, the NAND found. -/
def execColdStart (nor : List Byte) (failed : List (Fin 256)) (geom : Word) (chips : Chips) (s : State) :
    Host.Outcome State Fault Refusal := actAlways s fun s => s.coldStart 0x01 nor failed ⟨geom, chips⟩

/-- POWERFAIL_RESTART (R430). -/
def execPowerfailRestart (nor : List Byte) (failed : List (Fin 256)) (geom : Word) (chips : Chips) (s : State) :
    Host.Outcome State Fault Refusal :=
  actAlways s fun s =>
    if s.glb.hold = .powerFail then s.coldStart (if s.glb.pinSeen then 0x12 else 0x10) nor failed ⟨geom, chips⟩ else s

/-- WARM_RESTART: a pulse of WRST_N (R412, R414, R465); during the power-fail protocol it is only remembered (R432). -/
def execWarmRestart (nor : List Byte) (s : State) : Host.Outcome State Fault Refusal :=
  actAlways s fun s =>
    if s.glb.hold = .powerFail then s.onGlb fun g => { g with pinSeen := true }
    else if s.inReset then s
    else (s.onGlb fun g => { g with nor := nor }).restart 0x02

/-- SOFT_RESET: a store to GLB_RST_CTL (R413). -/
def State.softReset (s : State) (v : Nat) : State := if bits v 0 0 = 1 ∧ bits v 15 8 = 0x5A then s.restart 0x04 else s
def execSoftReset (v : Word) (s : State) : Host.Outcome State Fault Refusal := act s fun s => s.softReset v.toNat

/-- DEBUG_RESET (R413). -/
def execDebugReset (s : State) : Host.Outcome State Fault Refusal := act s fun s => s.restart 0x20

/-- WATCHDOG_EXPIRE (R397): the first expiry sets EXPIRED, the second restarts. -/
def execWatchdogExpire (s : State) : Host.Outcome State Fault Refusal :=
  actIf s (s.fd Fd.GLB_WDOG_PERIOD_MS != 0 && decide (s.evc.wdogAt + s.fd Fd.GLB_WDOG_PERIOD_MS * 100000 ≤ s.mtime)) fun s =>
    if s.evc.wdogFirst then s.restart 0x08
    else (s.raise Fd.GLB_WDOG_EXPIRED).onEvc fun e => { e with wdogFirst := true, wdogAt := s.mtime }

/-- SHELTER_ENTER (R427). -/
def execShelterEnter (s : State) : Host.Outcome State Fault Refusal := act s State.shelter

/-- SHELTER_EXIT (R428). -/
def execShelterExit (s : State) : Host.Outcome State Fault Refusal := act s State.unshelter

/-- SHELTER_TIMEOUT (R428). -/
def execShelterTimeout (s : State) : Host.Outcome State Fault Refusal :=
  actIf s (s.fd Fd.GLB_PWR_STATE == 1 && decide (s.glb.shelterAt + 500000 ≤ s.mtime)) fun s => s.powerFail .powerFail

/-- POWER_FAIL (R429). -/
def execPowerFail (s : State) : Host.Outcome State Fault Refusal := act s fun s => s.powerFail .powerFail

/-- PLL_UNLOCK (R451): bit `pll` of GLB_CLK_STATUS. -/
def execPllUnlock (pll : Fin 22) (s : State) : Host.Outcome State Fault Refusal := act s fun s => s.pllUnlock pll.val

/-- PLL_RELOCK (R451). -/
def execPllRelock (pll : Fin 22) (s : State) : Host.Outcome State Fault Refusal :=
  act s fun s => s.setReg Reg.GLB_CLK_STATUS (setBits (s.reg Reg.GLB_CLK_STATUS) pll.val pll.val 1)

/-- THERMTRIP (R458): during the power-fail protocol it only changes how reset is then held (R461). -/
def execThermtrip (s : State) : Host.Outcome State Fault Refusal :=
  actAlways s fun s =>
    if s.glb.hold = .porst then s
    else (if s.inReset then s.onGlb fun g => { g with hold := .thermtrip } else s.powerFail .thermtrip).onGlb
      fun g => { g with thermtrip := true }

/-- COLD_RESET_ASSERT: PORST_N falls, or the internal power-on reset begins (R411, R412). -/
def execColdResetAssert (s : State) : Host.Outcome State Fault Refusal := actAlways s fun s => s.held .porst

/-- FUSE_COMMAND_DONE (R380, R381). -/
def execFuseCommandDone (readback : Bool) (s : State) : Host.Outcome State Fault Refusal :=
  act s fun s => s.fuseDone readback

end Sys2Proof.Machine
end

