-- ==== Sys2Proof/Machine/Access.lean ====
section
/-! DEFINITION. The accesses of the control cores: the CSR window and the physical address map (R3-R7, R390-R394). -/

namespace Sys2Proof.Machine

/-- A store to any register. -/
def State.regStore (s : State) (a v : Nat) : State := if a = Reg.GLB_RST_CTL then s.softReset v else s.store a v

/-- The kind of access the CSR window takes: eight bytes, aligned (R4). -/
def csrAligned (a width : Nat) : Bool := width == 8 && a % 8 == 0

/-- An address of the CSR window (R3). -/
def inCsr (a : Nat) : Bool := 0x40000000 ≤ a && a < 0x48000000

/-- A load and a store of the CSR window by a core. -/
def State.csrAccess (s : State) (core a width : Nat) (store : Option Word) : State :=
  if !csrAligned a width then s.accessFail core
  else match store with
  | some v => (s.regStore a v.toNat).accessOk core 0
  | none => let t := s.load a
    t.accessOk core t.rdata.toNat

/-- Bytes of a range lie within another. -/
def within (a n lo len : Nat) : Bool := lo ≤ a && a + n ≤ lo + len

/-- Outside the reservation a core writes only to the area of an image before its LOAD and to a VALID LOCAL region (R394). -/
def State.coreMayWrite (s : State) (a n : Nat) : Bool :=
  a + n ≤ s.ctlBytes ||
  (List.range 128).any (fun m => (s.imgState m == 0 || s.imgState m == 3) &&
    (within a n (s.imgShape m).base ((s.imgShape m).blocks * 4096) || within a n (s.imgShape m).table ((s.imgShape m).blocks * 16))) ||
  s.rmo.regions.any (fun r => r.2.rstate == 1 && !r.2.remote && within a n r.2.base r.2.len)

/-- An access to device address A (R394), whose group is found with `errs`. In a LOCK range a write receives BUSY and a read is
held (R212). -/
def State.deviceAccess (s : State) (core a n : Nat) (store : Option Word) (errs : Errs) : State :=
  if hbmBytes < a + n then s.accessFail core
  else match store with
  | some v =>
    if s.lockedAt a n || !s.coreMayWrite a n then s.accessFail core
    else ((s.hbmRmw errs a (le n v.toNat)).eccRange errs a n).accessOk core 0
  | none =>
    if s.lockedAt a n then s.onHb fun h => { h with held := tset h.held core ⟨a, n, errs, s.mtime⟩ }
    else s.coreRead core a n errs

/-- An access of a core to its physical address map (Table 18-1). -/
def State.coreAccess (s : State) (core a n : Nat) (store : Option Word) (errs : Errs) : State :=
  if inCsr a then s.csrAccess core a n store
  else if 2 ^ 39 ≤ a then s.deviceAccess core (a - 2 ^ 39) n store errs
  else if store.isSome then s.accessFail core
  else if a + n ≤ 0x20000 then s.accessOk core (unle ((List.range n).map fun i => Config.bootRom (a + i)))
  else if 0x90000000 ≤ a ∧ a + n ≤ 0x9C000000 then s.accessOk core (unle (overlay s.pcStruct (a - 0x90000000) (s.pcRead (a - 0x90000000) n)))
  else s.accessFail core

/-! ## Meanings -/

/-- REGISTER_WRITE: an aligned 64-bit store to the CSR window (R4-R6). -/
def execRegisterWrite (addr : W32) (v : Word) (s : State) : Host.Outcome State Fault Refusal :=
  actIf s (inCsr addr.toNat && csrAligned addr.toNat 8) fun s => s.regStore addr.toNat v.toNat

/-- RC_COUNTER_READ: an aligned 64-bit load; RC fields are cleared (R6, R7). -/
def execRcCounterRead (addr : W32) (s : State) : Host.Outcome State Fault Refusal :=
  actIf s (inCsr addr.toNat && csrAligned addr.toNat 8) fun s => s.load addr.toNat

/-- CSR_MISALIGNED_ACCESS (R4). -/
def execCsrMisalignedAccess (core : Fin 16) (addr : W32) (width : Nat) (_store : Bool) (s : State) : Host.Outcome State Fault Refusal :=
  actIf s (inCsr addr.toNat && !csrAligned addr.toNat width) fun s => s.accessFail core.val

/-- CORE_UNCACHED_ACCESS (R390-R394): `width` bytes at a physical address. -/
def execCoreUncachedAccess (core : Fin 16) (addr : Word) (width : Nat) (store : Option Word) (errs : Errs) (s : State) :
    Host.Outcome State Fault Refusal :=
  act s fun s => s.coreAccess core.val addr.toNat (min width 8) store errs

end Sys2Proof.Machine
end

