-- ==== Sys2Proof/Machine/Dispatch.lean ====
section
/-! DEFINITION. The commands' meanings, one arm for each constructor of Instr. -/

namespace Sys2Proof.Machine

def exec (i : Instr) (s : State) : Host.Outcome State Fault Refusal :=
  match i with
  | .registerWrite addr v => Sys2Proof.Machine.execRegisterWrite addr v s
  | .csrMisalignedAccess core addr width store => Sys2Proof.Machine.execCsrMisalignedAccess core addr width store s
  | .rcCounterRead addr => Sys2Proof.Machine.execRcCounterRead addr s
  | .append c q p => Sys2Proof.Machine.execAppend c q p s
  | .sealSeq c q p => Sys2Proof.Machine.execSealSeq c q p s
  | .fork c q p => Sys2Proof.Machine.execFork c q p s
  | .truncate c q p => Sys2Proof.Machine.execTruncate c q p s
  | .purgeRegister idx => Sys2Proof.Machine.execPurgeRegister idx s
  | .free c q p => Sys2Proof.Machine.execFree c q p s
  | .pageSeal desc => Sys2Proof.Machine.execPageSeal desc s
  | .sealCrcDone desc => Sys2Proof.Machine.execSealCrcDone desc s
  | .coldConversion idx => Sys2Proof.Machine.execColdConversion idx s
  | .thaw idx => Sys2Proof.Machine.execThaw idx s
  | .thawDone idx answered twin => Sys2Proof.Machine.execThawDone idx answered twin s
  | .pgtEpochAdvance => Sys2Proof.Machine.execPgtEpochAdvance s
  | .pageReclaim desc => Sys2Proof.Machine.execPageReclaim desc s
  | .cvuGo u v => Sys2Proof.Machine.execCvuGo u v s
  | .cvuCtxWrite u v => Sys2Proof.Machine.execCvuCtxWrite u v s
  | .cvuJobDone u errAt => Sys2Proof.Machine.execCvuJobDone u errAt s
  | .classDefine v => Sys2Proof.Machine.execClassDefine v s
  | .classDef1Write v => Sys2Proof.Machine.execClassDef1Write v s
  | .descSnapshot v => Sys2Proof.Machine.execDescSnapshot v s
  | .lookup c q p => Sys2Proof.Machine.execLookup c q p s
  | .lookupNext c q p => Sys2Proof.Machine.execLookupNext c q p s
  | .adoptFork c q p => Sys2Proof.Machine.execAdoptFork c q p s
  | .ageDecrement => Sys2Proof.Machine.execAgeDecrement s
  | .pdirScrubPass ue => Sys2Proof.Machine.execPdirScrubPass ue s
  | .purgePassDone k => Sys2Proof.Machine.execPurgePassDone k s
  | .pdirDisable v => Sys2Proof.Machine.execPdirDisable v s
  | .pdirEnable v => Sys2Proof.Machine.execPdirEnable v s
  | .query c q p => Sys2Proof.Machine.execQuery c q p s
  | .batchQuery c q p => Sys2Proof.Machine.execBatchQuery c q p s
  | .subquery c q p => Sys2Proof.Machine.execSubquery c q p s
  | .windowSplit st => Sys2Proof.Machine.execWindowSplit st s
  | .workItemDispatch st => Sys2Proof.Machine.execWorkItemDispatch st s
  | .engineUnitEnd e ce errs => Sys2Proof.Machine.execEngineUnitEnd e ce errs s
  | .lockWaitExpire e => Sys2Proof.Machine.execLockWaitExpire e s
  | .engineSramUe e => Sys2Proof.Machine.execEngineSramUe e s
  | .streamTimeout st => Sys2Proof.Machine.execStreamTimeout st s
  | .abort c q p => Sys2Proof.Machine.execAbort c q p s
  | .mergeRecord u => Sys2Proof.Machine.execMergeRecord u s
  | .partialRecord c q p => Sys2Proof.Machine.execPartialRecord c q p s
  | .mergeAreaUe st => Sys2Proof.Machine.execMergeAreaUe st s
  | .resultDelivered st => Sys2Proof.Machine.execResultDelivered st s
  | .grant c q p => Sys2Proof.Machine.execGrant c q p s
  | .wxpLoad v => Sys2Proof.Machine.execWxpLoad v s
  | .wxpLoadComplete part img ue tue => Sys2Proof.Machine.execWxpLoadComplete part img ue tue s
  | .wxpUnload v => Sys2Proof.Machine.execWxpUnload v s
  | .wxpUnloadComplete part img => Sys2Proof.Machine.execWxpUnloadComplete part img s
  | .wxpRestore v => Sys2Proof.Machine.execWxpRestore v s
  | .wxpRestoreComplete part img ue tue => Sys2Proof.Machine.execWxpRestoreComplete part img ue tue s
  | .wxpTileRequest st => Sys2Proof.Machine.execWxpTileRequest st s
  | .wxpBlockDecoded lane ue tue => Sys2Proof.Machine.execWxpBlockDecoded lane ue tue s
  | .wxpCopyGo v => Sys2Proof.Machine.execWxpCopyGo v s
  | .wxpCopyDone errAt => Sys2Proof.Machine.execWxpCopyDone errAt s
  | .heatSweep => Sys2Proof.Machine.execHeatSweep s
  | .sweepDone => Sys2Proof.Machine.execSweepDone s
  | .leapBegin desc dest => Sys2Proof.Machine.execLeapBegin desc dest s
  | .leapCommit desc ok => Sys2Proof.Machine.execLeapCommit desc ok s
  | .pin v => Sys2Proof.Machine.execPin v s
  | .unpin v => Sys2Proof.Machine.execUnpin v s
  | .faultIssue desc => Sys2Proof.Machine.execFaultIssue desc s
  | .faultLand desc ok => Sys2Proof.Machine.execFaultLand desc ok s
  | .assemblyUnitProgram part mirror => Sys2Proof.Machine.execAssemblyUnitProgram part mirror s
  | .offerSend peer => Sys2Proof.Machine.execOfferSend peer s
  | .lendOffer c q p => Sys2Proof.Machine.execLendOffer c q p s
  | .leapPush c q p => Sys2Proof.Machine.execLeapPush c q p s
  | .leapPull c q p => Sys2Proof.Machine.execLeapPull c q p s
  | .lendRelease c q p => Sys2Proof.Machine.execLendRelease c q p s
  | .recallStart => Sys2Proof.Machine.execRecallStart s
  | .lendRecall c q p => Sys2Proof.Machine.execLendRecall c q p s
  | .lendReturn c q p => Sys2Proof.Machine.execLendReturn c q p s
  | .recallDeadline ext => Sys2Proof.Machine.execRecallDeadline ext s
  | .lendReassign c q p => Sys2Proof.Machine.execLendReassign c q p s
  | .extentReclaim ext => Sys2Proof.Machine.execExtentReclaim ext s
  | .tierExtSnapshot v => Sys2Proof.Machine.execTierExtSnapshot v s
  | .add k d a b imm => Sys2Proof.Machine.execAdd k d a b imm s
  | .sub k d a b imm => Sys2Proof.Machine.execSub k d a b imm s
  | .and k d a b imm => Sys2Proof.Machine.execAnd k d a b imm s
  | .or k d a b imm => Sys2Proof.Machine.execOr k d a b imm s
  | .xor k d a b imm => Sys2Proof.Machine.execXor k d a b imm s
  | .shl k d a b imm => Sys2Proof.Machine.execShl k d a b imm s
  | .shr k d a b imm => Sys2Proof.Machine.execShr k d a b imm s
  | .sra k d a b imm => Sys2Proof.Machine.execSra k d a b imm s
  | .mul k d a b imm => Sys2Proof.Machine.execMul k d a b imm s
  | .sltu k d a b imm => Sys2Proof.Machine.execSltu k d a b imm s
  | .slt k d a b imm => Sys2Proof.Machine.execSlt k d a b imm s
  | .addi k d a b imm => Sys2Proof.Machine.execAddi k d a b imm s
  | .andi k d a b imm => Sys2Proof.Machine.execAndi k d a b imm s
  | .ori k d a b imm => Sys2Proof.Machine.execOri k d a b imm s
  | .xori k d a b imm => Sys2Proof.Machine.execXori k d a b imm s
  | .shli k d a b imm => Sys2Proof.Machine.execShli k d a b imm s
  | .shri k d a b imm => Sys2Proof.Machine.execShri k d a b imm s
  | .lui k gd imm => Sys2Proof.Machine.execLui k gd imm s
  | .ldw k d a b imm => Sys2Proof.Machine.execLdw k d a b imm s
  | .stw k d a b imm => Sys2Proof.Machine.execStw k d a b imm s
  | .ldb k d a b imm => Sys2Proof.Machine.execLdb k d a b imm s
  | .stb k d a b imm => Sys2Proof.Machine.execStb k d a b imm s
  | .beq k d a b imm => Sys2Proof.Machine.execBeq k d a b imm s
  | .bne k d a b imm => Sys2Proof.Machine.execBne k d a b imm s
  | .bltu k d a b imm => Sys2Proof.Machine.execBltu k d a b imm s
  | .bgeu k d a b imm => Sys2Proof.Machine.execBgeu k d a b imm s
  | .jal k gd imm => Sys2Proof.Machine.execJal k gd imm s
  | .jalr k d a b imm => Sys2Proof.Machine.execJalr k d a b imm s
  | .hld k d a b imm errs => Sys2Proof.Machine.execHld k d a b imm errs s
  | .hst k d a b x => Sys2Proof.Machine.execHst k d a b x s
  | .vhalb k d a b x => Sys2Proof.Machine.execVhalb k d a b x s
  | .vfix k d a b imm errs => Sys2Proof.Machine.execVfix k d a b imm errs s
  | .vld k d a b imm errs => Sys2Proof.Machine.execVld k d a b imm errs s
  | .vst k d a b imm => Sys2Proof.Machine.execVst k d a b imm s
  | .vldl k d a b imm => Sys2Proof.Machine.execVldl k d a b imm s
  | .vstl k d a b imm => Sys2Proof.Machine.execVstl k d a b imm s
  | .vxor k d a b imm => Sys2Proof.Machine.execVxor k d a b imm s
  | .vand k d a b imm => Sys2Proof.Machine.execVand k d a b imm s
  | .vor k d a b imm => Sys2Proof.Machine.execVor k d a b imm s
  | .vaddw k d a b imm => Sys2Proof.Machine.execVaddw k d a b imm s
  | .vdig k d a b imm => Sys2Proof.Machine.execVdig k d a b imm s
  | .vcrc k d a b imm => Sys2Proof.Machine.execVcrc k d a b imm s
  | .vbcast k d a b imm => Sys2Proof.Machine.execVbcast k d a b imm s
  | .rsend k d a b imm => Sys2Proof.Machine.execRsend k d a b imm s
  | .rrecv k d a b imm => Sys2Proof.Machine.execRrecv k d a b imm s
  | .waitd k d a b imm => Sys2Proof.Machine.execWaitd k d a b imm s
  | .donej k d a b imm => Sys2Proof.Machine.execDonej k d a b imm s
  | .halt k d a b imm => Sys2Proof.Machine.execHalt k d a b imm s
  | .digest k slot errs rmw => Sys2Proof.Machine.execDigest k slot errs rmw s
  | .crc k slot errs rmw => Sys2Proof.Machine.execCrc k slot errs rmw s
  | .compact k slot desc errs rmw => Sys2Proof.Machine.execCompact k slot desc errs rmw s
  | .zero k slot errs rmw => Sys2Proof.Machine.execZero k slot errs rmw s
  | .scrubRange k slot errs rmw => Sys2Proof.Machine.execScrubRange k slot errs rmw s
  | .scrubPage k slot errs rmw => Sys2Proof.Machine.execScrubPage k slot errs rmw s
  | .cow k slot errs rmw => Sys2Proof.Machine.execCow k slot errs rmw s
  | .sweep k slot errs rmw => Sys2Proof.Machine.execSweep k slot errs rmw s
  | .gkDoorbell k v => Sys2Proof.Machine.execGkDoorbell k v s
  | .slotWrite k slot w v => Sys2Proof.Machine.execSlotWrite k slot w v s
  | .lockRelease k slot => Sys2Proof.Machine.execLockRelease k slot s
  | .geckoWatchdog k => Sys2Proof.Machine.execGeckoWatchdog k s
  | .geckoStop k v => Sys2Proof.Machine.execGeckoStop k v s
  | .geckoReset k v => Sys2Proof.Machine.execGeckoReset k v s
  | .geckoRun k v => Sys2Proof.Machine.execGeckoRun k v s
  | .ustoreAccess k w => Sys2Proof.Machine.execUstoreAccess k w s
  | .scratchAccess k w => Sys2Proof.Machine.execScratchAccess k w s
  | .hbmRefresh k bank stallNs => Sys2Proof.Machine.execHbmRefresh k bank stallNs s
  | .hbmRetrain stack r => Sys2Proof.Machine.execHbmRetrain stack r s
  | .hbmScrubSchedule k => Sys2Proof.Machine.execHbmScrubSchedule k s
  | .fltFormat v => Sys2Proof.Machine.execFltFormat v s
  | .fltReplay v => Sys2Proof.Machine.execFltReplay v s
  | .replayDone cut => Sys2Proof.Machine.execReplayDone cut s
  | .fltEnable v => Sys2Proof.Machine.execFltEnable v s
  | .fltCmdRead v => Sys2Proof.Machine.execFltCmdRead v s
  | .fltCmdWrite v => Sys2Proof.Machine.execFltCmdWrite v s
  | .fltCmdTrim v => Sys2Proof.Machine.execFltCmdTrim v s
  | .fltCmdTrimArea v => Sys2Proof.Machine.execFltCmdTrimArea v s
  | .unitAllocate area n => Sys2Proof.Machine.execUnitAllocate area n s
  | .unitWrite lunit slots key data => Sys2Proof.Machine.execUnitWrite lunit slots key data s
  | .unitTrim lunit n => Sys2Proof.Machine.execUnitTrim lunit n s
  | .slotsUpdate lunit n => Sys2Proof.Machine.execSlotsUpdate lunit n s
  | .unitRead lunit k x => Sys2Proof.Machine.execUnitRead lunit k x s
  | .writeCommit lunit => Sys2Proof.Machine.execWriteCommit lunit s
  | .nativePadTimer strm => Sys2Proof.Machine.execNativePadTimer strm s
  | .journalFlush => Sys2Proof.Machine.execJournalFlush s
  | .checkpointSave => Sys2Proof.Machine.execCheckpointSave s
  | .gcMove lunit r => Sys2Proof.Machine.execGcMove lunit r s
  | .superblockOpen strm => Sys2Proof.Machine.execSuperblockOpen strm s
  | .programFail w => Sys2Proof.Machine.execProgramFail w s
  | .fltTempSample t => Sys2Proof.Machine.execFltTempSample t s
  | .packetReceive port frame fcsOk => Sys2Proof.Machine.execPacketReceive port frame fcsOk s
  | .ackDelayExpire c => Sys2Proof.Machine.execAckDelayExpire c s
  | .tackReceive c q p => Sys2Proof.Machine.execTackReceive c q p s
  | .transmitOpportunity node => Sys2Proof.Machine.execTransmitOpportunity node s
  | .retxTimerExpire c => Sys2Proof.Machine.execRetxTimerExpire c s
  | .reorderExpire c => Sys2Proof.Machine.execReorderExpire c s
  | .rateRecovery c => Sys2Proof.Machine.execRateRecovery c s
  | .portUp port => Sys2Proof.Machine.execPortUp port s
  | .portDown port => Sys2Proof.Machine.execPortDown port s
  | .conduitOpen v => Sys2Proof.Machine.execConduitOpen v s
  | .conduitClose v => Sys2Proof.Machine.execConduitClose v s
  | .conduitFail v => Sys2Proof.Machine.execConduitFail v s
  | .drainTimeout c => Sys2Proof.Machine.execDrainTimeout c s
  | .conduitSnapshot v => Sys2Proof.Machine.execConduitSnapshot v s
  | .ack c q p => Sys2Proof.Machine.execAck c q p s
  | .nack c q p => Sys2Proof.Machine.execNack c q p s
  | .loopbackSend c => Sys2Proof.Machine.execLoopbackSend c s
  | .controlFirmware c q p => Sys2Proof.Machine.execControlFirmware c q p s
  | .write c q key p => Sys2Proof.Machine.execWrite c q key p s
  | .writeImm c q key imm p => Sys2Proof.Machine.execWriteImm c q key imm p s
  | .read c q key p => Sys2Proof.Machine.execRead c q key p s
  | .readResp c q p => Sys2Proof.Machine.execReadResp c q p s
  | .regionRegister v => Sys2Proof.Machine.execRegionRegister v s
  | .regionRevoke v => Sys2Proof.Machine.execRegionRevoke v s
  | .revokeComplete idx => Sys2Proof.Machine.execRevokeComplete idx s
  | .regionSnapshot v => Sys2Proof.Machine.execRegionSnapshot v s
  | .cqEnable v => Sys2Proof.Machine.execCqEnable v s
  | .cqNotify cq => Sys2Proof.Machine.execCqNotify cq s
  | .cqCredit c q p => Sys2Proof.Machine.execCqCredit c q p s
  | .cqConsume v => Sys2Proof.Machine.execCqConsume v s
  | .postWr c q p => Sys2Proof.Machine.execPostWr c q p s
  | .workRequestFire ctr => Sys2Proof.Machine.execWorkRequestFire ctr s
  | .wrRetry id => Sys2Proof.Machine.execWrRetry id s
  | .flushCtr c q p => Sys2Proof.Machine.execFlushCtr c q p s
  | .counterSet v => Sys2Proof.Machine.execCounterSet v s
  | .counterDisable v => Sys2Proof.Machine.execCounterDisable v s
  | .bucketRefill => Sys2Proof.Machine.execBucketRefill s
  | .croakSend => Sys2Proof.Machine.execCroakSend s
  | .croak c q p => Sys2Proof.Machine.execCroak c q p s
  | .leaseExpire => Sys2Proof.Machine.execLeaseExpire s
  | .silence => Sys2Proof.Machine.execSilence s
  | .mirrorAppend c q p => Sys2Proof.Machine.execMirrorAppend c q p s
  | .mirrorSeal c q p => Sys2Proof.Machine.execMirrorSeal c q p s
  | .mirrorFork c q p => Sys2Proof.Machine.execMirrorFork c q p s
  | .mirrorTruncate c q p => Sys2Proof.Machine.execMirrorTruncate c q p s
  | .mirrorFree c q p => Sys2Proof.Machine.execMirrorFree c q p s
  | .mirrorPage c q p => Sys2Proof.Machine.execMirrorPage c q p s
  | .mirrorFetch c q p => Sys2Proof.Machine.execMirrorFetch c q p s
  | .mirrorTable c q p => Sys2Proof.Machine.execMirrorTable c q p s
  | .mirrorAckApplied c q p => Sys2Proof.Machine.execMirrorAckApplied c q p s
  | .mirrorAckFlushed c q p => Sys2Proof.Machine.execMirrorAckFlushed c q p s
  | .mirrorAckContent c q p => Sys2Proof.Machine.execMirrorAckContent c q p s
  | .takeoverClaim c q p => Sys2Proof.Machine.execTakeoverClaim c q p s
  | .takeoverGrant c q p => Sys2Proof.Machine.execTakeoverGrant c q p s
  | .takeoverRefuse c q p => Sys2Proof.Machine.execTakeoverRefuse c q p s
  | .claimTimeout => Sys2Proof.Machine.execClaimTimeout s
  | .takeoverAnnounce c q p => Sys2Proof.Machine.execTakeoverAnnounce c q p s
  | .takeoverHandback c q p => Sys2Proof.Machine.execTakeoverHandback c q p s
  | .takeoverPermit c q p => Sys2Proof.Machine.execTakeoverPermit c q p s
  | .takeoverPermitOk c q p => Sys2Proof.Machine.execTakeoverPermitOk c q p s
  | .permitTimeout => Sys2Proof.Machine.execPermitTimeout s
  | .handoff v => Sys2Proof.Machine.execHandoff v s
  | .handoffDrained => Sys2Proof.Machine.execHandoffDrained s
  | .expelPeer v => Sys2Proof.Machine.execExpelPeer v s
  | .regrowStart v => Sys2Proof.Machine.execRegrowStart v s
  | .regrowClaim => Sys2Proof.Machine.execRegrowClaim s
  | .twnHandback v => Sys2Proof.Machine.execTwnHandback v s
  | .twnRelease v => Sys2Proof.Machine.execTwnRelease v s
  | .clearSuspect v => Sys2Proof.Machine.execClearSuspect v s
  | .wornClear ch => Sys2Proof.Machine.execWornClear ch s
  | .xchkCompare st k => Sys2Proof.Machine.execXchkCompare st k s
  | .healthCompute => Sys2Proof.Machine.execHealthCompute s
  | .windowSnapshot v => Sys2Proof.Machine.execWindowSnapshot v s
  | .xlogSnapshot v => Sys2Proof.Machine.execXlogSnapshot v s
  | .custodyPrepare c q p => Sys2Proof.Machine.execCustodyPrepare c q p s
  | .custodyHandover c q p => Sys2Proof.Machine.execCustodyHandover c q p s
  | .custodyAccept c q p => Sys2Proof.Machine.execCustodyAccept c q p s
  | .custodyCommit c q p => Sys2Proof.Machine.execCustodyCommit c q p s
  | .custodyRevert c q p => Sys2Proof.Machine.execCustodyRevert c q p s
  | .custodyCancel c q p => Sys2Proof.Machine.execCustodyCancel c q p s
  | .custodyAsk c q p => Sys2Proof.Machine.execCustodyAsk c q p s
  | .custodySync c q p => Sys2Proof.Machine.execCustodySync c q p s
  | .custodyRelease c q p => Sys2Proof.Machine.execCustodyRelease c q p s
  | .custodyInfo c q p => Sys2Proof.Machine.execCustodyInfo c q p s
  | .custodyDeadline idx => Sys2Proof.Machine.execCustodyDeadline idx s
  | .custodyAskTimer idx => Sys2Proof.Machine.execCustodyAskTimer idx s
  | .orphanFree idx => Sys2Proof.Machine.execOrphanFree idx s
  | .moltQueue hi v => Sys2Proof.Machine.execMoltQueue hi v s
  | .moltStart => Sys2Proof.Machine.execMoltStart s
  | .moltDone ok => Sys2Proof.Machine.execMoltDone ok s
  | .fuseProgram v => Sys2Proof.Machine.execFuseProgram v s
  | .fuseRevoke v => Sys2Proof.Machine.execFuseRevoke v s
  | .svnStep v => Sys2Proof.Machine.execSvnStep v s
  | .keyLoad v => Sys2Proof.Machine.execKeyLoad v s
  | .keyErase v => Sys2Proof.Machine.execKeyErase v s
  | .pkeyCreate part v => Sys2Proof.Machine.execPkeyCreate part v s
  | .pkeyLoad part v => Sys2Proof.Machine.execPkeyLoad part v s
  | .pkeyDestroy part v => Sys2Proof.Machine.execPkeyDestroy part v s
  | .measExtend v => Sys2Proof.Machine.execMeasExtend v s
  | .secSign v => Sys2Proof.Machine.execSecSign v s
  | .secQuote v => Sys2Proof.Machine.execSecQuote v s
  | .signatureDone => Sys2Proof.Machine.execSignatureDone s
  | .bootDone v => Sys2Proof.Machine.execBootDone v s
  | .rngRead => Sys2Proof.Machine.execRngRead s
  | .debugDeclare v => Sys2Proof.Machine.execDebugDeclare v s
  | .debugAttach => Sys2Proof.Machine.execDebugAttach s
  | .evcClaim core => Sys2Proof.Machine.execEvcClaim core s
  | .evcComplete core v => Sys2Proof.Machine.execEvcComplete core v s
  | .evcSrcWrite src v => Sys2Proof.Machine.execEvcSrcWrite src v s
  | .mailboxEnable mb v => Sys2Proof.Machine.execMailboxEnable mb v s
  | .mailboxConsume mb v => Sys2Proof.Machine.execMailboxConsume mb v s
  | .mailboxPost v => Sys2Proof.Machine.execMailboxPost v s
  | .mtimeCompare core => Sys2Proof.Machine.execMtimeCompare core s
  | .watchdogExpire => Sys2Proof.Machine.execWatchdogExpire s
  | .watchdogKick v => Sys2Proof.Machine.execWatchdogKick v s
  | .coreRun core v => Sys2Proof.Machine.execCoreRun core v s
  | .coreReset core v => Sys2Proof.Machine.execCoreReset core v s
  | .coreUncachedAccess core addr width store errs => Sys2Proof.Machine.execCoreUncachedAccess core addr width store errs s
  | .glbTempSample t => Sys2Proof.Machine.execGlbTempSample t s
  | .softReset v => Sys2Proof.Machine.execSoftReset v s
  | .coldStart nor failed geom chips => Sys2Proof.Machine.execColdStart nor failed geom chips s
  | .warmRestart nor => Sys2Proof.Machine.execWarmRestart nor s
  | .debugReset => Sys2Proof.Machine.execDebugReset s
  | .joinTimeout => Sys2Proof.Machine.execJoinTimeout s
  | .shelterEnter => Sys2Proof.Machine.execShelterEnter s
  | .shelterExit => Sys2Proof.Machine.execShelterExit s
  | .shelterTimeout => Sys2Proof.Machine.execShelterTimeout s
  | .powerFail => Sys2Proof.Machine.execPowerFail s
  | .powerfailRestart nor failed geom chips => Sys2Proof.Machine.execPowerfailRestart nor failed geom chips s
  | .pllUnlock pll => Sys2Proof.Machine.execPllUnlock pll s
  | .pllRelock pll => Sys2Proof.Machine.execPllRelock pll s
  | .thermtrip => Sys2Proof.Machine.execThermtrip s
  | .mgtFrameReceive frame fcsOk => Sys2Proof.Machine.execMgtFrameReceive frame fcsOk s
  | .mgtRxPost v => Sys2Proof.Machine.execMgtRxPost v s
  | .mgtTxPost v => Sys2Proof.Machine.execMgtTxPost v s
  | .mgtTxDone => Sys2Proof.Machine.execMgtTxDone s
  | .mgtLinkChange up => Sys2Proof.Machine.execMgtLinkChange up s
  | .compositionWrite part v => Sys2Proof.Machine.execCompositionWrite part v s
  | .usageSample => Sys2Proof.Machine.execUsageSample s
  | .usagePeriodic => Sys2Proof.Machine.execUsagePeriodic s
  | .usageSnapshot v => Sys2Proof.Machine.execUsageSnapshot v s
  | .mgtTempSample hbm => Sys2Proof.Machine.execMgtTempSample hbm s
  | .extest cells => Sys2Proof.Machine.execExtest cells s
  | .idcode => Sys2Proof.Machine.execIdcode s
  | .samplePreload cells => Sys2Proof.Machine.execSamplePreload cells s
  | .tapDebug => Sys2Proof.Machine.execTapDebug s
  | .bypass ir => Sys2Proof.Machine.execBypass ir s
  | .coldResetAssert => Sys2Proof.Machine.execColdResetAssert s
  | .eraseComplete sb failed => Sys2Proof.Machine.execEraseComplete sb failed s
  | .fuseCommandDone readback => Sys2Proof.Machine.execFuseCommandDone readback s
  | .illegalOpcode k => Sys2Proof.Machine.execIllegalOpcode k s
  | .freeComplete idx => Sys2Proof.Machine.execFreeComplete idx s
  | .regrowMirrorSend => Sys2Proof.Machine.execRegrowMirrorSend s
  | .debugDetach => Sys2Proof.Machine.execDebugDetach s
  | .pcacheBlockZeroed slice blk => Sys2Proof.Machine.execPcacheBlockZeroed slice blk s

end Sys2Proof.Machine
end

