-- ==== Sys2Proof/Safety.lean ====
section
/-! DEFINITION. What every state of a run keeps, and the terms statements use: what a command gives, what it leaves. -/

namespace Sys2Proof.Machine

/-- The memories are in canonical form: addresses strictly rising, no byte that an unlisted address reads as. -/
abbrev Memory.wf (m : List Host.Cell) : Prop := mwf 0 m = true

/-- HBM and PCACHE are in canonical form. -/
def State.Safe (s : State) : Prop := Memory.wf s.hbm ∧ Memory.wf s.pcache

/-- What every state of a run keeps: memory in canonical form, and well-formed commands in the queue. -/
def State.Inv (s : State) : Prop := s.Safe ∧ ∀ i ∈ s.pending, i.wf = true

/-- The pieces of the state beside the queue. -/
inductive Part where
  | csr | rdata | accessFault | mtime | inReset | glb | mgt | tap | hbm | pcache | trl | sch | evc | sec | rmo | pgt | pdir | twn | cust | ae | tier | hb | flt | wxp | free
  deriving DecidableEq, Repr

/-- A piece is the same in two states; memory, where each byte reads the same. -/
def State.same (s t : State) : Part → Prop
  | .csr => t.csr = s.csr
  | .rdata => t.rdata = s.rdata
  | .accessFault => t.accessFault = s.accessFault
  | .mtime => t.mtime = s.mtime
  | .inReset => t.inReset = s.inReset
  | .glb => t.glb = s.glb
  | .mgt => t.mgt = s.mgt
  | .tap => t.tap = s.tap
  | .hbm => ∀ a, byteOf t.hbm a = byteOf s.hbm a
  | .pcache => ∀ a, byteOf t.pcache a = byteOf s.pcache a
  | .trl => t.trl = s.trl
  | .sch => t.sch = s.sch
  | .evc => t.evc = s.evc
  | .sec => t.sec = s.sec
  | .rmo => t.rmo = s.rmo
  | .pgt => t.pgt = s.pgt
  | .pdir => t.pdir = s.pdir
  | .twn => t.twn = s.twn
  | .cust => t.cust = s.cust
  | .ae => t.ae = s.ae
  | .tier => t.tier = s.tier
  | .hb => t.hb = s.hb
  | .flt => t.flt = s.flt
  | .wxp => t.wxp = s.wxp
  | .free => t.free = s.free

/-- Nothing but these pieces has changed; the queue has not. -/
def State.only (s : State) (ps : List Part) (t : State) : Prop := t.pending = s.pending ∧ ∀ p, p ∉ ps → s.same t p

/-- Every register but these reads as before. -/
def State.regsBut (s : State) (ks : List Nat) (t : State) : Prop := ∀ a, a ∉ ks → t.reg a = s.reg a

/-- Every byte of HBM outside n bytes from `lo` reads as before. -/
def State.hbmBut (s : State) (lo n : Nat) (t : State) : Prop := ∀ a, a < lo ∨ lo + n ≤ a → byteOf t.hbm a = byteOf s.hbm a

/-! ## Geckos -/

/-- Gecko k is about to carry out the word: it runs, and the word stands at its PC (R203). -/
abbrev State.gkAt (s : State) (k w : Nat) : Prop := s.inReset = false ∧ s.gkRuns k = true ∧ (s.gk k).fetch = w

/-- Nothing but gecko k and these pieces has changed. -/
def State.gkOnly (s : State) (k : Nat) (ps : List Part) (t : State) : Prop :=
  (∀ j, j ≠ k → t.gk j = s.gk j) ∧ t.hb = { s.hb with geckos := t.hb.geckos } ∧ s.only (.hb :: ps) t

/-- What every instruction that completes leaves of a gecko: it has counted one more. -/
def Gecko.ran (g : Gecko) : Gecko := { g with state := .running, cycles := g.cycles + 1 }

/-- g`d` becomes `v`, unless it is g0, and the PC moves on; nothing else changes. -/
def State.gkSets (s : State) (k d : Nat) (v : W32) (t : State) : Prop :=
  (∀ i < 16, (t.gk k).reg i = if i = d ∧ i ≠ 0 then v else (s.gk k).reg i) ∧
  t.gk k = { (s.gk k).ran with regs := (t.gk k).regs, pc := (s.gk k).pc + 1 } ∧ s.gkOnly k [] t

/-- v`d` becomes `v`, and the PC moves on; nothing else changes. -/
def State.gkSetsV (s : State) (k d : Nat) (v : BitVec 256) (t : State) : Prop :=
  (∀ i < 8, (t.gk k).vreg i = if i = d then v else (s.gk k).vreg i) ∧
  t.gk k = { (s.gk k).ran with vregs := (t.gk k).vregs, pc := (s.gk k).pc + 1 } ∧ s.gkOnly k [] t

/-- The address ga + imm14 (R203). -/
def Gecko.ea (g : Gecko) (a : Nat) (imm : BitVec 14) : Nat := (((g.reg a).toNat + imm.toInt) % 2 ^ 32).toNat

/-- An entry of one of these kinds covers n bytes of channel k from a (R205). -/
abbrev State.window (s : State) (k a n : Nat) (kinds : List LockKind) : Prop :=
  ∃ e ∈ s.lockTable k, e.kind ∈ kinds ∧ e.start ≤ a ∧ a + n ≤ e.start + e.len

/-- The entry of a mailbox that is written next. -/
def State.mbEntry (s : State) (m : Nat) : Nat := s.fd (Fd.EVC_MB_BASE_ADDR m) + s.fd (Fd.EVC_MB_IDX_PI m) % s.mbSize m * 64

/-- Slot n of gecko k has ended with a status (R206, R207). -/
def State.slotEnded (s : State) (k n st : Nat) : Prop :=
  (tget 0 (s.gk k).cmd (32 * n + 2)).toNat = st ∧ (tget 0 (s.gk k).cmd (32 * n + 1)).toNat % 2 = 1 ∧
  n ∉ (s.gk k).rung ∧ n ∉ (s.gk k).busy ∧ bits (s.fd (Fd.GK_READY_READY (k / 32) (k % 32))) n n = 1

/-- Gecko k has halted before its instruction wrote anything, with P of its registers (R204), and the halt is counted if
it was in a standard job (R337). -/
def State.gkHalts (s : State) (k : Nat) (P : State → Prop) (t : State) : Prop :=
  ∃ u : State, P u ∧ (u.gk k).state = .halted ∧ u.fd (Fd.HBM_CH_STATUS_GK_HALTED (k / 32) (k % 32)) = 1 ∧
  (∀ n ∈ (s.gk k).busy ++ (s.gk k).rung, n < 8 → u.slotEnded k n stFORMAT) ∧
  u.gk k = { s.gk k with state := .halted, rung := [], busy := [], cmd := (u.gk k).cmd } ∧
  (∀ j, j ≠ k → u.gk j = s.gk j) ∧ s.only [.csr, .hb, .hbm, .evc] u ∧ s.hbmBut (s.mbEntry 3) 64 u ∧
  t = s.commit (u.gkCounted k (s.gk k).onJob)

/-- It has halted with a cause. -/
def State.gkStops (s : State) (k : Nat) (f : Fd) (t : State) : Prop := s.gkHalts k (fun u => u.fd f = 1) t

/-- `t` is `u`, and then the symbols its access of n bytes from a found in error are counted (R195, R216). -/
def State.afterErrs (s u : State) (k : Nat) (es : Errs) (a n : Nat) (t : State) : Prop :=
  let v := u.eccRange es a n
  t = s.commit (v.setGk k (v.gk k))

/-- Nothing that a job's or a page's end could wake is waiting. -/
abbrev State.quiet (s : State) : Prop := s.pgt.ops = [] ∧ s.pgt.copies = [] ∧ s.cust.held = [] ∧ s.tier.borrowed = []

/-- Nothing waits on the transport's acts either: no outcome, posting or transfer, and no draining conduit. -/
abbrev State.still (s : State) : Prop :=
  s.quiet ∧ s.trl.ended = [] ∧ s.trl.postings = [] ∧ s.cust.transfers = [] ∧ ∀ c ∈ s.trl.conduits, c.2.cstate ≠ 2

/-! ## Messages and sequences -/

/-- One more message waits at the end of a conduit's queue. -/
def State.sent (s : State) (c op : Nat) (payload : List Byte) (t : State) : Prop :=
  ∃ cd cd' m, s.conduit c = some cd ∧ t.conduit c = some cd' ∧ cd'.queue = cd.queue ++ [m] ∧ m.op = op ∧ m.payload = payload

/-- These messages, opcode and payload, wait at the end of a conduit's queue. -/
def State.sentAll (s : State) (c : Nat) (l : List (Nat × List Byte)) (t : State) : Prop :=
  ∃ cd cd' ms, s.conduit c = some cd ∧ t.conduit c = some cd' ∧ cd'.queue = cd.queue ++ ms ∧
    ms.map (fun m : OutMsg => (m.op, m.payload)) = l

/-- Request q of conduit c has been answered: an ACK for OK, EMPTY and ALREADY_DONE, else a NACK (R252, Table 12-5). -/
def State.answered (s : State) (c q st : Nat) (body : List Byte) (t : State) : Prop :=
  s.sent c (if st ≤ 2 then 0x30 else 0x31) (le 4 q ++ le 1 st ++ zeros 3 ++ body) t

/-- A conduit takes messages: it is ACTIVE, and this node may send on it (R255, R331). -/
abbrev State.sends (s : State) (c : Nat) : Prop := (s.conduit c).map (·.cstate) = some 1 ∧ s.muted c = false

/-- The member is not one of a serving pair: nothing is mirrored (R317). -/
abbrev State.alone (s : State) : Prop := s.role = .down ∨ s.role = .solo

/-- A request of conduit c that names handle h, held here as sequence k, may begin at once: nothing waits before it. -/
abbrev State.takes (s : State) (c h k : Nat) (q : Seq) : Prop :=
  s.inReset = false ∧ s.quiet ∧ s.alone ∧ s.sends c ∧ hPart h = s.partOf c ∧ s.route h = .here k ∧ s.seq k = some q ∧
  s.handleOk h (s.partOf c) k = true ∧ q.sstate = .active

end Sys2Proof.Machine

namespace Sys2Proof

/-- The command answers a next state, and that state is as `P` says. -/
def Instr.gives (c : Instr) (s : Machine.State) (P : Machine.State → Prop) : Prop := ∃ t, Machine.exec c s = .next t ∧ P t

end Sys2Proof
end

