-- ==== Sys2Proof/Certificates/Slice0/Obligations.lean ====
section
/-! DEFINITION. The statements for the provers. -/

open Sys2Proof Sys2Proof.Machine

/-- A step carries out the command at the front of the queue, with the queue's rest. -/
def Obligations.StepRunsFront : Prop :=
  ∀ (i : Instr) (rest : List Instr) (s : State),
    step { s with pending := i :: rest } = exec i { s with pending := rest }

/-- The invariant of the model (the queue of commands and the form of memory are the model's, notes/assumptions/3.md) is kept
by every step, and a step takes exactly the front of the queue. -/
def Obligations.EveryStepKeeps : Prop :=
  ∀ s t : State, s.Inv → step s = .next t → t.Inv ∧ t.pending = s.pending.tail

/-- Right after reset the invariant holds, and no command waits. -/
def Obligations.ResetKeepsInvariant : Prop := State.reset.Inv ∧ State.reset.pending = []

/-- No command stops the block. -/
def Obligations.EveryCommandAnswers : Prop := ∀ (c : Instr) (s : State), ∃ t, exec c s = .next t

/-- Where reset is held, a command that is no restart, thermal trip or act of the test port changes nothing. -/
def Obligations.HeldResetStops : Prop :=
  ∀ (c : Instr) (s : State), s.inReset = true →
    match c with
    | .coldStart .. | .warmRestart .. | .powerfailRestart .. | .thermtrip | .coldResetAssert => True
    | .extest .. | .idcode | .samplePreload .. | .tapDebug | .bypass .. => True
    | c => exec c s = .next s

/-- The model's choice of notes/assumptions/5.md: a step on an empty queue lets 10 ns pass. -/
def Obligations.IdleTakesTime : Prop :=
  ∀ s : State, s.pending = [] →
    (s.inReset = true → step s = .next s) ∧
    (s.inReset = false → (∀ k, (s.gk k).stalls = false) → step s = .next { s with mtime := s.mtime + 1 }) ∧
    (s.inReset = false → ∀ (k : Nat) (g : Gecko), s.hb.geckos = [(k, g)] → g.stalls = true → ∃ t, step s = .next t ∧
      t.mtime = s.mtime + 1 ∧ t.gk k = { g with since := g.since + 1, stallLeft := g.stallLeft - 1 } ∧
      (let f := Fd.GK_STALL_NS_NS (k / 32) (k % 32)
       t.fd f = if g.stallLeft = 0 then min (s.fd f + 10) (2 ^ (f.hi + 1 - f.lo) - 1) else s.fd f) ∧
      s.gkOnly k [.csr, .mtime] t)

/-- Values the spec gives for reset. -/
def Obligations.ResetValues : Prop :=
  let s := State.reset
  s.mtime = 0 ∧ s.fd Fd.GLB_MEMCFG_CTL_GIB = 16 ∧ s.fd Fd.GLB_TEMP_ALARM_C = 100 ∧
  (∀ c < 16, s.fd (Fd.GLB_CORE_CTL_RUN c) = (if c = 0 then 1 else 0) ∧ s.fd (Fd.GLB_MTIMECMP_CMP c) = 2 ^ 64 - 1 ∧
    s.fd (Fd.EVC_THRESH_LEVEL c) = 0) ∧
  s.flag Fd.EVC_CTL_ENABLE = false ∧ s.evc.insvc = [] ∧
  (∀ m < 16, s.flag (Fd.EVC_MB_CFG_ENABLE m) = false ∧ s.fd (Fd.EVC_MB_CFG_LOG2SIZE m) = 6) ∧
  s.flag Fd.TRL_CTL_ENABLE = false ∧ s.flag Fd.AE_GCTL_ENABLE = false ∧ s.flag Fd.TWN_CTL_ENABLE = false ∧
  s.fd Fd.FLT_STATUS_STATE = 0 ∧ (∀ i < 8, s.flag (Fd.HBM_CTL_ENABLE i) = false) ∧
  s.twn.role = .down ∧ s.sec.hashes.map Prod.fst = [0] ∧ s.hbm = [] ∧ s.pcache = []

/-- R4: narrower and misaligned accesses, accesses to no register, and that an aligned one never faults. -/
def Obligations.CsrAlignment : Prop :=
  ∀ (s : State) (core : Fin 16), s.inReset = false →
    (∀ (a : W32) (w : Nat) (st : Bool), inCsr a.toNat = true → ¬(w = 8 ∧ a.toNat % 8 = 0) →
      (Instr.csrMisalignedAccess core a w st).gives s fun t =>
        t.rdata = 0 ∧ core.val ∈ t.accessFault ∧ s.only [.rdata, .accessFault] t) ∧
    (∀ (a : Word) (w : Nat) (st : Option Word) (errs : Errs), inCsr a.toNat = true → w ≤ 8 → ¬(w = 8 ∧ a.toNat % 8 = 0) →
      (Instr.coreUncachedAccess core a w st errs).gives s fun t =>
        t.rdata = 0 ∧ core.val ∈ t.accessFault ∧ s.only [.rdata, .accessFault] t) ∧
    (∀ (a : Word) (st : Option Word) (errs : Errs), inCsr a.toNat = true → a.toNat % 8 = 0 → regAt a.toNat = none →
      (Instr.coreUncachedAccess core a 8 st errs).gives s fun t => t.rdata = 0 ∧ s.only [.rdata, .accessFault] t) ∧
    (∀ (a : Word) (st : Option Word) (errs : Errs), inCsr a.toNat = true → a.toNat % 8 = 0 →
      (Instr.coreUncachedAccess core a 8 st errs).gives s fun t => core.val ∉ t.accessFault)

/-- R5 and R6 over the MRG registers and the blocks' error registers, none of which has an act of its own on a store. -/
def Obligations.RegisterWriteFields : Prop :=
  ∀ (s : State) (a : W32) (v : Word) (r : RegDef), s.inReset = false → regAt a.toNat = some r →
    ((0x42000000 ≤ a.toNat ∧ a.toNat < 0x42800000) ∨
      a.toNat ∈ [Reg.PGT_ERR, Reg.PDIR_ERR, Reg.WXP_ERR, Reg.TIER_ERR, Reg.FLT_ERR, Reg.TRL_ERR, Reg.RMO_ERR, Reg.SCH_ERR,
        Reg.TWN_ERR, Reg.SEC_ERR, Reg.MGT_ERR]) →
    (Instr.registerWrite a v).gives s fun t =>
      (∀ f ∈ r.fields, bits (t.reg a.toNat) f.hi f.lo =
        match f.acc with
        | .rw => f.treat.apply (bits v.toNat f.hi f.lo) % 2 ^ (f.hi + 1 - f.lo)
        | .w1c => bits (s.reg a.toNat) f.hi f.lo - (bits (s.reg a.toNat) f.hi f.lo &&& bits v.toNat f.hi f.lo)
        | .ro | .rc => bits (s.reg a.toNat) f.hi f.lo
        | .wo | .mb => 0) ∧
      s.only [.csr] t ∧ s.regsBut [a.toNat] t

/-- R6: an RC register's read returns the value and clears it in one step. -/
def Obligations.CounterReadClears : Prop :=
  ∀ (s : State) (a : W32) (r : RegDef), s.inReset = false → regAt a.toNat = some r → r.dims = [] →
    r.fields = [⟨63, 0, .rc, 0, .plain⟩] →
    (Instr.rcCounterRead a).gives s fun t =>
      t.rdata.toNat = s.reg a.toNat ∧ t.reg a.toNat = 0 ∧ s.only [.csr, .rdata] t ∧ s.regsBut [a.toNat] t

/-- R390 and R394, for accesses of 1, 2, 4 or 8 bytes. -/
def Obligations.CoreAccess : Prop :=
  ∀ (s : State) (core : Fin 16) (a : Word) (w : Nat), s.inReset = false → 1 ≤ w → w ≤ 8 →
    (∀ A, a.toNat = 2 ^ 39 + A → A + w ≤ hbmBytes → s.lockedAt A w = false →
      ((Instr.coreUncachedAccess core a w none []).gives s fun t =>
        t.rdata.toNat = unle (overlay s.hbmStruct A (s.hbmRead A w)) ∧ core.val ∉ t.accessFault ∧ s.only [.rdata, .accessFault] t) ∧
      ∀ v : Word, (s.coreMayWrite A w = true →
          (Instr.coreUncachedAccess core a w (some v) []).gives s fun t =>
            t.hbmRead A w = le w v.toNat ∧ s.hbmBut A w t ∧ core.val ∉ t.accessFault ∧ s.only [.rdata, .accessFault, .hbm] t) ∧
        (s.coreMayWrite A w = false →
          (Instr.coreUncachedAccess core a w (some v) []).gives s fun t =>
            core.val ∈ t.accessFault ∧ s.only [.rdata, .accessFault] t)) ∧
    (∀ A, a.toNat = 2 ^ 39 + A → A + w ≤ s.ctlBytes → s.coreMayWrite A w = true) ∧
    (0x90000000 ≤ a.toNat → a.toNat + w ≤ 0x9C000000 →
      ((Instr.coreUncachedAccess core a w none []).gives s fun t =>
        t.rdata.toNat = unle (overlay s.pcStruct (a.toNat - 0x90000000) (s.pcRead (a.toNat - 0x90000000) w)) ∧ s.only [.rdata, .accessFault] t) ∧
      ∀ v : Word, (Instr.coreUncachedAccess core a w (some v) []).gives s fun t =>
        core.val ∈ t.accessFault ∧ s.only [.rdata, .accessFault] t) ∧
    (∀ st : Option Word, (0x20000 ≤ a.toNat ∧ a.toNat < 0x40000000 ∨ 0x48000000 ≤ a.toNat ∧ a.toNat < 0x90000000 ∨
        0x9C000000 ≤ a.toNat ∧ a.toNat < 2 ^ 39 ∨ 2 ^ 39 + hbmBytes ≤ a.toNat) →
      (Instr.coreUncachedAccess core a w st []).gives s fun t =>
        t.rdata = 0 ∧ core.val ∈ t.accessFault ∧ s.only [.rdata, .accessFault] t)

/-- R400 over the pending sources of R399. -/
def Obligations.ClaimReturnsTheHighest : Prop :=
  ∀ (s : State) (core : Fin 16), s.inReset = false → (Instr.evcClaim core).gives s fun t =>
    ((∀ n < 2048, s.asserts core.val n = false) →
      t.rdata = 0 ∧ t.fd Fd.EVC_EMPTY_CLAIMS_COUNT = min (s.fd Fd.EVC_EMPTY_CLAIMS_COUNT + 1) (2 ^ 64 - 1) ∧
      s.only [.csr, .rdata] t ∧ s.regsBut [Reg.EVC_EMPTY_CLAIMS] t) ∧
    (∀ n < 2048, s.asserts core.val n = true → ∃ m < 2048, t.rdata.toNat = m ∧ s.asserts core.val m = true ∧
      (s.fd (Fd.EVC_SRC_PRIO n) < s.fd (Fd.EVC_SRC_PRIO m) ∨
        s.fd (Fd.EVC_SRC_PRIO n) = s.fd (Fd.EVC_SRC_PRIO m) ∧ m ≤ n) ∧
      tfind t.evc.insvc m = some core.val ∧ (∀ k, k ≠ m → tfind t.evc.insvc k = tfind s.evc.insvc k) ∧
      t.fd (Fd.EVC_ACTIVE_LAST core.val) = m ∧ t.fd Fd.EVC_CLAIMS_COUNT = min (s.fd Fd.EVC_CLAIMS_COUNT + 1) (2 ^ 64 - 1) ∧
      s.only [.csr, .rdata, .evc] t ∧ s.regsBut [Reg.EVC_ACTIVE core.val, Reg.EVC_CLAIMS] t)

/-- R401, R402. -/
def Obligations.CompleteAndMask : Prop :=
  (∀ (s : State) (core : Fin 16) (v : Word), s.inReset = false → (Instr.evcComplete core v).gives s fun t =>
    (tfind s.evc.insvc (v.toNat % 2048) = some core.val → tfind t.evc.insvc (v.toNat % 2048) = none) ∧
    (tfind s.evc.insvc (v.toNat % 2048) ≠ some core.val → t.evc = s.evc) ∧
    (∀ n, n ≠ v.toNat % 2048 → tfind t.evc.insvc n = tfind s.evc.insvc n) ∧ s.only [.evc] t) ∧
  (∀ (s : State) (src : Fin 2048) (v : Word), s.inReset = false → sourceExists src.val = true →
    (Instr.evcSrcWrite src v).gives s fun t =>
      t.fd (Fd.EVC_SRC_PRIO src.val) = v.toNat % 16 ∧ t.fd (Fd.EVC_SRC_TARGET src.val) = bits v.toNat 31 16 ∧
      (∀ c < 16, (v.toNat % 16 = 0 ∨ bits v.toNat (16 + c) (16 + c) = 0) → t.asserts c src.val = false) ∧
      s.only [.csr] t ∧ s.regsBut [Reg.EVC_SRC src.val] t)

/-- R405, R407, R408 and Table 18-11. -/
def Obligations.MailboxIndices : Prop :=
  ∀ (s : State), s.inReset = false →
    (∀ (mb : Fin 16) (v : Word), bits v.toNat 63 63 = 1 → s.flag (Fd.EVC_MB_CFG_ENABLE mb.val) = false →
      (mb.val ≤ 5 ∨ mb.val = 15) → (Instr.mailboxEnable mb v).gives s fun t =>
        t.flag (Fd.EVC_MB_CFG_ENABLE mb.val) = true ∧ t.reg (Reg.EVC_MB_IDX mb.val) = 0 ∧ t.reg (Reg.EVC_MB_ACK mb.val) = 0 ∧
        t.fd (Fd.EVC_MB_CFG_LOG2SIZE mb.val) = max 6 (min (bits v.toNat 60 56) 16) ∧ s.only [.csr, .trl] t ∧
        s.regsBut [Reg.EVC_MB_CFG mb.val, Reg.EVC_MB_IDX mb.val, Reg.EVC_MB_ACK mb.val] t) ∧
    (∀ (mb : Fin 16) (v : Word), bits v.toNat 63 63 = 1 → s.flag (Fd.EVC_MB_CFG_ENABLE mb.val) = true →
      (Instr.mailboxEnable mb v).gives s fun t => (∀ a, t.reg a = s.reg a) ∧ s.only [.csr] t) ∧
    (∀ (mb : Fin 16) (v : Word), mb.val ≤ 5 →
      let ci := s.fd (Fd.EVC_MB_IDX_CI mb.val)
      let room := serialDist 32 ci (s.fd (Fd.EVC_MB_IDX_PI mb.val))
      (Instr.mailboxConsume mb v).gives s fun t =>
        (serialDist 32 ci (bits v.toNat 31 0) ≤ room → t.fd (Fd.EVC_MB_IDX_CI mb.val) = bits v.toNat 31 0 ∧
          t.fd (Fd.EVC_MB_IDX_PI mb.val) = s.fd (Fd.EVC_MB_IDX_PI mb.val) ∧
          (∀ h, h ∈ t.trl.holds ↔ h ∈ s.trl.holds ∧
            (h.mb ≠ mb.val ∨ serialDist 32 ci (bits v.toNat 31 0) ≤ serialDist 32 ci h.index))) ∧
        (room < serialDist 32 ci (bits v.toNat 31 0) → (∀ a, t.reg a = s.reg a) ∧ t.trl = s.trl) ∧
        s.only [.csr, .trl] t ∧ s.regsBut [Reg.EVC_MB_IDX mb.val] t) ∧
    (∀ v : Word, s.mbSize 15 < serialDist 32 (s.fd (Fd.EVC_MB_IDX_CI 15)) (bits v.toNat 63 32) →
      (Instr.mailboxPost v).gives s fun t => (∀ a, t.reg a = s.reg a) ∧ s.only [.csr] t) ∧
    (∀ v : Word,
      let pi := s.fd (Fd.EVC_MB_IDX_PI 15)
      let e := s.hbmRead (s.fd (Fd.EVC_MB_BASE_ADDR 15) + pi % s.mbSize 15 * 64) 64
      s.flag (Fd.EVC_MB_CFG_ENABLE 15) = true → s.trl.postings = [] → s.trl.postNext = pi →
      s.fd (Fd.EVC_MB_IDX_CI 15) = pi → bits v.toNat 63 32 = (pi + 1) % 2 ^ 32 →
      postedOk e = true → lat e 0 2 = 0x11 → lat e 24 1 < 64 → s.flag (Fd.TRL_PORT_STATUS_UP (lat e 24 1)) = true →
      (Instr.mailboxPost v).gives s fun t =>
        t.fd (Fd.EVC_MB_IDX_PI 15) = (pi + 1) % 2 ^ 32 ∧ t.fd (Fd.EVC_MB_IDX_CI 15) = pi ∧
        t.trl.frames = s.trl.frames ++ [(lat e 24 1, pi, s.hbmRead (lat e 16 8) (lat e 4 4 % 2 ^ 31))] ∧
        t.trl.postings = [⟨pi, none⟩] ∧ s.only [.csr, .trl] t ∧ s.regsBut [Reg.EVC_MB_IDX 15] t)

/-- R395 to R397 and GLB_TEMP of Table 18-9. -/
def Obligations.TimersAndCores : Prop :=
  ∀ (s : State), s.inReset = false →
    (∀ core : Fin 16, (Instr.mtimeCompare core).gives s fun t =>
      (core.val ∈ t.glb.timerIrq ↔ s.fd (Fd.GLB_MTIMECMP_CMP core.val) ≤ s.mtime) ∧
      (∀ c, c ≠ core.val → (c ∈ t.glb.timerIrq ↔ c ∈ s.glb.timerIrq)) ∧ s.only [.glb] t) ∧
    (∀ v : Word, bits v.toNat 0 0 = 1 → (Instr.watchdogKick v).gives s fun t =>
      t.evc.wdogAt = s.mtime ∧ t.evc.wdogFirst = false ∧ t.fd Fd.GLB_WDOG_PERIOD_MS = bits v.toNat 31 16 ∧
      t.fd Fd.GLB_WDOG_EXPIRED = (if bits v.toNat 1 1 = 1 then 0 else s.fd Fd.GLB_WDOG_EXPIRED) ∧
      t.evc.insvc = s.evc.insvc ∧ s.only [.csr, .evc] t ∧ s.regsBut [Reg.GLB_WDOG] t) ∧
    (s.fd Fd.GLB_WDOG_PERIOD_MS ≠ 0 → s.evc.wdogAt + s.fd Fd.GLB_WDOG_PERIOD_MS * 100000 ≤ s.mtime →
      s.evc.wdogFirst = false → Instr.watchdogExpire.gives s fun t =>
        t.fd Fd.GLB_WDOG_EXPIRED = 1 ∧ t.level 1 = true ∧ t.evc.wdogFirst = true ∧ t.evc.wdogAt = s.mtime ∧
        t.evc.insvc = s.evc.insvc ∧ s.only [.csr, .evc] t ∧ s.regsBut [Reg.GLB_WDOG] t) ∧
    (∀ (core : Fin 16) (v : Word), bits v.toNat 1 0 = 1 → s.fd (Fd.GLB_CORE_STATUS_STATE core.val) = 0 →
      (Instr.coreRun core v).gives s fun t =>
        t.fd (Fd.GLB_CORE_STATUS_STATE core.val) = 1 ∧ t.fd (Fd.GLB_CORE_CTL_RUN core.val) = 1 ∧
        t.fd (Fd.GLB_CORE_CTL_BOOT_ADDR core.val) = bits v.toNat 39 2 ∧
        tfind t.glb.coreAt core.val = some (4 * bits v.toNat 39 2) ∧ s.only [.csr, .glb] t ∧
        s.regsBut [Reg.GLB_CORE_CTL core.val, Reg.GLB_CORE_STATUS core.val] t) ∧
    (∀ (core : Fin 16) (v : Word), bits v.toNat 1 1 = 1 → (Instr.coreReset core v).gives s fun t =>
      t.fd (Fd.GLB_CORE_STATUS_STATE core.val) = 0 ∧ t.fd (Fd.GLB_CORE_CTL_RUN core.val) = 0 ∧ s.only [.csr] t ∧
      s.regsBut [Reg.GLB_CORE_CTL core.val, Reg.GLB_CORE_STATUS core.val] t) ∧
    (∀ x : Int, (Instr.glbTempSample x).gives s fun t =>
      t.fd Fd.GLB_TEMP_MAX_C = min 255 x.toNat ∧ t.fd Fd.GLB_TEMP_ALARM_C = s.fd Fd.GLB_TEMP_ALARM_C ∧
      t.fd Fd.GLB_TEMP_ALARM = (if (s.fd Fd.GLB_TEMP_ALARM_C : Int) ≤ x then 1 else s.fd Fd.GLB_TEMP_ALARM) ∧
      s.only [.csr] t ∧ s.regsBut [Reg.GLB_TEMP] t)

/-- R413 and R414, on a board whose NOR holds no image (R419). -/
def Obligations.RestartsAndCauses : Prop :=
  let recovered := fun (s t : State) (cause : Nat) =>
    t.fd Fd.GLB_RST_CAUSE_CAUSE = cause ∧ t.reg Reg.GLB_CLK_STATUS = 2 ^ 22 - 1 ∧ t.fd (Fd.GLB_CORE_STATUS_STATE 0) = 1 ∧
    t.glb.status = 0x30 ∧ t.glb.stopped = true ∧ t.alert = true ∧ t.inReset = false ∧ t.sec.hashes = s.sec.hashes ∧
    t.sec.keys = [] ∧ t.sec.meas = [] ∧ t.evc = Evc.reset ∧ t.pgt = Pgt.reset ∧ t.ae = Ae.reset ∧ t.rmo = Rmo.reset ∧
    t.flag Fd.EVC_CTL_ENABLE = false ∧ t.flag Fd.AE_GCTL_ENABLE = false
  let cold := fun (s t : State) (cause : Nat) => recovered s t cause ∧ t.mtime = 0 ∧ t.fd Fd.SEC_STATUS_DEBUG_SEEN = 0 ∧
    ∀ a, byteOf t.hbm a = 0
  let warm := fun (s t : State) (cause : Nat) => recovered s t cause ∧ t.mtime = s.mtime ∧
    t.fd Fd.SEC_STATUS_DEBUG_SEEN = s.fd Fd.SEC_STATUS_DEBUG_SEEN ∧ ∀ a, byteOf t.hbm a = byteOf s.hbm a
  (∀ (s : State) (nor : List Byte) (failed : List (Fin 256)) (nand : Nand),
    nor.take 4 ≠ imgMagic → nor.length < 2 ^ 27 →
    ((Instr.coldStart nor failed nand.geom nand.chips).gives s fun t => cold s t 0x01) ∧
    (s.glb.hold = .powerFail → (Instr.powerfailRestart nor failed nand.geom nand.chips).gives s fun t =>
      cold s t (if s.glb.pinSeen then 0x12 else 0x10)) ∧
    (s.glb.hold = .powerFail → (Instr.warmRestart nor).gives s fun t => t.glb.pinSeen = true ∧ s.only [.glb] t) ∧
    (s.glb.hold = .none → s.inReset = false → s.fd Fd.GLB_PWR_STATE = 0 → s.hbmRead 0 4 ≠ imgMagic →
      (Instr.warmRestart nor).gives s fun t => warm s t 0x02)) ∧
  (∀ (s : State), s.inReset = false → s.fd Fd.GLB_PWR_STATE = 0 → s.hbmRead 0 4 ≠ imgMagic → s.glb.nor.take 4 ≠ imgMagic →
    s.glb.nor.length < 2 ^ 27 →
    (Instr.debugReset.gives s fun t => warm s t 0x20) ∧
    (∀ v : Word, bits v.toNat 0 0 = 1 → bits v.toNat 15 8 = 0x5A → (Instr.softReset v).gives s fun t => warm s t 0x04) ∧
    (s.fd Fd.GLB_WDOG_PERIOD_MS ≠ 0 → s.evc.wdogAt + s.fd Fd.GLB_WDOG_PERIOD_MS * 100000 ≤ s.mtime → s.evc.wdogFirst = true →
      Instr.watchdogExpire.gives s fun t => warm s t 0x08))

/-- R415 to R422 for an image whose register writes and fuse commands are none. -/
def Obligations.AcceptedImageStarts : Prop :=
  ∀ (s : State) (nor img : List Byte) (failed : List (Fin 256)) (nand : Nand) (k : Nat)
    (rs : List ImgRec) (node : ImgRec),
    (s.coldReset).checkImage (slice nor) nor.length = .inr (k, img) →
    imgRecords (lat img 16 4) (img.drop 1024) = some rs → nodeRecord rs = some node → ofType rs 0x10 = [] → ofType rs 0x40 = [] →
    failed.length ≤ 32 →
    (Instr.coldStart nor failed nand.geom nand.chips).gives s fun t =>
      t.fd Fd.GLB_MEMCFG_CTL_GIB = imgCtlGib rs % 256 ∧ t.fd Fd.TRL_NODE_NODE = lat node.payload 8 4 % 2 ^ 20 ∧
      t.fd Fd.TWN_DOMAIN_DOMAIN = lat node.payload 12 2 % 2 ^ 10 ∧ t.fd Fd.SEC_STATUS_BOOT_SLOT = k % 4 ∧
      t.fd Fd.SEC_CTL_BOOT_DONE = 1 ∧ t.glb.accepted = true ∧
      tfind t.sec.meas 1 = some (sha256 (zeros 32 ++ sha256 (imgMessage img))) ∧
      (∀ i < 8, t.flag (Fd.HBM_CTL_ENABLE i) = true) ∧
      ((t.glb.status = 0x04 ∧ t.glb.stopped = false ∧ t.fd Fd.FLT_STATUS_STATE = 1) ∨
        (t.glb.status = 0x22 ∧ t.glb.stopped = true ∧ t.fd Fd.FLT_STATUS_STATE = 6 ∧ t.fd Fd.FLT_ERR_GEOMETRY = 1))

/-- R427 to R429, R451, R458. -/
def Obligations.ShelterAndPowerFail : Prop :=
  let failed := fun (t : State) (h : Hold) =>
    t.inReset = true ∧ t.glb.hold = h ∧ t.fd Fd.GLB_PWR_STATE = 2 ∧ t.fd Fd.GLB_RST_CAUSE_CAUSE = 0x10 ∧ t.alert = true ∧
    t.writeEnabled = false ∧ t.trl.conduits = [] ∧ t.ae.running = [] ∧ ∀ a, byteOf t.hbm a = 0
  ∀ (s : State), s.inReset = false →
    (s.fd Fd.GLB_PWR_STATE = 0 → Instr.shelterEnter.gives s fun t =>
      t.fd Fd.GLB_PWR_STATE = 1 ∧ t.fd Fd.GLB_PWR_WARN = 1 ∧ t.level 3 = true ∧ t.alert = true ∧ t.awake = false ∧
      t.glb.shelterAt = s.mtime ∧ s.only [.csr, .glb] t ∧ s.regsBut [Reg.GLB_PWR] t) ∧
    (s.fd Fd.GLB_PWR_STATE = 1 → s.glb.shelterAt + 2000 ≤ s.mtime → s.glb.waiting = none → s.ae.queues = [] → s.wxp.reqs = [] →
      s.flt.writes = [] → Instr.shelterExit.gives s fun t =>
        t.fd Fd.GLB_PWR_STATE = 0 ∧ t.fd Fd.GLB_PWR_WARN = s.fd Fd.GLB_PWR_WARN ∧ t.awake = true ∧ t.glb.finishing = [] ∧
        s.only [.csr, .glb] t ∧ s.regsBut [Reg.GLB_PWR] t) ∧
    (s.fd Fd.GLB_PWR_STATE = 1 → s.glb.shelterAt + 500000 ≤ s.mtime →
      Instr.shelterTimeout.gives s fun t => failed t .powerFail) ∧
    (Instr.powerFail.gives s fun t => failed t .powerFail) ∧
    (∀ pll : Fin 22,
      (pll.val < 5 → (Instr.pllUnlock pll).gives s fun t => failed t .powerFail) ∧
      (pll.val = 5 → (Instr.pllUnlock pll).gives s fun t =>
        bits (t.reg Reg.GLB_CLK_STATUS) 5 5 = 0 ∧ t.flag Fd.MGT_STATUS_LINK_UP = false ∧
        (s.flag Fd.MGT_STATUS_LINK_UP = true → t.fd Fd.MGT_ERR_LINK_CHANGE = 1) ∧ s.only [.csr] t) ∧
      (6 ≤ pll.val → (∀ p ∈ s.groupPorts (pll.val - 6), s.flag (Fd.TRL_PORT_STATUS_UP p) = false) →
        (Instr.pllUnlock pll).gives s fun t =>
          bits (t.reg Reg.GLB_CLK_STATUS) pll.val pll.val = 0 ∧ s.only [.csr] t ∧ s.regsBut [Reg.GLB_CLK_STATUS] t) ∧
      ((Instr.pllRelock pll).gives s fun t =>
        bits (t.reg Reg.GLB_CLK_STATUS) pll.val pll.val = 1 ∧ s.only [.csr] t ∧ s.regsBut [Reg.GLB_CLK_STATUS] t)) ∧
    (s.glb.hold = .none → Instr.thermtrip.gives s fun t => failed t .thermtrip ∧ t.glb.thermtrip = true) ∧
    (Instr.coldResetAssert.gives s fun t =>
      t.inReset = true ∧ t.glb.hold = .porst ∧ t.alert = true ∧ t.mtime = 0 ∧ t.reg Reg.GLB_CLK_STATUS = 0 ∧
      (∀ a, byteOf t.hbm a = 0) ∧ t.sec.hashes = s.sec.hashes)

/-- R459, for a boundary register of 846 cells. -/
def Obligations.TestPort : Prop :=
  ∀ (s : State), s.glb.hold ≠ .porst →
    (∀ cells : List Bool, cells.length = 846 →
      (s.idleForTest = true → (Instr.extest cells).gives s fun t =>
        t.tap.ir = 0x00 ∧ t.tap.driving = true ∧ t.tap.boundary.take 846 = cells ∧ s.only [.tap, .free] t) ∧
      (s.idleForTest = false → (Instr.extest cells).gives s fun t =>
        t.tap.ir = 0xFF ∧ t.tap.driving = false ∧ s.only [.tap] t) ∧
      ((Instr.samplePreload cells).gives s fun t =>
        t.tap.ir = 0x02 ∧ t.tap.driving = false ∧ t.tap.captured.length = 846 ∧ t.tap.boundary.take 846 = cells ∧
        s.only [.tap, .free] t)) ∧
    (Instr.idcode.gives s fun t => t.tap.ir = 0x01 ∧ t.tap.captured.length = 32 ∧
      (∀ i < 32, t.tap.captured[i]? = some (Nat.testBit 0xB0816A9B i)) ∧ s.only [.tap] t) ∧
    (Instr.tapDebug.gives s fun t => t.tap.ir = 0x20 ∧ t.tap.driving = false ∧ s.only [.tap] t) ∧
    (∀ ir : Byte, ir ≠ 0x00 → ir ≠ 0x01 → ir ≠ 0x02 → ir ≠ 0x20 → (Instr.bypass ir).gives s fun t =>
      t.tap.ir = 0xFF ∧ t.tap.captured = [false] ∧ t.tap.driving = false ∧ s.only [.tap] t)

/-- R433, R434, for an entry that lies apart from its buffer. -/
def Obligations.ManagementFrames : Prop :=
  ∀ (s : State), s.inReset = false →
    (∀ f : List Byte, s.flag Fd.MGT_CTL_ENABLE = true → s.mgtAccepts f = true →
      let pi := s.fd Fd.MGT_RX_IDX_PI
      let e := s.mgtEntry Reg.MGT_RX_RING pi
      let b := lat (s.hbmRead e 8) 0 8
      (pi ≠ s.fd Fd.MGT_RX_IDX_CI → b + f.length ≤ hbmBytes → e + 16 ≤ hbmBytes → (b + f.length ≤ e ∨ e + 16 ≤ b) →
        (Instr.mgtFrameReceive f true).gives s fun t =>
          t.hbmRead b f.length = f ∧ lat (t.hbmRead (e + 8) 2) 0 2 = f.length ∧ lat (t.hbmRead (e + 10) 2) 0 2 % 2 = 1 ∧
          (∀ a, (a < b ∨ b + f.length ≤ a) → (a < e + 8 ∨ e + 12 ≤ a) → byteOf t.hbm a = byteOf s.hbm a) ∧
          t.fd Fd.MGT_RX_IDX_PI = (pi + 1) % 2 ^ 32 ∧ t.fd Fd.MGT_RX_IDX_CI = s.fd Fd.MGT_RX_IDX_CI ∧
          t.fd Fd.MGT_RX_FRAMES_COUNT = min (s.fd Fd.MGT_RX_FRAMES_COUNT + 1) (2 ^ 64 - 1) ∧ s.only [.csr, .hbm] t ∧
          s.regsBut [Reg.MGT_RX_IDX, Reg.MGT_RX_FRAMES] t) ∧
      (pi = s.fd Fd.MGT_RX_IDX_CI → (Instr.mgtFrameReceive f true).gives s fun t =>
        t.fd Fd.MGT_RX_DROPS_COUNT = min (s.fd Fd.MGT_RX_DROPS_COUNT + 1) (2 ^ 64 - 1) ∧ t.fd Fd.MGT_ERR_RX_DROP = 1 ∧
        s.only [.csr] t ∧ s.regsBut [Reg.MGT_RX_DROPS, Reg.MGT_ERR] t)) ∧
    (∀ v : Word, serialDist 32 (s.fd Fd.MGT_RX_IDX_PI) (bits v.toNat 31 0) ≤ 2 ^ s.fd Fd.MGT_RX_RING_LOG2SIZE →
      (Instr.mgtRxPost v).gives s fun t => t.fd Fd.MGT_RX_IDX_CI = bits v.toNat 31 0 ∧
        t.fd Fd.MGT_RX_IDX_PI = s.fd Fd.MGT_RX_IDX_PI ∧ s.only [.csr] t ∧ s.regsBut [Reg.MGT_RX_IDX] t) ∧
    (∀ v : Word, (Instr.mgtTxPost v).gives s fun t => t.fd Fd.MGT_TX_IDX_PI = bits v.toNat 63 32 ∧
      t.fd Fd.MGT_TX_IDX_CI = s.fd Fd.MGT_TX_IDX_CI ∧ s.only [.csr] t ∧ s.regsBut [Reg.MGT_TX_IDX] t) ∧
    (let ci := s.fd Fd.MGT_TX_IDX_CI
     let e := s.mgtEntry Reg.MGT_TX_RING ci
     let n := lat (s.hbmRead (e + 8) 2) 0 2
     let f := s.hbmRead (lat (s.hbmRead e 8) 0 8) n
     s.flag Fd.MGT_CTL_ENABLE = true → ci ≠ s.fd Fd.MGT_TX_IDX_PI → 60 ≤ n → n ≤ 9212 → e + 16 ≤ hbmBytes →
      Instr.mgtTxDone.gives s fun t =>
        t.mgt.out = s.mgt.out ++ [f ++ le 4 (fcs f)] ∧ t.fd Fd.MGT_TX_IDX_CI = (ci + 1) % 2 ^ 32 ∧
        lat (t.hbmRead (e + 10) 2) 0 2 % 2 = 1 ∧ s.hbmBut (e + 10) 2 t ∧
        t.fd Fd.MGT_TX_FRAMES_COUNT = min (s.fd Fd.MGT_TX_FRAMES_COUNT + 1) (2 ^ 64 - 1) ∧ s.only [.csr, .hbm, .mgt] t ∧
        s.regsBut [Reg.MGT_TX_IDX, Reg.MGT_TX_FRAMES] t) ∧
    (∀ up : Bool, s.flag Fd.MGT_STATUS_LINK_UP ≠ up → (up = true → s.flag Fd.MGT_CTL_ENABLE = true) →
      (Instr.mgtLinkChange up).gives s fun t => t.flag Fd.MGT_STATUS_LINK_UP = up ∧ t.fd Fd.MGT_ERR_LINK_CHANGE = 1 ∧
        s.only [.csr] t ∧ s.regsBut [Reg.MGT_STATUS, Reg.MGT_ERR] t)

/-- R437 to R441. -/
def Obligations.UsageMetering : Prop :=
  ∀ (s : State), s.inReset = false →
    (∀ (p : Fin 16) (v : Word),
      (serialLt 32 (s.fd (Fd.MGT_PART_COMP_MAP_EPOCH p.val)) (bits v.toNat 31 0) = true → s.mgt.comps = [] → 0 < s.logRoom →
        (Instr.compositionWrite p v).gives s fun t =>
          t.mgt.comps = [(p.val, (bits v.toNat 63 32, bits v.toNat 31 0))] ∧
          t.fd (Fd.MGT_PART_COMP_COMP_ID p.val) = s.fd (Fd.MGT_PART_COMP_COMP_ID p.val) ∧ s.only [.mgt] t) ∧
      (serialLt 32 (s.fd (Fd.MGT_PART_COMP_MAP_EPOCH p.val)) (bits v.toNat 31 0) = false →
        (Instr.compositionWrite p v).gives s fun t => t.fd Fd.MGT_ERR_COMP_REJECT = 1 ∧ s.only [.csr] t ∧ s.regsBut [Reg.MGT_ERR] t)) ∧
    (∀ (p c e : Nat), p < 16 → s.mgt.comps = [(p, (c, e))] → s.ae.running = [] → s.flag Fd.MGT_USAGE_CTL_ENABLE = false →
      (s.mgt.sampleAt / 1000 + 1) * 1000 ≤ s.usec → Instr.usageSample.gives s fun t =>
        t.mgt.sampleAt = (s.mgt.sampleAt / 1000 + 1) * 1000 ∧ t.mgt.comps = [] ∧ t.mgt.sampled = t.mgt.usage ∧
        t.fd (Fd.MGT_PART_COMP_COMP_ID p) = c % 2 ^ 32 ∧ t.fd (Fd.MGT_PART_COMP_MAP_EPOCH p) = e % 2 ^ 32 ∧
        s.only [.csr, .mgt] t ∧ s.regsBut [Reg.MGT_PART_COMP p] t) ∧
    (let period := s.fd Fd.MGT_USAGE_CTL_PERIOD_S * 1000000
     let due := ((List.range 16).filter s.recordDue).length
     s.flag Fd.MGT_USAGE_CTL_ENABLE = true → period ≠ 0 → s.mgt.periodAt < s.mgt.sampleAt / period * period → 16 ≤ s.logRoom →
      Instr.usagePeriodic.gives s fun t =>
        t.mgt.periodAt = s.mgt.sampleAt / period * period ∧
        t.fd Fd.MGT_LOG_IDX_PI = (s.fd Fd.MGT_LOG_IDX_PI + due) % 2 ^ 32 ∧ t.fd Fd.MGT_LOG_IDX_CI = s.fd Fd.MGT_LOG_IDX_CI ∧
        t.fd Fd.MGT_ERR_LOG_FULL = s.fd Fd.MGT_ERR_LOG_FULL ∧ s.only [.csr, .hbm, .mgt] t ∧ s.regsBut [Reg.MGT_LOG_IDX] t) ∧
    (∀ v : Word, (Instr.usageSnapshot v).gives s fun t =>
      (∀ k < 32, t.reg (Reg.MGT_USAGE_DATA0 + 8 * k) =
        lat (s.usageRecord (bits v.toNat 3 0) 3 0 (fun _ => 0)) (8 * k) 8) ∧
      s.only [.csr] t ∧ s.regsBut (Reg.MGT_USAGE_SEL :: (List.range 32).map fun k => Reg.MGT_USAGE_DATA0 + 8 * k) t) ∧
    (∀ hbm : List Byte, hbm.length = 8 → (Instr.mgtTempSample hbm).gives s fun t =>
      (∀ i < 8, t.fd (Fd.HBM_STATUS_TEMP i) = ((hbm[i]?).getD 0).toNat) ∧
      let d := Fd.MGT_TEMP_HIST_DIE_SECONDS (tempBin (s.fd Fd.GLB_TEMP_MAX_C))
      let h := Fd.MGT_TEMP_HIST_HBM_SECONDS (tempBin ((List.range 8).foldl (fun n i => max n ((hbm[i]?).getD 0).toNat) 0))
      t.fd d = min (s.fd d + 1) (2 ^ (d.hi + 1 - d.lo) - 1) ∧ t.fd h = min (s.fd h + 1) (2 ^ (h.hi + 1 - h.lo) - 1) ∧
      s.only [.csr] t ∧ s.regsBut (d.addr :: h.addr :: (List.range 8).map fun i => Reg.HBM_STATUS i) t)

/-- R371 to R374, R379 to R381. -/
def Obligations.MoltsAndFuses : Prop :=
  ∀ (s : State), s.inReset = false →
    (∀ (hi : Bool) (v : Word), (Instr.moltQueue hi v).gives s fun t =>
      (∀ n ∈ moltBits hi v.toNat, tfind t.sec.molts n = some (s.fd Fd.SEC_MOLT_MASK_MASK)) ∧
      (∀ n, n ∉ moltBits hi v.toNat → tfind t.sec.molts n = tfind s.sec.molts n) ∧ t.sec.molting = s.sec.molting ∧
      s.only [.sec] t) ∧
    (∀ (n m : Nat) (l : Tbl Nat), s.sec.molting = none → s.sec.molts = (n, m) :: l → tfind s.ae.running n = none →
      s.engineQueue n = [] → Instr.moltStart.gives s fun t =>
        t.sec.molting = some (n, m) ∧ t.sec.molts = l) ∧
    (∀ (n m : Nat), s.sec.molting = some (n, m) → n < 80 →
      (Instr.moltDone true).gives s fun t =>
        t.sec.molting = none ∧ t.fd (Fd.AE_CTL_PART_MASK n) = m % 2 ^ 16 ∧
        (n < 64 → bits (t.fd Fd.SEC_MOLT_DONE_LO_DONE) n n = 1) ∧
        (64 ≤ n → bits (t.fd Fd.SEC_MOLT_DONE_HI_DONE) (n - 64) (n - 64) = 1) ∧
        t.fd Fd.SEC_MOLTS_COUNT = min (s.fd Fd.SEC_MOLTS_COUNT + 1) (2 ^ 64 - 1)) ∧
    (∀ (n m : Nat), s.sec.molting = some (n, m) → n < 80 → s.fd (Fd.TWN_CLASS_LIMIT 3) = 0 →
      (Instr.moltDone false).gives s fun t =>
        t.sec.molting = none ∧ t.fd (Fd.AE_CTL_PART_MASK n) = 0 ∧ t.fd Fd.SEC_ERR_MOLT_FAIL = 1 ∧ t.level 34 = true) ∧
    (∀ v : Word, let k := bits v.toNat 3 2
      s.sec.fusing = none → s.flag Fd.SEC_CTL_BOOT_DONE = false → s.glb.accepted = true →
      (bits v.toNat 1 0 = 1 → tfind s.sec.hashes k = none → s.slotIn Fd.SEC_FUSE_STATUS_SPOILED k = false →
        (Instr.fuseProgram v).gives s fun t =>
          t.sec.fusing = some (.program k s.fuseData) ∧ t.fd Fd.SEC_FUSE_STATUS_BUSY = 1 ∧ s.only [.csr, .sec] t) ∧
      (bits v.toNat 1 0 = 2 → k ≠ s.fd Fd.SEC_STATUS_BOOT_SLOT →
        (∃ j < 4, j ≠ k ∧ (tfind s.sec.hashes j).isSome ∧ s.slotIn Fd.SEC_FUSE_STATUS_REVOKED j = false) →
        (Instr.fuseRevoke v).gives s fun t =>
          t.sec.fusing = some (.revoke k) ∧ t.fd Fd.SEC_FUSE_STATUS_BUSY = 1 ∧ s.only [.csr, .sec] t) ∧
      (bits v.toNat 1 0 = 3 → s.fd Fd.SEC_FUSE_STATUS_SVN < 64 →
        (Instr.svnStep v).gives s fun t =>
          t.sec.fusing = some .svn ∧ t.fd Fd.SEC_FUSE_STATUS_BUSY = 1 ∧ s.only [.csr, .sec] t)) ∧
    (∀ c : FuseCmd, s.sec.fusing = some c →
      ((Instr.fuseCommandDone true).gives s fun t =>
        t.sec.fusing = none ∧ t.fd Fd.SEC_FUSE_STATUS_BUSY = 0 ∧ t.fd Fd.SEC_FUSE_CMD_RESULT = stOK ∧
        t.fd Fd.SEC_ERR_FUSE_FAIL = s.fd Fd.SEC_ERR_FUSE_FAIL ∧ s.only [.csr, .sec] t ∧
        match c with
        | .program k h => tfind t.sec.hashes k = some h
        | .revoke k => k < 4 → t.slotIn Fd.SEC_FUSE_STATUS_REVOKED k = true
        | .svn => s.fd Fd.SEC_FUSE_STATUS_SVN < 64 → t.fd Fd.SEC_FUSE_STATUS_SVN = s.fd Fd.SEC_FUSE_STATUS_SVN + 1) ∧
      ((Instr.fuseCommandDone false).gives s fun t =>
        t.sec.fusing = none ∧ t.fd Fd.SEC_FUSE_STATUS_BUSY = 0 ∧ t.fd Fd.SEC_ERR_FUSE_FAIL = 1 ∧
        t.sec.hashes = s.sec.hashes ∧ t.fd Fd.SEC_FUSE_STATUS_SVN = s.fd Fd.SEC_FUSE_STATUS_SVN ∧
        match c with
        | .program k _ => k < 4 → t.slotIn Fd.SEC_FUSE_STATUS_SPOILED k = true
        | _ => t.fd Fd.SEC_FUSE_STATUS_SPOILED = s.fd Fd.SEC_FUSE_STATUS_SPOILED))

/-- R376 to R378, R388. -/
def Obligations.KeysOfPartitionsAndConduits : Prop :=
  ∀ (s : State), s.inReset = false →
    (∀ v : Word, let k := s.fd Fd.SEC_KEY_SEL_SLOT
      (bits v.toNat 1 0 = 1 → s.keyInUse k = false → (Instr.keyLoad v).gives s fun t =>
        tfind t.sec.keys k = some s.keyBytes ∧ tfind t.sec.keyPart k = some (bits v.toNat 19 16) ∧
        t.fd Fd.SEC_KEY_CMD_RESULT = stOK ∧ (∀ j, j ≠ k → tfind t.sec.keys j = tfind s.sec.keys j) ∧ s.only [.csr, .sec] t ∧
        s.regsBut [Reg.SEC_KEY_CMD] t) ∧
      (bits v.toNat 1 0 = 2 → s.keyInUse k = false → (Instr.keyErase v).gives s fun t =>
        tfind t.sec.keys k = none ∧ t.fd Fd.SEC_KEY_CMD_RESULT = stOK ∧
        (∀ j, j ≠ k → tfind t.sec.keys j = tfind s.sec.keys j) ∧ s.only [.csr, .sec] t ∧ s.regsBut [Reg.SEC_KEY_CMD] t) ∧
      (bits v.toNat 1 0 = 1 → s.keyInUse k = true → (Instr.keyLoad v).gives s fun t =>
        t.fd Fd.SEC_KEY_CMD_RESULT = stBUSY ∧ t.fd Fd.SEC_ERR_CMD_REJECT = 1 ∧ s.only [.csr] t)) ∧
    (∀ (p : Fin 16) (v : Word),
      (bits v.toNat 3 2 = 1 → s.fd Fd.SEC_PKEY_ADDR_ADDR + 64 ≤ hbmBytes → (Instr.pkeyCreate p v).gives s fun t =>
        (∃ key, tfind t.sec.xts p.val = some key ∧ key.length = 32) ∧ t.fd (Fd.SEC_PART_PSTATE p.val) = 1 ∧
        t.fd (Fd.SEC_PART_KEY_GEN p.val) = (s.fd (Fd.SEC_PART_KEY_GEN p.val) + 1) % 2 ^ 24 ∧
        lat (t.hbmRead (s.fd Fd.SEC_PKEY_ADDR_ADDR + 60) 4) 0 4 = (s.fd (Fd.SEC_PART_KEY_GEN p.val) + 1) % 2 ^ 24 ∧
        s.hbmBut (s.fd Fd.SEC_PKEY_ADDR_ADDR) 64 t ∧ (∀ j, j ≠ p.val → tfind t.sec.xts j = tfind s.sec.xts j) ∧
        s.only [.csr, .sec, .hbm, .free] t ∧ s.regsBut [Reg.SEC_PART p.val] t) ∧
      (∀ key, let b := s.hbmRead (s.fd Fd.SEC_PKEY_ADDR_ADDR) 64
        bits v.toNat 3 2 = 2 → gcmOpen storageRootKey (slice b 0 12) (slice b 60 4) (slice b 12 48) = some key →
        (Instr.pkeyLoad p v).gives s fun t =>
          tfind t.sec.xts p.val = some key ∧ t.fd (Fd.SEC_PART_PSTATE p.val) = 1 ∧
          t.fd (Fd.SEC_PART_KEY_GEN p.val) = lat b 60 4 % 2 ^ 24 ∧ s.only [.csr, .sec] t ∧ s.regsBut [Reg.SEC_PART p.val] t) ∧
      (bits v.toNat 3 2 = 3 → s.partHolds p.val = false → (Instr.pkeyDestroy p v).gives s fun t =>
        tfind t.sec.xts p.val = none ∧ t.fd (Fd.SEC_PART_PSTATE p.val) = 0 ∧ s.only [.csr, .sec] t ∧
        s.regsBut [Reg.SEC_PART p.val] t) ∧
      (bits v.toNat 3 2 = 3 → s.partHolds p.val = true → (Instr.pkeyDestroy p v).gives s fun t =>
        t.sec = s.sec ∧ t.fd (Fd.SEC_PART_RESULT p.val) = stBUSY ∧ s.only [.csr] t))

/-- R383 to R388; the bits of SEC_RNG are a free value of the model (notes/assumptions/2.md). -/
def Obligations.MeasurementsAndSignatures : Prop :=
  ∀ (s : State), s.inReset = false →
    (∀ v : Word, bits v.toNat 63 63 = 1 → ∃ k a, k = bits v.toNat 58 56 ∧ a = bits v.toNat 39 0 ∧
      (k ≠ 7 → (4 ≤ k ∨ s.flag Fd.SEC_CTL_BOOT_DONE = false) → (Instr.measExtend v).gives s fun t =>
        t.meas k = sha256 (s.meas k ++ s.hbmRead a 32) ∧ (∀ j, j ≠ k → t.meas j = s.meas j) ∧ s.only [.csr, .sec] t ∧
        s.regsBut [Reg.SEC_MEAS_EXT] t) ∧
      ((k = 7 ∨ k < 4 ∧ s.flag Fd.SEC_CTL_BOOT_DONE = true) → (Instr.measExtend v).gives s fun t =>
        t.fd Fd.SEC_ERR_CMD_REJECT = 1 ∧ s.only [.csr] t)) ∧
    (∀ v : Word, bits v.toNat 40 40 = 1 → s.sec.signing = none →
      ((Instr.secSign v).gives s fun t => t.fd Fd.SEC_SIGN_BUSY = 1 ∧ t.sec.signed = false ∧
        t.sec.signing = some (bits v.toNat 39 0, tlsContent (s.hbmRead (bits v.toNat 39 0) 32), false) ∧ s.only [.csr, .sec] t) ∧
      ((Instr.secQuote v).gives s fun t => t.fd Fd.SEC_QUOTE_BUSY = 1 ∧ t.sec.signed = false ∧
        t.sec.signing = some (bits v.toNat 39 0, s.quoteBody (s.hbmRead (bits v.toNat 39 0) 32), true) ∧ s.only [.csr, .sec] t)) ∧
    (∀ (a : Nat) (msg : List Byte) (q : Bool), s.sec.signing = some (a, msg, q) → a + 32 + 384 + msg.length ≤ hbmBytes →
      Instr.signatureDone.gives s fun t =>
        t.sec.signing = none ∧ t.level 36 = true ∧
        t.fd (if q then Fd.SEC_QUOTE_BUSY else Fd.SEC_SIGN_BUSY) = 0 ∧
        (q = true → t.hbmRead (a + 32) msg.length = msg) ∧
        s.hbmBut (a + 32) ((if q then msg.length else 0) + 384) t ∧ s.only [.csr, .sec, .hbm] t) ∧
    (∀ v : Word, bits v.toNat 0 0 = 1 → (Instr.bootDone v).gives s fun t =>
      t.fd Fd.SEC_CTL_BOOT_DONE = 1 ∧ s.only [.csr] t ∧ s.regsBut [Reg.SEC_CTL] t) ∧
    (∀ v : Word, bits v.toNat 0 0 = 1 → (Instr.debugDeclare v).gives s fun t =>
      t.fd Fd.SEC_STATUS_DEBUG_SEEN = 1 ∧
      t.fd Fd.SEC_DBG_SESSIONS = min (s.fd Fd.SEC_DBG_SESSIONS + 1) (2 ^ 32 - 1) ∧
      (∃ d, t.meas 7 = sha256 (s.meas 7 ++ d)) ∧ (∀ j, j ≠ 7 → t.meas j = s.meas j) ∧ s.only [.csr, .sec] t) ∧
    (Instr.debugAttach.gives s fun t =>
      t.fd Fd.SEC_STATUS_DEBUG_SEEN = 1 ∧ t.fd Fd.SEC_STATUS_DEBUG_ACTIVE = 1 ∧
      t.fd Fd.SEC_DBG_SESSIONS = min (s.fd Fd.SEC_DBG_SESSIONS + 1) (2 ^ 32 - 1) ∧
      (∃ d, t.meas 7 = sha256 (s.meas 7 ++ d)) ∧ (∀ j, j ≠ 7 → t.meas j = s.meas j) ∧ s.only [.csr, .sec] t) ∧
    (Instr.debugDetach.gives s fun t =>
      t.fd Fd.SEC_STATUS_DEBUG_ACTIVE = 0 ∧ t.fd Fd.SEC_STATUS_DEBUG_SEEN = s.fd Fd.SEC_STATUS_DEBUG_SEEN ∧ s.only [.csr] t ∧
      s.regsBut [Reg.SEC_STATUS] t) ∧
    (Instr.rngRead.gives s fun t => t.rdata = Config.random s.free ∧ t.free = s.free + 1 ∧ s.only [.rdata, .free] t)

/-- Table 10-2, codes 0x01 to 0x16. -/
def Obligations.GeckoArithmetic : Prop :=
  ∀ (s : State) (k : Fin 256) (d a b : Fin 16) (imm : BitVec 14) (u : BitVec 18),
    let x := (s.gk k.val).reg a.val
    let y := (s.gk k.val).reg b.val
    let n := y.toNat % 32
    let r := fun (op : Nat) (i : Instr) (v : W32) => s.gkAt k.val (wordA op d.val a.val b.val 0) → i.gives s (s.gkSets k.val d.val v)
    let m := fun (op : Nat) (i : Instr) (v : W32) => s.gkAt k.val (wordA op d.val a.val 0 imm.toNat) → i.gives s (s.gkSets k.val d.val v)
    r 0x01 (.add k d a b 0) (BitVec.ofNat 32 (x.toNat + y.toNat)) ∧
    r 0x02 (.sub k d a b 0) (BitVec.ofInt 32 (x.toInt - y.toInt)) ∧
    r 0x03 (.and k d a b 0) (BitVec.ofNat 32 (x.toNat &&& y.toNat)) ∧
    r 0x04 (.or k d a b 0) (BitVec.ofNat 32 (x.toNat ||| y.toNat)) ∧
    r 0x05 (.xor k d a b 0) (BitVec.ofNat 32 (x.toNat ^^^ y.toNat)) ∧
    r 0x06 (.shl k d a b 0) (BitVec.ofNat 32 (x.toNat * 2 ^ n)) ∧
    r 0x07 (.shr k d a b 0) (BitVec.ofNat 32 (x.toNat / 2 ^ n)) ∧
    r 0x08 (.sra k d a b 0) (BitVec.ofInt 32 (x.toInt / 2 ^ n)) ∧
    r 0x09 (.mul k d a b 0) (BitVec.ofNat 32 (x.toNat * y.toNat)) ∧
    r 0x0A (.sltu k d a b 0) (if x.toNat < y.toNat then 1 else 0) ∧
    r 0x0B (.slt k d a b 0) (if x.toInt < y.toInt then 1 else 0) ∧
    m 0x10 (.addi k d a 0 imm) (BitVec.ofInt 32 (x.toInt + imm.toInt)) ∧
    m 0x11 (.andi k d a 0 imm) (BitVec.ofNat 32 (x.toNat &&& imm.toNat)) ∧
    m 0x12 (.ori k d a 0 imm) (BitVec.ofNat 32 (x.toNat ||| imm.toNat)) ∧
    m 0x13 (.xori k d a 0 imm) (BitVec.ofNat 32 (x.toNat ^^^ imm.toNat)) ∧
    m 0x14 (.shli k d a 0 imm) (BitVec.ofNat 32 (x.toNat * 2 ^ (imm.toNat % 32))) ∧
    m 0x15 (.shri k d a 0 imm) (BitVec.ofNat 32 (x.toNat / 2 ^ (imm.toNat % 32))) ∧
    (s.gkAt k.val (wordU 0x16 d.val u.toNat) →
      (Instr.lui k d u).gives s (s.gkSets k.val d.val (BitVec.ofNat 32 (u.toNat * 2 ^ 14))))

/-- R201; the value of the cycle counter is not stated. -/
def Obligations.GeckoLocalSpace : Prop :=
  ∀ (s : State) (k : Fin 256) (d a b : Fin 16) (imm : BitVec 14),
    let g := s.gk k.val
    let p := g.ea a.val imm
    let at_ := fun (g : Gecko) (x : Nat) => if x < 0x4000 then tget 0 g.scratch x else tget 0 g.cmd (x - 0x4000)
    let moved := fun (t : State) => t.gk k.val = { g.ran with pc := g.pc + 1, scratch := (t.gk k.val).scratch, cmd := (t.gk k.val).cmd } ∧
      s.gkOnly k.val [] t
    let stored := fun (n v : Nat) (t : State) => moved t ∧
      ∀ x < 0x4100, at_ (t.gk k.val) x = if p ≤ x ∧ x < p + n then BitVec.ofNat 8 (v / 256 ^ (x - p)) else at_ g x
    (s.gkAt k.val (wordA 0x18 d.val a.val 0 imm.toNat) → p % 4 = 0 →
      (p < 0x4100 → (Instr.ldw k d a 0 imm).gives s
        (s.gkSets k.val d.val (BitVec.ofNat 32 (unle ((List.range 4).map fun i => at_ g (p + i)))))) ∧
      (p = 0x4104 → (Instr.ldw k d a 0 imm).gives s (s.gkSets k.val d.val (BitVec.ofNat 32 k.val))) ∧
      (p = 0x4108 → (Instr.ldw k d a 0 imm).gives s
        (s.gkSets k.val d.val ((if g.ue then 1 else 0) + (if g.unbounded then 2 else 0))))) ∧
    (s.gkAt k.val (wordA 0x19 0 a.val b.val imm.toNat) → p % 4 = 0 →
      (p < 0x4100 → (Instr.stw k 0 a b imm).gives s (stored 4 (g.reg b.val).toNat)) ∧
      (p = 0x4108 → g.reg b.val = 0 → (Instr.stw k 0 a b imm).gives s fun t =>
        t.gk k.val = { g.ran with pc := g.pc + 1, ue := false, unbounded := false } ∧ s.gkOnly k.val [] t)) ∧
    (s.gkAt k.val (wordA 0x1A d.val a.val 0 imm.toNat) → p < 0x4100 →
      (Instr.ldb k d a 0 imm).gives s (s.gkSets k.val d.val ((at_ g p).zeroExtend 32))) ∧
    (s.gkAt k.val (wordA 0x1B 0 a.val b.val imm.toNat) → p < 0x4100 →
      (Instr.stb k 0 a b imm).gives s (stored 1 (g.reg b.val).toNat)) ∧
    (d.val < 8 → p % 32 = 0 → p + 32 ≤ 0x4100 →
      (s.gkAt k.val (wordA 0x2E d.val a.val 0 imm.toNat) → (Instr.vldl k d a 0 imm).gives s
        (s.gkSetsV k.val d.val (BitVec.ofNat 256 (unle ((List.range 32).map fun i => at_ g (p + i)))))) ∧
      (s.gkAt k.val (wordA 0x2F d.val a.val 0 imm.toNat) →
        (Instr.vstl k d a 0 imm).gives s (stored 32 (g.vreg d.val).toNat)))

/-- Table 10-2, codes 0x20 to 0x25; offsets count from the branch itself. -/
def Obligations.GeckoBranches : Prop :=
  ∀ (s : State) (k : Fin 256) (d a b : Fin 16) (imm : BitVec 14) (u : BitVec 18),
    let g := s.gk k.val
    let x := (g.reg a.val).toNat
    let y := (g.reg b.val).toNat
    let pcAt := fun (n : Int) => BitVec.ofInt 11 n
    let jumps := fun (op : Nat) (i : Instr) (c : Prop) => s.gkAt k.val (wordA op 0 a.val b.val imm.toNat) →
      (c → i.gives s fun t => t.gk k.val = { g.ran with pc := pcAt (g.pc.toNat + imm.toInt) } ∧ s.gkOnly k.val [] t) ∧
      (¬c → i.gives s fun t => t.gk k.val = { g.ran with pc := pcAt (g.pc.toNat + 1) } ∧ s.gkOnly k.val [] t)
    let links := fun (i : Instr) (to_ : Int) => i.gives s fun t =>
      (∀ j < 16, (t.gk k.val).reg j = if j = d.val ∧ j ≠ 0 then BitVec.ofNat 32 ((g.pc.toNat + 1) % 2048) else g.reg j) ∧
      t.gk k.val = { g.ran with regs := (t.gk k.val).regs, pc := pcAt to_ } ∧ s.gkOnly k.val [] t
    jumps 0x20 (.beq k 0 a b imm) (x = y) ∧ jumps 0x21 (.bne k 0 a b imm) (x ≠ y) ∧
    jumps 0x22 (.bltu k 0 a b imm) (x < y) ∧ jumps 0x23 (.bgeu k 0 a b imm) (y ≤ x) ∧
    (s.gkAt k.val (wordU 0x24 d.val u.toNat) → links (.jal k d u) (g.pc.toNat + u.toInt)) ∧
    (s.gkAt k.val (wordA 0x25 d.val a.val 0 imm.toNat) → links (.jalr k d a 0 imm) (x + imm.toInt))

/-- Table 10-2, codes 0x28, 0x2B, 0x2C; `errs` are the symbols found in error. -/
def Obligations.GeckoChannelReads : Prop :=
  ∀ (s : State) (k : Fin 256) (d a : Fin 16) (imm : BitVec 14),
    let g := s.gk k.val
    let p := g.ea a.val imm
    let A := devAddr k.val p
    (s.gkAt k.val (wordA 0x28 d.val a.val 0 imm.toNat) → p % 4 = 0 → p < 0x7C000000 →
      (Instr.hld k d a 0 imm []).gives s (s.gkSets k.val d.val (BitVec.ofNat 32 (unle (s.hbmRead A 4))))) ∧
    (p % 128 = 0 → p < 0x7C000000 →
      (s.gkAt k.val (wordA 0x2B d.val a.val 0 imm.toNat) →
        (Instr.vfix k d a 0 imm []).gives s (s.gkSets k.val d.val 0)) ∧
      (s.gkAt k.val (wordA 0x2C d.val a.val 0 imm.toNat) → (d.val = 0 ∨ d.val = 4) →
        (Instr.vld k d a 0 imm []).gives s fun t =>
          (∀ i < 8, (t.gk k.val).vreg i = if d.val ≤ i ∧ i < d.val + 4
            then BitVec.ofNat 256 (unle (s.hbmRead (A + 32 * (i - d.val)) 32)) else g.vreg i) ∧
          t.gk k.val = { g.ran with vregs := (t.gk k.val).vregs, pc := g.pc + 1 } ∧ s.gkOnly k.val [] t) ∧
      (∀ errs : Syms,
        let es := groupErrs k.val p errs
        let r := s.readGroup es A
        let counted := fun (u t : State) => s.afterErrs u k.val es A 128 t ∧
          (s.fd (Fd.TWN_CLASS_LIMIT 0) = 0 → s.fd (Fd.TWN_CLASS_LIMIT 1) = 0 → s.pageAt A = none → s.pageAt (A + 64) = none →
            r.isBad = true → t.fd (Fd.HBM_ERR_UE (chanOf A / 32)) = 1)
        (s.gkAt k.val (wordA 0x2B d.val a.val 0 imm.toNat) → (Instr.vfix k d a 0 imm errs).gives s fun t => ∃ u,
          (∀ j < 16, (u.gk k.val).reg j = if j = d.val ∧ j ≠ 0 then (if r.isBad then 2 else if r.isClean then 0 else 1) else g.reg j) ∧
          u.gk k.val = { g.ran with regs := (u.gk k.val).regs, ue := g.ue || r.isBad, pc := g.pc + 1 } ∧
          u.hbmRead A 128 = (if r.isBad ∨ r.isClean then s.hbmRead A 128 else r.data) ∧ s.hbmBut A 128 u ∧
          s.gkOnly k.val [.hbm] u ∧ counted u t) ∧
        (s.gkAt k.val (wordA 0x2C d.val a.val 0 imm.toNat) → (d.val = 0 ∨ d.val = 4) →
          (Instr.vld k d a 0 imm errs).gives s fun t => ∃ u,
            (∀ i < 8, (u.gk k.val).vreg i = if d.val ≤ i ∧ i < d.val + 4
              then BitVec.ofNat 256 (unle (slice r.data (32 * (i - d.val)) 32)) else g.vreg i) ∧
            (r.b0 = .bad → r.data.take 64 = zeros 64) ∧ (r.b1 = .bad → r.data.drop 64 = zeros 64) ∧
            u.gk k.val = { g.ran with vregs := (u.gk k.val).vregs, ue := g.ue || r.isBad, pc := g.pc + 1 } ∧
            s.gkOnly k.val [] u ∧ counted u t)))

/-- R205. -/
def Obligations.GeckoWriteFence : Prop :=
  ∀ (s : State) (k : Fin 256) (d a b : Fin 16) (imm : BitVec 14),
    let g := s.gk k.val
    let p := g.ea a.val imm
    let A := devAddr k.val p
    let f := Fd.GK_ERR_WRITE_FENCE (k.val / 32) (k.val % 32)
    p < 0x7C000000 →
    (p % 4 = 0 → s.gkAt k.val (wordA 0x29 0 a.val b.val imm.toNat) →
      (s.window k.val p 4 [.lock, .win] → (Instr.hst k 0 a b ⟨imm, []⟩).gives s fun t =>
        t.hbmRead A 4 = le 4 (g.reg b.val).toNat ∧ s.hbmBut A 4 t ∧ t.gk k.val = { g.ran with pc := g.pc + 1 } ∧
        s.gkOnly k.val [.hbm] t) ∧
      (s.window k.val p 4 [.lock, .win] → ∀ errs : Syms, (Instr.hst k 0 a b ⟨imm, errs⟩).gives s fun t => ∃ u,
        let r := s.readGroup (groupErrs k.val p errs) (groupAt A)
        (∀ x, byteOf u.hbm x = if A ≤ x ∧ x < A + 4 then BitVec.ofNat 8 ((g.reg b.val).toNat / 256 ^ (x - A))
          else if r.isBad = false ∧ groupAt A ≤ x ∧ x < groupAt A + 128 then byteAt r.data (x - groupAt A) else byteOf s.hbm x) ∧
        u.gk k.val = { g.ran with pc := g.pc + 1 } ∧ s.gkOnly k.val [.hbm] u ∧
        s.afterErrs u k.val (groupErrs k.val p errs) A 4 t) ∧
      (¬s.window k.val p 4 [.lock, .win] → ∀ errs : Syms, (Instr.hst k 0 a b ⟨imm, errs⟩).gives s (s.gkStops k.val f))) ∧
    (p % 128 = 0 → (d.val = 0 ∨ d.val = 4) →
      (s.gkAt k.val (wordA 0x2D d.val a.val 0 imm.toNat) →
        (s.window k.val p 128 [.lock, .win] → (Instr.vst k d a 0 imm).gives s fun t =>
          t.hbmRead A 128 = (List.range 4).flatMap (fun i => le 32 (g.vreg (d.val + i)).toNat) ∧ s.hbmBut A 128 t ∧
          t.gk k.val = { g.ran with pc := g.pc + 1 } ∧ s.gkOnly k.val [.hbm] t) ∧
        (¬s.window k.val p 128 [.lock, .win] → (Instr.vst k d a 0 imm).gives s (s.gkStops k.val f))) ∧
      (s.gkAt k.val (wordA 0x2A d.val a.val b.val imm.toNat) →
        (s.window k.val p 128 [.atom] → (Instr.vhalb k d a b ⟨imm, []⟩).gives s fun t =>
          let i := (g.reg b.val).toNat % 32
          (∀ j < 4, byteOf t.hbm (A + 32 * j + i) = byteOf s.hbm (A + 32 * j + i) / 2 ∧
            (t.gk k.val).vreg (d.val + j) = BitVec.ofNat 256 (unle (s.hbmRead (A + 32 * j) 32))) ∧
          (∀ x, (∀ j < 4, x ≠ A + 32 * j + i) → byteOf t.hbm x = byteOf s.hbm x) ∧
          (∀ j < 8, (j < d.val ∨ d.val + 4 ≤ j) → (t.gk k.val).vreg j = g.vreg j) ∧
          t.gk k.val = { g.ran with vregs := (t.gk k.val).vregs, pc := g.pc + 1 } ∧
          s.gkOnly k.val (if i = 11 then [.hbm, .pgt] else [.hbm]) t) ∧
        (¬s.window k.val p 128 [.atom] → ∀ errs : Syms, (Instr.vhalb k d a b ⟨imm, errs⟩).gives s (s.gkStops k.val f)))) ∧
    (p % 128 = 0 → s.lockTable k.val = [] → s.gkAt k.val (wordA 0x2B d.val a.val 0 imm.toNat) →
      (Instr.vfix k d a 0 imm []).gives s (s.gkSets k.val d.val 0))

/-- Table 10-2, codes 0x30 to 0x36. -/
def Obligations.GeckoVectors : Prop :=
  ∀ (s : State) (k : Fin 256) (d a b : Fin 16) (imm : BitVec 14), a.val < 8 →
    let g := s.gk k.val
    let x := (g.vreg a.val).toNat
    let y := (g.vreg b.val).toNat
    let byte := fun (v : BitVec 256) (i : Nat) => v.toNat / 256 ^ i % 256
    (d.val < 8 → b.val < 8 →
      (s.gkAt k.val (wordA 0x30 d.val a.val b.val 0) →
        (Instr.vxor k d a b 0).gives s (s.gkSetsV k.val d.val (BitVec.ofNat 256 (x ^^^ y)))) ∧
      (s.gkAt k.val (wordA 0x31 d.val a.val b.val 0) →
        (Instr.vand k d a b 0).gives s (s.gkSetsV k.val d.val (BitVec.ofNat 256 (x &&& y)))) ∧
      (s.gkAt k.val (wordA 0x32 d.val a.val b.val 0) →
        (Instr.vor k d a b 0).gives s (s.gkSetsV k.val d.val (BitVec.ofNat 256 (x ||| y)))) ∧
      (s.gkAt k.val (wordA 0x33 d.val a.val b.val 0) → (Instr.vaddw k d a b 0).gives s fun t =>
        ∃ v, s.gkSetsV k.val d.val v t ∧
          ∀ i < 8, v.toNat / 2 ^ (32 * i) % 2 ^ 32 = (x / 2 ^ (32 * i) + y / 2 ^ (32 * i)) % 2 ^ 32)) ∧
    (d.val < 8 → s.gkAt k.val (wordA 0x36 d.val 0 b.val 0) → (Instr.vbcast k d 0 b 0).gives s fun t =>
      ∃ v, s.gkSetsV k.val d.val v t ∧ ∀ i < 32, byte v i = (g.reg b.val).toNat % 256) ∧
    (imm.toNat < 32 → s.gkAt k.val (wordA 0x35 d.val a.val 0 imm.toNat) → (Instr.vcrc k d a 0 imm).gives s
      (s.gkSets k.val d.val (BitVec.ofNat 32 (crc32cFrom (g.reg d.val).toNat (le (imm.toNat + 1) x))))) ∧
    (d.val < 8 → d.val % 2 = 0 → imm.toNat < 32 → (fmtOf (imm.toNat % 16)).isSome →
      s.gkAt k.val (wordA 0x34 d.val a.val b.val imm.toNat) → (Instr.vdig k d a b imm).gives s fun t =>
        let e := digElems (imm.toNat % 16) ((g.reg b.val).toNat % 256) (imm.toNat / 16) (le 32 x)
        (∀ i < 32, let old := g.vreg d.val
          byte ((t.gk k.val).vreg d.val) i = match (if e.2 ≤ i then e.1[i - e.2]? else none) with
            | some v => let lo := toF8B .down v
              if fIsNaN v = false ∧ fLt (decF8B lo.toNat) (decF8B (byte old i)) = true then lo.toNat else byte old i
            | none => byte old i) ∧
        (∀ i < 32, let old := g.vreg (d.val + 1)
          byte ((t.gk k.val).vreg (d.val + 1)) i = match (if e.2 ≤ i then e.1[i - e.2]? else none) with
            | some v => let hi := toF8B .up v
              if fIsNaN v = false ∧ fLt (decF8B (byte old i)) (decF8B hi.toNat) = true then hi.toNat else byte old i
            | none => byte old i) ∧
        ((∃ v ∈ e.1, fIsFinite v = false) → (t.gk k.val).unbounded = true) ∧
        (g.unbounded = true → (t.gk k.val).unbounded = true) ∧
        (∀ i < 8, i ≠ d.val → i ≠ d.val + 1 → (t.gk k.val).vreg i = g.vreg i) ∧
        t.gk k.val = { g.ran with vregs := (t.gk k.val).vregs, unbounded := (t.gk k.val).unbounded, pc := g.pc + 1 } ∧
        s.gkOnly k.val [] t)

/-- Table 10-2, codes 0x38 to 0x3F, and GK_DOORBELL. -/
def Obligations.GeckoRingAndDoorbell : Prop :=
  ∀ (s : State) (k : Fin 256) (d a : Fin 16) (imm : BitVec 14),
    let g := s.gk k.val
    let waits := fun (i : Instr) => i.gives s fun t => t.gk k.val = { g.ran with state := .waiting } ∧ s.gkOnly k.val [] t
    (a.val < 8 → s.gkAt k.val (wordA 0x38 0 a.val 0 0) →
      let r := k.val / 32 * 32 + (g.reg a.val).toNat % 32
      ((s.gk r).inbox.length < 4 → (Instr.rsend k 0 a 0 0).gives s fun t =>
        (t.gk r).inbox = (s.gk r).inbox ++ [(k.val % 32, g.vreg a.val)] ∧ (t.gk k.val).pc = g.pc + 1 ∧
        t.gk k.val = { g.ran with pc := g.pc + 1, inbox := (t.gk k.val).inbox } ∧
        (r ≠ k.val → (t.gk k.val).inbox = g.inbox ∧ t.gk r = { s.gk r with inbox := (t.gk r).inbox }) ∧
        (∀ j, j ≠ k.val → j ≠ r → t.gk j = s.gk j) ∧ s.only [.hb] t) ∧
      (4 ≤ (s.gk r).inbox.length → (Instr.rsend k 0 a 0 0).gives s fun t =>
        t.gk k.val = { g.ran with state := .stalled } ∧ s.gkOnly k.val [] t)) ∧
    (d.val < 8 → s.gkAt k.val (wordA 0x39 d.val 0 0 0) →
      (∀ i v l, g.inbox = (i, v) :: l → (Instr.rrecv k d 0 0 0).gives s fun t =>
        (t.gk k.val).inbox = l ∧ (t.gk k.val).vreg d.val = v ∧ (d.val ≠ 0 → (t.gk k.val).reg d.val = BitVec.ofNat 32 i) ∧
        (∀ j < 8, j ≠ d.val → (t.gk k.val).vreg j = g.vreg j) ∧ (∀ j < 16, j ≠ d.val → (t.gk k.val).reg j = g.reg j) ∧
        t.gk k.val = { g.ran with
          regs := (t.gk k.val).regs, vregs := (t.gk k.val).vregs, inbox := l, pc := g.pc + 1 } ∧ s.gkOnly k.val [] t) ∧
      (g.inbox = [] → waits (.rrecv k d 0 0 0))) ∧
    (s.gkAt k.val (wordA 0x3C d.val 0 0 0) →
      (∀ n < 8, n ∈ g.rung → (∀ m < n, m ∉ g.rung) → (Instr.waitd k d 0 0 0).gives s fun t =>
        (∀ j < 16, (t.gk k.val).reg j = if j = d.val ∧ j ≠ 0 then BitVec.ofNat 32 n else g.reg j) ∧
        n ∉ (t.gk k.val).rung ∧ n ∈ (t.gk k.val).busy ∧
        (∀ m, m ≠ n → (m ∈ (t.gk k.val).rung ↔ m ∈ g.rung) ∧ (m ∈ (t.gk k.val).busy ↔ m ∈ g.busy)) ∧
        t.gk k.val = { g.ran with
          regs := (t.gk k.val).regs, rung := (t.gk k.val).rung, busy := (t.gk k.val).busy, since := s.mtime, pc := g.pc + 1 } ∧
        s.gkOnly k.val [] t) ∧
      ((∀ n < 8, n ∉ g.rung) → waits (.waitd k d 0 0 0))) ∧
    (imm.toNat < 256 → s.gkAt k.val (wordA 0x3D 0 a.val 0 imm.toNat) → (Instr.donej k 0 a 0 imm).gives s fun t =>
      let n := (g.reg a.val).toNat % 8
      let ready := Fd.GK_READY_READY (k.val / 32) (k.val % 32)
      let jobs := Fd.GK_JOBS_COUNT (k.val / 32) (k.val % 32)
      t.slotEnded k.val n imm.toNat ∧ t.fd ready = s.fd ready ||| 2 ^ n ∧ t.fd jobs = min (s.fd jobs + 1) (2 ^ 64 - 1) ∧
      (∀ x, x ≠ 32 * n + 1 → x ≠ 32 * n + 2 → tget 0 (t.gk k.val).cmd x = tget 0 g.cmd x) ∧
      t.gk k.val = { g.ran with
        cmd := (t.gk k.val).cmd, rung := (t.gk k.val).rung, busy := (t.gk k.val).busy, pc := g.pc + 1 } ∧
      s.gkOnly k.val [.csr] t ∧ s.regsBut [ready.addr, jobs.addr] t) ∧
    (imm.toNat < 256 → s.gkAt k.val (wordA 0x3F 0 0 0 imm.toNat) → (Instr.halt k 0 0 0 imm).gives s (s.gkHalts k.val fun u =>
      u.fd (Fd.GK_ERR_HALT (k.val / 32) (k.val % 32)) = 1 ∧
      u.fd (Fd.GK_ERR_HALT_CODE (k.val / 32) (k.val % 32)) = imm.toNat)) ∧
    (∀ v : Word, s.inReset = false → (Instr.gkDoorbell k v).gives s fun t =>
      (∀ n, n ∈ (t.gk k.val).rung ↔ n ∈ g.rung ∨ n < 8 ∧ v.toNat.testBit n) ∧
      (g.state = .waiting → v.toNat % 256 ≠ 0 → (t.gk k.val).state = .running) ∧
      (g.state ≠ .waiting → (t.gk k.val).state = g.state) ∧
      t.gk k.val = { g with
        rung := (t.gk k.val).rung, everRung := (t.gk k.val).everRung, state := (t.gk k.val).state } ∧ s.gkOnly k.val [] t)

/-- R204, and the field rules of R202. -/
def Obligations.GeckoFaults : Prop :=
  ∀ (s : State) (k : Fin 256) (d a b : Fin 16) (imm : BitVec 14),
    let e := fun (f : Nat → Nat → Fd) => f (k.val / 32) (k.val % 32)
    let p := (s.gk k.val).ea a.val imm
    let stops := fun (f : Nat → Nat → Fd) (i : Instr) => i.gives s (s.gkStops k.val (e f))
    (s.inReset = false → s.gkRuns k.val = true →
      (s.gk k.val).fetch / 2 ^ 26 ∉ [0x01, 0x02, 0x03, 0x04, 0x05, 0x06, 0x07, 0x08, 0x09, 0x0A, 0x0B, 0x10, 0x11, 0x12, 0x13, 0x14,
        0x15, 0x16, 0x18, 0x19, 0x1A, 0x1B, 0x20, 0x21, 0x22, 0x23, 0x24, 0x25, 0x28, 0x29, 0x2A, 0x2B, 0x2C, 0x2D, 0x2E, 0x2F,
        0x30, 0x31, 0x32, 0x33, 0x34, 0x35, 0x36, 0x38, 0x39, 0x3C, 0x3D, 0x3F] → stops Fd.GK_ERR_ILLEGAL (.illegalOpcode k)) ∧
    (imm ≠ 0 → s.gkAt k.val (wordA 0x01 d.val a.val b.val imm.toNat) → stops Fd.GK_ERR_ILLEGAL (.add k d a b imm)) ∧
    (8 ≤ d.val → s.gkAt k.val (wordA 0x30 d.val a.val b.val 0) → stops Fd.GK_ERR_ILLEGAL (.vxor k d a b 0)) ∧
    (s.gkAt k.val (wordA 0x18 d.val a.val 0 imm.toNat) →
      (0x410C < p + 4 → stops Fd.GK_ERR_LOCAL_ADDR (.ldw k d a 0 imm)) ∧
      (p + 4 ≤ 0x410C → p % 4 ≠ 0 → stops Fd.GK_ERR_ALIGN (.ldw k d a 0 imm))) ∧
    (s.gkAt k.val (wordA 0x19 0 a.val b.val imm.toNat) →
      (0x410C < p + 4 → stops Fd.GK_ERR_LOCAL_ADDR (.stw k 0 a b imm)) ∧
      (p + 4 ≤ 0x410C → p % 4 ≠ 0 → stops Fd.GK_ERR_ALIGN (.stw k 0 a b imm))) ∧
    (s.gkAt k.val (wordA 0x29 0 a.val b.val imm.toNat) →
      (∀ errs : Syms, 0x7C000000 < p + 4 → stops Fd.GK_ERR_CHAN_ADDR (.hst k 0 a b ⟨imm, errs⟩)) ∧
      (∀ errs : Syms, p + 4 ≤ 0x7C000000 → p % 4 ≠ 0 → stops Fd.GK_ERR_ALIGN (.hst k 0 a b ⟨imm, errs⟩)))

/-- R208, R209 and Tables 10-9 and 10-10. -/
def Obligations.GeckoControl : Prop :=
  ∀ (s : State) (k : Fin 256) (v : Word), s.inReset = false →
    let g := s.gk k.val
    let e := fun (f : Nat → Nat → Fd) => f (k.val / 32) (k.val % 32)
    let only := fun (g' : Gecko) (ps : List Part) (t : State) => t.gk k.val = g' ∧ s.gkOnly k.val ps t
    (bits v.toNat 2 2 = 1 → bits v.toNat 1 1 = 0 → (Instr.geckoStop k v).gives s
      (only { g with state := if g.state = .running ∨ g.state = .waiting ∨ g.state = .stalled then .stopped else g.state } [.csr])) ∧
    (bits v.toNat 1 1 = 1 → (Instr.geckoReset k v).gives s fun t =>
      (∀ i < 16, (t.gk k.val).reg i = 0) ∧ (∀ i < 8, (t.gk k.val).vreg i = 0) ∧ t.fd (e Fd.GK_READY_READY) = 0 ∧
      t.fd (e Fd.HBM_CH_STATUS_GK_HALTED) = 0 ∧
      only { g with
        regs := (t.gk k.val).regs, vregs := (t.gk k.val).vregs, pc := 0, rung := [], busy := []
        state := (if bits v.toNat 2 2 = 0 ∧ bits v.toNat 0 0 = 1 then .running else .stopped) } [.csr] t) ∧
    (bits v.toNat 2 2 = 0 → bits v.toNat 1 1 = 0 → bits v.toNat 0 0 = 1 → g.state = .stopped →
      (Instr.geckoRun k v).gives s
        (only { g with state := .running, pc := if s.flag (e Fd.GK_CTL_STOP) ∧ s.flag (e Fd.GK_CTL_RUN) then g.pc else 0 } [.csr])) ∧
    (let i := s.fd (e Fd.GK_USTORE_ADDR_INDEX);
      ((Instr.ustoreAccess k none).gives s fun t => t.rdata.toNat = (tget 0 g.store i).toNat ∧
        t.fd (e Fd.GK_USTORE_ADDR_INDEX) = (i + 1) % 2048 ∧ t.gk k.val = g ∧ s.only [.csr, .rdata] t) ∧
      ((Instr.ustoreAccess k (some v)).gives s fun t =>
        t.fd (e Fd.GK_USTORE_ADDR_INDEX) = (i + 1) % 2048 ∧
        (∀ x, (tget 0 (t.gk k.val).store x).toNat =
          if x = i ∧ (g.state = .stopped ∨ g.state = .halted) then v.toNat % 2 ^ 32 else (tget 0 g.store x).toNat) ∧
        only { g with store := (t.gk k.val).store } [.csr] t)) ∧
    (let i := s.fd (e Fd.GK_SCR_ADDR_INDEX);
      ((Instr.scratchAccess k none).gives s fun t =>
        t.rdata.toNat = unle ((List.range 4).map fun j => tget 0 g.scratch (4 * i + j)) ∧
        t.fd (e Fd.GK_SCR_ADDR_INDEX) = (i + 1) % 4096 ∧ t.gk k.val = g ∧ s.only [.csr, .rdata] t) ∧
      ((Instr.scratchAccess k (some v)).gives s fun t =>
        t.fd (e Fd.GK_SCR_ADDR_INDEX) = (i + 1) % 4096 ∧
        (∀ x, (tget 0 (t.gk k.val).scratch x).toNat =
          if 4 * i ≤ x ∧ x < 4 * i + 4 ∧ (g.state = .stopped ∨ g.state = .halted) then v.toNat / 256 ^ (x - 4 * i) % 256
          else (tget 0 g.scratch x).toNat) ∧
        only { g with scratch := (t.gk k.val).scratch } [.csr] t)) ∧
    (∀ (slot : Fin 8) (w : Fin 4),
      let lo := 32 * slot.val + 8 * w.val;
      ((slot.val ∉ g.everRung ∨ (tget 0 g.cmd (32 * slot.val + 1)).toNat % 2 = 1) → (Instr.slotWrite k slot w v).gives s fun t =>
        (∀ x, (tget 0 (t.gk k.val).cmd x).toNat =
          if lo ≤ x ∧ x < lo + 8 then v.toNat / 256 ^ (x - lo) % 256 else (tget 0 g.cmd x).toNat) ∧
        only { g with cmd := (t.gk k.val).cmd } [] t) ∧
      (slot.val ∈ g.everRung → (tget 0 g.cmd (32 * slot.val + 1)).toNat % 2 = 0 →
        (Instr.slotWrite k slot w v).gives s fun t => t.gk k.val = g ∧ s.only [] t)) ∧
    (s.fd (e Fd.GK_CTL_WATCHDOG_US) ≠ 0 → g.state = .running → g.busy ≠ [] →
      g.since + s.fd (e Fd.GK_CTL_WATCHDOG_US) * 100 ≤ s.mtime → (Instr.geckoWatchdog k).gives s fun t =>
        ∃ u : State, (∀ n ∈ g.busy, n < 8 → u.slotEnded k.val n stTIMEOUT) ∧ (u.gk k.val).state = .stopped ∧
        u.fd (e Fd.GK_ERR_WATCHDOG) = 1 ∧ (u.gk k.val).pc = g.pc ∧ (u.gk k.val).store = g.store ∧
        (u.gk k.val).scratch = g.scratch ∧ (∀ j, j ≠ k.val → u.gk j = s.gk j) ∧ s.only [.csr, .hb, .hbm, .evc] u ∧
        t = s.commit (u.gkCounted k.val g.onJob))

/-- R214, over the slot bytes of Table 10-3. -/
def Obligations.GeckoJobs : Prop :=
  ∀ (s : State) (k : Fin 256) (slot : Fin 8),
    let g := s.gk k.val
    let b := (List.range 32).map fun i => tget 0 g.cmd (32 * slot.val + i)
    let a0 := lat b 8 8
    let a1 := lat b 16 8
    let a2 := lat b 24 8
    let src := a0 % 2 ^ 31
    let dst := a1 % 2 ^ 31
    let top := 0x7C000000
    let runs := fun (code : Nat) => s.inReset = false ∧ s.gkRuns k.val = true ∧ slot.val ∈ g.rung ∧ g.busy = [] ∧ lat b 0 1 = code
    let jobs := Fd.GK_JOBS_COUNT (k.val / 32) (k.val % 32)
    let ends := fun (st : Nat) (ps : List Part) (t : State) => t.slotEnded k.val slot.val st ∧
      t.fd jobs = min (s.fd jobs + 1) (2 ^ 64 - 1) ∧ t.gk k.val = { g with cmd := (t.gk k.val).cmd, rung := (t.gk k.val).rung } ∧
      (∀ m, m ≠ slot.val → (m ∈ (t.gk k.val).rung ↔ m ∈ g.rung)) ∧ s.gkOnly k.val (.csr :: ps) t
    let result := fun (t : State) => unle ((List.range 8).map fun i => tget 0 (t.gk k.val).cmd (32 * slot.val + 24 + i))
    let but := fun (a n : Nat) (t : State) => ∀ x, (∀ i < n, x ≠ devAddr k.val (a + i)) → byteOf t.hbm x = byteOf s.hbm x
    (∀ dg, runs 1 →
      let wa := bits a1 50 40
      let wb := bits a1 59 51
      let fa := bits a1 35 32
      let fb := bits a1 39 36
      let lt := bits a1 60 60 == 1
      let n := 16 * (((fmtOf fa).map (·.rowBytes wa)).getD 0 + (if lt then ((fmtOf fb).map (·.rowBytes wb)).getD 0 else 0))
      src + n ≤ top → bankDigestOf (lat b 3 1) fa fb wa wb (a1 % 2 ^ 32) (a0 / 2 ^ 32) (s.chBytes k.val src n) lt = some dg →
      a2 % 2 ^ 31 + dg.length ≤ top → s.window k.val (a2 % 2 ^ 31) dg.length [.lock, .win] →
      (Instr.digest k slot [] []).gives s fun t =>
        t.chBytes k.val (a2 % 2 ^ 31) dg.length = dg ∧ but (a2 % 2 ^ 31) dg.length t ∧ ends stOK [.hbm] t) ∧
    (runs 2 → src + a1 ≤ top → (Instr.crc k slot [] []).gives s fun t =>
      result t % 2 ^ 32 = crc32cFrom (a2 % 2 ^ 32) (s.chBytes k.val src a1) % 2 ^ 32 ∧ ends stOK [] t) ∧
    (runs 2 → top < src + a1 → (Instr.crc k slot [] []).gives s (ends stFORMAT [])) ∧
    (runs 3 → src + a2 ≤ top → dst + a2 ≤ top → s.window k.val dst a2 [.lock, .win] → ∀ d : Nat,
      (Instr.compact k slot d [] []).gives s fun t =>
        t.chBytes k.val dst a2 = s.chBytes k.val src a2 ∧ but dst a2 t ∧ ends stOK [.hbm] t) ∧
    (runs 4 → src + a1 ≤ top → a1 % 128 = 0 → s.window k.val src a1 [.lock, .win] → (Instr.zero k slot [] []).gives s fun t =>
      t.chBytes k.val src a1 = zeros a1 ∧ but src a1 t ∧ ends stOK [.hbm] t) ∧
    (runs 5 → src + a1 ≤ top → (Instr.scrubRange k slot [] []).gives s fun t => result t = 0 ∧ ends stOK [] t) ∧
    (runs 6 → src + a1 ≤ top → (Instr.scrubPage k slot [] []).gives s
      (ends (if crc32c (s.chBytes k.val src a1) = a2 % 2 ^ 32 then stOK else stPOISONED) [])) ∧
    (runs 7 →
      let n := lat b 3 1 % 16
      let ra := bits a2 23 0
      let rb := bits a2 47 24
      n ≠ 0 → src + 16 * (ra + rb) ≤ top → dst + 16 * (ra + rb) ≤ top → s.window k.val dst (n * ra) [.lock, .win] →
      (rb ≠ 0 → s.window k.val (dst + 16 * ra) (n * rb) [.lock, .win]) → (Instr.cow k slot [] []).gives s fun t =>
        t.chBytes k.val dst (n * ra) = s.chBytes k.val src (n * ra) ∧
        t.chBytes k.val (dst + 16 * ra) (n * rb) = s.chBytes k.val (src + 16 * ra) (n * rb) ∧
        but dst (16 * ra + n * rb) t ∧ ends stOK [.hbm] t) ∧
    (∀ i c, let out := a2 % 2 ^ 31
      runs 8 → src + 65536 ≤ top → a1 ≤ 2048 → out + sweepOutBytes ≤ top → s.window k.val src 65536 [.atom] →
      s.window k.val out sweepOutBytes [.lock, .win] → s.pgt.chunks[i]? = some c →
      c * 2048 ≤ devAddr k.val src → devAddr k.val src < c * 2048 + 2 ^ 21 →
      (∀ j < i, ∀ e, s.pgt.chunks[j]? = some e → devAddr k.val src < e * 2048 ∨ e * 2048 + 2 ^ 21 ≤ devAddr k.val src) →
      (Instr.sweep k slot [] []).gives s fun t =>
        let lo := i * 65536 + (devAddr k.val src - c * 2048) / 32
        (∀ d, tfind t.pgt.descs d = (tfind s.pgt.descs d).map fun x =>
          if lo ≤ d ∧ d < lo + a1 then { x with heat := x.heat / 2 } else x) ∧
        (let hit := s.pgt.descs.filter fun e => decide (lo ≤ e.1 ∧ e.1 < lo + a1)
         hit.length ≤ a1 → t.chBytes k.val out (8 * hit.length) = hit.flatMap (fun e => le 4 e.1 ++ le 1 (e.2.heat / 2) ++ zeros 3) ∧
           but out (8 * hit.length) t) ∧
        ends stOK [.hbm, .pgt, .tier] t)

/-- R211 and R213; the jobs of the slots are those the main die issued. -/
def Obligations.GeckoJobIssue : Prop :=
  ∀ (s : State) (k : Fin 256) (slot : Fin 8), s.inReset = false →
    let g := s.gk k.val
    (∀ (code : Nat) (i : Instr) (j : GkJob),
      (code, i) ∈ [(1, Instr.digest k slot [] []), (2, .crc k slot [] []), (4, .zero k slot [] []), (5, .scrubRange k slot [] []),
        (6, .scrubPage k slot [] []), (7, .cow k slot [] []), (8, .sweep k slot [] [])] →
      s.gkRuns k.val = false → s.chanUsable k.val = true →
      s.hb.jobs.find? (fun j => j.code == code && s.mayIssue k.val slot.val j) = some j →
      i.gives s fun t =>
        slot.val ∈ (t.gk k.val).rung ∧ (∀ x < 32, tget 0 (t.gk k.val).cmd (32 * slot.val + x) = (j.bytes[x]?).getD 0) ∧
        t.lockTable k.val = s.lockTable k.val ++ j.entries.map (fun e => { e with slot := slot.val }) ∧
        (∀ d, j.locks = some d → (t.desc d).map (·.state) = some .lockedBank) ∧
        (∀ d, j.locks ≠ some d → t.desc d = s.desc d) ∧ (t.gk k.val).regs = g.regs ∧ (t.gk k.val).pc = g.pc ∧
        (∀ j, j ≠ k.val → t.gk j = s.gk j) ∧ s.only [.hb, .pgt] t) ∧
    (∀ j : GkJob, s.quiet → s.hb.held = [] → s.tier.unplaced = [] → s.ae.streams = [] → s.ae.lockWait = [] →
      s.hb.jobs.find? (fun j => j.chan == k.val && j.slot == some slot.val) = some j →
      (tget 0 g.cmd (32 * slot.val + 1)).toNat % 2 = 1 →
      let st := (tget 0 g.cmd (32 * slot.val + 2)).toNat
      let ready := Fd.GK_READY_READY (k.val / 32) (k.val % 32)
      let released := fun (t : State) => bits (t.fd ready) slot.val slot.val = 0 ∧
        (∀ n < 8, n ≠ slot.val → bits (t.fd ready) n n = bits (s.fd ready) n n) ∧
        t.lockTable k.val = (s.lockTable k.val).filter (fun e => e.slot != slot.val) ∧ t.hb.geckos = s.hb.geckos
      (j.use = .user → j.locks = none → st ≠ stPOISONED → (Instr.lockRelease k slot).gives s fun t =>
        released t ∧ t.hb.jobs = eraseFirst (fun y => y == j) s.hb.jobs ∧ s.only [.csr, .hb] t) ∧
      (∀ d dst x, j.use = .compact d dst → j.locks = some d → s.desc d = some x → x.state = .lockedBank →
        (st = stOK → (Instr.lockRelease k slot).gives s fun t =>
          released t ∧ t.desc d = some { x with state := .sealed, loc := ⟨.hbm, 0, dst⟩ } ∧
          (∃ r ∈ t.pgt.reclaim, r.loc = some x.loc ∧ r.desc = none) ∧ (∀ e, e ≠ d → t.desc e = s.desc e)) ∧
        (st = stFORMAT ∨ st = stTIMEOUT → (Instr.lockRelease k slot).gives s fun t =>
          released t ∧ t.desc d = some { x with state := .sealed } ∧
          (∃ r ∈ t.pgt.reclaim, r.loc = some ⟨.hbm, 0, dst⟩ ∧ r.desc = none) ∧ (∀ e, e ≠ d → t.desc e = s.desc e))))

/-- R198, R199, R215. -/
def Obligations.HbmService : Prop :=
  ∀ (s : State), s.inReset = false →
    (∀ (k : Fin 256) (bank ns : Nat), let f := Fd.GK_STALL_NS_NS (k.val / 32) (k.val % 32)
      ((s.gk k.val).state = .running → (Instr.hbmRefresh k bank ns).gives s fun t =>
        t.fd f = min (s.fd f + ns) (2 ^ (f.hi + 1 - f.lo) - 1) ∧
        t.gk k.val = { s.gk k.val with stallLeft := (s.gk k.val).stallLeft + (ns + 9) / 10 } ∧
        (0 < ns → s.gkRuns k.val = true → t.gkRuns k.val = false) ∧ s.gkOnly k.val [.csr] t ∧ s.regsBut [f.addr] t) ∧
      ((s.gk k.val).state ≠ .running → (Instr.hbmRefresh k bank ns).gives s fun t => t.gk k.val = s.gk k.val ∧ s.only [] t)) ∧
    (∀ (st : Fin 8) (ok : Bool) (ns : Nat), s.flag (Fd.HBM_STATUS_TRAINED st.val) = true →
      ((tfind s.hb.retrainAt st.val).getD 0) + max 1 (s.fd (Fd.HBM_CTL_RETRAIN_MS st.val)) * 100000 ≤ s.mtime →
      (Instr.hbmRetrain st ⟨ok, ns⟩).gives s fun t =>
        let c := (tfind s.hb.retrain st.val).getD 0
        let k := st.val * 32 + c
        let f := Fd.GK_STALL_NS_NS (k / 32) (k % 32)
        tfind t.hb.retrain st.val = some ((c + 1) % 32) ∧ tfind t.hb.retrainAt st.val = some s.mtime ∧
        ((s.gk k).state = .running → t.gk k = { s.gk k with stallLeft := (s.gk k).stallLeft + (min ns 2000 + 9) / 10 } ∧
          t.fd f = min (s.fd f + min ns 2000) (2 ^ (f.hi + 1 - f.lo) - 1)) ∧
        ((s.gk k).state ≠ .running → t.gk k = s.gk k ∧ t.fd f = s.fd f) ∧ (∀ j, j ≠ k → t.gk j = s.gk j) ∧
        (ok = false → t.fd (Fd.HBM_ERR_TRAIN_FAIL st.val) = 1) ∧ (ok = true → s.regsBut [f.addr] t) ∧ s.only [.csr, .hb] t) ∧
    (∀ k : Fin 256, let period := s.fd (Fd.HBM_SCRUB_PERIOD_S (k.val / 32))
      let pos := (tfind s.hb.scrubPos k.val).getD 0
      period ≠ 0 → s.chanUsable k.val = true → s.hb.scrubDue = [] → (∀ p ∈ s.pgt.descs, p.2.loc.tier ≠ .pcache) →
      (tfind s.hb.scrubAt k.val).getD 0 + period * 10 ^ 8 / 31744 ≤ s.mtime →
      (Instr.hbmScrubSchedule k).gives s fun t =>
        (∃ l, t.hb.jobs = s.hb.jobs ++ ⟨k.val, 5, 0, pos * 65536, 65536, 0, .scrub none, [], none, none, s.pgt.epoch⟩ :: l ∧
          (∀ j ∈ l, j.chan = k.val ∧ j.code = 6 ∧ ∃ d, j.use = .scrub (some d)) ∧
          ∀ p ∈ s.pgt.descs, p.2.state = .sealed → p.2.refcnt ≠ 0 → p.2.loc.tier = .hbm → chanOf (p.2.loc.frame * 2048) = k.val →
            chanAddr (p.2.loc.frame * 2048) / 65536 = pos → ∃ j ∈ l, j.use = .scrub (some p.1)) ∧
        tfind t.hb.scrubPos k.val = some ((pos + 1) % 31744) ∧ t.hb.geckos = s.hb.geckos ∧ t.hb.locks = s.hb.locks ∧
        s.only [.hb] t)

/-- R49 and R50 on a member that mirrors nothing. -/
def Obligations.Appends : Prop :=
  ∀ (s : State) (c : Conduit) (m : W32) (p : List Byte) (k : Nat) (q : Seq), s.takes c.val (lat p 0 8) k q → 16 ≤ p.length →
    let layer := lat p 14 1
    let start := lat p 8 4 % 2 ^ 25
    let n := lat p 12 2
    let head := 16 + (if lat p 15 1 % 2 = 1 then 4 * n else 0)
    (appendCheck q p = none → clsGroups q.def1 = 1 → start % 16 + n ≤ 16 → layer < q.layerLen.length →
      ∀ d x, tfind q.pt (ptKey layer 0 (start / 16)) = some d → s.desc d = some x →
        x.state ≠ .poisoned → x.loc.frame * 2048 + contentSize q.def0 ≤ hbmBytes → (Instr.append c m p).gives s fun t =>
          (∀ i < n, ∀ y ∈ slotParts q.def0 (start % 16 + i),
            t.hbmRead (x.loc.frame * 2048 + y.1) y.2.1 =
              slice (slice p (head + i * tokenBytes q.def0) (tokenBytes q.def0)) y.2.2 y.2.1) ∧
          s.hbmBut (x.loc.frame * 2048) (contentSize q.def0) t ∧ (t.desc d).map (·.valid) = some (start % 16 + n) ∧
          (∀ e, e ∉ q.pt.map Prod.snd → t.desc e = s.desc e) ∧ (∀ j, j ≠ k → t.seq j = s.seq j) ∧
          (∃ q', t.seq k = some q' ∧ q'.layerLen = q.layerLen.set layer (start + n) ∧ q'.pt = q.pt ∧ q'.closed = q.closed ∧
            s.answered c.val m.toNat stOK
              (le 8 q.handle ++ le 4 (q'.length + if q.closed then 2 ^ 31 else 0) ++ le 4 (start + n) ++ le 4 q.custodyEpoch ++ zeros 4) t) ∧
          s.only [.pgt, .twn, .trl, .hbm] t) ∧
    (appendCheck q p = some stALREADY → (Instr.append c m p).gives s fun t =>
      (∃ b, s.answered c.val m.toNat stALREADY b t) ∧ t.seq k = some { q with lastUse := s.usec } ∧ t.pgt.descs = s.pgt.descs ∧
      s.only [.pgt, .twn, .trl] t) ∧
    (appendCheck q p = some stBOUNDS → (Instr.append c m p).gives s fun t =>
      s.answered c.val m.toNat stBOUNDS [] t ∧ t.seq k = some { q with lastUse := s.usec } ∧ t.pgt.descs = s.pgt.descs ∧
      s.only [.pgt, .twn, .trl] t)

/-- R58 to R60 on a member that mirrors nothing. -/
def Obligations.SealsTruncatesAndFrees : Prop :=
  (∀ (s : State) (c : Conduit) (m : W32) (p : List Byte) (k : Nat) (q : Seq), s.takes c.val (lat p 0 8) k q →
    let body := fun (len : Nat) (closed : Bool) =>
      le 8 q.handle ++ le 4 (len + if closed then 2 ^ 31 else 0) ++ le 4 len ++ le 4 q.custodyEpoch ++ zeros 4
    let n := lat p 8 4
    (p.length = 8 → q.closed = false → (∀ l ∈ q.layerLen, l = q.length) → (Instr.sealSeq c m p).gives s fun t =>
      t.seq k = some { q with closed := true, lastUse := s.usec } ∧
      (∀ d, t.desc d = (s.desc d).map fun x =>
        if d ∈ q.pt.map Prod.snd ∧ x.state = .tadpole then { x with sealDue := true } else x) ∧
      s.answered c.val m.toNat stOK (body q.length true) t ∧ (∀ j, j ≠ k → t.seq j = s.seq j) ∧ s.only [.pgt, .twn, .trl] t) ∧
    (p.length = 8 → q.closed = true → (Instr.sealSeq c m p).gives s fun t =>
      t.seq k = some { q with lastUse := s.usec } ∧ s.answered c.val m.toNat stALREADY (body q.length true) t ∧
      t.pgt.descs = s.pgt.descs ∧ s.only [.pgt, .twn, .trl] t) ∧
    (p.length = 16 → n < 2 ^ 25 → lat p 12 4 = 0 → n % 16 = 0 → clsPrefix q.def1 = false → (∀ l ∈ q.layerLen, n ≤ l) →
      (q.closed = true ∨ ∃ l ∈ q.layerLen, l ≠ n) → (Instr.truncate c m p).gives s fun t =>
        (∃ q', t.seq k = some q' ∧ q'.layerLen = q.layerLen.map (fun _ => n) ∧ q'.closed = false ∧
          ∀ key, tfind q'.pt key = if 16 * keyPos key < n then tfind q.pt key else none) ∧
        ((q.pt.map Prod.snd).Nodup → ∀ e ∈ q.pt, ∀ x, s.desc e.2 = some x →
          (t.desc e.2).map (·.refcnt) = some (if 16 * keyPos e.1 < n then x.refcnt else x.refcnt - 1)) ∧
        (∃ b, s.answered c.val m.toNat stOK b t) ∧ (∀ j, j ≠ k → t.seq j = s.seq j) ∧ s.only [.pgt, .pdir, .twn, .trl] t) ∧
    (p.length = 16 → n < 2 ^ 25 → lat p 12 4 = 0 → (∃ l ∈ q.layerLen, l < n) → (Instr.truncate c m p).gives s fun t =>
      s.answered c.val m.toNat stBOUNDS [] t ∧ t.seq k = some { q with lastUse := s.usec } ∧ t.pgt.descs = s.pgt.descs ∧
      s.only [.pgt, .twn, .trl] t) ∧
    (p.length = 8 → (Instr.free c m p).gives s fun t =>
      t.seq k = some { q with sstate := .freeing, lastUse := s.usec } ∧ k ∈ t.pgt.freeing ∧ t.pgt.descs = s.pgt.descs ∧
      s.answered c.val m.toNat stOK (body q.length q.closed) t ∧ (∀ j, j ≠ k → t.seq j = s.seq j) ∧ s.only [.pgt, .twn, .trl] t)) ∧
  (∀ (s : State) (c : Conduit) (m : W32) (p : List Byte), s.inReset = false → s.quiet → s.sends c.val →
    hPart (lat p 0 8) = s.partOf c.val → s.route (lat p 0 8) = .bounds →
    let refused := fun (i : Instr) (st : Nat) => i.gives s fun t =>
      s.answered c.val m.toNat st [] t ∧ t.pgt = s.pgt ∧ s.only [.twn, .trl] t
    (16 ≤ p.length → refused (.append c m p) stBOUNDS) ∧ (p.length < 16 → refused (.append c m p) stFORMAT) ∧
    (p.length = 8 → refused (.sealSeq c m p) stBOUNDS ∧ refused (.free c m p) stBOUNDS) ∧
    (p.length ≠ 8 → refused (.sealSeq c m p) stFORMAT ∧ refused (.free c m p) stFORMAT) ∧
    (p.length = 16 → lat p 8 4 < 2 ^ 25 → lat p 12 4 = 0 → refused (.truncate c m p) stBOUNDS) ∧
    (p.length ≠ 16 → refused (.truncate c m p) stFORMAT)) ∧
  (∀ (s : State) (k : Nat) (q : Seq), s.inReset = false → s.quiet → s.alone → k ∈ s.pgt.freeing → s.seq k = some q →
    k = hIndex q.handle → hHome q.handle = s.node → q.cold = none →
    (Instr.freeComplete k).gives s fun t =>
      t.seq k = none ∧ k ∉ t.pgt.freeing ∧ tfind t.cust.records k = none ∧ (∃ g, tfind t.pgt.gens k = some (g, s.usec)) ∧
      ((q.pt.map Prod.snd).Nodup → ∀ e ∈ q.pt, ∀ x, s.desc e.2 = some x →
        (t.desc e.2).map (·.refcnt) = some (x.refcnt - 1) ∧ (x.refcnt = 1 → ∃ r ∈ t.pgt.reclaim, r.desc = some e.2)) ∧
      (∀ a, (∀ y ∈ s.pgt.seqChunks, a < y.2 * 2048 ∨ (y.2 + (tfind s.tier.hbmUsed y.2).getD 0) * 2048 ≤ a) →
        byteOf t.hbm a = byteOf s.hbm a) ∧
      (∀ j, j ≠ k → t.seq j = s.seq j) ∧ s.only [.pgt, .cust, .tier, .hbm] t)

/-- R39, R55 and R77 on a member that mirrors nothing, where no part page is copied. -/
def Obligations.Forks : Prop :=
  ∀ (s : State) (c : Conduit) (m : W32) (p : List Byte) (i : Nat), p.length = 24 → lat p 8 4 < 2 ^ 25 → lat p 14 2 = 0 →
    s.seqRoom (s.partOf c.val) = (stOK, i) → s.quiet → s.alone → s.sends c.val → s.inReset = false →
    let part := s.partOf c.val
    let cls := lat p 12 1
    let h := part * 2 ^ 60 + s.node * 2 ^ 40 + i * 2 ^ 16 + s.nextGen i
    let made := fun (t : State) => tfind t.cust.records i = some ⟨h, 1, s.node, .held, 0, 0, 0, 0, s.node⟩
    let okBody := fun (n : Nat) => le 8 h ++ le 4 n ++ le 4 n ++ le 4 1 ++ zeros 4
    let shares := fun (q : Seq) (f : Nat) (t : State) =>
      (∃ ch, t.seq i = some ch ∧ ch.handle = h ∧ ch.layerLen = List.replicate (clsLayers q.def1) f ∧ ch.sstate = .active ∧
        ch.hidden = false ∧ ch.def0 = q.def0 ∧ ch.def1 = q.def1 ∧
        ∀ key, tfind ch.pt key = if keyPos key < f / 16 then tfind q.pt key else none) ∧
      (∀ e ∈ q.pt, ∀ x, s.desc e.2 = some x → t.desc e.2 = some { x with refcnt := x.refcnt + if keyPos e.1 < f / 16 then 1 else 0 }) ∧
      made t ∧ s.answered c.val m.toNat stOK (okBody f) t
    let ready := fun (q : Seq) (f : Nat) => (q.pt.map Prod.fst).Nodup ∧ (q.pt.map Prod.snd).Nodup ∧ f ≤ q.length ∧ f % 16 = 0 ∧
      clsValid q.def0 = true ∧ ∀ e ∈ q.pt, ∃ x, s.desc e.2 = some x ∧ x.refcnt < 2 ^ 24 - 1
    let room := fun (q : Seq) (pt : Tbl Nat) => (s.placeSeq i q pt).isSome = true
    (lat p 0 8 = 0 → lat p 13 1 = 0 → clsValid (s.def0 cls) = true → clsPart (s.def0 cls) = part → s.seq noSeq = none →
      room (newSeq h cls (s.def0 cls) (s.def1 cls) 0 s.usec true) [] →
      (Instr.fork c m p).gives s fun t =>
        t.seq i = some (newSeq h cls (s.def0 cls) (s.def1 cls) 0 s.usec false) ∧ made t ∧
        s.answered c.val m.toNat stOK (okBody 0) t ∧ (∀ j, j ≠ i → t.seq j = s.seq j) ∧ t.pgt.descs = s.pgt.descs ∧
        s.only [.pgt, .cust, .twn, .trl, .tier, .free] t) ∧
    (∀ k q, lat p 0 8 ≠ 0 → lat p 13 1 = 0 → s.takes c.val (lat p 0 8) k q → ready q (lat p 8 4) →
      room (newSeq h q.cls q.def0 q.def1 (lat p 8 4) s.usec true) (q.pagesBelow (lat p 8 4)) → (Instr.fork c m p).gives s fun t =>
      shares q (lat p 8 4) t ∧ t.seq k = some { q with lastUse := s.usec } ∧ s.only [.pgt, .cust, .twn, .trl, .tier, .free] t) ∧
    (∀ k q key n ue, lat p 0 8 = 0 → lat p 13 1 = 1 → s.adoptEntry part p ue = (s, some (k, key, n)) → key < 2 ^ 64 → lat p 8 4 ≤ 16 * n → n < 2 ^ 32 →
      s.seq k = some q → k < 2 ^ 24 → s.handleOk q.handle part k = true → q.sstate = .active →
      let f := if lat p 8 4 = 0 then 16 * n else lat p 8 4
      ready q f → (∀ e ∈ q.pt, ∀ x, s.desc e.2 = some x → x.state = .sealed ∧ 0 < x.refcnt) →
      room (newSeq h q.cls q.def0 q.def1 f s.usec true) (q.pagesBelow f) → (Instr.adoptFork c m ⟨p, ue⟩).gives s fun t =>
        shares q f t ∧ (f = 16 * n → (t.seq i).map (fun ch => (ch.chainKey, ch.keyed, ch.broken)) = some (key, n, false)) ∧
        s.only [.pgt, .cust, .twn, .trl, .tier, .free] t)

/-- R45, R52, R61, R62; which unit is taken is a free choice of the model (notes/assumptions/2.md). -/
def Obligations.PagesAndEpochs : Prop :=
  ∀ (s : State), s.inReset = false →
    (∀ (d : Nat) (x : Desc), s.desc d = some x → x.state = .tadpole → s.cutDue d = false →
      (x.sealDue = true → x.sealUnit = none → (∃ u < 16, s.fd (Fd.CVU_CTL_OWNER u) = 0 ∧ tfind s.pgt.cvu u = none) →
        (Instr.pageSeal d).gives s fun t => ∃ u < 16, s.fd (Fd.CVU_CTL_OWNER u) = 0 ∧ tfind s.pgt.cvu u = none ∧
          tfind t.pgt.cvu u = some (.seal d) ∧ t.fd (Fd.CVU_STATUS_BUSY u) = 1 ∧ t.desc d = some { x with sealUnit := some u } ∧
          (∀ e, e ≠ d → t.desc e = s.desc e) ∧ s.only [.csr, .pgt, .free] t ∧ s.regsBut [(Fd.CVU_STATUS_BUSY u).addr] t) ∧
      (∀ u, x.sealUnit = some u → tfind s.pgt.cvu u = some (.seal d) → 0 < x.refcnt → s.awake = true →
        (Instr.sealCrcDone d).gives s fun t =>
          t.desc d = some { x with
            state := .sealed, crc := BitVec.ofNat 32 (crc32c (s.pageContent x)), sealDue := false, sealUnit := none } ∧
          (∀ v, tfind t.pgt.cvu v ≠ some (.seal d)) ∧ (∀ e, e ≠ d → t.desc e = s.desc e) ∧ t.rdata = s.rdata ∧ t.evc = s.evc ∧
          t.trl = s.trl ∧ t.sec = s.sec ∧ t.twn = s.twn)) ∧
    (s.pgt.epochAt + max 1 (s.fd Fd.PGT_CTL_EPOCH_PERIOD) * 100 ≤ s.mtime → Instr.pgtEpochAdvance.gives s fun t =>
      t.pgt.epoch = (s.pgt.epoch + 1) % 2 ^ 32 ∧ t.pgt.epochAt = s.mtime ∧ t.pgt.descs = s.pgt.descs ∧ t.pgt.seqs = s.pgt.seqs ∧
      s.only [.pgt] t) ∧
    (∀ (d : Nat) (x : Desc) (r : Reclaim), s.desc d = some x → s.tier.borrowed = [] →
      s.pgt.reclaim.find? (fun r => r.desc == some d) = some r → s.epochClear r.epoch = true →
      (∀ l ∈ s.tier.leaps, l.desc ≠ d) → (∀ j ∈ s.hb.jobs, j.locks ≠ some d) → tfind s.twn.hot d = none → r.digest = none →
      r.loc = some x.loc → x.loc.tier = .hbm → (s.pgt.chunks.length - 1) * 65536 ≤ d → (Instr.pageReclaim d).gives s fun t =>
        t.pgt.reclaim = eraseFirst (fun y => y == r) s.pgt.reclaim ∧
        t.desc d = some { x with state := .lockedBank, digestValid := false } ∧
        (∃ j, t.hb.jobs = s.hb.jobs ++ [j] ∧ j.code = 4 ∧ j.chan = chanOf (x.loc.frame * 2048) ∧
          j.arg0 = chanAddr (x.loc.frame * 2048) ∧ j.arg1 = frameUnits (frameCode r.def0) * 2048) ∧ s.only [.pgt, .hb, .tier] t) ∧
    (∀ (v : Word) (x : Desc), s.desc (bits v.toNat 31 0) = some x → (Instr.descSnapshot v).gives s fun t =>
      t.fd Fd.PGT_DESC_SEL_INDEX = bits v.toNat 31 0 ∧
      t.reg Reg.PGT_DESC_DATA0 = lat x.bytes 0 8 ∧ t.reg Reg.PGT_DESC_DATA1 = lat x.bytes 8 8 ∧
      t.reg Reg.PGT_DESC_DATA2 = lat x.bytes 16 8 ∧ t.reg Reg.PGT_DESC_DATA3 = lat x.bytes 24 8 ∧ s.only [.csr] t ∧
      s.regsBut [Reg.PGT_DESC_SEL, Reg.PGT_DESC_DATA0, Reg.PGT_DESC_DATA1, Reg.PGT_DESC_DATA2, Reg.PGT_DESC_DATA3] t)

/-- R40, R41, R53, R54, R212. -/
def Obligations.CheckUnitsAndClasses : Prop :=
  ∀ (s : State), s.inReset = false →
    (∀ (u : Fin 16) (v : Word), tfind s.pgt.cvu u.val = none → s.fd (Fd.CVU_CTL_OWNER u.val) = 1 → bits v.toNat 0 0 = 1 →
      s.fd (Fd.CVU_LEN_LEN u.val) ≠ 0 → (Instr.cvuGo u v).gives s fun t =>
        tfind t.pgt.cvu u.val = some .software ∧ t.fd (Fd.CVU_STATUS_BUSY u.val) = 1 ∧ s.only [.csr, .pgt] t) ∧
    (∀ (u : Fin 16) (v : Word),
      ((tfind s.pgt.cvu u.val).isSome = true → (Instr.cvuCtxWrite u v).gives s fun t =>
        t.fd (Fd.CVU_STATUS_CTX_BUSY u.val) = 1 ∧ s.only [.csr] t ∧ s.regsBut [(Fd.CVU_STATUS_CTX_BUSY u.val).addr] t) ∧
      (tfind s.pgt.cvu u.val = none → (Instr.cvuCtxWrite u v).gives s fun t =>
        t.reg (Reg.CVU_CTX u.val) = v.toNat % (if s.flag (Fd.CVU_CTL_POLY u.val) then 2 ^ 64 else 2 ^ 32) ∧ s.only [.csr] t ∧
        s.regsBut [Reg.CVU_CTX u.val] t)) ∧
    (∀ (u : Fin 16) (k : Option Nat), s.lockedAt (s.fd (Fd.CVU_SRC_ADDR u.val)) (s.fd (Fd.CVU_LEN_LEN u.val)) = true →
      (Instr.cvuJobDone u k).gives s fun t => s.only [] t) ∧
    (∀ (u : Fin 16), tfind s.pgt.cvu u.val = some .software → s.awake = true →
      s.lockedAt (s.fd (Fd.CVU_SRC_ADDR u.val)) (s.fd (Fd.CVU_LEN_LEN u.val)) = false →
      s.fd (Fd.CVU_SRC_ADDR u.val) + s.fd (Fd.CVU_LEN_LEN u.val) ≤ hbmBytes →
      let run := fun (n : Nat) =>
        let l := s.hbmRead (s.fd (Fd.CVU_SRC_ADDR u.val)) n
        let c := s.fd (Fd.CVU_CTX_CTX u.val)
        if s.flag (Fd.CVU_CTL_POLY u.val) then crc64From c l else crc32cFrom (c % 2 ^ 32) l
      ((Instr.cvuJobDone u none).gives s fun t =>
        let c := run (s.fd (Fd.CVU_LEN_LEN u.val))
        t.reg (Reg.CVU_CTX u.val) = c % 2 ^ 64 ∧
        t.reg (Reg.CVU_RESULT u.val) =
          (if s.flag (Fd.CVU_CTL_FINAL u.val) = true ∧ s.flag (Fd.CVU_CTL_POLY u.val) = false then c ^^^ 0xFFFFFFFF else c) % 2 ^ 64 ∧
        t.fd (Fd.CVU_STATUS_DONE u.val) = 1 ∧ t.fd (Fd.CVU_STATUS_BUSY u.val) = 0 ∧ tfind t.pgt.cvu u.val = none ∧
        s.only [.csr, .pgt] t) ∧
      (∀ k < s.fd (Fd.CVU_LEN_LEN u.val), (Instr.cvuJobDone u (some k)).gives s fun t =>
        t.reg (Reg.CVU_CTX u.val) = run (k / 32 * 32) % 2 ^ 64 ∧ t.fd (Fd.CVU_STATUS_ERR u.val) = 1 ∧
        t.fd (Fd.CVU_STATUS_BUSY u.val) = 0 ∧ t.reg (Reg.CVU_RESULT u.val) = s.reg (Reg.CVU_RESULT u.val) ∧ s.only [.csr, .pgt] t)) ∧
    (∀ v : Word, let c := s.fd Fd.PGT_CLASS_SEL_CLASS
      (s.classHeld c = true → ∀ i ∈ [Instr.classDefine v, .classDef1Write v], i.gives s fun t =>
        t.def0 c = s.def0 c ∧ t.def1 c = s.def1 c ∧ t.fd Fd.PGT_ERR_CLASS_BUSY = 1 ∧ s.only [.csr] t ∧ s.regsBut [Reg.PGT_ERR] t) ∧
      (s.classHeld c = false →
        ((Instr.classDefine v).gives s fun t =>
          fmtA (t.def0 c) = bits v.toNat 7 4 ∧ fmtB (t.def0 c) = bits v.toNat 11 8 ∧ frameCode (t.def0 c) = bits v.toNat 14 12 ∧
          widthA (t.def0 c) = bits v.toNat 26 16 ∧ widthB (t.def0 c) = bits v.toNat 41 32 ∧ clsPart (t.def0 c) = bits v.toNat 51 48 ∧
          (clsValid (t.def0 c) = true → bits v.toNat 15 15 = 1 ∧ classDefOk (t.def0 c) (clsGroups (s.def1 c)) = true) ∧
          (bits v.toNat 15 15 = 1 → clsValid (t.def0 c) = false → t.fd Fd.PGT_ERR_CLASS_FORMAT = 1) ∧ t.def1 c = s.def1 c ∧
          (∀ d, d ≠ c → t.def0 d = s.def0 d) ∧ s.only [.csr] t) ∧
        ((Instr.classDef1Write v).gives s fun t =>
          clsLayers (t.def1 c) = bits v.toNat 15 8 + 1 ∧ clsGroups (t.def1 c) = bits v.toNat 5 0 + 1 ∧
          clsPrefix (t.def1 c) = (bits v.toNat 16 16 == 1) ∧ clsValid (t.def0 c) = false ∧ (∀ d, d ≠ c → t.def0 d = s.def0 d) ∧
          s.only [.csr] t)))

/-- R43 and R44; the image's layout is the model's (notes/assumptions/15.md). -/
def Obligations.ColdSequences : Prop :=
  ∀ (s : State) (k : Nat) (q : Seq), s.inReset = false → s.seq k = some q →
    (∀ l t u, s.fd Fd.PGT_COLD_DELAY_MS ≠ 0 → q.sstate = .active → q.hidden = false → q.cold = none →
      q.lastUse + s.fd Fd.PGT_COLD_DELAY_MS * 1000 ≤ s.usec → s.quiet → s.cust.quiesced = [] →
      (∀ d ∈ q.pages, ∃ x, s.desc d = some x ∧ (x.state = .tadpole ∧ x.sealDue = false ∨ x.state = .sealed ∧ x.loc.tier = .flash)) →
      let im := s.imageOf q
      im.bytes.length ≤ 65536 → s.fltAlloc (if k < 2 ^ 24 then 3 else 2) = some (l, t) →
      t.fltWrite l (max 1 (ceilDiv im.bytes.length 2048)) (hPart q.handle) (slice im.bytes 0 65536) (.image k) = (stOK, u) →
      (Instr.coldConversion k).gives s fun w =>
        w.seq k = (u.seq k).map (fun q => { q with cold := some { im with units := [l] } }) ∧ w.flt = u.flt ∧
        (∀ j, j ≠ k → w.seq j = u.seq j) ∧ w.pgt.descs = u.pgt.descs ∧
        im.crc.toNat = crc64From 0 im.bytes % 2 ^ 64) ∧
    (q.sstate = .cold → q.thawEpoch = none → (Instr.thaw k).gives s fun t =>
      t.seq k = some { q with thawing := true, thawEpoch := some s.pgt.epoch } ∧
      (∀ im, q.cold = some im → ∀ l ∈ im.units, ∃ r ∈ t.flt.reads, r.lunit = l ∧ r.cmd = false) ∧
      (∀ j, j ≠ k → t.seq j = s.seq j) ∧ t.pgt.descs = s.pgt.descs ∧ s.only [.pgt, .flt] t) ∧
    (∀ im b answered twin, q.sstate = .cold → q.thawEpoch.isSome = true → s.quiet → q.cold = some im → s.imageRead im = some b →
      s.poolUnit.isSome = true →
      let good := crc64From 0 (slice b 0 (4096 * q.ptSize)) = q.ptCrc.toNat
      (good → im.descs = [] → im.tadpoles = [] → (s.reinstate k).isSome = true → (Instr.thawDone k answered twin).gives s fun t =>
        (∃ q', t.seq k = some q' ∧ q'.sstate = .active ∧ q'.layerLen = im.layerLen ∧ q'.chainKey = im.chainKey ∧ q'.keyed = im.keyed ∧
          q'.broken = im.broken ∧ q'.tokids = im.tokids ∧ q'.pendKeys = im.pendKeys ∧ q'.pt = im.pt ∧ q'.cold = none ∧ q'.thawEpoch = none) ∧
        t.fd Fd.PGT_THAWS_COUNT = min (s.fd Fd.PGT_THAWS_COUNT + 1) (2 ^ 64 - 1) ∧ (∀ j, j ≠ k → t.seq j = s.seq j)) ∧
      (¬good → (s.alone ∨ answered = false) → (Instr.thawDone k answered twin).gives s fun t => t.seq k = some { q with thawing := false, thawEpoch := none } ∧ t.fd Fd.PGT_ERR_THAW_LOST = 1 ∧
        (∀ j, j ≠ k → t.seq j = s.seq j) ∧ t.pgt.descs = s.pgt.descs ∧ s.only [.csr, .pgt, .flt] t))

/-- R72 to R75, R79 to R83, where the matching entries of the sets probed are valid. -/
def Obligations.PrefixDirectory : Prop :=
  ∀ (s : State), s.inReset = false →
    let fits := fun (part cls key : Nat) (e : Nat) (x : PdirEntry) => tfind s.pdir.entries e = some x ∧ e / 16 = key % 2 ^ 14 ∧
      x.key = key ∧ x.part = part ∧ x.cls = cls
    let valid := fun (ue : List Nat) (e : Nat) (x : PdirEntry) => e ∉ ue ∧ s.shadowOk e x = true ∧ s.donorOk x = true
    let hit := fun (c : Conduit) (m : W32) (e : Nat) (x : PdirEntry) (multi : Bool) (t : State) =>
      s.answered c.val m.toNat stOK (le 4 (x.pos + 1 + if multi then 2 ^ 31 else 0) ++ zeros 4 ++ le 8 (e + x.stamp * 2 ^ 18 + x.part * 2 ^ 34)) t ∧
      tfind t.pdir.entries e = some { x with age := 15 } ∧ (∀ f, f ≠ e → tfind t.pdir.entries f = tfind s.pdir.entries f) ∧
      t.fd Fd.PDIR_HITS_COUNT = min (s.fd Fd.PDIR_HITS_COUNT + 1) (2 ^ 64 - 1) ∧ s.only [.csr, .pdir, .trl] t ∧
      s.regsBut [Reg.PDIR_LOOKUPS, Reg.PDIR_HITS] t
    (∀ (c : Conduit) (m : W32) (p : List Byte) (ue : List Nat), s.sends c.val → s.flag Fd.PDIR_CTL_ENABLE = true → s.lookupCheck (s.partOf c.val) p = none →
      let part := s.partOf c.val
      let cls := lat p 0 1
      let n := lat p 2 2
      let key := fun (j : Nat) => lat p (16 + 8 * j) 8
      (∀ j e x (multi : Bool), lat p 1 1 = 0 → j < n → fits part cls (key j) e x →
        (∀ f y, f < e → ¬fits part cls (key j) f y) → (∀ f y, fits part cls (key j) f y → valid ue f y) →
        (∀ i, j < i → i < n → ∀ f y, ¬fits part cls (key i) f y) → (multi = true ↔ ∃ f y, f ≠ e ∧ fits part cls (key j) f y) →
        (Instr.lookup c m ⟨p, ue⟩).gives s (hit c m e x multi)) ∧
      (lat p 1 1 = 0 → (∀ i < n, ∀ f y, ¬fits part cls (key i) f y) → (Instr.lookup c m ⟨p, ue⟩).gives s fun t =>
        s.answered c.val m.toNat stEMPTY (zeros 16) t ∧ t.pdir = s.pdir ∧ s.only [.csr, .trl] t ∧ s.regsBut [Reg.PDIR_LOOKUPS] t) ∧
      (∀ e x f y (multi : Bool), lat p 1 1 = 1 → lat p 8 8 = e + x.stamp * 2 ^ 18 + part * 2 ^ 34 → e < 2 ^ 18 → x.stamp < 2 ^ 16 → part < 16 →
        fits part x.cls x.key e x → fits part x.cls x.key f y → e < f → (∀ g z, e < g → g < f → ¬fits part x.cls x.key g z) →
        (∀ g z, fits part x.cls x.key g z → valid ue g z) → (multi = true ↔ ∃ g z, f < g ∧ fits part x.cls x.key g z) →
        (Instr.lookupNext c m ⟨p, ue⟩).gives s (hit c m f y multi))) ∧
    (s.pdir.agedAt + s.pdir.agePeriod * 100000 ≤ s.mtime → Instr.ageDecrement.gives s fun t =>
      (∀ e, tfind t.pdir.entries e = (tfind s.pdir.entries e).map fun x => { x with age := x.age - 1 }) ∧ t.pdir.agedAt = s.mtime ∧
      t.pdir.agePeriod = s.fd Fd.PDIR_CTL_AGE_PERIOD ∧
      s.only [.pdir] t) ∧
    (∀ ue : List Nat, twf s.pdir.entries = true → s.flag Fd.PDIR_CTL_ENABLE = true → s.fd Fd.PDIR_SCRUB_MS_MS ≠ 0 →
      s.pdir.scrubAt + s.fd Fd.PDIR_SCRUB_MS_MS * 100000 ≤ s.mtime → (Instr.pdirScrubPass ue).gives s fun t =>
        (∀ e x, tfind s.pdir.entries e = some x →
          (valid ue e x → tfind t.pdir.entries e = some x) ∧ (¬valid ue e x → tfind t.pdir.entries e = none)) ∧
        (∀ e, tfind s.pdir.entries e = none → tfind t.pdir.entries e = none) ∧ s.only [.csr, .pdir, .hbm] t) ∧
    (∀ (k : Fin 64) (pg : Purge) (ep : Nat), s.quiet → tfind s.pdir.purges k.val = some pg → pg.epoch = some ep →
      (Instr.purgePassDone k).gives s fun t =>
        tfind t.pdir.purges k.val = none ∧
        (∀ e ∈ s.pdir.entries, e.2.index = pg.donor → pg.cutoff ≤ e.2.pos → serialLt 32 e.2.insEpoch ep = true →
          tfind t.pdir.entries e.1 = none) ∧ s.only [.pdir, .hbm] t) ∧
    (∀ (k : Nat) (op : SeqOp) (q : Seq), s.pgt.ops = [op] → s.pgt.copies = [] → s.cust.held = [] → s.tier.borrowed = [] → s.alone →
      op.seq = k → op.kind = .truncate → op.phase = .purging → k < 2 ^ 24 → s.seq k = some q → clsPrefix q.def1 = true →
      op.point / 16 < q.keyed → (∃ i < 64, tfind s.pdir.purges i = none) → s.sends op.conduit → (Instr.purgeRegister k).gives s fun t =>
        (∃ i < 64, tfind s.pdir.purges i = none ∧ tfind t.pdir.purges i = some ⟨k, op.point / 16, some s.pgt.epoch, op.id⟩) ∧
        (t.seq k).map (·.layerLen) = some (q.layerLen.map fun _ => op.point) ∧ t.pgt.ops = [] ∧
        (∃ b, s.answered op.conduit op.msgseq stOK b t)) ∧
    (∀ v : Word, bits v.toNat 0 0 = 0 → s.flag Fd.PDIR_CTL_ENABLE = true → (Instr.pdirDisable v).gives s fun t =>
      t.flag Fd.PDIR_CTL_ENABLE = false ∧ (∀ e, tfind t.pdir.entries e = none) ∧ s.only [.csr, .pdir, .hbm] t ∧
      s.regsBut [Reg.PDIR_CTL] t) ∧
    (∀ v : Word, bits v.toNat 0 0 = 1 → (Instr.pdirEnable v).gives s fun t =>
      t.flag Fd.PDIR_CTL_ENABLE = (s.fd Fd.PDIR_SHADOW_BASE_ADDR != 0) ∧ s.only [.csr] t ∧ s.regsBut [Reg.PDIR_CTL] t)

/-- R89 to R91, R99, R101, R122; which free context is taken is a free choice of the model (notes/assumptions/2.md). -/
def Obligations.QueryAdmission : Prop :=
  ∀ (s : State) (c : Conduit) (m : W32) (p : List Byte),
    let part := s.partOf c.val
    let free := (∃ j < 65536, s.stream j = none)
    let refused := fun (i : Instr) (st : Nat) => i.gives s fun t =>
      s.sent c.val 0x05 (le 8 (lat p 56 8) ++ le 1 st ++ le 1 ((if qRaw p then 1 else 0) + (if qF32 p then 2 else 0)) ++ zeros 6) t ∧
      t.ae = s.ae ∧ t.pgt = s.pgt
    (∀ k q, s.takes c.val (lat p 0 8) k q →
      let l := q.len (lat p 8 1)
      (headerBad p false = false → lat p 8 1 < clsLayers q.def1 → qAmode p ≠ 2 → s.shapeBad p part q.def0 (clsGroups q.def1) 0 = false →
        posOk (qMask p) (lat p 16 4) (lat p 10 2) (lat p 20 4) l = true → lat p 16 4 + lat p 10 2 ≤ 16777216 → qRkey p = 0 →
        s.contextRoom part 1 = true → free → (Instr.query c m p).gives s fun t =>
          (∃ i x, s.stream i = none ∧ t.stream i = some x ∧ x.seq = k ∧ x.handle = lat p 0 8 ∧ x.tag = lat p 56 8 ∧ x.llen = l ∧
            x.epoch = s.pgt.epoch ∧ x.layer = lat p 8 1 ∧ x.qpos = lat p 16 4 ∧ x.qcount = lat p 10 2 ∧ x.qheads = lat p 12 2 ∧
            x.part = part ∧ x.conduit = c.val ∧ x.msgseq = m.toNat ∧ x.cstate = .dispatch ∧ x.items = [] ∧ x.recs = [] ∧ x.taken = 0 ∧
            x.deadline = s.usec + 1000 * max 1 (s.fd Fd.AE_TIMEOUT_MS) ∧
            (∀ u ∈ x.scanned, tfind q.pt (ptKey x.layer u.group u.page) = some u.desc ∧ u.group < clsGroups q.def1 ∧ 16 * u.page < l) ∧
            ∀ j, j ≠ i → t.stream j = s.stream j) ∧
          t.fd Fd.AE_ADMITS_COUNT = min (s.fd Fd.AE_ADMITS_COUNT + 1) (2 ^ 64 - 1) ∧
          t.seq k = some { q with lastUse := s.usec } ∧ t.pgt.ops = [] ∧ s.only [.csr, .ae, .pgt, .tier, .twn, .trl, .free] t) ∧
      (lat p 8 1 < clsLayers q.def1 → headerBad p false = false → s.shapeBad p part q.def0 (clsGroups q.def1) 0 = true →
        (Instr.query c m p).gives s fun t => (∃ b, s.sent c.val 0x05 (le 8 (lat p 56 8) ++ le 1 stFORMAT ++ b) t) ∧ t.ae = s.ae)) ∧
    (s.inReset = false → s.quiet → s.sends c.val → headerBad p false = true → refused (.query c m p) stFORMAT) ∧
    (s.inReset = false → s.quiet → s.sends c.val → headerBad p false = false → hPart (lat p 0 8) = part → s.route (lat p 0 8) = .bounds →
      refused (.query c m p) stBOUNDS) ∧
    (∀ k q, let e := slice p (64 + if qBias p then 4 * lat p 12 2 else 0) 16
      let l := q.len (lat p 8 1)
      s.takes c.val (lat e 0 8) k q → headerBad p true = false → lat p 0 2 % 2 ^ 10 = 1 → entryOk e = true → lat e 12 2 = lat p 10 2 →
      lat p 8 1 < clsLayers q.def1 → qAmode p ≠ 2 → s.shapeBad p part q.def0 (clsGroups q.def1) 16 = false →
      posOk (qMask p) (lat e 8 4) (lat e 12 2) (lat p 20 4) l = true → lat e 8 4 + lat e 12 2 ≤ 16777216 → qRkey p = 0 →
      s.contextRoom part 1 = true → free → (Instr.batchQuery c m p).gives s fun t =>
        ∃ i x b, s.stream i = none ∧ t.stream i = some x ∧ x.seq = k ∧ x.batch = some s.ae.nextBatch ∧ x.entry = 0 ∧ x.llen = l ∧
          x.qpos = lat e 8 4 ∧ x.qcount = lat e 12 2 ∧ tfind t.ae.batches s.ae.nextBatch = some b ∧ b.conduit = c.val ∧
          b.entries.map (·.stream) = [some i] ∧ t.ae.nextBatch = s.ae.nextBatch + 1 ∧ t.pgt.ops = []) ∧
    (let d0 := lat p 88 8 % 2 ^ 42
     let groups := bits (lat p 88 8) 47 42 + 1
     let n := lat p 72 4
     let unit := fun (i : Nat) => slice p (96 + (if qBias p then 4 * lat p 12 2 else 0) + 16 * i) 16
     s.inReset = false → 96 ≤ p.length → headerBad p false = false → lat p 76 1 < 2 → lat p 77 3 = 0 → lat p 80 4 = s.peerOf c.val →
     lat p 80 4 < 2 ^ 20 → lat p 84 4 = 0 → lat p 88 8 < 2 ^ 48 → lat p 68 4 < 2 ^ 25 → 0 < n → n < 2 ^ 26 → qAmode p ≠ 2 →
     (qAmode p = 0 ↔ latent d0 = false) → (qAmode p = 0 → lat p 12 2 % groups = 0) → classDefOk d0 groups = true →
     p.length = 96 + 16 * n + rowsSize p (rowWidths (qAmode p) d0 (s.imgShape 0)).1 →
     (∀ i < n, (s.lentAt (s.peerOf c.val) part (lat (unit i) 0 8 % 2 ^ 40) (frameUnits (frameCode d0))).isSome = true) →
     s.contextRoom part 1 = true → s.creditsUsed ≤ s.fd Fd.MRG_CREDIT_POOL_MAX → free → (Instr.subquery c m p).gives s fun t =>
       (∃ i x w, s.stream i = none ∧ t.stream i = some x ∧ x.lender = some w ∧ w.node = s.peerOf c.val ∧ w.hstream = lat p 64 4 % 2 ^ 16 ∧
         w.sub = bits (lat p 64 4) 27 16 ∧ w.subgen = bits (lat p 64 4) 31 28 ∧ w.hold = (lat p 76 1 % 2 == 1) ∧ w.nunits = n ∧
         x.llen = lat p 68 4 ∧ x.smode = 0 ∧ x.handle = lat p 0 8 ∧ x.scanned.length = n ∧
         ∀ j u, x.scanned[j]? = some u → u.loc = ⟨.hbm, 0, lat (unit j) 0 8 % 2 ^ 40⟩ ∧ u.page = lat (unit j) 12 4 % 2 ^ 20) ∧
       t.pgt = s.pgt ∧ s.only [.csr, .ae, .trl, .free] t)

/-- R101 to R110, for a member without cross-check sampling. -/
def Obligations.StreamsAtTheEngines : Prop :=
  ∀ (s : State), s.inReset = false →
    (∀ i x, s.stream i = some x → x.cstate = .dispatch → x.items = [] → x.subs = [] → x.workAt.isSome = true → x.scanned.length ≤ 65536 → x.taken = 0 →
      (∀ u ∈ x.scanned, u.kind = .local_ ∧ u.tadpole = false ∧ ∀ y, s.desc u.desc = some y → y.state ≠ .poisoned) →
      (Instr.windowSplit i).gives s fun t =>
        ∃ y, t.stream i = some y ∧ y.units = x.scanned ∧ y.taken = x.scanned.length ∧ (y.items.map (·.units)).flatten = x.scanned ∧
          1 ≤ y.items.length ∧ y.items.length ≤ 16 ∧ (∀ it ∈ y.items, it.istate = .waiting ∧ it.resumed = false) ∧
          (∀ (a b : Nat) (v w : WorkItem), y.items[a]? = some v → y.items[b]? = some w → a < b →
            w.units.length ≤ v.units.length ∧ v.units.length ≤ w.units.length + 1) ∧
          (∀ k < y.items.length, (i, k) ∈ t.ae.waiting) ∧ (∀ j, j ≠ i → t.stream j = s.stream j) ∧ s.only [.ae] t) ∧
    (∀ i k e x it, s.stream i = some x → s.item i k = some it → it.istate = .waiting → it.saveAt = none → x.workAt.isSome = true →
      s.ae.waiting = [(i, k)] → s.chooseEngine x.part [] = some e → tfind s.ae.running e = none → s.engineQueue e = [] →
      s.awake = true → s.flag Fd.TWN_XCHK_ENABLE = false → x.cstate ≠ .aborting → (Instr.workItemDispatch i).gives s fun t =>
        tfind t.ae.running e = some (i, k) ∧ tfind t.ae.busySince e = some s.mtime ∧ t.ae.waiting = [] ∧
        (t.item i k).map (fun y => (y.istate, y.engine, y.units)) = some (.running, some e, it.units) ∧
        (t.stream i).map (·.cstate) = some .running ∧ s.engineOk e x.part = true ∧
        (∀ f < 80, s.engineOk f x.part = true → (s.engineQueue e).length ≤ (s.engineQueue f).length) ∧ s.only [.ae, .twn] t) ∧
    (∀ (e : Fin 80) i k x it todo t0 u,
      tfind s.ae.running e.val = some (i, k) → s.stream i = some x → s.item i k = some it → it.todo = some (t0 :: todo) →
      it.units[t0.ix]? = some u → u.kind = .local_ → (u.loc.tier = .hbm ∨ u.loc.tier = .pcache) → t0.eligible = false → it.inBlock + 1 < 64 → x.amode ≠ 2 → x.cstate = .running →
      tfind s.ae.lockWait e.val = none → s.awake = true → s.flag (Fd.AE_STATUS_QUARANTINED e.val) = false →
      (if x.lender.isSome then s.lockedAt (u.loc.frame * 2048) (contentSize x.def0) = false
        else ∀ y, s.desc u.desc = some y → y.state ≠ .poisoned ∧ y.state ≠ .lockedBank) →
      (∃ t1 ∈ todo, t1.ix ≠ t0.ix ∧ (it.units[t1.ix]?).map (·.kind) = some .local_) → (Instr.engineUnitEnd e 0 []).gives s fun t =>
        (∃ y, t.item i k = some y ∧ y.todo = some (todo.filter fun z => z.ix != t0.ix) ∧ y.inBlock = it.inBlock + 1 ∧ y.units = it.units ∧
          y.accs = it.accs.map fun a => x.addPage a u (s.unitContent x u []) (x.imgOf s).fmt []) ∧
        t.fd (Fd.AE_UNITS_COUNT e.val) = min (s.fd (Fd.AE_UNITS_COUNT e.val) + 1) (2 ^ 64 - 1) ∧
        tfind t.ae.running e.val = some (i, k) ∧ (∀ j, j ≠ i → t.stream j = s.stream j) ∧ s.only [.csr, .ae, .glb] t) ∧
    (∀ (e : Fin 96) d t0 i k x it todo, e.val < 80 → tfind s.ae.lockWait e.val = some (d, t0) →
      t0 * 10 + s.fd Fd.AE_SPLIT_LOCK_WAIT_NS ≤ s.mtime * 10 → tfind s.ae.running e.val = some (i, k) →
      s.stream i = some x → x.cstate = .running →
      s.item i k = some it → it.todo = some todo → (∃ t1 ∈ todo, ∃ u, it.units[t1.ix]? = some u ∧ x.lockName u ≠ d ∧ u.kind ≠ .deferred) → (Instr.lockWaitExpire e).gives s fun t =>
        tfind t.ae.lockWait e.val = none ∧ tfind t.ae.running e.val = some (i, k) ∧
        (t.item i k).map (·.units) = some (it.units.map fun u => if x.lockName u = d then { u with kind := .deferred } else u) ∧
        (∀ j, j ≠ i → t.stream j = s.stream j) ∧ s.only [.ae] t) ∧
    (∀ (e : Fin 80) i k x it, tfind s.ae.running e.val = some (i, k) → s.stream i = some x → s.item i k = some it → x.cstate = .running →
      s.fd (Fd.TWN_CLASS_LIMIT 3) = 0 → s.engineQueue e.val = [] → s.flag (Fd.AE_STATUS_QUARANTINED e.val) = false →
      (Instr.engineSramUe e).gives s fun t =>
        t.fd (Fd.AE_ERR_SRAM_UE e.val) = 1 ∧ tfind t.ae.running e.val = none ∧ (i, k) ∈ t.ae.waiting ∧
        (t.item i k).map (fun y => (y.istate, y.engine, y.tile, y.todo, y.accs, y.units)) = some (.waiting, none, 0, none, [], it.units) ∧
        t.fd Fd.AE_RESTARTS_COUNT = min (s.fd Fd.AE_RESTARTS_COUNT + 1) (2 ^ 64 - 1) ∧ (∀ j, j ≠ i → t.stream j = s.stream j))

/-- R111, R112, R117, R120, R363. -/
def Obligations.StreamsEnd : Prop :=
  ∀ (s : State), s.inReset = false →
    let header := fun (x : Stream) (st : Nat) => le 8 x.tag ++ le 1 st ++ le 1 ((if x.raw then 1 else 0) + (if x.outF32 then 2 else 0)) ++ zeros 6
    let plain := fun (x : Stream) => x.lender = none ∧ x.batch = none ∧ x.byWr = none ∧ x.subs = [] ∧
      (∀ it ∈ x.items, it.istate ≠ .running) ∧ (x.cstate = .dispatch ∨ x.cstate = .parked) ∧ s.sends x.conduit
    (∀ i x, s.stream i = some x → plain x →
      (x.deadline ≤ s.usec → (Instr.streamTimeout i).gives s fun t =>
        t.stream i = none ∧ s.sentAll x.conduit [(0x05, header x stTIMEOUT)] t ∧
        t.fd Fd.AE_TIMEOUTS_COUNT = min (s.fd Fd.AE_TIMEOUTS_COUNT + 1) (2 ^ 64 - 1) ∧ (∀ y ∈ t.ae.waiting, y.1 ≠ i) ∧
        (∀ j, j ≠ i → t.stream j = s.stream j) ∧ t.pgt = s.pgt ∧ s.only [.csr, .ae, .trl, .tier, .rmo, .mgt, .wxp] t) ∧
      (∀ (c : Conduit) (m : W32) (p : List Byte), c.val = x.conduit → p.length = 8 → lat p 4 4 = 0 → lat p 0 4 = x.msgseq → x.msgseq ≠ 0 →
        serialLt 32 x.msgseq m.toNat = true →
        (∀ j y, s.stream j = some y → y.conduit = x.conduit → y.msgseq = x.msgseq → j = i) → twf s.ae.streams = true →
        (Instr.abort c m p).gives s fun t =>
          t.stream i = none ∧
          s.sentAll x.conduit [(0x05, header x stABORTED), (0x30, le 4 m.toNat ++ le 1 stOK ++ zeros 3)] t ∧
          (∀ j, j ≠ i → t.stream j = s.stream j) ∧ t.pgt = s.pgt)) ∧
    (∀ (c : Conduit) (m : W32) (p : List Byte), s.sends c.val →
      (p.length ≠ 8 ∨ lat p 4 4 ≠ 0 ∨ lat p 0 4 = 0 → (Instr.abort c m p).gives s fun t =>
        s.answered c.val m.toNat stFORMAT [] t ∧ s.only [.trl] t) ∧
      (p.length = 8 → lat p 4 4 = 0 → lat p 0 4 ≠ 0 → serialLt 32 (lat p 0 4) m.toNat = true → s.ae.streams = [] → s.ae.batches = [] →
        s.pgt.ops = [] → s.cust.held = [] → s.cust.forwarded = [] → (Instr.abort c m p).gives s fun t =>
          s.answered c.val m.toNat stALREADY [] t ∧ s.only [.trl] t)) ∧
    (∀ i x, s.stream i = some x → x.lender = none → x.subs = [] → x.cstate ≠ .aborting → x.cstate ≠ .delivering →
      (∀ m ∈ s.ae.mergeQ, m.stream = i → m.relay = false) →
      (Instr.mergeAreaUe i).gives s fun t =>
        t.fd Fd.MRG_ERR_AREA_UE = 1 ∧ t.fd Fd.MRG_RERUNS_COUNT = min (s.fd Fd.MRG_RERUNS_COUNT + 1) (2 ^ 64 - 1) ∧
        (t.stream i).map (fun y => (y.cstate, y.workAt, y.taken, y.gen, y.scanned)) = some (.dispatch, none, 0, x.gen + 1, x.scanned) ∧
        (t.stream i).map (fun y => (y.units, y.items, y.recs)) = some ([], [], []) ∧ (∀ y ∈ t.ae.mergeQ, y.stream ≠ i)) ∧
    (∀ i x, s.stream i = some x → x.cstate = .delivering → x.batch = none → x.byWr = none →
      s.trl.ended.find? (fun e => e.1 == .result i || e.1 == .partialOf i) = some (.result i, stOK) →
      (Instr.resultDelivered i).gives s fun t =>
        t.stream i = none ∧ t.trl.ended = eraseFirst (fun y => y == (.result i, stOK)) s.trl.ended ∧
        t.fd Fd.MRG_RESULTS_COUNT = min (s.fd Fd.MRG_RESULTS_COUNT + 1) (2 ^ 64 - 1) ∧ (∀ j, j ≠ i → t.stream j = s.stream j) ∧
        t.pgt = s.pgt ∧ s.only [.csr, .ae, .trl, .tier, .rmo, .mgt, .wxp] t)

/-- R115, R116, R123, R125, where more of the stream's window is outstanding. -/
def Obligations.PartialsAreMerged : Prop :=
  ∀ (s : State), s.inReset = false →
    (∀ (u : Fin 4) m x, s.ae.mergeQ.find? (fun m => s.mergeUnit m.stream m.r.row == u.val) = some m → s.stream m.stream = some x →
      x.gen = m.gen → m.sub = none → (∃ it ∈ x.items, it.istate ≠ .done) → (Instr.mergeRecord u).gives s fun t =>
        t.ae.mergeQ = eraseFirst (fun y => y == m) s.ae.mergeQ ∧
        (∃ y, t.stream m.stream = some y ∧ y = { x with recs := y.recs } ∧ y.recAt m.r.row = mergeRec (x.recAt m.r.row) m.r ∧
          ∀ r, r ≠ m.r.row → y.recAt r = x.recAt r) ∧ (∀ j, j ≠ m.stream → t.stream j = s.stream j) ∧ s.only [.ae] t) ∧
    (∀ (c : Conduit) (q : W32) (p : List Byte),
      let i := lat p 8 4 % 2 ^ 16
      (∀ x y, s.stream i = some x → x.handle = lat p 0 8 → x.lender = none → x.cstate = .running →
        x.subs.find? (fun y => y.sub == bits (lat p 8 4) 27 16 && y.gen == bits (lat p 8 4) 31 28 && !y.landed) = some y →
        blockGood x p = true → y.members = [] → 0 < x.rowCount → (Instr.partialRecord c q p).gives s fun t =>
          t.ae.mergeQ = s.ae.mergeQ ++ (recsOf x.rowCount x.owidth (p.drop 32)).map (fun r => ⟨i, x.gen, r, some y.sub, false⟩) ∧
          (t.stream i).map (·.subs) = some (x.subs.map fun z => if z.sub = y.sub then { z with landed := true } else z) ∧
          (∀ j, j ≠ i → t.stream j = s.stream j) ∧ s.only [.ae, .trl] t) ∧
      ((∀ j x, s.stream j = some x → x.handle ≠ lat p 0 8) → twf s.ae.streams = true → (Instr.partialRecord c q p).gives s fun t =>
        t.fd Fd.MRG_STALE_COUNT = min (s.fd Fd.MRG_STALE_COUNT + 1) (2 ^ 64 - 1) ∧ t.ae = s.ae ∧ s.only [.csr, .trl] t ∧
        s.regsBut [Reg.MRG_STALE] t) ∧
      (∀ j x w, lat p 0 2 = 0x0101 → p.length = 16 → s.ae.streams = [(j, x)] → x.handle = lat p 8 8 → x.cstate ≠ .aborting →
        x.lender = some w → w.node = s.peerOf c.val → w.hstream = lat p 2 2 → w.sub = lat p 4 2 % 2 ^ 12 → w.subgen = lat p 4 2 / 2 ^ 12 →
        w.hold = true → (∀ d ∈ s.trl.conduits, ∀ m ∈ d.2.queue, m.hold = false) → (Instr.grant c q p).gives s fun t =>
          t.stream j = some { x with lender := some { w with granted := true } } ∧ s.only [.ae, .trl] t))

/-- R155 to R160, R162. The piece of a copy before an error is whole 64-byte symbols (the model's choice, notes/assumptions/16). -/
def Obligations.ExpandedImages : Prop :=
  ∀ (s : State), s.inReset = false →
    let m := s.imgSel
    let i := s.imgShape m
    let ctl := m * 2 ^ 32 + Reg.WXP_IMG_CTL
    let loadable := s.flag Fd.WXP_CTL_XEN = true ∧ (s.imgState m = 0 ∨ s.imgState m = 3) ∧ i.ok = true ∧ i.base % 4096 = 0 ∧ i.table % 4096 = 0
    (∀ (v : Word), bits v.toNat 1 0 = 1 →
      let u := s.leaveArea m
      let l := u.newArea i
      let bytes := l.foldl (fun n r => n + r.2 * 2048) 0
      (loadable → u.underHard (m / 8) 1 bytes = true → (Instr.wxpLoad v).gives s fun t =>
        t.imgState m = 1 ∧ m ∈ t.wxp.loads ∧ tfind t.wxp.areas m = some l ∧ t.usage (m / 8) 1 = u.usage (m / 8) 1 + bytes ∧
        s.only [.csr, .wxp, .tier] t ∧ s.regsBut [ctl, m * 2 ^ 32 + Reg.WXP_IMG_STATUS] t) ∧
      (¬ loadable → (Instr.wxpLoad v).gives s fun t =>
        t.fd Fd.WXP_ERR_CMD_REJECT = 1 ∧
        (s.flag Fd.WXP_CTL_XEN = true → (s.imgState m = 0 ∨ s.imgState m = 3) → i.wfmt = 3 →
          t.fd (Fd.WXP_IMG_STATUS_RESULT.at m) = stFORMAT) ∧
        s.only [.csr] t ∧ s.regsBut [ctl, m * 2 ^ 32 + Reg.WXP_IMG_STATUS, Reg.WXP_ERR] t)) ∧
    (∀ (p : Fin 16) (g : Fin 8) (ue tue : List Nat),
      let n := p.val * 8 + g.val
      let j := s.imgShape n
      let res := fun k => (s.checkBlock j k (ue.contains k) (tue.contains k) false true).1
      n ∈ s.wxp.loads → s.awake = true →
      ((∀ k < j.blocks, res k = stOK) → (Instr.wxpLoadComplete p g ue tue).gives s fun t =>
        t.imgState n = 2 ∧ t.fd (Fd.WXP_IMG_STATUS_RESULT.at n) = stOK ∧ n ∉ t.wxp.loads ∧
        t.fd Fd.WXP_BLOCKS_COUNT = min (s.fd Fd.WXP_BLOCKS_COUNT + j.blocks) (2 ^ 64 - 1) ∧ s.only [.csr, .wxp] t) ∧
      (∀ k < j.blocks, k < 2 ^ 32 → res k ≠ stOK → (∀ b < k, res b = stOK) → j.table + 16 * k + 6 < hbmBytes →
        (Instr.wxpLoadComplete p g ue tue).gives s fun t =>
          t.imgState n = 3 ∧ t.fd (Fd.WXP_IMG_STATUS_RESULT.at n) = res k ∧ t.fd (Fd.WXP_IMG_STATUS_FAIL_BLOCK.at n) = k ∧
          n ∉ t.wxp.loads ∧ lat (t.blockEntry j k) 6 1 % 2 = 1 ∧
          (ue = [] → tue = [] → (lat (s.blockEntry j k) 6 1 % 2 = 0 → t.fd Fd.WXP_ERR_BLOCK_PSN = 1 ∧
            t.fd Fd.WXP_POISONED_COUNT = min (s.fd Fd.WXP_POISONED_COUNT + 1) (2 ^ 64 - 1)) ∧ s.only [.csr, .wxp, .hbm] t ∧ s.hbmBut (j.table + 16 * k + 6) 1 t))) ∧
    (∀ (v : Word), bits v.toNat 1 0 = 2 → (Instr.wxpUnload v).gives s fun t =>
      t.imgState m = 4 ∧ m ∉ t.wxp.loads ∧ tfind t.wxp.restores m = none ∧ tfind t.wxp.unloads m = some s.pgt.epoch ∧
      (∀ k, k ≠ m → tfind t.wxp.unloads k = tfind s.wxp.unloads k ∧ tfind t.wxp.restores k = tfind s.wxp.restores k ∧
        (k ∈ t.wxp.loads ↔ k ∈ s.wxp.loads)) ∧
      s.only [.csr, .wxp] t ∧ s.regsBut [ctl, m * 2 ^ 32 + Reg.WXP_IMG_STATUS] t) ∧
    (∀ (p : Fin 16) (g : Fin 8) e, tfind s.wxp.unloads (p.val * 8 + g.val) = some e →
      (s.epochClear e = true → (Instr.wxpUnloadComplete p g).gives s fun t =>
        t.imgState (p.val * 8 + g.val) = 0 ∧ tfind t.wxp.unloads (p.val * 8 + g.val) = none ∧
        tfind t.wxp.areas (p.val * 8 + g.val) = none ∧
        (∀ a, (∀ r ∈ (tfind s.wxp.areas (p.val * 8 + g.val)).getD [], a < r.1 * 2048 ∨ r.1 * 2048 + r.2 * 2048 ≤ a) →
          byteOf t.hbm a = byteOf s.hbm a) ∧ s.only [.csr, .wxp, .hbm, .tier] t) ∧
      (s.epochClear e = false → (Instr.wxpUnloadComplete p g).gives s fun t => s.only [] t)) ∧
    (∀ (v : Word), bits v.toNat 1 0 = 3 →
      let ok := s.flag Fd.WXP_CTL_XEN = true ∧ s.imgState m = 2 ∧ bits v.toNat 63 32 < i.blocks
      (ok → (Instr.wxpRestore v).gives s fun t =>
        t.imgState m = 5 ∧ t.wxp = { s.wxp with restores := tset s.wxp.restores m (bits v.toNat 63 32) } ∧ s.only [.csr, .wxp] t ∧
        s.regsBut [ctl, m * 2 ^ 32 + Reg.WXP_IMG_STATUS] t) ∧
      (¬ ok → (Instr.wxpRestore v).gives s fun t =>
        t.fd Fd.WXP_ERR_CMD_REJECT = 1 ∧ s.only [.csr] t ∧ s.regsBut [ctl, Reg.WXP_ERR] t)) ∧
    (∀ (p : Fin 16) (g : Fin 8) (ue tue : Bool) k,
      let n := p.val * 8 + g.val
      let j := s.imgShape n
      let st := (s.checkBlock j k ue tue true true).1
      tfind s.wxp.restores n = some k →
      (st = stOK → j.table + 16 * k + 6 < hbmBytes → (Instr.wxpRestoreComplete p g ue tue).gives s fun t =>
        t.imgState n = 2 ∧ t.fd (Fd.WXP_IMG_STATUS_RESULT.at n) = stOK ∧ tfind t.wxp.restores n = none ∧
        lat (t.blockEntry j k) 6 1 % 2 = 0 ∧ s.only [.csr, .wxp, .hbm] t ∧ s.hbmBut (j.table + 16 * k + 6) 1 t) ∧
      (st ≠ stOK → k < 2 ^ 32 → (Instr.wxpRestoreComplete p g ue tue).gives s fun t =>
        t.imgState n = 2 ∧ t.fd (Fd.WXP_IMG_STATUS_RESULT.at n) = st ∧ t.fd (Fd.WXP_IMG_STATUS_FAIL_BLOCK.at n) = k ∧
        tfind t.wxp.restores n = none ∧ (ue = false → tue = false → j.table + 16 * k + 6 < hbmBytes →
          lat (t.blockEntry j k) 6 1 % 2 = 1 ∧ s.only [.csr, .wxp, .hbm] t ∧ s.hbmBut (j.table + 16 * k + 6) 1 t))) ∧
    (∀ st x it k, s.stream st = some x → x.expanded = true → x.cstate ≠ .aborting →
      (x.items.zipIdx).find? (fun y => y.1.needsSlices) = some (it, k) → x.tileBlocks s it ≠ [] → s.wxp.reqs = [] → s.wxp.lanes = [] →
      s.fd Fd.WXP_STATUS_COPYING = 0 → s.awake = true → (Instr.wxpTileRequest st).gives s fun t =>
        (∀ l < 8, (tfind t.wxp.lanes l).map (·.2) = (x.tileBlocks s it)[l]?) ∧
        t.wxp.reqs = [⟨s.wxp.nextReq, x.part * 8 + x.mimg, st, x.gen, k, it.tile, (x.tileBlocks s it).drop 8⟩] ∧
        (t.item st k).map (·.asked) = some true ∧ (∀ n, n ≠ st → t.stream n = s.stream n) ∧ s.only [.ae, .wxp] t) ∧
    (∀ (lane : Fin 8) (ue tue : Bool) r k x,
      let j := s.imgShape r.image
      let res := s.checkBlock j k ue tue false false
      tfind s.wxp.lanes lane.val = some (r, k) → (∃ y ∈ s.wxp.reqs, y.serial = r.serial) → s.stream r.stream = some x → x.gen = r.gen → x.cstate ≠ .aborting →
      (res.1 = stOK → (Instr.wxpBlockDecoded lane ue tue).gives s fun t =>
        (t.stream r.stream).map (·.slices) = some (tset x.slices k res.2) ∧
        t.fd Fd.WXP_BLOCKS_COUNT = min (s.fd Fd.WXP_BLOCKS_COUNT + 1) (2 ^ 64 - 1) ∧
        t.fd Fd.WXP_BYTES_OUT_COUNT = min (s.fd Fd.WXP_BYTES_OUT_COUNT + res.2.length) (2 ^ 64 - 1) ∧
        ((∀ q ∈ s.wxp.reqs, q.todo = []) → t.wxp.lanes = tdel s.wxp.lanes lane.val) ∧
        (∀ n, n ≠ r.stream → t.stream n = s.stream n) ∧ s.only [.csr, .ae, .wxp] t) ∧
      (res.1 ≠ stOK → ue = false → tue = false → x.cstate ≠ .delivering → x.lender = none → x.batch = none → x.byWr = none → x.subs = [] →
        (∃ it ∈ x.items, it.istate = .running) → s.sends x.conduit → s.quiet → j.table + 16 * k + 6 < hbmBytes →
        (Instr.wxpBlockDecoded lane ue tue).gives s fun t =>
          (t.stream r.stream).map (fun y => (y.cstate, y.status)) = some (.aborting, stPOISONED) ∧
          s.sentAll x.conduit [(0x05, resultHeader x.tag stPOISONED x.raw x.outF32 false 0 0)] t ∧
          lat (t.blockEntry j k) 6 1 % 2 = 1 ∧ s.hbmBut (j.table + 16 * k + 6) 1 t ∧ (∀ q ∈ t.wxp.reqs, q.stream ≠ r.stream))) ∧
    (∀ (v : Word), bits v.toNat 63 63 = 1 →
      (s.wxp.copy = none → (Instr.wxpCopyGo v).gives s fun t =>
        t.wxp = { s.wxp with
          copy := some (s.fd Fd.WXP_COPY_SRC_ADDR / 64 * 64, s.fd Fd.WXP_COPY_DST_ADDR / 64 * 64, t.fd Fd.WXP_COPY_LEN_LEN / 64 * 64) } ∧
        t.fd Fd.WXP_COPY_STATUS_BUSY = 1 ∧
        ((∃ l < 8, s.laneFree l = true) → ∃ l < 8, s.laneFree l = true ∧ t.fd Fd.WXP_STATUS_COPYING = 2 ^ l) ∧
        s.only [.csr, .wxp] t ∧ s.regsBut [Reg.WXP_COPY_LEN, Reg.WXP_COPY_STATUS, Reg.WXP_STATUS] t) ∧
      (s.wxp.copy.isSome = true → (Instr.wxpCopyGo v).gives s fun t => s.only [.csr] t ∧ s.regsBut [Reg.WXP_COPY_LEN] t)) ∧
    (∀ a b n, s.wxp.copy = some (a, b, n) → b + n ≤ hbmBytes → s.awake = true →
      ((Instr.wxpCopyDone none).gives s fun t =>
        t.hbmRead b n = s.hbmRead a n ∧ t.wxp.copy = none ∧ t.fd Fd.WXP_COPY_STATUS_BUSY = 0 ∧ t.fd Fd.WXP_COPY_STATUS_DONE = 1 ∧
        t.fd Fd.WXP_STATUS_COPYING = 0 ∧ s.only [.csr, .wxp, .hbm] t ∧ s.hbmBut b n t) ∧
      (∀ k, k < n → s.mbRoom 3 = false → s.pageAt (a + k) = none → s.fd (Fd.TWN_CLASS_LIMIT 1) = 0 → (Instr.wxpCopyDone (some k)).gives s fun t =>
        t.hbmRead b (k / 64 * 64) = s.hbmRead a (k / 64 * 64) ∧ t.wxp.copy = none ∧ t.fd Fd.WXP_COPY_STATUS_BUSY = 0 ∧
        t.fd Fd.WXP_COPY_STATUS_DONE = 1 ∧ t.fd Fd.WXP_ERR_COPY_UE = 1 ∧ s.hbmBut b (k / 64 * 64) t))

/-- R167, R168, R175, R176, R178, R180, R181, R183, R369. Pieces of a sweep are the model's (notes/assumptions/13). -/
def Obligations.LeapsFaultsAndSweeps : Prop :=
  ∀ (s : State), s.inReset = false →
    (s.tier.sweepOut = [] → (∀ j ∈ s.hb.jobs, ∀ p, j.use ≠ .sweep p) → s.tier.sweepAt + s.tier.decay * 100000 ≤ s.mtime →
      Instr.heatSweep.gives s fun t =>
        t.tier.sweepAt = s.mtime ∧ t.tier.decay = max 1 (s.fd Fd.TIER_CTL_DECAY_MS) ∧ t.tier.gathered = [] ∧ t.tier.sweeping = true ∧
        (∀ p ∈ t.tier.sweepLeft, p < s.pgt.chunks.length * 32 ∧
          ∃ o, tfind t.tier.sweepOut p = some o ∧ tfind t.tier.hbmUsed o = some 8) ∧
        (s.pgt.chunks ≠ [] → (s.takeHbmRaw 8 8 (fun c => c == chanOf (s.pieceAddr 0))).isSome = true → 0 ∈ t.tier.sweepLeft) ∧
        (∃ js, t.hb = { s.hb with jobs := s.hb.jobs ++ js } ∧
          js.map (fun j : GkJob => (j.use, j.code)) = t.tier.sweepLeft.map (fun p => (.sweep p, 8)) ∧
          ∀ j ∈ js, ∀ p, j.use = .sweep p → j.chan = chanOf (s.pieceAddr p)) ∧
        s.only [.tier, .hb, .free] t) ∧
    (s.tier.sweeping = true → s.tier.sweepLeft = [] → s.tier.sweepOut = [] → s.twn.hot = [] → Instr.sweepDone.gives s fun t =>
      (∀ p < 16, tget [] t.tier.candidates p = s.candidateList p) ∧ t.tier.histograms = s.histograms ∧ t.tier.gathered = [] ∧
      t.tier.sweeping = false ∧ t.fd Fd.TIER_SWEEPS_COUNT = min (s.fd Fd.TIER_SWEEPS_COUNT + 1) (2 ^ 64 - 1) ∧
      (∀ d x, s.desc d = some x → x.movable .pcache = true → x.heat < s.fd Fd.TIER_POLICY_KEEP_PC → (d, .hbm) ∈ t.tier.due) ∧
      s.only [.csr, .tier, .hb] t ∧ s.regsBut [Reg.TIER_SWEEPS] t) ∧
    (∀ d x, s.desc d = some x → s.quiet → s.leap d = none →
      (s.flag Fd.TIER_CTL_ENABLE = true → x.state = .sealed → x.pinned = false → x.refcnt ≠ 0 → x.ofTwin = false → x.loc.tier = .hbm →
        (d, .pcache) ∈ s.tier.due → s.softOk x .pcache = true → s.underHard x.part 0 (chargeOf .pcache x.def0) = true →
        (s.takePc (frameUnits x.frameCode) false).isSome = true → s.awake = true → (Instr.leapBegin d 0).gives s fun t =>
          ∃ a l, t.leap d = some l ∧ l.src = x.loc ∧ l.dst = .pcache ∧ l.target = some ⟨.pcache, 0, a⟩ ∧
            l.content = some (s.pageContent x) ∧ l.bad = false ∧ t.desc d = some { x with state := .inLeap } ∧
            tfind t.tier.pcUsed a = some (max 2 (frameUnits x.frameCode)) ∧
            t.usage x.part 0 = s.usage x.part 0 + chargeOf .pcache x.def0 ∧ (d, .pcache) ∉ t.tier.due ∧ (∀ e, e ≠ d → t.desc e = s.desc e) ∧
            s.only [.csr, .pgt, .tier, .free] t ∧ s.regsBut [Reg.TIER_ERR] t) ∧
      (x.state ≠ .sealed ∨ x.pinned = true → ∀ dst, (Instr.leapBegin d dst).gives s fun t =>
        t.tier.leaps = s.tier.leaps ∧ t.pgt = s.pgt ∧ s.only [.csr, .tier] t)) ∧
    (∀ d x l c a, s.leap d = some l → s.desc d = some x → x.state = .inLeap → l.bad = false → l.content = some c →
      l.target = some ⟨.pcache, 0, a⟩ → l.src.tier = .hbm → s.poolUnit.isSome = true → a * 2048 + c.length ≤ pcacheBytes → s.quiet →
      (x.refcnt ≠ 0 → crc32c c = x.crc.toNat → (Instr.leapCommit d true).gives s fun t =>
        t.desc d = some { x with
          loc := ⟨.pcache, 0, a⟩
          state := .sealed } ∧ (∀ e, e ≠ d → t.desc e = s.desc e) ∧ t.leap d = none ∧ t.pcRead (a * 2048) c.length = c ∧
        (∀ b, b < a * 2048 ∨ a * 2048 + c.length ≤ b → byteOf t.pcache b = byteOf s.pcache b) ∧
        t.pgt.reclaim = s.pgt.reclaim ++ [⟨none, some l.src, x.def0, x.part, false, none, s.pgt.epoch⟩] ∧
        t.fd Fd.TIER_LEAPS_UP_COUNT = min (s.fd Fd.TIER_LEAPS_UP_COUNT + 1) (2 ^ 64 - 1) ∧
        s.only [.csr, .pgt, .tier, .pcache] t ∧ s.regsBut [Reg.TIER_LEAPS_UP] t) ∧
      (x.refcnt = 0 → ∀ ok, (Instr.leapCommit d ok).gives s fun t =>
        t.desc d = some { x with state := .sealed } ∧ t.leap d = none ∧
        t.pgt.reclaim = s.pgt.reclaim ++ [⟨none, some ⟨.pcache, 0, a⟩, x.def0, x.part, false, none, s.pgt.epoch⟩] ∧
        t.fd Fd.TIER_LEAPS_ABANDONED_COUNT = min (s.fd Fd.TIER_LEAPS_ABANDONED_COUNT + 1) (2 ^ 64 - 1) ∧
        s.only [.csr, .pgt, .tier] t ∧ s.regsBut [Reg.TIER_LEAPS_ABANDONED] t) ∧
      (x.refcnt ≠ 0 → crc32c c ≠ x.crc.toNat → s.alone → x.ofTwin = false → s.ae.streams = [] → (Instr.leapCommit d true).gives s fun t =>
        (t.desc d).map (fun y => (y.state, y.loc)) = some (.poisoned, x.loc) ∧ t.leap d = none ∧
        t.fd Fd.TIER_LEAPS_UP_COUNT = s.fd Fd.TIER_LEAPS_UP_COUNT)) ∧
    (∀ (v : Word),
      let cmd := bits v.toNat 1 0
      (cmd = 1 ∨ cmd = 2 → s.flag Fd.TIER_PIN_CTL_BUSY = true →
        (if cmd = 1 then Instr.pin v else Instr.unpin v).gives s fun t =>
          t.fd Fd.TIER_PIN_CTL_RESULT = stBUSY ∧ s.only [.csr] t ∧ s.regsBut [Reg.TIER_PIN_CTL] t) ∧
      (cmd = 1 → s.flag Fd.TIER_PIN_CTL_BUSY = false → s.pinSeq = none → (Instr.pin v).gives s fun t =>
        t.fd Fd.TIER_PIN_CTL_RESULT = stBOUNDS ∧ t.fd Fd.TIER_ERR_PIN_FAIL = 1 ∧ s.only [.csr] t ∧
        s.regsBut [Reg.TIER_PIN_CTL, Reg.TIER_ERR] t) ∧
      (∀ k q, s.flag Fd.TIER_PIN_CTL_BUSY = false → s.pinSeq = some k → s.seq k = some q →
        (cmd = 1 → q.sstate = .active → s.quiet → s.admits = true → s.pinAwaits k = false → s.underHard (hPart q.handle) 1 0 = true →
          (Instr.pin v).gives s fun t =>
            t.fd Fd.TIER_PIN_CTL_RESULT = stOK ∧ t.fd Fd.TIER_PIN_CTL_BUSY = 0 ∧ t.pgt.ops = [] ∧
            (∀ e ∈ q.pt, ∀ x, s.desc e.2 = some x → t.desc e.2 =
              some (if x.state = .sealed ∨ x.state = .lockedBank then { x with pinned := true } else x)) ∧
            s.only [.csr, .pgt, .tier, .twn] t ∧ s.regsBut [Reg.TIER_PIN_CTL] t) ∧
        (cmd = 2 → (Instr.unpin v).gives s fun t =>
          t.fd Fd.TIER_PIN_CTL_RESULT = stOK ∧
          (∀ e ∈ q.pt, ∀ x, s.desc e.2 = some x → t.desc e.2 = some { x with pinned := false }) ∧
          s.only [.csr, .pgt] t ∧ s.regsBut [Reg.TIER_PIN_CTL] t))) ∧
    (∀ d f x, s.tier.faults.find? (fun f => !f.issued && s.faultRoom f) = some f → f.desc = d → s.desc d = some x →
      ((s.takePc (frameUnits x.frameCode) true).isSome = true → x.loc.tier = .flash → s.leap d = none → (Instr.faultIssue d).gives s fun t =>
        (∃ a, t.tier.faults = s.tier.faults.map (fun g => if g.desc = d then { g with
            issued := true
            landing := some a
            loc := x.loc
            answer := none
            issuedAt := s.mtime } else g) ∧ a ∈ t.tier.landing ∧
          tfind t.tier.pcUsed a = some (max 2 (frameUnits x.frameCode))) ∧
        (t.flt.reads.any fun r => r.lunit == x.loc.frame / 32 && !r.cmd) = true ∧
        t.fd Fd.TIER_FAULTS_FLASH_COUNT = min (s.fd Fd.TIER_FAULTS_FLASH_COUNT + 1) (2 ^ 64 - 1) ∧
        s.only [.csr, .tier, .flt, .free] t ∧ s.regsBut [Reg.TIER_FAULTS_FLASH] t) ∧
      (s.takePc (frameUnits x.frameCode) true = none → (x.loc.tier = .flash ∨ x.loc.tier = .lent) → (Instr.faultIssue d).gives s fun t =>
        t.fd Fd.TIER_ERR_LAND_FULL = 1 ∧ s.only [.csr] t ∧ s.regsBut [Reg.TIER_ERR] t) ∧
      (x.loc.tier = .hbm ∨ x.loc.tier = .pcache → (Instr.faultIssue d).gives s fun t =>
        (∀ g ∈ t.tier.faults, g.desc ≠ d) ∧ t.tier.landing = s.tier.landing ∧ s.only [.ae, .tier] t)) ∧
    (∀ d f x c a, s.tier.faults.find? (fun f => f.desc == d && f.issued) = some f → s.desc d = some x → f.answer = some (stOK, c) →
      f.loc.tier = .lent → f.landing = some a → crc32c c = x.crc.toNat → x.heat < s.fd Fd.TIER_POLICY_PROMOTE_FAULT → s.leap d = none →
      s.quiet → s.poolUnit.isSome = true → s.cust.transfers = [] → twf s.ae.streams = true → a * 2048 + c.length ≤ pcacheBytes → (Instr.faultLand d true).gives s fun t =>
        (∀ g ∈ t.tier.faults, g.desc ≠ d) ∧ t.pcRead (a * 2048) c.length = c ∧ t.desc d = some x ∧
        t.pgt.reclaim = s.pgt.reclaim ++ [⟨none, some ⟨.pcache, 0, a⟩, x.def0, x.part, true, none, s.pgt.epoch⟩] ∧
        (∀ i k y it, s.stream i = some y → y.cstate ≠ .aborting → y.lender = none → s.item i k = some it → it.istate = .parked →
          (∃ u ∈ it.units, u.desc = d ∧ u.kind = .deferred) →
          (t.item i k).map (·.istate) = some .waiting ∧ (i, k) ∈ t.ae.waiting ∧
          (t.item i k).map (·.units) = some (it.units.map fun u => if u.desc = d ∧ u.kind = .deferred then { u with
            kind := .landed
            loc := ⟨.pcache, 0, a⟩ } else u)) ∧
        s.only [.csr, .pcache, .pgt, .ae, .tier] t) ∧
    (∀ (p : Fin 16) (mirror : Bool) b, s.assembly mirror p.val = some b →
      (s.mtime < b.firstAt + 100000 → b.fill < 32 → (Instr.assemblyUnitProgram p mirror).gives s fun t => s.only [] t) ∧
      (b.firstAt + 100000 ≤ s.mtime → 0 < b.fill → b.fill ≤ 32 → (s.fltAlloc (if mirror then 2 else 1)).isSome = true →
        s.flt.writes = [] → s.xtsKey p.val ≠ none →
        (Instr.assemblyUnitProgram p mirror).gives s fun t =>
          b ∉ t.tier.assemblies ∧
          ∃ w ∈ t.flt.writes, w.slots = b.fill ∧ w.key = p.val ∧ w.use = (if mirror then .mirror b.pages else .demote b.pages) ∧
            s.lunit w.lunit = none ∧ (t.lunit w.lunit).isSome = true)) ∧
    (∀ (sl : Fin 32) blk,
      let b := blk * 32 + sl.val
      ((s.tier.pcDirty.any fun x => x.1 == b) = true → (Instr.pcacheBlockZeroed sl blk).gives s fun t =>
        (∀ x ∈ t.tier.pcDirty, x.1 ≠ b) ∧ (∀ a, byteOf t.pcache a = if b * 4096 ≤ a ∧ a < b * 4096 + 4096 then 0 else byteOf s.pcache a) ∧
        s.only [.tier, .pcache] t ∧ t.tier = { s.tier with pcDirty := t.tier.pcDirty }) ∧
      ((s.tier.pcDirty.any fun x => x.1 == b) = false → (Instr.pcacheBlockZeroed sl blk).gives s fun t => s.only [] t))

/-- R184 to R187, R189. -/
def Obligations.LendingAndBorrowing : Prop :=
  ∀ (s : State), s.inReset = false →
    (∀ (i : Fin 16) a e c,
      let node := s.fd (Fd.TIER_PEER_NODE i)
      s.flag Fd.TIER_CTL_LEND = true →
      ((List.range 16).map (fun j => (s.tier.lendTurn + j) % 16)).find? (fun j => s.flag (Fd.TIER_PEER_LEND_TO j)) = some i.val →
      (∀ x ∈ s.tier.lent, x.2.estate ≠ .offered) → (s.fd Fd.TIER_LEND_CTL_RESERVE_GIB + 1) * 2 ^ 30 ≤ s.freeTier2 →
      s.lentOut < s.fd Fd.TIER_LEND_CTL_MAX_GIB → s.freeExtent = some a → (List.range 512).find? (fun e => (s.lentX e).isNone) = some e →
      s.conduitToNode node = some c → s.sends c → (Instr.offerSend i).gives s fun t =>
        t.lentX e = some ⟨.offered, node, 0, a * 2048, [], none, false, c, false, none, false⟩ ∧ (∀ j, j ≠ e → t.lentX j = s.lentX j) ∧
        tfind t.tier.hbmUsed a = some 524288 ∧ t.tier.lendTurn = (i.val + 1) % 16 ∧
        s.sentAll c [(0x1A, lendPayload 1 0 e 0 (a * 2048) 0 false [])] t ∧ s.only [.tier, .trl] t) ∧
    (s.flag Fd.TIER_CTL_LEND = false → ∀ i, (Instr.offerSend i).gives s fun t => s.only [] t) ∧
    (∀ (ext : Fin 512) x, s.lentX ext.val = some x →
      (∀ d, x.deadline = some d → x.estate = .recalling → x.late = false → d ≤ s.usec → (Instr.recallDeadline ext).gives s fun t =>
        t.lentX ext.val = some { x with late := true } ∧ t.fd Fd.TIER_ERR_RECALL_LATE = 1 ∧ s.only [.csr, .tier] t ∧
        s.regsBut [Reg.TIER_ERR] t) ∧
      (∀ ep, x.lostEpoch = some ep →
        (s.epochClear ep = false → (Instr.extentReclaim ext).gives s fun t => s.only [] t) ∧
        (s.epochClear ep = true → x.frames = [] → (Instr.extentReclaim ext).gives s fun t =>
          t.lentX ext.val = none ∧ tfind t.tier.hbmUsed (x.base / 2048) = none ∧ s.only [.hbm, .tier] t ∧
          s.hbmBut (x.base / 2048 * 2048) ((tfind s.tier.hbmUsed (x.base / 2048)).getD 0 * 2048) t) ∧
        (s.epochClear ep = true → s.tier.lent = [(ext.val, x)] → s.hb.jobs = [] → s.pgt.reclaim = [] → twf x.frames = true → x.frames ≠ [] →
          (Instr.extentReclaim ext).gives s fun t =>
            t.hb.jobs.map (·.use) = x.frames.map (fun f => .zeroLent ext.val f.1) ∧ s.only [.hb] t))) ∧
    (∀ (v : Word),
      (bits v.toNat 9 9 = 0 → ∀ x, s.lentX (bits v.toNat 8 0) = some x → (Instr.tierExtSnapshot v).gives s fun t =>
        t.reg Reg.TIER_EXT_INFO = ((x.frames.foldl (fun n (p : Nat × Nat) => n + p.2) 0) * 2 / 1024 * 2 ^ 28 + x.estate.code * 2 ^ 24 +
          x.part * 2 ^ 20 + x.node) % 2 ^ 64 ∧ s.only [.csr] t ∧ s.regsBut [Reg.TIER_EXT_SEL, Reg.TIER_EXT_INFO] t) ∧
      (bits v.toNat 9 9 = 1 → s.tier.borrowed[bits v.toNat 8 0]? = none → (Instr.tierExtSnapshot v).gives s fun t =>
        t.reg Reg.TIER_EXT_INFO = 0 ∧ s.only [.csr] t)) ∧
    (s.fd Fd.TIER_WATER_LOW_MIB * 2 ^ 20 > s.freeTier2 → (∃ e ∈ s.tier.lent, e.2.estate = .active) → twf s.tier.lent = true →
      Instr.recallStart.gives s fun t =>
        let used := fun (x : Extent) => x.frames.foldl (fun n (p : Nat × Nat) => n + p.2) 0
        let ms := max 1 (s.fd Fd.TIER_LEND_CTL_RECALL_MS)
        ∃ e x, s.lentX e = some x ∧ x.estate = .active ∧ (∀ y ∈ s.tier.lent, y.2.estate = .active → used x ≤ used y.2) ∧
          t.lentX e = some { x with
            estate := .recalling
            deadline := some (s.usec + ms * 1000) } ∧ (∀ j, j ≠ e → t.lentX j = s.lentX j) ∧
          (∀ c, s.conduitTo x.node x.part = some c → s.sends c → s.sentAll c [(0x1A, lendPayload 2 x.part e 0 0 ms false [])] t) ∧
          s.only [.csr, .tier, .trl] t ∧ s.regsBut [Reg.TIER_ERR] t) ∧
    (∀ (c : Conduit) (q : W32) (p : List Byte), s.sends c.val → s.pgt.ops = [] → s.pgt.copies = [] → s.cust.held = [] →
      let k := borrowKey (s.peerOf c.val) (lext p)
      (lendOk p = true → ltype p = 1 → lat p 1 1 < 16 →
        (∀ i part, s.peerEntry (s.peerOf c.val) = some i → s.neediest (s.borrowParts i) = some part → s.flag Fd.TIER_CTL_BORROW = true →
          s.tier.borrowed.length < 512 → lat p 8 8 % 2 ^ 30 = 0 → (Instr.lendOffer c q p).gives s fun t =>
            t.tier = { s.tier with
              borrowed := tset s.tier.borrowed k ⟨.active, s.peerOf c.val, part, lat p 8 8, [], none, false, c.val, false, none, false⟩ } ∧
            s.answered c.val q.toNat stOK (le 1 part) t ∧ s.only [.tier, .trl] t) ∧
        (s.peerEntry (s.peerOf c.val) = none → (Instr.lendOffer c q p).gives s fun t =>
          s.answered c.val q.toNat stQUOTA [] t ∧ s.only [.trl] t)) ∧
      (lendOk p = false → (Instr.lendOffer c q p).gives s fun t => s.answered c.val q.toNat stFORMAT [] t ∧ s.only [.trl] t) ∧
      (∀ a, lat p 11 1 < 6 → lat p 8 2 < 512 → lat p 10 1 = s.partOf c.val → lat p 10 1 < 16 → p.length = 32 + lat p 12 4 →
        lat p 20 4 = 0 → lat p 24 8 = 0 → lat p 12 4 ≤ frameUnits (lat p 11 1) * 2048 → crc32c (p.drop 32) = lat p 16 4 →
        s.storeAt (s.peerOf c.val) (lat p 10 1) (lat p 8 2) (frameUnits (lat p 11 1)) = (stOK, some a) →
        a * 2048 + lat p 12 4 ≤ hbmBytes → (Instr.leapPush c q p).gives s fun t =>
          t.hbmRead (a * 2048) (lat p 12 4) = p.drop 32 ∧ s.hbmBut (a * 2048) (lat p 12 4) t ∧
          (t.lentX (lat p 8 2)).map (·.frames) = (s.lentX (lat p 8 2)).map (fun x => tset x.frames a (frameUnits (lat p 11 1))) ∧
          s.answered c.val q.toNat stOK (le 8 a) t ∧ s.only [.hbm, .tier, .trl] t) ∧
      (∀ l x, lat p 11 1 / 8 % 2 = 1 → lat p 0 8 < 2 ^ 63 → s.leap (lat p 0 8) = some l → s.desc (lat p 0 8) = some x → l.content = none →
        l.bad = false → l.dst = .hbm → s.tier.faults = [] → (Instr.leapPush c q p).gives s fun t =>
          (if p.length = 32 + lat p 12 4 ∧ crc32c (p.drop 32) = lat p 16 4 then
            t.leap (lat p 0 8) = some { l with content := some (p.drop 32) } else t.leap (lat p 0 8) = some { l with bad := true }) ∧
          s.only [.tier, .trl] t) ∧
      (lat p 11 1 < 6 → lat p 8 2 < 512 → lat p 10 1 < 16 → p.length = 32 → lat p 20 4 = 0 →
        lat p 12 4 ≤ frameUnits (lat p 11 1) * 2048 → s.lockedAt (lat p 24 8 * 2048) (lat p 12 4) = false → (Instr.leapPull c q p).gives s fun t =>
          let f := lat p 24 8
          let data := s.hbmRead (f * 2048) (lat p 12 4)
          (if lat p 10 1 = s.partOf c.val ∧ (s.lentAt (s.peerOf c.val) (lat p 10 1) f (frameUnits (lat p 11 1))).isSome = true then
            s.sentAll c.val [(0x19, leapHeader (lat p 0 8) (lat p 8 2) (lat p 10 1) (lat p 11 1) data.length (crc32c data) f true ++ data)] t
          else s.answered c.val q.toNat stBOUNDS [] t) ∧ s.only [.trl] t) ∧
      (lendOk p = true → ltype p = 4 → ∀ x, s.lentX (lext p) = some x → x.node = s.peerOf c.val → (Instr.lendRelease c q p).gives s fun t =>
        (∃ l, t.pgt = { s.pgt with reclaim := s.pgt.reclaim ++ l } ∧
          ∀ r ∈ l, r.epoch = s.pgt.epoch ∧ ∃ i < lat p 18 2, r.loc = some ⟨.lent, s.node, lat p (32 + 8 * i) 8⟩ ∧
            (tfind x.frames (lat p (32 + 8 * i) 8)).isSome = true) ∧
        (∀ i < lat p 18 2, (tfind x.frames (lat p (32 + 8 * i) 8)).isSome = true →
          ∃ r ∈ t.pgt.reclaim, r.loc = some ⟨.lent, s.node, lat p (32 + 8 * i) 8⟩) ∧ s.only [.pgt, .trl] t) ∧
      (lendOk p = true → ltype p = 2 → ∀ x, s.tier.borrowed = [(k, x)] → x.estate = .active →
        ((∃ y ∈ s.pgt.descs, y.2.loc.tier = .lent ∧ y.2.loc.node = x.node ∧ x.base ≤ y.2.loc.frame * 2048 ∧
            y.2.loc.frame * 2048 < x.base + 2 ^ 30) → (Instr.lendRecall c q p).gives s fun t =>
          t.tier.borrowed = [(k, { x with
            estate := .recalling
            deadline := some (s.usec + lat p 16 2 * 1000) })] ∧ s.only [.tier, .trl] t) ∧
        (s.pgt.descs = [] → s.tier.leaps = [] → s.pgt.reclaim = [] → s.pushOpen k = false → s.conduitTo x.node x.part = some c.val → (Instr.lendRecall c q p).gives s fun t =>
          t.tier.borrowed = [] ∧ s.sentAll c.val [(0x1A, lendPayload 3 x.part (k % 512) 0 0 0 false [])] t ∧ s.only [.tier, .trl] t)) ∧
      (lendOk p = true → ltype p = 3 → ∀ x, s.lentX (lext p) = some x → x.node = s.peerOf c.val →
        (x.frames ≠ [] → (Instr.lendReturn c q p).gives s fun t =>
          t.lentX (lext p) = some { x with
            returned := true
            estate := .returning } ∧ s.only [.tier, .trl] t) ∧
        (x.frames = [] → (Instr.lendReturn c q p).gives s fun t =>
          t.lentX (lext p) = none ∧ tfind t.tier.hbmUsed (x.base / 2048) = none ∧ s.only [.hbm, .tier, .trl] t)) ∧
      (lendOk p = true → ltype p = 5 → ∀ x v, s.lentX (lext p) = some x → x.node = s.peerOf c.val → x.part = lpart p → x.estate = .active →
        s.conduitToNode (lat p 4 4) = some v → v ≠ c.val → s.sends v → (Instr.lendReassign c q p).gives s fun t =>
          t.lentX (lext p) = some { x with node := lat p 4 4 } ∧
          s.sentAll v [(0x1A, lendPayload 1 x.part (lext p) 0 x.base 0 true [])] t ∧ s.answered c.val q.toNat stOK [] t ∧
          s.only [.tier, .trl] t))

/-- R221, R223, R233, R241, R377, R423, Table 11-13. -/
def Obligations.FlashControl : Prop :=
  ∀ (s : State), s.inReset = false →
    let st := s.fd Fd.FLT_STATUS_STATE
    let up := fun (t : State) => t.fd Fd.FLT_STATUS_STATE = (if t.flag Fd.FLT_CTL_ENABLE then 4 else 3) ∧
      (t.logicalUnits < 2 ^ 32 → t.fd Fd.FLT_LOGICAL_UNITS = t.logicalUnits)
    (∀ v : Word, bits v.toNat 5 5 = 1 →
      (bits v.toNat 15 8 = 0xA5 → st = 1 → (Instr.fltFormat v).gives s fun t =>
        t.flt.map = [] ∧ t.flt.phys = [] ∧ t.flt.sbs = [] ∧ t.flt.jtail = [] ∧ t.flt.writes = [] ∧ t.flt.anchor ≠ [] ∧
        (∀ b ∈ s.flt.retired, b ∈ t.flt.excluded) ∧ (∀ b ∈ s.glb.nand.chips.bad, b.val ∈ t.flt.excluded) ∧
        tfind t.sec.xts 16 = some (Config.systemKey t.flt.anchor) ∧ (∀ k, k ≠ 16 → tfind t.sec.xts k = tfind s.sec.xts k) ∧
        t.fd Fd.FLT_CTL_FMT_KEY = 0 ∧ t.flag Fd.FLT_CTL_ENABLE = (bits v.toNat 0 0 == 1) ∧ up t ∧ s.only [.csr, .flt, .sec, .free] t) ∧
      (bits v.toNat 15 8 ≠ 0xA5 ∨ st ≠ 1 → bits v.toNat 1 1 = 0 → (Instr.fltFormat v).gives s fun t =>
        s.only [.csr] t ∧ s.regsBut [Reg.FLT_CTL, Reg.FLT_STATUS] t)) ∧
    (∀ v : Word, bits v.toNat 1 1 = 1 → bits v.toNat 5 5 = 0 → (Instr.fltReplay v).gives s fun t =>
      (st = 1 → t.fd Fd.FLT_STATUS_STATE = 2) ∧ s.only [.csr] t ∧ s.regsBut [Reg.FLT_CTL, Reg.FLT_STATUS] t) ∧
    (∀ v : Word, bits v.toNat 0 0 = 1 → bits v.toNat 1 1 = 0 → bits v.toNat 5 5 = 0 → (Instr.fltEnable v).gives s fun t =>
      t.fd Fd.FLT_STATUS_STATE = (if st = 3 then 4 else st) ∧ t.fd Fd.FLT_CTL_ENABLE = 1 ∧
      (1 < st → t.fd Fd.FLT_CTL_OP_PCT = s.fd Fd.FLT_CTL_OP_PCT) ∧ s.only [.csr] t ∧ s.regsBut [Reg.FLT_CTL, Reg.FLT_STATUS] t) ∧
    (∀ cut : Option Nat, st = 2 →
      (s.flt.anchor ≠ [] → (Instr.replayDone cut).gives s fun t =>
        let n := min (cut.getD s.flt.jtail.length) s.flt.jtail.length
        t.flt.map = s.replayed n ∧ t.flt.jtail = s.flt.jtail.take n ∧ t.flt.writes = [] ∧ t.flt.reads = [] ∧ t.flt.phys = s.flt.phys ∧
        (∀ b ∈ t.flt.sbs, b.2.sbState ≠ .open_ ∧ b.2.sbState ≠ .erasing) ∧ (n < s.flt.jtail.length → t.fd Fd.FLT_ERR_JRNL_LOST = 1) ∧
        tfind t.sec.xts 16 = some (Config.systemKey s.flt.anchor) ∧ up t ∧ s.only [.csr, .flt, .sec] t) ∧
      (s.flt.anchor = [] → bits (lat s.glb.geom 3 1) 0 0 = 1 → (Instr.replayDone cut).gives s fun t =>
        t.fd Fd.FLT_STATUS_STATE = 1 ∧ s.only [.csr] t) ∧
      (s.flt.anchor = [] → bits (lat s.glb.geom 3 1) 0 0 = 0 → (Instr.replayDone cut).gives s fun t =>
        t.glb.status = 0x22 ∧ t.glb.stopped = true ∧ t.flt = s.flt ∧ s.only [.csr, .glb] t)) ∧
    (∀ (v : Word) (c : Instr), (c, bits v.toNat 2 0) ∈ [(Instr.fltCmdRead v, 1), (Instr.fltCmdWrite v, 2), (Instr.fltCmdTrim v, 3), (Instr.fltCmdTrimArea v, 4)] →
      let l := s.fd Fd.FLT_CMD_LUNIT_LUNIT
      let op := bits v.toNat 2 0
      let refused := fun (code : Nat) (t : State) => t.fd Fd.FLT_CMD_RESULT = code ∧ s.only [.csr] t ∧ s.regsBut [Reg.FLT_CMD] t
      (s.flag Fd.FLT_CMD_BUSY = true → c.gives s (refused stBUSY)) ∧
      (s.flag Fd.FLT_CMD_BUSY = false → s.fltUp = false → c.gives s (refused stBOUNDS)) ∧
      (s.flag Fd.FLT_CMD_BUSY = false → s.fltUp = true →
        (op = 1 → s.lunit l = none → l < s.fd Fd.FLT_LOGICAL_UNITS → s.fd Fd.FLT_CMD_ADDR_ADDR + 65536 ≤ hbmBytes → c.gives s fun t =>
          t.hbmRead (s.fd Fd.FLT_CMD_ADDR_ADDR) 65536 = zeros 65536 ∧ s.hbmBut (s.fd Fd.FLT_CMD_ADDR_ADDR) 65536 t ∧
          t.fd Fd.FLT_CMD_RESULT = stOK ∧ t.fd Fd.FLT_CMD_BUSY = 0 ∧ s.only [.csr, .flt, .hbm] t) ∧
        (op = 1 → ∀ p u, s.readAt l = .inr (p, u) → l < s.fd Fd.FLT_LOGICAL_UNITS → c.gives s fun t =>
          t.fd Fd.FLT_CMD_BUSY = 1 ∧ t.flt.reads = s.flt.reads ++ [⟨l, true, none⟩] ∧ t.flt.cmdAddr = s.fd Fd.FLT_CMD_ADDR_ADDR ∧
          s.only [.csr, .flt] t ∧ s.regsBut [Reg.FLT_CMD] t) ∧
        (op = 2 → s.areaOf l = some 0 → l < s.fd Fd.FLT_LOGICAL_UNITS → s.lunit l = none → s.xtsKey 16 ≠ none → s.flt.writes = [] →
          c.gives s fun t => t.fd Fd.FLT_CMD_BUSY = 1 ∧ (t.lunit l).map (·.entry) = some .allocated ∧
            (∃ w ∈ t.flt.writes, w.lunit = l ∧ w.slots = 32 ∧ w.key = 16 ∧ w.use = .firmware ∧
              w.content = s.hbmRead (s.fd Fd.FLT_CMD_ADDR_ADDR) 65536) ∧ (∀ k, k ≠ l → t.lunit k = s.lunit k) ∧ s.only [.csr, .flt] t) ∧
        (op = 3 → s.areaOf l = some 0 → c.gives s fun t =>
          t.fd Fd.FLT_CMD_RESULT = stOK ∧ t.lunit l = none ∧ (∀ k, k ≠ l → t.lunit k = s.lunit k) ∧
          t.flt.jopen = s.flt.jopen ++ [(s.flt.jseq, .trim l 1)] ∧ s.only [.csr, .flt] t ∧ s.regsBut [Reg.FLT_CMD, Reg.FLT_TRIMS] t) ∧
        (op = 4 → l % 4 ≠ 0 → st = 3 → c.gives s fun t =>
          t.fd Fd.FLT_CMD_RESULT = stOK ∧ (∀ k, t.lunit k = if (s.area (l % 4)).1 ≤ k ∧ k < (s.area (l % 4)).1 + (s.area (l % 4)).2 then none
            else s.lunit k) ∧ s.only [.csr, .flt] t ∧ s.regsBut [Reg.FLT_CMD, Reg.FLT_TRIMS] t) ∧
        (op = 4 → l % 4 = 0 ∨ st ≠ 3 → c.gives s (refused stBOUNDS)) ∧
        (op = 2 ∨ op = 3 → s.areaOf l ≠ some 0 → c.gives s (refused stBOUNDS)))) ∧
    (∀ d : Int, 1 ≤ st → s.flt.tempAt + 100000000 ≤ s.mtime → (Instr.fltTempSample d).gives s fun t =>
      let b := min 63 (d.toNat / 2)
      t.fd (Fd.FLT_TEMP_HIST_SECONDS b) = min (s.fd (Fd.FLT_TEMP_HIST_SECONDS b) + 1) (2 ^ 32 - 1) ∧
      t.fd Fd.FLT_HEALTH_TEMP = (d % 256).toNat ∧ t.flt = { s.flt with tempAt := s.mtime } ∧ s.only [.csr, .flt] t ∧
      s.regsBut [Reg.FLT_TEMP_HIST b, Reg.FLT_HEALTH] t)

/-- R220, R223, R224, R226, R229, R231, R232, R234, R235, R237. -/
def Obligations.FlashUnits : Prop :=
  ∀ (s : State), s.inReset = false →
    (∀ (a : Fin 4) (n : Nat), s.fltUser (some a.val) = true →
      ((State.fltAllocN n a.val s).isSome = true → (Instr.unitAllocate a n).gives s fun t =>
        t.flt.result = stOK ∧ t.flt.given.length = n ∧ t.flt.given.Nodup ∧
        (∀ l ∈ t.flt.given, s.lunit l = none ∧ t.lunit l = some ⟨.allocated, 0⟩ ∧ (s.area a.val).1 ≤ l ∧
          l < (s.area a.val).1 + (s.area a.val).2 ∧ l < s.fd Fd.FLT_LOGICAL_UNITS) ∧
        (∀ l, l ∉ t.flt.given → t.lunit l = s.lunit l) ∧ s.only [.flt, .free] t) ∧
      (State.fltAllocN n a.val s = none → (Instr.unitAllocate a n).gives s fun t =>
        t.flt.result = stQUOTA ∧ t.flt.given = [] ∧ t.flt.map = s.flt.map ∧ s.only [.flt] t)) ∧
    (∀ (l n : Nat) (k : Fin 17) (data : List Byte), s.fltUser (s.areaOf l) = true →
      (∀ o a kv, s.lunit l = some ⟨.allocated, o⟩ → s.areaOf l = some a → s.xtsKey k.val = some kv → 0 < n → n ≤ 32 →
        (∀ w ∈ s.flt.writes, w.lunit ≠ l) → (Instr.unitWrite l n k data).gives s fun t =>
          (∃ w ∈ t.flt.writes, w.lunit = l ∧ w.slots = n ∧ w.key = k.val ∧ w.keyVal = kv ∧ w.use = .user ∧
            w.content = slice data 0 65536 ∧ w.strm = s.streamFor a) ∧ t.flt.map = s.flt.map ∧
          t.fd Fd.FLT_USER_UNITS_COUNT = min (s.fd Fd.FLT_USER_UNITS_COUNT + 1) (2 ^ 64 - 1) ∧ s.only [.csr, .flt] t) ∧
      (s.lunit l = none → (Instr.unitWrite l n k data).gives s fun t => t.flt = { s.flt with result := stBOUNDS } ∧ s.only [.flt] t) ∧
      (l + n ≤ s.fd Fd.FLT_LOGICAL_UNITS → (Instr.unitTrim l n).gives s fun t =>
        (∀ u, t.lunit u = if l ≤ u ∧ u < l + n then none else s.lunit u) ∧
        t.fd Fd.FLT_TRIMS_COUNT = min (s.fd Fd.FLT_TRIMS_COUNT + ceilDiv n 65536) (2 ^ 64 - 1) ∧ s.only [.csr, .flt] t ∧
        s.regsBut [Reg.FLT_TRIMS] t) ∧
      (∀ p o, s.lunit l = some ⟨.at_ p, o⟩ → (Instr.slotsUpdate l n).gives s fun t =>
        t.lunit l = (if n < o then if n = 0 then none else some ⟨.at_ p, n⟩ else some ⟨.at_ p, o⟩) ∧
        (∀ u, u ≠ l → t.lunit u = s.lunit u) ∧ s.only [.csr, .flt] t ∧ s.regsBut [Reg.FLT_TRIMS] t)) ∧
    (∀ l p u, s.readAt l = .inr (p, u) → s.flt.stopped = false → s.awake = true → s.flt.lunFail.contains (puaLun p) = false →
      s.flt.reads = [⟨l, false, none⟩] →
      (u.lunit = l → (Instr.unitRead l 0 ⟨false, .none⟩).gives s fun t =>
        t.flt.reads = [⟨l, false, some (stOK, slice u.content 0 65536)⟩] ∧ t.flt.map = s.flt.map ∧
        t.fd Fd.FLT_READ_UNITS_COUNT = min (s.fd Fd.FLT_READ_UNITS_COUNT + 1) (2 ^ 64 - 1) ∧
        t.fd (Fd.FLT_ERRCNT_COUNT 0) = min (s.fd (Fd.FLT_ERRCNT_COUNT 0) + 1) (2 ^ 64 - 1) ∧ s.only [.csr, .flt] t ∧
        s.regsBut [Reg.FLT_READ_UNITS, Reg.FLT_ERRCNT 0] t) ∧
      (∀ (k : Fin 6) mismatch, k.val = 5 ∨ u.lunit ≠ l → (tfind s.flt.failsRow (puaLun p)).getD 0 < 3 →
        (Instr.unitRead l k ⟨mismatch, .none⟩).gives s fun t =>
        (u.lunit ≠ l → t.fd Fd.FLT_ERR_MAP_MISMATCH = 1) ∧
        t.flt.reads = [⟨l, false, some (stLOST, [])⟩] ∧ (t.lunit l).map (·.entry) = some .lost ∧ t.fd Fd.FLT_ERR_LOST = 1 ∧
        (∀ k, k ≠ l → t.lunit k = s.lunit k) ∧ s.only [.csr, .flt, .hbm, .evc] t)) ∧
    (∀ l w p o, s.flt.stopped = false → s.flt.writes.find? (fun w => w.lunit == l && s.canCommit w) = some w → w.pua = some p →
      (w.use = .user → w.old = none → s.lunit l = some ⟨.allocated, o⟩ → (Instr.writeCommit l).gives s fun t =>
        t.lunit l = some ⟨.at_ p, w.slots⟩ ∧ t.flt.result = stOK ∧ t.flt.writes = eraseFirst (fun y => y == w) s.flt.writes ∧
        (∀ k, k ≠ l → t.lunit k = s.lunit k) ∧ s.only [.flt] t) ∧
      (∀ old, w.use = .move → w.old = some old → s.lunit l = some ⟨.at_ old, o⟩ → (Instr.writeCommit l).gives s fun t =>
        t.lunit l = some ⟨.at_ p, o⟩ ∧ t.flt.writes = eraseFirst (fun y => y == w) s.flt.writes ∧
        t.fd Fd.FLT_MOVES_COUNT = min (s.fd Fd.FLT_MOVES_COUNT + 1) (2 ^ 64 - 1) ∧
        (∀ k, k ≠ l → t.lunit k = s.lunit k) ∧ s.only [.csr, .flt] t ∧ s.regsBut [Reg.FLT_MOVES] t)) ∧
    (∀ l w p u, s.flt.stopped = false → s.flt.writes.find? (fun w => w.lunit == l && w.pua.isSome && !s.canCommit w) = some w →
      w.pua = some p → tfind s.flt.phys p = some u → twf s.flt.sbs = true → ∀ silent, (Instr.programFail (l, silent)).gives s fun t =>
        t.fd (Fd.FLT_ERRCNT_COUNT 6) = min (s.fd (Fd.FLT_ERRCNT_COUNT 6) + 1) (2 ^ 64 - 1) ∧ (∃ y ∈ t.flt.writes, y.lunit = l) ∧
        (t.sb u.sb).sbState = .closed ∧ (t.sb u.sb).first = true ∧ t.flt.retired.length = s.flt.retired.length + 1) ∧
    (s.fltUp = true → s.awake = true →
      (s.flt.jopen ≠ [] → s.flt.jopen.length ≤ 2047 → s.flt.ckpts = [] →
        s.flt.jopenAt + max 1 (s.fd Fd.FLT_JRNL_COMMIT_US) * 100 ≤ s.mtime → Instr.journalFlush.gives s fun t =>
          t.flt.jtail = s.flt.jtail ++ [s.flt.jopen] ∧ t.flt.jopen = [] ∧ t.flt.jdone = t.flt.jseq ∧ t.flt.junits = s.flt.junits + 1 ∧
          t.flt.jseq = s.flt.jseq + (2047 - s.flt.jopen.length) ∧
          t.fd Fd.FLT_NAND_UNITS_COUNT = min (s.fd Fd.FLT_NAND_UNITS_COUNT + 2) (2 ^ 64 - 1) ∧ s.only [.csr, .flt] t ∧
          s.regsBut [Reg.FLT_NAND_UNITS] t) ∧
      (s.flt.ckpts = [] → Instr.checkpointSave.gives s fun t =>
        let g := s.flt.segment % s.segments
        t.flt.ckpts = [(g, s.flt.jseq, s.segmentCopy g)] ∧ t.flt.segment = (g + 1) % s.segments ∧
        (∃ a, t.flt.jopen = s.flt.jopen ++ [(s.flt.jseq, .ckpt g a)]) ∧ t.flt.map = s.flt.map ∧
        t.fd Fd.FLT_NAND_UNITS_COUNT = min (s.fd Fd.FLT_NAND_UNITS_COUNT + 80) (2 ^ 64 - 1) ∧ s.only [.csr, .flt, .free] t ∧
        s.regsBut [Reg.FLT_NAND_UNITS] t) ∧
      (∀ (k : Fin 5) b,
        let x := s.sb b
        let row := x.width * s.cellBits
        let last := s.sbPages x * x.width
        (tfind s.flt.strmAt k.val).getD 0 + max 1 (s.fd Fd.FLT_JRNL_COMMIT_US) * 10000 ≤ s.mtime → s.openSb k.val = some b → x.slc = false →
        x.filled ≠ 0 → row ≠ 0 → (∃ w ∈ s.flt.writes, w.strm = k.val ∧ w.pua.isSome = true ∧ s.programmed w = false) →
        (Instr.nativePadTimer k).gives s fun t =>
          (t.sb b).filled = min last (((x.filled - 1) / row + 2) * row) ∧
          (t.sb b).sbState = (if ((x.filled - 1) / row + 2) * row < last then .open_ else .closed) ∧
          (∀ c, c ≠ b → t.sb c = s.sb c) ∧ s.only [.csr, .flt] t ∧ s.regsBut [Reg.FLT_NAND_UNITS] t) ∧
      (∀ l p u, s.readAt l = .inr (p, u) → s.victim u.sb = true → (∀ w ∈ s.flt.writes, w.old ≠ some p) →
        s.flt.lunFail.contains (puaLun p) = false → u.lunit = l → (Instr.gcMove l (0, ⟨false, .none⟩)).gives s fun t =>
          (∃ w ∈ t.flt.writes, w.lunit = l ∧ w.old = some p ∧ w.use = .move ∧ w.key = u.key ∧ w.content = slice u.content 0 65536) ∧
          t.flt.map = s.flt.map ∧ s.only [.csr, .flt] t) ∧
      (∀ (k : Fin 5), (∃ w ∈ s.flt.writes, w.strm = k.val ∧ w.pua = none) → s.openSb k.val = none →
        (∀ b ∈ s.flt.sbs, b.2.sbState ≠ .erasing) →
        (∀ b, s.nextSb = some b → (Instr.superblockOpen k).gives s fun t =>
          (t.sb b).sbState = .erasing ∧ (t.sb b).strm = k.val ∧ (t.sb b).slc = decide (k.val ≤ 1) ∧ (t.sb b).filled = 0 ∧
          (∀ p u, (p, u) ∈ t.flt.phys → u.sb ≠ b) ∧ (∀ c, c ≠ b → t.sb c = s.sb c) ∧ t.flt.map = s.flt.map ∧
          s.only [.csr, .flt, .free] t) ∧
        (s.nextSb = none → (Instr.superblockOpen k).gives s fun t => t.fd Fd.FLT_ERR_NO_SPACE = 1 ∧ s.only [.csr] t))) ∧
    (∀ b,
      let x := s.sb b
      s.flt.stopped = false → x.sbState = .erasing → s.flt.writes = [] →
      (2 ≤ x.members.length → (Instr.eraseComplete b []).gives s fun t =>
        t.sb b = { x with
          sbState := .open_
          openedAt := s.flt.opens
          first := false
          filled := 0 } ∧ (∀ c, c ≠ b → t.sb c = s.sb c) ∧
        ((x.members.map fun c => s.blockAt x b c / 2 ^ 10).Nodup → ∀ c ∈ x.members,
          (tfind t.flt.erases (s.blockAt x b c / 2 ^ 10)).getD (0, 0) =
            (let e := (tfind s.flt.erases (s.blockAt x b c / 2 ^ 10)).getD (0, 0)
             if x.slc then (e.1, e.2 + 1) else (e.1 + 1, e.2))) ∧
        t.fd Fd.FLT_ERASES_COUNT = min (s.fd Fd.FLT_ERASES_COUNT + 1) (2 ^ 64 - 1) ∧ s.only [.csr, .flt] t) ∧
      (∀ c : Fin 16, c.val ∈ x.members → (Instr.eraseComplete b [c]).gives s fun t =>
        t.flt.retired.length = s.flt.retired.length + 1 ∧
        t.fd (Fd.FLT_ERRCNT_COUNT 7) = min (s.fd (Fd.FLT_ERRCNT_COUNT 7) + 1) (2 ^ 64 - 1)))

/-- R254, R258, R260 to R265, R267, R270, R298, R303. -/
def Obligations.PacketsAndAcknowledgements : Prop :=
  ∀ (s : State), s.inReset = false →
    let dropped := fun (k : Nat) (t : State) => t.fd (Fd.TRL_DROP_COUNT k) = min (s.fd (Fd.TRL_DROP_COUNT k) + 1) (2 ^ 64 - 1) ∧
      t.trl.handed = s.trl.handed
    (∀ (port : Fin 64) (f : List Byte) (ok : Bool),
      (∀ k, s.frameFate port.val f ok = .dropped k → (Instr.packetReceive port f ok).gives s fun t =>
        dropped k t ∧ s.only [.csr] t ∧ s.regsBut [Reg.TRL_DROP k] t) ∧
      (∀ p, s.frameFate port.val f ok = .trill p →
        let c := bat p.hdr 8 2
        let q := hSeq p.hdr
        (s.nodeOk p.hdr = false → (Instr.packetReceive port f ok).gives s fun t => dropped 3 t ∧ s.only [.csr] t) ∧
        (s.nodeOk p.hdr = true → s.conduit c = none → (Instr.packetReceive port f ok).gives s fun t => dropped 4 t ∧ s.only [.csr] t) ∧
        (∀ cd, s.nodeOk p.hdr = true → s.conduit c = some cd →
          (cd.matches_ p = false → (Instr.packetReceive port f ok).gives s fun t => dropped 4 t ∧ s.only [.csr] t) ∧
          (cd.matches_ p = true → s.openBody cd p = none → (Instr.packetReceive port f ok).gives s fun t => dropped 5 t ∧ s.only [.csr] t) ∧
          (∀ pl, cd.matches_ p = true → s.openBody cd p = some pl → s.flag Fd.SCH_CTL_METER_EN = false → hBit p.hdr 8 = false → q ≠ 0 →
            (serialLt 32 q cd.rxNext = true → (Instr.packetReceive port f ok).gives s (dropped 6)) ∧
            (q = cd.rxNext → cd.rx = [] → cd.rxDone = [] → cd.cstate = 1 → hOff p.hdr = 0 → pl.length = hLen p.hdr → pl.length ≤ 2 ^ 31 →
              pl.length ≤ cd.segSize → (hBit p.hdr 15 = true ∨ pl.length = cd.segSize) → knownOp (hOp p.hdr) = true →
              hOp p.hdr ≠ 0x05 → hOp p.hdr ≠ 0x10 → hOp p.hdr ≠ 0x11 → kindUnknown (hOp p.hdr) pl = false →
              (buffered (hOp p.hdr) = true → hLen p.hdr ≤ s.rxSize / 4 ∧ s.rxUsed + hLen p.hdr ≤ s.rxSize) →
              (Instr.packetReceive port f ok).gives s fun t =>
                t.trl.handed = s.trl.handed ++ [⟨c, q, hOp p.hdr, pl, hKey p.hdr, hImm p.hdr, none⟩] ∧
                (t.conduit c).map (·.rxNext) = some (seqNext q) ∧ (∀ d, d ≠ c → t.conduit d = s.conduit d) ∧
                t.fd Fd.TRL_RX_SEGS_COUNT = min (s.fd Fd.TRL_RX_SEGS_COUNT + 1) (2 ^ 64 - 1) ∧ s.only [.csr, .trl, .mgt] t))))) ∧
    (∀ (n : Fin 16) h cd m place,
      let pl := segBytes cd m.payload m.sent
      let off := m.sent * cd.segSize
      s.flag Fd.TRL_CTL_ENABLE = true → s.flag Fd.SCH_CTL_SHAPE_EN = false → s.cfg (Fd.SCH_PORT_FALLBACK n.val) = 0 →
      s.heads n.val = [h] → h.eligible = true → h.kind = .fresh place → s.conduit h.conduit = some cd → cd.queue[place]? = some m →
      m.unseq = false → cd.enc = false → s.still → (Instr.transmitOpportunity n).gives s fun t =>
        t.trl.wireOut = s.trl.wireOut ++ [⟨h.port, s.frameOf cd h.port (pathHash cd m.q m.sent 0) m (m.seq.getD cd.txNext) off
          (m.flags + if off + pl.length = m.payload.length then 0x8000 else 0) pl⟩] ∧
        t.fd Fd.TRL_TX_SEGS_COUNT = min (s.fd Fd.TRL_TX_SEGS_COUNT + 1) (2 ^ 64 - 1) ∧ s.only [.csr, .trl, .sch, .mgt, .twn] t) ∧
    (∀ (c : Conduit) cd, s.conduit c.val = some cd → s.flag Fd.TRL_CTL_ENABLE = true →
      (∀ t0, cd.ackSince = some t0 → t0 + max 1 (s.fd Fd.TRL_ACK_ACK_NS) ≤ s.nsec → cd.cstate = 1 → cd.loopback = false → s.muted c.val = false →
        (Instr.ackDelayExpire c).gives s fun t => ∃ cd' m, t.conduit c.val = some cd' ∧ cd'.queue = cd.queue ++ [m] ∧ m.op = 0x30 ∧
          m.unseq = true ∧ m.flags / 0x200 % 2 = 1 ∧ m.payload.take 4 = le 4 cd.rxNext ∧ cd'.ackSegs = 0 ∧ cd'.ackSince = none ∧
          (∀ d, d ≠ c.val → t.conduit d = s.conduit d) ∧ s.only [.trl] t) ∧
      (∀ (q : W32) (p : List Byte), cd.cstate = 1 → s.still → lat p 4 1 % 16 = 0 → cd.sent ≠ [] →
        (∀ m ∈ cd.sent, m.segs.length = cd.segCount m.msg.payload.length ∧ m.msg.purpose = .plain ∧ (∀ g ∈ m.segs, g.acked = false) ∧
          serialLt 32 m.msgseq (lat p 0 4) = true) →
        (s.trl.handed = [] → (Instr.tackReceive c q p).gives s fun t => ∃ cd', t.conduit c.val = some cd' ∧ cd'.sent = [] ∧
          cd'.timerAt = none ∧ cd'.rateMbps = cd.rateMbps ∧ cd'.queue = cd.queue ∧ s.only [.trl] t) ∧
        (∀ imm, s.trl.handed = [⟨c.val, q.toNat, 0x130, p, 0, imm, none⟩] → imm / 0x400 % 2 = 1 → cd.cutAt = none →
          (Instr.tackReceive c q p).gives s fun t => ∃ cd', t.conduit c.val = some cd' ∧ cd'.sent = [] ∧ t.trl.handed = [] ∧
            cd'.rateMbps = max s.minMbps (cd.rateMbps - cd.rateMbps / 2 ^ s.fd Fd.TRL_ECN_DEC_SHIFT) ∧ cd'.cutAt = some s.nsec ∧ s.only [.trl] t)) ∧
      (∀ t0 m g, cd.timerAt = some t0 → t0 + cd.timerNs ≤ s.nsec → cd.sent.find? (fun m => m.segs.any (fun g => !g.acked)) = some m →
        cd.sent.find? (fun x => x.msgseq == m.msgseq) = some m → m.segs.find? (fun g => !g.acked) = some g →
        g.expiries + 1 < max 1 (s.fd Fd.TRL_RETX_MAX_TRIES) → s.still → (Instr.retxTimerExpire c).gives s fun t =>
          ∃ cd' m' g', t.conduit c.val = some cd' ∧ m' ∈ cd'.sent ∧ m'.msgseq = m.msgseq ∧ g' ∈ m'.segs ∧
            g' = { g with
              tries := g.tries + 1
              expiries := g.expiries + 1
              requeue := g'.requeue
              reorderAt := none } ∧ g'.requeue.isSome = true ∧
            cd'.timerNs = min (2 * cd.timerNs) (max 1 (s.fd Fd.TRL_RETX_RTO_MAX_US) * 1000) ∧ cd'.timerAt = some s.nsec ∧
            cd'.rateMbps = max s.minMbps (cd.rateMbps / 2) ∧
            t.fd Fd.TRL_RTO_EXPIRIES_COUNT = min (s.fd Fd.TRL_RTO_EXPIRIES_COUNT + 1) (2 ^ 64 - 1) ∧
            (∀ d, d ≠ c.val → t.conduit d = s.conduit d) ∧ s.only [.csr, .trl] t ∧ s.regsBut [Reg.TRL_RTO_EXPIRIES] t) ∧
      (s.fd Fd.TRL_RETX_REORDER_NS ≠ 0 → (Instr.reorderExpire c).gives s fun t => ∃ cd', t.conduit c.val = some cd' ∧
        (∀ (i j : Nat) m g, cd.sent[i]? = some m → m.segs[j]? = some g → ∃ m' g', cd'.sent[i]? = some m' ∧ m'.segs[j]? = some g' ∧
          (if ∃ t0, g.reorderAt = some t0 ∧ t0 + s.fd Fd.TRL_RETX_REORDER_NS ≤ s.nsec ∧ g.acked = false ∧ g.requeue = none then
            g'.tries = g.tries + 1 ∧ g'.expiries = g.expiries ∧ g'.requeue.isSome = true ∧ g'.reorderAt = none else g' = g)) ∧
        (∀ d, d ≠ c.val → t.conduit d = s.conduit d) ∧ s.only [.trl] t) ∧
      ((Instr.rateRecovery c).gives s fun t =>
        t.conduit c.val = some (if cd.recoverAt + max 1 (s.fd Fd.TRL_ECN_INC_US) * 1000 ≤ s.nsec then { cd with
            rateMbps := cd.rateMbps + (s.portGbps * 1000 - cd.rateMbps) / 2 ^ s.fd Fd.TRL_ECN_INC_SHIFT
            recoverAt := s.nsec } else cd) ∧ (∀ d, d ≠ c.val → t.conduit d = s.conduit d) ∧ s.only [.trl] t) ∧
      (∀ m, cd.loopback = true → cd.cstate = 1 → cd.queue = [m] → m.hold = false → m.unseq = false → m.flags = 0 → m.purpose = .plain →
        m.payload.length ≤ cd.segSize → m.payload.length < 2 ^ 31 → knownOp m.op = true → m.op ≠ 0x05 → m.op ≠ 0x10 → m.op ≠ 0x11 →
        kindUnknown m.op m.payload = false → (buffered m.op = true → m.payload.length ≤ s.rxSize / 4 ∧ s.rxUsed + m.payload.length ≤ s.rxSize) →
        m.key < 2 ^ 32 → m.imm < 2 ^ 32 → cd.rx = [] → cd.rxDone = [] → cd.txNext = cd.rxNext → 0 < cd.txNext → cd.txNext < 2 ^ 32 → s.still →
        (Instr.loopbackSend c).gives s fun t =>
          t.trl.handed = s.trl.handed ++ [⟨c.val, cd.txNext, m.op, m.payload, m.key, m.imm, none⟩] ∧
          (t.conduit c.val).map (fun x => (x.queue, x.txNext, x.rxNext)) = some ([], seqNext cd.txNext, seqNext cd.txNext) ∧
          t.fd Fd.TRL_LOOPBACK_MSGS_COUNT = min (s.fd Fd.TRL_LOOPBACK_MSGS_COUNT + 1) (2 ^ 64 - 1) ∧ s.only [.csr, .trl] t)) ∧
    (twf s.sch.nodes = true → Instr.bucketRefill.gives s fun t =>
      (∀ c cd, s.conduit c = some cd → ∃ b, t.conduit c = some { cd with bucket := b } ∧
        b = min (cd.bucket + ((cd.rateMbps * 4096 / 1000 : Nat) : Int)) ((2 * cd.segSize * 256 : Nat) : Int)) ∧
      (∀ n b, tfind s.sch.nodes n = some b → t.buckets n = (refill (t.nodeCfg n).1 b.1, refill (t.nodeCfg n).2 b.2)) ∧
      t.trl.handed = s.trl.handed ∧ s.only [.csr, .trl, .sch] t)

/-- R245, R252, R253, R255, Table 12-13. -/
def Obligations.ConduitsPortsAndResponses : Prop :=
  ∀ (s : State), s.inReset = false →
    (∀ p : Fin 64,
      (p.val < s.portCount → s.flag Fd.TRL_CTL_ENABLE = true → s.flag (Fd.TRL_PORT_CTL_ENABLE p.val) = true →
        s.fd (Fd.TRL_PORT_CTL_LOOP p.val) = 0 → s.flag (Fd.TRL_PORT_STATUS_UP p.val) = false → (Instr.portUp p).gives s fun t =>
          p.val ∈ t.upPorts ∧ t.fd (Fd.TRL_PORT_STATUS_LANES_LOCKED p.val) = 2 ^ s.portLanes - 1 ∧
          t.fd (Fd.TRL_PORT_STATUS_TRAINING p.val) = 0 ∧ (∀ n, n ≠ p.val → (n ∈ t.upPorts ↔ n ∈ s.upPorts)) ∧
          s.only [.csr, .trl] t ∧ s.regsBut [Reg.TRL_PORT_STATUS p.val] t) ∧
      (s.flag (Fd.TRL_PORT_STATUS_UP p.val) = true → s.still → (Instr.portDown p).gives s fun t =>
          p.val ∉ t.upPorts ∧ t.fd Fd.TRL_ERR_PORT_DOWN = 1 ∧ (∀ n, n ≠ p.val → (n ∈ t.upPorts ↔ n ∈ s.upPorts)) ∧
          (∀ c ∈ t.trl.conduits, ∀ m ∈ c.2.queue, Egress.port p.val ∉ m.egress) ∧ (∀ f ∈ t.trl.frames, f.1 ≠ p.val))) ∧
    (∀ v : Word,
      let c := s.fd Fd.TRL_CONDUIT_SEL_INDEX
      let d := s.conduitData
      let old := (s.conduit c).getD ConduitState.closed
      let ended := fun (t : State) (st : Nat) => t.fd Fd.TRL_CONDUIT_CMD_RESULT = st ∧ (st ≠ stOK → t.fd Fd.TRL_ERR_CMD_REJECT = 1)
      let alone := s.ae.streams = [] ∧ s.tier.lent = [] ∧ (∀ y ∈ s.pgt.descs, y.2.loc.tier ≠ .lent) ∧ s.rmo.wrs = [] ∧
        (∀ a ∈ s.trl.awaiting, a.conduit ≠ c)
      (bits v.toNat 1 0 = 1 →
        (old.cstate = 0 → bits (lat d 1 1) 6 4 ≤ 3 → (lat d 0 1 / 4 % 2 = 1 → lat d 36 4 ≠ lat d 40 4) → old.lastCgen ≠ some (lat d 6 2) →
          (lat d 0 1 / 32 % 2 = 1 → lat d 8 4 % 2 ^ 20 = s.node) → s.cust.releases = [] → (Instr.conduitOpen v).gives s fun t =>
            (∃ n, t.conduit c = some n ∧ n.cstate = 1 ∧ n.part = lat d 1 1 % 16 ∧ n.segcode = bits (lat d 1 1) 6 4 ∧
              n.peerConduit = lat d 2 2 ∧ n.txCgen = lat d 4 2 ∧ n.rxCgen = lat d 6 2 ∧ n.peerNode = lat d 8 4 % 2 ^ 20 ∧
              n.peerIp = slice d 16 16 ∧ n.txNext = 1 ∧ n.rxNext = 1 ∧ n.rateMbps = s.portGbps * 1000 ∧ n.queue = [] ∧ n.sent = [] ∧
              n.enc = (lat d 0 1 / 4 % 2 == 1) ∧ n.loopback = (lat d 0 1 / 32 % 2 == 1) ∧ n.timerNs = s.fd Fd.TRL_RETX_RTO_INIT_NS) ∧
            ended t stOK ∧ (∀ k, k ≠ c → t.conduit k = s.conduit k) ∧ s.only [.csr, .trl] t ∧ s.regsBut [Reg.TRL_CONDUIT_CMD] t) ∧
        (old.cstate ≠ 0 → (Instr.conduitOpen v).gives s fun t => ended t stBUSY ∧ s.only [.csr] t) ∧
        (old.cstate = 0 → 3 < bits (lat d 1 1) 6 4 ∨ old.lastCgen = some (lat d 6 2) → (Instr.conduitOpen v).gives s fun t =>
          ended t stFORMAT ∧ s.only [.csr] t)) ∧
      (bits v.toNat 1 0 = 2 → s.still → s.rmo.wrs = [] →
        (∀ cd, s.conduit c = some cd → cd.cstate = 1 → cd.queue ≠ [] ∨ cd.sent ≠ [] ∨ cd.rx ≠ [] → (Instr.conduitClose v).gives s fun t =>
          t.conduit c = some { cd with
            cstate := 2
            drainAt := s.nsec } ∧ ended t stOK ∧ s.only [.csr, .trl] t ∧ s.regsBut [Reg.TRL_CONDUIT_CMD] t) ∧
        (∀ cd, s.conduit c = some cd → cd.cstate = 1 → cd.queue = [] → cd.sent = [] → cd.rx = [] → alone → (Instr.conduitClose v).gives s fun t =>
          (t.conduit c).map (·.cstate) = some 0 ∧ ended t stOK ∧ s.only [.csr, .trl] t) ∧
        (∀ cd, s.conduit c = some cd → cd.cstate = 3 → (Instr.conduitClose v).gives s fun t =>
          t.conduit c = some { cd with cstate := 0 } ∧ ended t stOK ∧ s.only [.csr, .trl] t) ∧
        (s.conduit c = none → (Instr.conduitClose v).gives s fun t => ended t stBOUNDS ∧ s.only [.csr] t)) ∧
      (bits v.toNat 1 0 = 3 → s.still →
        (∀ cd, s.conduit c = some cd → cd.cstate = 1 → cd.rx = [] → (∀ m ∈ cd.queue, m.purpose = .plain) →
          (∀ m ∈ cd.sent, m.msg.purpose = .plain) → alone → (Instr.conduitFail v).gives s fun t =>
          (t.conduit c).map (fun x => (x.cstate, x.queue, x.sent)) = some (3, [], []) ∧ ended t stOK ∧ t.fd Fd.TRL_ERR_CONDUIT_FAIL = 1 ∧
          t.fd Fd.TRL_CONDUIT_FAILS_COUNT = min (s.fd Fd.TRL_CONDUIT_FAILS_COUNT + 1) (2 ^ 64 - 1) ∧ s.only [.csr, .trl] t) ∧
        (s.conduit c = none → (Instr.conduitFail v).gives s fun t => ended t stBOUNDS ∧ s.only [.csr] t))) ∧
    (∀ (c : Conduit) cd, s.conduit c.val = some cd → cd.cstate = 2 → (∀ k x, k ≠ c.val → (k, x) ∈ s.trl.conduits → x.cstate ≠ 2) → twf s.trl.conduits = true →
      s.quiet → s.trl.ended = [] → s.trl.postings = [] → s.cust.transfers = [] → s.ae.streams = [] → s.tier.lent = [] →
      (∀ y ∈ s.pgt.descs, y.2.loc.tier ≠ .lent) → s.rmo.wrs = [] → (∀ a ∈ s.trl.awaiting, a.conduit ≠ c.val) →
      (cd.queue ≠ [] → (∀ m ∈ cd.queue, m.purpose = .plain) → cd.sent = [] → cd.rx = [] →
        cd.drainAt + max 1 (s.fd Fd.TRL_RETX_RTO_MAX_US) * max 1 (s.fd Fd.TRL_RETX_MAX_TRIES) * 1000 ≤ s.nsec → (Instr.drainTimeout c).gives s fun t =>
          (t.conduit c.val).map (·.cstate) = some 3 ∧ t.fd Fd.TRL_ERR_CONDUIT_FAIL = 1 ∧ s.only [.csr, .trl] t) ∧
      (cd.queue = [] → cd.sent = [] → cd.rx = [] → (Instr.drainTimeout c).gives s fun t =>
        (t.conduit c.val).map (·.cstate) = some 0 ∧ s.only [.trl] t)) ∧
    (∀ v : Word, (Instr.conduitSnapshot v).gives s fun t =>
      let b := ((s.conduit (bits v.toNat 15 0)).getD ConduitState.closed).bytes
      (∀ k < 8, t.reg (Reg.TRL_CONDUIT_DATA0 + 8 * k) = lat b (8 * k) 8) ∧ t.fd Fd.TRL_CONDUIT_SEL_INDEX = bits v.toNat 15 0 ∧ s.only [.csr] t) ∧
    (∀ (c : Conduit) (q : W32) (p : List Byte), s.still → s.cust.releases = [] →
      (s.trl.awaiting.find? (fun a => a.conduit == c.val && a.msgseq == lat p 0 4) = none →
        ((Instr.ack c q p).gives s fun t => t.trl.awaiting = s.trl.awaiting ∧ t.trl.conduits = s.trl.conduits ∧ s.only [.trl] t) ∧
        ((Instr.nack c q p).gives s fun t => t.trl.awaiting = s.trl.awaiting ∧ t.trl.conduits = s.trl.conduits ∧ s.only [.trl] t)) ∧
      (∀ a e x, s.trl.awaiting.find? (fun a => a.conduit == c.val && a.msgseq == lat p 0 4) = some a → 8 ≤ p.length → a.op = 0x1A →
        a.purpose = .offer e → s.lentX e = some x → x.estate = .offered →
        (lat p 4 1 = stOK → (Instr.ack c q p).gives s fun t =>
          t.lentX e = some { x with
            estate := .active
            part := lat (p.drop 8) 0 1 % 16 } ∧ t.trl.awaiting = eraseFirst (fun y => y == a) s.trl.awaiting ∧ s.only [.trl, .tier] t) ∧
        (lat p 4 1 ≠ stOK → (Instr.nack c q p).gives s fun t =>
          t.lentX e = none ∧ tfind t.tier.hbmUsed (x.base / 2048) = none ∧ t.trl.awaiting = eraseFirst (fun y => y == a) s.trl.awaiting ∧
          s.only [.trl, .tier, .hbm] t)) ∧
      (∀ a, s.trl.awaiting.find? (fun a => a.conduit == c.val && a.msgseq == lat p 0 4) = some a → 8 ≤ p.length → a.op = 0x10 →
        a.purpose = .plain → (Instr.nack c q p).gives s fun t =>
          t.fd Fd.RMO_ERR_WRITE_NACK = 1 ∧ t.fd Fd.RMO_WRITE_NACKS_COUNT = min (s.fd Fd.RMO_WRITE_NACKS_COUNT + 1) (2 ^ 64 - 1) ∧
          t.trl.awaiting = eraseFirst (fun y => y == a) s.trl.awaiting ∧ s.only [.csr, .trl] t)) ∧
    (∀ (c : Conduit) (q : W32) (p : List Byte), s.sends c.val →
      (2 ≤ p.length → 0x200 ≤ lat p 0 2 →
        (∀ off, s.mbRoom 1 = true → s.rxRoom p.length = some off → (Instr.controlFirmware c q p).gives s fun t =>
          t.fd (Fd.EVC_MB_IDX_PI 1) = (s.fd (Fd.EVC_MB_IDX_PI 1) + 1) % 2 ^ 32 ∧
          t.trl.holds = s.trl.holds ++ [⟨1, s.fd (Fd.EVC_MB_IDX_PI 1), c.val, off, p.length⟩] ∧ t.trl.conduits = s.trl.conduits ∧
          s.only [.csr, .trl, .hbm, .evc] t ∧ s.regsBut [Reg.EVC_MB_IDX 1] t) ∧
        (s.mbRoom 1 = false → (Instr.controlFirmware c q p).gives s fun t =>
          s.answered c.val q.toNat stBUSY [] t ∧ t.fd Fd.EVC_MB_DROPS_COUNT = min (s.fd Fd.EVC_MB_DROPS_COUNT + 1) (2 ^ 64 - 1) ∧
          s.only [.csr, .trl] t)) ∧
      (p.length < 2 → (Instr.controlFirmware c q p).gives s fun t => s.answered c.val q.toNat stFORMAT [] t ∧ s.only [.trl] t))

/-- R274 to R279, R281, R288, R294; a message that arrives whole. -/
def Obligations.RegionsReadsAndWrites : Prop :=
  ∀ (s : State), s.inReset = false →
    let table := fun (i : Nat) => s.fd Fd.RMO_TABLE_BASE + 32 * i
    let apart := fun (i a n : Nat) => a + n ≤ table i ∨ table i + 32 ≤ a
    (∀ (c : Conduit) (q key imm : W32) (p : List Byte), s.sends c.val → s.trl.handed = [] →
      let off := lat p 0 8
      let hdrOk := 16 ≤ p.length ∧ lat p 8 1 ≤ 1 ∧ zeroAt p 9 7 = true
      let answer := fun (t : State) => if lat p 8 1 = 1 then s.answered c.val q.toNat stOK [] t else t.trl = s.trl
      (∀ i,
        let r := s.region i
        let a := r.base + off
        (s.keyCheck key.toNat (s.partOf c.val) (some c.val) false .write = (stOK, i) → hdrOk → r.holds off (p.length - 16) = true →
          a + (p.length - 16) ≤ hbmBytes → apart i a (p.length - 16) → (Instr.write c q key p).gives s fun t =>
            t.hbmRead a (p.length - 16) = p.drop 16 ∧
            (∀ b, b < a ∨ a + (p.length - 16) ≤ b → b < table i ∨ table i + 32 ≤ b → byteOf t.hbm b = byteOf s.hbm b) ∧
            t.region i = r ∧ t.fd Fd.RMO_WRITES_COUNT = min (s.fd Fd.RMO_WRITES_COUNT + 1) (2 ^ 64 - 1) ∧ answer t ∧
            s.only [.csr, .rmo, .hbm, .trl] t ∧ s.regsBut [Reg.RMO_WRITES] t) ∧
        (s.keyCheck key.toNat (s.partOf c.val) (some c.val) false .write = (stOK, i) → hdrOk → r.holds off (p.length - 16) = false →
          (Instr.write c q key p).gives s fun t => s.answered c.val q.toNat stBOUNDS [] t ∧ t.region i = r ∧
            s.hbmBut (table i) 32 t ∧ s.only [.rmo, .hbm, .trl] t) ∧
        (s.keyCheck key.toNat (s.partOf c.val) (some c.val) false .writeImm = (stOK, i) → hdrOk → r.holds off (p.length - 16) = true →
          a + (p.length - 16) ≤ hbmBytes → apart i a (p.length - 16) →
          (r.cqen = false → (Instr.writeImm c q key imm p).gives s fun t =>
            t.hbmRead a (p.length - 16) = p.drop 16 ∧ t.region i = r ∧
            (r.ctren = true → t.fd (Fd.RMO_CTR_VAL_VALUE.at r.ctr) = (s.fd (Fd.RMO_CTR_VAL_VALUE.at r.ctr) + 1) % 2 ^ 32) ∧
            t.fd Fd.RMO_WRITES_COUNT = min (s.fd Fd.RMO_WRITES_COUNT + 1) (2 ^ 64 - 1) ∧ answer t ∧ s.only [.csr, .rmo, .hbm, .trl] t) ∧
          (r.cqen = true → s.cqRoom r.cq = false → (Instr.writeImm c q key imm p).gives s fun t =>
            s.answered c.val q.toNat stBUSY [] t ∧ s.only [.trl] t) ∧
          (r.cqen = true → s.cqRoom r.cq = true → s.fd (Fd.RMO_CQ_CFG0_NOTIFY.at r.cq) ≠ 2 →
            let pi := s.fd (Fd.RMO_CQ_IDX_PI.at r.cq)
            let ea := s.fd (Fd.RMO_CQ_CFG0_BASE.at r.cq) + 16 * (pi % s.cqSize r.cq)
            apart i ea 16 → ea + 16 ≤ hbmBytes → (Instr.writeImm c q key imm p).gives s fun t =>
              t.fd (Fd.RMO_CQ_IDX_PI.at r.cq) = (pi + 1) % 2 ^ 32 ∧ (t.cq r.cq).reserved = (s.cq r.cq).reserved ∧
              t.hbmRead ea 16 = le 4 imm.toNat ++ le 4 ((p.length - 16) % 2 ^ 31) ++ le 2 c.val ++ le 1 1 ++ le 1 stOK ++
                le 4 (i % 2 ^ 20 + (1 - pi / s.cqSize r.cq % 2) * 2 ^ 31) ∧ t.region i = r ∧ answer t ∧ s.only [.csr, .rmo, .hbm, .trl] t))) ∧
      (∀ st i, s.keyCheck key.toNat (s.partOf c.val) (some c.val) false .write = (st, i) → st ≠ stOK → (Instr.write c q key p).gives s fun t =>
        s.answered c.val q.toNat st [] t ∧ t.fd Fd.RMO_KEY_FAILS_COUNT = min (s.fd Fd.RMO_KEY_FAILS_COUNT + 1) (2 ^ 64 - 1) ∧
        s.only [.csr, .trl] t ∧ s.regsBut [Reg.RMO_KEY_FAILS] t) ∧
      (∀ st i, s.keyCheck key.toNat (s.partOf c.val) (some c.val) false .read = (st, i) →
        let n := lat p 8 4
        (st ≠ stOK → (Instr.read c q key p).gives s fun t =>
          s.answered c.val q.toNat st [] t ∧ t.fd Fd.RMO_KEY_FAILS_COUNT = min (s.fd Fd.RMO_KEY_FAILS_COUNT + 1) (2 ^ 64 - 1) ∧ s.only [.csr, .trl] t) ∧
        (st = stOK → p.length = 32 → zeroAt p 24 8 = true → 0 < n → n ≤ 2 ^ 31 - 16 →
          ((s.region i).holds off n = true → (Instr.read c q key p).gives s fun t =>
            s.sent c.val 0x13 (le 8 (lat p 16 8) ++ zeros 4 ++ le 4 q.toNat ++ t.hbmRead ((s.region i).base + off) n) t ∧
            t.region i = { s.region i with inflight := (s.region i).inflight + 1 } ∧ s.hbmBut (table i) 32 t ∧
            t.fd Fd.RMO_READS_COUNT = min (s.fd Fd.RMO_READS_COUNT + 1) (2 ^ 64 - 1) ∧ s.only [.csr, .rmo, .hbm, .trl] t) ∧
          ((s.region i).holds off n = false → (Instr.read c q key p).gives s fun t =>
            s.answered c.val q.toNat stBOUNDS [] t ∧ s.only [.trl] t))) ∧
      ((Instr.readResp c q p).gives s fun t => s.answered c.val q.toNat stFORMAT [] t ∧ s.only [.trl] t)) ∧
    (∀ v : Word,
      let r := regionOf s.regData
      let j := s.fd Fd.RMO_REG_SEL_INDEX
      let ended := fun (t : State) (st : Nat) => t.fd Fd.RMO_REG_CMD_RESULT = st ∧ (st ≠ stOK → t.fd Fd.RMO_ERR_CMD_REJECT = 1)
      (bits v.toNat 1 0 = 1 →
        (s.registerCheck r ≠ stOK → (Instr.regionRegister v).gives s fun t => ended t (s.registerCheck r) ∧ s.only [.csr] t ∧
          s.regsBut [Reg.RMO_REG_CMD, Reg.RMO_ERR] t) ∧
        (∀ i, s.registerCheck r = stOK → s.freeRegion = some i →
          let gen := if 255 ≤ (s.region i).gen then 1 else (s.region i).gen + 1
          let units := ceilDiv r.len (2 ^ 21) * 1024
          let key := fun (t : State) => t.fd Fd.RMO_REG_CMD_KEY = (r.part * 2 ^ 28 + i * 256 + gen) % 2 ^ 32
          (r.remote = true → (Instr.regionRegister v).gives s fun t =>
            ended t stOK ∧ key t ∧ t.region i = { r with
              rstate := 1
              gen := gen
              inflight := 0 } ∧ s.hbmBut (table i) 32 t ∧ s.only [.csr, .rmo, .hbm] t ∧ s.regsBut [Reg.RMO_REG_CMD] t) ∧
          (r.remote = false → (s.takeHbm r.part units 1024 (fun _ => true)).isSome = true → (Instr.regionRegister v).gives s fun t =>
            ended t stOK ∧ key t ∧ (∃ a, t.region i = { r with
              base := a * 2048
              rstate := 1
              gen := gen
              inflight := 0 } ∧ a % 1024 = 0 ∧ tfind t.tier.hbmUsed a = some units) ∧
            t.usage r.part 1 = s.usage r.part 1 + units * 2048 ∧ s.hbmBut (table i) 32 t ∧ s.only [.csr, .rmo, .hbm, .tier, .free] t) ∧
          (r.remote = false → s.takeHbm r.part units 1024 (fun _ => true) = none → (Instr.regionRegister v).gives s fun t =>
            ended t stQUOTA ∧ s.only [.csr, .tier] t))) ∧
      (bits v.toNat 1 0 = 2 →
        ((s.region j).rstate = 0 → (Instr.regionRevoke v).gives s fun t => ended t stBOUNDS ∧ s.only [.csr] t) ∧
        ((s.region j).rstate ≠ 0 → s.ringOf j = true → (Instr.regionRevoke v).gives s fun t => ended t stBUSY ∧ s.only [.csr] t) ∧
        ((s.region j).rstate ≠ 0 → s.ringOf j = false → (Instr.regionRevoke v).gives s fun t =>
          ended t stOK ∧ t.region j = { s.region j with rstate := 2 } ∧ (∀ k, k ≠ j → t.region k = s.region k) ∧
          s.hbmBut (table j) 32 t ∧ s.only [.csr, .rmo, .hbm] t ∧ s.regsBut [Reg.RMO_REG_CMD] t))) ∧
    (∀ i, (s.region i).rstate = 2 →
      ((s.region i).inflight ≠ 0 → (Instr.revokeComplete i).gives s fun t => s.only [] t) ∧
      ((s.region i).inflight = 0 → (Instr.revokeComplete i).gives s fun t =>
        t.region i = { Region.free with
          gen := (s.region i).gen
          freedAt := some s.usec } ∧ (∀ k, k ≠ i → t.region k = s.region k) ∧ t.fd Fd.RMO_ERR_REVOKE_DONE = 1 ∧
        t.fd Fd.RMO_REVOKES_COUNT = min (s.fd Fd.RMO_REVOKES_COUNT + 1) (2 ^ 64 - 1) ∧
        ((s.region i).remote = false → tfind t.tier.hbmUsed ((s.region i).base / 2048) = none ∧
          t.usage (s.region i).part 1 = s.usage (s.region i).part 1 - ceilDiv (s.region i).len (2 ^ 21) * 2 ^ 21) ∧
        s.only [.csr, .rmo, .hbm, .tier] t ∧ s.regsBut [Reg.RMO_ERR, Reg.RMO_REVOKES] t)) ∧
    (∀ v : Word, (Instr.regionSnapshot v).gives s fun t =>
      let b := (s.region (bits v.toNat 19 0)).bytes
      t.reg Reg.RMO_REG_DATA0 = lat b 0 8 ∧ t.reg Reg.RMO_REG_DATA1 = lat b 8 8 ∧ t.reg Reg.RMO_REG_DATA2 = lat b 16 8 ∧
      t.reg Reg.RMO_REG_DATA3 = lat b 24 8 ∧ t.fd Fd.RMO_REG_SEL_INDEX = bits v.toNat 19 0 ∧ s.only [.csr] t ∧
      s.regsBut [Reg.RMO_REG_SEL, Reg.RMO_REG_DATA0, Reg.RMO_REG_DATA1, Reg.RMO_REG_DATA2, Reg.RMO_REG_DATA3] t)

/-- R285 to R293. -/
def Obligations.QueuesCountersAndWorkRequests : Prop :=
  ∀ (s : State), s.inReset = false →
    (∀ v : Word,
      let q := s.fd Fd.RMO_CQ_SEL_INDEX
      let cfg := q * 2 ^ 32 + Reg.RMO_CQ_CFG0
      let idx := q * 2 ^ 32 + Reg.RMO_CQ_IDX
      (s.flag (Fd.RMO_CQ_CFG0_ENABLE.at q) = false → bits v.toNat 63 63 = 1 → bits v.toNat 62 61 ≤ 1 → (Instr.cqEnable v).gives s fun t =>
        t.fd (Fd.RMO_CQ_CFG0_ENABLE.at q) = 1 ∧ t.fd (Fd.RMO_CQ_IDX_PI.at q) = 0 ∧ t.fd (Fd.RMO_CQ_IDX_CI.at q) = 0 ∧
        t.cq q = ⟨0, [], 0⟩ ∧ s.only [.csr, .rmo] t ∧ s.regsBut [cfg, idx] t) ∧
      (s.flag (Fd.RMO_CQ_CFG0_ENABLE.at q) = false → bits v.toNat 63 63 = 1 → bits v.toNat 62 61 = 2 → s.flag Fd.RMO_CTL_ENABLE = false →
        (Instr.cqEnable v).gives s fun t =>
          t.fd (Fd.RMO_CQ_CFG0_ENABLE.at q) = 0 ∧ t.fd Fd.RMO_ERR_CMD_REJECT = 1 ∧ s.only [.csr] t ∧ s.regsBut [cfg, Reg.RMO_ERR] t) ∧
      (s.flag (Fd.RMO_CQ_CFG0_ENABLE.at q) = true → (Instr.cqEnable v).gives s fun t =>
        t.fd (Fd.RMO_CQ_CFG0_ENABLE.at q) = bits v.toNat 63 63 ∧ t.fd (Fd.RMO_CQ_CFG0_BASE.at q) = s.fd (Fd.RMO_CQ_CFG0_BASE.at q) ∧
        t.fd (Fd.RMO_CQ_CFG0_PART.at q) = s.fd (Fd.RMO_CQ_CFG0_PART.at q) ∧ s.only [.csr] t ∧ s.regsBut [cfg] t) ∧
      (let pi := s.fd (Fd.RMO_CQ_IDX_PI.at q)
       let ci := s.fd (Fd.RMO_CQ_IDX_CI.at q)
       (Instr.cqConsume v).gives s fun t =>
        t.fd (Fd.RMO_CQ_IDX_CI.at q) = (if s.fd (Fd.RMO_CQ_CFG0_NOTIFY.at q) ≠ 2 ∧ serialDist 32 ci (bits v.toNat 31 0) ≤ serialDist 32 ci pi
          then bits v.toNat 31 0 else ci) ∧ t.fd (Fd.RMO_CQ_IDX_PI.at q) = pi ∧ s.only [.csr] t ∧ s.regsBut [idx] t)) ∧
    (∀ (k : Fin 4096),
      let x := s.cq k.val
      let n := s.cqSize k.val
      let first := ((x.unsent.head?).map Prod.fst).getD 0 % n
      let i := keyIndex (s.fd (Fd.RMO_CQ_CFG1_RKEY.at k.val))
      s.flag (Fd.RMO_CQ_CFG0_ENABLE.at k.val) = true → s.fd (Fd.RMO_CQ_CFG0_NOTIFY.at k.val) = 2 → x.unsent ≠ [] →
      (x.unsent.length < s.fd (Fd.RMO_CQ_CFG1_NCOUNT.at k.val) → (s.mtime - x.oldestAt) * 10 < s.fd (Fd.RMO_CQ_CFG1_NDELAY_NS.at k.val) →
        (Instr.cqNotify k).gives s fun t => s.only [] t) ∧
      (s.fd (Fd.RMO_CQ_CFG1_NCOUNT.at k.val) ≤ x.unsent.length → x.unsent.length ≤ n - first → s.sends (s.region i).conduit →
        (Instr.cqNotify k).gives s fun t =>
          s.sent (s.region i).conduit 0x11 (le 8 ((s.region i).base + 16 * first) ++ zeros 8 ++ x.unsent.flatMap Prod.snd) t ∧
          t.cq k.val = { x with unsent := [] } ∧ t.fd Fd.RMO_NOTIFIES_COUNT = min (s.fd Fd.RMO_NOTIFIES_COUNT + 1) (2 ^ 64 - 1) ∧
          s.only [.csr, .rmo, .trl] t ∧ s.regsBut [Reg.RMO_NOTIFIES] t)) ∧
    (∀ (c : Conduit) (q : W32) (p : List Byte), s.sends c.val →
      (let k := lat p 2 2
       let ok := s.fd (Fd.RMO_CQ_CFG0_NOTIFY.at k) = 2 ∧ s.fd (Fd.RMO_CQ_CFG0_PART.at k) = s.partOf c.val ∧
         serialDist 32 (s.fd (Fd.RMO_CQ_IDX_CI.at k)) (lat p 4 4) ≤ serialDist 32 (s.fd (Fd.RMO_CQ_IDX_CI.at k)) (s.fd (Fd.RMO_CQ_IDX_PI.at k))
       p.length = 8 → lat p 0 2 = 0x21 → k < 4096 →
        (ok → (Instr.cqCredit c q p).gives s fun t =>
          t.fd (Fd.RMO_CQ_IDX_CI.at k) = lat p 4 4 ∧ t.fd (Fd.RMO_CQ_IDX_PI.at k) = s.fd (Fd.RMO_CQ_IDX_PI.at k) ∧
          t.trl.conduits = s.trl.conduits ∧ s.only [.csr, .trl] t ∧ s.regsBut [k * 2 ^ 32 + Reg.RMO_CQ_IDX] t) ∧
        (¬ ok → (Instr.cqCredit c q p).gives s fun t => s.answered c.val q.toNat stBOUNDS [] t ∧ s.only [.trl] t)) ∧
      (let b := slice p 8 64
       let full := s.fd Fd.RMO_WR_POOL_ENTRIES ≤ s.rmo.wrs.length ∨
         max 1 (s.fd (Fd.RMO_CTR_CFG_MAXWR.at (lat b 2 2))) ≤ (s.unfired (lat b 2 2)).length
       p.length = 72 → lat p 0 2 = 0x20 → zeroAt p 2 6 = true → wrBad b = false → lat b 0 1 ≠ 5 → lat b 1 1 = 0 →
        (s.ctrOk (lat b 2 2) (s.partOf c.val) = true → ¬ full → (Instr.postWr c q p).gives s fun t =>
          t.rmo = { s.rmo with
            wrs := s.rmo.wrs ++ [⟨s.rmo.nextWr, b, c.val, lat b 2 2, none, [], none, false⟩]
            nextWr := s.rmo.nextWr + 1 } ∧ s.answered c.val q.toNat stOK [] t ∧ s.only [.rmo, .trl] t) ∧
        (s.ctrOk (lat b 2 2) (s.partOf c.val) = true → full → (Instr.postWr c q p).gives s fun t =>
          s.answered c.val q.toNat stQUOTA [] t ∧ s.only [.trl] t) ∧
        (s.ctrOk (lat b 2 2) (s.partOf c.val) = false → (Instr.postWr c q p).gives s fun t =>
          s.answered c.val q.toNat stBOUNDS [] t ∧ s.only [.trl] t)) ∧
      (p.length ≠ 72 → (Instr.postWr c q p).gives s fun t => s.answered c.val q.toNat stFORMAT [] t ∧ s.only [.trl] t) ∧
      (p.length = 4 → lat p 0 2 = 0x22 → s.ctrOk (lat p 2 2) (s.partOf c.val) = true →
        (∀ w ∈ s.rmo.wrs, lat w.bytes 1 1 % 2 = 0 ∧ w.holds = []) → (Instr.flushCtr c q p).gives s fun t =>
          t.unfired (lat p 2 2) = [] ∧ s.answered c.val q.toNat stOK [] t ∧ t.rmo.regions = s.rmo.regions ∧
          (s.unfired (lat p 2 2) ≠ [] → t.fd Fd.RMO_ERR_WR_FAIL = 1) ∧ s.only [.csr, .rmo, .trl] t) ∧
      (p.length = 4 → lat p 0 2 = 0x22 → s.ctrOk (lat p 2 2) (s.partOf c.val) = false → (Instr.flushCtr c q p).gives s fun t =>
        s.answered c.val q.toNat stBOUNDS [] t ∧ s.only [.trl] t)) ∧
    (∀ (ctr : Nat) w,
      let b := w.bytes
      s.flag Fd.RMO_CTL_ENABLE = true → s.unfired ctr = [w] → s.rmo.wrs.find? (fun y => y.id == w.id) = some w → s.quiet →
      reached (s.fd (Fd.RMO_CTR_VAL_VALUE.at ctr)) (lat b 4 4) = true → lat b 1 1 % 2 = 0 → w.holds = [] →
      (lat b 0 1 = 5 → (Instr.workRequestFire ctr).gives s fun t =>
        t.fd (Fd.RMO_CTR_VAL_VALUE.at (lat b 28 4 % 65536)) = (s.fd (Fd.RMO_CTR_VAL_VALUE.at (lat b 28 4 % 65536)) + 1) % 2 ^ 32 ∧
        (∀ y ∈ t.rmo.wrs, y.id ≠ w.id) ∧ t.fd Fd.RMO_WR_FIRED_COUNT = min (s.fd Fd.RMO_WR_FIRED_COUNT + 1) (2 ^ 64 - 1) ∧ s.only [.csr, .rmo] t) ∧
      (∀ i d, lat b 0 1 = 3 → s.keyCheck (lat b 8 4) (s.partOf w.conduit) (some w.conduit) false .read = (stOK, i) →
        (s.region i).holds (lat b 16 8) (lat b 24 4) = true → s.keyCheck (lat b 28 4) (s.partOf w.conduit) none true .write = (stOK, d) →
        (s.region d).holds (lat b 32 8) (lat b 24 4) = true → s.sends (s.region d).conduit → i ≠ d → (Instr.workRequestFire ctr).gives s fun t =>
          s.sent (s.region d).conduit 0x10 (le 8 ((s.region d).base + lat b 32 8) ++ zeros 8 ++
            s.hbmRead ((s.region i).base + lat b 16 8) (lat b 24 4)) t ∧
          t.region i = { s.region i with inflight := (s.region i).inflight + 1 } ∧
          t.region d = { s.region d with inflight := (s.region d).inflight + 1 } ∧
          (t.rmo.wrs.find? (fun y => y.id == w.id)).map (fun y => (y.firedAt, y.holds)) = some (some s.usec, [i, d]) ∧
          s.only [.csr, .rmo, .hbm, .trl] t)) ∧
    (∀ ctr, s.unfired ctr = [] → s.quiet → (Instr.workRequestFire ctr).gives s fun t => s.only [] t) ∧
    (∀ id w p t0 t1, s.rmo.wrs.find? (fun w => w.id == id) = some w → w.retry = some (p, t1) → w.firedAt = some t0 → s.quiet →
      (t0 + max 1 (s.fd Fd.AE_TIMEOUT_MS) * 1000 ≤ s.usec → w.holds = [] → lat w.bytes 1 1 % 2 = 0 → s.sends w.conduit →
        (Instr.wrRetry id).gives s fun t =>
          s.sentAll w.conduit [(0x05, resultHeader (qTag p) stBUSY (qRaw p) (qF32 p) false 0 0)] t ∧ (∀ y ∈ t.rmo.wrs, y.id ≠ id) ∧
          t.fd Fd.RMO_ERR_WR_FAIL = 1 ∧ s.only [.csr, .rmo, .trl] t) ∧
      (∀ k q, s.usec < t0 + max 1 (s.fd Fd.AE_TIMEOUT_MS) * 1000 → t1 + s.fd Fd.RMO_CTL_RETRY_US ≤ s.usec → lat w.bytes 0 1 = 1 → headerBad p false = false →
        hPart (lat p 0 8) = s.partOf w.conduit → s.route (lat p 0 8) = .here k → s.seq k = some q → s.admits = false → (Instr.wrRetry id).gives s fun t =>
          (∃ op, t.pgt.ops = [op] ∧ op.kind = .query ∧ op.seq = k ∧ op.payload = p ∧ op.byWr = some id ∧ op.phase = .waiting) ∧
          (t.rmo.wrs.find? (fun w => w.id == id)).map (·.retry) = some none ∧ s.only [.rmo, .pgt, .twn] t)) ∧
    (∀ v : Word,
      let k := s.fd Fd.RMO_CTR_SEL_INDEX
      (s.unfired k = [] → s.quiet → (Instr.counterSet v).gives s fun t =>
        t.fd (Fd.RMO_CTR_VAL_VALUE.at k) = bits v.toNat 31 0 ∧ s.only [.csr] t ∧ s.regsBut [k * 2 ^ 32 + Reg.RMO_CTR_VAL] t) ∧
      (bits v.toNat 63 63 = 0 → s.flag (Fd.RMO_CTR_CFG_ENABLE.at k) = true → (∀ w ∈ s.rmo.wrs, lat w.bytes 1 1 % 2 = 0 ∧ w.holds = []) →
        (Instr.counterDisable v).gives s fun t =>
          t.fd (Fd.RMO_CTR_CFG_ENABLE.at k) = 0 ∧ t.fd (Fd.RMO_CTR_CFG_PART.at k) = s.fd (Fd.RMO_CTR_CFG_PART.at k) ∧ t.unfired k = [] ∧
          ((s.rmo.wrs.map (·.id)).Nodup → ∀ j, j ≠ k → t.unfired j = s.unfired j) ∧ s.only [.csr, .rmo] t))

/-- R317, R324 to R331, R335, R336, R343, R425. -/
def Obligations.CroaksClaimsAndTakeovers : Prop :=
  ∀ (s : State), s.inReset = false →
    let w := s.fd Fd.TWN_WITNESS_CONDUIT
    let g := s.fd Fd.TWN_GOVERNOR_CONDUIT
    let peer := s.node ^^^ 1
    let ask := fun (ttype reason : Nat) => takeover ttype reason 0 peer s.node s.twn.epoch s.twn.peerDomain
    let claims := fun (r : Reason) (back : Bool) (t : State) => t.twn.claim = some ⟨r, back, 1, s.nsec⟩ ∧
      s.sent w 0x23 (ask 1 (reasonCode r)) t
    let canClaim := s.twn.claim = none ∧ s.flag Fd.TWN_WITNESS_VALID = true ∧ s.sends w
    (s.flag Fd.TWN_CTL_ENABLE = true → s.role ≠ .fenced → s.sends s.twinConduit →
      (s.twn.lastSent + s.periodNs ≤ s.nsec → Instr.croakSend.gives s fun t =>
        let n := (s.twn.cseq + 1) % 2 ^ 32
        s.sentAll s.twinConduit (List.replicate (max 1 (min s.upPorts.length (s.fd Fd.TWN_CTL_PATHS_M1 + 1))) (0x22, s.croak n)) t ∧
        t.twn = { s.twn with
          cseq := n
          lastSent := s.nsec
          sentAt := t.twn.sentAt } ∧ (n, s.nsec) ∈ t.twn.sentAt ∧ s.only [.twn, .trl] t) ∧
      (s.nsec < s.twn.lastSent + s.periodNs → Instr.croakSend.gives s fun t => s.only [] t)) ∧
    (∀ (c : Conduit) (q : W32) (p : List Byte), c.val = s.twinConduit → 32 ≤ p.length → s.quiet →
      let e := lat p 0 4
      let fresh := serialLt 32 s.twn.peerCseq (lat p 4 4)
      let heard := { s.twn with
        peerRole := roleOf (lat p 12 1 % 8)
        peerCseq := lat p 4 4
        peerDomain := lat p 16 2 % 1024
        peerHealth := lat p 14 2 }
      (s.role = .paired → e = s.twn.epoch → fresh = true → bits (lat p 12 1) 3 3 = 0 → (Instr.croak c q p).gives s fun t =>
        let till := fun (t0 : Nat) => t0 + s.leaseNs
        let echoed := s.twn.sentAt.find? (fun x => x.1 == lat p 8 4)
        t.twn = { heard with
          heardAt := s.nsec
          suspect := bits (lat p 12 1) 4 4 == 1
          leaseUntil := t.twn.leaseUntil } ∧
        (∀ n t0, echoed = some (n, t0) → s.nsec ≤ till t0 → t.twn.leaseUntil = some (max (till t0) (s.twn.leaseUntil.getD 0))) ∧
        ((∀ n t0, echoed = some (n, t0) → till t0 < s.nsec) → t.twn.leaseUntil = s.twn.leaseUntil) ∧
        t.trl.conduits = s.trl.conduits ∧ s.only [.csr, .twn, .trl] t ∧ s.regsBut [Reg.TWN_CROAKS_MISSED] t) ∧
      (s.role = .paired → s.twn.epoch < e → fresh = true → roleOf (lat p 12 1 % 8) = .paired → bits (lat p 12 1) 3 3 = 0 →
        (Instr.croak c q p).gives s fun t => t.twn.role = .paired ∧ t.twn.epoch = e ∧ t.twn.heardAt = s.nsec ∧ s.only [.csr, .twn, .trl] t) ∧
      (s.role = .solo → s.twn.epoch < e → fresh = true → s.ae.streams = [] → (Instr.croak c q p).gives s fun t =>
        t.twn.role = .fenced ∧ t.twn.leaseUntil = none ∧ t.fd Fd.TWN_ERR_FENCED = 1 ∧ t.pgt.ops = [] ∧ t.cust.held = [] ∧
        (∀ d, d ≠ w → (t.conduit d).map (fun x => (x.queue, x.sent)) = (s.conduit d).map fun _ => ([], []))) ∧
      (s.role = .paired → e < s.twn.epoch ∨ (fresh = false ∧ roleOf (lat p 12 1 % 8) ≠ .joining) → (Instr.croak c q p).gives s fun t =>
        t.twn.heardAt = s.twn.heardAt ∧ t.twn.leaseUntil = s.twn.leaseUntil ∧ t.twn.epoch = s.twn.epoch ∧ t.twn.role = .paired ∧
        t.trl.conduits = s.trl.conduits ∧ s.only [.twn, .trl] t)) ∧
    ((s.leaseHolds = false → Instr.leaseExpire.gives s fun t => t.twn = { s.twn with leaseUntil := none } ∧ s.only [.twn] t) ∧
      (s.leaseHolds = true → Instr.leaseExpire.gives s fun t => s.only [] t)) ∧
    (canClaim →
      (s.role = .paired → s.twn.silentAt = none → s.twn.heardAt + s.missNs ≤ s.nsec →
        (s.flag Fd.TWN_GOVERNOR_VALID = true → g ≠ w ∧ s.sends g) → Instr.silence.gives s fun t =>
          claims .silence false t ∧ t.twn.silentAt = some s.usec ∧ t.twn.role = .paired ∧
          (s.flag Fd.TWN_GOVERNOR_VALID = true → s.sent g 0x23 (ask 6 0) t) ∧
          t.fd Fd.TWN_CROAKS_MISSED_COUNT = min (s.fd Fd.TWN_CROAKS_MISSED_COUNT + s.fd Fd.TWN_CROAK_MISS) (2 ^ 64 - 1) ∧
          s.only [.csr, .twn, .trl] t ∧ s.regsBut [Reg.TWN_CROAKS_MISSED] t) ∧
      (s.role = .joining → s.twn.joinFailed = false → s.twn.heardAt + 100000000 ≤ s.nsec → Instr.joinTimeout.gives s fun t =>
        claims .silence false t ∧ s.only [.twn, .trl] t) ∧
      (s.role = .regrowing → s.twn.regrow = [] → s.notTabled = [] → s.regrowOut = false → Instr.regrowClaim.gives s fun t =>
        claims .regrow false t ∧ s.only [.twn, .trl] t) ∧
      (∀ v : Word, bits v.toNat 2 0 = 4 → s.flag Fd.TWN_CMD_BUSY = false → s.role = .paired → s.twn.live = true → (Instr.twnHandback v).gives s fun t =>
        claims .regrow true t ∧ t.fd Fd.TWN_CMD_RESULT = stOK ∧ s.only [.csr, .twn, .trl] t ∧ s.regsBut [Reg.TWN_CMD] t) ∧
      (∀ (c : Conduit) (q : W32) (p : List Byte), c.val = g → lat p 0 1 = 7 → lat p 1 1 = 1 → 32 ≤ p.length → s.twn.permitAt.isSome = true →
        (Instr.takeoverPermitOk c q p).gives s fun t =>
          claims .expel false t ∧ t.twn.permitAt = none ∧ t.fd Fd.TWN_CMD_RESULT = stOK ∧ t.fd Fd.TWN_CMD_BUSY = 0 ∧
          s.only [.csr, .twn, .trl] t ∧ s.regsBut [Reg.TWN_CMD] t)) ∧
    (∀ (c : Conduit) (q : W32) (p : List Byte), 32 ≤ p.length → lat p 0 1 = 1 → s.sends c.val →
      let pair := s.peerOf c.val / 2
      let pairs := s.fd Fd.TWN_WIT_CTL_PAIRS
      let reply := fun (ttype st e : Nat) (t : State) =>
        s.sent c.val 0x23 (takeover ttype (lat p 1 1) st (tFailed p) (tServing p) e (lat p 16 2)) t
      let granted := fun (t : State) => reply 2 stOK (tEpoch p + 1) t ∧
        t.twn = { s.twn with witness := tset s.twn.witness pair ⟨tEpoch p + 1, s.peerOf c.val⟩ } ∧ s.only [.twn, .trl] t
      let refused := fun (st e : Nat) (t : State) => reply 3 st e t ∧ s.only [.trl] t
      (pairs = 0 → (Instr.takeoverClaim c q p).gives s (refused stBOUNDS 0)) ∧
      (0 < pairs → tfind s.twn.witness pair = none →
        (s.twn.witness.length < pairs → (Instr.takeoverClaim c q p).gives s granted) ∧
        (pairs ≤ s.twn.witness.length → (Instr.takeoverClaim c q p).gives s (refused stQUOTA 0))) ∧
      (∀ r, 0 < pairs → tfind s.twn.witness pair = some r →
        (r.epoch = tEpoch p → (Instr.takeoverClaim c q p).gives s granted) ∧
        (r.epoch ≠ tEpoch p → (Instr.takeoverClaim c q p).gives s (refused stNOTCUST r.epoch)))) ∧
    (∀ (c : Conduit) (q : W32) (p : List Byte) cl, c.val = w → 32 ≤ p.length → s.quiet → s.twn.claim = some cl →
      (lat p 0 1 = 2 → s.twn.epoch < tEpoch p →
        (s.role = .regrowing → cl.reason = .regrow → (Instr.takeoverGrant c q p).gives s fun t =>
          t.twn.role = .paired ∧ t.twn.epoch = tEpoch p ∧ t.twn.claim = none ∧ t.twn.leaseUntil = none ∧ t.twn.tabled = [] ∧
          t.fd Fd.TWN_ERR_REGROW_DONE = 1 ∧ s.hbmBut (s.mbEntry 5) 64 t ∧ s.only [.csr, .twn, .trl, .hbm, .evc] t) ∧
        (s.role = .paired → cl.reason = .silence → s.pgt.descs = [] → s.cust.syncs = [] → s.tier.restores = [] →
          (s.trl.conduits.map Prod.fst).Nodup →
          (s.mbEntry 5 + 64 ≤ s.fd Fd.TWN_NOTIFY_BASE_ADDR ∨ s.fd Fd.TWN_NOTIFY_BASE_ADDR + 8192 ≤ s.mbEntry 5) →
          (Instr.takeoverGrant c q p).gives s fun t =>
            t.twn.role = .solo ∧ t.twn.epoch = tEpoch p ∧ t.twn.claim = none ∧ t.twn.leaseUntil = none ∧ t.twn.live = true ∧
            t.fd Fd.TRL_CTL_TWIN_RX = 1 ∧ t.fd Fd.TWN_ERR_TAKEOVER = 1 ∧
            t.fd Fd.TWN_TAKEOVERS_COUNT = min (s.fd Fd.TWN_TAKEOVERS_COUNT + 1) (2 ^ 64 - 1) ∧
            (∀ d ∈ s.notified, d < 65536 → s.sent d 0x23 (takeover 4 0 0 peer s.node (tEpoch p) s.twn.peerDomain) t) ∧
            t.pgt.seqs = s.pgt.seqs)) ∧
      (lat p 0 1 = 2 → tEpoch p ≤ s.twn.epoch → (Instr.takeoverGrant c q p).gives s fun t => t.twn = s.twn ∧ s.only [.trl] t) ∧
      (lat p 0 1 = 3 → s.role = .paired → s.ae.streams = [] → (Instr.takeoverRefuse c q p).gives s fun t =>
        t.twn.role = .fenced ∧ t.twn.claim = none ∧ t.fd Fd.TWN_ERR_FENCED = 1 ∧ t.pgt.ops = []) ∧
      (lat p 0 1 = 3 → s.role = .joining → (Instr.takeoverRefuse c q p).gives s fun t =>
        t.twn = { s.twn with
          claim := none
          joinFailed := true } ∧ t.fd Fd.TWN_ERR_WITNESS_FAIL = 1 ∧ s.only [.csr, .twn, .trl, .hbm, .evc] t)) ∧
    (∀ cl, s.twn.claim = some cl →
      let due := cl.at_ + s.fd Fd.TWN_WITNESS_TIMEOUT_US * 1000
      (s.nsec < due → Instr.claimTimeout.gives s fun t => s.only [] t) ∧
      (due ≤ s.nsec → cl.sends < 2 → s.flag Fd.TWN_WITNESS_VALID = true → s.sends w → Instr.claimTimeout.gives s fun t =>
        t.twn = { s.twn with claim := some { cl with
            sends := cl.sends + 1
            at_ := s.nsec } } ∧ s.sent w 0x23 (ask 1 (reasonCode cl.reason)) t ∧ s.only [.twn, .trl] t) ∧
      (due ≤ s.nsec → 2 ≤ cl.sends → s.role = .paired → s.ae.streams = [] → Instr.claimTimeout.gives s fun t =>
        t.twn.role = .fenced ∧ t.twn.claim = none ∧ t.fd Fd.TWN_ERR_WITNESS_FAIL = 1 ∧ t.fd Fd.TWN_ERR_FENCED = 1)) ∧
    (∀ (c : Conduit) (q : W32) (p : List Byte), 32 ≤ p.length → s.quiet →
      let seen := tget 0 s.twn.pairEpochs (tFailed p / 2)
      (lat p 0 1 = 4 → s.ae.streams = [] → s.tier.lent = [] → s.pgt.descs = [] →
        (seen < tEpoch p → (Instr.takeoverAnnounce c q p).gives s fun t =>
          tget 0 t.twn.pairEpochs (tFailed p / 2) = tEpoch p ∧ (tFailed p ≠ tServing p → t.servedBy (tFailed p) = tServing p) ∧
          t.servedBy (tServing p) = tServing p ∧ (∀ n, n ≠ tFailed p → n ≠ tServing p → t.servedBy n = s.servedBy n) ∧
          s.only [.twn, .trl] t) ∧
        (tEpoch p ≤ seen → (Instr.takeoverAnnounce c q p).gives s fun t => t.twn = s.twn ∧ s.only [.trl] t)) ∧
      (lat p 0 1 = 5 → c.val ≠ s.twinConduit →
        (seen < tEpoch p → (Instr.takeoverHandback c q p).gives s fun t =>
          tget 0 t.twn.pairEpochs (tFailed p / 2) = tEpoch p ∧ t.servedBy (tServing p) = tServing p ∧
          (∀ n, n ≠ tServing p → t.servedBy n = s.servedBy n) ∧ s.only [.twn, .trl] t) ∧
        (tEpoch p ≤ seen → (Instr.takeoverHandback c q p).gives s fun t => t.twn = s.twn ∧ s.only [.trl] t)) ∧
      (∀ k x, lat p 0 1 = 5 → c.val = s.twinConduit → tServing p = s.node → s.role = .paired → s.twn.epoch < tEpoch p →
        s.pgt.seqs = [(2 ^ 25 + k, x)] → k < 2 ^ 24 → x.pt = [] → (Instr.takeoverHandback c q p).gives s fun t =>
          t.twn.epoch = tEpoch p ∧ t.twn.role = .paired ∧ t.seq k = some x ∧ t.seq (2 ^ 25 + k) = none))

/-- R334, R335, R337, R339 to R343. -/
def Obligations.HandoffsRegrowthHealthAndChecks : Prop :=
  ∀ (s : State), s.inReset = false →
    let g := s.fd Fd.TWN_GOVERNOR_CONDUIT
    let ended := fun (t : State) (st : Nat) => t.fd Fd.TWN_CMD_RESULT = st ∧ t.fd Fd.TWN_CMD_BUSY = 0 ∧ s.regsBut [Reg.TWN_CMD] t
    (s.flag Fd.TWN_CMD_BUSY = false → ∀ v : Word,
      (bits v.toNat 2 0 = 1 →
        (s.role = .paired → (Instr.handoff v).gives s fun t =>
          t.twn = { s.twn with handoff := true } ∧ t.fd Fd.TWN_CMD_BUSY = 1 ∧ s.only [.csr, .twn] t ∧ s.regsBut [Reg.TWN_CMD] t) ∧
        (s.role ≠ .paired → (Instr.handoff v).gives s fun t => ended t stBOUNDS ∧ s.only [.csr] t)) ∧
      (bits v.toNat 2 0 = 2 →
        (s.role = .paired → s.twn.permitAt = none → s.flag Fd.TWN_GOVERNOR_VALID = true → s.sends g → (Instr.expelPeer v).gives s fun t =>
          t.twn = { s.twn with permitAt := some s.nsec } ∧ t.fd Fd.TWN_CMD_BUSY = 1 ∧
          s.sent g 0x23 (takeover 6 1 0 (s.node ^^^ 1) s.node s.twn.epoch s.twn.peerDomain) t ∧ s.only [.csr, .twn, .trl] t ∧
          s.regsBut [Reg.TWN_CMD] t) ∧
        (s.role ≠ .paired → (Instr.expelPeer v).gives s fun t => ended t stBOUNDS ∧ s.only [.csr] t)) ∧
      (bits v.toNat 2 0 = 3 →
        (s.role = .solo → s.twn.peerRole = .joining → (Instr.regrowStart v).gives s fun t =>
          t.twn = { s.twn with
            role := .regrowing
            tabled := []
            regrowAt := s.nsec
            regrow := (s.pgt.seqs.filter (fun p => !p.2.hidden && p.2.sstate != .freeing)).map (fun p => .table p.1) } ∧
          t.fd Fd.TWN_CMD_RESULT = stOK ∧ t.fd Fd.TWN_CMD_BUSY = 0 ∧ s.only [.csr, .twn] t ∧ s.regsBut [Reg.TWN_CMD, Reg.TWN_REGROW_LEFT] t) ∧
        (s.role ≠ .solo → (Instr.regrowStart v).gives s fun t => ended t stBOUNDS ∧ s.only [.csr] t)) ∧
      (bits v.toNat 2 0 = 5 →
        let kind := bits v.toNat 47 40
        let u := bits v.toNat 39 32
        (kind = 0 → u < 80 → s.engineQueue u = [] → (Instr.twnRelease v).gives s fun t =>
          t.fd (Fd.AE_STATUS_QUARANTINED u) = 0 ∧ t.fd Fd.TWN_CMD_RESULT = stOK ∧ (∀ k b w, tfind t.twn.windows (winKey k u b) = some w → k ∈ [2, 3, 4] → b < 8 → w.acted = false) ∧
          s.only [.csr, .twn] t) ∧
        (kind = 1 → u < 4 → (Instr.twnRelease v).gives s fun t =>
          t.fd (Fd.MRG_UNIT_STATUS_QUARANTINED u) = 0 ∧ t.fd Fd.TWN_CMD_RESULT = stOK ∧ s.only [.csr, .twn] t) ∧
        (kind = 2 → (Instr.twnRelease v).gives s fun t =>
          t.fd (Fd.HBM_CH_STATUS_WORN (u / 32) (u % 32)) = 0 ∧ u ∉ t.hb.worn ∧ t.fd Fd.TWN_CMD_RESULT = stOK ∧ s.only [.csr, .twn, .hb] t) ∧
        (2 < kind ∨ (kind = 0 ∧ 80 ≤ u) ∨ (kind = 1 ∧ 4 ≤ u) → (Instr.twnRelease v).gives s fun t => ended t stBOUNDS ∧ s.only [.csr] t)) ∧
      (bits v.toNat 2 0 = 6 → (Instr.clearSuspect v).gives s fun t =>
        t.twn = { s.twn with accuse := false } ∧ ended t stOK ∧ s.only [.csr, .twn] t)) ∧
    (s.twn.handoff = true → s.twn.drained = false → s.ae.streams = [] → (∀ o ∈ s.pgt.ops, o.phase = .waiting) → Instr.handoffDrained.gives s fun t =>
      t.twn = { s.twn with drained := true } ∧ ended t stOK ∧ s.only [.csr, .twn] t) ∧
    (∀ t0, s.twn.permitAt = some t0 → t0 + s.fd Fd.TWN_WITNESS_TIMEOUT_US * 1000 ≤ s.nsec → Instr.permitTimeout.gives s fun t =>
      t.twn = { s.twn with
        permitAt := none
        accuse := true } ∧ t.fd Fd.TWN_CMD_RESULT = stTIMEOUT ∧ t.fd Fd.TWN_CMD_BUSY = 0 ∧ t.fd Fd.TWN_ERR_GOV_REFUSED = 1 ∧
      s.hbmBut (s.mbEntry 5) 64 t ∧ s.only [.csr, .twn, .hbm, .evc] t) ∧
    (∀ (c : Conduit) (q : W32) (p : List Byte), 32 ≤ p.length → lat p 0 1 = 6 → s.sends c.val →
      let dom := lat p 16 2 % 1024
      let past := (tget [] s.twn.governor dom).filter (fun t => s.usec < t + max 1 (s.fd Fd.TWN_GOV_CTL_WINDOW_MIN) * 60000000)
      (s.fd Fd.TWN_GOV_CTL_BASE ≠ 0 → lat p 1 1 = 0 ∨ past.length < s.fd Fd.TWN_GOV_CTL_LIMIT → (Instr.takeoverPermit c q p).gives s fun t =>
        s.sent c.val 0x23 (takeover 7 (lat p 1 1) 0 (tFailed p) (tServing p) (tEpoch p) dom) t ∧
        t.twn = { s.twn with governor := tset s.twn.governor dom (past ++ [s.usec]) } ∧ s.only [.twn, .trl] t) ∧
      (s.fd Fd.TWN_GOV_CTL_BASE = 0 ∨ (lat p 1 1 ≠ 0 ∧ s.fd Fd.TWN_GOV_CTL_LIMIT ≤ past.length) → (Instr.takeoverPermit c q p).gives s fun t =>
        t.twn = s.twn ∧ t.trl.conduits = s.trl.conduits ∧ s.only [.trl] t)) ∧
    (∀ k x, s.role = .regrowing → s.twn.regrowAt ≤ s.nsec → s.twn.regrow = [.table k] → s.notTabled = [] → s.seq k = some x → x.cold = none →
      s.sends s.twinConduit → Instr.regrowMirrorSend.gives s fun t =>
        s.sent s.twinConduit 0x20 (s.mirrorHeader 8 x.handle 0 0 0 (2 ^ 63) ++ x.record (s.rootLoc k) ++ le 8 x.def0 ++ le 8 x.def1) t ∧
        t.twn = { s.twn with
          regrow := x.pt.map (fun e => .page k e.1)
          tabled := k :: s.twn.tabled
          regrowAt := s.nsec + 112 / max 1 (s.fd Fd.TWN_REGROW_RATE_GBPS) } ∧
        t.fd Fd.TWN_MIRRORS_COUNT = min (s.fd Fd.TWN_MIRRORS_COUNT + 1) (2 ^ 64 - 1) ∧ s.only [.csr, .twn, .trl] t) ∧
    (∀ ch : Fin 256, ch.val ∈ s.hb.worn →
      (s.calm 0 ch.val = true → (Instr.wornClear ch).gives s fun t =>
        t.hb.worn = s.hb.worn.filter (· != ch.val) ∧ t.fd (Fd.HBM_CH_STATUS_WORN (ch.val / 32) (ch.val % 32)) = 0 ∧ s.only [.csr, .twn, .hb] t) ∧
      (s.calm 0 ch.val = false → (Instr.wornClear ch).gives s fun t => s.only [] t)) ∧
    ((s.twn.healthAt + 100000 ≤ s.usec → Instr.healthCompute.gives s fun t =>
        t.fd Fd.TWN_HEALTH_SCORE = s.healthScore ∧ t.twn = { s.twn with healthAt := s.usec } ∧ s.only [.csr, .twn] t ∧ s.regsBut [Reg.TWN_HEALTH] t) ∧
      (s.usec < s.twn.healthAt + 100000 → Instr.healthCompute.gives s fun t => s.only [] t)) ∧
    (∀ v : Word,
      ((Instr.windowSnapshot v).gives s fun t =>
        t.fd Fd.TWN_WIN_COUNT_COUNT = min (2 ^ 32 - 1) (s.winCount (bits v.toNat 2 0) (bits v.toNat 15 8) (bits v.toNat 18 16)) ∧
        s.only [.csr] t ∧ s.regsBut [Reg.TWN_WIN_SEL, Reg.TWN_WIN_COUNT] t) ∧
      ((Instr.xlogSnapshot v).gives s fun t =>
        let b := match tfind s.twn.xlog (bits v.toNat 5 0) with | some x => x.bytes | none => zeros 32;
        (∀ k < 4, t.reg (Reg.TWN_XLOG_DATA0 + 8 * k) = lat b (8 * k) 8) ∧ t.fd Fd.TWN_XLOG_SEL_NEXT = s.fd Fd.TWN_XLOG_SEL_NEXT ∧ s.only [.csr] t)) ∧
    (∀ (i : Nat) x a b, s.stream i = some x → x.taken ≠ x.scanned.length → a.sampled = true → a.rerunOf = none → a.istate = .held →
      b.rerunOf = some 0 → b.istate = .held →
      let tol := s.fd Fd.TWN_XCHK_TOL_LOG2
      let merged := fun (t : State) (rs : List Rec) => t.ae.mergeQ = s.ae.mergeQ ++ rs.map (fun r => ⟨i, x.gen, r, none, false⟩)
      let finished := fun (t : State) (n : Nat) => ∀ k < n, (t.item i k).map (·.istate) = some .done
      (x.items = [a, b] → firstOdd tol a.heldRecs b.heldRecs = none → (Instr.xchkCompare i 0).gives s fun t =>
        merged t a.heldRecs ∧ finished t 2 ∧ (∀ j, j ≠ i → t.stream j = s.stream j) ∧ s.only [.ae] t) ∧
      (∀ c row e, x.items = [a, b, c] → c.rerunOf = some 0 → c.istate = .held → firstOdd tol a.heldRecs b.heldRecs = some row → b.engine = some e →
        e < 80 → s.fd (Fd.TWN_CLASS_LIMIT 4) = 0 → s.flag (Fd.AE_STATUS_QUARANTINED e) = false →
        (firstOdd tol a.heldRecs c.heldRecs = none → (Instr.xchkCompare i 0).gives s fun t =>
          merged t a.heldRecs ∧ finished t 3 ∧ t.fd (Fd.AE_ERR_CROSSCHK e) = 1 ∧
          (tfind t.twn.xlog s.twn.xnext).map (fun y => (y.engines[1]?, y.verdict, y.tag, y.row)) = some (some e, 2, x.tag, row) ∧
          t.twn.xnext = (s.twn.xnext + 1) % 64 ∧ s.hbmBut (s.mbEntry 2) 64 t ∧ s.only [.csr, .twn, .ae, .hbm, .evc] t)))

/-- R317 to R323, R335, R362. -/
def Obligations.MirrorsAtTheTwin : Prop :=
  (∀ (s : State) (c : Conduit) (q : W32) (p : List Byte), s.inReset = false → s.sends c.val → 32 ≤ p.length →
    let h := lat p 8 8
    let body := p.drop 32
    let layer := lat p 16 4 % 2 ^ 8
    let group := bits (lat p 16 4) 13 8
    let pos := lat p 20 4 % 2 ^ 20
    let mop := lat p 4 1
    let acked := fun (kind st : Nat) (tail : List Byte) (t : State) => s.sent c.val 0x21
      (le 4 s.twn.epoch ++ le 4 q.toNat ++ le 1 st ++ le 1 kind ++ le 2 0 ++ zeros 4 ++ le 8 h ++ le 8 (lat p 24 8) ++ tail) t
    let applied := fun (t : State) => acked 0 stOK [] t ∧ (hPart h ∈ t.twn.hotParts ↔ bits (lat p 5 1) 0 0 = 1)
    let ops := [(Instr.mirrorAppend c q p, 1), (.mirrorSeal c q p, 2), (.mirrorFork c q p, 3), (.mirrorTruncate c q p, 4),
      (.mirrorFree c q p, 5), (.mirrorPage c q p, 6), (.mirrorFetch c q p, 7), (.mirrorTable c q p, 8)]
    (c.val = s.twinConduit → s.role = .paired → s.twn.silentAt = none → lat p 0 4 = s.twn.epoch →
      (∀ k x, s.twinKeyOf h = some k → s.seq k = some x → x.sstate = .active →
        (mop = 1 → appendCheck x body = none → clsGroups x.def1 = 1 →
          let l := apLayer body
          let start := apStart body
          let n := apCount body
          ∀ d y, start % 16 + n < 16 → l < x.layerLen.length → tfind x.pt (ptKey l 0 (start / 16)) = some d → s.desc d = some y →
            y.loc.frame * 2048 + contentSize x.def0 ≤ hbmBytes →
            (∀ e ∈ x.pt, ∀ z, s.desc e.2 = some z → z.state = .tadpole →
              ((x.layerLen.set l (start + n))[keyLayer e.1]?).getD 0 < 16 * (keyPos e.1 + 1)) → (Instr.mirrorAppend c q p).gives s fun t =>
              (∀ i < n, ∀ w ∈ slotParts x.def0 (start % 16 + i), t.hbmRead (y.loc.frame * 2048 + w.1) w.2.1 =
                slice (slice body (apHead body + i * tokenBytes x.def0) (tokenBytes x.def0)) w.2.2 w.2.1) ∧
              s.hbmBut (y.loc.frame * 2048) (contentSize x.def0) t ∧ t.desc d = some { y with valid := start % 16 + n } ∧
              (t.seq k).map (·.layerLen) = some (x.layerLen.set l (start + n)) ∧ (∀ j, j ≠ k → t.seq j = s.seq j) ∧ applied t ∧
              s.only [.pgt, .twn, .trl, .hbm] t) ∧
        (mop = 1 → appendCheck x body = some stALREADY → (Instr.mirrorAppend c q p).gives s fun t =>
          (∀ j, t.seq j = s.seq j) ∧ t.pgt.descs = s.pgt.descs ∧ applied t ∧ s.only [.pgt, .twn, .trl] t) ∧
        (mop = 2 → (∀ e ∈ x.pt, ∀ z, s.desc e.2 = some z → z.state ≠ .tadpole) → (Instr.mirrorSeal c q p).gives s fun t =>
          t.seq k = some { x with closed := true } ∧ (∀ j, j ≠ k → t.seq j = s.seq j) ∧ applied t ∧ s.only [.pgt, .twn, .trl] t) ∧
        (mop = 4 → trT body % 16 = 0 → (Instr.mirrorTruncate c q p).gives s fun t =>
          (∃ x', t.seq k = some x' ∧ x'.layerLen = x.layerLen.map (fun _ => trT body) ∧ x'.closed = false ∧
            x'.pt = x.pt.filter fun e => decide (16 * keyPos e.1 < trT body)) ∧ (∀ j, j ≠ k → t.seq j = s.seq j) ∧ applied t ∧
          s.only [.pgt, .twn, .trl] t) ∧
        (mop = 5 → x.cold = none → (∀ y ∈ s.pgt.seqChunks, ∃ e ∈ s.pgt.seqs, e.1 ≠ k ∧ y.1 ∈ e.2.chunks e.1) → (Instr.mirrorFree c q p).gives s fun t =>
          t.seq k = none ∧ (∀ j, j ≠ k → t.seq j = s.seq j) ∧ (∀ o ∈ t.twn.orphans, o.1 ≠ k) ∧ applied t ∧ s.only [.pgt, .twn, .trl] t) ∧
        (mop = 6 → 2 ^ 63 ≤ lat p 24 8 → body.length = contentSize x.def0 → layer < clsLayers x.def1 → group < clsGroups x.def1 →
          x.closed = false →
          let v := min 16 (lat p 24 8 % 2 ^ 63)
          let lens := if x.len layer < 16 * pos + v then x.layerLen.set layer (16 * pos + v) else x.layerLen
          ∀ d y, tfind x.pt (ptKey layer group pos) = some d → s.desc d = some y → y.state = .tadpole →
            y.loc.frame * 2048 + body.length ≤ hbmBytes →
            (∀ e ∈ x.pt, ∀ z, s.desc e.2 = some z → z.state = .tadpole → (lens[keyLayer e.1]?).getD 0 < 16 * (keyPos e.1 + 1)) →
            (Instr.mirrorPage c q p).gives s fun t =>
              t.hbmRead (y.loc.frame * 2048) body.length = body ∧ s.hbmBut (y.loc.frame * 2048) body.length t ∧
              t.desc d = some { y with valid := v } ∧ t.seq k = some { x with layerLen := lens } ∧ applied t ∧ s.only [.pgt, .twn, .trl, .hbm] t)) ∧
      (mop = 3 → lat body 0 8 = 0 →
        let cls := lat body 12 1
        (clsValid (s.def0 cls) = true → s.tablesOf (s.newTwinKey h) = [] → s.takeHbmRaw 2 2 (fun _ => true) = none →
          (Instr.mirrorFork c q p).gives s fun t => s.answered c.val q.toNat stQUOTA [] t ∧ s.only [.twn, .trl] t) ∧
        (clsValid (s.def0 cls) = true → (s.takeHbmRaw 2 2 (fun _ => true)).isSome = true → (Instr.mirrorFork c q p).gives s fun t =>
          t.seq (s.newTwinKey h) = some (newSeq h cls (s.def0 cls) (s.def1 cls) 0 s.usec false) ∧ (∀ j, j ≠ s.newTwinKey h → t.seq j = s.seq j) ∧
          (s.newTwinKey h, s.usec) ∈ t.twn.forked ∧
          (hHome h = s.node ^^^ 1 → tfind s.cust.records (twinKey (hIndex h)) = none → hHome h ≠ s.node →
            tfind t.cust.records (twinKey (hIndex h)) = some ⟨h, 1, hHome h, .held, 0, 0, 0, 0, hHome h⟩) ∧
          applied t ∧ s.only [.pgt, .cust, .twn, .trl, .tier, .free] t) ∧
        (clsValid (s.def0 cls) = false → (Instr.mirrorFork c q p).gives s fun t => s.answered c.val q.toNat stBOUNDS [] t ∧ s.only [.twn, .trl] t)) ∧
      (mop = 7 →
        (∀ b, s.fetched h layer group pos = some b → (Instr.mirrorFetch c q p).gives s fun t => acked 2 stOK b t ∧ s.only [.trl] t) ∧
        (s.fetched h layer group pos = none → (Instr.mirrorFetch c q p).gives s fun t => acked 2 stLOST [] t ∧ s.only [.trl] t)) ∧
      (mop = 8 → 80 ≤ body.length → s.twinKeyOf h = none → s.seq (s.newTwinKey h) = none →
        (s.takeHbmRaw 2 2 (fun _ => true)).isSome = true → (Instr.mirrorTable c q p).gives s fun t =>
        (∃ x, t.seq (s.newTwinKey h) = some x ∧ x.handle = h ∧ x.cls = lat body 8 1 ∧ x.def0 = lat body 64 8 ∧ x.def1 = lat body 72 8 ∧
          x.layerLen = List.replicate (clsLayers (lat body 72 8)) (lat body 12 4 % 2 ^ 25) ∧ x.custodyEpoch = lat body 28 4 ∧
          x.closed = (lat body 9 1 / 4 % 2 == 1) ∧ x.pt = []) ∧
        (∀ j, j ≠ s.newTwinKey h → t.seq j = s.seq j) ∧ applied t ∧ s.only [.pgt, .cust, .twn, .trl, .tier, .free] t) ∧
      (s.twinKeyOf h = none → ∀ i ∈ ops, i.2 = mop → i.2 ∈ [1, 2, 4, 5, 6] → i.1.gives s fun t =>
        s.answered c.val q.toNat stBOUNDS [] t ∧ s.only [.twn, .trl] t)) ∧
    (∀ i ∈ ops, i.2 = mop →
      (c.val ≠ s.twinConduit → i.1.gives s fun t => s.answered c.val q.toNat stBOUNDS [] t ∧ s.only [.trl] t) ∧
      (c.val = s.twinConduit → s.role ≠ .down → lat p 0 4 < s.twn.epoch ∨ (s.role = .solo ∧ lat p 0 4 = s.twn.epoch) → i.1.gives s fun t =>
        s.answered c.val q.toNat stNOTCUST (le 4 s.twn.epoch ++ zeros 4) t ∧ s.only [.trl] t))) ∧
  (∀ (s : State) (c : Conduit) (q : W32) (p : List Byte), s.inReset = false → s.quiet → c.val = s.twinConduit → 32 ≤ p.length →
    lat p 0 4 = s.twn.epoch →
    let heard := fun (t : State) => t.trl.conduits = s.trl.conduits ∧ t.trl.awaiting = if lat p 4 4 = 0 then s.trl.awaiting else
      s.trl.awaiting.filter (fun a => !(a.conduit == c.val && a.msgseq == lat p 4 4))
    (∀ k x, s.ownKey (lat p 16 8) = some k → s.seq k = some x →
      (lat p 9 1 = 0 → lat p 8 1 = stOK →
        (∀ e ∈ ackEntries p, ∀ d y, tfind x.pt e.1 = some d → s.desc d = some y → s.homeCrc y = e.2) → (Instr.mirrorAckApplied c q p).gives s fun t =>
          (∀ e ∈ x.pt, ∀ y, s.desc e.2 = some y → t.desc e.2 = some { y with mirror := if y.mirror = .none then .staged else y.mirror }) ∧
          (∀ d, d ∉ x.pt.map Prod.snd → t.desc d = s.desc d) ∧ heard t ∧ s.only [.pgt, .trl] t) ∧
      (lat p 9 1 = 1 → (Instr.mirrorAckFlushed c q p).gives s fun t =>
          (∀ e ∈ ackEntries p, ∀ d y, tfind x.pt e.1 = some d → s.desc d = some y →
            t.desc d = some { y with mirror := if bits (s.fd Fd.TWN_CTL_HOT_MASK) y.part y.part = 1 then .hot else .flashed }) ∧
          (∀ d, (∀ e ∈ ackEntries p, tfind x.pt e.1 ≠ some d) → t.desc d = s.desc d) ∧ heard t ∧ s.only [.pgt, .trl] t)) ∧
    (∀ y, lat p 9 1 = 2 →
      let d := lat p 24 8
      let b := p.drop 32
      s.desc d = some y → y.state = .poisoned → s.tier.restores.any (fun r => r.desc == d) = true → s.ae.streams = [] →
      (lat p 8 1 ≠ stOK → (Instr.mirrorAckContent c q p).gives s fun t =>
        t.desc d = some { y with lost := true } ∧ t.tier.restores = s.tier.restores.filter (fun r => r.desc != d) ∧ heard t ∧
        s.only [.pgt, .tier, .trl] t) ∧
      (lat p 8 1 = stOK → b.length = contentSize y.def0 → (y.wasSealed = true → crc32c b = y.crc.toNat) → y.loc.tier = .hbm →
        s.chanUsable (chanOf (y.loc.frame * 2048)) = true → y.loc.frame * 2048 + b.length ≤ hbmBytes → (Instr.mirrorAckContent c q p).gives s fun t =>
          t.hbmRead (y.loc.frame * 2048) b.length = b ∧ s.hbmBut (y.loc.frame * 2048) b.length t ∧
          (t.desc d).map (fun z => (z.state, z.loc, z.lost)) = some (restoredState y, y.loc, false) ∧
          t.tier.restores = s.tier.restores.filter (fun r => r.desc != d) ∧ heard t ∧ s.only [.pgt, .tier, .trl, .hbm] t))) ∧
  (∀ (s : State) (idx i due : Nat) x, s.inReset = false → s.quiet → s.alone → s.twn.orphans.find? (fun o => o.1 == idx) = some (i, due) →
    s.seq idx = some x →
    (s.usec < due → (Instr.orphanFree idx).gives s fun t => s.only [] t) ∧
    (due ≤ s.usec → x.cold = none → hHome x.handle = s.node →
      (∀ y ∈ s.pgt.seqChunks, ∃ e ∈ s.pgt.seqs, e.1 ≠ idx ∧ y.1 ∈ e.2.chunks e.1) → (Instr.orphanFree idx).gives s fun t =>
      t.seq idx = none ∧ (∀ j, j ≠ idx → t.seq j = s.seq j) ∧ (∀ o ∈ t.twn.orphans, o.1 ≠ idx) ∧
      tfind t.cust.records (hIndex x.handle) = none ∧ s.only [.pgt, .cust, .twn] t))

/-- R351 to R358, R405, R464; a member that mirrors nothing. -/
def Obligations.TransfersOfCustody : Prop :=
  (∀ (s : State) (c : Conduit) (q : W32) (p : List Byte), s.inReset = false → s.quiet → s.alone → s.cust.syncs = [] → s.sends c.val → 32 ≤ p.length →
    let h := cHandle p
    let n := s.peerOf c.val
    let from_ := fun (x : Nat) => x = n ∨ x = n ^^^ 1
    let a := fun (off : Nat) => s.fd Fd.TRL_RXBUF_ADDR + off
    let within := fun (ps : List Part) (off : Nat) (t : State) =>
      t.fd (Fd.EVC_MB_IDX_PI 1) = (s.fd (Fd.EVC_MB_IDX_PI 1) + 1) % 2 ^ 32 ∧
      t.trl.holds = s.trl.holds ++ [⟨1, s.fd (Fd.EVC_MB_IDX_PI 1), c.val, off, max 1 p.length⟩] ∧
      (a off + p.length ≤ hbmBytes → s.mbEntry 1 + 64 ≤ a off ∨ a off + p.length ≤ s.mbEntry 1 → t.hbmRead (a off) p.length = p) ∧
      (∀ b, b < a off ∨ a off + p.length ≤ b → b < s.mbEntry 1 ∨ s.mbEntry 1 + 64 ≤ b → byteOf t.hbm b = byteOf s.hbm b) ∧
      s.only ([.csr, .hbm, .evc, .trl, .cust, .pgt, .twn, .free] ++ ps) t ∧ s.regsBut [Reg.EVC_MB_IDX 1] t
    let given := within []
    let tells := fun (node kind epoch source target mapEpoch : Nat) (t : State) =>
      ∀ d, s.isSelf node = false → s.conduitTo node (hPart h) = some d → s.sends d →
        s.sent d 0x24 (custPayload kind 0 epoch h source target mapEpoch []) t
    (s.mbRoom 1 = false → ∀ i ∈ [(Instr.custodyPrepare c q p, 1), (.custodyHandover c q p, 2), (.custodyAccept c q p, 3),
      (.custodyCommit c q p, 4), (.custodyRevert c q p, 5), (.custodyCancel c q p, 6), (.custodyAsk c q p, 7), (.custodySync c q p, 8),
      (.custodyRelease c q p, 9), (.custodyInfo c q p, 10)], cKind p = i.2 → i.1.gives s fun t =>
        s.answered c.val q.toNat stBUSY [] t ∧ t.fd Fd.EVC_MB_DROPS_COUNT = min (s.fd Fd.EVC_MB_DROPS_COUNT + 1) (2 ^ 64 - 1) ∧
        s.only [.csr, .trl] t) ∧
    (∀ off, s.mbRoom 1 = true → s.rxRoom (max 1 p.length) = some off →
      (s.cust.transfers = [] →
        (∀ k r, s.recKey h = some k → tfind s.cust.records k = some r → r.handle = h →
          (cKind p = 1 → from_ (cSource p) → s.isSelf (cSource p) = false → 0 < lat p 2 2 → lat p 2 2 ≤ 60000 →
            (r.cstate = .held → r.holder = cSource p → r.epoch = cEpoch p → (Instr.custodyPrepare c q p).gives s fun t =>
              tfind t.cust.records k = some { r with
                cstate := .transfer
                target := cTarget p
                epoch := (r.epoch + 1) % 2 ^ 32
                deadline := (s.usec + lat p 2 2 * 1000) % 2 ^ 32
                source := cSource p } ∧ s.answered c.val q.toNat stOK [] t ∧ given off t) ∧
            (r.cstate = .transfer → (Instr.custodyPrepare c q p).gives s fun t =>
              s.answered c.val q.toNat stBUSY [] t ∧ t.cust = s.cust ∧ given off t) ∧
            (r.cstate = .held → r.epoch ≠ cEpoch p → (Instr.custodyPrepare c q p).gives s fun t =>
              s.answered c.val q.toNat stNOTCUST [] t ∧ t.cust = s.cust ∧ given off t)) ∧
          (r.cstate = .transfer → r.epoch = cEpoch p → s.due32 r.deadline = false → s.isSelf r.source = true →
            (cKind p = 3 → from_ (cTarget p) → (Instr.custodyAccept c q p).gives s fun t =>
              tfind t.cust.records k = some { r with
                cstate := .held
                holder := r.target
                movedAt := s.usec % 2 ^ 32
                mapEpoch := cMapEpoch p } ∧ tells r.target 4 r.epoch r.source r.target (cMapEpoch p) t ∧ given off t) ∧
            (cKind p = 6 → from_ (cSource p) → (Instr.custodyCancel c q p).gives s fun t =>
              tfind t.cust.records k = some { r with
                cstate := .held
                holder := r.source
                epoch := (r.epoch + 1) % 2 ^ 32 } ∧ tells r.target 5 ((r.epoch + 1) % 2 ^ 32) r.source r.target r.mapEpoch t ∧ given off t)) ∧
          (r.cstate = .transfer → r.epoch ≠ cEpoch p ∨ s.due32 r.deadline = true → cKind p = 3 → from_ (cTarget p) →
            (Instr.custodyAccept c q p).gives s fun t => s.answered c.val q.toNat stNOTCUST [] t ∧ t.cust = s.cust ∧ given off t) ∧
          (cKind p = 7 → from_ (cSource p) ∨ from_ (cTarget p) → (Instr.custodyAsk c q p).gives s fun t =>
            s.answered c.val q.toNat stOK r.bytes t ∧ t.cust = s.cust ∧ given off t) ∧
          (cKind p = 9 → from_ (cSource p) → r.cstate ≠ .transfer → r.holder = cSource p → (Instr.custodyRelease c q p).gives s fun t =>
            tfind t.cust.records k = none ∧ (∀ j, j ≠ k → tfind t.cust.records j = tfind s.cust.records j) ∧
            s.answered c.val q.toNat stOK [] t ∧ given off t)) ∧
        (∀ k, s.recKey h = some k → tfind s.cust.records k = none → cKind p = 9 → from_ (cSource p) → (Instr.custodyRelease c q p).gives s fun t =>
          s.answered c.val q.toNat stALREADY [] t ∧ t.cust = s.cust ∧ given off t) ∧
        (¬ from_ (cSource p) → cKind p = 1 → (Instr.custodyPrepare c q p).gives s fun t =>
          s.answered c.val q.toNat stBOUNDS [] t ∧ t.cust = s.cust ∧ given off t) ∧
        (let b := p.drop 32
         let cnt := lat b 20 2
         ∀ i, cKind p = 2 → from_ (cSource p) → b.length = 48 + 2 * cnt → 0 < cnt → s.isSelf (cTarget p) = true → tfind s.cust.inbound h = none →
          s.seqRoom (hPart h) = (0, i) → s.isSelf (hHome h) = false →
          (s.takeSeqChunks ((newSeq h 0 (lat b 0 8) (lat b 8 8) 0 s.usec true).chunks i)).isSome = true → (Instr.custodyHandover c q p).gives s fun t =>
            (∃ tr, t.cust.transfers = [tr] ∧ tr.handle = h ∧ tr.seq = i ∧ tr.epoch = cEpoch p ∧ tr.source = cSource p ∧ tr.phase = .pulling ∧
              tr.lender = lat b 16 4 % 2 ^ 20 ∧ tr.exts.length = cnt ∧ tr.frame = lat b 24 8 ∧ tr.bytes = lat b 32 4 ∧ tr.crc = lat b 40 8) ∧
            (t.seq i).map (fun x => (x.handle, x.hidden, x.custodyEpoch)) = some (h, true, cEpoch p) ∧ s.answered c.val q.toNat stOK [] t ∧
            within [.tier] off t) ∧
        (let r := custRecOf (p.drop 32)
         cKind p = 8 → from_ (s.node ^^^ 1) → c.val = s.twinConduit → p.length = 64 → hHome r.handle = s.node →
          (r.cstate ≠ .freeing → (Instr.custodySync c q p).gives s fun t =>
            tfind t.cust.records (hIndex r.handle) = some r ∧ s.answered c.val q.toNat stOK [] t ∧ given off t) ∧
          (r.cstate = .freeing → (Instr.custodySync c q p).gives s fun t =>
            tfind t.cust.records (hIndex r.handle) = none ∧ s.answered c.val q.toNat stOK [] t ∧ given off t)) ∧
        (∀ k x, cKind p = 10 → s.takes c.val h k x → (Instr.custodyInfo c q p).gives s fun t =>
          s.answered c.val q.toNat stOK (x.body x.handle x.length) t ∧ t.seq k = some { x with lastUse := s.usec } ∧
          (∀ j, j ≠ k → t.seq j = s.seq j) ∧ t.cust = s.cust ∧ given off t)) ∧
      (∀ tr x, s.cust.transfers = [tr] → tr.handle = h → s.seq tr.seq = some x → from_ (hHome h) →
        (cKind p = 4 → tr.epoch = cEpoch p → tr.phase = .accepted → (Instr.custodyCommit c q p).gives s fun t =>
          t.cust.transfers = [] ∧ t.seq tr.seq = some { x with hidden := false } ∧ given off t) ∧
        (cKind p = 5 → serialLt 32 tr.epoch (cEpoch p) = true → tr.phase = .handed → (Instr.custodyRevert c q p).gives s fun t =>
          t.cust.transfers = [] ∧ t.seq tr.seq = some { x with custodyEpoch := (tr.epoch + 1) % 2 ^ 32 } ∧ tr.seq ∉ t.cust.quiesced ∧
          given off t)))) ∧
  (∀ (s : State) (idx : Nat), s.inReset = false → s.quiet → s.alone → s.cust.syncs = [] →
    (∀ r, s.cust.transfers = [] → tfind s.cust.records idx = some r → r.cstate = .transfer →
      (s.due32 r.deadline = true → (Instr.custodyDeadline idx).gives s fun t =>
        tfind t.cust.records idx = some { r with
          cstate := .held
          holder := r.source
          epoch := (r.epoch + 1) % 2 ^ 32 } ∧
        (∀ d, s.isSelf r.source = true → s.isSelf r.target = false → s.conduitTo r.target (hPart r.handle) = some d → s.sends d →
          s.sent d 0x24 (custPayload 5 0 ((r.epoch + 1) % 2 ^ 32) r.handle r.source r.target r.mapEpoch []) t) ∧ s.only [.cust, .trl] t) ∧
      (s.due32 r.deadline = false → (Instr.custodyDeadline idx).gives s fun t => s.only [] t)) ∧
    (∀ tr d, s.cust.transfers = [tr] → tr.seq = idx → tr.phase = .handed → tr.askedAt + 1000 ≤ s.usec → s.isSelf tr.home = false →
      s.conduitTo tr.home (hPart tr.handle) = some d → s.sends d → (Instr.custodyAskTimer idx).gives s fun t =>
        s.sent d 0x24 (custPayload 7 0 tr.epoch tr.handle tr.source tr.target tr.mapEpoch []) t ∧
        t.cust = { s.cust with transfers := [{ tr with askedAt := s.usec }] } ∧ s.only [.cust, .trl] t))
end

