-- ==== Sys2Proof/Laws/Crypto.lean ====
section
/-! SUPPORT. GCM: an AES block is 16 bytes, and what was sealed opens to what it was. -/

namespace Sys2Proof.Machine

theorem le_length (n : Nat) : ∀ v, (le n v).length = n := by
  induction n with
  | zero => intro v; rfl
  | succ n ih => intro v; simp [le, ih]

theorem be_length (n v : Nat) : (be n v).length = n := by simp [be, le_length]

/-- Groups of a list of n * k elements have n elements each, all of them the list's. -/
theorem groups_spec {α : Type} (n : Nat) : ∀ (k : Nat) (l : List α), l.length = n * k →
    ∀ g ∈ groups n k l, g.length = n ∧ ∀ x ∈ g, x ∈ l := by
  intro k
  induction k with
  | zero => intro l _ g hg; cases hg
  | succ k ih =>
    intro l hl g hg
    have hl' : l.length = n * k + n := by rw [hl, Nat.mul_succ]
    rcases List.mem_cons.mp hg with rfl | h
    · exact ⟨by rw [List.length_take, hl']; omega, fun x hx => List.mem_of_mem_take hx⟩
    · obtain ⟨h1, h2⟩ := ih (l.drop n) (by rw [List.length_drop, hl']; omega) g h
      exact ⟨h1, fun x hx => List.mem_of_mem_drop (h2 x hx)⟩

theorem groups_length {α : Type} (n : Nat) : ∀ (k : Nat) (l : List α), (groups n k l).length = k := by
  intro k
  induction k with
  | zero => intro l; rfl
  | succ k ih => intro l; simp [groups, ih]

/-- Four-byte words stay four-byte words. -/
theorem keyWord_length (i rcon : Nat) (ws : List (List Nat)) (h8 : 8 ≤ ws.length) (h : ∀ w ∈ ws, w.length = 4) :
    (keyWord i rcon ws).length = 4 := by
  have h0 : ((ws[0]?).getD []).length = 4 := by
    rw [List.getElem?_eq_getElem (by omega), Option.getD_some]; exact h _ (List.getElem_mem _)
  have h7 : ((ws[7]?).getD []).length = 4 := by
    rw [List.getElem?_eq_getElem (by omega), Option.getD_some]; exact h _ (List.getElem_mem _)
  obtain ⟨a, b, c, d, hp⟩ : ∃ a b c d, (ws[0]?).getD [] = [a, b, c, d] := by
    match (ws[0]?).getD [], h0 with
    | [a, b, c, d], _ => exact ⟨a, b, c, d, rfl⟩
  simp only [keyWord, hp]
  rw [List.length_zipWith, h7]
  split
  · simp [subBytes]
  · split <;> simp [subBytes]

theorem keyWords_spec : ∀ (n i rcon : Nat) (ws : List (List Nat)), 8 ≤ ws.length → (∀ w ∈ ws, w.length = 4) →
    (keyWords n i rcon ws).length = ws.length + n ∧ ∀ w ∈ keyWords n i rcon ws, w.length = 4 := by
  intro n
  induction n with
  | zero => intro i rcon ws _ h; exact ⟨rfl, h⟩
  | succ n ih =>
    intro i rcon ws h8 h
    obtain ⟨h1, h2⟩ := ih (i + 1) (if i % 8 = 0 then xtime rcon else rcon) (keyWord i rcon ws :: ws) (by simp; omega) (by
      intro w hw
      rcases List.mem_cons.mp hw with rfl | hw
      · exact keyWord_length _ _ _ h8 h
      · exact h w hw)
    exact ⟨by rw [keyWords, h1, List.length_cons]; omega, h2⟩

/-- 15 round keys of 16 bytes. -/
theorem roundKeys_spec (key : List Byte) (hk : key.length = 32) :
    (roundKeys key).length = 15 ∧ ∀ k ∈ roundKeys key, k.length = 16 := by
  have h8 : 8 ≤ (groups 4 8 (key.map BitVec.toNat)).reverse.length := by simp [groups_length]
  obtain ⟨h1, h2⟩ := keyWords_spec 52 8 1 (groups 4 8 (key.map BitVec.toNat)).reverse h8 (by
    intro w hw
    exact (groups_spec 4 8 (key.map BitVec.toNat) (by simp [hk]) w (List.mem_reverse.mp hw)).1)
  refine ⟨by simp [roundKeys, groups_length], fun k hkm => ?_⟩
  obtain ⟨g, hg, rfl⟩ := List.mem_map.mp hkm
  obtain ⟨h3, h4⟩ := groups_spec 4 15 _ (by rw [List.length_reverse, h1]; simp [groups_length]) g hg
  obtain ⟨a, b, c, d, rfl⟩ : ∃ a b c d, g = [a, b, c, d] := by
    match g, h3 with
    | [a, b, c, d], _ => exact ⟨a, b, c, d, rfl⟩
  have hw : ∀ x ∈ [a, b, c, d], x.length = 4 := fun x hx => h2 x (List.mem_reverse.mp (h4 x hx))
  simp [hw a (by simp), hw b (by simp), hw c (by simp), hw d (by simp)]

theorem shiftRows_length (l : List Nat) : (shiftRows l).length = 16 := by simp [shiftRows]

theorem mixColumns_length (l : List Nat) (h : l.length = 16) : (mixColumns l).length = 16 := by
  match l, h with
  | [_, _, _, _, _, _, _, _, _, _, _, _, _, _, _, _], _ => rfl

theorem aesRounds_length : ∀ (ks : List (List Nat)) (st : List Nat), (∀ k ∈ ks, k.length = 16) → st.length = 16 →
    (aesRounds ks st).length = 16 := by
  intro ks
  induction ks with
  | nil => intro st _ h; exact h
  | cons k ks ih =>
    intro st h hs
    have hk := h k (by simp)
    cases ks with
    | nil => simp [aesRounds, shiftRows_length, hk]
    | cons k2 ks =>
      exact ih _ (fun x hx => h x (List.mem_cons_of_mem _ hx)) (by
        simp [mixColumns_length _ (shiftRows_length _), hk])

theorem aesBlock_length (key blk : List Byte) (hk : key.length = 32) (hb : blk.length = 16) :
    (aesBlock (roundKeys key) blk).length = 16 := by
  obtain ⟨h1, h2⟩ := roundKeys_spec key hk
  match hr : roundKeys key, h1, h2 with
  | k :: ks, _, h2 =>
    rw [aesBlock, List.length_map]
    exact aesRounds_length _ _ (fun x hx => h2 x (List.mem_cons_of_mem _ hx)) (by
      rw [List.length_zipWith, List.length_map, hb, h2 k (by simp)]; rfl)

theorem ctrStream_length (key nonce : List Byte) (hk : key.length = 32) (hn : nonce.length = 12) :
    ∀ n ctr, (ctrStream (roundKeys key) nonce n ctr).length = 16 * n := by
  intro n
  induction n with
  | zero => intro ctr; rfl
  | succ n ih =>
    intro ctr
    rw [ctrStream, List.length_append, ih, aesBlock_length _ _ hk (by simp [be_length, hn])]; omega

theorem gcmTag_length (key nonce aad ct : List Byte) (hk : key.length = 32) (hn : nonce.length = 12) :
    (gcmTag (roundKeys key) nonce aad ct).length = 16 := by
  simp only [gcmTag, xorBytes]
  rw [List.length_zipWith, be_length, aesBlock_length _ _ hk (by simp [be_length, hn])]; rfl

theorem xorBytes_xorBytes : ∀ (a b : List Byte), a.length ≤ b.length → xorBytes (xorBytes a b) b = a := by
  intro a
  induction a with
  | nil => intro b _; rfl
  | cons x a ih =>
    intro b h
    match b, h with
    | y :: b, h =>
      have := ih b (by simpa using h)
      simp only [xorBytes, List.zipWith_cons_cons] at this ⊢
      rw [this]
      rw [BitVec.xor_assoc, BitVec.xor_self, BitVec.xor_zero]

theorem le_ceilDiv_mul (n : Nat) : n ≤ 16 * ceilDiv n 16 := by simp only [ceilDiv]; omega

theorem gcmSeal_length (key nonce aad pt : List Byte) (hk : key.length = 32) (hn : nonce.length = 12) :
    (gcmSeal key nonce aad pt).length = pt.length + 16 := by
  simp only [gcmSeal, List.length_append, gcmTag_length _ _ _ _ hk hn, xorBytes, List.length_zipWith,
    ctrStream_length _ _ hk hn]
  have := le_ceilDiv_mul pt.length
  omega

/-- A cipher text with its tag opens. -/
theorem gcmOpen_append (key nonce aad ct tag : List Byte) (h16 : tag.length = 16)
    (ht : gcmTag (roundKeys key) nonce aad ct = tag) :
    gcmOpen key nonce aad (ct ++ tag) = some (xorBytes ct (ctrStream (roundKeys key) nonce (ceilDiv ct.length 16) 2)) := by
  have h1 : (ct ++ tag).length - 16 = ct.length := by rw [List.length_append, h16]; rfl
  have h2 : ¬ (ct ++ tag).length < 16 := by rw [List.length_append, h16]; omega
  have h3 : (ct ++ tag).take ct.length = ct := List.take_left
  have h4 : (ct ++ tag).drop ct.length = tag := List.drop_left
  unfold gcmOpen
  rw [if_neg h2, h1, h3, h4]
  exact if_pos ht

/-- What was sealed opens, under the same key, nonce and additional data, to what it was. -/
theorem gcmOpen_gcmSeal (key nonce aad pt : List Byte) (hk : key.length = 32) (hn : nonce.length = 12) :
    gcmOpen key nonce aad (gcmSeal key nonce aad pt) = some pt := by
  have hlen : (xorBytes pt (ctrStream (roundKeys key) nonce (ceilDiv pt.length 16) 2)).length = pt.length := by
    rw [xorBytes, List.length_zipWith, ctrStream_length _ _ hk hn]
    exact Nat.min_eq_left (le_ceilDiv_mul _)
  unfold gcmSeal
  rw [gcmOpen_append _ _ _ _ _ (gcmTag_length _ _ _ _ hk hn) rfl, hlen,
    xorBytes_xorBytes _ _ (by rw [ctrStream_length _ _ hk hn]; exact le_ceilDiv_mul _)]

end Sys2Proof.Machine
end

