-- ==== Sys2Proof/Laws/Tbl.lean ====
section
/-! SUPPORT. Sparse tables: what an update reads back as, and that it keeps the canonical form. -/

namespace Sys2Proof.Machine

variable {α : Type}

@[simp] theorem tfind_nil (a : Nat) : tfind ([] : Tbl α) a = none := rfl
@[simp] theorem tget_nil (d : α) (a : Nat) : tget d ([] : Tbl α) a = d := rfl

/-! ## Reading after an update -/

@[simp] theorem tfind_tset_same (t : Tbl α) (a : Nat) (x : α) : tfind (tset t a x) a = some x := by
  induction t with
  | nil => simp [tset, tfind]
  | cons p t ih =>
    obtain ⟨k, v⟩ := p
    by_cases h : k = a
    · simp [tset, tfind, h]
    · by_cases h2 : a < k <;> simp [tset, tfind, h, h2, ih]

theorem tfind_tset_ne (t : Tbl α) {a b : Nat} (x : α) (h : b ≠ a) : tfind (tset t a x) b = tfind t b := by
  induction t with
  | nil => simp [tset, tfind, h.symm]
  | cons p t ih =>
    obtain ⟨k, v⟩ := p
    by_cases h1 : k = a
    · subst h1; simp [tset, tfind, h.symm]
    · by_cases h2 : a < k
      · simp [tset, tfind, h1, h2, h.symm]
      · simp [tset, tfind, h1, h2, ih]

@[simp] theorem tfind_tdel_same (t : Tbl α) (a : Nat) : tfind (tdel t a) a = none := by
  induction t with
  | nil => rfl
  | cons p t ih =>
    obtain ⟨k, v⟩ := p
    by_cases h : k = a
    · simpa [tdel, h] using ih
    · simpa [tdel, tfind, h] using ih

theorem tfind_tdel_ne (t : Tbl α) {a b : Nat} (h : b ≠ a) : tfind (tdel t a) b = tfind t b := by
  induction t with
  | nil => rfl
  | cons p t ih =>
    obtain ⟨k, v⟩ := p
    by_cases h1 : k = a
    · subst h1; simpa [tdel, tfind, h.symm] using ih
    · by_cases h2 : k = b
      · simp [tdel, tfind, h2, h]
      · simpa [tdel, tfind, h1, h2] using ih

section
variable [DecidableEq α]

@[simp] theorem tget_tput_same (d : α) (t : Tbl α) (a : Nat) (x : α) : tget d (tput d t a x) a = x := by
  by_cases h : x = d <;> simp [tget, tput, h]

theorem tget_tput_ne (d : α) (t : Tbl α) {a b : Nat} (x : α) (h : b ≠ a) : tget d (tput d t a x) b = tget d t b := by
  by_cases hx : x = d <;> simp [tget, tput, hx, tfind_tset_ne, tfind_tdel_ne, h]

theorem tfind_tput_ne (d : α) (t : Tbl α) {a b : Nat} (x : α) (h : b ≠ a) : tfind (tput d t a x) b = tfind t b := by
  by_cases hx : x = d <;> simp [tput, hx, tfind_tset_ne, tfind_tdel_ne, h]

end

/-! ## The canonical form -/

theorem keysAbove_mono {n m : Nat} (t : Tbl α) (h : n ≤ m) (ht : keysAbove m t = true) : keysAbove n t = true := by
  cases t with
  | nil => rfl
  | cons p t =>
    obtain ⟨k, v⟩ := p
    simp only [keysAbove, Bool.and_eq_true, decide_eq_true_eq] at ht ⊢
    exact ⟨h.trans ht.1, ht.2⟩

theorem keysAbove_tset (t : Tbl α) (a : Nat) (x : α) : ∀ n, n ≤ a → keysAbove n t = true → keysAbove n (tset t a x) = true := by
  induction t with
  | nil => intro n h _; simp [tset, keysAbove, h]
  | cons p t ih =>
    obtain ⟨k, v⟩ := p
    intro n h ht
    simp only [keysAbove, Bool.and_eq_true, decide_eq_true_eq] at ht
    by_cases h1 : k = a
    · subst h1; simp [tset, keysAbove, h, ht.2]
    · by_cases h2 : a < k
      · simp only [tset, h1, h2, if_true, if_false, keysAbove, Bool.and_eq_true, decide_eq_true_eq]
        exact ⟨h, h2, ht.2⟩
      · simp only [tset, h1, h2, if_false, keysAbove, Bool.and_eq_true, decide_eq_true_eq]
        exact ⟨ht.1, ih (k + 1) (by omega) ht.2⟩

theorem keysAbove_filter (q : Nat × α → Bool) (t : Tbl α) : ∀ n, keysAbove n t = true → keysAbove n (t.filter q) = true := by
  induction t with
  | nil => intro n _; rfl
  | cons p t ih =>
    obtain ⟨k, v⟩ := p
    intro n ht
    simp only [keysAbove, Bool.and_eq_true, decide_eq_true_eq] at ht
    by_cases h : q (k, v) = true
    · simp only [List.filter_cons, h, if_true, keysAbove, Bool.and_eq_true, decide_eq_true_eq]
      exact ⟨ht.1, ih _ ht.2⟩
    · simp only [List.filter_cons, h]
      exact ih n (keysAbove_mono t (by omega) ht.2)

theorem mem_tset (t : Tbl α) (a : Nat) (x : α) (p : Nat × α) (h : p ∈ tset t a x) : p = (a, x) ∨ p ∈ t := by
  induction t with
  | nil => simpa [tset] using h
  | cons r t ih =>
    obtain ⟨k, v⟩ := r
    by_cases h1 : k = a
    · simp only [tset, h1, if_true, List.mem_cons] at h
      rcases h with h | h
      · exact .inl h
      · exact .inr (List.mem_cons_of_mem _ h)
    · by_cases h2 : a < k
      · simpa [tset, h1, h2] using h
      · simp only [tset, h1, h2, if_false, List.mem_cons] at h
        rcases h with h | h
        · exact .inr (by simp [h])
        · rcases ih h with h | h
          · exact .inl h
          · exact .inr (List.mem_cons_of_mem _ h)

variable [DecidableEq α]

/-- A write keeps the canonical form. -/
theorem mwf_tput (d : α) (t : Tbl α) (a : Nat) (x : α) (h : mwf d t = true) : mwf d (tput d t a x) = true := by
  simp only [mwf, twf, Bool.and_eq_true, List.all_eq_true, decide_eq_true_eq] at h ⊢
  by_cases hx : x = d
  · simp only [tput, hx, if_true, tdel]
    exact ⟨keysAbove_filter _ t 0 h.1, fun p hp => h.2 p (List.mem_filter.mp hp).1⟩
  · simp only [tput, hx, if_false]
    refine ⟨keysAbove_tset t a x 0 (Nat.zero_le a) h.1, fun p hp => ?_⟩
    rcases mem_tset t a x p hp with rfl | hp
    · exact hx
    · exact h.2 p hp

/-- Setting the form leaves a memory in it. -/
theorem mwf_canon (d : α) (t : Tbl α) : mwf d (canon d t) = true := by
  unfold canon
  split
  · assumption
  · clear * -
    induction t with
    | nil => rfl
    | cons p t ih => exact mwf_tput d _ _ _ ih

/-- Setting the form changes no byte. -/
@[simp] theorem tget_canon (d : α) (t : Tbl α) (a : Nat) : tget d (canon d t) a = tget d t a := by
  unfold canon
  split
  · rfl
  · clear * -
    induction t with
    | nil => rfl
    | cons p t ih =>
      obtain ⟨k, v⟩ := p
      by_cases h : a = k
      · subst h; simp [tget, tfind]; simpa [tget] using tget_tput_same d _ a v
      · rw [List.foldr_cons, tget_tput_ne d _ v h, ih]
        simp [tget, tfind, Ne.symm h]

theorem canon_of_mwf (d : α) (t : Tbl α) (h : mwf d t = true) : canon d t = t := by simp [canon, h]

end Sys2Proof.Machine
end

