-- ==== Sys2Proof/Laws/Regs.lean ====
section
/-! SUPPORT. Registers and their fields: what an update reads back as. -/

namespace Sys2Proof

theorem bits_lt (w hi lo : Nat) : bits w hi lo < 2 ^ (hi + 1 - lo) := Nat.mod_lt _ (by positivity)

@[simp] theorem bits_zero (hi lo : Nat) : bits 0 hi lo = 0 := by simp [bits]

/-- Bit i of a field. -/
theorem testBit_bits (w hi lo i : Nat) : (bits w hi lo).testBit i = (decide (i < hi + 1 - lo) && w.testBit (lo + i)) := by
  simp [bits, Nat.testBit_mod_two_pow, Nat.testBit_shiftRight]

theorem setBits_eq_or (w hi lo v : Nat) :
    setBits w hi lo v = (w - (bits w hi lo) <<< lo) + ((v % 2 ^ (hi + 1 - lo)) <<< lo) := rfl

/-- The bits of a word with a field replaced. -/
theorem testBit_setBits (w hi lo v i : Nat) : (setBits w hi lo v).testBit i =
    if lo ≤ i ∧ i < lo + (hi + 1 - lo) then v.testBit (i - lo) else w.testBit i := by
  set k := hi + 1 - lo with hk
  -- w splits into three pieces
  have hw : w = (w / 2 ^ (lo + k)) * 2 ^ (lo + k) + (bits w hi lo * 2 ^ lo + w % 2 ^ lo) := by
    have h1 := Nat.div_add_mod w (2 ^ lo)
    have h2 := Nat.div_add_mod (w / 2 ^ lo) (2 ^ k)
    simp only [bits, Nat.shiftRight_eq_div_pow, ← hk]
    rw [Nat.div_div_eq_div_mul, ← pow_add] at h2
    calc w = 2 ^ lo * (w / 2 ^ lo) + w % 2 ^ lo := h1.symm
      _ = 2 ^ lo * (2 ^ k * (w / 2 ^ (lo + k)) + w / 2 ^ lo % 2 ^ k) + w % 2 ^ lo := by rw [h2]
      _ = _ := by rw [pow_add]; ring
  have hs : setBits w hi lo v = (w / 2 ^ (lo + k)) * 2 ^ (lo + k) + (v % 2 ^ k * 2 ^ lo + w % 2 ^ lo) := by
    simp only [setBits, Nat.shiftLeft_eq, ← hk]
    generalize hA : w / 2 ^ (lo + k) * 2 ^ (lo + k) = A at hw ⊢
    generalize hB : bits w hi lo * 2 ^ lo = B at hw ⊢
    omega
  have hlow : w % 2 ^ lo < 2 ^ lo := Nat.mod_lt _ (by positivity)
  have hmid : v % 2 ^ k < 2 ^ k := Nat.mod_lt _ (by positivity)
  have hin : v % 2 ^ k * 2 ^ lo + w % 2 ^ lo < 2 ^ (lo + k) := by
    rw [pow_add]
    calc v % 2 ^ k * 2 ^ lo + w % 2 ^ lo < v % 2 ^ k * 2 ^ lo + 2 ^ lo := by omega
      _ = (v % 2 ^ k + 1) * 2 ^ lo := by ring
      _ ≤ 2 ^ k * 2 ^ lo := Nat.mul_le_mul_right _ hmid
      _ = _ := by ring
  rw [hs, Nat.mul_comm (w / _) _, Nat.testBit_two_pow_mul_add _ hin]
  by_cases h1 : i < lo + k
  · rw [if_pos h1, Nat.mul_comm (v % 2 ^ k), Nat.testBit_two_pow_mul_add _ hlow]
    by_cases h2 : i < lo
    · rw [if_pos h2, if_neg (by omega), Nat.testBit_mod_two_pow]; simp [h2]
    · rw [if_neg h2, if_pos (by omega), Nat.testBit_mod_two_pow]; simp; omega
  · rw [if_neg h1, if_neg (by omega), Nat.testBit_div_two_pow]; congr 1; omega

/-- The field just set. -/
@[simp] theorem bits_setBits_same (w hi lo v : Nat) : bits (setBits w hi lo v) hi lo = v % 2 ^ (hi + 1 - lo) := by
  apply Nat.eq_of_testBit_eq; intro i
  rw [testBit_bits, testBit_setBits, Nat.testBit_mod_two_pow]
  by_cases h : i < hi + 1 - lo
  · simp [h]
  · simp [h]

/-- A field of other bits. -/
theorem bits_setBits_other (w hi lo v hi' lo' : Nat) (h : hi < lo' ∨ hi' < lo ∨ hi < lo) :
    bits (setBits w hi lo v) hi' lo' = bits w hi' lo' := by
  apply Nat.eq_of_testBit_eq; intro i
  rw [testBit_bits, testBit_bits, testBit_setBits]
  by_cases h' : i < hi' + 1 - lo'
  · rw [if_neg (by omega)]
  · simp [h']

theorem setBits_lt (w hi lo v n : Nat) (hw : w < 2 ^ n) (h : hi < n) : setBits w hi lo v < 2 ^ n := by
  apply Nat.lt_pow_two_of_testBit
  intro i hi'
  rw [testBit_setBits, if_neg (by omega)]
  exact Nat.testBit_lt_two_pow (lt_of_lt_of_le hw (Nat.pow_le_pow_right (by norm_num) hi'))

end Sys2Proof

namespace Sys2Proof.Machine

theorem State.reg_lt (s : State) (a : Nat) : s.reg a < 2 ^ 64 := by unfold State.reg; exact BitVec.isLt _

@[simp] theorem State.reg_setReg_same (s : State) (a v : Nat) : (s.setReg a v).reg a = v % 2 ^ 64 := by
  simp [State.reg, State.setReg]

theorem State.reg_setReg_ne (s : State) {a b : Nat} (v : Nat) (h : b ≠ a) : (s.setReg a v).reg b = s.reg b := by
  simp only [State.reg, State.setReg, tget]
  rw [tfind_tput_ne _ _ _ h]

theorem State.reg_setReg (s : State) (a b v : Nat) : (s.setReg a v).reg b = if b = a then v % 2 ^ 64 else s.reg b := by
  by_cases h : b = a
  · subst h; simp
  · simp [h, State.reg_setReg_ne]

/-- The bits of a field set. -/
theorem State.reg_setFd_same (s : State) (f : Fd) (v : Nat) (h : f.hi < 64) :
    (s.setFd f v).reg f.addr = setBits (s.reg f.addr) f.hi f.lo v := by
  simp only [State.setFd, State.reg_setReg_same]
  exact Nat.mod_eq_of_lt (setBits_lt _ _ _ _ _ (s.reg_lt _) h)

theorem State.reg_setFd_ne (s : State) (f : Fd) (v : Nat) {b : Nat} (h : b ≠ f.addr) : (s.setFd f v).reg b = s.reg b :=
  s.reg_setReg_ne _ h

/-- A field just set reads as it was set, to its width. -/
theorem State.fd_setFd_same (s : State) (f : Fd) (v : Nat) (h : f.hi < 64) :
    (s.setFd f v).fd f = v % 2 ^ (f.hi + 1 - f.lo) := by
  rw [State.fd, s.reg_setFd_same f v h, bits_setBits_same]

/-- A field of another register, or of other bits of the same one. -/
theorem State.fd_setFd_other (s : State) (f g : Fd) (v : Nat) (h : g.addr ≠ f.addr ∨ f.hi < g.lo ∨ g.hi < f.lo) (hf : f.hi < 64) :
    (s.setFd f v).fd g = s.fd g := by
  unfold State.fd
  by_cases ha : g.addr = f.addr
  · rw [ha, s.reg_setFd_same f v hf]
    exact bits_setBits_other _ _ _ _ _ _ (by rcases h with h | h | h <;> tauto)
  · rw [s.reg_setFd_ne f v ha]

theorem State.fd_lt (s : State) (f : Fd) : s.fd f < 2 ^ (f.hi + 1 - f.lo) := bits_lt _ _ _

end Sys2Proof.Machine
end

