-- ==== Sys2Proof/Laws/State.lean ====
section
/-! SUPPORT. What each update of the state leaves of each field. -/

namespace Sys2Proof.Machine

variable (s : State)

@[simp] theorem State.setReg_pending (a v : Nat) : (s.setReg a v).pending = s.pending := rfl
@[simp] theorem State.setReg_rdata (a v : Nat) : (s.setReg a v).rdata = s.rdata := rfl
@[simp] theorem State.setReg_accessFault (a v : Nat) : (s.setReg a v).accessFault = s.accessFault := rfl
@[simp] theorem State.setReg_mtime (a v : Nat) : (s.setReg a v).mtime = s.mtime := rfl
@[simp] theorem State.setReg_inReset (a v : Nat) : (s.setReg a v).inReset = s.inReset := rfl
@[simp] theorem State.setReg_glb (a v : Nat) : (s.setReg a v).glb = s.glb := rfl
@[simp] theorem State.setReg_mgt (a v : Nat) : (s.setReg a v).mgt = s.mgt := rfl
@[simp] theorem State.setReg_tap (a v : Nat) : (s.setReg a v).tap = s.tap := rfl
@[simp] theorem State.setReg_hbm (a v : Nat) : (s.setReg a v).hbm = s.hbm := rfl
@[simp] theorem State.setReg_pcache (a v : Nat) : (s.setReg a v).pcache = s.pcache := rfl
@[simp] theorem State.setReg_trl (a v : Nat) : (s.setReg a v).trl = s.trl := rfl
@[simp] theorem State.setReg_sch (a v : Nat) : (s.setReg a v).sch = s.sch := rfl
@[simp] theorem State.setReg_evc (a v : Nat) : (s.setReg a v).evc = s.evc := rfl
@[simp] theorem State.setReg_sec (a v : Nat) : (s.setReg a v).sec = s.sec := rfl
@[simp] theorem State.setReg_rmo (a v : Nat) : (s.setReg a v).rmo = s.rmo := rfl
@[simp] theorem State.setReg_pgt (a v : Nat) : (s.setReg a v).pgt = s.pgt := rfl
@[simp] theorem State.setReg_pdir (a v : Nat) : (s.setReg a v).pdir = s.pdir := rfl
@[simp] theorem State.setReg_twn (a v : Nat) : (s.setReg a v).twn = s.twn := rfl
@[simp] theorem State.setReg_cust (a v : Nat) : (s.setReg a v).cust = s.cust := rfl
@[simp] theorem State.setReg_ae (a v : Nat) : (s.setReg a v).ae = s.ae := rfl
@[simp] theorem State.setReg_tier (a v : Nat) : (s.setReg a v).tier = s.tier := rfl
@[simp] theorem State.setReg_hb (a v : Nat) : (s.setReg a v).hb = s.hb := rfl
@[simp] theorem State.setReg_flt (a v : Nat) : (s.setReg a v).flt = s.flt := rfl
@[simp] theorem State.setReg_wxp (a v : Nat) : (s.setReg a v).wxp = s.wxp := rfl
@[simp] theorem State.setReg_free (a v : Nat) : (s.setReg a v).free = s.free := rfl
@[simp] theorem State.setFd_pending (f : Fd) (v : Nat) : (s.setFd f v).pending = s.pending := rfl
@[simp] theorem State.setFd_rdata (f : Fd) (v : Nat) : (s.setFd f v).rdata = s.rdata := rfl
@[simp] theorem State.setFd_accessFault (f : Fd) (v : Nat) : (s.setFd f v).accessFault = s.accessFault := rfl
@[simp] theorem State.setFd_mtime (f : Fd) (v : Nat) : (s.setFd f v).mtime = s.mtime := rfl
@[simp] theorem State.setFd_inReset (f : Fd) (v : Nat) : (s.setFd f v).inReset = s.inReset := rfl
@[simp] theorem State.setFd_glb (f : Fd) (v : Nat) : (s.setFd f v).glb = s.glb := rfl
@[simp] theorem State.setFd_mgt (f : Fd) (v : Nat) : (s.setFd f v).mgt = s.mgt := rfl
@[simp] theorem State.setFd_tap (f : Fd) (v : Nat) : (s.setFd f v).tap = s.tap := rfl
@[simp] theorem State.setFd_hbm (f : Fd) (v : Nat) : (s.setFd f v).hbm = s.hbm := rfl
@[simp] theorem State.setFd_pcache (f : Fd) (v : Nat) : (s.setFd f v).pcache = s.pcache := rfl
@[simp] theorem State.setFd_trl (f : Fd) (v : Nat) : (s.setFd f v).trl = s.trl := rfl
@[simp] theorem State.setFd_sch (f : Fd) (v : Nat) : (s.setFd f v).sch = s.sch := rfl
@[simp] theorem State.setFd_evc (f : Fd) (v : Nat) : (s.setFd f v).evc = s.evc := rfl
@[simp] theorem State.setFd_sec (f : Fd) (v : Nat) : (s.setFd f v).sec = s.sec := rfl
@[simp] theorem State.setFd_rmo (f : Fd) (v : Nat) : (s.setFd f v).rmo = s.rmo := rfl
@[simp] theorem State.setFd_pgt (f : Fd) (v : Nat) : (s.setFd f v).pgt = s.pgt := rfl
@[simp] theorem State.setFd_pdir (f : Fd) (v : Nat) : (s.setFd f v).pdir = s.pdir := rfl
@[simp] theorem State.setFd_twn (f : Fd) (v : Nat) : (s.setFd f v).twn = s.twn := rfl
@[simp] theorem State.setFd_cust (f : Fd) (v : Nat) : (s.setFd f v).cust = s.cust := rfl
@[simp] theorem State.setFd_ae (f : Fd) (v : Nat) : (s.setFd f v).ae = s.ae := rfl
@[simp] theorem State.setFd_tier (f : Fd) (v : Nat) : (s.setFd f v).tier = s.tier := rfl
@[simp] theorem State.setFd_hb (f : Fd) (v : Nat) : (s.setFd f v).hb = s.hb := rfl
@[simp] theorem State.setFd_flt (f : Fd) (v : Nat) : (s.setFd f v).flt = s.flt := rfl
@[simp] theorem State.setFd_wxp (f : Fd) (v : Nat) : (s.setFd f v).wxp = s.wxp := rfl
@[simp] theorem State.setFd_free (f : Fd) (v : Nat) : (s.setFd f v).free = s.free := rfl
@[simp] theorem State.raise_pending (f : Fd) : (s.raise f).pending = s.pending := rfl
@[simp] theorem State.raise_rdata (f : Fd) : (s.raise f).rdata = s.rdata := rfl
@[simp] theorem State.raise_accessFault (f : Fd) : (s.raise f).accessFault = s.accessFault := rfl
@[simp] theorem State.raise_mtime (f : Fd) : (s.raise f).mtime = s.mtime := rfl
@[simp] theorem State.raise_inReset (f : Fd) : (s.raise f).inReset = s.inReset := rfl
@[simp] theorem State.raise_glb (f : Fd) : (s.raise f).glb = s.glb := rfl
@[simp] theorem State.raise_mgt (f : Fd) : (s.raise f).mgt = s.mgt := rfl
@[simp] theorem State.raise_tap (f : Fd) : (s.raise f).tap = s.tap := rfl
@[simp] theorem State.raise_hbm (f : Fd) : (s.raise f).hbm = s.hbm := rfl
@[simp] theorem State.raise_pcache (f : Fd) : (s.raise f).pcache = s.pcache := rfl
@[simp] theorem State.raise_trl (f : Fd) : (s.raise f).trl = s.trl := rfl
@[simp] theorem State.raise_sch (f : Fd) : (s.raise f).sch = s.sch := rfl
@[simp] theorem State.raise_evc (f : Fd) : (s.raise f).evc = s.evc := rfl
@[simp] theorem State.raise_sec (f : Fd) : (s.raise f).sec = s.sec := rfl
@[simp] theorem State.raise_rmo (f : Fd) : (s.raise f).rmo = s.rmo := rfl
@[simp] theorem State.raise_pgt (f : Fd) : (s.raise f).pgt = s.pgt := rfl
@[simp] theorem State.raise_pdir (f : Fd) : (s.raise f).pdir = s.pdir := rfl
@[simp] theorem State.raise_twn (f : Fd) : (s.raise f).twn = s.twn := rfl
@[simp] theorem State.raise_cust (f : Fd) : (s.raise f).cust = s.cust := rfl
@[simp] theorem State.raise_ae (f : Fd) : (s.raise f).ae = s.ae := rfl
@[simp] theorem State.raise_tier (f : Fd) : (s.raise f).tier = s.tier := rfl
@[simp] theorem State.raise_hb (f : Fd) : (s.raise f).hb = s.hb := rfl
@[simp] theorem State.raise_flt (f : Fd) : (s.raise f).flt = s.flt := rfl
@[simp] theorem State.raise_wxp (f : Fd) : (s.raise f).wxp = s.wxp := rfl
@[simp] theorem State.raise_free (f : Fd) : (s.raise f).free = s.free := rfl
@[simp] theorem State.count_pending (f : Fd) (n : Nat) : (s.count f n).pending = s.pending := rfl
@[simp] theorem State.count_rdata (f : Fd) (n : Nat) : (s.count f n).rdata = s.rdata := rfl
@[simp] theorem State.count_accessFault (f : Fd) (n : Nat) : (s.count f n).accessFault = s.accessFault := rfl
@[simp] theorem State.count_mtime (f : Fd) (n : Nat) : (s.count f n).mtime = s.mtime := rfl
@[simp] theorem State.count_inReset (f : Fd) (n : Nat) : (s.count f n).inReset = s.inReset := rfl
@[simp] theorem State.count_glb (f : Fd) (n : Nat) : (s.count f n).glb = s.glb := rfl
@[simp] theorem State.count_mgt (f : Fd) (n : Nat) : (s.count f n).mgt = s.mgt := rfl
@[simp] theorem State.count_tap (f : Fd) (n : Nat) : (s.count f n).tap = s.tap := rfl
@[simp] theorem State.count_hbm (f : Fd) (n : Nat) : (s.count f n).hbm = s.hbm := rfl
@[simp] theorem State.count_pcache (f : Fd) (n : Nat) : (s.count f n).pcache = s.pcache := rfl
@[simp] theorem State.count_trl (f : Fd) (n : Nat) : (s.count f n).trl = s.trl := rfl
@[simp] theorem State.count_sch (f : Fd) (n : Nat) : (s.count f n).sch = s.sch := rfl
@[simp] theorem State.count_evc (f : Fd) (n : Nat) : (s.count f n).evc = s.evc := rfl
@[simp] theorem State.count_sec (f : Fd) (n : Nat) : (s.count f n).sec = s.sec := rfl
@[simp] theorem State.count_rmo (f : Fd) (n : Nat) : (s.count f n).rmo = s.rmo := rfl
@[simp] theorem State.count_pgt (f : Fd) (n : Nat) : (s.count f n).pgt = s.pgt := rfl
@[simp] theorem State.count_pdir (f : Fd) (n : Nat) : (s.count f n).pdir = s.pdir := rfl
@[simp] theorem State.count_twn (f : Fd) (n : Nat) : (s.count f n).twn = s.twn := rfl
@[simp] theorem State.count_cust (f : Fd) (n : Nat) : (s.count f n).cust = s.cust := rfl
@[simp] theorem State.count_ae (f : Fd) (n : Nat) : (s.count f n).ae = s.ae := rfl
@[simp] theorem State.count_tier (f : Fd) (n : Nat) : (s.count f n).tier = s.tier := rfl
@[simp] theorem State.count_hb (f : Fd) (n : Nat) : (s.count f n).hb = s.hb := rfl
@[simp] theorem State.count_flt (f : Fd) (n : Nat) : (s.count f n).flt = s.flt := rfl
@[simp] theorem State.count_wxp (f : Fd) (n : Nat) : (s.count f n).wxp = s.wxp := rfl
@[simp] theorem State.count_free (f : Fd) (n : Nat) : (s.count f n).free = s.free := rfl
@[simp] theorem State.inc_pending (f : Fd) : (s.inc f).pending = s.pending := rfl
@[simp] theorem State.inc_rdata (f : Fd) : (s.inc f).rdata = s.rdata := rfl
@[simp] theorem State.inc_accessFault (f : Fd) : (s.inc f).accessFault = s.accessFault := rfl
@[simp] theorem State.inc_mtime (f : Fd) : (s.inc f).mtime = s.mtime := rfl
@[simp] theorem State.inc_inReset (f : Fd) : (s.inc f).inReset = s.inReset := rfl
@[simp] theorem State.inc_glb (f : Fd) : (s.inc f).glb = s.glb := rfl
@[simp] theorem State.inc_mgt (f : Fd) : (s.inc f).mgt = s.mgt := rfl
@[simp] theorem State.inc_tap (f : Fd) : (s.inc f).tap = s.tap := rfl
@[simp] theorem State.inc_hbm (f : Fd) : (s.inc f).hbm = s.hbm := rfl
@[simp] theorem State.inc_pcache (f : Fd) : (s.inc f).pcache = s.pcache := rfl
@[simp] theorem State.inc_trl (f : Fd) : (s.inc f).trl = s.trl := rfl
@[simp] theorem State.inc_sch (f : Fd) : (s.inc f).sch = s.sch := rfl
@[simp] theorem State.inc_evc (f : Fd) : (s.inc f).evc = s.evc := rfl
@[simp] theorem State.inc_sec (f : Fd) : (s.inc f).sec = s.sec := rfl
@[simp] theorem State.inc_rmo (f : Fd) : (s.inc f).rmo = s.rmo := rfl
@[simp] theorem State.inc_pgt (f : Fd) : (s.inc f).pgt = s.pgt := rfl
@[simp] theorem State.inc_pdir (f : Fd) : (s.inc f).pdir = s.pdir := rfl
@[simp] theorem State.inc_twn (f : Fd) : (s.inc f).twn = s.twn := rfl
@[simp] theorem State.inc_cust (f : Fd) : (s.inc f).cust = s.cust := rfl
@[simp] theorem State.inc_ae (f : Fd) : (s.inc f).ae = s.ae := rfl
@[simp] theorem State.inc_tier (f : Fd) : (s.inc f).tier = s.tier := rfl
@[simp] theorem State.inc_hb (f : Fd) : (s.inc f).hb = s.hb := rfl
@[simp] theorem State.inc_flt (f : Fd) : (s.inc f).flt = s.flt := rfl
@[simp] theorem State.inc_wxp (f : Fd) : (s.inc f).wxp = s.wxp := rfl
@[simp] theorem State.inc_free (f : Fd) : (s.inc f).free = s.free := rfl
@[simp] theorem State.drawn_pending : (s.drawn).pending = s.pending := rfl
@[simp] theorem State.drawn_csr : (s.drawn).csr = s.csr := rfl
@[simp] theorem State.drawn_rdata : (s.drawn).rdata = s.rdata := rfl
@[simp] theorem State.drawn_accessFault : (s.drawn).accessFault = s.accessFault := rfl
@[simp] theorem State.drawn_mtime : (s.drawn).mtime = s.mtime := rfl
@[simp] theorem State.drawn_inReset : (s.drawn).inReset = s.inReset := rfl
@[simp] theorem State.drawn_glb : (s.drawn).glb = s.glb := rfl
@[simp] theorem State.drawn_mgt : (s.drawn).mgt = s.mgt := rfl
@[simp] theorem State.drawn_tap : (s.drawn).tap = s.tap := rfl
@[simp] theorem State.drawn_hbm : (s.drawn).hbm = s.hbm := rfl
@[simp] theorem State.drawn_pcache : (s.drawn).pcache = s.pcache := rfl
@[simp] theorem State.drawn_trl : (s.drawn).trl = s.trl := rfl
@[simp] theorem State.drawn_sch : (s.drawn).sch = s.sch := rfl
@[simp] theorem State.drawn_evc : (s.drawn).evc = s.evc := rfl
@[simp] theorem State.drawn_sec : (s.drawn).sec = s.sec := rfl
@[simp] theorem State.drawn_rmo : (s.drawn).rmo = s.rmo := rfl
@[simp] theorem State.drawn_pgt : (s.drawn).pgt = s.pgt := rfl
@[simp] theorem State.drawn_pdir : (s.drawn).pdir = s.pdir := rfl
@[simp] theorem State.drawn_twn : (s.drawn).twn = s.twn := rfl
@[simp] theorem State.drawn_cust : (s.drawn).cust = s.cust := rfl
@[simp] theorem State.drawn_ae : (s.drawn).ae = s.ae := rfl
@[simp] theorem State.drawn_tier : (s.drawn).tier = s.tier := rfl
@[simp] theorem State.drawn_hb : (s.drawn).hb = s.hb := rfl
@[simp] theorem State.drawn_flt : (s.drawn).flt = s.flt := rfl
@[simp] theorem State.drawn_wxp : (s.drawn).wxp = s.wxp := rfl
@[simp] theorem State.hbmWrite_pending (a : Nat) (l : List Byte) : (s.hbmWrite a l).pending = s.pending := rfl
@[simp] theorem State.hbmWrite_csr (a : Nat) (l : List Byte) : (s.hbmWrite a l).csr = s.csr := rfl
@[simp] theorem State.hbmWrite_rdata (a : Nat) (l : List Byte) : (s.hbmWrite a l).rdata = s.rdata := rfl
@[simp] theorem State.hbmWrite_accessFault (a : Nat) (l : List Byte) : (s.hbmWrite a l).accessFault = s.accessFault := rfl
@[simp] theorem State.hbmWrite_mtime (a : Nat) (l : List Byte) : (s.hbmWrite a l).mtime = s.mtime := rfl
@[simp] theorem State.hbmWrite_inReset (a : Nat) (l : List Byte) : (s.hbmWrite a l).inReset = s.inReset := rfl
@[simp] theorem State.hbmWrite_glb (a : Nat) (l : List Byte) : (s.hbmWrite a l).glb = s.glb := rfl
@[simp] theorem State.hbmWrite_mgt (a : Nat) (l : List Byte) : (s.hbmWrite a l).mgt = s.mgt := rfl
@[simp] theorem State.hbmWrite_tap (a : Nat) (l : List Byte) : (s.hbmWrite a l).tap = s.tap := rfl
@[simp] theorem State.hbmWrite_pcache (a : Nat) (l : List Byte) : (s.hbmWrite a l).pcache = s.pcache := rfl
@[simp] theorem State.hbmWrite_trl (a : Nat) (l : List Byte) : (s.hbmWrite a l).trl = s.trl := rfl
@[simp] theorem State.hbmWrite_sch (a : Nat) (l : List Byte) : (s.hbmWrite a l).sch = s.sch := rfl
@[simp] theorem State.hbmWrite_evc (a : Nat) (l : List Byte) : (s.hbmWrite a l).evc = s.evc := rfl
@[simp] theorem State.hbmWrite_sec (a : Nat) (l : List Byte) : (s.hbmWrite a l).sec = s.sec := rfl
@[simp] theorem State.hbmWrite_rmo (a : Nat) (l : List Byte) : (s.hbmWrite a l).rmo = s.rmo := rfl
@[simp] theorem State.hbmWrite_pgt (a : Nat) (l : List Byte) : (s.hbmWrite a l).pgt = s.pgt := rfl
@[simp] theorem State.hbmWrite_pdir (a : Nat) (l : List Byte) : (s.hbmWrite a l).pdir = s.pdir := rfl
@[simp] theorem State.hbmWrite_twn (a : Nat) (l : List Byte) : (s.hbmWrite a l).twn = s.twn := rfl
@[simp] theorem State.hbmWrite_cust (a : Nat) (l : List Byte) : (s.hbmWrite a l).cust = s.cust := rfl
@[simp] theorem State.hbmWrite_ae (a : Nat) (l : List Byte) : (s.hbmWrite a l).ae = s.ae := rfl
@[simp] theorem State.hbmWrite_tier (a : Nat) (l : List Byte) : (s.hbmWrite a l).tier = s.tier := rfl
@[simp] theorem State.hbmWrite_hb (a : Nat) (l : List Byte) : (s.hbmWrite a l).hb = s.hb := rfl
@[simp] theorem State.hbmWrite_flt (a : Nat) (l : List Byte) : (s.hbmWrite a l).flt = s.flt := rfl
@[simp] theorem State.hbmWrite_wxp (a : Nat) (l : List Byte) : (s.hbmWrite a l).wxp = s.wxp := rfl
@[simp] theorem State.hbmWrite_free (a : Nat) (l : List Byte) : (s.hbmWrite a l).free = s.free := rfl
@[simp] theorem State.pcWrite_pending (a : Nat) (l : List Byte) : (s.pcWrite a l).pending = s.pending := rfl
@[simp] theorem State.pcWrite_csr (a : Nat) (l : List Byte) : (s.pcWrite a l).csr = s.csr := rfl
@[simp] theorem State.pcWrite_rdata (a : Nat) (l : List Byte) : (s.pcWrite a l).rdata = s.rdata := rfl
@[simp] theorem State.pcWrite_accessFault (a : Nat) (l : List Byte) : (s.pcWrite a l).accessFault = s.accessFault := rfl
@[simp] theorem State.pcWrite_mtime (a : Nat) (l : List Byte) : (s.pcWrite a l).mtime = s.mtime := rfl
@[simp] theorem State.pcWrite_inReset (a : Nat) (l : List Byte) : (s.pcWrite a l).inReset = s.inReset := rfl
@[simp] theorem State.pcWrite_glb (a : Nat) (l : List Byte) : (s.pcWrite a l).glb = s.glb := rfl
@[simp] theorem State.pcWrite_mgt (a : Nat) (l : List Byte) : (s.pcWrite a l).mgt = s.mgt := rfl
@[simp] theorem State.pcWrite_tap (a : Nat) (l : List Byte) : (s.pcWrite a l).tap = s.tap := rfl
@[simp] theorem State.pcWrite_hbm (a : Nat) (l : List Byte) : (s.pcWrite a l).hbm = s.hbm := rfl
@[simp] theorem State.pcWrite_trl (a : Nat) (l : List Byte) : (s.pcWrite a l).trl = s.trl := rfl
@[simp] theorem State.pcWrite_sch (a : Nat) (l : List Byte) : (s.pcWrite a l).sch = s.sch := rfl
@[simp] theorem State.pcWrite_evc (a : Nat) (l : List Byte) : (s.pcWrite a l).evc = s.evc := rfl
@[simp] theorem State.pcWrite_sec (a : Nat) (l : List Byte) : (s.pcWrite a l).sec = s.sec := rfl
@[simp] theorem State.pcWrite_rmo (a : Nat) (l : List Byte) : (s.pcWrite a l).rmo = s.rmo := rfl
@[simp] theorem State.pcWrite_pgt (a : Nat) (l : List Byte) : (s.pcWrite a l).pgt = s.pgt := rfl
@[simp] theorem State.pcWrite_pdir (a : Nat) (l : List Byte) : (s.pcWrite a l).pdir = s.pdir := rfl
@[simp] theorem State.pcWrite_twn (a : Nat) (l : List Byte) : (s.pcWrite a l).twn = s.twn := rfl
@[simp] theorem State.pcWrite_cust (a : Nat) (l : List Byte) : (s.pcWrite a l).cust = s.cust := rfl
@[simp] theorem State.pcWrite_ae (a : Nat) (l : List Byte) : (s.pcWrite a l).ae = s.ae := rfl
@[simp] theorem State.pcWrite_tier (a : Nat) (l : List Byte) : (s.pcWrite a l).tier = s.tier := rfl
@[simp] theorem State.pcWrite_hb (a : Nat) (l : List Byte) : (s.pcWrite a l).hb = s.hb := rfl
@[simp] theorem State.pcWrite_flt (a : Nat) (l : List Byte) : (s.pcWrite a l).flt = s.flt := rfl
@[simp] theorem State.pcWrite_wxp (a : Nat) (l : List Byte) : (s.pcWrite a l).wxp = s.wxp := rfl
@[simp] theorem State.pcWrite_free (a : Nat) (l : List Byte) : (s.pcWrite a l).free = s.free := rfl
@[simp] theorem State.use_pending (p k n : Nat) : (s.use p k n).pending = s.pending := rfl
@[simp] theorem State.use_csr (p k n : Nat) : (s.use p k n).csr = s.csr := rfl
@[simp] theorem State.use_rdata (p k n : Nat) : (s.use p k n).rdata = s.rdata := rfl
@[simp] theorem State.use_accessFault (p k n : Nat) : (s.use p k n).accessFault = s.accessFault := rfl
@[simp] theorem State.use_mtime (p k n : Nat) : (s.use p k n).mtime = s.mtime := rfl
@[simp] theorem State.use_inReset (p k n : Nat) : (s.use p k n).inReset = s.inReset := rfl
@[simp] theorem State.use_glb (p k n : Nat) : (s.use p k n).glb = s.glb := rfl
@[simp] theorem State.use_tap (p k n : Nat) : (s.use p k n).tap = s.tap := rfl
@[simp] theorem State.use_hbm (p k n : Nat) : (s.use p k n).hbm = s.hbm := rfl
@[simp] theorem State.use_pcache (p k n : Nat) : (s.use p k n).pcache = s.pcache := rfl
@[simp] theorem State.use_trl (p k n : Nat) : (s.use p k n).trl = s.trl := rfl
@[simp] theorem State.use_sch (p k n : Nat) : (s.use p k n).sch = s.sch := rfl
@[simp] theorem State.use_evc (p k n : Nat) : (s.use p k n).evc = s.evc := rfl
@[simp] theorem State.use_sec (p k n : Nat) : (s.use p k n).sec = s.sec := rfl
@[simp] theorem State.use_rmo (p k n : Nat) : (s.use p k n).rmo = s.rmo := rfl
@[simp] theorem State.use_pgt (p k n : Nat) : (s.use p k n).pgt = s.pgt := rfl
@[simp] theorem State.use_pdir (p k n : Nat) : (s.use p k n).pdir = s.pdir := rfl
@[simp] theorem State.use_twn (p k n : Nat) : (s.use p k n).twn = s.twn := rfl
@[simp] theorem State.use_cust (p k n : Nat) : (s.use p k n).cust = s.cust := rfl
@[simp] theorem State.use_ae (p k n : Nat) : (s.use p k n).ae = s.ae := rfl
@[simp] theorem State.use_tier (p k n : Nat) : (s.use p k n).tier = s.tier := rfl
@[simp] theorem State.use_hb (p k n : Nat) : (s.use p k n).hb = s.hb := rfl
@[simp] theorem State.use_flt (p k n : Nat) : (s.use p k n).flt = s.flt := rfl
@[simp] theorem State.use_wxp (p k n : Nat) : (s.use p k n).wxp = s.wxp := rfl
@[simp] theorem State.use_free (p k n : Nat) : (s.use p k n).free = s.free := rfl
@[simp] theorem State.onTrl_pending (f : Trl → Trl) : (s.onTrl f).pending = s.pending := rfl
@[simp] theorem State.onTrl_csr (f : Trl → Trl) : (s.onTrl f).csr = s.csr := rfl
@[simp] theorem State.onTrl_rdata (f : Trl → Trl) : (s.onTrl f).rdata = s.rdata := rfl
@[simp] theorem State.onTrl_accessFault (f : Trl → Trl) : (s.onTrl f).accessFault = s.accessFault := rfl
@[simp] theorem State.onTrl_mtime (f : Trl → Trl) : (s.onTrl f).mtime = s.mtime := rfl
@[simp] theorem State.onTrl_inReset (f : Trl → Trl) : (s.onTrl f).inReset = s.inReset := rfl
@[simp] theorem State.onTrl_glb (f : Trl → Trl) : (s.onTrl f).glb = s.glb := rfl
@[simp] theorem State.onTrl_mgt (f : Trl → Trl) : (s.onTrl f).mgt = s.mgt := rfl
@[simp] theorem State.onTrl_tap (f : Trl → Trl) : (s.onTrl f).tap = s.tap := rfl
@[simp] theorem State.onTrl_hbm (f : Trl → Trl) : (s.onTrl f).hbm = s.hbm := rfl
@[simp] theorem State.onTrl_pcache (f : Trl → Trl) : (s.onTrl f).pcache = s.pcache := rfl
@[simp] theorem State.onTrl_trl (f : Trl → Trl) : (s.onTrl f).trl = f s.trl := rfl
@[simp] theorem State.onTrl_sch (f : Trl → Trl) : (s.onTrl f).sch = s.sch := rfl
@[simp] theorem State.onTrl_evc (f : Trl → Trl) : (s.onTrl f).evc = s.evc := rfl
@[simp] theorem State.onTrl_sec (f : Trl → Trl) : (s.onTrl f).sec = s.sec := rfl
@[simp] theorem State.onTrl_rmo (f : Trl → Trl) : (s.onTrl f).rmo = s.rmo := rfl
@[simp] theorem State.onTrl_pgt (f : Trl → Trl) : (s.onTrl f).pgt = s.pgt := rfl
@[simp] theorem State.onTrl_pdir (f : Trl → Trl) : (s.onTrl f).pdir = s.pdir := rfl
@[simp] theorem State.onTrl_twn (f : Trl → Trl) : (s.onTrl f).twn = s.twn := rfl
@[simp] theorem State.onTrl_cust (f : Trl → Trl) : (s.onTrl f).cust = s.cust := rfl
@[simp] theorem State.onTrl_ae (f : Trl → Trl) : (s.onTrl f).ae = s.ae := rfl
@[simp] theorem State.onTrl_tier (f : Trl → Trl) : (s.onTrl f).tier = s.tier := rfl
@[simp] theorem State.onTrl_hb (f : Trl → Trl) : (s.onTrl f).hb = s.hb := rfl
@[simp] theorem State.onTrl_flt (f : Trl → Trl) : (s.onTrl f).flt = s.flt := rfl
@[simp] theorem State.onTrl_wxp (f : Trl → Trl) : (s.onTrl f).wxp = s.wxp := rfl
@[simp] theorem State.onTrl_free (f : Trl → Trl) : (s.onTrl f).free = s.free := rfl
@[simp] theorem State.onSch_pending (f : Sch → Sch) : (s.onSch f).pending = s.pending := rfl
@[simp] theorem State.onSch_csr (f : Sch → Sch) : (s.onSch f).csr = s.csr := rfl
@[simp] theorem State.onSch_rdata (f : Sch → Sch) : (s.onSch f).rdata = s.rdata := rfl
@[simp] theorem State.onSch_accessFault (f : Sch → Sch) : (s.onSch f).accessFault = s.accessFault := rfl
@[simp] theorem State.onSch_mtime (f : Sch → Sch) : (s.onSch f).mtime = s.mtime := rfl
@[simp] theorem State.onSch_inReset (f : Sch → Sch) : (s.onSch f).inReset = s.inReset := rfl
@[simp] theorem State.onSch_glb (f : Sch → Sch) : (s.onSch f).glb = s.glb := rfl
@[simp] theorem State.onSch_mgt (f : Sch → Sch) : (s.onSch f).mgt = s.mgt := rfl
@[simp] theorem State.onSch_tap (f : Sch → Sch) : (s.onSch f).tap = s.tap := rfl
@[simp] theorem State.onSch_hbm (f : Sch → Sch) : (s.onSch f).hbm = s.hbm := rfl
@[simp] theorem State.onSch_pcache (f : Sch → Sch) : (s.onSch f).pcache = s.pcache := rfl
@[simp] theorem State.onSch_trl (f : Sch → Sch) : (s.onSch f).trl = s.trl := rfl
@[simp] theorem State.onSch_sch (f : Sch → Sch) : (s.onSch f).sch = f s.sch := rfl
@[simp] theorem State.onSch_evc (f : Sch → Sch) : (s.onSch f).evc = s.evc := rfl
@[simp] theorem State.onSch_sec (f : Sch → Sch) : (s.onSch f).sec = s.sec := rfl
@[simp] theorem State.onSch_rmo (f : Sch → Sch) : (s.onSch f).rmo = s.rmo := rfl
@[simp] theorem State.onSch_pgt (f : Sch → Sch) : (s.onSch f).pgt = s.pgt := rfl
@[simp] theorem State.onSch_pdir (f : Sch → Sch) : (s.onSch f).pdir = s.pdir := rfl
@[simp] theorem State.onSch_twn (f : Sch → Sch) : (s.onSch f).twn = s.twn := rfl
@[simp] theorem State.onSch_cust (f : Sch → Sch) : (s.onSch f).cust = s.cust := rfl
@[simp] theorem State.onSch_ae (f : Sch → Sch) : (s.onSch f).ae = s.ae := rfl
@[simp] theorem State.onSch_tier (f : Sch → Sch) : (s.onSch f).tier = s.tier := rfl
@[simp] theorem State.onSch_hb (f : Sch → Sch) : (s.onSch f).hb = s.hb := rfl
@[simp] theorem State.onSch_flt (f : Sch → Sch) : (s.onSch f).flt = s.flt := rfl
@[simp] theorem State.onSch_wxp (f : Sch → Sch) : (s.onSch f).wxp = s.wxp := rfl
@[simp] theorem State.onSch_free (f : Sch → Sch) : (s.onSch f).free = s.free := rfl
@[simp] theorem State.onEvc_pending (f : Evc → Evc) : (s.onEvc f).pending = s.pending := rfl
@[simp] theorem State.onEvc_csr (f : Evc → Evc) : (s.onEvc f).csr = s.csr := rfl
@[simp] theorem State.onEvc_rdata (f : Evc → Evc) : (s.onEvc f).rdata = s.rdata := rfl
@[simp] theorem State.onEvc_accessFault (f : Evc → Evc) : (s.onEvc f).accessFault = s.accessFault := rfl
@[simp] theorem State.onEvc_mtime (f : Evc → Evc) : (s.onEvc f).mtime = s.mtime := rfl
@[simp] theorem State.onEvc_inReset (f : Evc → Evc) : (s.onEvc f).inReset = s.inReset := rfl
@[simp] theorem State.onEvc_glb (f : Evc → Evc) : (s.onEvc f).glb = s.glb := rfl
@[simp] theorem State.onEvc_mgt (f : Evc → Evc) : (s.onEvc f).mgt = s.mgt := rfl
@[simp] theorem State.onEvc_tap (f : Evc → Evc) : (s.onEvc f).tap = s.tap := rfl
@[simp] theorem State.onEvc_hbm (f : Evc → Evc) : (s.onEvc f).hbm = s.hbm := rfl
@[simp] theorem State.onEvc_pcache (f : Evc → Evc) : (s.onEvc f).pcache = s.pcache := rfl
@[simp] theorem State.onEvc_trl (f : Evc → Evc) : (s.onEvc f).trl = s.trl := rfl
@[simp] theorem State.onEvc_sch (f : Evc → Evc) : (s.onEvc f).sch = s.sch := rfl
@[simp] theorem State.onEvc_evc (f : Evc → Evc) : (s.onEvc f).evc = f s.evc := rfl
@[simp] theorem State.onEvc_sec (f : Evc → Evc) : (s.onEvc f).sec = s.sec := rfl
@[simp] theorem State.onEvc_rmo (f : Evc → Evc) : (s.onEvc f).rmo = s.rmo := rfl
@[simp] theorem State.onEvc_pgt (f : Evc → Evc) : (s.onEvc f).pgt = s.pgt := rfl
@[simp] theorem State.onEvc_pdir (f : Evc → Evc) : (s.onEvc f).pdir = s.pdir := rfl
@[simp] theorem State.onEvc_twn (f : Evc → Evc) : (s.onEvc f).twn = s.twn := rfl
@[simp] theorem State.onEvc_cust (f : Evc → Evc) : (s.onEvc f).cust = s.cust := rfl
@[simp] theorem State.onEvc_ae (f : Evc → Evc) : (s.onEvc f).ae = s.ae := rfl
@[simp] theorem State.onEvc_tier (f : Evc → Evc) : (s.onEvc f).tier = s.tier := rfl
@[simp] theorem State.onEvc_hb (f : Evc → Evc) : (s.onEvc f).hb = s.hb := rfl
@[simp] theorem State.onEvc_flt (f : Evc → Evc) : (s.onEvc f).flt = s.flt := rfl
@[simp] theorem State.onEvc_wxp (f : Evc → Evc) : (s.onEvc f).wxp = s.wxp := rfl
@[simp] theorem State.onEvc_free (f : Evc → Evc) : (s.onEvc f).free = s.free := rfl
@[simp] theorem State.onPgt_pending (f : Pgt → Pgt) : (s.onPgt f).pending = s.pending := rfl
@[simp] theorem State.onPgt_csr (f : Pgt → Pgt) : (s.onPgt f).csr = s.csr := rfl
@[simp] theorem State.onPgt_rdata (f : Pgt → Pgt) : (s.onPgt f).rdata = s.rdata := rfl
@[simp] theorem State.onPgt_accessFault (f : Pgt → Pgt) : (s.onPgt f).accessFault = s.accessFault := rfl
@[simp] theorem State.onPgt_mtime (f : Pgt → Pgt) : (s.onPgt f).mtime = s.mtime := rfl
@[simp] theorem State.onPgt_inReset (f : Pgt → Pgt) : (s.onPgt f).inReset = s.inReset := rfl
@[simp] theorem State.onPgt_glb (f : Pgt → Pgt) : (s.onPgt f).glb = s.glb := rfl
@[simp] theorem State.onPgt_mgt (f : Pgt → Pgt) : (s.onPgt f).mgt = s.mgt := rfl
@[simp] theorem State.onPgt_tap (f : Pgt → Pgt) : (s.onPgt f).tap = s.tap := rfl
@[simp] theorem State.onPgt_hbm (f : Pgt → Pgt) : (s.onPgt f).hbm = s.hbm := rfl
@[simp] theorem State.onPgt_pcache (f : Pgt → Pgt) : (s.onPgt f).pcache = s.pcache := rfl
@[simp] theorem State.onPgt_trl (f : Pgt → Pgt) : (s.onPgt f).trl = s.trl := rfl
@[simp] theorem State.onPgt_sch (f : Pgt → Pgt) : (s.onPgt f).sch = s.sch := rfl
@[simp] theorem State.onPgt_evc (f : Pgt → Pgt) : (s.onPgt f).evc = s.evc := rfl
@[simp] theorem State.onPgt_sec (f : Pgt → Pgt) : (s.onPgt f).sec = s.sec := rfl
@[simp] theorem State.onPgt_rmo (f : Pgt → Pgt) : (s.onPgt f).rmo = s.rmo := rfl
@[simp] theorem State.onPgt_pgt (f : Pgt → Pgt) : (s.onPgt f).pgt = f s.pgt := rfl
@[simp] theorem State.onPgt_pdir (f : Pgt → Pgt) : (s.onPgt f).pdir = s.pdir := rfl
@[simp] theorem State.onPgt_twn (f : Pgt → Pgt) : (s.onPgt f).twn = s.twn := rfl
@[simp] theorem State.onPgt_cust (f : Pgt → Pgt) : (s.onPgt f).cust = s.cust := rfl
@[simp] theorem State.onPgt_ae (f : Pgt → Pgt) : (s.onPgt f).ae = s.ae := rfl
@[simp] theorem State.onPgt_tier (f : Pgt → Pgt) : (s.onPgt f).tier = s.tier := rfl
@[simp] theorem State.onPgt_hb (f : Pgt → Pgt) : (s.onPgt f).hb = s.hb := rfl
@[simp] theorem State.onPgt_flt (f : Pgt → Pgt) : (s.onPgt f).flt = s.flt := rfl
@[simp] theorem State.onPgt_wxp (f : Pgt → Pgt) : (s.onPgt f).wxp = s.wxp := rfl
@[simp] theorem State.onPgt_free (f : Pgt → Pgt) : (s.onPgt f).free = s.free := rfl
@[simp] theorem State.onPdir_pending (f : Pdir → Pdir) : (s.onPdir f).pending = s.pending := rfl
@[simp] theorem State.onPdir_csr (f : Pdir → Pdir) : (s.onPdir f).csr = s.csr := rfl
@[simp] theorem State.onPdir_rdata (f : Pdir → Pdir) : (s.onPdir f).rdata = s.rdata := rfl
@[simp] theorem State.onPdir_accessFault (f : Pdir → Pdir) : (s.onPdir f).accessFault = s.accessFault := rfl
@[simp] theorem State.onPdir_mtime (f : Pdir → Pdir) : (s.onPdir f).mtime = s.mtime := rfl
@[simp] theorem State.onPdir_inReset (f : Pdir → Pdir) : (s.onPdir f).inReset = s.inReset := rfl
@[simp] theorem State.onPdir_glb (f : Pdir → Pdir) : (s.onPdir f).glb = s.glb := rfl
@[simp] theorem State.onPdir_mgt (f : Pdir → Pdir) : (s.onPdir f).mgt = s.mgt := rfl
@[simp] theorem State.onPdir_tap (f : Pdir → Pdir) : (s.onPdir f).tap = s.tap := rfl
@[simp] theorem State.onPdir_hbm (f : Pdir → Pdir) : (s.onPdir f).hbm = s.hbm := rfl
@[simp] theorem State.onPdir_pcache (f : Pdir → Pdir) : (s.onPdir f).pcache = s.pcache := rfl
@[simp] theorem State.onPdir_trl (f : Pdir → Pdir) : (s.onPdir f).trl = s.trl := rfl
@[simp] theorem State.onPdir_sch (f : Pdir → Pdir) : (s.onPdir f).sch = s.sch := rfl
@[simp] theorem State.onPdir_evc (f : Pdir → Pdir) : (s.onPdir f).evc = s.evc := rfl
@[simp] theorem State.onPdir_sec (f : Pdir → Pdir) : (s.onPdir f).sec = s.sec := rfl
@[simp] theorem State.onPdir_rmo (f : Pdir → Pdir) : (s.onPdir f).rmo = s.rmo := rfl
@[simp] theorem State.onPdir_pgt (f : Pdir → Pdir) : (s.onPdir f).pgt = s.pgt := rfl
@[simp] theorem State.onPdir_pdir (f : Pdir → Pdir) : (s.onPdir f).pdir = f s.pdir := rfl
@[simp] theorem State.onPdir_twn (f : Pdir → Pdir) : (s.onPdir f).twn = s.twn := rfl
@[simp] theorem State.onPdir_cust (f : Pdir → Pdir) : (s.onPdir f).cust = s.cust := rfl
@[simp] theorem State.onPdir_ae (f : Pdir → Pdir) : (s.onPdir f).ae = s.ae := rfl
@[simp] theorem State.onPdir_tier (f : Pdir → Pdir) : (s.onPdir f).tier = s.tier := rfl
@[simp] theorem State.onPdir_hb (f : Pdir → Pdir) : (s.onPdir f).hb = s.hb := rfl
@[simp] theorem State.onPdir_flt (f : Pdir → Pdir) : (s.onPdir f).flt = s.flt := rfl
@[simp] theorem State.onPdir_wxp (f : Pdir → Pdir) : (s.onPdir f).wxp = s.wxp := rfl
@[simp] theorem State.onPdir_free (f : Pdir → Pdir) : (s.onPdir f).free = s.free := rfl
@[simp] theorem State.onTwn_pending (f : Twn → Twn) : (s.onTwn f).pending = s.pending := rfl
@[simp] theorem State.onTwn_csr (f : Twn → Twn) : (s.onTwn f).csr = s.csr := rfl
@[simp] theorem State.onTwn_rdata (f : Twn → Twn) : (s.onTwn f).rdata = s.rdata := rfl
@[simp] theorem State.onTwn_accessFault (f : Twn → Twn) : (s.onTwn f).accessFault = s.accessFault := rfl
@[simp] theorem State.onTwn_mtime (f : Twn → Twn) : (s.onTwn f).mtime = s.mtime := rfl
@[simp] theorem State.onTwn_inReset (f : Twn → Twn) : (s.onTwn f).inReset = s.inReset := rfl
@[simp] theorem State.onTwn_glb (f : Twn → Twn) : (s.onTwn f).glb = s.glb := rfl
@[simp] theorem State.onTwn_mgt (f : Twn → Twn) : (s.onTwn f).mgt = s.mgt := rfl
@[simp] theorem State.onTwn_tap (f : Twn → Twn) : (s.onTwn f).tap = s.tap := rfl
@[simp] theorem State.onTwn_hbm (f : Twn → Twn) : (s.onTwn f).hbm = s.hbm := rfl
@[simp] theorem State.onTwn_pcache (f : Twn → Twn) : (s.onTwn f).pcache = s.pcache := rfl
@[simp] theorem State.onTwn_trl (f : Twn → Twn) : (s.onTwn f).trl = s.trl := rfl
@[simp] theorem State.onTwn_sch (f : Twn → Twn) : (s.onTwn f).sch = s.sch := rfl
@[simp] theorem State.onTwn_evc (f : Twn → Twn) : (s.onTwn f).evc = s.evc := rfl
@[simp] theorem State.onTwn_sec (f : Twn → Twn) : (s.onTwn f).sec = s.sec := rfl
@[simp] theorem State.onTwn_rmo (f : Twn → Twn) : (s.onTwn f).rmo = s.rmo := rfl
@[simp] theorem State.onTwn_pgt (f : Twn → Twn) : (s.onTwn f).pgt = s.pgt := rfl
@[simp] theorem State.onTwn_pdir (f : Twn → Twn) : (s.onTwn f).pdir = s.pdir := rfl
@[simp] theorem State.onTwn_twn (f : Twn → Twn) : (s.onTwn f).twn = f s.twn := rfl
@[simp] theorem State.onTwn_cust (f : Twn → Twn) : (s.onTwn f).cust = s.cust := rfl
@[simp] theorem State.onTwn_ae (f : Twn → Twn) : (s.onTwn f).ae = s.ae := rfl
@[simp] theorem State.onTwn_tier (f : Twn → Twn) : (s.onTwn f).tier = s.tier := rfl
@[simp] theorem State.onTwn_hb (f : Twn → Twn) : (s.onTwn f).hb = s.hb := rfl
@[simp] theorem State.onTwn_flt (f : Twn → Twn) : (s.onTwn f).flt = s.flt := rfl
@[simp] theorem State.onTwn_wxp (f : Twn → Twn) : (s.onTwn f).wxp = s.wxp := rfl
@[simp] theorem State.onTwn_free (f : Twn → Twn) : (s.onTwn f).free = s.free := rfl
@[simp] theorem State.onCust_pending (f : Custody → Custody) : (s.onCust f).pending = s.pending := rfl
@[simp] theorem State.onCust_csr (f : Custody → Custody) : (s.onCust f).csr = s.csr := rfl
@[simp] theorem State.onCust_rdata (f : Custody → Custody) : (s.onCust f).rdata = s.rdata := rfl
@[simp] theorem State.onCust_accessFault (f : Custody → Custody) : (s.onCust f).accessFault = s.accessFault := rfl
@[simp] theorem State.onCust_mtime (f : Custody → Custody) : (s.onCust f).mtime = s.mtime := rfl
@[simp] theorem State.onCust_inReset (f : Custody → Custody) : (s.onCust f).inReset = s.inReset := rfl
@[simp] theorem State.onCust_glb (f : Custody → Custody) : (s.onCust f).glb = s.glb := rfl
@[simp] theorem State.onCust_mgt (f : Custody → Custody) : (s.onCust f).mgt = s.mgt := rfl
@[simp] theorem State.onCust_tap (f : Custody → Custody) : (s.onCust f).tap = s.tap := rfl
@[simp] theorem State.onCust_hbm (f : Custody → Custody) : (s.onCust f).hbm = s.hbm := rfl
@[simp] theorem State.onCust_pcache (f : Custody → Custody) : (s.onCust f).pcache = s.pcache := rfl
@[simp] theorem State.onCust_trl (f : Custody → Custody) : (s.onCust f).trl = s.trl := rfl
@[simp] theorem State.onCust_sch (f : Custody → Custody) : (s.onCust f).sch = s.sch := rfl
@[simp] theorem State.onCust_evc (f : Custody → Custody) : (s.onCust f).evc = s.evc := rfl
@[simp] theorem State.onCust_sec (f : Custody → Custody) : (s.onCust f).sec = s.sec := rfl
@[simp] theorem State.onCust_rmo (f : Custody → Custody) : (s.onCust f).rmo = s.rmo := rfl
@[simp] theorem State.onCust_pgt (f : Custody → Custody) : (s.onCust f).pgt = s.pgt := rfl
@[simp] theorem State.onCust_pdir (f : Custody → Custody) : (s.onCust f).pdir = s.pdir := rfl
@[simp] theorem State.onCust_twn (f : Custody → Custody) : (s.onCust f).twn = s.twn := rfl
@[simp] theorem State.onCust_cust (f : Custody → Custody) : (s.onCust f).cust = f s.cust := rfl
@[simp] theorem State.onCust_ae (f : Custody → Custody) : (s.onCust f).ae = s.ae := rfl
@[simp] theorem State.onCust_tier (f : Custody → Custody) : (s.onCust f).tier = s.tier := rfl
@[simp] theorem State.onCust_hb (f : Custody → Custody) : (s.onCust f).hb = s.hb := rfl
@[simp] theorem State.onCust_flt (f : Custody → Custody) : (s.onCust f).flt = s.flt := rfl
@[simp] theorem State.onCust_wxp (f : Custody → Custody) : (s.onCust f).wxp = s.wxp := rfl
@[simp] theorem State.onCust_free (f : Custody → Custody) : (s.onCust f).free = s.free := rfl
@[simp] theorem State.onAe_pending (f : Ae → Ae) : (s.onAe f).pending = s.pending := rfl
@[simp] theorem State.onAe_csr (f : Ae → Ae) : (s.onAe f).csr = s.csr := rfl
@[simp] theorem State.onAe_rdata (f : Ae → Ae) : (s.onAe f).rdata = s.rdata := rfl
@[simp] theorem State.onAe_accessFault (f : Ae → Ae) : (s.onAe f).accessFault = s.accessFault := rfl
@[simp] theorem State.onAe_mtime (f : Ae → Ae) : (s.onAe f).mtime = s.mtime := rfl
@[simp] theorem State.onAe_inReset (f : Ae → Ae) : (s.onAe f).inReset = s.inReset := rfl
@[simp] theorem State.onAe_glb (f : Ae → Ae) : (s.onAe f).glb = s.glb := rfl
@[simp] theorem State.onAe_mgt (f : Ae → Ae) : (s.onAe f).mgt = s.mgt := rfl
@[simp] theorem State.onAe_tap (f : Ae → Ae) : (s.onAe f).tap = s.tap := rfl
@[simp] theorem State.onAe_hbm (f : Ae → Ae) : (s.onAe f).hbm = s.hbm := rfl
@[simp] theorem State.onAe_pcache (f : Ae → Ae) : (s.onAe f).pcache = s.pcache := rfl
@[simp] theorem State.onAe_trl (f : Ae → Ae) : (s.onAe f).trl = s.trl := rfl
@[simp] theorem State.onAe_sch (f : Ae → Ae) : (s.onAe f).sch = s.sch := rfl
@[simp] theorem State.onAe_evc (f : Ae → Ae) : (s.onAe f).evc = s.evc := rfl
@[simp] theorem State.onAe_sec (f : Ae → Ae) : (s.onAe f).sec = s.sec := rfl
@[simp] theorem State.onAe_rmo (f : Ae → Ae) : (s.onAe f).rmo = s.rmo := rfl
@[simp] theorem State.onAe_pgt (f : Ae → Ae) : (s.onAe f).pgt = s.pgt := rfl
@[simp] theorem State.onAe_pdir (f : Ae → Ae) : (s.onAe f).pdir = s.pdir := rfl
@[simp] theorem State.onAe_twn (f : Ae → Ae) : (s.onAe f).twn = s.twn := rfl
@[simp] theorem State.onAe_cust (f : Ae → Ae) : (s.onAe f).cust = s.cust := rfl
@[simp] theorem State.onAe_ae (f : Ae → Ae) : (s.onAe f).ae = f s.ae := rfl
@[simp] theorem State.onAe_tier (f : Ae → Ae) : (s.onAe f).tier = s.tier := rfl
@[simp] theorem State.onAe_hb (f : Ae → Ae) : (s.onAe f).hb = s.hb := rfl
@[simp] theorem State.onAe_flt (f : Ae → Ae) : (s.onAe f).flt = s.flt := rfl
@[simp] theorem State.onAe_wxp (f : Ae → Ae) : (s.onAe f).wxp = s.wxp := rfl
@[simp] theorem State.onAe_free (f : Ae → Ae) : (s.onAe f).free = s.free := rfl
@[simp] theorem State.onTier_pending (f : TierBlock → TierBlock) : (s.onTier f).pending = s.pending := rfl
@[simp] theorem State.onTier_csr (f : TierBlock → TierBlock) : (s.onTier f).csr = s.csr := rfl
@[simp] theorem State.onTier_rdata (f : TierBlock → TierBlock) : (s.onTier f).rdata = s.rdata := rfl
@[simp] theorem State.onTier_accessFault (f : TierBlock → TierBlock) : (s.onTier f).accessFault = s.accessFault := rfl
@[simp] theorem State.onTier_mtime (f : TierBlock → TierBlock) : (s.onTier f).mtime = s.mtime := rfl
@[simp] theorem State.onTier_inReset (f : TierBlock → TierBlock) : (s.onTier f).inReset = s.inReset := rfl
@[simp] theorem State.onTier_glb (f : TierBlock → TierBlock) : (s.onTier f).glb = s.glb := rfl
@[simp] theorem State.onTier_mgt (f : TierBlock → TierBlock) : (s.onTier f).mgt = s.mgt := rfl
@[simp] theorem State.onTier_tap (f : TierBlock → TierBlock) : (s.onTier f).tap = s.tap := rfl
@[simp] theorem State.onTier_hbm (f : TierBlock → TierBlock) : (s.onTier f).hbm = s.hbm := rfl
@[simp] theorem State.onTier_pcache (f : TierBlock → TierBlock) : (s.onTier f).pcache = s.pcache := rfl
@[simp] theorem State.onTier_trl (f : TierBlock → TierBlock) : (s.onTier f).trl = s.trl := rfl
@[simp] theorem State.onTier_sch (f : TierBlock → TierBlock) : (s.onTier f).sch = s.sch := rfl
@[simp] theorem State.onTier_evc (f : TierBlock → TierBlock) : (s.onTier f).evc = s.evc := rfl
@[simp] theorem State.onTier_sec (f : TierBlock → TierBlock) : (s.onTier f).sec = s.sec := rfl
@[simp] theorem State.onTier_rmo (f : TierBlock → TierBlock) : (s.onTier f).rmo = s.rmo := rfl
@[simp] theorem State.onTier_pgt (f : TierBlock → TierBlock) : (s.onTier f).pgt = s.pgt := rfl
@[simp] theorem State.onTier_pdir (f : TierBlock → TierBlock) : (s.onTier f).pdir = s.pdir := rfl
@[simp] theorem State.onTier_twn (f : TierBlock → TierBlock) : (s.onTier f).twn = s.twn := rfl
@[simp] theorem State.onTier_cust (f : TierBlock → TierBlock) : (s.onTier f).cust = s.cust := rfl
@[simp] theorem State.onTier_ae (f : TierBlock → TierBlock) : (s.onTier f).ae = s.ae := rfl
@[simp] theorem State.onTier_tier (f : TierBlock → TierBlock) : (s.onTier f).tier = f s.tier := rfl
@[simp] theorem State.onTier_hb (f : TierBlock → TierBlock) : (s.onTier f).hb = s.hb := rfl
@[simp] theorem State.onTier_flt (f : TierBlock → TierBlock) : (s.onTier f).flt = s.flt := rfl
@[simp] theorem State.onTier_wxp (f : TierBlock → TierBlock) : (s.onTier f).wxp = s.wxp := rfl
@[simp] theorem State.onTier_free (f : TierBlock → TierBlock) : (s.onTier f).free = s.free := rfl
@[simp] theorem State.onRmo_pending (f : Rmo → Rmo) : (s.onRmo f).pending = s.pending := rfl
@[simp] theorem State.onRmo_csr (f : Rmo → Rmo) : (s.onRmo f).csr = s.csr := rfl
@[simp] theorem State.onRmo_rdata (f : Rmo → Rmo) : (s.onRmo f).rdata = s.rdata := rfl
@[simp] theorem State.onRmo_accessFault (f : Rmo → Rmo) : (s.onRmo f).accessFault = s.accessFault := rfl
@[simp] theorem State.onRmo_mtime (f : Rmo → Rmo) : (s.onRmo f).mtime = s.mtime := rfl
@[simp] theorem State.onRmo_inReset (f : Rmo → Rmo) : (s.onRmo f).inReset = s.inReset := rfl
@[simp] theorem State.onRmo_glb (f : Rmo → Rmo) : (s.onRmo f).glb = s.glb := rfl
@[simp] theorem State.onRmo_mgt (f : Rmo → Rmo) : (s.onRmo f).mgt = s.mgt := rfl
@[simp] theorem State.onRmo_tap (f : Rmo → Rmo) : (s.onRmo f).tap = s.tap := rfl
@[simp] theorem State.onRmo_hbm (f : Rmo → Rmo) : (s.onRmo f).hbm = s.hbm := rfl
@[simp] theorem State.onRmo_pcache (f : Rmo → Rmo) : (s.onRmo f).pcache = s.pcache := rfl
@[simp] theorem State.onRmo_trl (f : Rmo → Rmo) : (s.onRmo f).trl = s.trl := rfl
@[simp] theorem State.onRmo_sch (f : Rmo → Rmo) : (s.onRmo f).sch = s.sch := rfl
@[simp] theorem State.onRmo_evc (f : Rmo → Rmo) : (s.onRmo f).evc = s.evc := rfl
@[simp] theorem State.onRmo_sec (f : Rmo → Rmo) : (s.onRmo f).sec = s.sec := rfl
@[simp] theorem State.onRmo_rmo (f : Rmo → Rmo) : (s.onRmo f).rmo = f s.rmo := rfl
@[simp] theorem State.onRmo_pgt (f : Rmo → Rmo) : (s.onRmo f).pgt = s.pgt := rfl
@[simp] theorem State.onRmo_pdir (f : Rmo → Rmo) : (s.onRmo f).pdir = s.pdir := rfl
@[simp] theorem State.onRmo_twn (f : Rmo → Rmo) : (s.onRmo f).twn = s.twn := rfl
@[simp] theorem State.onRmo_cust (f : Rmo → Rmo) : (s.onRmo f).cust = s.cust := rfl
@[simp] theorem State.onRmo_ae (f : Rmo → Rmo) : (s.onRmo f).ae = s.ae := rfl
@[simp] theorem State.onRmo_tier (f : Rmo → Rmo) : (s.onRmo f).tier = s.tier := rfl
@[simp] theorem State.onRmo_hb (f : Rmo → Rmo) : (s.onRmo f).hb = s.hb := rfl
@[simp] theorem State.onRmo_flt (f : Rmo → Rmo) : (s.onRmo f).flt = s.flt := rfl
@[simp] theorem State.onRmo_wxp (f : Rmo → Rmo) : (s.onRmo f).wxp = s.wxp := rfl
@[simp] theorem State.onRmo_free (f : Rmo → Rmo) : (s.onRmo f).free = s.free := rfl
@[simp] theorem State.onSec_pending (f : Sec → Sec) : (s.onSec f).pending = s.pending := rfl
@[simp] theorem State.onSec_csr (f : Sec → Sec) : (s.onSec f).csr = s.csr := rfl
@[simp] theorem State.onSec_rdata (f : Sec → Sec) : (s.onSec f).rdata = s.rdata := rfl
@[simp] theorem State.onSec_accessFault (f : Sec → Sec) : (s.onSec f).accessFault = s.accessFault := rfl
@[simp] theorem State.onSec_mtime (f : Sec → Sec) : (s.onSec f).mtime = s.mtime := rfl
@[simp] theorem State.onSec_inReset (f : Sec → Sec) : (s.onSec f).inReset = s.inReset := rfl
@[simp] theorem State.onSec_glb (f : Sec → Sec) : (s.onSec f).glb = s.glb := rfl
@[simp] theorem State.onSec_mgt (f : Sec → Sec) : (s.onSec f).mgt = s.mgt := rfl
@[simp] theorem State.onSec_tap (f : Sec → Sec) : (s.onSec f).tap = s.tap := rfl
@[simp] theorem State.onSec_hbm (f : Sec → Sec) : (s.onSec f).hbm = s.hbm := rfl
@[simp] theorem State.onSec_pcache (f : Sec → Sec) : (s.onSec f).pcache = s.pcache := rfl
@[simp] theorem State.onSec_trl (f : Sec → Sec) : (s.onSec f).trl = s.trl := rfl
@[simp] theorem State.onSec_sch (f : Sec → Sec) : (s.onSec f).sch = s.sch := rfl
@[simp] theorem State.onSec_evc (f : Sec → Sec) : (s.onSec f).evc = s.evc := rfl
@[simp] theorem State.onSec_sec (f : Sec → Sec) : (s.onSec f).sec = f s.sec := rfl
@[simp] theorem State.onSec_rmo (f : Sec → Sec) : (s.onSec f).rmo = s.rmo := rfl
@[simp] theorem State.onSec_pgt (f : Sec → Sec) : (s.onSec f).pgt = s.pgt := rfl
@[simp] theorem State.onSec_pdir (f : Sec → Sec) : (s.onSec f).pdir = s.pdir := rfl
@[simp] theorem State.onSec_twn (f : Sec → Sec) : (s.onSec f).twn = s.twn := rfl
@[simp] theorem State.onSec_cust (f : Sec → Sec) : (s.onSec f).cust = s.cust := rfl
@[simp] theorem State.onSec_ae (f : Sec → Sec) : (s.onSec f).ae = s.ae := rfl
@[simp] theorem State.onSec_tier (f : Sec → Sec) : (s.onSec f).tier = s.tier := rfl
@[simp] theorem State.onSec_hb (f : Sec → Sec) : (s.onSec f).hb = s.hb := rfl
@[simp] theorem State.onSec_flt (f : Sec → Sec) : (s.onSec f).flt = s.flt := rfl
@[simp] theorem State.onSec_wxp (f : Sec → Sec) : (s.onSec f).wxp = s.wxp := rfl
@[simp] theorem State.onSec_free (f : Sec → Sec) : (s.onSec f).free = s.free := rfl
@[simp] theorem State.onFlt_pending (f : Flt → Flt) : (s.onFlt f).pending = s.pending := rfl
@[simp] theorem State.onFlt_csr (f : Flt → Flt) : (s.onFlt f).csr = s.csr := rfl
@[simp] theorem State.onFlt_rdata (f : Flt → Flt) : (s.onFlt f).rdata = s.rdata := rfl
@[simp] theorem State.onFlt_accessFault (f : Flt → Flt) : (s.onFlt f).accessFault = s.accessFault := rfl
@[simp] theorem State.onFlt_mtime (f : Flt → Flt) : (s.onFlt f).mtime = s.mtime := rfl
@[simp] theorem State.onFlt_inReset (f : Flt → Flt) : (s.onFlt f).inReset = s.inReset := rfl
@[simp] theorem State.onFlt_glb (f : Flt → Flt) : (s.onFlt f).glb = s.glb := rfl
@[simp] theorem State.onFlt_mgt (f : Flt → Flt) : (s.onFlt f).mgt = s.mgt := rfl
@[simp] theorem State.onFlt_tap (f : Flt → Flt) : (s.onFlt f).tap = s.tap := rfl
@[simp] theorem State.onFlt_hbm (f : Flt → Flt) : (s.onFlt f).hbm = s.hbm := rfl
@[simp] theorem State.onFlt_pcache (f : Flt → Flt) : (s.onFlt f).pcache = s.pcache := rfl
@[simp] theorem State.onFlt_trl (f : Flt → Flt) : (s.onFlt f).trl = s.trl := rfl
@[simp] theorem State.onFlt_sch (f : Flt → Flt) : (s.onFlt f).sch = s.sch := rfl
@[simp] theorem State.onFlt_evc (f : Flt → Flt) : (s.onFlt f).evc = s.evc := rfl
@[simp] theorem State.onFlt_sec (f : Flt → Flt) : (s.onFlt f).sec = s.sec := rfl
@[simp] theorem State.onFlt_rmo (f : Flt → Flt) : (s.onFlt f).rmo = s.rmo := rfl
@[simp] theorem State.onFlt_pgt (f : Flt → Flt) : (s.onFlt f).pgt = s.pgt := rfl
@[simp] theorem State.onFlt_pdir (f : Flt → Flt) : (s.onFlt f).pdir = s.pdir := rfl
@[simp] theorem State.onFlt_twn (f : Flt → Flt) : (s.onFlt f).twn = s.twn := rfl
@[simp] theorem State.onFlt_cust (f : Flt → Flt) : (s.onFlt f).cust = s.cust := rfl
@[simp] theorem State.onFlt_ae (f : Flt → Flt) : (s.onFlt f).ae = s.ae := rfl
@[simp] theorem State.onFlt_tier (f : Flt → Flt) : (s.onFlt f).tier = s.tier := rfl
@[simp] theorem State.onFlt_hb (f : Flt → Flt) : (s.onFlt f).hb = s.hb := rfl
@[simp] theorem State.onFlt_flt (f : Flt → Flt) : (s.onFlt f).flt = f s.flt := rfl
@[simp] theorem State.onFlt_wxp (f : Flt → Flt) : (s.onFlt f).wxp = s.wxp := rfl
@[simp] theorem State.onFlt_free (f : Flt → Flt) : (s.onFlt f).free = s.free := rfl
@[simp] theorem State.onWxp_pending (f : Wxp → Wxp) : (s.onWxp f).pending = s.pending := rfl
@[simp] theorem State.onWxp_csr (f : Wxp → Wxp) : (s.onWxp f).csr = s.csr := rfl
@[simp] theorem State.onWxp_rdata (f : Wxp → Wxp) : (s.onWxp f).rdata = s.rdata := rfl
@[simp] theorem State.onWxp_accessFault (f : Wxp → Wxp) : (s.onWxp f).accessFault = s.accessFault := rfl
@[simp] theorem State.onWxp_mtime (f : Wxp → Wxp) : (s.onWxp f).mtime = s.mtime := rfl
@[simp] theorem State.onWxp_inReset (f : Wxp → Wxp) : (s.onWxp f).inReset = s.inReset := rfl
@[simp] theorem State.onWxp_glb (f : Wxp → Wxp) : (s.onWxp f).glb = s.glb := rfl
@[simp] theorem State.onWxp_mgt (f : Wxp → Wxp) : (s.onWxp f).mgt = s.mgt := rfl
@[simp] theorem State.onWxp_tap (f : Wxp → Wxp) : (s.onWxp f).tap = s.tap := rfl
@[simp] theorem State.onWxp_hbm (f : Wxp → Wxp) : (s.onWxp f).hbm = s.hbm := rfl
@[simp] theorem State.onWxp_pcache (f : Wxp → Wxp) : (s.onWxp f).pcache = s.pcache := rfl
@[simp] theorem State.onWxp_trl (f : Wxp → Wxp) : (s.onWxp f).trl = s.trl := rfl
@[simp] theorem State.onWxp_sch (f : Wxp → Wxp) : (s.onWxp f).sch = s.sch := rfl
@[simp] theorem State.onWxp_evc (f : Wxp → Wxp) : (s.onWxp f).evc = s.evc := rfl
@[simp] theorem State.onWxp_sec (f : Wxp → Wxp) : (s.onWxp f).sec = s.sec := rfl
@[simp] theorem State.onWxp_rmo (f : Wxp → Wxp) : (s.onWxp f).rmo = s.rmo := rfl
@[simp] theorem State.onWxp_pgt (f : Wxp → Wxp) : (s.onWxp f).pgt = s.pgt := rfl
@[simp] theorem State.onWxp_pdir (f : Wxp → Wxp) : (s.onWxp f).pdir = s.pdir := rfl
@[simp] theorem State.onWxp_twn (f : Wxp → Wxp) : (s.onWxp f).twn = s.twn := rfl
@[simp] theorem State.onWxp_cust (f : Wxp → Wxp) : (s.onWxp f).cust = s.cust := rfl
@[simp] theorem State.onWxp_ae (f : Wxp → Wxp) : (s.onWxp f).ae = s.ae := rfl
@[simp] theorem State.onWxp_tier (f : Wxp → Wxp) : (s.onWxp f).tier = s.tier := rfl
@[simp] theorem State.onWxp_hb (f : Wxp → Wxp) : (s.onWxp f).hb = s.hb := rfl
@[simp] theorem State.onWxp_flt (f : Wxp → Wxp) : (s.onWxp f).flt = s.flt := rfl
@[simp] theorem State.onWxp_wxp (f : Wxp → Wxp) : (s.onWxp f).wxp = f s.wxp := rfl
@[simp] theorem State.onWxp_free (f : Wxp → Wxp) : (s.onWxp f).free = s.free := rfl
@[simp] theorem State.onGlb_pending (f : Glb → Glb) : (s.onGlb f).pending = s.pending := rfl
@[simp] theorem State.onGlb_csr (f : Glb → Glb) : (s.onGlb f).csr = s.csr := rfl
@[simp] theorem State.onGlb_rdata (f : Glb → Glb) : (s.onGlb f).rdata = s.rdata := rfl
@[simp] theorem State.onGlb_accessFault (f : Glb → Glb) : (s.onGlb f).accessFault = s.accessFault := rfl
@[simp] theorem State.onGlb_mtime (f : Glb → Glb) : (s.onGlb f).mtime = s.mtime := rfl
@[simp] theorem State.onGlb_inReset (f : Glb → Glb) : (s.onGlb f).inReset = s.inReset := rfl
@[simp] theorem State.onGlb_glb (f : Glb → Glb) : (s.onGlb f).glb = f s.glb := rfl
@[simp] theorem State.onGlb_mgt (f : Glb → Glb) : (s.onGlb f).mgt = s.mgt := rfl
@[simp] theorem State.onGlb_tap (f : Glb → Glb) : (s.onGlb f).tap = s.tap := rfl
@[simp] theorem State.onGlb_hbm (f : Glb → Glb) : (s.onGlb f).hbm = s.hbm := rfl
@[simp] theorem State.onGlb_pcache (f : Glb → Glb) : (s.onGlb f).pcache = s.pcache := rfl
@[simp] theorem State.onGlb_trl (f : Glb → Glb) : (s.onGlb f).trl = s.trl := rfl
@[simp] theorem State.onGlb_sch (f : Glb → Glb) : (s.onGlb f).sch = s.sch := rfl
@[simp] theorem State.onGlb_evc (f : Glb → Glb) : (s.onGlb f).evc = s.evc := rfl
@[simp] theorem State.onGlb_sec (f : Glb → Glb) : (s.onGlb f).sec = s.sec := rfl
@[simp] theorem State.onGlb_rmo (f : Glb → Glb) : (s.onGlb f).rmo = s.rmo := rfl
@[simp] theorem State.onGlb_pgt (f : Glb → Glb) : (s.onGlb f).pgt = s.pgt := rfl
@[simp] theorem State.onGlb_pdir (f : Glb → Glb) : (s.onGlb f).pdir = s.pdir := rfl
@[simp] theorem State.onGlb_twn (f : Glb → Glb) : (s.onGlb f).twn = s.twn := rfl
@[simp] theorem State.onGlb_cust (f : Glb → Glb) : (s.onGlb f).cust = s.cust := rfl
@[simp] theorem State.onGlb_ae (f : Glb → Glb) : (s.onGlb f).ae = s.ae := rfl
@[simp] theorem State.onGlb_tier (f : Glb → Glb) : (s.onGlb f).tier = s.tier := rfl
@[simp] theorem State.onGlb_hb (f : Glb → Glb) : (s.onGlb f).hb = s.hb := rfl
@[simp] theorem State.onGlb_flt (f : Glb → Glb) : (s.onGlb f).flt = s.flt := rfl
@[simp] theorem State.onGlb_wxp (f : Glb → Glb) : (s.onGlb f).wxp = s.wxp := rfl
@[simp] theorem State.onGlb_free (f : Glb → Glb) : (s.onGlb f).free = s.free := rfl
@[simp] theorem State.onMgt_pending (f : Mgt → Mgt) : (s.onMgt f).pending = s.pending := rfl
@[simp] theorem State.onMgt_csr (f : Mgt → Mgt) : (s.onMgt f).csr = s.csr := rfl
@[simp] theorem State.onMgt_rdata (f : Mgt → Mgt) : (s.onMgt f).rdata = s.rdata := rfl
@[simp] theorem State.onMgt_accessFault (f : Mgt → Mgt) : (s.onMgt f).accessFault = s.accessFault := rfl
@[simp] theorem State.onMgt_mtime (f : Mgt → Mgt) : (s.onMgt f).mtime = s.mtime := rfl
@[simp] theorem State.onMgt_inReset (f : Mgt → Mgt) : (s.onMgt f).inReset = s.inReset := rfl
@[simp] theorem State.onMgt_glb (f : Mgt → Mgt) : (s.onMgt f).glb = s.glb := rfl
@[simp] theorem State.onMgt_mgt (f : Mgt → Mgt) : (s.onMgt f).mgt = f s.mgt := rfl
@[simp] theorem State.onMgt_tap (f : Mgt → Mgt) : (s.onMgt f).tap = s.tap := rfl
@[simp] theorem State.onMgt_hbm (f : Mgt → Mgt) : (s.onMgt f).hbm = s.hbm := rfl
@[simp] theorem State.onMgt_pcache (f : Mgt → Mgt) : (s.onMgt f).pcache = s.pcache := rfl
@[simp] theorem State.onMgt_trl (f : Mgt → Mgt) : (s.onMgt f).trl = s.trl := rfl
@[simp] theorem State.onMgt_sch (f : Mgt → Mgt) : (s.onMgt f).sch = s.sch := rfl
@[simp] theorem State.onMgt_evc (f : Mgt → Mgt) : (s.onMgt f).evc = s.evc := rfl
@[simp] theorem State.onMgt_sec (f : Mgt → Mgt) : (s.onMgt f).sec = s.sec := rfl
@[simp] theorem State.onMgt_rmo (f : Mgt → Mgt) : (s.onMgt f).rmo = s.rmo := rfl
@[simp] theorem State.onMgt_pgt (f : Mgt → Mgt) : (s.onMgt f).pgt = s.pgt := rfl
@[simp] theorem State.onMgt_pdir (f : Mgt → Mgt) : (s.onMgt f).pdir = s.pdir := rfl
@[simp] theorem State.onMgt_twn (f : Mgt → Mgt) : (s.onMgt f).twn = s.twn := rfl
@[simp] theorem State.onMgt_cust (f : Mgt → Mgt) : (s.onMgt f).cust = s.cust := rfl
@[simp] theorem State.onMgt_ae (f : Mgt → Mgt) : (s.onMgt f).ae = s.ae := rfl
@[simp] theorem State.onMgt_tier (f : Mgt → Mgt) : (s.onMgt f).tier = s.tier := rfl
@[simp] theorem State.onMgt_hb (f : Mgt → Mgt) : (s.onMgt f).hb = s.hb := rfl
@[simp] theorem State.onMgt_flt (f : Mgt → Mgt) : (s.onMgt f).flt = s.flt := rfl
@[simp] theorem State.onMgt_wxp (f : Mgt → Mgt) : (s.onMgt f).wxp = s.wxp := rfl
@[simp] theorem State.onMgt_free (f : Mgt → Mgt) : (s.onMgt f).free = s.free := rfl
@[simp] theorem State.onTap_pending (f : Tap → Tap) : (s.onTap f).pending = s.pending := rfl
@[simp] theorem State.onTap_csr (f : Tap → Tap) : (s.onTap f).csr = s.csr := rfl
@[simp] theorem State.onTap_rdata (f : Tap → Tap) : (s.onTap f).rdata = s.rdata := rfl
@[simp] theorem State.onTap_accessFault (f : Tap → Tap) : (s.onTap f).accessFault = s.accessFault := rfl
@[simp] theorem State.onTap_mtime (f : Tap → Tap) : (s.onTap f).mtime = s.mtime := rfl
@[simp] theorem State.onTap_inReset (f : Tap → Tap) : (s.onTap f).inReset = s.inReset := rfl
@[simp] theorem State.onTap_glb (f : Tap → Tap) : (s.onTap f).glb = s.glb := rfl
@[simp] theorem State.onTap_mgt (f : Tap → Tap) : (s.onTap f).mgt = s.mgt := rfl
@[simp] theorem State.onTap_tap (f : Tap → Tap) : (s.onTap f).tap = f s.tap := rfl
@[simp] theorem State.onTap_hbm (f : Tap → Tap) : (s.onTap f).hbm = s.hbm := rfl
@[simp] theorem State.onTap_pcache (f : Tap → Tap) : (s.onTap f).pcache = s.pcache := rfl
@[simp] theorem State.onTap_trl (f : Tap → Tap) : (s.onTap f).trl = s.trl := rfl
@[simp] theorem State.onTap_sch (f : Tap → Tap) : (s.onTap f).sch = s.sch := rfl
@[simp] theorem State.onTap_evc (f : Tap → Tap) : (s.onTap f).evc = s.evc := rfl
@[simp] theorem State.onTap_sec (f : Tap → Tap) : (s.onTap f).sec = s.sec := rfl
@[simp] theorem State.onTap_rmo (f : Tap → Tap) : (s.onTap f).rmo = s.rmo := rfl
@[simp] theorem State.onTap_pgt (f : Tap → Tap) : (s.onTap f).pgt = s.pgt := rfl
@[simp] theorem State.onTap_pdir (f : Tap → Tap) : (s.onTap f).pdir = s.pdir := rfl
@[simp] theorem State.onTap_twn (f : Tap → Tap) : (s.onTap f).twn = s.twn := rfl
@[simp] theorem State.onTap_cust (f : Tap → Tap) : (s.onTap f).cust = s.cust := rfl
@[simp] theorem State.onTap_ae (f : Tap → Tap) : (s.onTap f).ae = s.ae := rfl
@[simp] theorem State.onTap_tier (f : Tap → Tap) : (s.onTap f).tier = s.tier := rfl
@[simp] theorem State.onTap_hb (f : Tap → Tap) : (s.onTap f).hb = s.hb := rfl
@[simp] theorem State.onTap_flt (f : Tap → Tap) : (s.onTap f).flt = s.flt := rfl
@[simp] theorem State.onTap_wxp (f : Tap → Tap) : (s.onTap f).wxp = s.wxp := rfl
@[simp] theorem State.onTap_free (f : Tap → Tap) : (s.onTap f).free = s.free := rfl
@[simp] theorem State.onHb_pending (f : HbmBlock → HbmBlock) : (s.onHb f).pending = s.pending := rfl
@[simp] theorem State.onHb_csr (f : HbmBlock → HbmBlock) : (s.onHb f).csr = s.csr := rfl
@[simp] theorem State.onHb_rdata (f : HbmBlock → HbmBlock) : (s.onHb f).rdata = s.rdata := rfl
@[simp] theorem State.onHb_accessFault (f : HbmBlock → HbmBlock) : (s.onHb f).accessFault = s.accessFault := rfl
@[simp] theorem State.onHb_mtime (f : HbmBlock → HbmBlock) : (s.onHb f).mtime = s.mtime := rfl
@[simp] theorem State.onHb_inReset (f : HbmBlock → HbmBlock) : (s.onHb f).inReset = s.inReset := rfl
@[simp] theorem State.onHb_glb (f : HbmBlock → HbmBlock) : (s.onHb f).glb = s.glb := rfl
@[simp] theorem State.onHb_mgt (f : HbmBlock → HbmBlock) : (s.onHb f).mgt = s.mgt := rfl
@[simp] theorem State.onHb_tap (f : HbmBlock → HbmBlock) : (s.onHb f).tap = s.tap := rfl
@[simp] theorem State.onHb_hbm (f : HbmBlock → HbmBlock) : (s.onHb f).hbm = s.hbm := rfl
@[simp] theorem State.onHb_pcache (f : HbmBlock → HbmBlock) : (s.onHb f).pcache = s.pcache := rfl
@[simp] theorem State.onHb_trl (f : HbmBlock → HbmBlock) : (s.onHb f).trl = s.trl := rfl
@[simp] theorem State.onHb_sch (f : HbmBlock → HbmBlock) : (s.onHb f).sch = s.sch := rfl
@[simp] theorem State.onHb_evc (f : HbmBlock → HbmBlock) : (s.onHb f).evc = s.evc := rfl
@[simp] theorem State.onHb_sec (f : HbmBlock → HbmBlock) : (s.onHb f).sec = s.sec := rfl
@[simp] theorem State.onHb_rmo (f : HbmBlock → HbmBlock) : (s.onHb f).rmo = s.rmo := rfl
@[simp] theorem State.onHb_pgt (f : HbmBlock → HbmBlock) : (s.onHb f).pgt = s.pgt := rfl
@[simp] theorem State.onHb_pdir (f : HbmBlock → HbmBlock) : (s.onHb f).pdir = s.pdir := rfl
@[simp] theorem State.onHb_twn (f : HbmBlock → HbmBlock) : (s.onHb f).twn = s.twn := rfl
@[simp] theorem State.onHb_cust (f : HbmBlock → HbmBlock) : (s.onHb f).cust = s.cust := rfl
@[simp] theorem State.onHb_ae (f : HbmBlock → HbmBlock) : (s.onHb f).ae = s.ae := rfl
@[simp] theorem State.onHb_tier (f : HbmBlock → HbmBlock) : (s.onHb f).tier = s.tier := rfl
@[simp] theorem State.onHb_hb (f : HbmBlock → HbmBlock) : (s.onHb f).hb = f s.hb := rfl
@[simp] theorem State.onHb_flt (f : HbmBlock → HbmBlock) : (s.onHb f).flt = s.flt := rfl
@[simp] theorem State.onHb_wxp (f : HbmBlock → HbmBlock) : (s.onHb f).wxp = s.wxp := rfl
@[simp] theorem State.onHb_free (f : HbmBlock → HbmBlock) : (s.onHb f).free = s.free := rfl
@[simp] theorem State.commit_pending (t : State) : (s.commit t).pending = s.pending := rfl
@[simp] theorem State.commit_csr (t : State) : (s.commit t).csr = t.csr := rfl
@[simp] theorem State.commit_rdata (t : State) : (s.commit t).rdata = t.rdata := rfl
@[simp] theorem State.commit_accessFault (t : State) : (s.commit t).accessFault = t.accessFault := rfl
@[simp] theorem State.commit_mtime (t : State) : (s.commit t).mtime = t.mtime := rfl
@[simp] theorem State.commit_inReset (t : State) : (s.commit t).inReset = t.inReset := rfl
@[simp] theorem State.commit_glb (t : State) : (s.commit t).glb = t.glb := rfl
@[simp] theorem State.commit_mgt (t : State) : (s.commit t).mgt = t.mgt := rfl
@[simp] theorem State.commit_tap (t : State) : (s.commit t).tap = t.tap := rfl
@[simp] theorem State.commit_hbm (t : State) : (s.commit t).hbm = canon 0 t.hbm := rfl
@[simp] theorem State.commit_pcache (t : State) : (s.commit t).pcache = canon 0 t.pcache := rfl
@[simp] theorem State.commit_trl (t : State) : (s.commit t).trl = t.trl := rfl
@[simp] theorem State.commit_sch (t : State) : (s.commit t).sch = t.sch := rfl
@[simp] theorem State.commit_evc (t : State) : (s.commit t).evc = t.evc := rfl
@[simp] theorem State.commit_sec (t : State) : (s.commit t).sec = t.sec := rfl
@[simp] theorem State.commit_rmo (t : State) : (s.commit t).rmo = t.rmo := rfl
@[simp] theorem State.commit_pgt (t : State) : (s.commit t).pgt = t.pgt := rfl
@[simp] theorem State.commit_pdir (t : State) : (s.commit t).pdir = t.pdir := rfl
@[simp] theorem State.commit_twn (t : State) : (s.commit t).twn = t.twn := rfl
@[simp] theorem State.commit_cust (t : State) : (s.commit t).cust = t.cust := rfl
@[simp] theorem State.commit_ae (t : State) : (s.commit t).ae = t.ae := rfl
@[simp] theorem State.commit_tier (t : State) : (s.commit t).tier = t.tier := rfl
@[simp] theorem State.commit_hb (t : State) : (s.commit t).hb = t.hb := rfl
@[simp] theorem State.commit_flt (t : State) : (s.commit t).flt = t.flt := rfl
@[simp] theorem State.commit_wxp (t : State) : (s.commit t).wxp = t.wxp := rfl
@[simp] theorem State.commit_free (t : State) : (s.commit t).free = t.free := rfl
@[simp] theorem State.drawn_free : s.drawn.free = s.free + 1 := rfl
@[simp] theorem State.drawn_reg (x : Nat) : (s.drawn).reg x = s.reg x := rfl
@[simp] theorem State.drawn_fd (g : Fd) : (s.drawn).fd g = s.fd g := rfl
@[simp] theorem State.drawn_flag (g : Fd) : (s.drawn).flag g = s.flag g := rfl
@[simp] theorem State.hbmWrite_reg (a : Nat) (l : List Byte) (x : Nat) : (s.hbmWrite a l).reg x = s.reg x := rfl
@[simp] theorem State.hbmWrite_fd (a : Nat) (l : List Byte) (g : Fd) : (s.hbmWrite a l).fd g = s.fd g := rfl
@[simp] theorem State.hbmWrite_flag (a : Nat) (l : List Byte) (g : Fd) : (s.hbmWrite a l).flag g = s.flag g := rfl
@[simp] theorem State.pcWrite_reg (a : Nat) (l : List Byte) (x : Nat) : (s.pcWrite a l).reg x = s.reg x := rfl
@[simp] theorem State.pcWrite_fd (a : Nat) (l : List Byte) (g : Fd) : (s.pcWrite a l).fd g = s.fd g := rfl
@[simp] theorem State.pcWrite_flag (a : Nat) (l : List Byte) (g : Fd) : (s.pcWrite a l).flag g = s.flag g := rfl
@[simp] theorem State.use_reg (p k n : Nat) (x : Nat) : (s.use p k n).reg x = s.reg x := rfl
@[simp] theorem State.use_fd (p k n : Nat) (g : Fd) : (s.use p k n).fd g = s.fd g := rfl
@[simp] theorem State.use_flag (p k n : Nat) (g : Fd) : (s.use p k n).flag g = s.flag g := rfl
@[simp] theorem State.onTrl_reg (f : Trl → Trl) (x : Nat) : (s.onTrl f).reg x = s.reg x := rfl
@[simp] theorem State.onTrl_fd (f : Trl → Trl) (g : Fd) : (s.onTrl f).fd g = s.fd g := rfl
@[simp] theorem State.onTrl_flag (f : Trl → Trl) (g : Fd) : (s.onTrl f).flag g = s.flag g := rfl
@[simp] theorem State.onSch_reg (f : Sch → Sch) (x : Nat) : (s.onSch f).reg x = s.reg x := rfl
@[simp] theorem State.onSch_fd (f : Sch → Sch) (g : Fd) : (s.onSch f).fd g = s.fd g := rfl
@[simp] theorem State.onSch_flag (f : Sch → Sch) (g : Fd) : (s.onSch f).flag g = s.flag g := rfl
@[simp] theorem State.onEvc_reg (f : Evc → Evc) (x : Nat) : (s.onEvc f).reg x = s.reg x := rfl
@[simp] theorem State.onEvc_fd (f : Evc → Evc) (g : Fd) : (s.onEvc f).fd g = s.fd g := rfl
@[simp] theorem State.onEvc_flag (f : Evc → Evc) (g : Fd) : (s.onEvc f).flag g = s.flag g := rfl
@[simp] theorem State.onPgt_reg (f : Pgt → Pgt) (x : Nat) : (s.onPgt f).reg x = s.reg x := rfl
@[simp] theorem State.onPgt_fd (f : Pgt → Pgt) (g : Fd) : (s.onPgt f).fd g = s.fd g := rfl
@[simp] theorem State.onPgt_flag (f : Pgt → Pgt) (g : Fd) : (s.onPgt f).flag g = s.flag g := rfl
@[simp] theorem State.onPdir_reg (f : Pdir → Pdir) (x : Nat) : (s.onPdir f).reg x = s.reg x := rfl
@[simp] theorem State.onPdir_fd (f : Pdir → Pdir) (g : Fd) : (s.onPdir f).fd g = s.fd g := rfl
@[simp] theorem State.onPdir_flag (f : Pdir → Pdir) (g : Fd) : (s.onPdir f).flag g = s.flag g := rfl
@[simp] theorem State.onTwn_reg (f : Twn → Twn) (x : Nat) : (s.onTwn f).reg x = s.reg x := rfl
@[simp] theorem State.onTwn_fd (f : Twn → Twn) (g : Fd) : (s.onTwn f).fd g = s.fd g := rfl
@[simp] theorem State.onTwn_flag (f : Twn → Twn) (g : Fd) : (s.onTwn f).flag g = s.flag g := rfl
@[simp] theorem State.onCust_reg (f : Custody → Custody) (x : Nat) : (s.onCust f).reg x = s.reg x := rfl
@[simp] theorem State.onCust_fd (f : Custody → Custody) (g : Fd) : (s.onCust f).fd g = s.fd g := rfl
@[simp] theorem State.onCust_flag (f : Custody → Custody) (g : Fd) : (s.onCust f).flag g = s.flag g := rfl
@[simp] theorem State.onAe_reg (f : Ae → Ae) (x : Nat) : (s.onAe f).reg x = s.reg x := rfl
@[simp] theorem State.onAe_fd (f : Ae → Ae) (g : Fd) : (s.onAe f).fd g = s.fd g := rfl
@[simp] theorem State.onAe_flag (f : Ae → Ae) (g : Fd) : (s.onAe f).flag g = s.flag g := rfl
@[simp] theorem State.onTier_reg (f : TierBlock → TierBlock) (x : Nat) : (s.onTier f).reg x = s.reg x := rfl
@[simp] theorem State.onTier_fd (f : TierBlock → TierBlock) (g : Fd) : (s.onTier f).fd g = s.fd g := rfl
@[simp] theorem State.onTier_flag (f : TierBlock → TierBlock) (g : Fd) : (s.onTier f).flag g = s.flag g := rfl
@[simp] theorem State.onRmo_reg (f : Rmo → Rmo) (x : Nat) : (s.onRmo f).reg x = s.reg x := rfl
@[simp] theorem State.onRmo_fd (f : Rmo → Rmo) (g : Fd) : (s.onRmo f).fd g = s.fd g := rfl
@[simp] theorem State.onRmo_flag (f : Rmo → Rmo) (g : Fd) : (s.onRmo f).flag g = s.flag g := rfl
@[simp] theorem State.onSec_reg (f : Sec → Sec) (x : Nat) : (s.onSec f).reg x = s.reg x := rfl
@[simp] theorem State.onSec_fd (f : Sec → Sec) (g : Fd) : (s.onSec f).fd g = s.fd g := rfl
@[simp] theorem State.onSec_flag (f : Sec → Sec) (g : Fd) : (s.onSec f).flag g = s.flag g := rfl
@[simp] theorem State.onFlt_reg (f : Flt → Flt) (x : Nat) : (s.onFlt f).reg x = s.reg x := rfl
@[simp] theorem State.onFlt_fd (f : Flt → Flt) (g : Fd) : (s.onFlt f).fd g = s.fd g := rfl
@[simp] theorem State.onFlt_flag (f : Flt → Flt) (g : Fd) : (s.onFlt f).flag g = s.flag g := rfl
@[simp] theorem State.onWxp_reg (f : Wxp → Wxp) (x : Nat) : (s.onWxp f).reg x = s.reg x := rfl
@[simp] theorem State.onWxp_fd (f : Wxp → Wxp) (g : Fd) : (s.onWxp f).fd g = s.fd g := rfl
@[simp] theorem State.onWxp_flag (f : Wxp → Wxp) (g : Fd) : (s.onWxp f).flag g = s.flag g := rfl
@[simp] theorem State.onGlb_reg (f : Glb → Glb) (x : Nat) : (s.onGlb f).reg x = s.reg x := rfl
@[simp] theorem State.onGlb_fd (f : Glb → Glb) (g : Fd) : (s.onGlb f).fd g = s.fd g := rfl
@[simp] theorem State.onGlb_flag (f : Glb → Glb) (g : Fd) : (s.onGlb f).flag g = s.flag g := rfl
@[simp] theorem State.onMgt_reg (f : Mgt → Mgt) (x : Nat) : (s.onMgt f).reg x = s.reg x := rfl
@[simp] theorem State.onMgt_fd (f : Mgt → Mgt) (g : Fd) : (s.onMgt f).fd g = s.fd g := rfl
@[simp] theorem State.onMgt_flag (f : Mgt → Mgt) (g : Fd) : (s.onMgt f).flag g = s.flag g := rfl
@[simp] theorem State.onTap_reg (f : Tap → Tap) (x : Nat) : (s.onTap f).reg x = s.reg x := rfl
@[simp] theorem State.onTap_fd (f : Tap → Tap) (g : Fd) : (s.onTap f).fd g = s.fd g := rfl
@[simp] theorem State.onTap_flag (f : Tap → Tap) (g : Fd) : (s.onTap f).flag g = s.flag g := rfl
@[simp] theorem State.onHb_reg (f : HbmBlock → HbmBlock) (x : Nat) : (s.onHb f).reg x = s.reg x := rfl
@[simp] theorem State.onHb_fd (f : HbmBlock → HbmBlock) (g : Fd) : (s.onHb f).fd g = s.fd g := rfl
@[simp] theorem State.onHb_flag (f : HbmBlock → HbmBlock) (g : Fd) : (s.onHb f).flag g = s.flag g := rfl
@[simp] theorem State.commit_reg (t : State) (a : Nat) : (s.commit t).reg a = t.reg a := rfl
@[simp] theorem State.commit_fd (t : State) (g : Fd) : (s.commit t).fd g = t.fd g := rfl
@[simp] theorem State.commit_flag (t : State) (g : Fd) : (s.commit t).flag g = t.flag g := rfl

end Sys2Proof.Machine
end

