-- ==== Sys2Proof/Laws/Memory.lean ====
section
/-! SUPPORT. Memory: what a write reads back as, and that every operation keeps the canonical form. -/

namespace Sys2Proof.Machine

/-- A byte after a write. -/
theorem byteOf_putBytes (l : List Byte) : ∀ (m : List Host.Cell) (a x : Nat),
    byteOf (putBytes m a l) x = if a ≤ x ∧ x < a + l.length then (l[x - a]?).getD 0 else byteOf m x := by
  induction l with
  | nil => intro m a x; rw [if_neg (by simp)]; rfl
  | cons b l ih =>
    intro m a x
    rw [putBytes, ih, List.length_cons]
    by_cases h : x = a
    · subst h; simp [byteOf]
    · have hne : byteOf (tput 0 m a b) x = byteOf m x := tget_tput_ne _ _ _ h
      by_cases h2 : a ≤ x ∧ x < a + (l.length + 1)
      · obtain ⟨k, hk⟩ : ∃ k, x - a = k + 1 := ⟨x - a - 1, by omega⟩
        rw [if_pos h2, if_pos (by omega), hk, show x - (a + 1) = k by omega]; simp
      · rw [if_neg h2, if_neg (by omega), hne]

/-- A byte outside a write is as it was. -/
theorem byteOf_putBytes_outside (m : List Host.Cell) (a : Nat) (l : List Byte) {x : Nat} (h : x < a ∨ a + l.length ≤ x) :
    byteOf (putBytes m a l) x = byteOf m x := by rw [byteOf_putBytes, if_neg (by omega)]

/-- A byte of HBM after a write. -/
theorem State.byteOf_hbmWrite (s : State) (a : Nat) (l : List Byte) (x : Nat) :
    byteOf (s.hbmWrite a l).hbm x =
      if a ≤ x ∧ x < a + min (hbmBytes - a) l.length then (l[x - a]?).getD 0 else byteOf s.hbm x := by
  rw [State.hbmWrite, byteOf_putBytes, List.length_take]
  split
  · rename_i h; rw [List.getElem?_take_of_lt (by omega)]
  · rfl

theorem State.byteOf_hbmWrite_outside (s : State) (a : Nat) (l : List Byte) {x : Nat} (h : x < a ∨ a + l.length ≤ x) :
    byteOf (s.hbmWrite a l).hbm x = byteOf s.hbm x := by rw [State.byteOf_hbmWrite, if_neg (by omega)]

/-- What was written is read back, where it lies below the end of usable HBM. -/
theorem State.hbmRead_hbmWrite (s : State) (a : Nat) (l : List Byte) (h : a + l.length ≤ hbmBytes) :
    (s.hbmWrite a l).hbmRead a l.length = l := by
  apply List.ext_getElem?
  intro i
  simp only [State.hbmRead, bytesOf, List.getElem?_map]
  by_cases hi : i < l.length
  · rw [List.getElem?_range hi, Option.map_some, State.byteOf_hbmWrite, if_pos (by omega)]
    simp [hi]
  · rw [List.getElem?_eq_none (by simpa using hi), List.getElem?_eq_none (by omega)]; rfl

/-- A byte after a range is zeroed. -/
theorem byteOf_zeroRange (m : List Host.Cell) (a n x : Nat) :
    byteOf (zeroRange m a n) x = if a ≤ x ∧ x < a + n then 0 else byteOf m x := by
  induction m with
  | nil => simp [zeroRange, byteOf]
  | cons p m ih =>
    obtain ⟨k, v⟩ := p
    simp only [zeroRange, byteOf] at ih ⊢
    by_cases hk : k < a ∨ a + n ≤ k
    · rw [List.filter_cons_of_pos (by simpa using hk)]
      by_cases hx : k = x
      · subst hx; rw [if_neg (by omega)]; simp [tget, tfind]
      · simpa [tget, tfind, hx] using ih
    · rw [List.filter_cons_of_neg (by simpa using hk)]
      by_cases hx : k = x
      · subst hx; rw [ih, if_pos (by omega), if_pos (by omega)]
      · rw [ih]; simp [tget, tfind, hx]

/-! ## The canonical form -/

/-- A write keeps the form. -/
theorem mwf_putBytes (l : List Byte) : ∀ (m : List Host.Cell) (a : Nat), Memory.wf m → Memory.wf (putBytes m a l) := by
  induction l with
  | nil => intro m a h; exact h
  | cons b l ih => intro m a h; exact ih _ _ (mwf_tput _ _ _ _ h)

theorem mwf_zeroRange (m : List Host.Cell) (a n : Nat) (h : Memory.wf m) : Memory.wf (zeroRange m a n) := by
  simp only [Memory.wf, mwf, twf, Bool.and_eq_true, List.all_eq_true, decide_eq_true_eq] at h ⊢
  exact ⟨keysAbove_filter _ m 0 h.1, fun p hp => h.2 p (List.mem_filter.mp hp).1⟩

theorem State.wf_hbmWrite (s : State) (a : Nat) (l : List Byte) (h : Memory.wf s.hbm) : Memory.wf (s.hbmWrite a l).hbm :=
  mwf_putBytes _ _ _ h

theorem State.wf_pcWrite (s : State) (a : Nat) (l : List Byte) (h : Memory.wf s.pcache) : Memory.wf (s.pcWrite a l).pcache :=
  mwf_putBytes _ _ _ h

/-! ## The end of a command -/

@[simp] theorem State.commit_byteOf_hbm (s t : State) (x : Nat) : byteOf (s.commit t).hbm x = byteOf t.hbm x := tget_canon _ _ _
@[simp] theorem State.commit_byteOf_pcache (s t : State) (x : Nat) : byteOf (s.commit t).pcache x = byteOf t.pcache x :=
  tget_canon _ _ _
@[simp] theorem State.commit_hbmRead (s t : State) (a n : Nat) : (s.commit t).hbmRead a n = t.hbmRead a n := by
  simp only [State.hbmRead, bytesOf, State.commit_byteOf_hbm]
@[simp] theorem State.commit_pcRead (s t : State) (a n : Nat) : (s.commit t).pcRead a n = t.pcRead a n := by
  simp only [State.pcRead, bytesOf, State.commit_byteOf_pcache]

theorem State.commit_safe (s t : State) : (s.commit t).Safe := ⟨mwf_canon _ _, mwf_canon _ _⟩

/-- A command's act on a device that is not held in reset. -/
theorem act_next (s : State) (f : State → State) (h : s.inReset = false) : act s f = .next (s.commit (f s)) := by
  simp [act, h, actAlways]

theorem actIf_next (s : State) (c : Bool) (f : State → State) (h : s.inReset = false) (hc : c = true) :
    actIf s c f = .next (s.commit (f s)) := by simp [actIf, act_next s _ h, hc]

/-- Where reset is held nothing acts (R412). -/
theorem act_held (s : State) (f : State → State) (h : s.inReset = true) : act s f = .next s := by simp [act, h]

theorem actIf_held (s : State) (c : Bool) (f : State → State) (h : s.inReset = true) : actIf s c f = .next s := act_held _ _ h

end Sys2Proof.Machine
end

