-- ==== Sys2Proof/Laws/Ops.lean ====
section
/-! SUPPORT. What the shared operations do: a message sent, a response, a mailbox entry, a settling with nothing waiting. -/

namespace Sys2Proof.Machine

/-! ## Registers -/

theorem State.flag_raise (s : State) (f : Fd) (h : f.hi < 64) (h1 : f.hi = f.lo) : (s.raise f).flag f = true := by
  rw [State.flag, State.raise, State.fd_setFd_same _ _ _ h, h1, show f.lo + 1 - f.lo = 1 by omega]; rfl

theorem State.regsBut_setFd (s : State) (f : Fd) (v : Nat) : s.regsBut [f.addr] (s.setFd f v) :=
  fun _ h => State.reg_setFd_ne s f v (by simpa using h)

theorem State.only_setFd (s : State) (f : Fd) (v : Nat) : s.only [.csr] (s.setFd f v) :=
  ⟨rfl, fun p hp => by cases p <;> first | rfl | exact fun _ => rfl | exact absurd (by simp) hp⟩

/-! ## Conduits -/

theorem tfind_tmod_same {α : Type} (t : Tbl α) (a : Nat) (f : α → α) : tfind (tmod t a f) a = (tfind t a).map f := by
  unfold tmod
  cases h : tfind t a with
  | none => simp [h]
  | some x => simp

theorem tfind_tmod_ne {α : Type} (t : Tbl α) {a b : Nat} (f : α → α) (h : b ≠ a) : tfind (tmod t a f) b = tfind t b := by
  unfold tmod
  split
  · rfl
  · exact tfind_tset_ne t _ h

theorem State.conduit_modConduit (s : State) (c : Nat) (f : ConduitState → ConduitState) (j : Nat) :
    (s.modConduit c f).conduit j = if j = c then (s.conduit c).map f else s.conduit j := by
  split
  · rename_i h; subst h; exact tfind_tmod_same _ _ _
  · rename_i h; exact tfind_tmod_ne _ _ h

/-- A conduit that takes messages takes one more, and nothing else changes. -/
theorem State.sent_send (s : State) (c op svc : Nat) (payload : List Byte) (p : Purpose) (h : s.sends c) :
    s.sent c op payload (s.send c op svc payload p) := by
  obtain ⟨h1, h2⟩ := h
  obtain ⟨cd, hcd, hst⟩ := Option.map_eq_some_iff.mp h1
  let m : OutMsg := { OutMsg.mk' op svc payload p with
    q := cd.qnext, egress := (List.range (cd.segCount payload.length)).map (fun i => s.egressOf cd cd.qnext i 0) }
  refine ⟨cd, { cd with queue := cd.queue ++ [m], qnext := (cd.qnext + 1) % 2 ^ 32 }, m, hcd, ?_, rfl, rfl, rfl⟩
  simp [State.send, State.enqueue, hcd, hst, h2, OutMsg.mk', State.conduit_modConduit, m]

theorem State.answered_respond (s : State) (c q svc st : Nat) (body : List Byte) (h : s.sends c) :
    s.answered c q st body (s.respond c q svc st body) := by
  have h' := State.sent_send s c (if st ≤ 2 then 0x30 else 0x31) svc (respHeader q st ++ body) .plain h
  simpa only [State.answered, State.respond, respHeader, List.append_assoc] using h'

/-! ## Mailboxes -/

theorem slice_length (p : List Byte) (off n : Nat) : (slice p off n).length = n := by
  simp only [slice, List.length_append, List.length_take, List.length_drop, List.length_replicate]; omega

/-- An entry of 64 bytes at PI; nothing else of memory changes. -/
theorem State.hbmBut_mbPut (s : State) (m ty len addr : Nat) (body : List Byte) :
    s.hbmBut (s.mbEntry m) 64 (s.mbPut m ty len addr body) := by
  intro a ha
  simp only [State.mbPut, State.onEvc, State.setFd_hbm]
  refine State.byteOf_hbmWrite_outside s _ _ ?_
  simp only [List.length_append, slice_length, le_length]
  exact ha

/-! ## Settling (R326, R464) -/

/-- With no operation, copy or held message waiting, settling changes nothing. -/
@[simp] theorem State.settle_quiet (s : State) (h1 : s.pgt.ops = []) (h2 : s.pgt.copies = []) (h3 : s.cust.held = []) : s.settle = s := by
  simp [State.settle, State.settleFor, State.settleOnce, State.answerAborts, h1, h2, h3]

/-- With nothing borrowed there is nothing to give back. -/
@[simp] theorem State.returnExtents_quiet (s : State) (h : s.tier.borrowed = []) : s.returnExtents = s := by
  simp [State.returnExtents, h]

end Sys2Proof.Machine
end

