-- ==== Sys2Proof/Laws/PerInstr.lean ====
section
/-! SUPPORT. One lemma per command about its operands as syntax (LAWS.json, family MessageBound). -/

namespace Sys2Proof.Laws.MessageBound

/-- A well-formed command carries no more payload than a message may have (R251). -/
def Statement (i : Sys2Proof.Instr) : Prop := i.wf = true → i.payload.length ≤ Sys2Proof.maxMessage

theorem registerWrite : ∀ (addr : Sys2Proof.W32) (v : Sys2Proof.Word), Statement (Sys2Proof.Instr.registerWrite addr v) :=
  fun _ _ => fun _ => Nat.zero_le _
theorem csrMisalignedAccess : ∀ (core : Fin 16) (addr : Sys2Proof.W32) (width : Nat) (store : Bool), Statement (Sys2Proof.Instr.csrMisalignedAccess core addr width store) :=
  fun _ _ _ _ => fun _ => Nat.zero_le _
theorem rcCounterRead : ∀ (addr : Sys2Proof.W32), Statement (Sys2Proof.Instr.rcCounterRead addr) :=
  fun _ => fun _ => Nat.zero_le _
theorem append : ∀ (c : Sys2Proof.Conduit) (q : Sys2Proof.W32) (p : List Sys2Proof.Byte), Statement (Sys2Proof.Instr.append c q p) :=
  fun _ _ _ => fun h => of_decide_eq_true h
theorem sealSeq : ∀ (c : Sys2Proof.Conduit) (q : Sys2Proof.W32) (p : List Sys2Proof.Byte), Statement (Sys2Proof.Instr.sealSeq c q p) :=
  fun _ _ _ => fun h => of_decide_eq_true h
theorem fork : ∀ (c : Sys2Proof.Conduit) (q : Sys2Proof.W32) (p : List Sys2Proof.Byte), Statement (Sys2Proof.Instr.fork c q p) :=
  fun _ _ _ => fun h => of_decide_eq_true h
theorem truncate : ∀ (c : Sys2Proof.Conduit) (q : Sys2Proof.W32) (p : List Sys2Proof.Byte), Statement (Sys2Proof.Instr.truncate c q p) :=
  fun _ _ _ => fun h => of_decide_eq_true h
theorem purgeRegister : ∀ (idx : Nat), Statement (Sys2Proof.Instr.purgeRegister idx) :=
  fun _ => fun _ => Nat.zero_le _
theorem free : ∀ (c : Sys2Proof.Conduit) (q : Sys2Proof.W32) (p : List Sys2Proof.Byte), Statement (Sys2Proof.Instr.free c q p) :=
  fun _ _ _ => fun h => of_decide_eq_true h
theorem pageSeal : ∀ (desc : Nat), Statement (Sys2Proof.Instr.pageSeal desc) :=
  fun _ => fun _ => Nat.zero_le _
theorem sealCrcDone : ∀ (desc : Nat), Statement (Sys2Proof.Instr.sealCrcDone desc) :=
  fun _ => fun _ => Nat.zero_le _
theorem coldConversion : ∀ (idx : Nat), Statement (Sys2Proof.Instr.coldConversion idx) :=
  fun _ => fun _ => Nat.zero_le _
theorem thaw : ∀ (idx : Nat), Statement (Sys2Proof.Instr.thaw idx) :=
  fun _ => fun _ => Nat.zero_le _
theorem thawDone : ∀ (idx : Nat) (answered : Bool) (twin : List Sys2Proof.Byte), Statement (Sys2Proof.Instr.thawDone idx answered twin) :=
  fun _ _ _ => fun _ => Nat.zero_le _
theorem pgtEpochAdvance : Statement Sys2Proof.Instr.pgtEpochAdvance := fun _ => Nat.zero_le _
theorem pageReclaim : ∀ (desc : Nat), Statement (Sys2Proof.Instr.pageReclaim desc) :=
  fun _ => fun _ => Nat.zero_le _
theorem cvuGo : ∀ (u : Fin 16) (v : Sys2Proof.Word), Statement (Sys2Proof.Instr.cvuGo u v) :=
  fun _ _ => fun _ => Nat.zero_le _
theorem cvuCtxWrite : ∀ (u : Fin 16) (v : Sys2Proof.Word), Statement (Sys2Proof.Instr.cvuCtxWrite u v) :=
  fun _ _ => fun _ => Nat.zero_le _
theorem cvuJobDone : ∀ (u : Fin 16) (errAt : Option Nat), Statement (Sys2Proof.Instr.cvuJobDone u errAt) :=
  fun _ _ => fun _ => Nat.zero_le _
theorem classDefine : ∀ (v : Sys2Proof.Word), Statement (Sys2Proof.Instr.classDefine v) :=
  fun _ => fun _ => Nat.zero_le _
theorem classDef1Write : ∀ (v : Sys2Proof.Word), Statement (Sys2Proof.Instr.classDef1Write v) :=
  fun _ => fun _ => Nat.zero_le _
theorem descSnapshot : ∀ (v : Sys2Proof.Word), Statement (Sys2Proof.Instr.descSnapshot v) :=
  fun _ => fun _ => Nat.zero_le _
theorem lookup : ∀ (c : Sys2Proof.Conduit) (q : Sys2Proof.W32) (p : Sys2Proof.PdirReq), Statement (Sys2Proof.Instr.lookup c q p) :=
  fun _ _ _ => fun h => of_decide_eq_true h
theorem lookupNext : ∀ (c : Sys2Proof.Conduit) (q : Sys2Proof.W32) (p : Sys2Proof.PdirReq), Statement (Sys2Proof.Instr.lookupNext c q p) :=
  fun _ _ _ => fun h => of_decide_eq_true h
theorem adoptFork : ∀ (c : Sys2Proof.Conduit) (q : Sys2Proof.W32) (p : Sys2Proof.PdirReq), Statement (Sys2Proof.Instr.adoptFork c q p) :=
  fun _ _ _ => fun h => of_decide_eq_true h
theorem ageDecrement : Statement Sys2Proof.Instr.ageDecrement := fun _ => Nat.zero_le _
theorem pdirScrubPass : ∀ (ue : List Nat), Statement (Sys2Proof.Instr.pdirScrubPass ue) :=
  fun _ => fun _ => Nat.zero_le _
theorem purgePassDone : ∀ (k : Fin 64), Statement (Sys2Proof.Instr.purgePassDone k) :=
  fun _ => fun _ => Nat.zero_le _
theorem pdirDisable : ∀ (v : Sys2Proof.Word), Statement (Sys2Proof.Instr.pdirDisable v) :=
  fun _ => fun _ => Nat.zero_le _
theorem pdirEnable : ∀ (v : Sys2Proof.Word), Statement (Sys2Proof.Instr.pdirEnable v) :=
  fun _ => fun _ => Nat.zero_le _
theorem query : ∀ (c : Sys2Proof.Conduit) (q : Sys2Proof.W32) (p : List Sys2Proof.Byte), Statement (Sys2Proof.Instr.query c q p) :=
  fun _ _ _ => fun h => of_decide_eq_true h
theorem batchQuery : ∀ (c : Sys2Proof.Conduit) (q : Sys2Proof.W32) (p : List Sys2Proof.Byte), Statement (Sys2Proof.Instr.batchQuery c q p) :=
  fun _ _ _ => fun h => of_decide_eq_true h
theorem subquery : ∀ (c : Sys2Proof.Conduit) (q : Sys2Proof.W32) (p : List Sys2Proof.Byte), Statement (Sys2Proof.Instr.subquery c q p) :=
  fun _ _ _ => fun h => of_decide_eq_true h
theorem windowSplit : ∀ (st : Nat), Statement (Sys2Proof.Instr.windowSplit st) :=
  fun _ => fun _ => Nat.zero_le _
theorem workItemDispatch : ∀ (st : Nat), Statement (Sys2Proof.Instr.workItemDispatch st) :=
  fun _ => fun _ => Nat.zero_le _
theorem engineUnitEnd : ∀ (e : Fin 80) (ce : Nat) (errs : Sys2Proof.Errs), Statement (Sys2Proof.Instr.engineUnitEnd e ce errs) :=
  fun _ _ _ => fun _ => Nat.zero_le _
theorem lockWaitExpire : ∀ (e : Fin 96), Statement (Sys2Proof.Instr.lockWaitExpire e) :=
  fun _ => fun _ => Nat.zero_le _
theorem engineSramUe : ∀ (e : Fin 80), Statement (Sys2Proof.Instr.engineSramUe e) :=
  fun _ => fun _ => Nat.zero_le _
theorem streamTimeout : ∀ (st : Nat), Statement (Sys2Proof.Instr.streamTimeout st) :=
  fun _ => fun _ => Nat.zero_le _
theorem abort : ∀ (c : Sys2Proof.Conduit) (q : Sys2Proof.W32) (p : List Sys2Proof.Byte), Statement (Sys2Proof.Instr.abort c q p) :=
  fun _ _ _ => fun h => of_decide_eq_true h
theorem mergeRecord : ∀ (u : Fin 4), Statement (Sys2Proof.Instr.mergeRecord u) :=
  fun _ => fun _ => Nat.zero_le _
theorem partialRecord : ∀ (c : Sys2Proof.Conduit) (q : Sys2Proof.W32) (p : List Sys2Proof.Byte), Statement (Sys2Proof.Instr.partialRecord c q p) :=
  fun _ _ _ => fun h => of_decide_eq_true h
theorem mergeAreaUe : ∀ (st : Nat), Statement (Sys2Proof.Instr.mergeAreaUe st) :=
  fun _ => fun _ => Nat.zero_le _
theorem resultDelivered : ∀ (st : Nat), Statement (Sys2Proof.Instr.resultDelivered st) :=
  fun _ => fun _ => Nat.zero_le _
theorem grant : ∀ (c : Sys2Proof.Conduit) (q : Sys2Proof.W32) (p : List Sys2Proof.Byte), Statement (Sys2Proof.Instr.grant c q p) :=
  fun _ _ _ => fun h => of_decide_eq_true h
theorem wxpLoad : ∀ (v : Sys2Proof.Word), Statement (Sys2Proof.Instr.wxpLoad v) :=
  fun _ => fun _ => Nat.zero_le _
theorem wxpLoadComplete : ∀ (part : Fin 16) (img : Fin 8) (ue tue : List Nat), Statement (Sys2Proof.Instr.wxpLoadComplete part img ue tue) :=
  fun _ _ _ _ => fun _ => Nat.zero_le _
theorem wxpUnload : ∀ (v : Sys2Proof.Word), Statement (Sys2Proof.Instr.wxpUnload v) :=
  fun _ => fun _ => Nat.zero_le _
theorem wxpUnloadComplete : ∀ (part : Fin 16) (img : Fin 8), Statement (Sys2Proof.Instr.wxpUnloadComplete part img) :=
  fun _ _ => fun _ => Nat.zero_le _
theorem wxpRestore : ∀ (v : Sys2Proof.Word), Statement (Sys2Proof.Instr.wxpRestore v) :=
  fun _ => fun _ => Nat.zero_le _
theorem wxpRestoreComplete : ∀ (part : Fin 16) (img : Fin 8) (ue tue : Bool), Statement (Sys2Proof.Instr.wxpRestoreComplete part img ue tue) :=
  fun _ _ _ _ => fun _ => Nat.zero_le _
theorem wxpTileRequest : ∀ (st : Nat), Statement (Sys2Proof.Instr.wxpTileRequest st) :=
  fun _ => fun _ => Nat.zero_le _
theorem wxpBlockDecoded : ∀ (lane : Fin 8) (ue tue : Bool), Statement (Sys2Proof.Instr.wxpBlockDecoded lane ue tue) :=
  fun _ _ _ => fun _ => Nat.zero_le _
theorem wxpCopyGo : ∀ (v : Sys2Proof.Word), Statement (Sys2Proof.Instr.wxpCopyGo v) :=
  fun _ => fun _ => Nat.zero_le _
theorem wxpCopyDone : ∀ (errAt : Option Nat), Statement (Sys2Proof.Instr.wxpCopyDone errAt) :=
  fun _ => fun _ => Nat.zero_le _
theorem heatSweep : Statement Sys2Proof.Instr.heatSweep := fun _ => Nat.zero_le _
theorem sweepDone : Statement Sys2Proof.Instr.sweepDone := fun _ => Nat.zero_le _
theorem leapBegin : ∀ (desc : Nat) (dest : Nat), Statement (Sys2Proof.Instr.leapBegin desc dest) :=
  fun _ _ => fun _ => Nat.zero_le _
theorem leapCommit : ∀ (desc : Nat) (ok : Bool), Statement (Sys2Proof.Instr.leapCommit desc ok) :=
  fun _ _ => fun _ => Nat.zero_le _
theorem pin : ∀ (v : Sys2Proof.Word), Statement (Sys2Proof.Instr.pin v) :=
  fun _ => fun _ => Nat.zero_le _
theorem unpin : ∀ (v : Sys2Proof.Word), Statement (Sys2Proof.Instr.unpin v) :=
  fun _ => fun _ => Nat.zero_le _
theorem faultIssue : ∀ (desc : Nat), Statement (Sys2Proof.Instr.faultIssue desc) :=
  fun _ => fun _ => Nat.zero_le _
theorem faultLand : ∀ (desc : Nat) (ok : Bool), Statement (Sys2Proof.Instr.faultLand desc ok) :=
  fun _ _ => fun _ => Nat.zero_le _
theorem assemblyUnitProgram : ∀ (part : Fin 16) (mirror : Bool), Statement (Sys2Proof.Instr.assemblyUnitProgram part mirror) :=
  fun _ _ => fun _ => Nat.zero_le _
theorem offerSend : ∀ (peer : Fin 16), Statement (Sys2Proof.Instr.offerSend peer) :=
  fun _ => fun _ => Nat.zero_le _
theorem lendOffer : ∀ (c : Sys2Proof.Conduit) (q : Sys2Proof.W32) (p : List Sys2Proof.Byte), Statement (Sys2Proof.Instr.lendOffer c q p) :=
  fun _ _ _ => fun h => of_decide_eq_true h
theorem leapPush : ∀ (c : Sys2Proof.Conduit) (q : Sys2Proof.W32) (p : List Sys2Proof.Byte), Statement (Sys2Proof.Instr.leapPush c q p) :=
  fun _ _ _ => fun h => of_decide_eq_true h
theorem leapPull : ∀ (c : Sys2Proof.Conduit) (q : Sys2Proof.W32) (p : List Sys2Proof.Byte), Statement (Sys2Proof.Instr.leapPull c q p) :=
  fun _ _ _ => fun h => of_decide_eq_true h
theorem lendRelease : ∀ (c : Sys2Proof.Conduit) (q : Sys2Proof.W32) (p : List Sys2Proof.Byte), Statement (Sys2Proof.Instr.lendRelease c q p) :=
  fun _ _ _ => fun h => of_decide_eq_true h
theorem recallStart : Statement Sys2Proof.Instr.recallStart := fun _ => Nat.zero_le _
theorem lendRecall : ∀ (c : Sys2Proof.Conduit) (q : Sys2Proof.W32) (p : List Sys2Proof.Byte), Statement (Sys2Proof.Instr.lendRecall c q p) :=
  fun _ _ _ => fun h => of_decide_eq_true h
theorem lendReturn : ∀ (c : Sys2Proof.Conduit) (q : Sys2Proof.W32) (p : List Sys2Proof.Byte), Statement (Sys2Proof.Instr.lendReturn c q p) :=
  fun _ _ _ => fun h => of_decide_eq_true h
theorem recallDeadline : ∀ (ext : Fin 512), Statement (Sys2Proof.Instr.recallDeadline ext) :=
  fun _ => fun _ => Nat.zero_le _
theorem lendReassign : ∀ (c : Sys2Proof.Conduit) (q : Sys2Proof.W32) (p : List Sys2Proof.Byte), Statement (Sys2Proof.Instr.lendReassign c q p) :=
  fun _ _ _ => fun h => of_decide_eq_true h
theorem extentReclaim : ∀ (ext : Fin 512), Statement (Sys2Proof.Instr.extentReclaim ext) :=
  fun _ => fun _ => Nat.zero_le _
theorem tierExtSnapshot : ∀ (v : Sys2Proof.Word), Statement (Sys2Proof.Instr.tierExtSnapshot v) :=
  fun _ => fun _ => Nat.zero_le _
theorem add : ∀ (k : Fin 256) (d a b : Fin 16) (imm : BitVec 14), Statement (Sys2Proof.Instr.add k d a b imm) :=
  fun _ _ _ _ _ => fun _ => Nat.zero_le _
theorem sub : ∀ (k : Fin 256) (d a b : Fin 16) (imm : BitVec 14), Statement (Sys2Proof.Instr.sub k d a b imm) :=
  fun _ _ _ _ _ => fun _ => Nat.zero_le _
theorem and : ∀ (k : Fin 256) (d a b : Fin 16) (imm : BitVec 14), Statement (Sys2Proof.Instr.and k d a b imm) :=
  fun _ _ _ _ _ => fun _ => Nat.zero_le _
theorem or : ∀ (k : Fin 256) (d a b : Fin 16) (imm : BitVec 14), Statement (Sys2Proof.Instr.or k d a b imm) :=
  fun _ _ _ _ _ => fun _ => Nat.zero_le _
theorem xor : ∀ (k : Fin 256) (d a b : Fin 16) (imm : BitVec 14), Statement (Sys2Proof.Instr.xor k d a b imm) :=
  fun _ _ _ _ _ => fun _ => Nat.zero_le _
theorem shl : ∀ (k : Fin 256) (d a b : Fin 16) (imm : BitVec 14), Statement (Sys2Proof.Instr.shl k d a b imm) :=
  fun _ _ _ _ _ => fun _ => Nat.zero_le _
theorem shr : ∀ (k : Fin 256) (d a b : Fin 16) (imm : BitVec 14), Statement (Sys2Proof.Instr.shr k d a b imm) :=
  fun _ _ _ _ _ => fun _ => Nat.zero_le _
theorem sra : ∀ (k : Fin 256) (d a b : Fin 16) (imm : BitVec 14), Statement (Sys2Proof.Instr.sra k d a b imm) :=
  fun _ _ _ _ _ => fun _ => Nat.zero_le _
theorem mul : ∀ (k : Fin 256) (d a b : Fin 16) (imm : BitVec 14), Statement (Sys2Proof.Instr.mul k d a b imm) :=
  fun _ _ _ _ _ => fun _ => Nat.zero_le _
theorem sltu : ∀ (k : Fin 256) (d a b : Fin 16) (imm : BitVec 14), Statement (Sys2Proof.Instr.sltu k d a b imm) :=
  fun _ _ _ _ _ => fun _ => Nat.zero_le _
theorem slt : ∀ (k : Fin 256) (d a b : Fin 16) (imm : BitVec 14), Statement (Sys2Proof.Instr.slt k d a b imm) :=
  fun _ _ _ _ _ => fun _ => Nat.zero_le _
theorem addi : ∀ (k : Fin 256) (d a b : Fin 16) (imm : BitVec 14), Statement (Sys2Proof.Instr.addi k d a b imm) :=
  fun _ _ _ _ _ => fun _ => Nat.zero_le _
theorem andi : ∀ (k : Fin 256) (d a b : Fin 16) (imm : BitVec 14), Statement (Sys2Proof.Instr.andi k d a b imm) :=
  fun _ _ _ _ _ => fun _ => Nat.zero_le _
theorem ori : ∀ (k : Fin 256) (d a b : Fin 16) (imm : BitVec 14), Statement (Sys2Proof.Instr.ori k d a b imm) :=
  fun _ _ _ _ _ => fun _ => Nat.zero_le _
theorem xori : ∀ (k : Fin 256) (d a b : Fin 16) (imm : BitVec 14), Statement (Sys2Proof.Instr.xori k d a b imm) :=
  fun _ _ _ _ _ => fun _ => Nat.zero_le _
theorem shli : ∀ (k : Fin 256) (d a b : Fin 16) (imm : BitVec 14), Statement (Sys2Proof.Instr.shli k d a b imm) :=
  fun _ _ _ _ _ => fun _ => Nat.zero_le _
theorem shri : ∀ (k : Fin 256) (d a b : Fin 16) (imm : BitVec 14), Statement (Sys2Proof.Instr.shri k d a b imm) :=
  fun _ _ _ _ _ => fun _ => Nat.zero_le _
theorem lui : ∀ (k : Fin 256) (gd : Fin 16) (imm : BitVec 18), Statement (Sys2Proof.Instr.lui k gd imm) :=
  fun _ _ _ => fun _ => Nat.zero_le _
theorem ldw : ∀ (k : Fin 256) (d a b : Fin 16) (imm : BitVec 14), Statement (Sys2Proof.Instr.ldw k d a b imm) :=
  fun _ _ _ _ _ => fun _ => Nat.zero_le _
theorem stw : ∀ (k : Fin 256) (d a b : Fin 16) (imm : BitVec 14), Statement (Sys2Proof.Instr.stw k d a b imm) :=
  fun _ _ _ _ _ => fun _ => Nat.zero_le _
theorem ldb : ∀ (k : Fin 256) (d a b : Fin 16) (imm : BitVec 14), Statement (Sys2Proof.Instr.ldb k d a b imm) :=
  fun _ _ _ _ _ => fun _ => Nat.zero_le _
theorem stb : ∀ (k : Fin 256) (d a b : Fin 16) (imm : BitVec 14), Statement (Sys2Proof.Instr.stb k d a b imm) :=
  fun _ _ _ _ _ => fun _ => Nat.zero_le _
theorem beq : ∀ (k : Fin 256) (d a b : Fin 16) (imm : BitVec 14), Statement (Sys2Proof.Instr.beq k d a b imm) :=
  fun _ _ _ _ _ => fun _ => Nat.zero_le _
theorem bne : ∀ (k : Fin 256) (d a b : Fin 16) (imm : BitVec 14), Statement (Sys2Proof.Instr.bne k d a b imm) :=
  fun _ _ _ _ _ => fun _ => Nat.zero_le _
theorem bltu : ∀ (k : Fin 256) (d a b : Fin 16) (imm : BitVec 14), Statement (Sys2Proof.Instr.bltu k d a b imm) :=
  fun _ _ _ _ _ => fun _ => Nat.zero_le _
theorem bgeu : ∀ (k : Fin 256) (d a b : Fin 16) (imm : BitVec 14), Statement (Sys2Proof.Instr.bgeu k d a b imm) :=
  fun _ _ _ _ _ => fun _ => Nat.zero_le _
theorem jal : ∀ (k : Fin 256) (gd : Fin 16) (imm : BitVec 18), Statement (Sys2Proof.Instr.jal k gd imm) :=
  fun _ _ _ => fun _ => Nat.zero_le _
theorem jalr : ∀ (k : Fin 256) (d a b : Fin 16) (imm : BitVec 14), Statement (Sys2Proof.Instr.jalr k d a b imm) :=
  fun _ _ _ _ _ => fun _ => Nat.zero_le _
theorem hld : ∀ (k : Fin 256) (d a b : Fin 16) (imm : BitVec 14) (errs : Sys2Proof.Syms), Statement (Sys2Proof.Instr.hld k d a b imm errs) :=
  fun _ _ _ _ _ _ => fun _ => Nat.zero_le _
theorem hst : ∀ (k : Fin 256) (d a b : Fin 16) (x : Sys2Proof.Rewrite), Statement (Sys2Proof.Instr.hst k d a b x) :=
  fun _ _ _ _ _ => fun _ => Nat.zero_le _
theorem vhalb : ∀ (k : Fin 256) (d a b : Fin 16) (x : Sys2Proof.Rewrite), Statement (Sys2Proof.Instr.vhalb k d a b x) :=
  fun _ _ _ _ _ => fun _ => Nat.zero_le _
theorem vfix : ∀ (k : Fin 256) (d a b : Fin 16) (imm : BitVec 14) (errs : Sys2Proof.Syms), Statement (Sys2Proof.Instr.vfix k d a b imm errs) :=
  fun _ _ _ _ _ _ => fun _ => Nat.zero_le _
theorem vld : ∀ (k : Fin 256) (d a b : Fin 16) (imm : BitVec 14) (errs : Sys2Proof.Syms), Statement (Sys2Proof.Instr.vld k d a b imm errs) :=
  fun _ _ _ _ _ _ => fun _ => Nat.zero_le _
theorem vst : ∀ (k : Fin 256) (d a b : Fin 16) (imm : BitVec 14), Statement (Sys2Proof.Instr.vst k d a b imm) :=
  fun _ _ _ _ _ => fun _ => Nat.zero_le _
theorem vldl : ∀ (k : Fin 256) (d a b : Fin 16) (imm : BitVec 14), Statement (Sys2Proof.Instr.vldl k d a b imm) :=
  fun _ _ _ _ _ => fun _ => Nat.zero_le _
theorem vstl : ∀ (k : Fin 256) (d a b : Fin 16) (imm : BitVec 14), Statement (Sys2Proof.Instr.vstl k d a b imm) :=
  fun _ _ _ _ _ => fun _ => Nat.zero_le _
theorem vxor : ∀ (k : Fin 256) (d a b : Fin 16) (imm : BitVec 14), Statement (Sys2Proof.Instr.vxor k d a b imm) :=
  fun _ _ _ _ _ => fun _ => Nat.zero_le _
theorem vand : ∀ (k : Fin 256) (d a b : Fin 16) (imm : BitVec 14), Statement (Sys2Proof.Instr.vand k d a b imm) :=
  fun _ _ _ _ _ => fun _ => Nat.zero_le _
theorem vor : ∀ (k : Fin 256) (d a b : Fin 16) (imm : BitVec 14), Statement (Sys2Proof.Instr.vor k d a b imm) :=
  fun _ _ _ _ _ => fun _ => Nat.zero_le _
theorem vaddw : ∀ (k : Fin 256) (d a b : Fin 16) (imm : BitVec 14), Statement (Sys2Proof.Instr.vaddw k d a b imm) :=
  fun _ _ _ _ _ => fun _ => Nat.zero_le _
theorem vdig : ∀ (k : Fin 256) (d a b : Fin 16) (imm : BitVec 14), Statement (Sys2Proof.Instr.vdig k d a b imm) :=
  fun _ _ _ _ _ => fun _ => Nat.zero_le _
theorem vcrc : ∀ (k : Fin 256) (d a b : Fin 16) (imm : BitVec 14), Statement (Sys2Proof.Instr.vcrc k d a b imm) :=
  fun _ _ _ _ _ => fun _ => Nat.zero_le _
theorem vbcast : ∀ (k : Fin 256) (d a b : Fin 16) (imm : BitVec 14), Statement (Sys2Proof.Instr.vbcast k d a b imm) :=
  fun _ _ _ _ _ => fun _ => Nat.zero_le _
theorem rsend : ∀ (k : Fin 256) (d a b : Fin 16) (imm : BitVec 14), Statement (Sys2Proof.Instr.rsend k d a b imm) :=
  fun _ _ _ _ _ => fun _ => Nat.zero_le _
theorem rrecv : ∀ (k : Fin 256) (d a b : Fin 16) (imm : BitVec 14), Statement (Sys2Proof.Instr.rrecv k d a b imm) :=
  fun _ _ _ _ _ => fun _ => Nat.zero_le _
theorem waitd : ∀ (k : Fin 256) (d a b : Fin 16) (imm : BitVec 14), Statement (Sys2Proof.Instr.waitd k d a b imm) :=
  fun _ _ _ _ _ => fun _ => Nat.zero_le _
theorem donej : ∀ (k : Fin 256) (d a b : Fin 16) (imm : BitVec 14), Statement (Sys2Proof.Instr.donej k d a b imm) :=
  fun _ _ _ _ _ => fun _ => Nat.zero_le _
theorem halt : ∀ (k : Fin 256) (d a b : Fin 16) (imm : BitVec 14), Statement (Sys2Proof.Instr.halt k d a b imm) :=
  fun _ _ _ _ _ => fun _ => Nat.zero_le _
theorem digest : ∀ (k : Fin 256) (slot : Fin 8) (errs rmw : Sys2Proof.Errs), Statement (Sys2Proof.Instr.digest k slot errs rmw) :=
  fun _ _ _ _ => fun _ => Nat.zero_le _
theorem crc : ∀ (k : Fin 256) (slot : Fin 8) (errs rmw : Sys2Proof.Errs), Statement (Sys2Proof.Instr.crc k slot errs rmw) :=
  fun _ _ _ _ => fun _ => Nat.zero_le _
theorem compact : ∀ (k : Fin 256) (slot : Fin 8) (desc : Nat) (errs rmw : Sys2Proof.Errs), Statement (Sys2Proof.Instr.compact k slot desc errs rmw) :=
  fun _ _ _ _ _ => fun _ => Nat.zero_le _
theorem zero : ∀ (k : Fin 256) (slot : Fin 8) (errs rmw : Sys2Proof.Errs), Statement (Sys2Proof.Instr.zero k slot errs rmw) :=
  fun _ _ _ _ => fun _ => Nat.zero_le _
theorem scrubRange : ∀ (k : Fin 256) (slot : Fin 8) (errs rmw : Sys2Proof.Errs), Statement (Sys2Proof.Instr.scrubRange k slot errs rmw) :=
  fun _ _ _ _ => fun _ => Nat.zero_le _
theorem scrubPage : ∀ (k : Fin 256) (slot : Fin 8) (errs rmw : Sys2Proof.Errs), Statement (Sys2Proof.Instr.scrubPage k slot errs rmw) :=
  fun _ _ _ _ => fun _ => Nat.zero_le _
theorem cow : ∀ (k : Fin 256) (slot : Fin 8) (errs rmw : Sys2Proof.Errs), Statement (Sys2Proof.Instr.cow k slot errs rmw) :=
  fun _ _ _ _ => fun _ => Nat.zero_le _
theorem sweep : ∀ (k : Fin 256) (slot : Fin 8) (errs rmw : Sys2Proof.Errs), Statement (Sys2Proof.Instr.sweep k slot errs rmw) :=
  fun _ _ _ _ => fun _ => Nat.zero_le _
theorem gkDoorbell : ∀ (k : Fin 256) (v : Sys2Proof.Word), Statement (Sys2Proof.Instr.gkDoorbell k v) :=
  fun _ _ => fun _ => Nat.zero_le _
theorem slotWrite : ∀ (k : Fin 256) (slot : Fin 8) (w : Fin 4) (v : Sys2Proof.Word), Statement (Sys2Proof.Instr.slotWrite k slot w v) :=
  fun _ _ _ _ => fun _ => Nat.zero_le _
theorem lockRelease : ∀ (k : Fin 256) (slot : Fin 8), Statement (Sys2Proof.Instr.lockRelease k slot) :=
  fun _ _ => fun _ => Nat.zero_le _
theorem geckoWatchdog : ∀ (k : Fin 256), Statement (Sys2Proof.Instr.geckoWatchdog k) :=
  fun _ => fun _ => Nat.zero_le _
theorem geckoStop : ∀ (k : Fin 256) (v : Sys2Proof.Word), Statement (Sys2Proof.Instr.geckoStop k v) :=
  fun _ _ => fun _ => Nat.zero_le _
theorem geckoReset : ∀ (k : Fin 256) (v : Sys2Proof.Word), Statement (Sys2Proof.Instr.geckoReset k v) :=
  fun _ _ => fun _ => Nat.zero_le _
theorem geckoRun : ∀ (k : Fin 256) (v : Sys2Proof.Word), Statement (Sys2Proof.Instr.geckoRun k v) :=
  fun _ _ => fun _ => Nat.zero_le _
theorem ustoreAccess : ∀ (k : Fin 256) (w : Option Sys2Proof.Word), Statement (Sys2Proof.Instr.ustoreAccess k w) :=
  fun _ _ => fun _ => Nat.zero_le _
theorem scratchAccess : ∀ (k : Fin 256) (w : Option Sys2Proof.Word), Statement (Sys2Proof.Instr.scratchAccess k w) :=
  fun _ _ => fun _ => Nat.zero_le _
theorem hbmRefresh : ∀ (k : Fin 256) (bank stallNs : Nat), Statement (Sys2Proof.Instr.hbmRefresh k bank stallNs) :=
  fun _ _ _ => fun _ => Nat.zero_le _
theorem hbmRetrain : ∀ (stack : Fin 8) (r : Sys2Proof.Retraining), Statement (Sys2Proof.Instr.hbmRetrain stack r) :=
  fun _ _ => fun _ => Nat.zero_le _
theorem hbmScrubSchedule : ∀ (k : Fin 256), Statement (Sys2Proof.Instr.hbmScrubSchedule k) :=
  fun _ => fun _ => Nat.zero_le _
theorem fltFormat : ∀ (v : Sys2Proof.Word), Statement (Sys2Proof.Instr.fltFormat v) :=
  fun _ => fun _ => Nat.zero_le _
theorem fltReplay : ∀ (v : Sys2Proof.Word), Statement (Sys2Proof.Instr.fltReplay v) :=
  fun _ => fun _ => Nat.zero_le _
theorem replayDone : ∀ (cut : Option Nat), Statement (Sys2Proof.Instr.replayDone cut) :=
  fun _ => fun _ => Nat.zero_le _
theorem fltEnable : ∀ (v : Sys2Proof.Word), Statement (Sys2Proof.Instr.fltEnable v) :=
  fun _ => fun _ => Nat.zero_le _
theorem fltCmdRead : ∀ (v : Sys2Proof.Word), Statement (Sys2Proof.Instr.fltCmdRead v) :=
  fun _ => fun _ => Nat.zero_le _
theorem fltCmdWrite : ∀ (v : Sys2Proof.Word), Statement (Sys2Proof.Instr.fltCmdWrite v) :=
  fun _ => fun _ => Nat.zero_le _
theorem fltCmdTrim : ∀ (v : Sys2Proof.Word), Statement (Sys2Proof.Instr.fltCmdTrim v) :=
  fun _ => fun _ => Nat.zero_le _
theorem fltCmdTrimArea : ∀ (v : Sys2Proof.Word), Statement (Sys2Proof.Instr.fltCmdTrimArea v) :=
  fun _ => fun _ => Nat.zero_le _
theorem unitAllocate : ∀ (area : Fin 4) (n : Nat), Statement (Sys2Proof.Instr.unitAllocate area n) :=
  fun _ _ => fun _ => Nat.zero_le _
theorem unitWrite : ∀ (lunit slots : Nat) (key : Fin 17) (data : List Sys2Proof.Byte), Statement (Sys2Proof.Instr.unitWrite lunit slots key data) :=
  fun _ _ _ _ => fun _ => Nat.zero_le _
theorem unitTrim : ∀ (lunit : Nat) (n : Nat), Statement (Sys2Proof.Instr.unitTrim lunit n) :=
  fun _ _ => fun _ => Nat.zero_le _
theorem slotsUpdate : ∀ (lunit : Nat) (n : Nat), Statement (Sys2Proof.Instr.slotsUpdate lunit n) :=
  fun _ _ => fun _ => Nat.zero_le _
theorem unitRead : ∀ (lunit : Nat) (k : Fin 6) (x : Sys2Proof.NandShown), Statement (Sys2Proof.Instr.unitRead lunit k x) :=
  fun _ _ _ => fun _ => Nat.zero_le _
theorem writeCommit : ∀ (lunit : Nat), Statement (Sys2Proof.Instr.writeCommit lunit) :=
  fun _ => fun _ => Nat.zero_le _
theorem nativePadTimer : ∀ (strm : Fin 5), Statement (Sys2Proof.Instr.nativePadTimer strm) :=
  fun _ => fun _ => Nat.zero_le _
theorem journalFlush : Statement Sys2Proof.Instr.journalFlush := fun _ => Nat.zero_le _
theorem checkpointSave : Statement Sys2Proof.Instr.checkpointSave := fun _ => Nat.zero_le _
theorem gcMove : ∀ (lunit : Nat) (r : Fin 6 × Sys2Proof.NandShown), Statement (Sys2Proof.Instr.gcMove lunit r) :=
  fun _ _ => fun _ => Nat.zero_le _
theorem superblockOpen : ∀ (strm : Fin 5), Statement (Sys2Proof.Instr.superblockOpen strm) :=
  fun _ => fun _ => Nat.zero_le _
theorem programFail : ∀ (w : Nat × Sys2Proof.Silence), Statement (Sys2Proof.Instr.programFail w) :=
  fun _ => fun _ => Nat.zero_le _
theorem fltTempSample : ∀ (t : Int), Statement (Sys2Proof.Instr.fltTempSample t) :=
  fun _ => fun _ => Nat.zero_le _
theorem packetReceive : ∀ (port : Fin 64) (frame : List Sys2Proof.Byte) (fcsOk : Bool), Statement (Sys2Proof.Instr.packetReceive port frame fcsOk) :=
  fun _ _ _ => fun _ => Nat.zero_le _
theorem ackDelayExpire : ∀ (c : Sys2Proof.Conduit), Statement (Sys2Proof.Instr.ackDelayExpire c) :=
  fun _ => fun _ => Nat.zero_le _
theorem tackReceive : ∀ (c : Sys2Proof.Conduit) (q : Sys2Proof.W32) (p : List Sys2Proof.Byte), Statement (Sys2Proof.Instr.tackReceive c q p) :=
  fun _ _ _ => fun h => of_decide_eq_true h
theorem transmitOpportunity : ∀ (node : Fin 16), Statement (Sys2Proof.Instr.transmitOpportunity node) :=
  fun _ => fun _ => Nat.zero_le _
theorem retxTimerExpire : ∀ (c : Sys2Proof.Conduit), Statement (Sys2Proof.Instr.retxTimerExpire c) :=
  fun _ => fun _ => Nat.zero_le _
theorem reorderExpire : ∀ (c : Sys2Proof.Conduit), Statement (Sys2Proof.Instr.reorderExpire c) :=
  fun _ => fun _ => Nat.zero_le _
theorem rateRecovery : ∀ (c : Sys2Proof.Conduit), Statement (Sys2Proof.Instr.rateRecovery c) :=
  fun _ => fun _ => Nat.zero_le _
theorem portUp : ∀ (port : Fin 64), Statement (Sys2Proof.Instr.portUp port) :=
  fun _ => fun _ => Nat.zero_le _
theorem portDown : ∀ (port : Fin 64), Statement (Sys2Proof.Instr.portDown port) :=
  fun _ => fun _ => Nat.zero_le _
theorem conduitOpen : ∀ (v : Sys2Proof.Word), Statement (Sys2Proof.Instr.conduitOpen v) :=
  fun _ => fun _ => Nat.zero_le _
theorem conduitClose : ∀ (v : Sys2Proof.Word), Statement (Sys2Proof.Instr.conduitClose v) :=
  fun _ => fun _ => Nat.zero_le _
theorem conduitFail : ∀ (v : Sys2Proof.Word), Statement (Sys2Proof.Instr.conduitFail v) :=
  fun _ => fun _ => Nat.zero_le _
theorem drainTimeout : ∀ (c : Sys2Proof.Conduit), Statement (Sys2Proof.Instr.drainTimeout c) :=
  fun _ => fun _ => Nat.zero_le _
theorem conduitSnapshot : ∀ (v : Sys2Proof.Word), Statement (Sys2Proof.Instr.conduitSnapshot v) :=
  fun _ => fun _ => Nat.zero_le _
theorem ack : ∀ (c : Sys2Proof.Conduit) (q : Sys2Proof.W32) (p : List Sys2Proof.Byte), Statement (Sys2Proof.Instr.ack c q p) :=
  fun _ _ _ => fun h => of_decide_eq_true h
theorem nack : ∀ (c : Sys2Proof.Conduit) (q : Sys2Proof.W32) (p : List Sys2Proof.Byte), Statement (Sys2Proof.Instr.nack c q p) :=
  fun _ _ _ => fun h => of_decide_eq_true h
theorem loopbackSend : ∀ (c : Sys2Proof.Conduit), Statement (Sys2Proof.Instr.loopbackSend c) :=
  fun _ => fun _ => Nat.zero_le _
theorem controlFirmware : ∀ (c : Sys2Proof.Conduit) (q : Sys2Proof.W32) (p : List Sys2Proof.Byte), Statement (Sys2Proof.Instr.controlFirmware c q p) :=
  fun _ _ _ => fun h => of_decide_eq_true h
theorem write : ∀ (c : Sys2Proof.Conduit) (q : Sys2Proof.W32) (key : Sys2Proof.W32) (p : List Sys2Proof.Byte), Statement (Sys2Proof.Instr.write c q key p) :=
  fun _ _ _ _ => fun h => of_decide_eq_true h
theorem writeImm : ∀ (c : Sys2Proof.Conduit) (q : Sys2Proof.W32) (key imm : Sys2Proof.W32) (p : List Sys2Proof.Byte), Statement (Sys2Proof.Instr.writeImm c q key imm p) :=
  fun _ _ _ _ _ => fun h => of_decide_eq_true h
theorem read : ∀ (c : Sys2Proof.Conduit) (q : Sys2Proof.W32) (key : Sys2Proof.W32) (p : List Sys2Proof.Byte), Statement (Sys2Proof.Instr.read c q key p) :=
  fun _ _ _ _ => fun h => of_decide_eq_true h
theorem readResp : ∀ (c : Sys2Proof.Conduit) (q : Sys2Proof.W32) (p : List Sys2Proof.Byte), Statement (Sys2Proof.Instr.readResp c q p) :=
  fun _ _ _ => fun h => of_decide_eq_true h
theorem regionRegister : ∀ (v : Sys2Proof.Word), Statement (Sys2Proof.Instr.regionRegister v) :=
  fun _ => fun _ => Nat.zero_le _
theorem regionRevoke : ∀ (v : Sys2Proof.Word), Statement (Sys2Proof.Instr.regionRevoke v) :=
  fun _ => fun _ => Nat.zero_le _
theorem revokeComplete : ∀ (idx : Nat), Statement (Sys2Proof.Instr.revokeComplete idx) :=
  fun _ => fun _ => Nat.zero_le _
theorem regionSnapshot : ∀ (v : Sys2Proof.Word), Statement (Sys2Proof.Instr.regionSnapshot v) :=
  fun _ => fun _ => Nat.zero_le _
theorem cqEnable : ∀ (v : Sys2Proof.Word), Statement (Sys2Proof.Instr.cqEnable v) :=
  fun _ => fun _ => Nat.zero_le _
theorem cqNotify : ∀ (cq : Fin 4096), Statement (Sys2Proof.Instr.cqNotify cq) :=
  fun _ => fun _ => Nat.zero_le _
theorem cqCredit : ∀ (c : Sys2Proof.Conduit) (q : Sys2Proof.W32) (p : List Sys2Proof.Byte), Statement (Sys2Proof.Instr.cqCredit c q p) :=
  fun _ _ _ => fun h => of_decide_eq_true h
theorem cqConsume : ∀ (v : Sys2Proof.Word), Statement (Sys2Proof.Instr.cqConsume v) :=
  fun _ => fun _ => Nat.zero_le _
theorem postWr : ∀ (c : Sys2Proof.Conduit) (q : Sys2Proof.W32) (p : List Sys2Proof.Byte), Statement (Sys2Proof.Instr.postWr c q p) :=
  fun _ _ _ => fun h => of_decide_eq_true h
theorem workRequestFire : ∀ (ctr : Nat), Statement (Sys2Proof.Instr.workRequestFire ctr) :=
  fun _ => fun _ => Nat.zero_le _
theorem wrRetry : ∀ (id : Nat), Statement (Sys2Proof.Instr.wrRetry id) :=
  fun _ => fun _ => Nat.zero_le _
theorem flushCtr : ∀ (c : Sys2Proof.Conduit) (q : Sys2Proof.W32) (p : List Sys2Proof.Byte), Statement (Sys2Proof.Instr.flushCtr c q p) :=
  fun _ _ _ => fun h => of_decide_eq_true h
theorem counterSet : ∀ (v : Sys2Proof.Word), Statement (Sys2Proof.Instr.counterSet v) :=
  fun _ => fun _ => Nat.zero_le _
theorem counterDisable : ∀ (v : Sys2Proof.Word), Statement (Sys2Proof.Instr.counterDisable v) :=
  fun _ => fun _ => Nat.zero_le _
theorem bucketRefill : Statement Sys2Proof.Instr.bucketRefill := fun _ => Nat.zero_le _
theorem croakSend : Statement Sys2Proof.Instr.croakSend := fun _ => Nat.zero_le _
theorem croak : ∀ (c : Sys2Proof.Conduit) (q : Sys2Proof.W32) (p : List Sys2Proof.Byte), Statement (Sys2Proof.Instr.croak c q p) :=
  fun _ _ _ => fun h => of_decide_eq_true h
theorem leaseExpire : Statement Sys2Proof.Instr.leaseExpire := fun _ => Nat.zero_le _
theorem silence : Statement Sys2Proof.Instr.silence := fun _ => Nat.zero_le _
theorem mirrorAppend : ∀ (c : Sys2Proof.Conduit) (q : Sys2Proof.W32) (p : List Sys2Proof.Byte), Statement (Sys2Proof.Instr.mirrorAppend c q p) :=
  fun _ _ _ => fun h => of_decide_eq_true h
theorem mirrorSeal : ∀ (c : Sys2Proof.Conduit) (q : Sys2Proof.W32) (p : List Sys2Proof.Byte), Statement (Sys2Proof.Instr.mirrorSeal c q p) :=
  fun _ _ _ => fun h => of_decide_eq_true h
theorem mirrorFork : ∀ (c : Sys2Proof.Conduit) (q : Sys2Proof.W32) (p : List Sys2Proof.Byte), Statement (Sys2Proof.Instr.mirrorFork c q p) :=
  fun _ _ _ => fun h => of_decide_eq_true h
theorem mirrorTruncate : ∀ (c : Sys2Proof.Conduit) (q : Sys2Proof.W32) (p : List Sys2Proof.Byte), Statement (Sys2Proof.Instr.mirrorTruncate c q p) :=
  fun _ _ _ => fun h => of_decide_eq_true h
theorem mirrorFree : ∀ (c : Sys2Proof.Conduit) (q : Sys2Proof.W32) (p : List Sys2Proof.Byte), Statement (Sys2Proof.Instr.mirrorFree c q p) :=
  fun _ _ _ => fun h => of_decide_eq_true h
theorem mirrorPage : ∀ (c : Sys2Proof.Conduit) (q : Sys2Proof.W32) (p : List Sys2Proof.Byte), Statement (Sys2Proof.Instr.mirrorPage c q p) :=
  fun _ _ _ => fun h => of_decide_eq_true h
theorem mirrorFetch : ∀ (c : Sys2Proof.Conduit) (q : Sys2Proof.W32) (p : List Sys2Proof.Byte), Statement (Sys2Proof.Instr.mirrorFetch c q p) :=
  fun _ _ _ => fun h => of_decide_eq_true h
theorem mirrorTable : ∀ (c : Sys2Proof.Conduit) (q : Sys2Proof.W32) (p : List Sys2Proof.Byte), Statement (Sys2Proof.Instr.mirrorTable c q p) :=
  fun _ _ _ => fun h => of_decide_eq_true h
theorem mirrorAckApplied : ∀ (c : Sys2Proof.Conduit) (q : Sys2Proof.W32) (p : List Sys2Proof.Byte), Statement (Sys2Proof.Instr.mirrorAckApplied c q p) :=
  fun _ _ _ => fun h => of_decide_eq_true h
theorem mirrorAckFlushed : ∀ (c : Sys2Proof.Conduit) (q : Sys2Proof.W32) (p : List Sys2Proof.Byte), Statement (Sys2Proof.Instr.mirrorAckFlushed c q p) :=
  fun _ _ _ => fun h => of_decide_eq_true h
theorem mirrorAckContent : ∀ (c : Sys2Proof.Conduit) (q : Sys2Proof.W32) (p : List Sys2Proof.Byte), Statement (Sys2Proof.Instr.mirrorAckContent c q p) :=
  fun _ _ _ => fun h => of_decide_eq_true h
theorem takeoverClaim : ∀ (c : Sys2Proof.Conduit) (q : Sys2Proof.W32) (p : List Sys2Proof.Byte), Statement (Sys2Proof.Instr.takeoverClaim c q p) :=
  fun _ _ _ => fun h => of_decide_eq_true h
theorem takeoverGrant : ∀ (c : Sys2Proof.Conduit) (q : Sys2Proof.W32) (p : List Sys2Proof.Byte), Statement (Sys2Proof.Instr.takeoverGrant c q p) :=
  fun _ _ _ => fun h => of_decide_eq_true h
theorem takeoverRefuse : ∀ (c : Sys2Proof.Conduit) (q : Sys2Proof.W32) (p : List Sys2Proof.Byte), Statement (Sys2Proof.Instr.takeoverRefuse c q p) :=
  fun _ _ _ => fun h => of_decide_eq_true h
theorem claimTimeout : Statement Sys2Proof.Instr.claimTimeout := fun _ => Nat.zero_le _
theorem takeoverAnnounce : ∀ (c : Sys2Proof.Conduit) (q : Sys2Proof.W32) (p : List Sys2Proof.Byte), Statement (Sys2Proof.Instr.takeoverAnnounce c q p) :=
  fun _ _ _ => fun h => of_decide_eq_true h
theorem takeoverHandback : ∀ (c : Sys2Proof.Conduit) (q : Sys2Proof.W32) (p : List Sys2Proof.Byte), Statement (Sys2Proof.Instr.takeoverHandback c q p) :=
  fun _ _ _ => fun h => of_decide_eq_true h
theorem takeoverPermit : ∀ (c : Sys2Proof.Conduit) (q : Sys2Proof.W32) (p : List Sys2Proof.Byte), Statement (Sys2Proof.Instr.takeoverPermit c q p) :=
  fun _ _ _ => fun h => of_decide_eq_true h
theorem takeoverPermitOk : ∀ (c : Sys2Proof.Conduit) (q : Sys2Proof.W32) (p : List Sys2Proof.Byte), Statement (Sys2Proof.Instr.takeoverPermitOk c q p) :=
  fun _ _ _ => fun h => of_decide_eq_true h
theorem permitTimeout : Statement Sys2Proof.Instr.permitTimeout := fun _ => Nat.zero_le _
theorem handoff : ∀ (v : Sys2Proof.Word), Statement (Sys2Proof.Instr.handoff v) :=
  fun _ => fun _ => Nat.zero_le _
theorem handoffDrained : Statement Sys2Proof.Instr.handoffDrained := fun _ => Nat.zero_le _
theorem expelPeer : ∀ (v : Sys2Proof.Word), Statement (Sys2Proof.Instr.expelPeer v) :=
  fun _ => fun _ => Nat.zero_le _
theorem regrowStart : ∀ (v : Sys2Proof.Word), Statement (Sys2Proof.Instr.regrowStart v) :=
  fun _ => fun _ => Nat.zero_le _
theorem regrowClaim : Statement Sys2Proof.Instr.regrowClaim := fun _ => Nat.zero_le _
theorem twnHandback : ∀ (v : Sys2Proof.Word), Statement (Sys2Proof.Instr.twnHandback v) :=
  fun _ => fun _ => Nat.zero_le _
theorem twnRelease : ∀ (v : Sys2Proof.Word), Statement (Sys2Proof.Instr.twnRelease v) :=
  fun _ => fun _ => Nat.zero_le _
theorem clearSuspect : ∀ (v : Sys2Proof.Word), Statement (Sys2Proof.Instr.clearSuspect v) :=
  fun _ => fun _ => Nat.zero_le _
theorem wornClear : ∀ (ch : Fin 256), Statement (Sys2Proof.Instr.wornClear ch) :=
  fun _ => fun _ => Nat.zero_le _
theorem xchkCompare : ∀ (st k : Nat), Statement (Sys2Proof.Instr.xchkCompare st k) :=
  fun _ _ => fun _ => Nat.zero_le _
theorem healthCompute : Statement Sys2Proof.Instr.healthCompute := fun _ => Nat.zero_le _
theorem windowSnapshot : ∀ (v : Sys2Proof.Word), Statement (Sys2Proof.Instr.windowSnapshot v) :=
  fun _ => fun _ => Nat.zero_le _
theorem xlogSnapshot : ∀ (v : Sys2Proof.Word), Statement (Sys2Proof.Instr.xlogSnapshot v) :=
  fun _ => fun _ => Nat.zero_le _
theorem custodyPrepare : ∀ (c : Sys2Proof.Conduit) (q : Sys2Proof.W32) (p : List Sys2Proof.Byte), Statement (Sys2Proof.Instr.custodyPrepare c q p) :=
  fun _ _ _ => fun h => of_decide_eq_true h
theorem custodyHandover : ∀ (c : Sys2Proof.Conduit) (q : Sys2Proof.W32) (p : List Sys2Proof.Byte), Statement (Sys2Proof.Instr.custodyHandover c q p) :=
  fun _ _ _ => fun h => of_decide_eq_true h
theorem custodyAccept : ∀ (c : Sys2Proof.Conduit) (q : Sys2Proof.W32) (p : List Sys2Proof.Byte), Statement (Sys2Proof.Instr.custodyAccept c q p) :=
  fun _ _ _ => fun h => of_decide_eq_true h
theorem custodyCommit : ∀ (c : Sys2Proof.Conduit) (q : Sys2Proof.W32) (p : List Sys2Proof.Byte), Statement (Sys2Proof.Instr.custodyCommit c q p) :=
  fun _ _ _ => fun h => of_decide_eq_true h
theorem custodyRevert : ∀ (c : Sys2Proof.Conduit) (q : Sys2Proof.W32) (p : List Sys2Proof.Byte), Statement (Sys2Proof.Instr.custodyRevert c q p) :=
  fun _ _ _ => fun h => of_decide_eq_true h
theorem custodyCancel : ∀ (c : Sys2Proof.Conduit) (q : Sys2Proof.W32) (p : List Sys2Proof.Byte), Statement (Sys2Proof.Instr.custodyCancel c q p) :=
  fun _ _ _ => fun h => of_decide_eq_true h
theorem custodyAsk : ∀ (c : Sys2Proof.Conduit) (q : Sys2Proof.W32) (p : List Sys2Proof.Byte), Statement (Sys2Proof.Instr.custodyAsk c q p) :=
  fun _ _ _ => fun h => of_decide_eq_true h
theorem custodySync : ∀ (c : Sys2Proof.Conduit) (q : Sys2Proof.W32) (p : List Sys2Proof.Byte), Statement (Sys2Proof.Instr.custodySync c q p) :=
  fun _ _ _ => fun h => of_decide_eq_true h
theorem custodyRelease : ∀ (c : Sys2Proof.Conduit) (q : Sys2Proof.W32) (p : List Sys2Proof.Byte), Statement (Sys2Proof.Instr.custodyRelease c q p) :=
  fun _ _ _ => fun h => of_decide_eq_true h
theorem custodyInfo : ∀ (c : Sys2Proof.Conduit) (q : Sys2Proof.W32) (p : List Sys2Proof.Byte), Statement (Sys2Proof.Instr.custodyInfo c q p) :=
  fun _ _ _ => fun h => of_decide_eq_true h
theorem custodyDeadline : ∀ (idx : Nat), Statement (Sys2Proof.Instr.custodyDeadline idx) :=
  fun _ => fun _ => Nat.zero_le _
theorem custodyAskTimer : ∀ (idx : Nat), Statement (Sys2Proof.Instr.custodyAskTimer idx) :=
  fun _ => fun _ => Nat.zero_le _
theorem orphanFree : ∀ (idx : Nat), Statement (Sys2Proof.Instr.orphanFree idx) :=
  fun _ => fun _ => Nat.zero_le _
theorem moltQueue : ∀ (hi : Bool) (v : Sys2Proof.Word), Statement (Sys2Proof.Instr.moltQueue hi v) :=
  fun _ _ => fun _ => Nat.zero_le _
theorem moltStart : Statement Sys2Proof.Instr.moltStart := fun _ => Nat.zero_le _
theorem moltDone : ∀ (ok : Bool), Statement (Sys2Proof.Instr.moltDone ok) :=
  fun _ => fun _ => Nat.zero_le _
theorem fuseProgram : ∀ (v : Sys2Proof.Word), Statement (Sys2Proof.Instr.fuseProgram v) :=
  fun _ => fun _ => Nat.zero_le _
theorem fuseRevoke : ∀ (v : Sys2Proof.Word), Statement (Sys2Proof.Instr.fuseRevoke v) :=
  fun _ => fun _ => Nat.zero_le _
theorem svnStep : ∀ (v : Sys2Proof.Word), Statement (Sys2Proof.Instr.svnStep v) :=
  fun _ => fun _ => Nat.zero_le _
theorem keyLoad : ∀ (v : Sys2Proof.Word), Statement (Sys2Proof.Instr.keyLoad v) :=
  fun _ => fun _ => Nat.zero_le _
theorem keyErase : ∀ (v : Sys2Proof.Word), Statement (Sys2Proof.Instr.keyErase v) :=
  fun _ => fun _ => Nat.zero_le _
theorem pkeyCreate : ∀ (part : Fin 16) (v : Sys2Proof.Word), Statement (Sys2Proof.Instr.pkeyCreate part v) :=
  fun _ _ => fun _ => Nat.zero_le _
theorem pkeyLoad : ∀ (part : Fin 16) (v : Sys2Proof.Word), Statement (Sys2Proof.Instr.pkeyLoad part v) :=
  fun _ _ => fun _ => Nat.zero_le _
theorem pkeyDestroy : ∀ (part : Fin 16) (v : Sys2Proof.Word), Statement (Sys2Proof.Instr.pkeyDestroy part v) :=
  fun _ _ => fun _ => Nat.zero_le _
theorem measExtend : ∀ (v : Sys2Proof.Word), Statement (Sys2Proof.Instr.measExtend v) :=
  fun _ => fun _ => Nat.zero_le _
theorem secSign : ∀ (v : Sys2Proof.Word), Statement (Sys2Proof.Instr.secSign v) :=
  fun _ => fun _ => Nat.zero_le _
theorem secQuote : ∀ (v : Sys2Proof.Word), Statement (Sys2Proof.Instr.secQuote v) :=
  fun _ => fun _ => Nat.zero_le _
theorem signatureDone : Statement Sys2Proof.Instr.signatureDone := fun _ => Nat.zero_le _
theorem bootDone : ∀ (v : Sys2Proof.Word), Statement (Sys2Proof.Instr.bootDone v) :=
  fun _ => fun _ => Nat.zero_le _
theorem rngRead : Statement Sys2Proof.Instr.rngRead := fun _ => Nat.zero_le _
theorem debugDeclare : ∀ (v : Sys2Proof.Word), Statement (Sys2Proof.Instr.debugDeclare v) :=
  fun _ => fun _ => Nat.zero_le _
theorem debugAttach : Statement Sys2Proof.Instr.debugAttach := fun _ => Nat.zero_le _
theorem evcClaim : ∀ (core : Fin 16), Statement (Sys2Proof.Instr.evcClaim core) :=
  fun _ => fun _ => Nat.zero_le _
theorem evcComplete : ∀ (core : Fin 16) (v : Sys2Proof.Word), Statement (Sys2Proof.Instr.evcComplete core v) :=
  fun _ _ => fun _ => Nat.zero_le _
theorem evcSrcWrite : ∀ (src : Fin 2048) (v : Sys2Proof.Word), Statement (Sys2Proof.Instr.evcSrcWrite src v) :=
  fun _ _ => fun _ => Nat.zero_le _
theorem mailboxEnable : ∀ (mb : Fin 16) (v : Sys2Proof.Word), Statement (Sys2Proof.Instr.mailboxEnable mb v) :=
  fun _ _ => fun _ => Nat.zero_le _
theorem mailboxConsume : ∀ (mb : Fin 16) (v : Sys2Proof.Word), Statement (Sys2Proof.Instr.mailboxConsume mb v) :=
  fun _ _ => fun _ => Nat.zero_le _
theorem mailboxPost : ∀ (v : Sys2Proof.Word), Statement (Sys2Proof.Instr.mailboxPost v) :=
  fun _ => fun _ => Nat.zero_le _
theorem mtimeCompare : ∀ (core : Fin 16), Statement (Sys2Proof.Instr.mtimeCompare core) :=
  fun _ => fun _ => Nat.zero_le _
theorem watchdogExpire : Statement Sys2Proof.Instr.watchdogExpire := fun _ => Nat.zero_le _
theorem watchdogKick : ∀ (v : Sys2Proof.Word), Statement (Sys2Proof.Instr.watchdogKick v) :=
  fun _ => fun _ => Nat.zero_le _
theorem coreRun : ∀ (core : Fin 16) (v : Sys2Proof.Word), Statement (Sys2Proof.Instr.coreRun core v) :=
  fun _ _ => fun _ => Nat.zero_le _
theorem coreReset : ∀ (core : Fin 16) (v : Sys2Proof.Word), Statement (Sys2Proof.Instr.coreReset core v) :=
  fun _ _ => fun _ => Nat.zero_le _
theorem coreUncachedAccess : ∀ (core : Fin 16) (addr : Sys2Proof.Word) (width : Nat) (store : Option Sys2Proof.Word) (errs : Sys2Proof.Errs), Statement (Sys2Proof.Instr.coreUncachedAccess core addr width store errs) :=
  fun _ _ _ _ _ => fun _ => Nat.zero_le _
theorem glbTempSample : ∀ (t : Int), Statement (Sys2Proof.Instr.glbTempSample t) :=
  fun _ => fun _ => Nat.zero_le _
theorem softReset : ∀ (v : Sys2Proof.Word), Statement (Sys2Proof.Instr.softReset v) :=
  fun _ => fun _ => Nat.zero_le _
theorem coldStart : ∀ (nor : List Sys2Proof.Byte) (failed : List (Fin 256)) (geom : Sys2Proof.Word) (chips : Sys2Proof.Chips), Statement (Sys2Proof.Instr.coldStart nor failed geom chips) :=
  fun _ _ _ _ => fun _ => Nat.zero_le _
theorem warmRestart : ∀ (nor : List Sys2Proof.Byte), Statement (Sys2Proof.Instr.warmRestart nor) :=
  fun _ => fun _ => Nat.zero_le _
theorem debugReset : Statement Sys2Proof.Instr.debugReset := fun _ => Nat.zero_le _
theorem joinTimeout : Statement Sys2Proof.Instr.joinTimeout := fun _ => Nat.zero_le _
theorem shelterEnter : Statement Sys2Proof.Instr.shelterEnter := fun _ => Nat.zero_le _
theorem shelterExit : Statement Sys2Proof.Instr.shelterExit := fun _ => Nat.zero_le _
theorem shelterTimeout : Statement Sys2Proof.Instr.shelterTimeout := fun _ => Nat.zero_le _
theorem powerFail : Statement Sys2Proof.Instr.powerFail := fun _ => Nat.zero_le _
theorem powerfailRestart : ∀ (nor : List Sys2Proof.Byte) (failed : List (Fin 256)) (geom : Sys2Proof.Word) (chips : Sys2Proof.Chips), Statement (Sys2Proof.Instr.powerfailRestart nor failed geom chips) :=
  fun _ _ _ _ => fun _ => Nat.zero_le _
theorem pllUnlock : ∀ (pll : Fin 22), Statement (Sys2Proof.Instr.pllUnlock pll) :=
  fun _ => fun _ => Nat.zero_le _
theorem pllRelock : ∀ (pll : Fin 22), Statement (Sys2Proof.Instr.pllRelock pll) :=
  fun _ => fun _ => Nat.zero_le _
theorem thermtrip : Statement Sys2Proof.Instr.thermtrip := fun _ => Nat.zero_le _
theorem mgtFrameReceive : ∀ (frame : List Sys2Proof.Byte) (fcsOk : Bool), Statement (Sys2Proof.Instr.mgtFrameReceive frame fcsOk) :=
  fun _ _ => fun _ => Nat.zero_le _
theorem mgtRxPost : ∀ (v : Sys2Proof.Word), Statement (Sys2Proof.Instr.mgtRxPost v) :=
  fun _ => fun _ => Nat.zero_le _
theorem mgtTxPost : ∀ (v : Sys2Proof.Word), Statement (Sys2Proof.Instr.mgtTxPost v) :=
  fun _ => fun _ => Nat.zero_le _
theorem mgtTxDone : Statement Sys2Proof.Instr.mgtTxDone := fun _ => Nat.zero_le _
theorem mgtLinkChange : ∀ (up : Bool), Statement (Sys2Proof.Instr.mgtLinkChange up) :=
  fun _ => fun _ => Nat.zero_le _
theorem compositionWrite : ∀ (part : Fin 16) (v : Sys2Proof.Word), Statement (Sys2Proof.Instr.compositionWrite part v) :=
  fun _ _ => fun _ => Nat.zero_le _
theorem usageSample : Statement Sys2Proof.Instr.usageSample := fun _ => Nat.zero_le _
theorem usagePeriodic : Statement Sys2Proof.Instr.usagePeriodic := fun _ => Nat.zero_le _
theorem usageSnapshot : ∀ (v : Sys2Proof.Word), Statement (Sys2Proof.Instr.usageSnapshot v) :=
  fun _ => fun _ => Nat.zero_le _
theorem mgtTempSample : ∀ (hbm : List Sys2Proof.Byte), Statement (Sys2Proof.Instr.mgtTempSample hbm) :=
  fun _ => fun _ => Nat.zero_le _
theorem extest : ∀ (cells : List Bool), Statement (Sys2Proof.Instr.extest cells) :=
  fun _ => fun _ => Nat.zero_le _
theorem idcode : Statement Sys2Proof.Instr.idcode := fun _ => Nat.zero_le _
theorem samplePreload : ∀ (cells : List Bool), Statement (Sys2Proof.Instr.samplePreload cells) :=
  fun _ => fun _ => Nat.zero_le _
theorem tapDebug : Statement Sys2Proof.Instr.tapDebug := fun _ => Nat.zero_le _
theorem bypass : ∀ (ir : Sys2Proof.Byte), Statement (Sys2Proof.Instr.bypass ir) :=
  fun _ => fun _ => Nat.zero_le _
theorem coldResetAssert : Statement Sys2Proof.Instr.coldResetAssert := fun _ => Nat.zero_le _
theorem eraseComplete : ∀ (sb : Nat) (failed : List (Fin 16)), Statement (Sys2Proof.Instr.eraseComplete sb failed) :=
  fun _ _ => fun _ => Nat.zero_le _
theorem fuseCommandDone : ∀ (readback : Bool), Statement (Sys2Proof.Instr.fuseCommandDone readback) :=
  fun _ => fun _ => Nat.zero_le _
theorem illegalOpcode : ∀ (k : Fin 256), Statement (Sys2Proof.Instr.illegalOpcode k) :=
  fun _ => fun _ => Nat.zero_le _
theorem freeComplete : ∀ (idx : Nat), Statement (Sys2Proof.Instr.freeComplete idx) :=
  fun _ => fun _ => Nat.zero_le _
theorem regrowMirrorSend : Statement Sys2Proof.Instr.regrowMirrorSend := fun _ => Nat.zero_le _
theorem debugDetach : Statement Sys2Proof.Instr.debugDetach := fun _ => Nat.zero_le _
theorem pcacheBlockZeroed : ∀ (slice : Fin 32) (blk : Nat), Statement (Sys2Proof.Instr.pcacheBlockZeroed slice blk) :=
  fun _ _ => fun _ => Nat.zero_le _

end Sys2Proof.Laws.MessageBound
end

