-- ==== Sys2Proof/Tests/Slice0.lean ====
section
/-! SUPPORT. The model's own tests: what WellFormed refuses, and for every statement states and operands that meet the
hypotheses of each of its clauses. -/

namespace Sys2Proof.Tests

open Sys2Proof.Machine

set_option maxRecDepth 8000
set_option Elab.async false

/-- A device out of reset. -/
def live : State := { State.reset with inReset := false }

/-- Field values set one after another. -/
def sets (s : State) (l : List (Fd × Nat)) : State := l.foldl (fun s p => s.setFd p.1 p.2) s

/-- Fields of `live` set. -/
def with_ (l : List (Fd × Nat)) : State := sets live l

/-- An ACTIVE conduit. -/
def open_ : ConduitState := { ConduitState.closed with cstate := 1 }

/-- A state with conduit 3 ACTIVE, of partition 0 and to node 2. -/
def on3 (s : State) : State := { s with trl := { s.trl with conduits := [(3, { open_ with peerNode := 2 })] } }

/-- A message longer than the longest of R251. -/
def tooLong : List Byte := List.replicate (maxMessage + 1) 0

theorem tooLong_length : decide (tooLong.length ≤ maxMessage) = false := by simp [tooLong]

theorem test_wf_messages_0 :
    (∀ a b, (Instr.append a b tooLong).wf = false) ∧
    (∀ a b, (Instr.sealSeq a b tooLong).wf = false) ∧
    (∀ a b, (Instr.fork a b tooLong).wf = false) ∧
    (∀ a b, (Instr.truncate a b tooLong).wf = false) ∧
    (∀ a b, (Instr.free a b tooLong).wf = false) ∧
    (∀ a b u, (Instr.lookup a b ⟨tooLong, u⟩).wf = false) ∧
    (∀ a b u, (Instr.lookupNext a b ⟨tooLong, u⟩).wf = false) ∧
    (∀ a b u, (Instr.adoptFork a b ⟨tooLong, u⟩).wf = false) ∧
    (∀ a b, (Instr.query a b tooLong).wf = false) ∧
    (∀ a b, (Instr.batchQuery a b tooLong).wf = false) ∧
    (∀ a b, (Instr.subquery a b tooLong).wf = false) ∧
    (∀ a b, (Instr.abort a b tooLong).wf = false) ∧
    (∀ a b, (Instr.partialRecord a b tooLong).wf = false) ∧
    (∀ a b, (Instr.grant a b tooLong).wf = false) ∧
    (∀ a b, (Instr.lendOffer a b tooLong).wf = false) ∧
    (∀ a b, (Instr.leapPush a b tooLong).wf = false) :=
  ⟨fun _ _ => tooLong_length, fun _ _ => tooLong_length, fun _ _ => tooLong_length, fun _ _ => tooLong_length, fun _ _ => tooLong_length, fun _ _ _ => tooLong_length, fun _ _ _ => tooLong_length, fun _ _ _ => tooLong_length, fun _ _ => tooLong_length, fun _ _ => tooLong_length, fun _ _ => tooLong_length, fun _ _ => tooLong_length, fun _ _ => tooLong_length, fun _ _ => tooLong_length, fun _ _ => tooLong_length, fun _ _ => tooLong_length⟩

theorem test_wf_messages_1 :
    (∀ a b, (Instr.leapPull a b tooLong).wf = false) ∧
    (∀ a b, (Instr.lendRelease a b tooLong).wf = false) ∧
    (∀ a b, (Instr.lendRecall a b tooLong).wf = false) ∧
    (∀ a b, (Instr.lendReturn a b tooLong).wf = false) ∧
    (∀ a b, (Instr.lendReassign a b tooLong).wf = false) ∧
    (∀ a b, (Instr.tackReceive a b tooLong).wf = false) ∧
    (∀ a b, (Instr.ack a b tooLong).wf = false) ∧
    (∀ a b, (Instr.nack a b tooLong).wf = false) ∧
    (∀ a b, (Instr.controlFirmware a b tooLong).wf = false) ∧
    (∀ a b c, (Instr.write a b c tooLong).wf = false) ∧
    (∀ a b c d, (Instr.writeImm a b c d tooLong).wf = false) ∧
    (∀ a b c, (Instr.read a b c tooLong).wf = false) ∧
    (∀ a b, (Instr.readResp a b tooLong).wf = false) ∧
    (∀ a b, (Instr.cqCredit a b tooLong).wf = false) ∧
    (∀ a b, (Instr.postWr a b tooLong).wf = false) ∧
    (∀ a b, (Instr.flushCtr a b tooLong).wf = false) :=
  ⟨fun _ _ => tooLong_length, fun _ _ => tooLong_length, fun _ _ => tooLong_length, fun _ _ => tooLong_length, fun _ _ => tooLong_length, fun _ _ => tooLong_length, fun _ _ => tooLong_length, fun _ _ => tooLong_length, fun _ _ => tooLong_length, fun _ _ _ => tooLong_length, fun _ _ _ _ => tooLong_length, fun _ _ _ => tooLong_length, fun _ _ => tooLong_length, fun _ _ => tooLong_length, fun _ _ => tooLong_length, fun _ _ => tooLong_length⟩

theorem test_wf_messages_2 :
    (∀ a b, (Instr.croak a b tooLong).wf = false) ∧
    (∀ a b, (Instr.mirrorAppend a b tooLong).wf = false) ∧
    (∀ a b, (Instr.mirrorSeal a b tooLong).wf = false) ∧
    (∀ a b, (Instr.mirrorFork a b tooLong).wf = false) ∧
    (∀ a b, (Instr.mirrorTruncate a b tooLong).wf = false) ∧
    (∀ a b, (Instr.mirrorFree a b tooLong).wf = false) ∧
    (∀ a b, (Instr.mirrorPage a b tooLong).wf = false) ∧
    (∀ a b, (Instr.mirrorFetch a b tooLong).wf = false) ∧
    (∀ a b, (Instr.mirrorTable a b tooLong).wf = false) ∧
    (∀ a b, (Instr.mirrorAckApplied a b tooLong).wf = false) ∧
    (∀ a b, (Instr.mirrorAckFlushed a b tooLong).wf = false) ∧
    (∀ a b, (Instr.mirrorAckContent a b tooLong).wf = false) ∧
    (∀ a b, (Instr.takeoverClaim a b tooLong).wf = false) ∧
    (∀ a b, (Instr.takeoverGrant a b tooLong).wf = false) ∧
    (∀ a b, (Instr.takeoverRefuse a b tooLong).wf = false) ∧
    (∀ a b, (Instr.takeoverAnnounce a b tooLong).wf = false) :=
  ⟨fun _ _ => tooLong_length, fun _ _ => tooLong_length, fun _ _ => tooLong_length, fun _ _ => tooLong_length, fun _ _ => tooLong_length, fun _ _ => tooLong_length, fun _ _ => tooLong_length, fun _ _ => tooLong_length, fun _ _ => tooLong_length, fun _ _ => tooLong_length, fun _ _ => tooLong_length, fun _ _ => tooLong_length, fun _ _ => tooLong_length, fun _ _ => tooLong_length, fun _ _ => tooLong_length, fun _ _ => tooLong_length⟩

theorem test_wf_messages_3 :
    (∀ a b, (Instr.takeoverHandback a b tooLong).wf = false) ∧
    (∀ a b, (Instr.takeoverPermit a b tooLong).wf = false) ∧
    (∀ a b, (Instr.takeoverPermitOk a b tooLong).wf = false) ∧
    (∀ a b, (Instr.custodyPrepare a b tooLong).wf = false) ∧
    (∀ a b, (Instr.custodyHandover a b tooLong).wf = false) ∧
    (∀ a b, (Instr.custodyAccept a b tooLong).wf = false) ∧
    (∀ a b, (Instr.custodyCommit a b tooLong).wf = false) ∧
    (∀ a b, (Instr.custodyRevert a b tooLong).wf = false) ∧
    (∀ a b, (Instr.custodyCancel a b tooLong).wf = false) ∧
    (∀ a b, (Instr.custodyAsk a b tooLong).wf = false) ∧
    (∀ a b, (Instr.custodySync a b tooLong).wf = false) ∧
    (∀ a b, (Instr.custodyRelease a b tooLong).wf = false) ∧
    (∀ a b, (Instr.custodyInfo a b tooLong).wf = false) :=
  ⟨fun _ _ => tooLong_length, fun _ _ => tooLong_length, fun _ _ => tooLong_length, fun _ _ => tooLong_length, fun _ _ => tooLong_length, fun _ _ => tooLong_length, fun _ _ => tooLong_length, fun _ _ => tooLong_length, fun _ _ => tooLong_length, fun _ _ => tooLong_length, fun _ _ => tooLong_length, fun _ _ => tooLong_length, fun _ _ => tooLong_length⟩

theorem test_wf_numbers_0 :
    (Instr.purgeRegister 16777216).wf = false ∧
    (Instr.pageSeal 4294967296).wf = false ∧
    (Instr.sealCrcDone 4294967296).wf = false ∧
    (Instr.coldConversion 16777216).wf = false ∧
    (Instr.thaw 16777216).wf = false ∧
    (∀ x y, (Instr.thawDone 16777216 x y).wf = false) ∧
    (Instr.pageReclaim 4294967296).wf = false ∧
    (Instr.windowSplit 65536).wf = false ∧
    (Instr.workItemDispatch 65536).wf = false ∧
    (Instr.streamTimeout 65536).wf = false ∧
    (Instr.mergeAreaUe 65536).wf = false :=
  ⟨rfl, rfl, rfl, rfl, rfl, fun _ _ => rfl, rfl, rfl, rfl, rfl, rfl⟩

theorem test_wf_numbers_1 :
    (Instr.resultDelivered 65536).wf = false ∧
    (Instr.wxpTileRequest 65536).wf = false ∧
    (∀ x, (Instr.leapBegin 4294967296 x).wf = false) ∧
    (∀ x, (Instr.leapCommit 4294967296 x).wf = false) ∧
    (Instr.faultIssue 4294967296).wf = false ∧
    (∀ x, (Instr.faultLand 4294967296 x).wf = false) ∧
    (∀ x y z w, (Instr.compact x y 4294967296 z w).wf = false) ∧
    (∀ x y, (Instr.hbmRefresh x 64 y).wf = false) ∧
    (∀ x y z, (Instr.unitWrite 4294967296 x y z).wf = false) ∧
    (∀ x, (Instr.unitTrim 4294967296 x).wf = false) ∧
    (∀ x, (Instr.slotsUpdate 4294967296 x).wf = false) :=
  ⟨rfl, rfl, fun _ => rfl, fun _ => rfl, rfl, fun _ => rfl, fun _ _ _ _ => rfl, fun _ _ => rfl, fun _ _ _ => rfl, fun _ => rfl, fun _ => rfl⟩

theorem test_wf_numbers_2 :
    (∀ x y, (Instr.unitRead 4294967296 x y).wf = false) ∧
    (Instr.writeCommit 4294967296).wf = false ∧
    (∀ x, (Instr.gcMove 4294967296 x).wf = false) ∧
    (∀ x, (Instr.programFail (4294967296, x)).wf = false) ∧
    (Instr.revokeComplete 16777216).wf = false ∧
    (Instr.workRequestFire 65536).wf = false ∧
    (∀ x, (Instr.xchkCompare 65536 x).wf = false) ∧
    (Instr.custodyDeadline 16777216).wf = false ∧
    (Instr.custodyAskTimer 16777216).wf = false ∧
    (Instr.orphanFree 16777216).wf = false ∧
    (Instr.freeComplete 16777216).wf = false :=
  ⟨fun _ _ => rfl, rfl, fun _ => rfl, fun _ => rfl, rfl, rfl, fun _ => rfl, rfl, rfl, rfl, rfl⟩

theorem test_wf_widths : (Instr.csrMisalignedAccess 0 0x40000001 3 false).wf = false ∧
    (Instr.csrMisalignedAccess 0 0x40000008 8 false).wf = false ∧ (Instr.coreUncachedAccess 0 0x1002 4 none []).wf = false ∧
    (Instr.coreUncachedAccess 0 0x1000 3 none []).wf = false ∧ (Instr.fltTempSample 256).wf = false ∧
    (Instr.fltTempSample (-56)).wf = false ∧ (Instr.glbTempSample 256).wf = false ∧ (Instr.glbTempSample (-56)).wf = false ∧
    (Instr.hbmRetrain 0 ⟨true, 2001⟩).wf = false := by
  decide

theorem test_wf_lengths : (∀ p q, (Instr.packetReceive p (List.replicate 16385 0) q).wf = false) ∧
    (∀ q, (Instr.mgtFrameReceive (List.replicate 16385 0) q).wf = false) ∧
    (Instr.extest (List.replicate 4097 false)).wf = false ∧ (Instr.samplePreload (List.replicate 4097 false)).wf = false := by
  have h : decide ((List.replicate 16385 (0 : Byte)).length ≤ 16384) = false := by rw [List.length_replicate]; rfl
  have h2 : decide ((List.replicate 4097 false).length ≤ 4096) = false := by rw [List.length_replicate]; rfl
  exact ⟨fun _ _ => h, fun _ => h, h2, h2⟩

/-! ## The block, its registers and its cores -/

theorem witness_EveryStepKeeps : { State.reset with pending := [.glbTempSample 3] }.Inv := by
  refine ⟨⟨by decide, by decide⟩, by decide⟩

/-- Gecko 255 waits for room in a full ring. -/
def ringFull : State := { live with hb := { live.hb with geckos := [(255, { Gecko.fresh with state := .stalled })] } }

theorem witness_IdleTakesTime : ringFull.pending = [] ∧ ringFull.inReset = false ∧
    ringFull.hb.geckos = [(255, { Gecko.fresh with state := .stalled })] ∧ { Gecko.fresh with state := .stalled }.stalls = true ∧
    live.hb.geckos = [] ∧ Gecko.fresh.stalls = false := by decide

theorem witness_HeldResetStops : { live with inReset := true }.inReset = true ∧ live.inReset = false ∧ live.pending = [] := by decide

theorem witness_CsrAlignment : inCsr 0x40000000 = true ∧ ¬(4 = 8 ∧ 0x40000000 % 8 = 0) ∧ inCsr 0x47FFFFFC = true ∧
    ¬(8 = 8 ∧ 0x47FFFFFC % 8 = 0) ∧ inCsr 0x47FFFFF8 = true ∧ 0x47FFFFF8 % 8 = 0 ∧ regAt 0x47FFFFF8 = none := by decide

theorem witness_RegisterWriteFields : (regAt 0x42000000).isSome = true ∧ (regAt Reg.TWN_ERR).isSome = true ∧
    (regAt Reg.MGT_ERR).isSome = true := by decide

theorem witness_CounterReadClears :
    (regAt Reg.TWN_CROAKS_MISSED).map (fun r => (r.dims, r.fields)) = some ([], [⟨63, 0, .rc, 0, .plain⟩]) := by decide

/-- The last byte of HBM, in the control-memory reservation's own range or not, and PCACHE's last bytes. -/
theorem witness_CoreAccess : live.lockedAt (hbmBytes - 8) 8 = false ∧ live.coreMayWrite (hbmBytes - 8) 8 = false ∧
    (with_ [(Fd.GLB_MEMCFG_CTL_GIB, 1)]).coreMayWrite 0 8 = true ∧ 8 ≤ (with_ [(Fd.GLB_MEMCFG_CTL_GIB, 1)]).ctlBytes ∧
    0x9BFFFFF8 + 8 ≤ 0x9C000000 := by decide

/-- Source 5 asserts core 2's line. -/
def pending5 : State := { with_ [(Fd.EVC_CTL_ENABLE, 1), (Fd.EVC_SRC_PRIO 1, 3), (Fd.EVC_SRC_TARGET 1, 4), (Fd.GLB_WDOG_EXPIRED, 1)] with
  rdata := 0 }

theorem witness_ClaimReturnsTheHighest : pending5.asserts 2 1 = true ∧ (∀ n < 16, live.asserts 2 n = false) := by decide

theorem witness_CompleteAndMask : sourceExists 1 = true ∧
    tfind { live with evc := { live.evc with insvc := [(1, 2)] } }.evc.insvc (1 % 2048) = some 2 ∧ tfind live.evc.insvc 1 ≠ some 2 := by decide

/-- Mailbox 15 enabled with one FRAME_OUT entry for port 63, which is up. -/
def posted : State := sets { live with hbm := putBytes [] 0 (le 2 0x11 ++ le 1 15 ++ zeros 1 ++ le 4 60 ++ zeros 8 ++ le 8 4096 ++ le 1 63 ++ zeros 39) }
  [(Fd.EVC_MB_CFG_ENABLE 15, 1), (Fd.TRL_PORT_STATUS_UP 63, 1)]

theorem witness_MailboxIndices : bits (2 ^ 63) 63 63 = 1 ∧ live.flag (Fd.EVC_MB_CFG_ENABLE 15) = false ∧
    (with_ [(Fd.EVC_MB_CFG_ENABLE 5, 1)]).flag (Fd.EVC_MB_CFG_ENABLE 5) = true ∧
    live.mbSize 15 < serialDist 32 (live.fd (Fd.EVC_MB_IDX_CI 15)) (bits (65 * 2 ^ 32) 63 32) := by decide

theorem witness_MailboxIndices_posted :
    posted.fd (Fd.EVC_MB_IDX_PI 15) = 0 ∧ posted.flag (Fd.EVC_MB_CFG_ENABLE 15) = true ∧ posted.trl.postings = [] ∧ posted.trl.postNext = 0 ∧
    posted.fd (Fd.EVC_MB_IDX_CI 15) = 0 ∧ bits (2 ^ 32) 63 32 = 1 ∧ posted.fd (Fd.EVC_MB_BASE_ADDR 15) = 0 ∧
    postedOk (posted.hbmRead 0 64) = true ∧ lat (posted.hbmRead 0 64) 0 2 = 0x11 ∧ lat (posted.hbmRead 0 64) 24 1 = 63 ∧
    posted.flag (Fd.TRL_PORT_STATUS_UP 63) = true := by decide

theorem witness_TimersAndCores : bits 1 0 0 = 1 ∧ bits 1 1 0 = 1 ∧ live.fd (Fd.GLB_CORE_STATUS_STATE 15) = 0 ∧ bits 2 1 1 = 1 ∧
    (with_ [(Fd.GLB_WDOG_PERIOD_MS, 1)]).fd Fd.GLB_WDOG_PERIOD_MS = 1 ∧
    { with_ [(Fd.GLB_WDOG_PERIOD_MS, 1)] with mtime := 100000 }.evc.wdogAt + 1 * 100000 ≤ 100000 ∧ live.evc.wdogFirst = false := by decide

/-! ## Restarts, shelter, the test port, management and keys -/

/-- Held after the power-fail protocol. -/
def powerLost : State := { live with inReset := true, glb := { live.glb with hold := .powerFail, nor := [] } }

theorem witness_RestartsAndCauses : ([] : List Byte).take 4 ≠ imgMagic ∧ ([] : List Byte).length < 2 ^ 27 ∧ powerLost.glb.hold = .powerFail ∧
    live.glb.hold = .none ∧ live.inReset = false ∧ live.fd Fd.GLB_PWR_STATE = 0 ∧ live.hbmRead 0 4 ≠ imgMagic ∧ live.glb.nor.take 4 ≠ imgMagic ∧
    live.glb.nor.length < 2 ^ 27 ∧ bits 0x5A01 0 0 = 1 ∧ bits 0x5A01 15 8 = 0x5A := by decide

/-- The watchdog's second expiry is due. -/
def watched : State := { with_ [(Fd.GLB_WDOG_PERIOD_MS, 1)] with mtime := 100000, evc := { live.evc with wdogFirst := true } }

theorem witness_RestartsAndCauses_watchdog : watched.fd Fd.GLB_WDOG_PERIOD_MS = 1 ∧ watched.evc.wdogAt + 1 * 100000 ≤ watched.mtime ∧
    watched.evc.wdogFirst = true ∧ watched.fd Fd.GLB_PWR_STATE = 0 ∧ watched.hbmRead 0 4 ≠ imgMagic := by decide

/-- In shelter for 5 ms. -/
def sheltered : State := { with_ [(Fd.GLB_PWR_STATE, 1)] with mtime := 500000 }

theorem witness_ShelterAndPowerFail : live.fd Fd.GLB_PWR_STATE = 0 ∧ sheltered.fd Fd.GLB_PWR_STATE = 1 ∧
    sheltered.glb.shelterAt + 500000 ≤ sheltered.mtime ∧ sheltered.glb.shelterAt + 2000 ≤ sheltered.mtime ∧ sheltered.glb.waiting = none ∧
    sheltered.ae.queues = [] ∧ sheltered.wxp.reqs = [] ∧ sheltered.flt.writes = [] ∧ live.glb.hold = .none ∧
    (∀ p ∈ live.groupPorts (21 - 6), live.flag (Fd.TRL_PORT_STATUS_UP p) = false) := by decide

theorem witness_TestPort : (List.replicate 846 true).length = 846 ∧ live.glb.hold ≠ .porst ∧ live.idleForTest = true ∧
    (with_ [(Fd.AE_GCTL_ENABLE, 1)]).idleForTest = false := by decide +kernel

/-- A management port with a receive buffer at 64 KiB and a frame of 60 bytes to send. -/
def managed : State := sets { live with hbm := putBytes [] 0x8000 (le 8 0x10000 ++ zeros 8 ++ le 8 0x20000 ++ le 2 60 ++ zeros 6) }
  [(Fd.MGT_CTL_ENABLE, 1), (Fd.MGT_RX_RING_ADDR, 0x8000), (Fd.MGT_RX_IDX_CI, 64), (Fd.MGT_TX_RING_ADDR, 0x8010), (Fd.MGT_TX_IDX_PI, 1)]

/-- A broadcast frame. -/
def frame : List Byte := List.replicate 6 0xFF ++ zeros 6 ++ [0x08, 0x00] ++ zeros 46

theorem witness_ManagementFrames : managed.flag Fd.MGT_CTL_ENABLE = true ∧ managed.mgtAccepts frame = true ∧
    managed.mgtEntry Reg.MGT_RX_RING 0 = 0x8000 ∧ managed.fd Fd.MGT_RX_IDX_PI ≠ managed.fd Fd.MGT_RX_IDX_CI ∧
    lat (managed.hbmRead 0x8000 8) 0 8 = 0x10000 ∧ 0x10000 + frame.length ≤ hbmBytes ∧ 0x8000 + 16 ≤ 0x10000 ∧
    (with_ [(Fd.MGT_CTL_ENABLE, 1)]).fd Fd.MGT_RX_IDX_PI = (with_ [(Fd.MGT_CTL_ENABLE, 1)]).fd Fd.MGT_RX_IDX_CI ∧
    serialDist 32 (managed.fd Fd.MGT_RX_IDX_PI) (bits 64 31 0) ≤ 2 ^ managed.fd Fd.MGT_RX_RING_LOG2SIZE ∧
    managed.fd Fd.MGT_TX_IDX_CI ≠ managed.fd Fd.MGT_TX_IDX_PI ∧ managed.mgtEntry Reg.MGT_TX_RING 0 = 0x8010 ∧
    lat (managed.hbmRead 0x8018 2) 0 2 = 60 ∧ managed.flag Fd.MGT_STATUS_LINK_UP ≠ true := by decide

/-- Partition 15's composition waits; a sample is due, and a record after it. -/
def metered : State := { with_ [(Fd.MGT_USAGE_CTL_ENABLE, 1), (Fd.MGT_USAGE_CTL_PERIOD_S, 1)] with
  mtime := 100000, mgt := { live.mgt with sampleAt := 1000000 } }

theorem witness_UsageMetering : serialLt 32 (live.fd (Fd.MGT_PART_COMP_MAP_EPOCH 15)) (bits 1 31 0) = true ∧ live.mgt.comps = [] ∧
    0 < live.logRoom ∧ serialLt 32 (live.fd (Fd.MGT_PART_COMP_MAP_EPOCH 0)) (bits 0 31 0) = false ∧
    { live with mgt := { live.mgt with comps := [(15, (7, 1))] } }.mgt.comps = [(15, (7, 1))] ∧ live.ae.running = [] ∧
    live.flag Fd.MGT_USAGE_CTL_ENABLE = false ∧ (live.mgt.sampleAt / 1000 + 1) * 1000 ≤ metered.usec ∧
    metered.flag Fd.MGT_USAGE_CTL_ENABLE = true ∧ metered.mgt.periodAt < metered.mgt.sampleAt / 1000000 * 1000000 ∧ 16 ≤ metered.logRoom ∧
    (zeros 8).length = 8 := by decide

/-- Engine 79 waits for its molt; engine 0 molts. -/
def molting (n : Nat) : State := { live with sec := { live.sec with molting := some (n, 3) } }

theorem witness_MoltsAndFuses : { live with sec := { live.sec with molts := [(79, 3)] } }.sec.molts = [(79, 3)] ∧
    tfind live.ae.running 79 = none ∧ live.engineQueue 79 = [] ∧ (molting 0).sec.molting = some (0, 3) ∧ (molting 79).sec.molting = some (79, 3) ∧
    (with_ [(Fd.TWN_CLASS_LIMIT 3, 0)]).fd (Fd.TWN_CLASS_LIMIT 3) = 0 := by decide

/-- Software has started and slots 0 and 1 hold hashes. -/
def fused : State := { live with glb := { live.glb with accepted := true }, sec := { live.sec with hashes := [(0, zeros 32), (1, zeros 32)] } }

theorem witness_MoltsAndFuses_fuses : fused.sec.fusing = none ∧ fused.flag Fd.SEC_CTL_BOOT_DONE = false ∧ fused.glb.accepted = true ∧
    bits 0x0D 1 0 = 1 ∧ bits 0x0D 3 2 = 3 ∧ tfind fused.sec.hashes 3 = none ∧ fused.slotIn Fd.SEC_FUSE_STATUS_SPOILED 3 = false ∧
    bits 0x06 1 0 = 2 ∧ bits 0x06 3 2 = 1 ∧ 1 ≠ fused.fd Fd.SEC_STATUS_BOOT_SLOT ∧
    (∃ j < 4, j ≠ 1 ∧ (tfind fused.sec.hashes j).isSome ∧ fused.slotIn Fd.SEC_FUSE_STATUS_REVOKED j = false) ∧
    bits 3 1 0 = 3 ∧ fused.fd Fd.SEC_FUSE_STATUS_SVN < 64 ∧
    { fused with sec := { fused.sec with fusing := some .svn } }.sec.fusing = some .svn := by decide

/-- Slot 5 is the key of an open conduit. -/
def keyed : State := sets { live with trl := { live.trl with conduits := [(3, { open_ with enc := true, keySlot := 5 })] } } [(Fd.SEC_KEY_SEL_SLOT, 5)]

theorem witness_KeysOfPartitionsAndConduits : bits 1 1 0 = 1 ∧ bits 2 1 0 = 2 ∧ live.keyInUse 5 = false ∧ keyed.fd Fd.SEC_KEY_SEL_SLOT = 5 ∧
    keyed.keyInUse 5 = true ∧ bits 4 3 2 = 1 ∧ live.fd Fd.SEC_PKEY_ADDR_ADDR + 64 ≤ hbmBytes ∧ bits 12 3 2 = 3 ∧ live.partHolds 15 = false ∧
    keyed.partHolds 0 = true := by decide

theorem witness_MeasurementsAndSignatures : bits (2 ^ 63 + 4 * 2 ^ 56) 63 63 = 1 ∧ bits (2 ^ 63 + 4 * 2 ^ 56) 58 56 = 4 ∧
    bits (2 ^ 63 + 7 * 2 ^ 56) 58 56 = 7 ∧ bits (2 ^ 63 + 3 * 2 ^ 56) 58 56 = 3 ∧ live.flag Fd.SEC_CTL_BOOT_DONE = false ∧
    (with_ [(Fd.SEC_CTL_BOOT_DONE, 1)]).flag Fd.SEC_CTL_BOOT_DONE = true ∧ bits (2 ^ 40) 40 40 = 1 ∧ live.sec.signing = none ∧
    { live with sec := { live.sec with signing := some (0, zeros 130, true) } }.sec.signing = some (0, zeros 130, true) ∧
    0 + 32 + 384 + (zeros 130).length ≤ hbmBytes := by decide

/-! ## Geckos -/

/-- Gecko k runs and the word stands at its PC. -/
def atWord (k w : Nat) (g : Gecko) : State := sets
  { live with hb := { live.hb with geckos := [(k, { g with state := .running, store := [(0, BitVec.ofNat 32 w)], pc := 0 })] } }
  [(Fd.HBM_CTL_GK_ENABLE (k / 32), 1)]

/-- A gecko with a value in g2. -/
def g2 (v : Nat) : Gecko := { Gecko.fresh with regs := Gecko.fresh.regs.set 2 (BitVec.ofNat 32 v) }

theorem witness_GeckoArithmetic : (∀ op ∈ [0x01, 0x02, 0x03, 0x04, 0x05, 0x06, 0x07, 0x08, 0x09, 0x0A, 0x0B],
      (atWord 255 (wordA op 15 2 14 0) (g2 31)).gkAt 255 (wordA op 15 2 14 0)) ∧
    (∀ op ∈ [0x10, 0x11, 0x12, 0x13, 0x14, 0x15], (atWord 0 (wordA op 0 2 0 0x3FFF) (g2 31)).gkAt 0 (wordA op 0 2 0 0x3FFF)) ∧
    (atWord 0 (wordU 0x16 15 0x3FFFF) (g2 1)).gkAt 0 (wordU 0x16 15 0x3FFFF) := by decide

theorem witness_GeckoLocalSpace : (g2 0x40FC).ea 2 0 = 0x40FC ∧ 0x40FC < 0x4100 ∧ (g2 0x4100).ea 2 4 = 0x4104 ∧ (g2 0x4100).ea 2 8 = 0x4108 ∧
    (g2 0x40E0).ea 2 0 + 32 = 0x4100 ∧ (g2 0x40FF).ea 2 0 = 0x40FF ∧ (g2 0x4108).reg 0 = 0 ∧
    (∀ op ∈ [0x18, 0x1A, 0x2E, 0x2F], (atWord 7 (wordA op 7 2 0 0) (g2 0x40E0)).gkAt 7 (wordA op 7 2 0 0)) ∧
    (∀ op ∈ [0x19, 0x1B], (atWord 7 (wordA op 0 2 15 8) (g2 0x4100)).gkAt 7 (wordA op 0 2 15 8)) := by decide

theorem witness_GeckoBranches : (∀ op ∈ [0x20, 0x21, 0x22, 0x23], (atWord 7 (wordA op 0 2 3 0x2000) (g2 5)).gkAt 7 (wordA op 0 2 3 0x2000)) ∧
    ((g2 5).reg 2).toNat ≠ ((g2 5).reg 3).toNat ∧ ¬(((g2 5).reg 2).toNat < ((g2 5).reg 3).toNat) ∧ ((g2 5).reg 3).toNat ≤ ((g2 5).reg 2).toNat ∧
    ((g2 5).reg 4).toNat = ((g2 5).reg 3).toNat ∧ ((g2 5).reg 3).toNat < ((g2 5).reg 2).toNat ∧
    (atWord 7 (wordU 0x24 0 0x20000) (g2 5)).gkAt 7 (wordU 0x24 0 0x20000) ∧ (atWord 7 (wordA 0x25 15 2 0 3) (g2 5)).gkAt 7 (wordA 0x25 15 2 0 3) := by decide

theorem witness_GeckoChannelReads : (g2 0x7BFFFFFC).ea 2 0 % 4 = 0 ∧ (g2 0x7BFFFFFC).ea 2 0 < 0x7C000000 ∧ (g2 0x7BFFFF80).ea 2 0 % 128 = 0 ∧
    (atWord 255 (wordA 0x28 15 2 0 0) (g2 0x7BFFFFFC)).gkAt 255 (wordA 0x28 15 2 0 0) ∧
    (∀ op ∈ [0x2B, 0x2C], ∀ d ∈ [0, 4], (sets (atWord 255 (wordA op d 2 0 0) (g2 0x7BFFFF80)) [(Fd.TWN_CLASS_LIMIT 0, 0), (Fd.TWN_CLASS_LIMIT 1, 0)]).gkAt 255
      (wordA op d 2 0 0)) ∧
    (with_ [(Fd.TWN_CLASS_LIMIT 0, 0), (Fd.TWN_CLASS_LIMIT 1, 0)]).fd (Fd.TWN_CLASS_LIMIT 0) = 0 ∧
    (with_ [(Fd.TWN_CLASS_LIMIT 0, 0), (Fd.TWN_CLASS_LIMIT 1, 0)]).fd (Fd.TWN_CLASS_LIMIT 1) = 0 := by decide

/-- Gecko k has one entry in its channel's lock table. -/
def locked (s : State) (k : Nat) (e : LockEntry) : State := { s with hb := { s.hb with locks := [(k, [e])] } }

theorem witness_GeckoWriteFence :
    (∀ op ∈ [0x29, 0x2D, 0x2A, 0x2B], ∀ d ∈ (if op = 0x29 then [0] else [0, 4]),
      let w := wordA op d 2 (if op = 0x29 ∨ op = 0x2A then 3 else 0) 0
      (locked (atWord 255 w (g2 0x7BFFFF80)) 255 ⟨0x7BFFFF80, 128, if op = 0x2A then .atom else .win, 0⟩).gkAt 255 w ∧
      (locked (atWord 255 w (g2 0x7BFFFF80)) 255 ⟨0x7BFFFF80, 128, if op = 0x2A then .atom else .win, 0⟩).window 255 0x7BFFFF80 128
        (if op = 0x2A then [.atom] else [.lock, .win]) ∧
      (atWord 255 w (g2 0x7BFFFF80)).lockTable 255 = [] ∧ ¬(atWord 255 w (g2 0x7BFFFF80)).window 255 0x7BFFFF80 4 [.lock, .win]) ∧
    (g2 0x7BFFFF80).ea 2 0 < 0x7C000000 := by decide

theorem witness_GeckoVectors : (∀ op ∈ [0x30, 0x31, 0x32, 0x33], (atWord 7 (wordA op 7 2 1 0) (g2 0)).gkAt 7 (wordA op 7 2 1 0)) ∧
    (atWord 7 (wordA 0x36 7 0 2 0) (g2 255)).gkAt 7 (wordA 0x36 7 0 2 0) ∧ (atWord 7 (wordA 0x35 15 7 0 31) (g2 255)).gkAt 7 (wordA 0x35 15 7 0 31) ∧
    (atWord 7 (wordA 0x34 6 7 2 0x11) (g2 255)).gkAt 7 (wordA 0x34 6 7 2 0x11) ∧ (fmtOf (0x11 % 16)).isSome := by decide

/-- A gecko whose inbox is full, or that holds one message, or two doorbells. -/
def full : Gecko := { g2 7 with inbox := List.replicate 4 (1, 0) }
def rung : Gecko := { g2 7 with rung := [7, 3], inbox := [(31, 5)] }

theorem witness_GeckoRingAndDoorbell : (atWord 7 (wordA 0x38 0 2 0 0) (g2 7)).gkAt 7 (wordA 0x38 0 2 0 0) ∧
    ((atWord 7 (wordA 0x38 0 2 0 0) (g2 7)).gk 7).inbox.length < 4 ∧ (atWord 7 (wordA 0x38 0 2 0 0) full).gkAt 7 (wordA 0x38 0 2 0 0) ∧
    4 ≤ ((atWord 7 (wordA 0x38 0 2 0 0) full).gk 7).inbox.length ∧ (atWord 7 (wordA 0x39 0 0 0 0) rung).gkAt 7 (wordA 0x39 0 0 0 0) ∧
    ((atWord 7 (wordA 0x39 0 0 0 0) rung).gk 7).inbox = [(31, 5)] ∧ ((atWord 7 (wordA 0x39 0 0 0 0) (g2 7)).gk 7).inbox = [] ∧
    (atWord 7 (wordA 0x3C 15 0 0 0) rung).gkAt 7 (wordA 0x3C 15 0 0 0) ∧ 3 ∈ rung.rung ∧ (∀ m < 3, m ∉ rung.rung) ∧ (∀ n < 8, n ∉ (g2 7).rung) ∧
    (atWord 7 (wordA 0x3D 0 2 0 255) (g2 7)).gkAt 7 (wordA 0x3D 0 2 0 255) ∧ (atWord 7 (wordA 0x3F 0 0 0 255) (g2 7)).gkAt 7 (wordA 0x3F 0 0 0 255) := by decide

theorem witness_GeckoFaults : ((atWord 7 0 (g2 7)).gk 7).fetch / 2 ^ 26 = 0 ∧ (atWord 7 0 (g2 7)).gkRuns 7 = true ∧
    (atWord 7 (wordA 0x01 1 2 3 1) (g2 7)).gkAt 7 (wordA 0x01 1 2 3 1) ∧ (atWord 7 (wordA 0x30 8 2 3 0) (g2 7)).gkAt 7 (wordA 0x30 8 2 3 0) ∧
    (atWord 7 (wordA 0x18 1 2 0 0) (g2 0x410C)).gkAt 7 (wordA 0x18 1 2 0 0) ∧ 0x410C < (g2 0x410C).ea 2 0 + 4 ∧ (g2 0x4105).ea 2 0 + 4 ≤ 0x410C ∧
    (g2 0x4105).ea 2 0 % 4 ≠ 0 ∧ (atWord 7 (wordA 0x19 0 2 3 0) (g2 0x4105)).gkAt 7 (wordA 0x19 0 2 3 0) ∧
    (atWord 7 (wordA 0x29 0 2 3 0) (g2 0x7C000000)).gkAt 7 (wordA 0x29 0 2 3 0) ∧ 0x7C000000 < (g2 0x7C000000).ea 2 0 + 4 ∧
    (g2 0x7BFFFFFA).ea 2 0 + 4 ≤ 0x7C000000 ∧ (g2 0x7BFFFFFA).ea 2 0 % 4 ≠ 0 := by decide

/-- Gecko 255 has run its job for its watchdog's time. -/
def overdue : State := { sets (atWord 255 0 { g2 0 with busy := [7], everRung := [7] }) [(Fd.GK_CTL_WATCHDOG_US 7 31, 1)] with mtime := 100 }

theorem witness_GeckoControl : bits 4 2 2 = 1 ∧ bits 4 1 1 = 0 ∧ bits 2 1 1 = 1 ∧ bits 1 2 2 = 0 ∧ bits 1 1 1 = 0 ∧ bits 1 0 0 = 1 ∧
    (live.gk 255).state = .stopped ∧ 7 ∉ (live.gk 255).everRung ∧ 7 ∈ (overdue.gk 255).everRung ∧
    (tget 0 (overdue.gk 255).cmd (32 * 7 + 1)).toNat % 2 = 0 ∧ overdue.fd (Fd.GK_CTL_WATCHDOG_US (255 / 32) (255 % 32)) = 1 ∧
    (overdue.gk 255).state = .running ∧ (overdue.gk 255).busy ≠ [] ∧ (overdue.gk 255).since + 1 * 100 ≤ overdue.mtime := by decide

/-! ## Jobs of geckos and the service of the channels -/

/-- Gecko 255 runs with a job rung in slot 7, and one lock table entry. -/
def atJob (code param a0 a1 a2 : Nat) (e : LockEntry) : State :=
  locked (atWord 255 0 { g2 0 with
    cmd := putBytes [] 224 (le 1 code ++ zeros 2 ++ le 1 param ++ zeros 4 ++ le 8 a0 ++ le 8 a1 ++ le 8 a2), rung := [7], everRung := [7] }) 255 e

/-- The slot's bytes, as the statement reads them. -/
def slot7 (s : State) : List Byte := (List.range 32).map fun i => tget 0 (s.gk 255).cmd (32 * 7 + i)

/-- A DIGEST of one row of one F8A element at 0, to 0x1000. -/
def digestJob : State := atJob 1 1 0 (2 ^ 40 + 2 ^ 32) 0x1000 ⟨0x1000, 64, .win, 7⟩

theorem witness_GeckoJobs_digest : digestJob.gkRuns 255 = true ∧ 7 ∈ (digestJob.gk 255).rung ∧ (digestJob.gk 255).busy = [] ∧
    lat (slot7 digestJob) 0 1 = 1 ∧ bits (lat (slot7 digestJob) 16 8) 50 40 = 1 ∧ bits (lat (slot7 digestJob) 16 8) 35 32 = 1 ∧
    (fmtOf 1).map (·.rowBytes 1) = some 1 ∧
    (bankDigestOf 1 1 0 1 0 0 0 (digestJob.chBytes 255 0 16) false).map List.length = some 32 ∧
    digestJob.window 255 (lat (slot7 digestJob) 24 8 % 2 ^ 31) 32 [.lock, .win] := by decide

theorem witness_GeckoJobs : (∀ c ∈ [2, 5, 6], (atJob c 0 0x7BFFFF80 128 0 ⟨0, 1, .lock, 7⟩).gkRuns 255 = true ∧
      lat (slot7 (atJob c 0 0x7BFFFF80 128 0 ⟨0, 1, .lock, 7⟩)) 0 1 = c ∧ lat (slot7 (atJob c 0 0x7BFFFF80 128 0 ⟨0, 1, .lock, 7⟩)) 16 8 = 128) ∧
    0x7BFFFF80 + 128 = 0x7C000000 ∧ 0x7C000000 < 0x7BFFFF80 + 129 ∧ lat (slot7 (atJob 2 0 0x7BFFFF80 129 0 ⟨0, 1, .lock, 7⟩)) 16 8 = 129 ∧
    (atJob 3 0 0 128 64 ⟨128, 64, .lock, 7⟩).gkRuns 255 = true ∧ (atJob 3 0 0 128 64 ⟨128, 64, .lock, 7⟩).window 255 128 64 [.lock, .win] ∧
    (atJob 4 0 0x7BFFFF80 128 0 ⟨0x7BFFFF80, 128, .win, 7⟩).window 255 0x7BFFFF80 128 [.lock, .win] ∧
    (atJob 7 15 0 4096 (1 + 2 ^ 24) ⟨4096, 32, .win, 7⟩).window 255 4096 (15 * 1) [.lock, .win] ∧
    (atJob 7 15 0 4096 (1 + 2 ^ 24) ⟨4096, 32, .win, 7⟩).window 255 (4096 + 16) (15 * 1) [.lock, .win] ∧
    bits (lat (slot7 (atJob 7 15 0 4096 (1 + 2 ^ 24) ⟨4096, 32, .win, 7⟩)) 24 8) 23 0 = 1 ∧
    bits (lat (slot7 (atJob 7 15 0 4096 (1 + 2 ^ 24) ⟨4096, 32, .win, 7⟩)) 24 8) 47 24 = 1 := by decide

/-- A SWEEP of the descriptor chunk that starts at frame unit 0. -/
def sweepJob : State := { atJob 8 0 0 2048 65536 ⟨0, 65536, .atom, 7⟩ with
  hb := { (atJob 8 0 0 2048 65536 ⟨0, 65536, .atom, 7⟩).hb with locks := [(255, [⟨0, 65536, .atom, 7⟩, ⟨65536, sweepOutBytes, .win, 7⟩])] }
  pgt := { live.pgt with chunks := [devAddr 255 0 / 2048] } }

theorem witness_GeckoJobs_sweep : sweepJob.window 255 0 65536 [.atom] ∧ sweepJob.window 255 65536 sweepOutBytes [.lock, .win] ∧
    lat (slot7 sweepJob) 24 8 % 2 ^ 31 = 65536 ∧ 65536 + sweepOutBytes ≤ 0x7C000000 ∧ lat (slot7 sweepJob) 16 8 ≤ 2048 ∧ sweepJob.pgt.chunks[0]? = some (devAddr 255 0 / 2048) ∧
    devAddr 255 0 / 2048 * 2048 ≤ devAddr 255 0 ∧ devAddr 255 0 < devAddr 255 0 / 2048 * 2048 + 2 ^ 21 := by decide

/-- A job of each code that waits for channel 3, on which page 9 may be locked. -/
def jobFor (code : Nat) (u : JobUse) (l : Option Nat) : GkJob := ⟨3, code, 1, 0, 0, 0, u, [⟨0, 128, .lock, 0⟩], l, none, 0⟩
def page : Desc := ⟨⟨.hbm, 0, 0⟩, 0, 0, 0, 0, .sealed, .none, false, false, 0, 0, 1, 0, 0, 16, 0, false, none, false, true, false⟩
def waiting (j : GkJob) : State := { live with hb := { live.hb with jobs := [j] }, pgt := { live.pgt with descs := [(9, page)] } }

theorem witness_GeckoJobIssue : (∀ c ∈ [1, 2, 4, 5, 6, 7, 8],
      (waiting (jobFor c .user (some 9))).hb.jobs.find? (fun j => j.code == c && (waiting (jobFor c .user (some 9))).mayIssue 3 7 j) =
        some (jobFor c .user (some 9))) ∧
    (waiting (jobFor 1 .user none)).gkRuns 3 = false ∧ (waiting (jobFor 1 .user none)).chanUsable 3 = true ∧
    (waiting (jobFor 1 .user none)).quiet := by decide

/-- Slot 7 of gecko 3 is DONE, with a status; a compaction of page 9 in slot 0. -/
def doneIn (slot st : Nat) (u : JobUse) (l : Option Nat) : State := { live with
  hb := { live.hb with jobs := [{ jobFor 3 u l with slot := some slot }], geckos := [(3, { g2 0 with cmd := putBytes [] (32 * slot + 1) [1, BitVec.ofNat 8 st] })] }
  pgt := { live.pgt with descs := [(9, { page with state := .lockedBank })] } }

theorem witness_GeckoJobIssue_release : (doneIn 7 0 .user none).quiet ∧ (doneIn 7 0 .user none).hb.held = [] ∧
    (doneIn 0 0 (.compact 9 64) (some 9)).tier.unplaced = [] ∧ live.ae.streams = [] ∧ live.ae.lockWait = [] ∧
    ((doneIn 7 0 .user none).hb.jobs.find? (fun j => j.chan == 3 && j.slot == some 7)).map (fun j => (j.use, j.locks)) = some (.user, none) ∧
    (tget 0 ((doneIn 7 0 .user none).gk 3).cmd (32 * 7 + 1)).toNat % 2 = 1 ∧
    ((doneIn 0 0 (.compact 9 64) (some 9)).hb.jobs.find? (fun j => j.chan == 3 && j.slot == some 0)).map (·.use) = some (.compact 9 64) ∧
    ((doneIn 0 0 (.compact 9 64) (some 9)).desc 9).map (·.state) = some .lockedBank ∧
    (tget 0 ((doneIn 0 stTIMEOUT (.compact 9 64) (some 9)).gk 3).cmd 2).toNat = stTIMEOUT := by decide

/-- Stack 7 is trained and a scrub of channel 255 is due. -/
def serviced : State := { with_ [(Fd.HBM_STATUS_TRAINED 7, 1), (Fd.HBM_SCRUB_PERIOD_S 7, 1)] with mtime := 10 ^ 12 }

theorem witness_HbmService : (overdue.gk 255).state = .running ∧ (overdue.gk 255).busy ≠ [] ∧ serviced.flag (Fd.HBM_STATUS_TRAINED 7) = true ∧
    ((tfind serviced.hb.retrainAt 7).getD 0) + max 1 (serviced.fd (Fd.HBM_CTL_RETRAIN_MS 7)) * 100000 ≤ serviced.mtime ∧
    serviced.fd (Fd.HBM_SCRUB_PERIOD_S (255 / 32)) = 1 ∧ serviced.chanUsable 255 = true ∧ serviced.hb.scrubDue = [] ∧ serviced.pgt.descs = [] ∧
    (tfind serviced.hb.scrubAt 255).getD 0 + 1 * 10 ^ 8 / 31744 ≤ serviced.mtime := by decide


/-! ## Sequences, pages and the prefix directory -/

/-- A class of one token byte: one layer, one group, format F8A, latent, partition 0. -/
def def8 : Nat := 2 ^ 15 + 2 ^ 16 + 2 ^ 8 + 2 ^ 4 + 1
/-- Sequence 5 with pages by key, of one layer, in a state where conduit 3 sends. -/
def seq5 (pt : Tbl Nat) (len def1 : Nat) : Seq :=
  { newSeq (5 * 2 ^ 16 + 1) 0 def8 def1 len 0 false with pt := pt }
def holding (q : Seq) (ds : Tbl Desc) : State :=
  { on3 live with
    pgt := { live.pgt with seqs := [(5, q)], descs := ds }
    cust := { live.cust with records := [(5, ⟨q.handle, 1, 0, .held, 0, 0, 0, 0, 0⟩)] } }
def tadpole (frame : Nat) : Desc := { page with loc := ⟨.hbm, 0, frame⟩, state := .tadpole, def0 := def8 }
def handle5 : List Byte := le 8 (5 * 2 ^ 16 + 1)

/-- Four tokens are there; five more are appended, up to the page's last slot, or at other places. -/
def four : State := holding (seq5 [(ptKey 0 0 0, 9)] 4 0) [(9, tadpole 3)]
def appendAt (start n : Nat) : List Byte := handle5 ++ le 4 start ++ le 2 n ++ le 2 0 ++ zeros n

theorem witness_Appends : four.takes 3 (lat (appendAt 4 12) 0 8) 5 (seq5 [(ptKey 0 0 0, 9)] 4 0) ∧
    appendCheck (seq5 [(ptKey 0 0 0, 9)] 4 0) (appendAt 4 12) = none ∧ clsGroups (seq5 [] 4 0).def1 = 1 ∧ 4 % 16 + 12 ≤ 16 ∧
    tfind (seq5 [(ptKey 0 0 0, 9)] 4 0).pt (ptKey 0 0 (4 / 16)) = some 9 ∧ four.desc 9 = some (tadpole 3) ∧
    (tadpole 3).state ≠ .poisoned ∧ (tadpole 3).loc.frame * 2048 + contentSize def8 ≤ hbmBytes ∧
    appendCheck (seq5 [(ptKey 0 0 0, 9)] 4 0) (appendAt 3 1) = some stALREADY ∧
    appendCheck (seq5 [(ptKey 0 0 0, 9)] 4 0) (appendAt 5 1) = some stBOUNDS := by decide

def truncTo (n : Nat) : List Byte := handle5 ++ le 4 n ++ zeros 4
def closed5 : State := holding { seq5 [(ptKey 0 0 0, 9)] 16 0 with closed := true } [(9, tadpole 3)]

theorem witness_SealsTruncatesAndFrees : handle5.length = 8 ∧ (truncTo 0).length = 16 ∧
    four.takes 3 (lat handle5 0 8) 5 (seq5 [(ptKey 0 0 0, 9)] 4 0) ∧ four.takes 3 (lat (truncTo 0) 0 8) 5 (seq5 [(ptKey 0 0 0, 9)] 4 0) ∧
    (∀ l ∈ (seq5 [] 4 0).layerLen, l = (seq5 [] 4 0).length) ∧
    closed5.takes 3 (lat handle5 0 8) 5 { seq5 [(ptKey 0 0 0, 9)] 16 0 with closed := true } ∧
    clsPrefix (seq5 [] 16 0).def1 = false ∧ (∀ l ∈ (seq5 [] 16 0).layerLen, 16 ≤ l) ∧ (∃ l ∈ (seq5 [] 4 0).layerLen, l ≠ 0) ∧
    (∃ l ∈ (seq5 [] 4 0).layerLen, l < 5) ∧ lat (truncTo 5) 8 4 = 5 ∧ lat (truncTo 5) 12 4 = 0 ∧ lat (truncTo 16) 8 4 % 16 = 0 := by decide

theorem witness_SealsTruncatesAndFrees_bounds : (on3 live).quiet ∧ (on3 live).sends 3 ∧ hPart (lat handle5 0 8) = (on3 live).partOf 3 ∧
    (on3 live).route (lat handle5 0 8) = .bounds ∧ lat (handle5 ++ zeros 8) 0 8 = lat handle5 0 8 := by decide

/-- The sequence is being freed. -/
def freeing5 : State := { closed5 with pgt := { closed5.pgt with
  seqs := [(5, { seq5 [(ptKey 0 0 0, 9)] 16 0 with sstate := .freeing })], freeing := [5] } }

theorem witness_SealsTruncatesAndFrees_complete : freeing5.quiet ∧ freeing5.alone ∧ 5 ∈ freeing5.pgt.freeing ∧
    (freeing5.seq 5).map (fun q => (hIndex q.handle, hHome q.handle, q.cold)) = some (5, freeing5.node, none) ∧
    ((freeing5.seq 5).map fun q => q.pt.map Prod.snd) = some [9] ∧ ((freeing5.desc 9).map (·.refcnt)) = some 1 := by decide

/-- Class 0 is defined, partition 0 may have two sequences, and every chunk of the sequence table is there. -/
def room (s : State) : State :=
  let s := sets s [(Fd.PGT_CLASS_DEF0_VALID, 1), (Fd.PGT_PART_SEQ_MAX_MAX 0, 2)]
  { s with pgt := { s.pgt with seqChunks := (List.range 512).map fun c => (c, 8388608 + 1024 * c) } }

theorem chunk_there : ∀ c < 512, (tfind ((List.range 512).map fun c => (c, 8388608 + 1024 * c)) c).isSome = true := by decide +kernel

/-- A start of the search that fits, where its channels serve, is enough. -/
theorem findHbm_of_start (s : State) (n al c : Nat) (ok : Nat → Bool)
    (ho : ∀ i < min 256 (ceilDiv n 32), ok (chanOf ((c + 32 * i) * 2048)) = true)
    (hc : c = ceilDiv (s.tier2Base / 2048) al * al ∨ ∃ p ∈ s.tier.hbmUsed, c = ceilDiv (p.1 + p.2) al * al)
    (h1 : s.tier2Base / 2048 ≤ c) (h2 : c + n ≤ hbmBytes / 2048) (h3 : ∀ p ∈ s.tier.hbmUsed, p.1 + p.2 ≤ c ∨ c + n ≤ p.1) :
    (s.findHbm n al ok).isSome = true := by
  simp only [State.findHbm, Option.isSome_or, Bool.or_eq_true, List.findSome?_isSome_iff, List.find?_isSome]
  refine .inl ⟨c, ?_, c, by simp, ?_⟩
  · rcases hc with rfl | ⟨p, hp, rfl⟩
    · simp
    · simp only [List.mem_cons, List.mem_map]; exact .inr (.inr ⟨p, hp, rfl⟩)
  · simp only [List.all_eq_true, Bool.and_eq_true, decide_eq_true_eq]
    exact ⟨⟨⟨h1, h2⟩, fun p hp => by simpa using h3 p hp⟩, fun i hi => ho i (List.mem_range.mp hi)⟩

/-- A frame of two units is found where at most one such frame is taken and every channel serves. -/
theorem takes_frame (s : State) (hb : s.tier2Base / 2048 = 8388608) (hc : ∀ c, s.chanUsable c = true) (hw : s.hb.worn = [])
    (hu : s.tier.hbmUsed = [] ∨ ∃ a, s.tier.hbmUsed = [(a, 2)]) :
    ∃ a, s.takeHbmRaw 2 2 (fun _ => true) = some (a, (s.onTier fun b => { b with hbmUsed := tset s.tier.hbmUsed a 2 }).drawn) := by
  have key : (s.findHbm 2 2 (fun c => (s.chanUsable c && true) && !s.hb.worn.contains c)).isSome = true := by
    have ho : ∀ k, ((s.chanUsable k && true) && !s.hb.worn.contains k) = true := by simp [hc, hw]
    have hh : hbmBytes / 2048 = 260046848 := by decide
    obtain hu | ⟨a, hu⟩ := hu
    · exact findHbm_of_start s 2 2 8388608 _ (fun _ _ => ho _) (.inl (by rw [hb]; rfl)) (by omega) (by omega) (by simp [hu])
    · by_cases h : 8388610 ≤ a ∨ a + 2 ≤ 8388608
      · exact findHbm_of_start s 2 2 8388608 _ (fun _ _ => ho _) (.inl (by rw [hb]; rfl)) (by omega) (by omega) (by simp [hu]; omega)
      · exact findHbm_of_start s 2 2 (ceilDiv (a + 2) 2 * 2) _ (fun _ _ => ho _) (.inr ⟨(a, 2), by simp [hu], rfl⟩) (by simp only [ceilDiv]; omega)
          (by simp only [ceilDiv]; omega) (by simp [hu, ceilDiv]; omega)
  obtain ⟨a, ha⟩ := Option.isSome_iff_exists.mp key
  refine ⟨a, ?_⟩
  simp only [State.takeHbmRaw, ha, Option.some_or, Option.map_some]
  rfl

/-- One more page-table frame, and room for another where it is the first. -/
theorem adds_table (s : State) (k : Nat) (hb : s.tier2Base / 2048 = 8388608) (hc : ∀ c, s.chanUsable c = true) (hw : s.hb.worn = [])
    (hu : s.tier.hbmUsed = [] ∨ ∃ a, s.tier.hbmUsed = [(a, 2)]) :
    ∃ t a, s.addTable k = some t ∧ t.tier2Base / 2048 = 8388608 ∧ (∀ c, t.chanUsable c = true) ∧ t.hb.worn = [] ∧
      t.tier.hbmUsed = tset s.tier.hbmUsed a 2 := by
  obtain ⟨a, ha⟩ := takes_frame s hb hc hw hu
  rw [State.addTable, ha]
  exact ⟨_, a, rfl, hb, hc, hw, rfl⟩

theorem once {α : Type} (f : α → Option α) (z t : α) (h : f z = some t) : (List.range 1).foldl (fun r _ => r.bind f) (some z) = some t := h
theorem twice {α : Type} (f : α → Option α) (z t u : α) (h : f z = some t) (h2 : f t = some u) :
    (List.range 2).foldl (fun r _ => r.bind f) (some z) = some u := by
  have e : (some z).bind f = some t := h
  show ((some z).bind f).bind f = some u
  rw [e]; exact h2

/-- Page tables of up to two frames grow from none. -/
theorem fits_tables (z : State) (i : Nat) (hn : z.tableNeed i = 1 ∨ z.tableNeed i = 2) (hl : z.tablesOf i = [])
    (hb : z.tier2Base / 2048 = 8388608) (hc : ∀ c, z.chanUsable c = true) (hw : z.hb.worn = []) (hm : z.tier.hbmUsed = []) :
    (z.fitTables i).isSome = true := by
  obtain ⟨t, a, h2, hb2, hu2, hw2, hm2⟩ := adds_table z i hb hc hw (.inl hm)
  obtain ⟨u, _, h3, _⟩ := adds_table t i hb2 hu2 hw2 (.inr ⟨a, by rw [hm2, hm]; rfl⟩)
  rw [State.fitTables, hl, Option.isSome_map, List.length_nil, Nat.sub_zero]
  obtain hn | hn := hn
  · rw [hn, once (fun s => s.addTable i) z t h2, Option.isSome_some]
  · rw [hn, twice (fun s => s.addTable i) z t u h2 h3, Option.isSome_some]

/-- A sequence finds its place where its record's chunk is there and its tables take one or two frames. -/
theorem placed (s : State) (i c : Nat) (q : Seq) (pt : Tbl Nat) (hc : q.chunks i = [c]) (hs : (tfind s.pgt.seqChunks c).isSome = true)
    (ht : tfind s.pgt.tables i = none) (hn : { q with pt := pt }.tableFrames = 1 ∨ { q with pt := pt }.tableFrames = 2)
    (hb : s.tier2Base / 2048 = 8388608) (hu : ∀ c, s.chanUsable c = true) (hw : s.hb.worn = []) (hm : s.tier.hbmUsed = []) :
    (s.placeSeq i q pt).isSome = true := by
  have h1 : s.takeSeqChunks (q.chunks i) = some s := by simp [State.takeSeqChunks, hc, hs]
  rw [State.placeSeq, h1, Option.map_some, Option.bind_some, Option.isSome_map]
  refine fits_tables _ i ?_ ?_ hb hu hw hm
  · have hq : ((s.onPgt fun p => { p with seqs := tset p.seqs i { q with pt := pt } }).drawn).tableNeed i = { q with pt := pt }.tableFrames := by
      simp [State.tableNeed, State.seq, State.onPgt, State.drawn]
    rw [hq]; exact hn
  · simp [State.tablesOf, State.onPgt, State.drawn, ht]

theorem pick_free (s : State) (h : s.indexUsable 0 = true) (h2 : s.allSeqs < 16777216)
    (h3 : s.partSeqs 0 < s.fd (Fd.PGT_PART_SEQ_MAX_MAX 0)) : ∃ i, s.seqRoom 0 = (stOK, i) ∧ i < 2 ^ 24 := by
  cases hn : s.newIndex with
  | none =>
    exact absurd h (by
      have h0 := List.find?_eq_none.mp hn 0 (by simp)
      simp only [decide_true, Bool.true_and, Nat.two_pow_pos] at h0
      exact h0)
  | some i =>
    refine ⟨i, ?_, ?_⟩
    · simp only [State.seqRoom, hn]
      rw [if_neg (by omega)]
    · have := List.find?_some hn
      simp only [Bool.and_eq_true, decide_eq_true_eq] at this
      exact this.1

/-- And a place for it. -/
theorem pick_place (s : State) (q : Nat → Seq) (pt : Tbl Nat) (h : s.indexUsable 0 = true) (h2 : s.allSeqs < 16777216)
    (h3 : s.partSeqs 0 < s.fd (Fd.PGT_PART_SEQ_MAX_MAX 0)) (hc : s.pgt.seqChunks = (List.range 512).map fun c => (c, 8388608 + 1024 * c))
    (ht : s.pgt.tables = []) (hp : ∀ i, clsPrefix (q i).def1 = false)
    (hn : ∀ i, { q i with pt := pt }.tableFrames = 1 ∨ { q i with pt := pt }.tableFrames = 2) (hb : s.tier2Base / 2048 = 8388608)
    (hu : s.hb = live.hb) (hm : s.tier.hbmUsed = []) : ∃ i, s.seqRoom 0 = (stOK, i) ∧ (s.placeSeq i (q i) pt).isSome = true := by
  obtain ⟨i, hi, hl⟩ := pick_free s h h2 h3
  refine ⟨i, hi, placed s i (i / 32768) (q i) pt ?_ ?_ (by rw [ht]; rfl) (hn i) hb ?_ (by rw [hu]; rfl) hm⟩
  · rw [Seq.chunks, if_neg (by omega), hp]; rfl
  · rw [hc]; exact chunk_there _ (by omega)
  · intro c; simp only [State.chanUsable, hu]; rfl

def forkOf (h point cls adopt cursor : Nat) : List Byte := le 8 h ++ le 4 point ++ le 1 cls ++ le 1 adopt ++ le 2 0 ++ le 8 cursor
def empty5 : State := room (on3 live)
def parent : State := room (holding { seq5 [(ptKey 0 0 0, 9), (ptKey 0 0 1, 10)] 32 0 with closed := true }
  [(9, { page with def0 := def8 }), (10, { page with def0 := def8 })])

/-- The children: empty, of two shared pages, of a donor. -/
def childOf (s : State) (def0 def1 f i : Nat) : Seq :=
  newSeq (s.partOf 3 * 2 ^ 60 + s.node * 2 ^ 40 + i * 2 ^ 16 + s.nextGen i) 0 def0 def1 f s.usec true

theorem witness_Forks_create : (∃ i, empty5.seqRoom (empty5.partOf 3) = (stOK, i) ∧
      (empty5.placeSeq i (childOf empty5 (empty5.def0 0) (empty5.def1 0) 0 i) []).isSome = true) ∧ empty5.quiet ∧ empty5.alone ∧ empty5.sends 3 ∧
    empty5.inReset = false ∧ (forkOf 0 0 0 0 0).length = 24 ∧ lat (forkOf 0 0 0 0 0) 8 4 < 2 ^ 25 ∧ lat (forkOf 0 0 0 0 0) 14 2 = 0 ∧
    lat (forkOf 0 0 0 0 0) 0 8 = 0 ∧ lat (forkOf 0 0 0 0 0) 13 1 = 0 ∧ clsValid (empty5.def0 0) = true ∧
    clsPart (empty5.def0 0) = empty5.partOf 3 ∧ empty5.seq noSeq = none :=
  ⟨pick_place empty5 (childOf empty5 (empty5.def0 0) (empty5.def1 0) 0) [] (by decide) (by decide) (by decide) rfl rfl
    (fun _ => by show clsPrefix (empty5.def1 0) = false; decide)
    (fun _ => .inl (by show max 1 (ceilDiv (4 * clsLayers (empty5.def1 0) + 8 * chunkCount []) 4096) + chunkCount [] = 1; decide))
    (by decide) rfl rfl, by decide⟩

/-- The one page a child at 16 has. -/
def onePage : Tbl Nat := [(ptKey 0 0 0, 9)]

theorem witness_Forks_child : (∃ i, parent.seqRoom (parent.partOf 3) = (stOK, i) ∧
      (parent.placeSeq i (childOf parent def8 0 16 i) onePage).isSome = true) ∧
    (parent.seq 5).map (fun q => (q.pagesBelow 16, q.cls, q.def0, q.def1)) = some (onePage, 0, def8, 0) ∧
    (let p := forkOf (5 * 2 ^ 16 + 1) 16 0 0 0
     ∃ q, parent.takes 3 (lat p 0 8) 5 q ∧ lat p 0 8 ≠ 0 ∧ (q.pt.map Prod.fst).Nodup ∧ (q.pt.map Prod.snd).Nodup ∧
       lat p 8 4 ≤ q.length ∧ lat p 8 4 % 16 = 0 ∧ clsValid q.def0 = true ∧
       ∀ e ∈ q.pt, ∃ x, parent.desc e.2 = some x ∧ x.refcnt < 2 ^ 24 - 1) := by
  refine ⟨pick_place parent (childOf parent def8 0 16) onePage (by decide) (by decide) (by decide) rfl rfl (fun _ => by show clsPrefix 0 = false; decide)
    (fun _ => .inr (by show max 1 (ceilDiv (4 * clsLayers 0 + 8 * chunkCount onePage) 4096) + chunkCount onePage = 2; decide))
    (by decide) rfl rfl, by decide, { seq5 [(ptKey 0 0 0, 9), (ptKey 0 0 1, 10)] 32 0 with closed := true }, ?_⟩
  refine ⟨by decide, by decide, by decide, by decide, by decide, by decide, by decide, ?_⟩
  intro e he
  simp only [seq5, newSeq, List.mem_cons, List.not_mem_nil, or_false] at he
  obtain rfl | rfl := he
  · exact ⟨_, rfl, by decide⟩
  · exact ⟨_, rfl, by decide⟩

/-- The entry of key 77 in set 77, way `w`, of sequence 5 at position `pos`, and its shadow. -/
def entry77 (pos : Nat) : PdirEntry := ⟨77, 0, 0, 5, 1, pos, 0, 4, 3⟩
def directory (s : State) (l : List (Nat × PdirEntry)) : State :=
  l.foldl (fun s p => s.putEntry (77 * 16 + p.1) p.2) (sets s [(Fd.PDIR_CTL_ENABLE, 1), (Fd.PGT_CLASS_DEF1_PREFIX, 1)])
def donor : State := directory parent [(0, entry77 0)]
def cursor (e : Nat) : Nat := e + 4 * 2 ^ 18 + 0 * 2 ^ 34

theorem witness_Forks_adopt : (∃ i, donor.seqRoom (donor.partOf 3) = (stOK, i) ∧
      (donor.placeSeq i (childOf donor def8 0 16 i) onePage).isSome = true) ∧
    donor.quiet ∧ donor.alone ∧ donor.sends 3 ∧ donor.inReset = false ∧
    (let p := forkOf 0 16 0 1 (cursor (77 * 16))
     p.length = 24 ∧ lat p 0 8 = 0 ∧ lat p 13 1 = 1 ∧ (donor.adoptEntry 0 p []).2 = some (5, 77, 1) ∧ lat p 8 4 ≤ 16 * 1 ∧
     (donor.seq 5).map (fun q => (donor.handleOk q.handle 0 5, q.sstate)) = some (true, .active) ∧
     (∀ d ∈ [9, 10], ((donor.desc d).map fun x => (x.state, x.refcnt)) = some (.sealed, 1))) :=
  ⟨pick_place donor (childOf donor def8 0 16) onePage (by decide) (by decide) (by decide) rfl rfl (fun _ => by show clsPrefix 0 = false; decide)
    (fun _ => .inr (by show max 1 (ceilDiv (4 * clsLayers 0 + 8 * chunkCount onePage) 4096) + chunkCount onePage = 2; decide))
    (by decide) rfl rfl, by decide⟩

theorem witness_Forks_adopt_state : donor.adoptEntry 0 (forkOf 0 16 0 1 (cursor (77 * 16))) [] = (donor, some (5, 77, 1)) := by rfl

/-- Descriptor 9 is a tadpole: due, in unit 15, or reclaimed. -/
def sealing (due : Bool) (u : Option Nat) : State := { with_ [(Fd.CVU_CTL_OWNER 15, 0)] with
  mtime := 10 ^ 9
  pgt := { live.pgt with descs := [(9, { tadpole 3 with sealDue := due, sealUnit := u })], cvu := if u.isSome then [(15, .seal 9)] else [] } }
def reclaiming : State := { live with pgt := { live.pgt with
  descs := [(9, { tadpole 3 with refcnt := 0 })], reclaim := [⟨some 9, some ⟨.hbm, 0, 3⟩, def8, 0, false, none, 0⟩] } }

theorem witness_PagesAndEpochs : (sealing true none).desc 9 = some { tadpole 3 with sealDue := true } ∧ (tadpole 3).state = .tadpole ∧
    (sealing true none).cutDue 9 = false ∧ (sealing true none).fd (Fd.CVU_CTL_OWNER 15) = 0 ∧ tfind (sealing true none).pgt.cvu 15 = none ∧
    (sealing false (some 15)).desc 9 = some { tadpole 3 with sealUnit := some 15 } ∧ tfind (sealing false (some 15)).pgt.cvu 15 = some (.seal 9) ∧
    0 < (tadpole 3).refcnt ∧ (sealing false (some 15)).awake = true ∧
    (sealing true none).pgt.epochAt + max 1 ((sealing true none).fd Fd.PGT_CTL_EPOCH_PERIOD) * 100 ≤ (sealing true none).mtime ∧
    (sealing true none).desc (bits 9 31 0) = some { tadpole 3 with sealDue := true } := by decide

theorem witness_PagesAndEpochs_reclaim : reclaiming.desc 9 = some { tadpole 3 with refcnt := 0 } ∧ reclaiming.tier.borrowed = [] ∧
    (reclaiming.pgt.reclaim.find? (fun r => r.desc == some 9)).map (fun r => (r.loc, r.digest)) = some (some (tadpole 3).loc, none) ∧
    reclaiming.epochClear 0 = true ∧ reclaiming.tier.leaps = [] ∧ reclaiming.hb.jobs = [] ∧ tfind reclaiming.twn.hot 9 = none ∧
    (tadpole 3).loc.tier = .hbm ∧ (reclaiming.pgt.chunks.length - 1) * 65536 ≤ 9 := by decide

/-- Software owns unit 15, which has a job of three bytes, or none; class 0 is held by a sequence of `parent`. -/
def unit15 (poly : Nat) (busy : Bool) : State :=
  let s := with_ [(Fd.CVU_CTL_OWNER 15, 1), (Fd.CVU_CTL_POLY 15, poly), (Fd.CVU_CTL_FINAL 15, 1), (Fd.CVU_LEN_LEN 15, 3)]
  { s with pgt := { s.pgt with cvu := if busy then [(15, .software)] else [] } }

theorem witness_CheckUnitsAndClasses : (∀ poly ∈ [0, 1], tfind (unit15 poly false).pgt.cvu 15 = none ∧
      (unit15 poly false).fd (Fd.CVU_CTL_OWNER 15) = 1 ∧ (unit15 poly false).fd (Fd.CVU_LEN_LEN 15) ≠ 0 ∧
      tfind (unit15 poly true).pgt.cvu 15 = some .software ∧ (unit15 poly true).awake = true ∧
      (unit15 poly true).lockedAt ((unit15 poly true).fd (Fd.CVU_SRC_ADDR 15)) ((unit15 poly true).fd (Fd.CVU_LEN_LEN 15)) = false ∧
      (unit15 poly true).fd (Fd.CVU_SRC_ADDR 15) + (unit15 poly true).fd (Fd.CVU_LEN_LEN 15) ≤ hbmBytes) ∧ bits 1 0 0 = 1 ∧
    (let s := unit15 1 true
     let s : State := { s with hb := { s.hb with locks := [(0, [⟨0, 4096, .lock, 0⟩])] } }
     s.lockedAt (s.fd (Fd.CVU_SRC_ADDR 15)) (s.fd (Fd.CVU_LEN_LEN 15)) = true) ∧
    parent.classHeld (parent.fd Fd.PGT_CLASS_SEL_CLASS) = true ∧ live.classHeld (live.fd Fd.PGT_CLASS_SEL_CLASS) = false := by decide

/-- A sequence idle for 1 ms, one of whose tadpoles is not due, and area 3 with one unit. -/
def idle5 (q : Seq) (ds : Tbl Desc) : State :=
  let s := sets (holding q ds) [(Fd.PGT_COLD_DELAY_MS, 1), (Fd.FLT_AREA_BASE 3, 7), (Fd.FLT_AREA_SIZE 3, 1),
    (Fd.FLT_LOGICAL_UNITS, 8), (Fd.FLT_STATUS_STATE, 4), (Fd.FLT_CTL_ENABLE, 1), (Fd.PDIR_CTL_ENABLE, 0)]
  { s with mtime := 10 ^ 6, sec := { s.sec with xts := [(0, [])] } }
def image (units : List Nat) : ColdImage := ⟨[], [16], [], [], 0, 0, false, [], [], units, 0⟩
def cold5 (thawing : Bool) : State :=
  let q := seq5 [] 16 0
  idle5 { q with sstate := .cold, cold := some (image [7]), thawEpoch := if thawing then some 0 else none } []

def coldest : State := idle5 (seq5 [(ptKey 0 0 0, 9)] 4 0) [(9, tadpole 3)]

theorem witness_ColdSequences : ∃ t, coldest.fltAlloc 3 = some (7, t) ∧ (t.fltWrite 7
    (max 1 (ceilDiv (coldest.imageOf (seq5 [(ptKey 0 0 0, 9)] 4 0)).bytes.length 2048)) 0
    (slice (coldest.imageOf (seq5 [(ptKey 0 0 0, 9)] 4 0)).bytes 0 65536) (.image 5)).1 = stOK := by
  refine ⟨(coldest.onFlt fun f => { f with map := tset f.map 7 ⟨.allocated, 0⟩ }).drawn, ?_, ?_⟩
  · rw [State.fltAlloc, if_pos (by decide), State.freeUnit]
    have h : coldest.area 3 = (7, 1) := by decide
    simp only [h, Nat.max_self, Nat.mod_one]
    rfl
  · decide +kernel

theorem witness_ColdSequences_thaw : coldest.fd Fd.PGT_COLD_DELAY_MS ≠ 0 ∧ coldest.quiet ∧ coldest.cust.quiesced = [] ∧
    (coldest.seq 5).map (fun q => (q.sstate, q.hidden, q.cold, q.lastUse)) = some (.active, false, none, 0) ∧
    0 + coldest.fd Fd.PGT_COLD_DELAY_MS * 1000 ≤ coldest.usec ∧
    (seq5 [(ptKey 0 0 0, 9)] 4 0).pages = [9] ∧ coldest.desc 9 = some (tadpole 3) ∧ (tadpole 3).state = .tadpole ∧ (tadpole 3).sealDue = false ∧
    ((cold5 false).seq 5).map (fun q => (q.sstate, q.thawEpoch)) = some (.cold, none) ∧
    ((cold5 true).seq 5).map (fun q => (q.sstate, q.thawEpoch, q.cold)) = some (.cold, some 0, some (image [7])) ∧
    (cold5 true).quiet ∧ (image [7]).descs = [] ∧ (image [7]).tadpoles = [] := by decide

/-- A check-value unit of the pool that serves nothing is there. -/
theorem pool_unit (s : State) (h : ((List.range 16).filter fun u => s.fd (Fd.CVU_CTL_OWNER u) == 0 && (tfind s.pgt.cvu u).isNone) ≠ []) :
    s.poolUnit.isSome = true := by
  have := List.length_pos_of_ne_nil h
  rw [State.poolUnit, pickOf, List.getElem?_eq_getElem (Nat.mod_lt _ this), Option.isSome_some]

/-- The image of sequence 5 has been read; it is whole where the record's CRC-64 is that of no bytes. -/
def thawn5 (crc : Nat) : State :=
  let s := cold5 true
  let q := { seq5 [] 16 0 with sstate := .cold, cold := some (image [7]), thawEpoch := some 0, ptCrc := BitVec.ofNat 64 crc }
  { s with
    flt := { s.flt with reads := [⟨7, false, some (stOK, zeros 8)⟩] }
    pgt := { s.pgt with seqs := [(5, q)], seqChunks := [(0, 8388608)], tables := [(5, [9000000])] } }

theorem witness_ColdSequences_thawDone : (thawn5 0).imageRead (image [7]) = some (zeros 8) ∧ (thawn5 0).quiet ∧ (thawn5 0).alone ∧
    ((thawn5 0).seq 5).map (fun q => (q.sstate, q.thawEpoch, q.cold)) = some (.cold, some 0, some (image [7])) ∧
    ((thawn5 0).seq 5).map (fun q => decide (crc64From 0 (slice (zeros 8) 0 (4096 * q.ptSize)) = q.ptCrc.toNat)) = some true ∧
    ((thawn5 1).seq 5).map (fun q => decide (crc64From 0 (slice (zeros 8) 0 (4096 * q.ptSize)) = q.ptCrc.toNat)) = some false ∧
    ((thawn5 0).reinstate 5).isSome = true := by decide

theorem witness_ColdSequences_pool : (thawn5 0).poolUnit.isSome = true := pool_unit _ (by decide)

/-- LOOKUPs by keys, and from a cursor. -/
def lookupOf (keys : List Nat) : List Byte := le 1 0 ++ le 1 0 ++ le 2 keys.length ++ zeros 4 ++ zeros 8 ++ keys.flatMap (le 8)
def nextFrom (c : Nat) : List Byte := le 1 0 ++ le 1 1 ++ le 2 0 ++ zeros 4 ++ le 8 c
def ways : State := directory parent [(0, entry77 0), (15, entry77 1)]

theorem witness_PrefixDirectory : ways.sends 3 ∧ ways.flag Fd.PDIR_CTL_ENABLE = true ∧
    ways.lookupCheck (ways.partOf 3) (lookupOf [77, 78]) = none ∧ ways.lookupCheck (ways.partOf 3) (nextFrom (cursor (77 * 16))) = none ∧
    lat (lookupOf [77, 78]) 16 8 = 77 ∧ lat (lookupOf [77, 78]) 2 2 = 2 ∧ lat (nextFrom (cursor (77 * 16))) 8 8 = cursor (77 * 16) ∧
    ways.pdir.entries = [(77 * 16, entry77 0), (77 * 16 + 15, entry77 1)] ∧
    ways.shadowOk (77 * 16) (entry77 0) = true ∧ ways.donorOk (entry77 0) = true ∧
    ways.shadowOk (77 * 16 + 15) (entry77 1) = true ∧ ways.donorOk (entry77 1) = true := by decide

/-- The directory is due to age and to be scrubbed; purge filter 63 awaits its pass; a truncation waits for a filter. -/
def purging : State :=
  let s := sets ways [(Fd.PDIR_SCRUB_MS_MS, 1)]
  { s with mtime := 10 ^ 10, pdir := { s.pdir with purges := [(63, ⟨5, 0, some 1, 0⟩)] } }
def truncating : State :=
  let s := directory (room (holding { seq5 [(ptKey 0 0 0, 9)] 16 (2 ^ 16) with keyed := 1 } [(9, { page with def0 := def8 })])) []
  { s with pgt := { s.pgt with ops := [⟨1, 5, .truncate, 3, 8, truncTo 0, 0, .purging, none, [], 0, 0, none, [], none⟩] } }

theorem witness_PrefixDirectory_purge : twf purging.pdir.entries = true ∧ purging.fd Fd.PDIR_SCRUB_MS_MS ≠ 0 ∧
    purging.pdir.scrubAt + purging.fd Fd.PDIR_SCRUB_MS_MS * 100000 ≤ purging.mtime ∧
    purging.pdir.agedAt + purging.pdir.agePeriod * 100000 ≤ purging.mtime ∧ purging.quiet ∧
    (tfind purging.pdir.purges 63).bind (·.epoch) = some 1 ∧
    truncating.pgt.ops.map (fun o => (o.seq, o.kind, o.phase, o.point)) = [(5, .truncate, .purging, 0)] ∧ truncating.pgt.copies = [] ∧
    truncating.cust.held = [] ∧ truncating.tier.borrowed = [] ∧ truncating.alone ∧ truncating.sends 3 ∧
    (truncating.seq 5).map (fun q => (clsPrefix q.def1, q.keyed)) = some (true, 1) ∧ tfind truncating.pdir.purges 63 = none := by decide

/-! ## Streams -/

/-- A header of a query of latent rows of one element in B16, of one position and one head, with a MASK of 3. -/
def header (first : Nat) (qpos rest : Nat) : List Byte :=
  le 8 first ++ le 1 0 ++ le 1 (1 + 48) ++ le 2 1 ++ le 2 1 ++ le 1 3 ++ le 1 0 ++ le 4 qpos ++ le 4 0 ++ le 4 0x3F800000 ++ zeros 28 ++ le 8 9 ++
    zeros rest
def entry1 : List Byte := le 8 (5 * 2 ^ 16 + 1) ++ le 4 16777215 ++ le 2 1 ++ le 2 0
def query5 : List Byte := header (5 * 2 ^ 16 + 1) 16777215 2
def batch1 : List Byte := (header 1 0 0) ++ entry1 ++ zeros 2
def attending : State := sets four [(Fd.AE_GCTL_ENABLE, 1), (Fd.AE_PART_STREAMS_MAX 0, 1)]

theorem witness_QueryAdmission : attending.takes 3 (lat query5 0 8) 5 (seq5 [(ptKey 0 0 0, 9)] 4 0) ∧ headerBad query5 false = false ∧
    qAmode query5 ≠ 2 ∧ attending.shapeBad query5 0 def8 1 0 = false ∧ posOk (qMask query5) (lat query5 16 4) (lat query5 10 2) (lat query5 20 4) 4 = true ∧
    lat query5 16 4 + lat query5 10 2 = 16777216 ∧ qRkey query5 = 0 ∧ attending.contextRoom 0 1 = true ∧ attending.stream 65535 = none ∧
    attending.shapeBad (query5 ++ [0]) 0 def8 1 0 = true ∧ headerBad (query5 ++ [0]) false = false ∧
    headerBad (query5.take 63) false = true ∧ (on3 live).route (lat query5 0 8) = .bounds := by decide

theorem witness_QueryAdmission_batch :
    let e := slice batch1 (64 + if qBias batch1 then 4 * lat batch1 12 2 else 0) 16
    attending.takes 3 (lat e 0 8) 5 (seq5 [(ptKey 0 0 0, 9)] 4 0) ∧ headerBad batch1 true = false ∧ lat batch1 0 2 % 2 ^ 10 = 1 ∧ entryOk e = true ∧
    lat e 12 2 = lat batch1 10 2 ∧ qAmode batch1 ≠ 2 ∧ attending.shapeBad batch1 0 def8 1 16 = false ∧
    posOk (qMask batch1) (lat e 8 4) (lat e 12 2) (lat batch1 20 4) 4 = true ∧ lat e 8 4 + lat e 12 2 ≤ 16777216 ∧ qRkey batch1 = 0 ∧
    attending.contextRoom 0 1 = true := by decide

/-- A SUBQUERY of one unit at the end of an extent lent to node 2. -/
def sub1 : List Byte := header 7 0 0 ++ le 4 0xABCD1234 ++ le 4 16 ++ le 4 1 ++ le 1 1 ++ zeros 3 ++ le 4 2 ++ zeros 4 ++
  le 8 (def8 % 2 ^ 42) ++ le 8 (2 ^ 20 - 1) ++ zeros 4 ++ le 4 0 ++ zeros 2
def lender : State := { attending with tier := { attending.tier with lent := [(0, ⟨.active, 2, 0, 2 ^ 30, [], none, false, 3, false, none, false⟩)] } }

theorem witness_QueryAdmission_lender : let d0 := lat sub1 88 8 % 2 ^ 42
    96 ≤ sub1.length ∧ headerBad sub1 false = false ∧ lat sub1 76 1 < 2 ∧ lat sub1 77 3 = 0 ∧ lat sub1 80 4 = lender.peerOf 3 ∧
    lat sub1 80 4 < 2 ^ 20 ∧ lat sub1 84 4 = 0 ∧ lat sub1 88 8 < 2 ^ 48 ∧ lat sub1 68 4 < 2 ^ 25 ∧ lat sub1 72 4 = 1 ∧ qAmode sub1 = 1 ∧
    latent d0 = true ∧ classDefOk d0 (bits (lat sub1 88 8) 47 42 + 1) = true ∧
    sub1.length = 96 + 16 * 1 + rowsSize sub1 (rowWidths (qAmode sub1) d0 (lender.imgShape 0)).1 ∧
    (lender.lentAt (lender.peerOf 3) 0 (lat (slice sub1 96 16) 0 8 % 2 ^ 40) (frameUnits (frameCode d0))).isSome = true ∧
    lender.contextRoom 0 1 = true ∧ lender.creditsUsed ≤ lender.fd Fd.MRG_CREDIT_POOL_MAX ∧ lender.stream 0 = none := by decide

/-- Stream 6 of query `query5`, over two sealed units, in a state with both pages in HBM. -/
def unit (d pg : Nat) : PageUnit := ⟨⟨.hbm, 0, d⟩, d, pg, 0, .local_, 16, false, []⟩
def stream6 : Stream := { live.mkStream query5 5 (5 * 2 ^ 16 + 1) 0 3 8 32 def8 0 16777215 1 64 64 with scanned := [unit 9 0, unit 10 1] }
def item6 : WorkItem := WorkItem.fresh [unit 9 0, unit 10 1] false
def todo (i : Nat) : TodoUnit := ⟨i, false, 0, false, []⟩
def running6 : WorkItem := { item6 with istate := .running, engine := some 79, todo := some [todo 0, todo 1] }
def inAe (x : Stream) (f : Ae → Ae) : State :=
  let s := with_ [(Fd.AE_CTL_ENABLE 79, 1), (Fd.AE_CTL_PART_MASK 79, 1), (Fd.TWN_CLASS_LIMIT 3, 0), (Fd.TWN_XCHK_ENABLE, 0)]
  { s with pgt := parent.pgt, trl := (on3 live).trl, ae := f { s.ae with streams := [(6, x)] } }
def window : State := inAe { stream6 with workAt := some 0 } id
def stream6d : Stream := { stream6 with units := stream6.scanned, taken := 2, items := [item6], workAt := some 0 }
def dispatching : State := inAe stream6d fun a => { a with waiting := [(6, 0)] }
def engaged (wait : Bool) : State :=
  inAe { stream6 with units := stream6.scanned, taken := 2, items := [running6], workAt := some 0, cstate := .running } fun a =>
    { a with running := [(79, (6, 0))], lockWait := if wait then [(79, (9, 0))] else [] }
/-- Its wait has lasted 10 µs. -/
def waited : State := { engaged true with mtime := 1000 }

theorem witness_StreamsAtTheEngines : window.stream 6 = some { stream6 with workAt := some 0 } ∧ stream6.cstate = .dispatch ∧ stream6.items = [] ∧ stream6.subs = [] ∧
    stream6.scanned.length ≤ 65536 ∧ stream6.taken = 0 ∧ (∀ u ∈ stream6.scanned, u.kind = .local_ ∧ u.tadpole = false) ∧
    (∀ d ∈ [9, 10], (window.desc d).map (·.state) = some .sealed) ∧
    dispatching.item 6 0 = some item6 ∧ item6.istate = .waiting ∧ item6.saveAt = none ∧ (dispatching.stream 6).map (·.workAt.isSome) = some true ∧
    dispatching.ae.waiting = [(6, 0)] ∧ dispatching.chooseEngine 0 [] = some 0 ∧ tfind dispatching.ae.running 0 = none ∧
    dispatching.engineQueue 0 = [] ∧ dispatching.awake = true ∧ dispatching.flag Fd.TWN_XCHK_ENABLE = false := by decide

theorem witness_StreamsAtTheEngines_unit : tfind (engaged false).ae.running 79 = some (6, 0) ∧ (engaged false).item 6 0 = some running6 ∧
    running6.todo = some [todo 0, todo 1] ∧ running6.units[0]? = some (unit 9 0) ∧ (unit 9 0).kind = .local_ ∧ (unit 9 0).loc.tier = .hbm ∧
    running6.inBlock + 1 < 64 ∧ stream6.amode ≠ 2 ∧ ((engaged false).stream 6).map (·.cstate) = some .running ∧
    tfind (engaged false).ae.lockWait 79 = none ∧ (engaged false).awake = true ∧ ((engaged false).desc 9).map (·.state) = some .sealed ∧
    tfind (engaged true).ae.lockWait 79 = some (9, 0) ∧
    0 * 10 + (waited).fd Fd.AE_SPLIT_LOCK_WAIT_NS ≤ waited.mtime * 10 ∧ tfind waited.ae.lockWait 79 = some (9, 0) ∧ stream6.lockName (unit 10 1) ≠ 9 ∧ stream6.lender = none ∧ (unit 10 1).kind ≠ .deferred ∧
    (engaged false).fd (Fd.TWN_CLASS_LIMIT 3) = 0 ∧ (engaged false).engineQueue 79 = [] ∧
    (engaged false).flag (Fd.AE_STATUS_QUARANTINED 79) = false := by decide

/-- The stream is past its deadline; an ABORT of it. -/
def late : State := { dispatching with mtime := 10 ^ 12 }
def abort8 : List Byte := le 4 8 ++ zeros 4
def delivering : State :=
  let s := inAe { stream6 with cstate := .delivering } id
  { s with trl := { s.trl with ended := [(.result 6, stOK)] } }

theorem witness_StreamsEnd : late.stream 6 = some stream6d ∧ stream6d.lender = none ∧ stream6d.batch = none ∧ stream6d.byWr = none ∧
    stream6d.subs = [] ∧ (∀ it ∈ stream6d.items, it.istate ≠ .running) ∧ stream6d.cstate = .dispatch ∧ late.sends stream6d.conduit ∧
    stream6d.deadline ≤ late.usec ∧ stream6d.conduit = 3 ∧ stream6d.msgseq = 8 ∧
    abort8.length = 8 ∧ lat abort8 4 4 = 0 ∧ lat abort8 0 4 = 8 ∧ serialLt 32 8 9 = true ∧ twf late.ae.streams = true ∧
    late.ae.streams.map Prod.fst = [6] ∧ (on3 live).ae.streams = [] ∧ (on3 live).ae.batches = [] ∧ (on3 live).cust.held = [] ∧
    (delivering.stream 6).map (fun x => (x.cstate, x.batch, x.byWr)) = some (.delivering, none, none) ∧
    delivering.trl.ended.find? (fun e => e.1 == .result 6 || e.1 == .partialOf 6) = some (.result 6, stOK) := by decide

/-- Stream 6 waits for the answer of SUBQUERY 5 of generation 15; a record of row 0 waits for a merge unit. -/
def subQ : SubQuery := ⟨5, 15, 2, 3, [unit 9 0], true, false, none, [], false⟩
def awaitingSub : State := inAe { stream6 with units := stream6.scanned, taken := 2, items := [running6], subs := [subQ], cstate := .running } fun a =>
  { a with mergeQ := [⟨6, 0, ⟨0, 0, 0x3F800000, [0]⟩, none, false⟩] }
def block : List Byte := blockHeader (5 * 2 ^ 16 + 1) 6 5 15 1 1 0 1 ++ zeros 12
def granting : State := inAe { stream6 with lender := some ⟨2, 6, 5, 15, 0, true, false, false, 0, 0, 0, none, 1⟩ } id
def grant6 : List Byte := le 2 0x0101 ++ le 2 6 ++ le 2 (5 + 15 * 2 ^ 12) ++ zeros 2 ++ le 8 (5 * 2 ^ 16 + 1)

theorem witness_PartialsAreMerged : (∃ u < 4, (awaitingSub.ae.mergeQ.find? (fun m => awaitingSub.mergeUnit m.stream m.r.row == u)).isSome = true) ∧
    awaitingSub.ae.mergeQ.map (fun m => (m.stream, m.gen, m.sub)) = [(6, stream6.gen, none)] ∧ running6.istate ≠ .done ∧ (∀ m ∈ awaitingSub.ae.mergeQ, m.relay = false) ∧
    lat block 8 4 % 2 ^ 16 = 6 ∧ (awaitingSub.stream 6).map (fun x => (x.handle, x.cstate)) = some (lat block 0 8, .running) ∧
    [subQ].find? (fun y => y.sub == bits (lat block 8 4) 27 16 && y.gen == bits (lat block 8 4) 31 28 && !y.landed) = some subQ ∧
    blockGood stream6 block = true ∧ subQ.members = [] ∧ 0 < stream6.rowCount ∧ live.stream 6 = none ∧ twf live.ae.streams = true ∧
    lat grant6 0 2 = 0x0101 ∧ grant6.length = 16 ∧ (granting.stream 6).map (fun x => (x.handle, x.cstate)) = some (lat grant6 8 8, .dispatch) ∧
    granting.peerOf 3 = 2 ∧ lat grant6 2 2 = 6 ∧ lat grant6 4 2 % 2 ^ 12 = 5 ∧ lat grant6 4 2 / 2 ^ 12 = 15 ∧
    (∀ d ∈ granting.trl.conduits, ∀ m ∈ d.2.queue, m.hold = false) := by decide

/-! ## Images, leaps and lending -/

/-- Image 127 of one block of two F8A bytes, at 2^20 with its table at 2^13, whose block stands with these entry bytes. -/
def imaged (st : Nat) (entry : List Byte) : State :=
  let s := with_ [(Fd.WXP_CTL_XEN, 1), (Fd.WXP_IMG_SEL_PART, 15), (Fd.WXP_IMG_SEL_INDEX, 7), (Fd.WXP_IMG_SHAPE_W.at 127, 1),
    (Fd.WXP_IMG_SHAPE_VDIM.at 127, 1), (Fd.WXP_IMG_SHAPE_KDIM.at 127, 1), (Fd.WXP_IMG_BASE_ADDR.at 127, 2 ^ 20),
    (Fd.WXP_IMG_TABLE_ADDR.at 127, 2 ^ 13), (Fd.WXP_IMG_STATUS_STATE.at 127, st)]
  (s.hbmWrite (2 ^ 13) entry).hbmWrite (2 ^ 20) [0x38, 0xB8]
/-- The image charged to partition 15 as it is loaded; one of a reserved format. -/
theorem witness_ExpandedImages_load : ((imaged 0 []).leaveArea 127).underHard (127 / 8) 1
      ((((imaged 0 []).leaveArea 127).newArea ((imaged 0 []).imgShape 127)).foldl (fun n r => n + r.2 * 2048) 0) = true ∧
    (let s := sets (imaged 0 []) [(Fd.WXP_IMG_SHAPE_WFMT.at 127, 3)]
     (s.imgShape 127).wfmt = 3 ∧ (s.imgShape 127).ok = false ∧ s.flag Fd.WXP_CTL_XEN = true ∧ s.imgState 127 = 0) := by decide

def goodEntry (psn : Nat) : List Byte := le 2 2 ++ le 2 2 ++ le 1 0 ++ le 1 0 ++ le 1 psn ++ le 1 0 ++ le 4 (crc32c [0x38, 0xB8]) ++ zeros 4
def inWxp (s : State) (f : Wxp → Wxp) : State := { s with wxp := f s.wxp }

theorem witness_ExpandedImages : (imaged 0 []).imgSel = 127 ∧
    (imaged 0 []).flag Fd.WXP_CTL_XEN = true ∧ (imaged 0 []).imgState 127 = 0 ∧ ((imaged 0 []).imgShape 127).ok = true ∧
    ((imaged 0 []).imgShape 127).base % 4096 = 0 ∧ ((imaged 0 []).imgShape 127).table % 4096 = 0 ∧ (imaged 2 []).imgState 127 = 2 ∧
    bits 1 1 0 = 1 ∧ bits 2 1 0 = 2 ∧ bits 3 1 0 = 3 ∧ bits 3 63 32 < ((imaged 2 []).imgShape 127).blocks ∧ bits (2 ^ 63) 63 63 = 1 ∧
    (imaged 1 []).wxp.copy = none ∧ (∃ l < 8, (imaged 1 []).laneFree l = true) := by decide

/-- The image is LOADING, or its block is being restored. -/
def loading (entry : List Byte) : State := inWxp (imaged 1 entry) fun w => { w with loads := [127], restores := [(127, 0)], unloads := [(126, 0)] }
def checked (entry : List Byte) (ue tue psnOk : Bool) : Nat :=
  ((loading entry).checkBlock ((loading entry).imgShape 127) 0 ue tue psnOk true).1

theorem witness_ExpandedImages_check : 127 ∈ (loading (goodEntry 0)).wxp.loads ∧ (loading (goodEntry 0)).awake = true ∧
    ((loading (goodEntry 0)).imgShape 127).blocks = 1 ∧ checked (goodEntry 0) false false false = stOK ∧
    checked (goodEntry 1) false false false = stPOISONED ∧ checked (goodEntry 1) false false true = stOK ∧
    checked [] false false false = stFORMAT ∧ checked (goodEntry 0) true false true = stPOISONED ∧
    checked (goodEntry 0) false true false = stPOISONED ∧ ((loading []).imgShape 127).table + 16 * 0 + 6 < hbmBytes ∧
    tfind (loading []).wxp.restores 127 = some 0 ∧ tfind (loading []).wxp.unloads 126 = some 0 ∧ (loading []).epochClear 0 = true ∧
    { loading [] with pgt := { (loading []).pgt with seqs := [(5, { seq5 [] 0 0 with thawEpoch := some 0 })] } }.epochClear 0 = false := by decide

/-- Stream 6 expands through image 0, whose tile needs its one block; lane 7 decodes it, or a copy runs. -/
def item6x : WorkItem := { item6 with istate := .running, engine := some 79 }
def stream6x : Stream := { stream6 with byte9 := 2, items := [item6x], cstate := .running, units := stream6.scanned, taken := 2 }
def tile0 : TileReq := ⟨0, 0, 6, 0, 0, 0, []⟩
def expanding (entry : List Byte) (lane : Bool) : State :=
  let s := sets (inAe stream6x id) [(Fd.WXP_IMG_SHAPE_W, 1), (Fd.WXP_IMG_SHAPE_VDIM, 1), (Fd.WXP_IMG_SHAPE_KDIM, 1),
    (Fd.WXP_IMG_BASE_ADDR, 2 ^ 20), (Fd.WXP_IMG_TABLE_ADDR, 2 ^ 13)]
  inWxp ((s.hbmWrite (2 ^ 13) entry).hbmWrite (2 ^ 20) [0x38, 0xB8]) fun w =>
    { w with reqs := if lane then [tile0] else [], lanes := if lane then [(7, (tile0, 0))] else [] }
def copying : State := inWxp (with_ [(Fd.TWN_CLASS_LIMIT 1, 0)]) fun w => { w with copy := some (0, hbmBytes - 128, 128) }

theorem witness_ExpandedImages_tile : (expanding [] false).stream 6 = some stream6x ∧ stream6x.expanded = true ∧ stream6x.cstate ≠ .aborting ∧
    (stream6x.items.zipIdx).find? (fun y => y.1.needsSlices) = some (item6x, 0) ∧ stream6x.tileBlocks (expanding [] false) item6x ≠ [] ∧
    (expanding [] false).wxp.reqs = [] ∧ (expanding [] false).wxp.lanes = [] ∧ (expanding [] false).fd Fd.WXP_STATUS_COPYING = 0 ∧
    (expanding [] false).awake = true ∧
    tfind (expanding [] true).wxp.lanes 7 = some (tile0, 0) ∧ stream6x.gen = tile0.gen ∧
    ((expanding (goodEntry 0) true).checkBlock (stream6x.imgOf (expanding (goodEntry 0) true)) 0 false false false false).1 = stOK ∧
    ((expanding (goodEntry 1) true).checkBlock (stream6x.imgOf (expanding (goodEntry 1) true)) 0 false false false false).1 = stPOISONED ∧
    stream6x.lender = none ∧ stream6x.batch = none ∧ stream6x.byWr = none ∧ stream6x.subs = [] ∧ item6x.istate = .running ∧
    (expanding [] true).sends stream6x.conduit ∧ (expanding [] true).quiet ∧ (∀ q ∈ (expanding [] true).wxp.reqs, q.todo = []) ∧
    (stream6x.imgOf (expanding [] true)).table + 16 * 0 + 6 < hbmBytes ∧
    copying.wxp.copy = some (0, hbmBytes - 128, 128) ∧ hbmBytes - 128 + 128 = hbmBytes ∧ copying.awake = true ∧ copying.mbRoom 3 = false ∧
    copying.fd (Fd.TWN_CLASS_LIMIT 1) = 0 := by decide

theorem room_of (used : Tbl Nat) (lo hi n al hint c : Nat)
    (hc : c ∈ ceilDiv lo al * al :: used.map (fun p => ceilDiv (p.1 + p.2) al * al))
    (h : (decide (lo ≤ c) && decide (c + n ≤ hi) && used.all fun p => decide (p.1 + p.2 ≤ c) || decide (c + n ≤ p.1)) = true) :
    (roomAt used lo hi n al hint).isSome = true := by
  unfold roomAt
  simp only [List.find?_isSome]
  exact ⟨c, List.mem_append_right _ hc, h⟩

/-- Page 9 in HBM, with some heat; leaps, faults and the like. -/
def page9 : Desc := { page with loc := ⟨.hbm, 0, 3⟩, def0 := def8, heat := 255, crc := BitVec.ofNat 32 (crc32c (zeros 16)) }
def tiered (x : Desc) (f : TierBlock → TierBlock) : State :=
  let s := with_ [(Fd.TIER_CTL_ENABLE, 1)]
  { s with mtime := 10 ^ 10, pgt := { s.pgt with descs := [(9, x)] }, tier := f s.tier }
def leap9 (bad : Bool) : Leap := ⟨9, page9.loc, .pcache, some ⟨.pcache, 0, 98302⟩, 0, false, some (zeros 16), bad, none, false, none, 0⟩

theorem witness_LeapsFaultsAndSweeps_sweep : (tiered page9 id).tier.sweepOut = [] ∧ (tiered page9 id).hb.jobs = [] ∧
    (tiered page9 id).tier.sweepAt + (tiered page9 id).tier.decay * 100000 ≤ (tiered page9 id).mtime ∧
    (tiered page9 fun t => { t with sweeping := true }).tier.sweepLeft = [] ∧ (tiered page9 id).twn.hot = [] ∧
    page9.movable .pcache = false ∧ { page9 with loc := ⟨.pcache, 0, 3⟩ }.movable .pcache = true := by decide

/-- The first piece of the descriptor pool has room for its output in its channel. -/
def pooled : State := { live with pgt := { live.pgt with chunks := [8388608 + 2 ^ 13] } }

theorem witness_LeapsFaultsAndSweeps_room :
    (pooled.takeHbmRaw 8 8 (fun c => c == chanOf (pooled.pieceAddr 0))).isSome = true := by
  rw [State.takeHbmRaw, Option.isSome_map, Option.isSome_or]
  exact Bool.or_eq_true_iff.mpr (.inl (findHbm_of_start pooled 8 8 8388608 _ (by decide) (.inl (by decide)) (by decide) (by decide) (by decide)))

theorem witness_LeapsFaultsAndSweeps_begin : (tiered page9 id).desc 9 = some page9 ∧ (tiered page9 id).quiet ∧ (tiered page9 id).leap 9 = none ∧
    (tiered page9 id).flag Fd.TIER_CTL_ENABLE = true ∧ page9.state = .sealed ∧ page9.pinned = false ∧ page9.refcnt ≠ 0 ∧ page9.ofTwin = false ∧
    page9.loc.tier = .hbm ∧ (9, Tier.pcache) ∈ (tiered page9 fun t => { t with due := [(9, .pcache)] }).tier.due ∧ (tiered page9 id).softOk page9 .pcache = true ∧
    (tiered page9 id).underHard page9.part 0 (chargeOf .pcache page9.def0) = true ∧ (tiered page9 id).awake = true ∧
    ((tiered page9 id).takePc (frameUnits page9.frameCode) false).isSome = true ∧
    (tiered { page9 with state := .inLeap } id).desc 9 = some { page9 with state := .inLeap } ∧
    (tiered { page9 with pinned := true } id).desc 9 = some { page9 with pinned := true } := by
  refine ⟨by decide, by decide, by decide, by decide, by decide, by decide, by decide, by decide, by decide, by decide, by decide, by decide,
    by decide, ?_, by decide, by decide⟩
  unfold State.takePc
  rw [if_pos (by decide)]
  simp only [Option.isSome_map]
  exact room_of _ _ _ _ _ _ 20480 (by decide) (by decide)

def leaping (x : Desc) : State := tiered { x with state := .inLeap } fun t => { t with leaps := [leap9 false] }

theorem witness_LeapsFaultsAndSweeps_pool : (leaping page9).poolUnit.isSome = true := pool_unit _ (by decide)

theorem witness_LeapsFaultsAndSweeps_commit : (leaping page9).leap 9 = some (leap9 false) ∧ (leap9 false).content = some (zeros 16) ∧
    (leap9 false).src.tier = .hbm ∧ 98302 * 2048 + (zeros 16).length ≤ pcacheBytes ∧ (leaping page9).quiet ∧
    crc32c (zeros 16) = page9.crc.toNat ∧ crc32c (zeros 16) ≠ ({ page9 with crc := 0 } : Desc).crc.toNat ∧
    (leaping { page9 with crc := 0 }).alone ∧ (leaping { page9 with crc := 0 }).ae.streams = [] ∧
    ((leaping { page9 with refcnt := 0 }).desc 9).map (·.refcnt) = some 0 := by decide

/-- PIN of sequence 5 of `parent`, or of an unknown handle, or while one runs. -/
def pinning (h busy : Nat) : State := sets parent [(Fd.TIER_PIN_HANDLE_HANDLE, h), (Fd.TIER_PIN_CTL_BUSY, busy)]

theorem witness_LeapsFaultsAndSweeps_pin : (pinning 0 1).flag Fd.TIER_PIN_CTL_BUSY = true ∧ (pinning 0 0).flag Fd.TIER_PIN_CTL_BUSY = false ∧
    (pinning 0 0).pinSeq = none ∧ (pinning (5 * 2 ^ 16 + 1) 0).pinSeq = some 5 ∧
    ((pinning (5 * 2 ^ 16 + 1) 0).seq 5).map (·.sstate) = some .active ∧ (pinning (5 * 2 ^ 16 + 1) 0).quiet ∧
    (pinning (5 * 2 ^ 16 + 1) 0).admits = true ∧ (pinning (5 * 2 ^ 16 + 1) 0).pinAwaits 5 = false ∧
    (pinning (5 * 2 ^ 16 + 1) 0).underHard (hPart (5 * 2 ^ 16 + 1)) 1 0 = true := by decide

/-- A fault of page 9, in flash, not issued, with room to land or none; issued, of a LENT page, and answered. -/
def fault9 (l : Loc) (issued : Bool) : PageFault :=
  ⟨9, l, issued, if issued then some 98302 else none, [.item 6], if issued then some (stOK, zeros 16) else none, 0⟩
def flashed : Desc := { page9 with loc := ⟨.flash, 0, 32⟩, heat := 0 }
def lentAway : Desc := { page9 with loc := ⟨.lent, 2, 32⟩, heat := 0 }
def faulting (land : Nat) : State := sets (tiered flashed fun t => { t with faults := [fault9 flashed.loc false] }) [(Fd.TIER_FAULT_LAND_MIB, land)]
def parked6 : WorkItem := { item6 with istate := .parked, units := [{ unit 9 0 with kind := .deferred }] }
def landing : State :=
  { tiered lentAway fun t => { t with faults := [fault9 lentAway.loc true], landing := [98302] } with
    ae := { live.ae with streams := [(6, { stream6 with items := [parked6] })] } }

theorem witness_LeapsFaultsAndSweeps_landing : landing.poolUnit.isSome = true := pool_unit _ (by decide)

theorem witness_LeapsFaultsAndSweeps_near : let s := tiered page9 fun t => { t with faults := [fault9 page9.loc false] }
    s.tier.faults.find? (fun f => !f.issued && s.faultRoom f) = some (fault9 page9.loc false) ∧ s.desc 9 = some page9 ∧ page9.loc.tier = .hbm := by decide

theorem witness_LeapsFaultsAndSweeps_fault : flashed.loc.tier = .flash ∧ (faulting 1).tier.faults.find? (fun f => !f.issued && (faulting 1).faultRoom f) = some (fault9 flashed.loc false) ∧
    (faulting 0).tier.faults.find? (fun f => !f.issued && (faulting 0).faultRoom f) = some (fault9 flashed.loc false) ∧
    (faulting 1).desc 9 = some flashed ∧ (faulting 1).leap 9 = none ∧ ((faulting 1).takePc (frameUnits flashed.frameCode) true).isSome = true ∧
    (faulting 0).takePc (frameUnits flashed.frameCode) true = none ∧
    landing.tier.faults.find? (fun f => f.desc == 9 && f.issued) = some (fault9 lentAway.loc true) ∧ landing.desc 9 = some lentAway ∧
    (fault9 lentAway.loc true).answer = some (stOK, zeros 16) ∧ crc32c (zeros 16) = lentAway.crc.toNat ∧
    lentAway.heat < landing.fd Fd.TIER_POLICY_PROMOTE_FAULT ∧ landing.leap 9 = none ∧ landing.quiet ∧ landing.cust.transfers = [] ∧
    twf landing.ae.streams = true ∧ landing.item 6 0 = some parked6 := by
  refine ⟨by decide, by decide, by decide, by decide, by decide, ?_, by decide, by decide, by decide, by decide, by decide, by decide, by decide,
    by decide, by decide, by decide, by decide⟩
  unfold State.takePc
  rw [if_pos (by decide)]
  simp only [Option.isSome_map]
  exact room_of _ _ _ _ _ _ 20480 (by decide) (by decide)

/-- An assembly buffer of partition 15 with one page, young or old, and area 2 with one unit. -/
def packing (at_ : Nat) : State :=
  let s := sets (tiered page9 fun t => { t with assemblies := [⟨true, 15, [(9, 0)], 1, at_⟩], pcDirty := [(5, 80)] })
    [(Fd.FLT_AREA_BASE 2, 7), (Fd.FLT_AREA_SIZE 2, 1), (Fd.FLT_LOGICAL_UNITS, 8), (Fd.FLT_STATUS_STATE, 4), (Fd.FLT_CTL_ENABLE, 1)]
  { s with sec := { s.sec with xts := [(15, [])] } }

theorem witness_LeapsFaultsAndSweeps_program : (packing (10 ^ 10)).assembly true 15 = some ⟨true, 15, [(9, 0)], 1, 10 ^ 10⟩ ∧
    (packing (10 ^ 10)).mtime < 10 ^ 10 + 100000 ∧ (packing 0).assembly true 15 = some ⟨true, 15, [(9, 0)], 1, 0⟩ ∧ 0 + 100000 ≤ (packing 0).mtime ∧
    (packing 0).flt.writes = [] ∧ (packing 0).xtsKey 15 ≠ none ∧ ((packing 0).fltAlloc 2).isSome = true ∧
    ((packing 0).tier.pcDirty.any fun x => x.1 == 5) = true ∧ ((packing 0).tier.pcDirty.any fun x => x.1 == 4) = false := by
  refine ⟨by decide, by decide, by decide, by decide, by decide, by decide, ?_, by decide, by decide⟩
  rw [State.fltAlloc, if_pos (by decide), State.freeUnit]
  have h : (packing 0).area 2 = (7, 1) := by decide
  simp only [h, Nat.max_self, Nat.mod_one]
  rfl

/-- Peer 15 is node 2, to lend to and to borrow from; extents lent and borrowed. -/
def lendingOf (f : TierBlock → TierBlock) : State :=
  let s := sets (on3 live) [(Fd.TIER_CTL_LEND, 1), (Fd.TIER_CTL_BORROW, 1), (Fd.TIER_PEER_NODE 15, 2), (Fd.TIER_PEER_LEND_TO 15, 1),
    (Fd.TIER_PEER_BORROW_FROM 15, 1), (Fd.TIER_PEER_PART_MASK 15, 1), (Fd.TIER_LEND_CTL_MAX_GIB, 1), (Fd.TIER_QUOTA_HARD_MIB 0 2, 0xFFFFFFFF)]
  { s with mtime := 10 ^ 8, tier := f s.tier }
def extent (st : ExtState) (frames : Tbl Nat) (deadline lost : Option Nat) : Extent := ⟨st, 2, 0, 2 ^ 30, frames, deadline, false, 3, false, lost, false⟩
def lentOne (x : Extent) : State := lendingOf fun t => { t with lent := [(511, x)] }

theorem witness_LendingAndBorrowing_offer : let s := lendingOf id
    s.flag Fd.TIER_CTL_LEND = true ∧ ((List.range 16).map (fun j => (s.tier.lendTurn + j) % 16)).find? (fun j => s.flag (Fd.TIER_PEER_LEND_TO j)) = some 15 ∧
    s.tier.lent = [] ∧ (s.fd Fd.TIER_LEND_CTL_RESERVE_GIB + 1) * 2 ^ 30 ≤ s.freeTier2 ∧ s.lentOut < s.fd Fd.TIER_LEND_CTL_MAX_GIB ∧
    s.freeExtent.isSome = true ∧ (List.range 512).find? (fun e => (s.lentX e).isNone) = some 0 ∧ s.conduitToNode 2 = some 3 ∧ s.sends 3 ∧
    live.flag Fd.TIER_CTL_LEND = false := by decide

def starved (x : Extent) : State := sets (lentOne x) [(Fd.TIER_WATER_LOW_MIB, 507904)]

theorem witness_LendingAndBorrowing_lender : (lentOne (extent .recalling [] (some 5) none)).lentX 511 = some (extent .recalling [] (some 5) none) ∧
    5 ≤ (lentOne (extent .recalling [] (some 5) none)).usec ∧ (lentOne (extent .active [] none (some 0))).epochClear 0 = true ∧
    (extent .active [] none (some 0)).lostEpoch = some 0 ∧ (extent .active [(2 ^ 19 + 2 ^ 19 - 1, 1)] none (some 0)).frames ≠ [] ∧
    twf (extent .active [(2 ^ 19 + 2 ^ 19 - 1, 1)] none (some 0)).frames = true ∧ (lentOne (extent .active [] none none)).hb.jobs = [] ∧
    { lentOne (extent .active [] none none) with pgt := { live.pgt with seqs := [(5, { seq5 [] 0 0 with thawEpoch := some 0 })] } }.epochClear 0 = false ∧
    bits 511 9 9 = 0 ∧ bits 511 8 0 = 511 ∧ bits (512 + 511) 9 9 = 1 ∧ (lentOne (extent .active [] none none)).tier.borrowed[511]? = none ∧
    (starved (extent .active [] none none)).fd Fd.TIER_WATER_LOW_MIB * 2 ^ 20 > (starved (extent .active [] none none)).freeTier2 ∧
    twf (starved (extent .active [] none none)).tier.lent = true ∧
    (starved (extent .active [] none none)).conduitTo 2 0 = some 3 := by decide

def offer1 : List Byte := lendPayload 1 0 511 0 (2 ^ 30) 0 false []
def storeX : List Byte := leapHeader 1 511 0 0 64 (crc32c (zeros 64)) 0 false ++ zeros 64
def answerX : List Byte := leapHeader 9 0 0 0 16 (crc32c (zeros 16)) 0 true ++ zeros 16
def pullX (f : Nat) : List Byte := leapHeader 9 511 0 0 2048 0 f false
def pulling : State := { lentOne (extent .active [] none none) with
  pgt := { live.pgt with descs := [(9, lentAway)] }
  tier := { (lentOne (extent .active [] none none)).tier with leaps := [{ leap9 false with dst := .hbm, content := none, src := lentAway.loc }] } }

theorem witness_LendingAndBorrowing_borrower : let s := lendingOf id
    lendOk offer1 = true ∧ ltype offer1 = 1 ∧ lat offer1 1 1 < 16 ∧ s.peerEntry (s.peerOf 3) = some 15 ∧ s.neediest (s.borrowParts 15) = some 0 ∧
    s.flag Fd.TIER_CTL_BORROW = true ∧ s.tier.borrowed.length < 512 ∧ lat offer1 8 8 % 2 ^ 30 = 0 ∧
    (on3 live).peerEntry ((on3 live).peerOf 3) = none ∧ lendOk [] = false ∧ s.sends 3 ∧ s.quiet := by decide

theorem witness_LendingAndBorrowing_pages : let s := lentOne (extent .active [] none none)
    lat storeX 11 1 < 6 ∧ lat storeX 8 2 = 511 ∧ lat storeX 10 1 = s.partOf 3 ∧ storeX.length = 32 + lat storeX 12 4 ∧ lat storeX 20 4 = 0 ∧
    lat storeX 24 8 = 0 ∧ lat storeX 12 4 ≤ frameUnits (lat storeX 11 1) * 2048 ∧
    s.storeAt (s.peerOf 3) (lat storeX 10 1) (lat storeX 8 2) (frameUnits (lat storeX 11 1)) = (stOK, some 524288) ∧
    524288 * 2048 + lat storeX 12 4 ≤ hbmBytes ∧ (pullX (2 ^ 20 - 1)).length = 32 ∧ lat (pullX (2 ^ 20 - 1)) 24 8 = 2 ^ 20 - 1 ∧
    s.lockedAt ((2 ^ 20 - 1) * 2048) 2048 = false ∧ (s.lentAt (s.peerOf 3) 0 (2 ^ 20 - 1) (frameUnits 0)).isSome = true ∧ (s.lentAt (s.peerOf 3) 0 (2 ^ 20) (frameUnits 0)).isSome = false := by decide

theorem witness_LendingAndBorrowing_crc : crc32c (storeX.drop 32) = lat storeX 16 4 := by decide +kernel

theorem witness_LendingAndBorrowing_answer : lat answerX 11 1 / 8 % 2 = 1 ∧ lat answerX 0 8 = 9 ∧
    (pulling.leap 9).map (fun l => (l.content, l.bad, l.dst)) = some (none, false, .hbm) ∧ pulling.desc 9 = some lentAway ∧
    pulling.tier.faults = [] ∧ answerX.length = 32 + lat answerX 12 4 ∧ crc32c (answerX.drop 32) = lat answerX 16 4 := by decide

/-- Borrowed extent 511 of node 2, with a page in it or none. -/
def borrowing (ds : Tbl Desc) : State :=
  let s := lendingOf fun t => { t with borrowed := [(borrowKey 2 511, extent .active [] none none)] }
  { s with pgt := { s.pgt with descs := ds } }
def inExtent : Desc := { lentAway with loc := ⟨.lent, 2, 2 ^ 20 - 1⟩ }
def lendMsg (t n : Nat) (frames : List Nat) : List Byte := lendPayload t 0 511 n 0 (if t = 2 then 5 else 0) false frames
def on4 (s : State) : State := { s with trl := { s.trl with conduits := s.trl.conduits ++ [(4, { open_ with peerNode := 6 })] } }

theorem witness_LendingAndBorrowing_messages : (∀ t ∈ [2, 3], lendOk (lendMsg t 0 []) = true ∧ ltype (lendMsg t 0 []) = t) ∧
    lendOk (lendMsg 4 0 [2 ^ 20 - 1, 7]) = true ∧ ltype (lendMsg 4 0 [2 ^ 20 - 1, 7]) = 4 ∧ lat (lendMsg 4 0 [2 ^ 20 - 1, 7]) 18 2 = 2 ∧
    lext (lendMsg 4 0 [2 ^ 20 - 1, 7]) = 511 ∧ lat (lendMsg 4 0 [2 ^ 20 - 1, 7]) 32 8 = 2 ^ 20 - 1 ∧
    (tfind (extent .active [(2 ^ 20 - 1, 1)] none none).frames (2 ^ 20 - 1)).isSome = true ∧
    (extent .active [] none none).node = (lendingOf id).peerOf 3 ∧ borrowKey ((lendingOf id).peerOf 3) (lext (lendMsg 2 0 [])) = borrowKey 2 511 ∧
    (borrowing [(9, inExtent)]).pgt.descs = [(9, inExtent)] ∧ inExtent.loc.node = 2 ∧ 2 ^ 30 ≤ inExtent.loc.frame * 2048 ∧
    inExtent.loc.frame * 2048 < 2 ^ 30 + 2 ^ 30 ∧ (borrowing []).tier.leaps = [] ∧ (borrowing []).pushOpen (borrowKey 2 511) = false ∧ (borrowing []).pgt.reclaim = [] ∧ (borrowing []).conduitTo 2 0 = some 3 ∧
    lendOk (lendMsg 5 6 []) = true ∧ ltype (lendMsg 5 6 []) = 5 ∧ lpart (lendMsg 5 6 []) = 0 ∧
    (on4 (lendingOf id)).conduitToNode (lat (lendMsg 5 6 []) 4 4) = some 4 ∧ (on4 (lendingOf id)).sends 4 := by decide

/-! ## Flash -/

/-- A flash tier in some state, of one LUN of 40 blocks of 1,024 pages, SYS at 0 to 3 and TIER at 4 to 7. -/
def flash (st : Nat) (f : Flt → Flt) : State :=
  let s := with_ [(Fd.FLT_STATUS_STATE, st), (Fd.FLT_CTL_ENABLE, if st = 4 then 1 else 0), (Fd.FLT_GEOM_BLOCKS, 40), (Fd.FLT_GEOM_PAGES, 1024),
    (Fd.FLT_AREA_SIZE 0, 4), (Fd.FLT_AREA_BASE 1, 4), (Fd.FLT_AREA_SIZE 1, 4), (Fd.FLT_LOGICAL_UNITS, 8)]
  { s with mtime := 10 ^ 10, sec := { s.sec with xts := [(1, [1]), (16, [16])] }, flt := f s.flt }
def anchored (f : Flt) : Flt := { f with anchor := [7], jtail := [[(0, .trim 3 1)], [(1, .none)]] }

theorem witness_FlashControl : bits 0xA521 5 5 = 1 ∧ bits 0xA521 15 8 = 0xA5 ∧ (flash 1 id).fd Fd.FLT_STATUS_STATE = 1 ∧ bits 0xA521 1 1 = 0 ∧
    bits 0x21 15 8 ≠ 0xA5 ∧ bits 2 1 1 = 1 ∧ bits 2 5 5 = 0 ∧ bits 1 0 0 = 1 ∧ bits 1 1 1 = 0 ∧
    (flash 2 anchored).fd Fd.FLT_STATUS_STATE = 2 ∧ (flash 2 anchored).flt.anchor ≠ [] ∧ 1 < (flash 2 anchored).flt.jtail.length ∧
    (flash 2 id).flt.anchor = [] ∧ bits (lat (flash 2 id).glb.geom 3 1) 0 0 = 0 ∧
    (let s := { flash 2 id with glb := { live.glb with geom := zeros 3 ++ [1] ++ zeros 4 } }; bits (lat s.glb.geom 3 1) 0 0 = 1) ∧
    (flash 1 id).flt.tempAt + 100000000 ≤ (flash 1 id).mtime := by decide

/-- Unit 3 of SYS stands at PUA 0, in the closed superblock 1; unit 2 of SYS is ALLOCATED, its write has place PUA 15. -/
def punit (sb : Nat) : Machine.PUnit := ⟨3, sb, 0, 16, [16], [1]⟩
def superb (st : SbState) (strm filled : Nat) : SuperBlock := ⟨st, false, strm, filled, [], [], 0, true⟩
def write2 (use : FltUse) (old : Option Nat) : FltWrite := ⟨2, 5, 16, [16], [2], use, 0, some 15, 0, old⟩
def stored (st : Nat) (ws : List FltWrite) (done : Nat) : State := flash st fun f => { f with
  map := [(2, ⟨if (ws.map (·.old)) == [some 0] then .at_ 0 else .allocated, 0⟩), (3, ⟨.at_ 0, 32⟩)]
  phys := [(0, punit 1), (15, { punit 2 with lunit := 2 })]
  sbs := [(1, superb .closed 2 15), (2, superb .closed 0 1)], writes := ws, jdone := done }
def cmd (l busy addr : Nat) (s : State) : State := sets s [(Fd.FLT_CMD_LUNIT_LUNIT, l), (Fd.FLT_CMD_BUSY, busy), (Fd.FLT_CMD_ADDR_ADDR, addr)]

theorem witness_FlashControl_cmd : (∀ n ∈ [1, 2, 3, 4], bits n 2 0 = n) ∧ (cmd 1 1 0 (flash 3 id)).flag Fd.FLT_CMD_BUSY = true ∧
    (cmd 1 0 0 (flash 1 id)).flag Fd.FLT_CMD_BUSY = false ∧ (cmd 1 0 0 (flash 1 id)).fltUp = false ∧ (cmd 1 0 0 (flash 3 id)).fltUp = true ∧
    (cmd 7 0 (hbmBytes - 65536) (flash 3 id)).lunit 7 = none ∧ 7 < (cmd 7 0 (hbmBytes - 65536) (flash 3 id)).fd Fd.FLT_LOGICAL_UNITS ∧
    (cmd 7 0 (hbmBytes - 65536) (flash 3 id)).fd Fd.FLT_CMD_ADDR_ADDR + 65536 = hbmBytes ∧
    (cmd 3 0 0 (stored 3 [] 0)).readAt 3 = .inr (0, punit 1) ∧
    (cmd 0 0 0 (flash 3 id)).areaOf 0 = some 0 ∧ (cmd 0 0 0 (flash 3 id)).xtsKey 16 ≠ none ∧ (cmd 0 0 0 (flash 3 id)).flt.writes = [] ∧
    (cmd 5 0 0 (flash 3 id)).areaOf 5 ≠ some 0 ∧ 5 % 4 ≠ 0 ∧ (flash 3 id).fd Fd.FLT_STATUS_STATE = 3 := by decide

theorem witness_FlashUnits : (flash 4 id).fltUser (some 1) = true ∧ State.fltAllocN 9 2 (flash 4 id) = none ∧
    ((State.fltAllocN 1 1 { flash 4 id with csr := (sets (flash 4 id) [(Fd.FLT_AREA_SIZE 1, 1)]).csr }).isSome = true) := by
  refine ⟨by decide, ?_, ?_⟩
  · have h : (flash 4 id).area 2 = (0, 0) := by decide
    simp only [State.fltAllocN, State.fltAlloc, State.freeUnit, h]
    rw [if_pos (by decide)]
    have hf : ∀ l : List Nat, l.find? (fun l => decide (0 ≤ l) && decide (l < 0 + 0) && decide (l < (flash 4 id).fd Fd.FLT_LOGICAL_UNITS) &&
        ((flash 4 id).lunit l).isNone) = none := by
      intro l; simp [List.find?_eq_none]
    rw [hf]; rfl
  · simp only [State.fltAllocN, State.fltAlloc, State.freeUnit]
    have h : ({ flash 4 id with csr := (sets (flash 4 id) [(Fd.FLT_AREA_SIZE 1, 1)]).csr } : State).area 1 = (4, 1) := by decide
    rw [if_pos (by decide)]
    simp only [h, Nat.max_self, Nat.mod_one]
    rfl

theorem witness_FlashUnits_user : (stored 4 [] 0).fltUser ((stored 4 [] 0).areaOf 2) = true ∧ (stored 4 [] 0).lunit 2 = some ⟨.allocated, 0⟩ ∧
    (stored 4 [] 0).xtsKey 16 = some [16] ∧ (stored 4 [] 0).lunit 1 = none ∧ (stored 4 [] 0).areaOf 1 = some 0 ∧
    2 + 6 ≤ (stored 4 [] 0).fd Fd.FLT_LOGICAL_UNITS ∧ (stored 4 [] 0).lunit 3 = some ⟨.at_ 0, 32⟩ ∧
    (let s := { stored 4 [] 0 with flt := { (stored 4 [] 0).flt with reads := [⟨3, false, none⟩] } }
     s.readAt 3 = .inr (0, punit 1) ∧ s.flt.stopped = false ∧ s.awake = true ∧ s.flt.lunFail.contains (puaLun 0) = false) := by decide

/-- The map leads to unit 3 where unit 2 should be. -/
theorem witness_FlashUnits_mismatch : (punit 1).lunit = 3 ∧ (tfind (stored 4 [] 0).flt.failsRow (puaLun 0)).getD 0 < 3 ∧
    (let s := { stored 4 [] 0 with flt := { (stored 4 [] 0).flt with map := [(2, ⟨.at_ 0, 0⟩)], reads := [⟨2, false, none⟩] } }
     s.readAt 2 = .inr (0, punit 1) ∧ (punit 1).lunit ≠ 2) := by decide

/-- The blocks of a superblock lie apart. -/
theorem witness_FlashUnits_blocks : let s := flash 4 fun f => { f with sbs := [(3, superb .erasing 4 0)] }
    ((s.sb 3).members.map fun c => s.blockAt (s.sb 3) 3 c / 2 ^ 10).Nodup := by decide

theorem witness_FlashUnits_commit : let s := stored 4 [write2 .user none] 1
    let t := stored 4 [write2 .move (some 0)] 1
    let u := stored 4 [write2 .user none] 0
    s.flt.writes.find? (fun w => w.lunit == 2 && s.canCommit w) = some (write2 .user none) ∧ s.lunit 2 = some ⟨.allocated, 0⟩ ∧
    t.flt.writes.find? (fun w => w.lunit == 2 && t.canCommit w) = some (write2 .move (some 0)) ∧ t.lunit 2 = some ⟨.at_ 0, 0⟩ ∧
    u.flt.writes.find? (fun w => w.lunit == 2 && w.pua.isSome && !u.canCommit w) = some (write2 .user none) ∧
    tfind u.flt.phys 15 = some { punit 2 with lunit := 2 } ∧ twf u.flt.sbs = true := by decide

/-- A journal unit is open; superblock 2 of stream 0 holds one unit of a wordline; a write waits for a superblock. -/
def journaling : State := flash 4 fun f => { f with
  jopen := [(0, .none)], sbs := [(2, superb .open_ 0 1)], writes := [write2 .user none], phys := [(15, { punit 2 with lunit := 2 })] }
def unplaced (blocks : Nat) : State := sets (flash 4 fun f => { f with writes := [{ write2 .user none with pua := none, strm := 4 }] })
  [(Fd.FLT_GEOM_BLOCKS, blocks)]

theorem witness_FlashUnits_device : journaling.fltUp = true ∧ journaling.awake = true ∧ journaling.flt.jopen.length = 1 ∧ journaling.flt.ckpts = [] ∧
    journaling.flt.jopenAt + max 1 (journaling.fd Fd.FLT_JRNL_COMMIT_US) * 100 ≤ journaling.mtime ∧
    (tfind journaling.flt.strmAt 0).getD 0 + max 1 (journaling.fd Fd.FLT_JRNL_COMMIT_US) * 10000 ≤ journaling.mtime ∧
    journaling.openSb 0 = some 2 ∧ (journaling.sb 2).slc = false ∧ (journaling.sb 2).filled ≠ 0 ∧
    (journaling.sb 2).width * journaling.cellBits ≠ 0 ∧ journaling.programmed (write2 .user none) = false ∧
    (stored 4 [] 0).victim 1 = true ∧ (stored 4 [] 0).flt.writes = [] ∧
    (unplaced 40).openSb 4 = none ∧ (unplaced 40).flt.sbs = [] ∧
    (let s := flash 4 fun f => { f with sbs := [(3, superb .erasing 4 0)] }
     s.flt.stopped = false ∧ (s.sb 3).sbState = .erasing ∧ s.flt.writes = [] ∧ 2 ≤ (s.sb 3).members.length ∧ 15 ∈ (s.sb 3).members) := by decide

theorem pick_one {α : Type} (s : State) (a : α) : pickOf s [a] = some a := by
  simp [pickOf, Nat.mod_one]

theorem witness_FlashUnits_open : (unplaced 40).nextSb = some 1 ∧ (unplaced 8).nextSb = none := by
  constructor
  · have h : ((unplaced 40).ceLuns.filterMap fun l =>
        let lo := l * 8192 + State.sbFirst l
        ((lo :: (((unplaced 40).flt.sbs.filter (fun p => sbLun p.1 == l)).map (fun p => p.1 + 1))).find? (fun b =>
          decide (lo ≤ b) && decide (b < l * 8192 + (unplaced 40).sbPerLun l) && (tfind (unplaced 40).flt.sbs b).isNone &&
          (unplaced 40).sbOpenable b))) = [1] := by decide
    simp only [State.nextSb, h, pick_one]
  · have h : ((unplaced 8).ceLuns.filterMap fun l =>
        let lo := l * 8192 + State.sbFirst l
        ((lo :: (((unplaced 8).flt.sbs.filter (fun p => sbLun p.1 == l)).map (fun p => p.1 + 1))).find? (fun b =>
          decide (lo ≤ b) && decide (b < l * 8192 + (unplaced 8).sbPerLun l) && (tfind (unplaced 8).flt.sbs b).isNone &&
          (unplaced 8).sbOpenable b))) = [] := by decide
    simp only [State.nextSb, h]
    rfl


/-! ## The transport -/

/-- Node 2 at 10.0.0.1, port 0 up, transport enabled; conduit 3, of that node itself, with some parts of its entry. -/
def wire (cd : ConduitState) : State :=
  let s := with_ [(Fd.TRL_CTL_ENABLE, 1), (Fd.TRL_IP4_VALID, 1), (Fd.TRL_IP4_ADDR, 0x0A000001), (Fd.TRL_NODE_NODE, 2),
    (Fd.SCH_CTL_METER_EN, 0), (Fd.SCH_CTL_SHAPE_EN, 0), (Fd.TRL_PORT_STATUS_UP 0, 1), (Fd.TRL_PORT_NH_VALID 0, 1), (Fd.TRL_RXBUF_MIB, 1),
    (Fd.TRL_CTL_WINDOW_MIB, 1), (Fd.TRL_RETX_MAX_TRIES, 3)]
  { s with mtime := 10 ^ 9, trl := { s.trl with conduits := [(3, cd)] } }
def peered : ConduitState := { open_ with
  peerNode := 2, peerConduit := 3, peerIp := zeros 12 ++ [10, 0, 0, 1], peerPort := live.fd Fd.TRL_UDP_PORT, txNext := 1, rxNext := 1, rateMbps := 1000, bucket := 1 }
def message : OutMsg := { OutMsg.mk' 0x30 5 (zeros 8) .plain with egress := [.port 0] }
def wired : State := wire peered
/-- A frame to itself, with one thing wrong or none; FCS not given. -/
def frameTo (cd : ConduitState) (q flags : Nat) : List Byte :=
  let f := wired.frameOf cd 0 0 message q 0 flags (zeros 8)
  f.take (f.length - 4)
def hdrOf (f : List Byte) : List Byte := (f.drop 42).take 32
def pktOf (f : List Byte) : Pkt := ⟨zeros 12 ++ [10, 0, 0, 1], false, 0, false, hdrOf f, f.drop 74⟩
def good : List Byte := frameTo peered 1 0x8000

theorem witness_Packets : wired.frameFate 0 good true = .trill (pktOf good) ∧ wired.nodeOk (pktOf good).hdr = true ∧
    wired.conduit (bat (pktOf good).hdr 8 2) = some peered ∧ peered.matches_ (pktOf good) = true ∧ wired.openBody peered (pktOf good) = some (zeros 8) ∧
    wired.flag Fd.SCH_CTL_METER_EN = false ∧ hBit (pktOf good).hdr 8 = false ∧ hSeq (pktOf good).hdr = 1 ∧ peered.rx = [] ∧ peered.rxDone = [] ∧
    hOff (pktOf good).hdr = 0 ∧ hLen (pktOf good).hdr = 8 ∧ 8 ≤ peered.segSize ∧ hBit (pktOf good).hdr 15 = true ∧
    hOp (pktOf good).hdr = 0x30 ∧ knownOp 0x30 = true ∧ kindUnknown 0x30 (zeros 8) = false ∧ buffered 0x30 = true ∧
    8 ≤ wired.rxSize / 4 ∧ wired.rxUsed + 8 ≤ wired.rxSize := by decide

theorem witness_Packets_dropped : wired.frameFate 0 good false = .dropped 0 ∧ wired.frameFate 63 (good.take 30) true = .dropped 1 ∧
    (let f := frameTo { peered with peerNode := 6 } 1 0x8000; wired.frameFate 0 f true = .trill (pktOf f) ∧ wired.nodeOk (pktOf f).hdr = false) ∧
    (let f := frameTo { peered with peerConduit := 4 } 1 0x8000; wired.frameFate 0 f true = .trill (pktOf f) ∧ wired.conduit (bat (pktOf f).hdr 8 2) = none) ∧
    (let f := frameTo { peered with txCgen := 9 } 1 0x8000; wired.frameFate 0 f true = .trill (pktOf f) ∧ peered.matches_ (pktOf f) = false) ∧
    (let f := frameTo peered 1 0xC000; wired.frameFate 0 f true = .trill (pktOf f) ∧ wired.openBody peered (pktOf f) = none) ∧
    (let f := frameTo peered 0xFFFFFFFF 0x8000; wired.frameFate 0 f true = .trill (pktOf f) ∧ serialLt 32 (hSeq (pktOf f).hdr) peered.rxNext = true) := by decide

/-- The message waits; it has been sent and its timer has run out, or its reorder window; a loopback conduit. -/
def queued : State := wire { peered with queue := [message] }
def outSeg : OutSeg := ⟨1, 0, 0, 0, 0, false, none, some 0⟩
def sentCd (timer : Bool) : ConduitState := { peered with
  sent := [⟨message, 1, [outSeg]⟩], timerAt := if timer then some 0 else none, timerNs := 1000, ackSince := some 0, txNext := 2 }
def looped : ConduitState := { peered with loopback := true, queue := [{ message with egress := [] }] }

theorem witness_Packets_sender : queued.flag Fd.TRL_CTL_ENABLE = true ∧ queued.flag Fd.SCH_CTL_SHAPE_EN = false ∧ queued.cfg (Fd.SCH_PORT_FALLBACK 0) = 0 ∧
    (queued.heads 0).map (fun h => (h.eligible, h.kind, h.conduit)) = [(true, .fresh 0, 3)] ∧ message.unseq = false ∧ peered.enc = false ∧ queued.still := by decide

theorem witness_Packets_timers : (wire (sentCd true)).flag Fd.TRL_CTL_ENABLE = true ∧
    0 + max 1 ((wire (sentCd true)).fd Fd.TRL_ACK_ACK_NS) ≤ (wire (sentCd true)).nsec ∧ (sentCd true).cstate = 1 ∧ (sentCd true).loopback = false ∧
    (wire (sentCd true)).muted 3 = false ∧ (wire (sentCd true)).still ∧ lat (le 4 2 ++ [0, 0]) 4 1 % 16 = 0 ∧
    (∀ m ∈ (sentCd true).sent, m.segs.length = (sentCd true).segCount m.msg.payload.length ∧ m.msg.purpose = .plain ∧ (∀ g ∈ m.segs, g.acked = false) ∧
      serialLt 32 m.msgseq (lat (le 4 2 ++ [0, 0]) 0 4) = true) ∧ (wire (sentCd true)).trl.handed = [] ∧ 0x400 / 0x400 % 2 = 1 ∧ (sentCd true).cutAt = none ∧
    0 + (sentCd true).timerNs ≤ (wire (sentCd true)).nsec ∧ outSeg.expiries + 1 < max 1 ((wire (sentCd true)).fd Fd.TRL_RETX_MAX_TRIES) ∧
    (wire (sentCd true)).fd Fd.TRL_RETX_REORDER_NS ≠ 0 ∧ outSeg.reorderAt = some 0 ∧
    0 + (wire (sentCd true)).fd Fd.TRL_RETX_REORDER_NS ≤ (wire (sentCd true)).nsec := by decide

theorem witness_Packets_loopback : looped.loopback = true ∧ looped.cstate = 1 ∧ looped.queue.map (fun m => (m.hold, m.unseq, m.flags, m.purpose, m.op)) = [(false, false, 0, .plain, 0x30)] ∧
    looped.rx = [] ∧ looped.rxDone = [] ∧ looped.txNext = looped.rxNext ∧ 0 < looped.txNext ∧ (wire looped).still ∧ twf (wire looped).sch.nodes = true := by decide

/-- Conduit 3 is selected; OPEN data of a conduit to node 6; a conduit drains. -/
def selecting (cd : Option ConduitState) (l : List (Fd × Nat)) : State :=
  let s := sets (wire peered) ((Fd.TRL_CONDUIT_SEL_INDEX, 3) :: l)
  { s with trl := { s.trl with conduits := match cd with | some c => [(3, c)] | none => [] } }
def entry6 (b0 b1 cgen : Nat) : List (Fd × Nat) :=
  [(⟨Reg.TRL_CONDUIT_DATA0, 63, 0⟩, b0 + b1 * 2 ^ 8 + 3 * 2 ^ 16 + 7 * 2 ^ 32 + cgen * 2 ^ 48), (⟨Reg.TRL_CONDUIT_DATA0 + 8, 63, 0⟩, 6)]

theorem witness_ConduitsPorts : (63 < (with_ [(Fd.TRL_CTL_PORT_MODE, 3)]).portCount) ∧
    (let s := with_ [(Fd.TRL_CTL_PORT_MODE, 3), (Fd.TRL_CTL_ENABLE, 1), (Fd.TRL_PORT_CTL_ENABLE 63, 1)]
     s.flag (Fd.TRL_PORT_CTL_ENABLE 63) = true ∧ s.fd (Fd.TRL_PORT_CTL_LOOP 63) = 0 ∧ s.flag (Fd.TRL_PORT_STATUS_UP 63) = false) ∧
    wired.flag (Fd.TRL_PORT_STATUS_UP 0) = true ∧ wired.still ∧ bits 1 1 0 = 1 ∧ bits 2 1 0 = 2 ∧ bits 3 1 0 = 3 := by decide

theorem witness_ConduitsPorts_open : let s := selecting none (entry6 0 0x3F 9)
    let d := s.conduitData
    s.fd Fd.TRL_CONDUIT_SEL_INDEX = 3 ∧ ((s.conduit 3).getD ConduitState.closed).cstate = 0 ∧ bits (lat d 1 1) 6 4 = 3 ∧ lat d 0 1 / 4 % 2 ≠ 1 ∧
    ((s.conduit 3).getD ConduitState.closed).lastCgen ≠ some (lat d 6 2) ∧ lat d 0 1 / 32 % 2 ≠ 1 ∧ s.cust.releases = [] ∧
    ((selecting (some peered) []).conduit 3).map (·.cstate) = some 1 ∧ 3 < bits (lat (selecting none (entry6 0 0x4F 9)).conduitData 1 1) 6 4 ∧
    (let c := { ConduitState.closed with lastCgen := some 9 }; c.lastCgen = some (lat (selecting (some c) (entry6 0 0 9)).conduitData 6 2)) := by decide

theorem witness_ConduitsPorts_close : (selecting (some { peered with queue := [message] }) []).still ∧ (selecting (some peered) []).rmo.wrs = [] ∧
    peered.queue = [] ∧ peered.sent = [] ∧ peered.rx = [] ∧ (selecting (some peered) []).ae.streams = [] ∧ (selecting (some peered) []).tier.lent = [] ∧
    (selecting (some peered) []).pgt.descs = [] ∧ (selecting (some peered) []).trl.awaiting = [] ∧ ({ peered with cstate := 3 } : ConduitState).cstate = 3 ∧
    (selecting none []).conduit 3 = none ∧ (∀ m ∈ ({ peered with queue := [message] } : ConduitState).queue, m.purpose = .plain) := by decide

def draining (q : List OutMsg) : State := selecting (some { peered with cstate := 2, queue := q }) [(Fd.TRL_RETX_RTO_MAX_US, 1)]

theorem witness_ConduitsPorts_drain : ((draining [message]).conduit 3).map (·.cstate) = some 2 ∧ (draining [message]).quiet ∧
    (draining [message]).trl.conduits.map Prod.fst = [3] ∧ twf (draining [message]).trl.conduits = true ∧
    0 + max 1 ((draining [message]).fd Fd.TRL_RETX_RTO_MAX_US) * max 1 ((draining [message]).fd Fd.TRL_RETX_MAX_TRIES) * 1000 ≤ (draining [message]).nsec ∧
    ((draining []).conduit 3).map (·.queue) = some [] := by decide

/-- A request of conduit 3 with MSGSEQ 7 awaits its answer: an OFFER of extent 511, or a WRITE. -/
def awaits (op : Nat) (p : Purpose) : State :=
  let s := lentOne (extent .offered [] none none)
  { s with trl := { s.trl with awaiting := [⟨3, 7, op, p⟩] } }
def reply (st : Nat) : List Byte := le 4 7 ++ le 1 st ++ zeros 4
def mailed : State := sets (on3 live) [(Fd.EVC_MB_CFG_ENABLE 1, 1), (Fd.TRL_RXBUF_MIB, 1)]

theorem witness_ConduitsPorts_responses : (awaits 0x1A (.offer 511)).still ∧ (awaits 0x1A (.offer 511)).cust.releases = [] ∧
    (awaits 0x1A (.offer 511)).trl.awaiting.find? (fun a => a.conduit == 3 && a.msgseq == lat (reply 0) 0 4) = some ⟨3, 7, 0x1A, .offer 511⟩ ∧
    (awaits 0x1A (.offer 511)).trl.awaiting.find? (fun a => a.conduit == 3 && a.msgseq == lat (zeros 8) 0 4) = none ∧
    8 ≤ (reply 0).length ∧ (awaits 0x1A (.offer 511)).lentX 511 = some (extent .offered [] none none) ∧ lat (reply 0) 4 1 = stOK ∧
    lat (reply stQUOTA) 4 1 ≠ stOK ∧ (awaits 0x10 .plain).trl.awaiting = [⟨3, 7, 0x10, .plain⟩] ∧
    mailed.sends 3 ∧ lat (le 2 0x200) 0 2 = 0x200 ∧ mailed.mbRoom 1 = true ∧ (mailed.rxRoom 2).isSome = true ∧ (on3 live).mbRoom 1 = false := by decide


/-! ## Regions, queues, counters and work requests -/

/-- Region 1 of partition 0, 64 bytes at 2^20, generation 1, open to every conduit; its key; its table lies at 0. -/
def region1 : Region := { Region.free with base := 2 ^ 20, len := 64, rstate := 1, rd := true, wr := true, imm := true, gen := 1, conduit := 0xFFFF }
def key1 : Nat := 1 * 256 + 1
def regional (r : Region) (l : List (Fd × Nat)) : State :=
  let s := sets (on3 live) ([(Fd.RMO_CTL_ENABLE, 1), (Fd.RMO_TABLE_ENTRIES, 2), (Fd.RMO_PART_REGIONS_MAX 0, 2)] ++ l)
  { s with mtime := 10 ^ 9, rmo := { s.rmo with regions := [(1, r)] } }
def writeMsg (off n : Nat) : List Byte := le 8 off ++ le 1 1 ++ zeros 7 ++ zeros n
def readMsg (off n : Nat) : List Byte := le 8 off ++ le 4 n ++ zeros 4 ++ le 8 9 ++ zeros 8
/-- Queue 4095 of 16 entries at 2^21. -/
def cqOn (notify en : Nat) : List (Fd × Nat) := [(Fd.RMO_CQ_CFG0_ENABLE.at 4095, en), (Fd.RMO_CQ_CFG0_NOTIFY.at 4095, notify),
  (Fd.RMO_CQ_CFG0_LOG2SIZE.at 4095, 4), (Fd.RMO_CQ_CFG0_BASE.at 4095, 2 ^ 21), (Fd.RMO_CQ_IDX_PI.at 4095, 15)]
def queueing : Region := { region1 with cqen := true, cq := 4095, ctren := true, ctr := 65535 }

theorem witness_Regions : (regional region1 []).sends 3 ∧ (regional region1 []).trl.handed = [] ∧
    (regional region1 []).keyCheck key1 0 (some 3) false .write = (stOK, 1) ∧ (regional region1 []).keyCheck key1 0 (some 3) false .writeImm = (stOK, 1) ∧
    (regional region1 []).keyCheck key1 0 (some 3) false .read = (stOK, 1) ∧ (regional region1 []).keyCheck 0 0 (some 3) false .read = (stKEYINV, 0) ∧
    (regional { region1 with rstate := 2 } []).keyCheck key1 0 (some 3) false .write = (stREVOKED, 1) ∧
    (regional region1 []).partOf 3 = 0 ∧ 16 ≤ (writeMsg 48 16).length ∧ lat (writeMsg 48 16) 8 1 = 1 ∧ zeroAt (writeMsg 48 16) 9 7 = true ∧
    region1.holds (lat (writeMsg 48 16) 0 8) ((writeMsg 48 16).length - 16) = true ∧ region1.holds 49 16 = false ∧ region1.holds (2 ^ 64 - 1) 16 = false ∧
    2 ^ 20 + 48 + 16 ≤ hbmBytes ∧ (regional region1 []).fd Fd.RMO_TABLE_BASE + 32 * 1 + 32 ≤ 2 ^ 20 + 48 ∧
    (readMsg 63 1).length = 32 ∧ lat (readMsg 63 1) 8 4 = 1 ∧ zeroAt (readMsg 63 1) 24 8 = true ∧ region1.holds 63 1 = true ∧ region1.holds 64 1 = false := by decide

theorem witness_Regions_queue : (regional queueing []).cqRoom 4095 = false ∧ (regional queueing (cqOn 1 1)).cqRoom 4095 = true ∧
    (regional queueing (cqOn 1 1)).keyCheck key1 0 (some 3) false .writeImm = (stOK, 1) ∧ (regional queueing (cqOn 1 1)).fd (Fd.RMO_CQ_CFG0_NOTIFY.at 4095) ≠ 2 ∧
    (regional queueing (cqOn 1 1)).fd (Fd.RMO_CQ_CFG0_BASE.at 4095) + 16 * (15 % (regional queueing (cqOn 1 1)).cqSize 4095) + 16 ≤ hbmBytes ∧
    (regional queueing (cqOn 1 1)).fd Fd.RMO_TABLE_BASE + 32 * 1 + 32 ≤ (regional queueing (cqOn 1 1)).fd (Fd.RMO_CQ_CFG0_BASE.at 4095) := by decide

/-- The registration words of a region. -/
def registering (r : Region) (hard : Nat) : State :=
  regional region1 [(⟨Reg.RMO_REG_DATA0, 63, 0⟩, lat r.bytes 0 8), (⟨Reg.RMO_REG_DATA1, 63, 0⟩, lat r.bytes 8 8), (⟨Reg.RMO_REG_DATA2, 63, 0⟩, lat r.bytes 16 8),
    (⟨Reg.RMO_REG_DATA3, 63, 0⟩, lat r.bytes 24 8), (Fd.TIER_QUOTA_HARD_MIB 0 1, hard), (Fd.RMO_REG_SEL_INDEX, 1)]
def localRegion : Region := { Region.free with len := 2 ^ 21, wr := true, conduit := 0xFFFF }
def remoteRegion : Region := { Region.free with base := 0, len := 64, remote := true, wr := true, conduit := 3, peerKey := 9 }

theorem witness_Regions_register : (registering localRegion 0xFFFFFFFF).registerCheck (regionOf (registering localRegion 0xFFFFFFFF).regData) = stOK ∧
    regionOf (registering localRegion 0xFFFFFFFF).regData = localRegion ∧ (registering localRegion 0xFFFFFFFF).freeRegion = some 0 ∧
    ((registering localRegion 0xFFFFFFFF).takeHbm 0 1024 1024 (fun _ => true)).isSome = true ∧
    (registering localRegion 1).takeHbm 0 1024 1024 (fun _ => true) = none ∧
    regionOf (registering remoteRegion 0).regData = remoteRegion ∧ (registering remoteRegion 0).registerCheck remoteRegion = stOK ∧
    (registering Region.free 0).registerCheck (regionOf (registering Region.free 0).regData) ≠ stOK := by
  refine ⟨by decide, by decide, by decide, ?_, by decide, by decide, by decide, by decide⟩
  unfold State.takeHbm State.takeHbmRaw
  rw [if_neg (by decide)]
  simp only [Option.isSome_map, Option.isSome_or, Bool.or_eq_true]
  exact .inl (findHbm_of_start _ 1024 1024 8388608 _ (by decide) (.inl (by decide)) (by decide) (by decide) (by decide))

theorem witness_Regions_revoke : (registering localRegion 0).fd Fd.RMO_REG_SEL_INDEX = 1 ∧ ((registering localRegion 0).region 1).rstate ≠ 0 ∧
    (registering localRegion 0).ringOf 1 = false ∧ ((regional region1 []).region ((regional region1 []).fd Fd.RMO_REG_SEL_INDEX)).rstate = 0 ∧
    (regional region1 ((Fd.RMO_REG_SEL_INDEX, 1) :: (Fd.RMO_CQ_CFG1_RKEY.at 4095, key1) :: cqOn 2 1)).ringOf 1 = true ∧
    ((regional { region1 with rstate := 2, inflight := 1 } []).region 1).inflight ≠ 0 ∧ ((regional { region1 with rstate := 2 } []).region 1).inflight = 0 := by decide

/-- Queue 4095 selected; its unsent entry of index 15; the region of its ring. -/
def selected (l : List (Fd × Nat)) : State := regional { region1 with remote := true, conduit := 3 } ((Fd.RMO_CQ_SEL_INDEX, 4095) :: l)
def notifying (n delay : Nat) : State :=
  let s := selected ((Fd.RMO_CQ_CFG1_RKEY.at 4095, key1) :: (Fd.RMO_CQ_CFG1_NCOUNT.at 4095, n) :: (Fd.RMO_CQ_CFG1_NDELAY_NS.at 4095, delay) :: cqOn 2 1)
  { s with rmo := { s.rmo with cqs := [(4095, ⟨0, [(15, zeros 16)], s.mtime - 5⟩)] } }
def credit (ci : Nat) : List Byte := le 2 0x21 ++ le 2 4095 ++ le 4 ci

theorem witness_Queues : (selected []).flag (Fd.RMO_CQ_CFG0_ENABLE.at ((selected []).fd Fd.RMO_CQ_SEL_INDEX)) = false ∧
    (selected (cqOn 1 1)).flag (Fd.RMO_CQ_CFG0_ENABLE.at ((selected (cqOn 1 1)).fd Fd.RMO_CQ_SEL_INDEX)) = true ∧
    bits (2 ^ 63 + 2 ^ 61) 63 63 = 1 ∧ bits (2 ^ 63 + 2 ^ 61) 62 61 = 1 ∧ bits (2 ^ 63 + 2 ^ 62) 62 61 = 2 ∧ live.flag Fd.RMO_CTL_ENABLE = false ∧
    live.flag (Fd.RMO_CQ_CFG0_ENABLE.at (live.fd Fd.RMO_CQ_SEL_INDEX)) = false ∧
    serialDist 32 0 15 ≤ serialDist 32 0 15 ∧ ¬ serialDist 32 0 16 ≤ serialDist 32 0 15 := by decide

theorem witness_Queues_notify : (notifying 2 60).flag (Fd.RMO_CQ_CFG0_ENABLE.at 4095) = true ∧ (notifying 2 60).fd (Fd.RMO_CQ_CFG0_NOTIFY.at 4095) = 2 ∧
    ((notifying 2 60).cq 4095).unsent.length = 1 ∧ 1 < (notifying 2 60).fd (Fd.RMO_CQ_CFG1_NCOUNT.at 4095) ∧
    ((notifying 2 60).mtime - ((notifying 2 60).cq 4095).oldestAt) * 10 < (notifying 2 60).fd (Fd.RMO_CQ_CFG1_NDELAY_NS.at 4095) ∧
    (notifying 1 60).fd (Fd.RMO_CQ_CFG1_NCOUNT.at 4095) ≤ 1 ∧ 1 ≤ (notifying 1 60).cqSize 4095 - 15 % (notifying 1 60).cqSize 4095 ∧
    (notifying 1 60).sends ((notifying 1 60).region (keyIndex ((notifying 1 60).fd (Fd.RMO_CQ_CFG1_RKEY.at 4095)))).conduit ∧
    (credit 15).length = 8 ∧ lat (credit 15) 0 2 = 0x21 ∧ lat (credit 15) 2 2 = 4095 ∧ (notifying 1 60).fd (Fd.RMO_CQ_CFG0_PART.at 4095) = (notifying 1 60).partOf 3 ∧
    serialDist 32 ((notifying 1 60).fd (Fd.RMO_CQ_IDX_CI.at 4095)) 15 ≤ serialDist 32 ((notifying 1 60).fd (Fd.RMO_CQ_IDX_CI.at 4095)) ((notifying 1 60).fd (Fd.RMO_CQ_IDX_PI.at 4095)) ∧
    ¬ serialDist 32 ((notifying 1 60).fd (Fd.RMO_CQ_IDX_CI.at 4095)) 16 ≤ serialDist 32 ((notifying 1 60).fd (Fd.RMO_CQ_IDX_CI.at 4095)) ((notifying 1 60).fd (Fd.RMO_CQ_IDX_PI.at 4095)) := by decide

/-- A work request on counter 65535, of a kind, with threshold 5: source region 1 at 0 of 16 bytes, destination region 2. -/
def wrBytes (kind : Nat) : List Byte := le 1 kind ++ le 1 0 ++ le 2 65535 ++ le 4 5 ++ le 4 key1 ++ zeros 4 ++ le 8 0 ++ le 4 16 ++
  le 4 (if kind = 5 then 65535 else 2 * 256 + 1) ++ le 8 48 ++ zeros 24
def workReq (kind : Nat) (fired : Option Nat) (retry : Option (List Byte × Nat)) : WorkReq := ⟨7, wrBytes kind, 3, 65535, fired, [], retry, false⟩
def counting (value maxwr pool : Nat) (ws : List WorkReq) : State :=
  let s := regional region1 [(Fd.RMO_CTR_CFG_ENABLE.at 65535, 1), (Fd.RMO_CTR_VAL_VALUE.at 65535, value), (Fd.RMO_CTR_CFG_MAXWR.at 65535, maxwr),
    (Fd.RMO_WR_POOL_ENTRIES, pool), (Fd.RMO_TABLE_ENTRIES, 3), (Fd.RMO_CTR_SEL_INDEX, 65535)]
  { s with rmo := { s.rmo with wrs := ws, regions := [(1, region1), (2, { region1 with remote := true, conduit := 3 })] } }
def post (kind : Nat) : List Byte := le 2 0x20 ++ zeros 6 ++ wrBytes kind
def flush : List Byte := le 2 0x22 ++ le 2 65535

theorem witness_WorkRequests_post : (∀ k ∈ [1, 2, 3, 4], (post k).length = 72 ∧ lat (post k) 0 2 = 0x20 ∧ zeroAt (post k) 2 6 = true ∧
      wrBad (slice (post k) 8 64) = false ∧ lat (slice (post k) 8 64) 0 1 ≠ 5 ∧ lat (slice (post k) 8 64) 1 1 = 0) ∧
    (counting 0 1 1 []).ctrOk (lat (slice (post 3) 8 64) 2 2) ((counting 0 1 1 []).partOf 3) = true ∧
    ¬ ((counting 0 1 1 []).fd Fd.RMO_WR_POOL_ENTRIES ≤ (counting 0 1 1 []).rmo.wrs.length) ∧
    ¬ (max 1 ((counting 0 1 1 []).fd (Fd.RMO_CTR_CFG_MAXWR.at 65535)) ≤ ((counting 0 1 1 []).unfired 65535).length) ∧
    (counting 0 1 1 [workReq 3 none none]).fd Fd.RMO_WR_POOL_ENTRIES ≤ (counting 0 1 1 [workReq 3 none none]).rmo.wrs.length ∧
    (on3 live).ctrOk 65535 0 = false ∧ flush.length = 4 ∧ lat flush 0 2 = 0x22 ∧ lat flush 2 2 = 65535 ∧
    (∀ w ∈ (counting 0 1 1 [workReq 3 none none]).rmo.wrs, lat w.bytes 1 1 % 2 = 0 ∧ w.holds = []) ∧
    (counting 0 1 1 [workReq 3 none none]).unfired 65535 ≠ [] := by decide

theorem witness_WorkRequests_fire : (∀ k ∈ [3, 5], (counting 5 1 1 [workReq k none none]).flag Fd.RMO_CTL_ENABLE = true ∧
      (counting 5 1 1 [workReq k none none]).unfired 65535 = [workReq k none none] ∧
      (counting 5 1 1 [workReq k none none]).rmo.wrs.find? (fun y => y.id == 7) = some (workReq k none none) ∧
      (counting 5 1 1 [workReq k none none]).quiet ∧ reached ((counting 5 1 1 [workReq k none none]).fd (Fd.RMO_CTR_VAL_VALUE.at 65535)) (lat (wrBytes k) 4 4) = true ∧
      lat (wrBytes k) 1 1 % 2 = 0 ∧ lat (wrBytes k) 0 1 = k) ∧ reached 4 5 = false ∧
    (let s := counting 5 1 1 [workReq 3 none none]; let b := wrBytes 3
     s.keyCheck (lat b 8 4) (s.partOf 3) (some 3) false .read = (stOK, 1) ∧ (s.region 1).holds (lat b 16 8) (lat b 24 4) = true ∧
     s.keyCheck (lat b 28 4) (s.partOf 3) none true .write = (stOK, 2) ∧ (s.region 2).holds (lat b 32 8) (lat b 24 4) = true ∧
     s.sends (s.region 2).conduit) ∧ (counting 5 1 1 []).unfired 65535 = [] := by decide

/-- A posted query that found no room, over sequence 5, on a member that may not admit. -/
def retrying (fired : Nat) : State :=
  let s := attending
  { s with mtime := 10 ^ 9, rmo := { s.rmo with wrs := [workReq 1 (some fired) (some (query5, 0))] }, twn := { s.twn with role := .joining } }

theorem witness_WorkRequests_retry : (retrying 0).rmo.wrs.find? (fun w => w.id == 7) = some (workReq 1 (some 0) (some (query5, 0))) ∧
    0 + (retrying 0).fd Fd.RMO_CTL_RETRY_US ≤ (retrying 0).usec ∧ (retrying 0).quiet ∧
    0 + max 1 ((retrying 0).fd Fd.AE_TIMEOUT_MS) * 1000 ≤ (retrying 0).usec ∧ (retrying 0).sends 3 ∧
    (retrying (10 ^ 7)).usec < 10 ^ 7 + max 1 ((retrying 0).fd Fd.AE_TIMEOUT_MS) * 1000 ∧ lat (wrBytes 1) 0 1 = 1 ∧ headerBad query5 false = false ∧
    hPart (lat query5 0 8) = (retrying 0).partOf 3 ∧ (retrying 0).route (lat query5 0 8) = .here 5 ∧ ((retrying 0).seq 5).isSome = true ∧
    (retrying 0).admits = false := by decide

theorem witness_Counters : (counting 0 1 1 []).unfired ((counting 0 1 1 []).fd Fd.RMO_CTR_SEL_INDEX) = [] ∧ (counting 0 1 1 []).quiet ∧ bits 0 63 63 = 0 ∧
    (counting 0 1 1 [workReq 3 none none]).flag (Fd.RMO_CTR_CFG_ENABLE.at ((counting 0 1 1 []).fd Fd.RMO_CTR_SEL_INDEX)) = true := by decide


/-! ## The pair -/

/-- A member of a pair: twin conduit 3, witness conduit 4, governor conduit 5, in a role at an epoch. -/
def member (r : Role) (f : Twn → Twn) : State :=
  let s := with_ [(Fd.TWN_CTL_ENABLE, 1), (Fd.TWN_CTL_CONDUIT, 3), (Fd.TWN_WITNESS_CONDUIT, 4), (Fd.TWN_WITNESS_VALID, 1), (Fd.TWN_GOVERNOR_CONDUIT, 5),
    (Fd.TWN_GOVERNOR_VALID, 1), (Fd.TWN_CROAK_PERIOD_NS, 1000), (Fd.TWN_CROAK_MISS, 3), (Fd.TWN_CROAK_LEASE, 2), (Fd.TRL_PORT_STATUS_UP 0, 1),
    (Fd.TWN_WIT_CTL_PAIRS, 1), (Fd.TWN_GOV_CTL_BASE, 2 ^ 20), (Fd.TWN_GOV_CTL_LIMIT, 1), (Fd.TWN_CLASS_LIMIT 0, 1)]
  { s with
    mtime := 10 ^ 9
    trl := { s.trl with conduits := [(3, { open_ with peerNode := 1 }), (4, { open_ with peerNode := 8 }), (5, { open_ with peerNode := 9 })] }
    twn := f { s.twn with role := r, epoch := 5 } }
def croakMsg (epoch cseq echo role : Nat) : List Byte := le 4 epoch ++ le 4 cseq ++ le 4 echo ++ le 1 role ++ zeros 19
def echoing (t : Nat) : State := member .paired fun x => { x with sentAt := [(7, t)] }

theorem witness_Croaks : (∀ r ∈ [Role.paired, .solo, .joining], (member r id).flag Fd.TWN_CTL_ENABLE = true ∧ (member r id).role ≠ .fenced ∧
      (member r id).sends (member r id).twinConduit ∧ (member r id).twn.lastSent + (member r id).periodNs ≤ (member r id).nsec ∧ (member r id).quiet) ∧
    (let s := member .paired fun x => { x with lastSent := 10 ^ 10 }; s.nsec < s.twn.lastSent + s.periodNs) ∧
    (croakMsg 5 9 7 2).length = 32 ∧ lat (croakMsg 5 9 7 2) 0 4 = 5 ∧ serialLt 32 (member .paired id).twn.peerCseq (lat (croakMsg 5 9 7 2) 4 4) = true ∧
    bits (lat (croakMsg 5 9 7 2) 12 1) 3 3 = 0 ∧ roleOf (lat (croakMsg 5 9 7 2) 12 1 % 8) = .paired ∧ lat (croakMsg 5 9 7 2) 8 4 = 7 ∧
    (echoing (10 ^ 10)).nsec ≤ 10 ^ 10 + (echoing (10 ^ 10)).leaseNs ∧ 10 ^ 9 + (echoing (10 ^ 9)).leaseNs < (echoing (10 ^ 9)).nsec ∧
    (member .paired id).twn.epoch < lat (croakMsg 6 9 7 2) 0 4 ∧ (member .solo id).twn.epoch < lat (croakMsg 6 9 7 3) 0 4 ∧ (member .solo id).ae.streams = [] ∧
    lat (croakMsg 4 9 7 2) 0 4 < (member .paired id).twn.epoch ∧ serialLt 32 (member .paired id).twn.peerCseq (lat (croakMsg 5 0 7 2) 4 4) = false ∧
    (member .paired id).leaseHolds = false ∧ (member .paired fun x => { x with leaseUntil := some (10 ^ 10) }).leaseHolds = true := by decide

def claiming (r : Role) (back : Bool) (sends : Nat) (why : Reason) : State := member r fun x => { x with claim := some ⟨why, back, sends, 0⟩ }

theorem witness_Claims : (∀ r ∈ [Role.paired, .joining, .regrowing], (member r id).twn.claim = none ∧ (member r id).flag Fd.TWN_WITNESS_VALID = true ∧
      (member r id).sends ((member r id).fd Fd.TWN_WITNESS_CONDUIT)) ∧
    (member .paired id).twn.silentAt = none ∧ (member .paired id).twn.heardAt + (member .paired id).missNs ≤ (member .paired id).nsec ∧
    (member .paired id).fd Fd.TWN_GOVERNOR_CONDUIT ≠ (member .paired id).fd Fd.TWN_WITNESS_CONDUIT ∧ (member .paired id).sends 5 ∧
    (member .joining id).twn.joinFailed = false ∧ (member .joining id).twn.heardAt + 100000000 ≤ (member .joining id).nsec ∧
    (member .regrowing id).twn.regrow = [] ∧ (member .regrowing id).notTabled = [] ∧ (member .regrowing id).regrowOut = false ∧
    bits 4 2 0 = 4 ∧ (member .paired id).flag Fd.TWN_CMD_BUSY = false ∧ (member .paired fun x => { x with live := true }).twn.live = true ∧
    lat (takeover 7 1 0 1 0 5 0) 0 1 = 7 ∧ lat (takeover 7 1 0 1 0 5 0) 1 1 = 1 ∧ (takeover 7 1 0 1 0 5 0).length = 32 ∧
    (member .paired fun x => { x with permitAt := some 0 }).twn.permitAt.isSome = true := by decide

theorem witness_Claims_witness : lat (takeover 1 0 0 1 0 5 0) 0 1 = 1 ∧ live.fd Fd.TWN_WIT_CTL_PAIRS = 0 ∧ 0 < (member .down id).fd Fd.TWN_WIT_CTL_PAIRS ∧
    tfind (member .down id).twn.witness ((member .down id).peerOf 5 / 2) = none ∧ (member .down id).twn.witness.length < (member .down id).fd Fd.TWN_WIT_CTL_PAIRS ∧
    (let s := member .down fun x => { x with witness := [(9, ⟨5, 18⟩)] }
     tfind s.twn.witness (s.peerOf 5 / 2) = none ∧ s.fd Fd.TWN_WIT_CTL_PAIRS ≤ s.twn.witness.length) ∧
    (let s := member .down fun x => { x with witness := [(4, ⟨5, 8⟩)] }
     tfind s.twn.witness (s.peerOf 5 / 2) = some ⟨5, 8⟩ ∧ tEpoch (takeover 1 0 0 1 0 5 0) = 5 ∧ tEpoch (takeover 1 0 0 1 0 4 0) ≠ 5) := by decide

theorem witness_Takeovers : (claiming .regrowing false 1 .regrow).quiet ∧ (claiming .regrowing false 1 .regrow).twn.claim.map (·.reason) = some .regrow ∧
    (claiming .paired false 1 .silence).twn.claim.map (·.reason) = some .silence ∧ lat (takeover 2 0 0 1 0 6 0) 0 1 = 2 ∧
    (claiming .paired false 1 .silence).twn.epoch < tEpoch (takeover 2 0 0 1 0 6 0) ∧ tEpoch (takeover 2 0 0 1 0 5 0) ≤ (claiming .paired false 1 .silence).twn.epoch ∧
    (claiming .paired false 1 .silence).pgt.descs = [] ∧ (claiming .paired false 1 .silence).cust.syncs = [] ∧ (claiming .paired false 1 .silence).tier.restores = [] ∧
    ((claiming .paired false 1 .silence).trl.conduits.map Prod.fst).Nodup ∧
    (sets (claiming .paired false 1 .silence) [(Fd.EVC_MB_BASE_ADDR 5, 8192)]).fd Fd.TWN_NOTIFY_BASE_ADDR + 8192 ≤
      (sets (claiming .paired false 1 .silence) [(Fd.EVC_MB_BASE_ADDR 5, 8192)]).mbEntry 5 ∧
    lat (takeover 3 0 0 1 0 6 0) 0 1 = 3 ∧ (claiming .paired false 1 .silence).ae.streams = [] ∧
    0 + (claiming .paired false 1 .silence).fd Fd.TWN_WITNESS_TIMEOUT_US * 1000 ≤ (claiming .paired false 1 .silence).nsec ∧
    (member .paired fun x => { x with claim := some ⟨.silence, false, 1, 10 ^ 10⟩ }).nsec < 10 ^ 10 + 1 * 1000 ∧
    live.fd Fd.TWN_WITNESS_TIMEOUT_US ≠ 0 ∧ (claiming .paired false 2 .silence).twn.claim.map (·.sends) = some 2 := by decide

theorem witness_Announces : lat (takeover 4 0 0 7 6 9 0) 0 1 = 4 ∧ tget 0 (member .solo id).twn.pairEpochs (tFailed (takeover 4 0 0 7 6 9 0) / 2) < tEpoch (takeover 4 0 0 7 6 9 0) ∧
    tFailed (takeover 4 0 0 7 6 9 0) ≠ tServing (takeover 4 0 0 7 6 9 0) ∧ (member .solo id).ae.streams = [] ∧ (member .solo id).tier.lent = [] ∧
    (let s := member .solo fun x => { x with pairEpochs := [(3, 9)] }; tEpoch (takeover 4 0 0 7 6 9 0) ≤ tget 0 s.twn.pairEpochs (tFailed (takeover 4 0 0 7 6 9 0) / 2)) ∧
    lat (takeover 5 0 0 7 6 9 0) 0 1 = 5 ∧ 5 ≠ (member .solo id).twinConduit ∧
    (let s := { member .paired id with pgt := { live.pgt with seqs := [(2 ^ 25 + 5, seq5 [] 0 0)] } }
     tServing (takeover 5 0 0 1 0 6 0) = s.node ∧ s.twn.epoch < tEpoch (takeover 5 0 0 1 0 6 0) ∧ (seq5 [] 0 0).pt = []) := by decide

/-- Commands of TWN_CMD, by the role. -/
def cmdWord (cmd kind u : Nat) : Nat := cmd + u * 2 ^ 32 + kind * 2 ^ 40

theorem witness_Handoffs : (∀ n ∈ [1, 2, 3, 5, 6], bits (cmdWord n 2 255) 2 0 = n) ∧ bits (cmdWord 5 2 255) 47 40 = 2 ∧ bits (cmdWord 5 2 255) 39 32 = 255 ∧
    bits (cmdWord 5 0 79) 39 32 = 79 ∧ bits (cmdWord 5 1 3) 39 32 = 3 ∧ (member .paired id).engineQueue 79 = [] ∧ (member .paired id).flag Fd.TWN_CMD_BUSY = false ∧
    (member .paired id).role = .paired ∧ (member .solo id).role ≠ .paired ∧ (member .paired id).twn.permitAt = none ∧ (member .paired id).sends 5 ∧
    (member .solo fun x => { x with peerRole := .joining }).twn.peerRole = .joining ∧
    (let s := member .paired fun x => { x with handoff := true }; s.twn.handoff = true ∧ s.twn.drained = false ∧ s.ae.streams = [] ∧ s.pgt.ops = []) ∧
    (let s := member .paired fun x => { x with permitAt := some 0 }; 0 + s.fd Fd.TWN_WITNESS_TIMEOUT_US * 1000 ≤ s.nsec) := by decide

/-- A member that has taken over lists sequence 5, of one page. -/
def regrowing : State := { member .regrowing fun x => { x with regrow := [.table 5] } with
  pgt := { live.pgt with seqs := [(5, seq5 [(ptKey 0 0 0, 9)] 4 0)] } }

theorem witness_Regrowth : regrowing.twn.regrowAt ≤ regrowing.nsec ∧ regrowing.twn.regrow = [.table 5] ∧ regrowing.notTabled = [] ∧
    (regrowing.seq 5).map (·.cold) = some none ∧ regrowing.sends regrowing.twinConduit ∧
    (member .solo id).fd Fd.TWN_GOV_CTL_BASE ≠ 0 ∧ lat (takeover 6 1 0 1 0 5 0) 0 1 = 6 ∧ lat (takeover 6 1 0 1 0 5 0) 1 1 ≠ 0 ∧
    ((tget [] (member .solo id).twn.governor 0).filter (fun t => (member .solo id).usec < t + max 1 ((member .solo id).fd Fd.TWN_GOV_CTL_WINDOW_MIN) * 60000000)).length
      < (member .solo id).fd Fd.TWN_GOV_CTL_LIMIT ∧
    (let s := member .solo fun x => { x with governor := [(0, [0])] }
     s.fd Fd.TWN_GOV_CTL_LIMIT ≤ ((tget [] s.twn.governor 0).filter (fun t => s.usec < t + max 1 (s.fd Fd.TWN_GOV_CTL_WINDOW_MIN) * 60000000)).length) ∧
    live.fd Fd.TWN_GOV_CTL_BASE = 0 := by decide

theorem witness_Health : ({ member .paired id with hb := { live.hb with worn := [255] } }).calm 0 255 = true ∧
    ({ sets (member .paired id) [(Fd.TWN_CLASS_LIMIT 0, 0)] with hb := { live.hb with worn := [255] } }).calm 0 255 = false ∧
    (member .paired id).twn.healthAt + 100000 ≤ (member .paired id).usec ∧ live.usec < live.twn.healthAt + 100000 := by decide

/-- A sampled item, its run again and a third run, with records of row 0 that agree or do not, in a window with a unit left. -/
def runOf (e : Nat) (n : Option Nat) (v : W32) : WorkItem :=
  { item6 with istate := .held, engine := some e, sampled := n.isNone, rerunOf := n, heldRecs := [⟨0, 0, 0x3F800000, [v]⟩] }
def checking (its : List WorkItem) : State :=
  sets (inAe { stream6 with items := its, taken := 1, cstate := .running } id) [(Fd.TWN_CLASS_LIMIT 4, 0)]

theorem witness_CrossChecks : let s := checking [runOf 1 none 0, runOf 79 (some 0) 0x40000000, runOf 2 (some 0) 0]
    (s.stream 6).map (fun x => (decide (x.taken ≠ x.scanned.length), x.items.length)) = some (true, 3) ∧
    firstOdd (s.fd Fd.TWN_XCHK_TOL_LOG2) (runOf 1 none 0).heldRecs (runOf 79 (some 0) 0).heldRecs = none ∧
    firstOdd (s.fd Fd.TWN_XCHK_TOL_LOG2) (runOf 1 none 0).heldRecs (runOf 79 (some 0) 0x40000000).heldRecs = some 0 ∧
    (runOf 79 (some 0) 0).engine = some 79 ∧ (runOf 1 none 0).sampled = true ∧ s.fd (Fd.TWN_CLASS_LIMIT 4) = 0 ∧ s.flag (Fd.AE_STATUS_QUARANTINED 79) = false := by decide


/-! ## Mirrors and custody -/

/-- At the twin: sequence 5 of node 1 with a page, tadpole or sealed, at an epoch of 5. -/
def twinHandle : Nat := 2 ^ 40 + 5 * 2 ^ 16 + 1
def twinSeq (len : Nat) : Seq := { seq5 [(ptKey 0 0 0, 9)] len 0 with handle := twinHandle }
def atTwin (x : Desc) (len : Nat) : State :=
  { room (member .paired id) with pgt := { live.pgt with seqs := [(2 ^ 24 + 5, twinSeq len)], descs := [(9, { x with ofTwin := true })] } }
def mirrorMsg (epoch mop flags layer pos tag : Nat) (body : List Byte) : List Byte :=
  le 4 epoch ++ le 1 mop ++ le 1 flags ++ zeros 2 ++ le 8 twinHandle ++ le 4 layer ++ le 4 pos ++ le 8 tag ++ body
def appendBody (start n : Nat) : List Byte := le 8 twinHandle ++ le 4 start ++ le 2 n ++ le 2 0 ++ zeros n
def mirror1 : List Byte := mirrorMsg 5 1 1 0 0 7 (appendBody 4 11)

theorem witness_Mirrors : (atTwin (tadpole 3) 4).sends 3 ∧ 3 = (atTwin (tadpole 3) 4).twinConduit ∧ (atTwin (tadpole 3) 4).role = .paired ∧
    (atTwin (tadpole 3) 4).twn.silentAt = none ∧ lat mirror1 0 4 = (atTwin (tadpole 3) 4).twn.epoch ∧ lat mirror1 8 8 = twinHandle ∧
    (atTwin (tadpole 3) 4).twinKeyOf twinHandle = some (2 ^ 24 + 5) ∧ (atTwin (tadpole 3) 4).seq (2 ^ 24 + 5) = some (twinSeq 4) ∧ (twinSeq 4).sstate = .active ∧
    lat mirror1 4 1 = 1 ∧ appendCheck (twinSeq 4) (mirror1.drop 32) = none ∧ clsGroups (twinSeq 4).def1 = 1 ∧ 4 % 16 + 11 < 16 ∧
    tfind (twinSeq 4).pt (ptKey 0 0 (4 / 16)) = some 9 ∧ (tadpole 3).loc.frame * 2048 + contentSize (twinSeq 4).def0 ≤ hbmBytes ∧
    (((twinSeq 4).layerLen.set 0 15)[keyLayer (ptKey 0 0 0)]?).getD 0 < 16 * (keyPos (ptKey 0 0 0) + 1) ∧
    appendCheck (twinSeq 4) ((mirrorMsg 5 1 0 0 0 7 (appendBody 3 1)).drop 32) = some stALREADY ∧ page.state ≠ .tadpole ∧
    ((atTwin page 16).desc 9).map (·.state) = some .sealed ∧ trT (truncTo 0) % 16 = 0 ∧ (twinSeq 4).cold = none ∧ bits (lat mirror1 5 1) 0 0 = 1 := by decide

theorem witness_Mirrors_page : let p := mirrorMsg 5 6 0 0 0 (2 ^ 63 + 15) (zeros 16)
    2 ^ 63 ≤ lat p 24 8 ∧ (p.drop 32).length = contentSize (twinSeq 4).def0 ∧ lat p 16 4 % 2 ^ 8 < clsLayers (twinSeq 4).def1 ∧
    bits (lat p 16 4) 13 8 < clsGroups (twinSeq 4).def1 ∧ (twinSeq 4).closed = false ∧ min 16 (lat p 24 8 % 2 ^ 63) = 15 ∧
    (tadpole 3).loc.frame * 2048 + (p.drop 32).length ≤ hbmBytes := by decide

theorem witness_Mirrors_new : let s := room (member .paired id)
    lat (zeros 24) 0 8 = 0 ∧ clsValid (s.def0 0) = true ∧ clsValid ((member .paired id).def0 0) = false ∧ hHome twinHandle = s.node ^^^ 1 ∧
    tfind s.cust.records (twinKey (hIndex twinHandle)) = none ∧ (atTwin page 16).fetched twinHandle 0 0 0 ≠ none ∧ (atTwin page 16).fetched twinHandle 0 0 1 = none ∧
    80 ≤ (zeros 80).length ∧ s.twinKeyOf twinHandle = none ∧ s.seq (s.newTwinKey twinHandle) = none ∧ 4 ≠ s.twinConduit ∧ s.sends 4 ∧
    lat (mirrorMsg 4 3 0 0 0 7 []) 0 4 < s.twn.epoch ∧ (member .solo id).role = .solo ∧ (member .solo id).sends 3 ∧ s.role ≠ .down := by decide

/-- No frame is found where one range takes tier 2 whole. -/
theorem none_found (s : State) (ok : Nat → Bool) (hb : s.tier2Base / 2048 = 8388608) (hu : s.tier.hbmUsed = [(8388608, 251658240)]) :
    s.findHbm 2 2 ok = none := by
  have hh : hbmBytes / 2048 = 260046848 := by decide
  simp only [State.findHbm, Option.or_eq_none_iff, List.findSome?_eq_none_iff, List.find?_eq_none, Bool.and_eq_true, decide_eq_true_eq, hb, hh, hu,
    List.all_cons, List.all_nil, Bool.or_eq_true]
  exact ⟨fun _ _ x _ => by omega, fun _ _ x _ => by omega⟩

def fullTier : State := let s := room (member .paired id)
  { s with tier := { s.tier with hbmUsed := [(8388608, 251658240)] } }

/-- Room for a page table at the twin, and none. -/
theorem witness_Mirrors_room : ((room (member .paired id)).takeHbmRaw 2 2 (fun _ => true)).isSome = true ∧
    fullTier.takeHbmRaw 2 2 (fun _ => true) = none ∧ fullTier.tablesOf (fullTier.newTwinKey twinHandle) = [] ∧ clsValid (fullTier.def0 0) = true ∧
    (atTwin (tadpole 3) 4).pgt.seqChunks = [] := by
  refine ⟨?_, ?_, by decide, by decide, by decide⟩
  · obtain ⟨a, h⟩ := takes_frame (room (member .paired id)) (by decide) (fun c => by simp only [State.chanUsable]; rfl) rfl (.inl rfl)
    rw [h]; rfl
  · rw [State.takeHbmRaw, none_found _ _ (by decide) rfl, none_found _ _ (by decide) rfl]; rfl

/-- At the home: sequence 5 mirrors page 9, which is there, or lost and asked for. -/
def atHome (x : Desc) : State :=
  let s := { member .paired id with pgt := (holding (seq5 [(ptKey 0 0 0, 9)] 16 0) [(9, x)]).pgt }
  { s with tier := { s.tier with restores := [⟨9, true⟩] } }
def ackMsg (kind st n tag : Nat) (tail : List Byte) : List Byte :=
  le 4 5 ++ le 4 7 ++ le 1 st ++ le 1 kind ++ le 2 n ++ zeros 4 ++ le 8 (5 * 2 ^ 16 + 1) ++ le 8 tag ++ tail
def entryOf (crc : Nat) : List Byte := zeros 8 ++ le 4 crc
def broken9 : Desc := { page9 with state := .poisoned, wasSealed := true }

theorem witness_MirrorAcks : (atHome page9).quiet ∧ lat (ackMsg 0 0 1 0 (entryOf page9.crc.toNat)) 0 4 = (atHome page9).twn.epoch ∧
    (atHome page9).ownKey (lat (ackMsg 0 0 1 0 (entryOf page9.crc.toNat)) 16 8) = some 5 ∧ lat (ackMsg 0 0 1 0 []) 9 1 = 0 ∧ lat (ackMsg 1 0 1 0 []) 9 1 = 1 ∧
    lat (ackMsg 2 0 0 9 []) 9 1 = 2 ∧ ackEntries (ackMsg 0 0 1 0 (entryOf page9.crc.toNat)) = [(ptKey 0 0 0, (atHome page9).homeCrc page9)] ∧
    (atHome broken9).desc (lat (ackMsg 2 0 0 9 []) 24 8) = some broken9 ∧ (atHome broken9).tier.restores.any (fun r => r.desc == 9) = true ∧
    (atHome broken9).ae.streams = [] ∧ lat (ackMsg 2 stLOST 0 9 []) 8 1 ≠ stOK ∧ (zeros 16).length = contentSize broken9.def0 ∧
    crc32c (zeros 16) = broken9.crc.toNat ∧ broken9.loc.tier = .hbm ∧ (atHome broken9).chanUsable (chanOf (broken9.loc.frame * 2048)) = true := by decide

def orphaned (due : Nat) : State := { closed5 with mtime := 10 ^ 6, twn := { closed5.twn with orphans := [(5, due)] } }

theorem witness_Orphans : (orphaned 1).quiet ∧ (orphaned 1).alone ∧ (orphaned 1).twn.orphans.find? (fun o => o.1 == 5) = some (5, 1) ∧ 1 ≤ (orphaned 1).usec ∧
    (orphaned (10 ^ 9)).usec < 10 ^ 9 ∧ (orphaned 1).pgt.seqChunks = [] ∧ ((orphaned 1).seq 5).map (fun x => (x.cold, hHome x.handle)) = some (none, (orphaned 1).node) := by decide

/-- At the home, mailbox 1 open or not, the record of sequence 5 as some message finds it; conduit 3 leads to the holder, node 2. -/
def record5 (st : CustodyState) (holder target epoch : Nat) (due : Nat) : CustodyRec := ⟨5 * 2 ^ 16 + 1, epoch, holder, st, target, due, 0, 0, 0⟩
def keeping (r : CustodyRec) : State := { mailed with mtime := 10 ^ 9, cust := { live.cust with records := [(5, r)] } }
def custMsg (kind timeout epoch source target : Nat) : List Byte := custPayload kind timeout epoch (5 * 2 ^ 16 + 1) source target 1 []

theorem witness_Custody : (keeping (record5 .held 2 0 4 0)).quiet ∧ (keeping (record5 .held 2 0 4 0)).alone ∧ (keeping (record5 .held 2 0 4 0)).cust.syncs = [] ∧
    (keeping (record5 .held 2 0 4 0)).sends 3 ∧ (custMsg 1 60000 4 2 8).length = 32 ∧ (on3 live).mbRoom 1 = false ∧ (keeping (record5 .held 2 0 4 0)).mbRoom 1 = true ∧
    ((keeping (record5 .held 2 0 4 0)).rxRoom 32).isSome = true ∧ (keeping (record5 .held 2 0 4 0)).cust.transfers = [] ∧
    (keeping (record5 .held 2 0 4 0)).recKey (cHandle (custMsg 1 60000 4 2 8)) = some 5 ∧ cKind (custMsg 1 60000 4 2 8) = 1 ∧
    cSource (custMsg 1 60000 4 2 8) = (keeping (record5 .held 2 0 4 0)).peerOf 3 ∧ (keeping (record5 .held 2 0 4 0)).isSelf 2 = false ∧
    lat (custMsg 1 60000 4 2 8) 2 2 = 60000 ∧ cEpoch (custMsg 1 60000 4 2 8) = 4 ∧ cEpoch (custMsg 1 60000 3 2 8) ≠ 4 ∧
    cSource (custMsg 1 60000 4 8 2) ≠ (keeping (record5 .held 2 0 4 0)).peerOf 3 ∧ cSource (custMsg 1 60000 4 8 2) ≠ (keeping (record5 .held 2 0 4 0)).peerOf 3 ^^^ 1 := by decide

theorem witness_Custody_transfer : let s := keeping (record5 .transfer 0 2 5 (10 ^ 9))
    let late := keeping (record5 .transfer 0 2 5 1)
    s.due32 (10 ^ 9) = false ∧ s.isSelf 0 = true ∧ cKind (custMsg 3 0 5 0 2) = 3 ∧ cTarget (custMsg 3 0 5 0 2) = s.peerOf 3 ∧ cEpoch (custMsg 3 0 5 0 2) = 5 ∧
    s.isSelf 2 = false ∧ s.conduitTo 2 (hPart (5 * 2 ^ 16 + 1)) = some 3 ∧ late.due32 1 = true ∧ cKind (custMsg 6 0 5 2 0) = 6 ∧ cSource (custMsg 6 0 5 2 0) = s.peerOf 3 ∧
    cKind (custMsg 7 0 5 2 0) = 7 ∧ cKind (custMsg 9 0 5 2 0) = 9 ∧ (tfind (keeping (record5 .held 2 0 4 0)).cust.records 5).map (·.holder) = some 2 ∧
    tfind mailed.cust.records 5 = none ∧ mailed.recKey (5 * 2 ^ 16 + 1) = some 5 ∧ late.cust.transfers = [] := by decide

/-- HANDOVER of a sequence of node 2 to this node; SYNC of a record; a transfer in its last phase. -/
def handover : List Byte := custPayload 2 0 5 (2 ^ 41 + 5 * 2 ^ 16 + 1) 2 0 1
  (zeros 16 ++ le 4 6 ++ le 2 1 ++ zeros 2 ++ le 8 9 ++ le 4 4096 ++ zeros 4 ++ le 8 0 ++ le 2 511)
def moving (ph : TransferPhase) (h seq : Nat) (x : Seq) : State :=
  { mailed with
    mtime := 10 ^ 9
    pgt := { live.pgt with seqs := [(seq, { x with handle := h })] }
    cust := { live.cust with transfers := [⟨h, seq, 5, 2, 0, 2, 1, ph, 6, [511], [], [], [], 9, 4096, 0, def8, 0, 0⟩] } }

/-- The receiver has the chunk of every index. -/
def receiver : State := room mailed
def handed (s : State) : Seq := newSeq (cHandle handover) 0 (lat (handover.drop 32) 0 8) (lat (handover.drop 32) 8 8) 0 s.usec true

theorem witness_Custody_handover : let s := receiver
    let b := handover.drop 32
    cKind handover = 2 ∧ cSource handover = s.peerOf 3 ∧ b.length = 48 + 2 * lat b 20 2 ∧ lat b 20 2 = 1 ∧ s.isSelf (cTarget handover) = true ∧
    tfind s.cust.inbound (cHandle handover) = none ∧ s.isSelf (hHome (cHandle handover)) = false ∧
    (∃ i, s.seqRoom (hPart (cHandle handover)) = (0, i) ∧ (s.takeSeqChunks ((handed s).chunks i)).isSome = true) := by
  refine ⟨by decide, by decide, by decide, by decide, by decide, by decide, by decide, ?_⟩
  obtain ⟨i, hi, hl⟩ := pick_free receiver (by decide) (by decide) (by decide)
  refine ⟨i, hi, ?_⟩
  have hc : (handed receiver).chunks i = [i / 32768] := by
    rw [Seq.chunks, if_neg (by omega), show clsPrefix (handed receiver).def1 = false by decide]; rfl
  have ht : (tfind receiver.pgt.seqChunks (i / 32768)).isSome = true := chunk_there _ (by omega)
  simp [State.takeSeqChunks, hc, ht]

theorem witness_Custody_end : let h := 2 ^ 41 + 5 * 2 ^ 16 + 1
    (moving .accepted h 7 (seq5 [] 0 0)).seq 7 = some { seq5 [] 0 0 with handle := h } ∧ hHome h = (moving .accepted h 7 (seq5 [] 0 0)).peerOf 3 ∧
    cKind (custPayload 4 0 5 h 2 0 1 []) = 4 ∧ cEpoch (custPayload 4 0 5 h 2 0 1 []) = 5 ∧ cKind (custPayload 5 0 6 h 2 0 1 []) = 5 ∧
    serialLt 32 5 (cEpoch (custPayload 5 0 6 h 2 0 1 [])) = true ∧ ((moving .handed h 7 (seq5 [] 0 0)).cust.transfers.map (·.phase)) = [.handed] ∧
    0 + 1000 ≤ (moving .handed h 7 (seq5 [] 0 0)).usec ∧ (moving .handed h 7 (seq5 [] 0 0)).isSelf 2 = false ∧
    (moving .handed h 7 (seq5 [] 0 0)).conduitTo 2 0 = some 3 ∧ cKind (custMsg 10 0 0 0 0) = 10 ∧
    (sets four [(Fd.EVC_MB_CFG_ENABLE 1, 1), (Fd.TRL_RXBUF_MIB, 1)]).takes 3 (cHandle (custMsg 10 0 0 0 0)) 5 (seq5 [(ptKey 0 0 0, 9)] 4 0) := by decide

/-- A SYNC of the peer about a sequence of this node, on the twin conduit. -/
def syncing : State := sets { on3 live with trl := { live.trl with conduits := [(3, { open_ with peerNode := 1 })] } }
  [(Fd.EVC_MB_CFG_ENABLE 1, 1), (Fd.TRL_RXBUF_MIB, 1), (Fd.TWN_CTL_CONDUIT, 3)]
def syncMsg (st : Nat) : List Byte := custPayload 8 0 0 0 0 0 0 (le 8 (5 * 2 ^ 16 + 1) ++ le 4 5 ++ le 4 (2 + st * 2 ^ 20) ++ zeros 16)

theorem witness_Custody_sync : cKind (syncMsg 0) = 8 ∧ syncing.peerOf 3 = syncing.node ^^^ 1 ∧ 3 = syncing.twinConduit ∧ (syncMsg 0).length = 64 ∧
    hHome (custRecOf ((syncMsg 0).drop 32)).handle = syncing.node ∧ (custRecOf ((syncMsg 0).drop 32)).cstate ≠ .freeing ∧
    (custRecOf ((syncMsg 2).drop 32)).cstate = .freeing ∧ syncing.mbRoom 1 = true ∧ (syncing.rxRoom 64).isSome = true ∧ syncing.alone ∧ syncing.sends 3 := by decide

/-- A blob that LOAD accepts: a key of zeros sealed under the storage root key. -/
def blob : List Byte := zeros 12 ++ (gcmSeal storageRootKey (zeros 12) (zeros 4) (zeros 32) ++ zeros 4)

/-- It lies at address 0, where SEC_PKEY_ADDR points. -/
def blobbed : State := live.hbmWrite 0 blob

theorem sealed_length : (gcmSeal storageRootKey (zeros 12) (zeros 4) (zeros 32)).length = 48 := by
  rw [gcmSeal_length storageRootKey _ _ _ (le_length 32 _) rfl]; rfl

theorem witness_KeysOfPartitionsAndConduits_load : blobbed.inReset = false ∧ bits 8 3 2 = 2 ∧
    (let b := blobbed.hbmRead (blobbed.fd Fd.SEC_PKEY_ADDR_ADDR) 64
     gcmOpen storageRootKey (slice b 0 12) (slice b 60 4) (slice b 12 48) = some (zeros 32)) := by
  refine ⟨rfl, by decide, ?_⟩
  have hl : blob.length = 64 := by simp only [blob, List.length_append, sealed_length]; rfl
  have hb : blobbed.hbmRead (blobbed.fd Fd.SEC_PKEY_ADDR_ADDR) 64 = blob := by
    have := State.hbmRead_hbmWrite live 0 blob (by rw [hl]; decide)
    rw [hl] at this
    exact this
  have h0 : slice blob 0 12 = zeros 12 := by
    rw [slice, blob, List.drop_zero, List.take_left' (show (zeros 12).length = 12 from rfl)]; rfl
  have h12 : slice blob 12 48 = gcmSeal storageRootKey (zeros 12) (zeros 4) (zeros 32) := by
    simp only [slice, blob, List.drop_left' (show (zeros 12).length = 12 from rfl), List.take_left' sealed_length,
      sealed_length, Nat.sub_self, List.replicate_zero, List.append_nil]
  have h60 : slice blob 60 4 = zeros 4 := by
    have h : (zeros 12 ++ gcmSeal storageRootKey (zeros 12) (zeros 4) (zeros 32)).length = 60 := by
      rw [List.length_append, sealed_length]; rfl
    rw [slice, blob, ← List.append_assoc, List.drop_left' h]; rfl
  simp only [hb, h0, h12, h60]
  exact gcmOpen_gcmSeal storageRootKey _ _ _ (le_length 32 _) rfl

/-! A configuration image that every check of R417 accepts: its key and signature were made outside the package. -/

def imgModulus : Nat :=
  0xca9738fc02ca10ffcf9b562b420cbbac78c3d0072da9b0b45b7e1322715c44eb79b24bde7f80004538f4ef4b49b656ce20e33d651450549a38837d0710aae2268f9c9dc6d4f23e777b9cc6e4c9a7937a59282b18d6f1bb9d89c0d5b64ef239b2dd9151aefbdc91d1d1fc0181a6de1163d5390457e9b5206138da1168b07b0834d736cbe3a056ea1fcbc5b9bf25bf1ad7cc60978f6ce950bdc3c64c50f8511851afcccc6a1211436e84cfe2fe07040aa9bc2837ceff0dbf6b9ad8deb145b53b8ac7f9f7d3c9323500a6f2ac82cc58276363218ad58817072ad6bb7a334bc44d868967435833c124426c3ba13c69a67dff1414b45e4a7f10ce3233df1c5e95c323a93dd33a698e1caa1b9c3a288e9d018ebefda21cb94e5b180fff517fd7b2c72c814b1923729565064b12fd815e28ceb538427d1afee692e1ccf1223bacf14a6954168d1a7a886e35f88442120768aae8327dbe0170fa2199576abe9491451f5b4e2506c651d3b71818c4ad55a0a5105fb5ffc1acb684f1108f5c20e9943550a3

def imgKey : List Byte := be 384 imgModulus ++ be 4 65537

def imgSig : List Byte := be 384
  0x674f7d04557ed0bedd91ff1adb8ba35121f343e6007a338b2d7ceddbb078d0357d0c321949f3b4df6d21775f0acfa4fcf14db73c2301f7931f8aadd5c9c95535e983674b2c6b0383b8e75e05f371da6ccf5ab3143b7b55e2ceda1c2216cdb1c0e947ffe6d4d121b5f8f4de07c8cd1765b8fc19caaa5607cc56cd9c5b082e6e11211f89811d15686b44395c8b5489826c5a26af6ad8038a6ec2fe842d0cc4a25f341248ad2b9180a2a5e690fcbd526376e3da8f3b7aae1998ebff2e9bc11ee6f495d5709d146debdb289fef4c7f498b93f3f71f85e02cdc12aadb1b5f6ff8c882eaca0fa10b28013ff91b467f3964521cde19cd895dc263515fe763a2260cf46ed39f097410d47d61cc94cc2a400efa61b93961fa8bdf4a726e8f7701700736ffea107b1449375d1ef915371b2844c45b0939bda675296abc161d8abaf593a85565017b3b217b4dc1071e97901c19cee02b8221689d0d6dd8ff49fc6edb68dd3742769ca901daf1817170b63e158b215dd25e46b361afbababd63b35eab2e8e80

/-- A record of Table 19-6. -/
def mkRec (ty dest : Nat) (p : List Byte) : List Byte := le 2 ty ++ zeros 2 ++ le 4 p.length ++ le 8 dest ++ p

def geckoWords : List Byte := le 4 0xFF ++ le 4 0xFFFFFFFF ++ zeros 8 ++ zeros 4096

def imgBody : List Byte :=
  mkRec 1 0 (le 16 8) ++ mkRec 2 0 (le 2 0 ++ le 2 0x102 ++ le 2 1600 ++ le 2 8 ++ zeros 72) ++ mkRec 3 0 (le 8 0 ++ le 4 7 ++ le 4 3 ++ zeros 48) ++
  mkRec 0x20 0x4000000 (zeros 16) ++ mkRec 0x22 0x4001000 (zeros 16) ++ mkRec 0x30 0 geckoWords ++ mkRec 0xFFFF 0 []

def imgHead : List Byte :=
  imgMagic ++ le 2 1 ++ le 2 0x0816 ++ le 4 0 ++ le 4 5440 ++ le 4 7 ++ zeros 12 ++ imgKey ++ zeros 28

def goodImage : List Byte := imgHead ++ imgSig ++ zeros 192 ++ imgBody

/-- Its records. -/
def goodRecs : List ImgRec :=
  [⟨1, false, 0, le 16 8⟩, ⟨2, false, 0, le 2 0 ++ le 2 0x102 ++ le 2 1600 ++ le 2 8 ++ zeros 72⟩,
   ⟨3, false, 0, le 8 0 ++ le 4 7 ++ le 4 3 ++ zeros 48⟩, ⟨0x20, false, 0x4000000, zeros 16⟩,
   ⟨0x22, false, 0x4001000, zeros 16⟩, ⟨0x30, false, 0, geckoWords⟩, ⟨0xFFFF, false, 0, []⟩]

theorem goodImage_records : imgRecords (lat goodImage 16 4) (goodImage.drop 1024) = some goodRecs := by decide +kernel

theorem goodImage_header : goodImage.length = 5440 ∧ slice goodImage 0 5440 = goodImage ∧ lat (slice goodImage 0 1024) 12 4 = 5440 ∧
    (slice goodImage 0 1024).take 4 = imgMagic ∧ imgHeaderOk (slice goodImage 0 1024) 5440 = true ∧
    slice goodImage 32 388 = imgKey ∧ lat goodImage 8 4 = 0 := by decide +kernel

/-- The digest of the signed message, and the values of RSASSA-PSS, each from the standard's definition. -/
def imgDigest : List Byte := be 32 0xd9910c67ed664121025b3ceccebd6b1caf256e2634ba976123ebf98645176a61

def imgEm : Nat :=
  0x2ce50f732e3983b415893b99303d07985e3df345e8831258fbcdb400d31805bd264fb09eb0d30df6fdb7d755c327c83fea5fd99dcea6905c7797cccf644684efb57a2fe689a22c5f924c066592d51a22d419ea2c34bad161a6d139f3a04aecd8ce2e5fd74d15fd5a97caa1206a2a0df6b9860cd4cdd49408eb3632a492d183abc2d2d34e7a6edeb1e2ab267f0491d5503d7d971db607db52065b977a99c9dcb39fb79566b67a1d859cf9dfc622cb09990712cb0ea96155272a139139c6b3cccc94e09b26b22b6aec50851c42c58d695e31bd8c3912984196a94cb07b6c4aee8ea6b7ab42a551832e7655fc031104bf2f383f1cedfaa37471c1dcf8b3be285b1d62f0396c2a51f73202177f5b94c4c5c33554aa0259b27505ec1b07080d316f1c440ec36e22e76186d3b8b236f1d28274b22f1d2a9325420687526ea23e3aa07b854f6be763ccb0ba79d4730228661accc0a8d31a09cdffcee75409c44b701f72b6da9d46bc267253809837846873db9cea0ce6cf9f092995d2a7f43c07f7a5bc

def imgHash : List Byte := be 32 0x72b6da9d46bc267253809837846873db9cea0ce6cf9f092995d2a7f43c07f7a5

def imgMask : List Byte := be 352
  0x2ce50f732e3983b415893b99303d07985e3df345e8831258fbcdb400d31805bd264fb09eb0d30df6fdb7d755c327c83fea5fd99dcea6905c7797cccf644684efb57a2fe689a22c5f924c066592d51a22d419ea2c34bad161a6d139f3a04aecd8ce2e5fd74d15fd5a97caa1206a2a0df6b9860cd4cdd49408eb3632a492d183abc2d2d34e7a6edeb1e2ab267f0491d5503d7d971db607db52065b977a99c9dcb39fb79566b67a1d859cf9dfc622cb09990712cb0ea96155272a139139c6b3cccc94e09b26b22b6aec50851c42c58d695e31bd8c3912984196a94cb07b6c4aee8ea6b7ab42a551832e7655fc031104bf2f383f1cedfaa37471c1dcf8b3be285b1d62f0396c2a51f73202177f5b94c4c5c33554aa0259b27505ec1b07080d316f1c440ec36e22e76186d3b8b236f1d28274b22f1d2a9325420687526ea23e3aa17b844d68e366cab7b270de780e256815dcd1bac00e1cdbe8d6fe4e12d8566e000c

/-- Its signed message, in the blocks of SHA-256. -/
def goodBlocks : List (List Byte) :=
  [be 64 0x544c464301001608000000004015000007000000000000000000000000000000ca9738fc02ca10ffcf9b562b420cbbac78c3d0072da9b0b45b7e1322715c44eb] ++
  [be 64 0x79b24bde7f80004538f4ef4b49b656ce20e33d651450549a38837d0710aae2268f9c9dc6d4f23e777b9cc6e4c9a7937a59282b18d6f1bb9d89c0d5b64ef239b2] ++
  [be 64 0xdd9151aefbdc91d1d1fc0181a6de1163d5390457e9b5206138da1168b07b0834d736cbe3a056ea1fcbc5b9bf25bf1ad7cc60978f6ce950bdc3c64c50f8511851] ++
  [be 64 0xafcccc6a1211436e84cfe2fe07040aa9bc2837ceff0dbf6b9ad8deb145b53b8ac7f9f7d3c9323500a6f2ac82cc58276363218ad58817072ad6bb7a334bc44d86] ++
  [be 64 0x8967435833c124426c3ba13c69a67dff1414b45e4a7f10ce3233df1c5e95c323a93dd33a698e1caa1b9c3a288e9d018ebefda21cb94e5b180fff517fd7b2c72c] ++
  [be 64 0x814b1923729565064b12fd815e28ceb538427d1afee692e1ccf1223bacf14a6954168d1a7a886e35f88442120768aae8327dbe0170fa2199576abe9491451f5b] ++
  [be 64 0x4e2506c651d3b71818c4ad55a0a5105fb5ffc1acb684f1108f5c20e9943550a30001000100000000000000000000000000000000000000000000000000000000] ++
  List.replicate 3 (zeros 64) ++
  [be 64 0x1000000100000000000000000000000080000000000000000000000000000000200000050000000000000000000000000000201400608000000000000000000] ++
  List.replicate 1 (zeros 64) ++
  [be 64 0x3000000400000000000000000000000000000000000000007000000030000000000000000000000000000000000000000000000000000000000000000000000] ++
  [be 64 0x200000001000000000000004000000000000000000000000000000000000000022000000100000000010000400000000] ++
  [be 64 0x30000000101000000000000000000000ff000000ffffffff000000000000000000000000000000000000000000000000] ++
  List.replicate 63 (zeros 64) ++
  [be 64 0xffff0000000000000000000000000000] ++
  [be 64 0x80000000000000000000000000000000000000000000000000000000000000000000000000000000000000000000000000000000000000000000000000009e00]

theorem goodImage_blocks : cut 64 80 (imgMessage goodImage ++ 0x80 :: zeros 55 ++ be 8 (8 * 5056)) = goodBlocks := by
  decide +kernel

theorem goodBlocks_digest : be 32 (goodBlocks.foldl shaAbsorb shaStart) = imgDigest := by
  decide +kernel

/-- The parts of the check of a signature. -/
theorem pss_parts (n e : Nat) (digest sig em h mask db : List Byte) (hem : be 384 (powMod 32 (unbe sig) e n) = em)
    (hh : slice em 351 32 = h) (hm : mgf1 h 11 0 = mask) (hdb : (match xorBytes (em.take 351) mask with
      | a :: l => BitVec.ofNat 8 (a.toNat % 128) :: l
      | [] => []) = db) (hl : sig.length = 384) (hs : unbe sig < n) (hbc : em.drop 383 = [0xBC])
    (hb : ((em[0]?).getD 0).toNat < 128) (hz : db.take 318 = zeros 318) (h1 : slice db 318 1 = [0x01])
    (hash : sha256 (zeros 8 ++ digest ++ db.drop 319) = h) : pssVerify n e digest sig = true := by
  subst hem hh hm hdb
  simp only [pssVerify, Bool.and_eq_true, beq_iff_eq, decide_eq_true_eq]
  exact ⟨⟨⟨⟨⟨⟨hl, hs⟩, hbc⟩, hb⟩, hz⟩, h1⟩, hash⟩

theorem goodImage_pow : powMod 32 (unbe imgSig) 65537 imgModulus = imgEm := by decide +kernel

theorem goodImage_mask : mgf1 imgHash 11 0 = imgMask := by decide +kernel

theorem goodImage_hash : sha256 (zeros 8 ++ imgDigest ++ be 32 0x102030405060708090a0b0c0d0e0f101112131415161718191a1b1c1d1e1f) = imgHash := by decide +kernel

theorem goodImage_db : (match xorBytes ((be 384 imgEm).take 351) imgMask with
      | a :: l => BitVec.ofNat 8 (a.toNat % 128) :: l
      | [] => []) = zeros 318 ++ [0x01] ++ be 32 0x102030405060708090a0b0c0d0e0f101112131415161718191a1b1c1d1e1f := by
  decide +kernel

theorem goodImage_pss : pssVerify imgModulus 65537 imgDigest imgSig = true :=
  pss_parts _ _ _ _ (be 384 imgEm) imgHash imgMask (zeros 318 ++ [0x01] ++ be 32 0x102030405060708090a0b0c0d0e0f101112131415161718191a1b1c1d1e1f) (by rw [goodImage_pow])
    (by decide +kernel) goodImage_mask goodImage_db (by decide +kernel) (by decide +kernel)
    (by decide +kernel) (by decide +kernel) (by decide +kernel) (by decide +kernel)
    (by rw [show (zeros 318 ++ [0x01] ++ be 32 0x102030405060708090a0b0c0d0e0f101112131415161718191a1b1c1d1e1f : List Byte).drop 319 = be 32 0x102030405060708090a0b0c0d0e0f101112131415161718191a1b1c1d1e1f by decide +kernel]; exact goodImage_hash)

theorem goodImage_digest : sha256 (imgMessage goodImage) = imgDigest := by
  have hl : (imgMessage goodImage).length = 5056 := by decide +kernel
  simp only [sha256, hl, show ceilDiv (5056 + 9) 64 = 80 by decide, show 64 * 80 - 5056 - 9 = 55 by decide]
  rw [goodImage_blocks]
  exact goodBlocks_digest

theorem goodImage_signed : pssVerify (bat goodImage 32 384) (bat goodImage 416 4) (sha256 (imgMessage goodImage)) (slice goodImage 448 384) = true := by
  have h : bat goodImage 32 384 = imgModulus ∧ bat goodImage 416 4 = 65537 ∧ slice goodImage 448 384 = imgSig := by decide +kernel
  rw [h.1, h.2.1, h.2.2, goodImage_digest]
  exact goodImage_pss

theorem goodImage_supplied (k w : Nat) (hk : k < 256) (hw : w < 1024) : goodRecs.any (fun r => r.supplies k w) = true := by
  have h0 : lat geckoWords 0 1 = 255 := by decide +kernel
  have h4 : lat geckoWords 4 4 = 4294967295 := by decide +kernel
  have h8 : lat geckoWords 8 2 = 0 := by decide +kernel
  have hl : geckoWords.length = 4112 := by decide +kernel
  have hb : ∀ j : Fin 8, bits 255 j.val j.val = 1 := by decide
  have hb2 : ∀ j : Fin 32, bits 4294967295 j.val j.val = 1 := by decide
  refine List.any_eq_true.mpr ⟨⟨0x30, false, 0, geckoWords⟩, by simp [goodRecs], ?_⟩
  simp only [ImgRec.supplies, h0, h4, h8, hl, hb ⟨k / 32, by omega⟩, hb2 ⟨k % 32, by omega⟩]
  simp only [beq_self_eq_true, Bool.true_and, Bool.and_eq_true, decide_eq_true_eq]
  omega

theorem goodImage_recordsOk : imgRecordsOk goodImage = true := by
  have h : (goodRecs.filter (·.ty == 0xFFFF)).length = 1 := by decide +kernel
  simp only [imgRecordsOk, goodImage_records, Bool.and_eq_true]
  refine ⟨⟨⟨⟨⟨by decide +kernel, by decide +kernel⟩, by decide +kernel⟩, by decide +kernel⟩, ?_⟩, by decide +kernel⟩
  refine List.all_eq_true.mpr fun k hk => List.all_eq_true.mpr fun w hw => ?_
  exact goodImage_supplied k w (by simpa using hk) (by simpa using hw)

/-- The hash of its key stands in slot 1. -/
def keyHashed : State := { live with sec := { live.sec with hashes := [(1, sha256 imgKey)] } }

theorem keyHashed_slot : keyHashed.coldReset.keySlotOf (sha256 imgKey) = some 1 := by
  have h : keyHashed.coldReset.sec.hashes = [(1, sha256 imgKey)] := rfl
  have hs : ∀ k : Fin 4, keyHashed.coldReset.slotIn Fd.SEC_FUSE_STATUS_SPOILED k.val = false ∧
      keyHashed.coldReset.slotIn Fd.SEC_FUSE_STATUS_REVOKED k.val = false := by decide +kernel
  simp only [State.keySlotOf, h]
  have h0 := hs 0
  have h1 := hs 1
  have h2 := hs 2
  have h3 := hs 3
  simp only [Fin.isValue, Fin.val_zero, Fin.val_one, Fin.val_two, show ((3 : Fin 4) : Nat) = 3 from rfl] at h0 h1 h2 h3
  simp [List.range, List.range.loop, List.filter, tfind, h1]

theorem witness_AcceptedImageStarts :
    keyHashed.coldReset.checkImage (slice goodImage) goodImage.length = .inr (1, goodImage) ∧
    imgRecords (lat goodImage 16 4) (goodImage.drop 1024) = some goodRecs ∧
    nodeRecord goodRecs = some ⟨3, false, 0, le 8 0 ++ le 4 7 ++ le 4 3 ++ zeros 48⟩ ∧ ofType goodRecs 0x10 = [] ∧
    ofType goodRecs 0x40 = [] ∧ ([] : List (Fin 256)).length ≤ 32 := by
  obtain ⟨h1, h2, h3, h4, h5, h6, h7⟩ := goodImage_header
  refine ⟨?_, goodImage_records, ?_, by decide +kernel, by decide +kernel, by decide⟩
  · have hr : keyHashed.coldReset.slotIn Fd.SEC_FUSE_STATUS_REVOKED 1 = false := by decide +kernel
    simp only [State.checkImage, h1, h3, h4, h5, h2, h6, keyHashed_slot, hr, goodImage_signed, h7, goodImage_recordsOk]
    rfl
  · have h : goodRecs.filter (·.ty == 3) = [⟨3, false, 0, le 8 0 ++ le 4 7 ++ le 4 3 ++ zeros 48⟩] := by decide +kernel
    have h0 : lat (le 8 0 ++ le 4 7 ++ le 4 3 ++ zeros 48) 0 8 = 0 := by decide +kernel
    simp only [nodeRecord, ofType, h, List.find?, h0]
    by_cases hc : (0 : Nat) == Config.serial.toNat
    · simp [hc]
    · simp [hc]

/-! Expected values from the spec's worked examples and check values, and from the standards it names. -/

def ascii : List Byte := [0x31, 0x32, 0x33, 0x34, 0x35, 0x36, 0x37, 0x38, 0x39]

/-- Table 3-8. -/
theorem test_crcs : crc32c ascii = 0xE3069283 ∧ crc64From 0 ascii = 0x6C40DF5F0B497347 := by decide +kernel

/-- The example behind R24: element byte 37 is 0xB3, scale byte 2 is 0x7C; +0.1875 and -0.1875; F8A 0x3C is 1.5. -/
theorem test_m4_row : (let row := (zeros 37 ++ [0xB3] ++ zeros 282 ++ [0, 0, 0x7C] ++ zeros 17 : List Byte)
    rowValue .m4 row 640 74 = 0x3E400000 ∧ rowValue .m4 row 640 75 = 0xBE400000) ∧ decF8A 0x3C = 0x3FC00000 := by decide +kernel

/-- The example behind R154: two F8A bytes coded with SHIFT 3. -/
theorem test_two_f8a_bytes : decodeBlock 0 (le 2 2 ++ le 2 2 ++ le 1 1 ++ le 1 3 ++ zeros 10) [0x12, 0x0D] false = (stOK, [0x1A, 0x93]) := by
  decide +kernel

/-- The example behind R102: 12,500 units in 16 ranges. -/
theorem test_ranges : rangeSizes 12500 16 = List.replicate 4 782 ++ List.replicate 12 781 := by decide +kernel

/-- FIPS 180-4: the digest of "abc". -/
theorem test_sha256 : sha256 [0x61, 0x62, 0x63] = be 32 0xba7816bf8f01cfea414140de5dae2223b00361a396177a9cb410ff61f20015ad := by
  decide +kernel

/-- FIPS 197, C.3. -/
theorem test_aes256 : aesBlock (roundKeys (be 32 0x000102030405060708090a0b0c0d0e0f101112131415161718191a1b1c1d1e1f))
    (be 16 0x00112233445566778899aabbccddeeff) = be 16 0x8ea2b7ca516745bfeafc49904b496089 := by decide +kernel

/-- The GCM test cases of a key, a nonce and a block of zeros. -/
theorem test_gcm : gcmSeal (zeros 32) (zeros 12) [] [] = be 16 0x530f8afbc74536b9a963b4f1c4cb738b ∧
    gcmSeal (zeros 32) (zeros 12) [] (zeros 16) = be 32 0xcea7403d4d606b6e074ec5d3baf39d18d0d1c8a799996bf0265b98b5d48ab919 := by
  decide +kernel

/-- R194's test vector; the four syndromes of a code word are 0. R195: one and two symbols in error are located and put right. -/
def counted : List Byte := (List.range 128).map (BitVec.ofNat 8)
theorem test_check_vector : rsCheck (zeros 127 ++ [1]) = [0x0F, 0x36, 0x78, 0x40] := by decide +kernel
theorem test_check_bytes : (List.range 4).all (fun j => syndrome (codeWord counted) j == 0) = true := by decide +kernel
theorem test_corrects_one : readWord counted [(5, 0x80)] = ⟨counted, .corrected 5, .clean⟩ := by decide +kernel
theorem test_corrects_two : readWord counted [(5, 0x80), (130, 3)] = ⟨counted, .corrected 5, .corrected 130⟩ := by decide +kernel

/-- The example of chapter 11: 128 TB with OP_PCT 12. -/
theorem test_logical_units : (with_ [(Fd.FLT_GEOM_RAW_TB, 128), (Fd.FLT_CTL_OP_PCT, 12)]).logicalUnits = 1611328125 := by decide +kernel

/-- The table gives no row bits. -/
theorem test_words : decodeTableWord 32 0x12345678 = none ∧ live.withFetchWord 32 0x12345678 = live := ⟨rfl, rfl⟩

/-- The front of the queue runs, and the rest waits. -/
theorem test_step_takes_the_front : step { live with pending := [.rngRead, .debugAttach] } = exec .rngRead { live with pending := [.debugAttach] } :=
  rfl

end Sys2Proof.Tests
end

section
/-! SUPPORT. What every command and every step do to the queue and to memory. -/

namespace Sys2Proof.Machine

/-! ## What a command can do -/

/-- Every command's meaning is an act that reset stops, but for those of the restarts and of the test port, which end in a
commit there too. -/
theorem exec_eq_act_or_commit (c : Instr) (s : State) :
    (∃ f, exec c s = act s f) ∨ ∃ u, exec c s = .next (s.commit u) := by
  cases c with
  | coldStart | warmRestart | powerfailRestart | thermtrip | coldResetAssert
  | extest | idcode | samplePreload | tapDebug | bypass => exact .inr ⟨_, rfl⟩
  | _ => exact .inl ⟨_, rfl⟩

/-- A command leaves the state as it is (R412), or ends in a commit. -/
theorem exec_next (c : Instr) (s : State) : exec c s = .next s ∨ ∃ u, exec c s = .next (s.commit u) := by
  obtain ⟨f, h⟩ | hu := exec_eq_act_or_commit c s
  · cases hr : s.inReset with
    | true => exact .inl (h.trans (act_held s f hr))
    | false => exact .inr ⟨f s, h.trans (act_next s f hr)⟩
  · exact .inr hu

/-- A command keeps memory canonical, and the queue is not its concern. -/
theorem exec_keeps_safe {c : Instr} {s t : State} (hs : s.Safe) (h : exec c s = .next t) :
    t.Safe ∧ t.pending = s.pending := by
  obtain he | ⟨u, he⟩ := exec_next c s
  · obtain rfl : s = t := Host.Outcome.next.inj (he.symm.trans h)
    exact ⟨hs, rfl⟩
  · obtain rfl : s.commit u = t := Host.Outcome.next.inj (he.symm.trans h)
    exact ⟨s.commit_safe u, rfl⟩

/-! ## A tick of the local clock -/

/-- What a stalled gecko's tick has no part in. -/
theorem State.stallTick_frame (s : State) (k : Nat) (g : Gecko) :
    (s.stallTick k g).pending = s.pending ∧ (s.stallTick k g).hbm = s.hbm ∧ (s.stallTick k g).pcache = s.pcache := by
  unfold State.stallTick
  split <;> exact ⟨rfl, rfl, rfl⟩

theorem State.foldl_stallTick_frame (l : List (Nat × Gecko)) : ∀ s : State,
    let t := l.foldl (fun s e => s.stallTick e.1 e.2) s
    t.pending = s.pending ∧ t.hbm = s.hbm ∧ t.pcache = s.pcache := by
  induction l with
  | nil => exact fun s => ⟨rfl, rfl, rfl⟩
  | cons e l ih =>
    intro s
    obtain ⟨hp, hh, hc⟩ := ih (s.stallTick e.1 e.2)
    obtain ⟨hp', hh', hc'⟩ := s.stallTick_frame e.1 e.2
    exact ⟨hp.trans hp', hh.trans hh', hc.trans hc'⟩

theorem State.tick_frame (s : State) : s.tick.pending = s.pending ∧ s.tick.hbm = s.hbm ∧ s.tick.pcache = s.pcache := by
  unfold State.tick
  split
  · exact ⟨rfl, rfl, rfl⟩
  · exact State.foldl_stallTick_frame _ { s with mtime := s.mtime + 1 }

theorem State.tick_keeps_safe {s : State} (h : s.Safe) : s.tick.Safe := by
  obtain ⟨-, hh, hc⟩ := s.tick_frame
  rwa [State.Safe, hh, hc]

/-- A step keeps memory canonical and takes the front of the queue. -/
theorem step_keeps_safe {s t : State} (hs : s.Safe) (h : step s = .next t) :
    t.Safe ∧ t.pending = s.pending.tail := by
  unfold step at h
  split at h
  next hp =>
    obtain rfl : s.tick = t := Host.Outcome.next.inj h
    exact ⟨State.tick_keeps_safe hs, by rw [s.tick_frame.1, hp]; rfl⟩
  next i rest hp =>
    obtain ⟨ht, hq⟩ := exec_keeps_safe (s := { s with pending := rest }) hs h
    exact ⟨ht, by rw [hq, hp]; rfl⟩

end Sys2Proof.Machine

end

section
/-! SUPPORT. The registers as the tables lay them out, and what a load or a store of the CSR window does. -/

namespace Sys2Proof

/-- A field depends on the bits up to its highest alone. -/
theorem bits_congr {w w' hi : Nat} (lo : Nat) (h : w % 2 ^ (hi + 1) = w' % 2 ^ (hi + 1)) : bits w hi lo = bits w' hi lo := by
  apply Nat.eq_of_testBit_eq
  intro i
  rw [testBit_bits, testBit_bits]
  by_cases hi' : i < hi + 1 - lo
  · have hb := congrArg (Nat.testBit · (lo + i)) h
    simpa [Nat.testBit_mod_two_pow, hi', show lo + i < hi + 1 by omega] using hb
  · simp [hi']

/-- What is put at bit lo, over less than 2^lo, reads back. -/
theorem bits_shiftLeft_add {x y hi lo : Nat} (hx : x < 2 ^ (hi + 1 - lo)) (hy : y < 2 ^ lo) : bits (x <<< lo + y) hi lo = x := by
  rw [bits, Nat.shiftRight_eq_div_pow, Nat.shiftLeft_eq, Nat.mul_comm, Nat.mul_add_div (by positivity), Nat.div_eq_of_lt hy,
    Nat.add_zero, Nat.mod_eq_of_lt hx]

/-- A field below bit k does not see what is put there. -/
theorem bits_shiftLeft_add_below (x y lo : Nat) {hi k : Nat} (h : hi < k) : bits (x <<< k + y) hi lo = bits y hi lo := by
  apply bits_congr
  obtain ⟨m, hm⟩ : 2 ^ (hi + 1) ∣ x <<< k := by rw [Nat.shiftLeft_eq]; exact (pow_dvd_pow 2 h).mul_left x
  rw [hm, Nat.mul_add_mod]

end Sys2Proof

namespace Sys2Proof.Machine

/-! ## Registers as the tables give them -/

/-- The rows of a register go down from bit 63 without overlap. -/
def RegDef.laidOut (r : RegDef) : Bool :=
  decide (r.fields.Pairwise (fun f g => g.hi < f.lo)) && r.fields.all (fun f => decide (f.lo ≤ f.hi ∧ f.hi < 64))

/-- A register, and each of an array, stands at a multiple of eight. -/
def RegDef.aligned (r : RegDef) : Bool := decide (8 ∣ r.base) && r.dims.all (fun d => decide (8 ∣ d.2))

/-- The tables of the blocks, and that of an address outside them all. -/
def regTables : List (List RegDef) :=
  [[], regsGlb, regsEvc, regsCvu, regsAe, regsMrg, regsPgt, regsPdir, regsTier, regsHbm ++ regsGk, regsWxp, regsFlt, regsTrl,
    regsRmo, regsSch, regsTwn, regsSec, regsMgt]

theorem regsAt_mem_regTables (a : Nat) : regsAt a ∈ regTables := by
  unfold regsAt
  repeat' refine iteInduction (motive := (· ∈ regTables)) (fun _ => ?_) (fun _ => ?_)
  all_goals simp only [regTables, List.mem_cons, eq_self, true_or, or_true]

theorem regTables_laidOut_aligned : regTables.all (fun l => l.all fun r => r.laidOut && r.aligned) = true := by decide

theorem regsAt_laidOut_aligned (a : Nat) : (regsAt a).all (fun r => r.laidOut && r.aligned) = true :=
  List.all_eq_true.mp regTables_laidOut_aligned _ (regsAt_mem_regTables a)

theorem eight_dvd_of_gridIndex : ∀ (ds : List (Nat × Nat)) (off : Nat), (∀ d ∈ ds, 8 ∣ d.2) → (gridIndex ds off).isSome = true →
    8 ∣ off := by
  intro ds
  induction ds with
  | nil =>
    intro off _ h
    obtain rfl : off = 0 := by by_contra h0; simp [gridIndex, h0] at h
    exact dvd_zero 8
  | cons d ds ih =>
    intro off hd h
    have hrest : (gridIndex ds (off % d.2)).isSome = true := by
      simp only [gridIndex] at h
      split at h
      · simpa using h
      · cases h
    exact (Nat.dvd_mod_iff (hd d List.mem_cons_self)).mp (ih _ (fun e he => hd e (List.mem_cons_of_mem _ he)) hrest)

section
variable {a : Nat} {r : RegDef} (h : regAt a = some r)
include h

theorem mem_of_regAt : r ∈ regsAt a := List.mem_of_find?_eq_some h

theorem laidOut_and_aligned_of_regAt : r.laidOut = true ∧ r.aligned = true :=
  Bool.and_eq_true_iff.mp (List.all_eq_true.mp (regsAt_laidOut_aligned a) r (mem_of_regAt h))

theorem inCsr_of_regAt : inCsr a = true := by
  by_contra hc
  have hout : a < 0x40000000 ∨ 0x48000000 ≤ a := by
    simp only [inCsr, Bool.and_eq_true, decide_eq_true_eq] at hc
    omega
  have hm := mem_of_regAt h
  rw [regsAt, if_pos hout] at hm
  exact List.not_mem_nil hm

theorem csrAligned_of_regAt : csrAligned a 8 = true := by
  obtain ⟨hb, hd⟩ := Bool.and_eq_true_iff.mp (laidOut_and_aligned_of_regAt h).2
  have hi : (r.indices? a).isSome = true := List.find?_some (p := fun r : RegDef => (r.indices? a).isSome) h
  unfold RegDef.indices? at hi
  split at hi
  · cases hi
  · have hoff := eight_dvd_of_gridIndex _ _ (by simpa using hd) hi
    have hbase : 8 ∣ r.base := of_decide_eq_true hb
    simp only [csrAligned, beq_self_eq_true, Bool.true_and, beq_iff_eq]
    omega

/-- The guard of a store or load of a register. -/
theorem access_of_regAt : (inCsr a && csrAligned a 8) = true := by
  rw [inCsr_of_regAt h, csrAligned_of_regAt h, Bool.and_self]

end

theorem exec_registerWrite {s : State} {a : W32} {r : RegDef} (v : Word) (hr : s.inReset = false) (h : regAt a.toNat = some r) :
    exec (.registerWrite a v) s = .next (s.commit (s.regStore a.toNat v.toNat)) :=
  actIf_next s _ _ hr (access_of_regAt h)

theorem exec_rcCounterRead {s : State} {a : W32} {r : RegDef} (hr : s.inReset = false) (h : regAt a.toNat = some r) :
    exec (.rcCounterRead a) s = .next (s.commit (s.load a.toNat)) :=
  actIf_next s _ _ hr (access_of_regAt h)

/-! ## What a store leaves in each field (R5, R6) -/

/-- What a store of v leaves in a field of a register that held `old`. -/
def RegField.kept (old v : Nat) (f : RegField) : Nat :=
  match f.acc with
  | .rw => f.treat.apply (bits v f.hi f.lo) % 2 ^ (f.hi + 1 - f.lo)
  | .mb => bits v f.hi f.lo
  | .w1c => bits old f.hi f.lo - (bits old f.hi f.lo &&& bits v f.hi f.lo)
  | .ro | .rc => bits old f.hi f.lo
  | .wo => 0

theorem RegField.store_eq_kept (old v : Nat) (f : RegField) : f.store old v = f.kept old v <<< f.lo := by
  unfold RegField.store RegField.kept
  cases f.acc <;> simp

theorem RegField.kept_lt (old v : Nat) (f : RegField) : f.kept old v < 2 ^ (f.hi + 1 - f.lo) := by
  unfold RegField.kept
  cases f.acc with
  | rw => exact Nat.mod_lt _ (by positivity)
  | mb => exact bits_lt _ _ _
  | w1c => exact lt_of_le_of_lt (Nat.sub_le _ _) (bits_lt _ _ _)
  | ro | rc => exact bits_lt _ _ _
  | wo => exact Nat.two_pow_pos _

/-- The fields of a list with their values, added up. -/
def placed (g : RegField → Nat) (l : List RegField) : Nat := (l.map (fun f => g f <<< f.lo)).sum

section
variable {g : RegField → Nat} (hg : ∀ f, g f < 2 ^ (f.hi + 1 - f.lo))
include hg

theorem placed_lt : ∀ (l : List RegField) (n : Nat), l.Pairwise (fun f f' => f'.hi < f.lo) → (∀ f ∈ l, f.lo ≤ f.hi ∧ f.hi < n) →
    placed g l < 2 ^ n := by
  intro l
  induction l with
  | nil => exact fun n _ _ => Nat.two_pow_pos n
  | cons f l ih =>
    intro n hp hn
    obtain ⟨hbelow, hl⟩ := List.pairwise_cons.mp hp
    obtain ⟨hlo, hhi⟩ := hn f List.mem_cons_self
    have hrest : placed g l < 2 ^ f.lo :=
      ih f.lo hl fun x hx => ⟨(hn x (List.mem_cons_of_mem _ hx)).1, hbelow x hx⟩
    calc placed g (f :: l) = g f * 2 ^ f.lo + placed g l := by simp [placed, Nat.shiftLeft_eq]
      _ < (g f + 1) * 2 ^ f.lo := by rw [Nat.succ_mul]; omega
      _ ≤ 2 ^ (f.hi + 1 - f.lo) * 2 ^ f.lo := Nat.mul_le_mul_right _ (hg f)
      _ = 2 ^ (f.hi + 1) := by rw [← pow_add]; congr 1; omega
      _ ≤ 2 ^ n := Nat.pow_le_pow_right (by norm_num) hhi

/-- Each of the fields added up reads back. -/
theorem bits_placed : ∀ (l : List RegField) (n : Nat), l.Pairwise (fun f f' => f'.hi < f.lo) → (∀ f ∈ l, f.lo ≤ f.hi ∧ f.hi < n) →
    ∀ f ∈ l, bits (placed g l) f.hi f.lo = g f := by
  intro l
  induction l with
  | nil => exact fun _ _ _ f hf => absurd hf List.not_mem_nil
  | cons f l ih =>
    intro n hp hn x hx
    obtain ⟨hbelow, hl⟩ := List.pairwise_cons.mp hp
    have hn' : ∀ y ∈ l, y.lo ≤ y.hi ∧ y.hi < f.lo := fun y hy => ⟨(hn y (List.mem_cons_of_mem _ hy)).1, hbelow y hy⟩
    have hc : placed g (f :: l) = g f <<< f.lo + placed g l := by simp [placed]
    rw [hc]
    obtain rfl | hx := List.mem_cons.mp hx
    · exact bits_shiftLeft_add (hg x) (placed_lt hg l x.lo hl hn')
    · rw [bits_shiftLeft_add_below _ _ _ (hbelow x hx)]
      exact ih f.lo hl hn' x hx

end

theorem RegDef.store_eq_placed (r : RegDef) (old v : Nat) : r.store old v = placed (RegField.kept old v) r.fields := by
  rw [RegDef.store, placed, List.foldl_eq_foldr, List.sum]
  rw [show RegField.store old v = fun f => f.kept old v <<< f.lo from funext (RegField.store_eq_kept old v)]

theorem RegDef.bits_store {r : RegDef} (hr : r.laidOut = true) (old v : Nat) {f : RegField} (hf : f ∈ r.fields) :
    bits (r.store old v % 2 ^ 64) f.hi f.lo = f.kept old v := by
  obtain ⟨hp, hb⟩ := Bool.and_eq_true_iff.mp hr
  have hb' : ∀ f ∈ r.fields, f.lo ≤ f.hi ∧ f.hi < 64 := by simpa using hb
  rw [r.store_eq_placed, Nat.mod_eq_of_lt (placed_lt (RegField.kept_lt old v) _ 64 (of_decide_eq_true hp) hb')]
  exact bits_placed (RegField.kept_lt old v) _ 64 (of_decide_eq_true hp) hb' f hf

/-! ## Registers without an act of their own on a store -/

theorem regsAt_mrg {a : Nat} (hlo : 0x42000000 ≤ a) (hhi : a < 0x42800000) : regsAt a = regsMrg := by
  unfold regsAt
  iterate 5 rw [if_neg (by omega)]
  rw [if_pos hhi]

/-- No window register lies below PGT_CLASS_DEF0. -/
theorem State.bankOf_below (s : State) {a : Nat} (h : a < Reg.PGT_CLASS_DEF0) : s.bankOf a = 0 := by
  unfold State.bankOf
  simp only [Reg.PGT_CLASS_DEF0] at h
  split_ifs
  case neg => rfl
  all_goals
    simp only [Reg.PGT_CLASS_DEF0, Reg.PGT_CLASS_DEF1, Reg.WXP_IMG_SHAPE, Reg.WXP_IMG_STATUS, Reg.RMO_CQ_CFG0, Reg.RMO_CQ_IDX,
      Reg.RMO_CTR_VAL, Reg.RMO_CTR_CFG, Reg.SCH_SUB_C, Reg.SCH_SUB_CFG, Reg.SCH_MTR_CFG, Reg.SCH_MTR_RED, Reg.SCH_IMAP] at *
    omega

/-- A store to the MRG block. -/
theorem State.regStore_mrg (s : State) {a : Nat} (v : Nat) (h : (regAt a).isSome = true) (hlo : 0x42000000 ≤ a) (hhi : a < 0x42800000) :
    s.regStore a v = s.storeFields 0 a v := by
  unfold State.regStore State.store State.plainStore
  rw [s.bankOf_below (by unfold Reg.PGT_CLASS_DEF0; omega), if_neg (by unfold Reg.GLB_RST_CTL; omega),
    if_neg (by simp [Option.isSome_iff_ne_none.mp h])]
  iterate 4 rw [if_neg (by omega)]
  rw [if_pos hhi]

/-- The error registers on which a store has no effect but on their bits. -/
def plainErrs : List Nat :=
  [Reg.PGT_ERR, Reg.PDIR_ERR, Reg.WXP_ERR, Reg.TIER_ERR, Reg.FLT_ERR, Reg.TRL_ERR, Reg.RMO_ERR, Reg.SCH_ERR, Reg.TWN_ERR,
    Reg.SEC_ERR, Reg.MGT_ERR]

/-- A store to one of them. -/
theorem State.regStore_err (s : State) (v : Nat) : ∀ a ∈ plainErrs, s.regStore a v = s.storeFields 0 a v := by
  simp only [plainErrs, List.forall_mem_cons]
  exact ⟨rfl, rfl, rfl, rfl, rfl, rfl, rfl, rfl, rfl, rfl, rfl, fun _ h => absurd h List.not_mem_nil⟩

theorem State.storeFields_regAt (s : State) {a : Nat} {r : RegDef} (v : Nat) (h : regAt a = some r) :
    s.storeFields 0 a v = s.setReg a (r.store (s.reg a) v) := by
  simp [State.storeFields, h]

/-- No field of such a register is a mailbox index. -/
theorem acc_ne_mb_of_mrg : ∀ r ∈ regsMrg, ∀ f ∈ r.fields, f.acc ≠ .mb := by decide

theorem acc_ne_mb_of_err : ∀ a ∈ plainErrs, ∀ r ∈ regAt a, ∀ f ∈ r.fields, f.acc ≠ .mb := by decide

/-! ## The frame of an access -/

/-- What a command's own state leaves as it was, the end of the command leaves too. -/
theorem State.only_commit {s t : State} {ps : List Part} (h : s.only ps t) : s.only ps (s.commit t) := by
  refine ⟨rfl, fun p hp => ?_⟩
  have hsame := h.2 p hp
  cases p with
  | hbm => exact fun a => (s.commit_byteOf_hbm t a).trans (hsame a)
  | pcache => exact fun a => (s.commit_byteOf_pcache t a).trans (hsame a)
  | _ => exact hsame

theorem State.only_setReg (s : State) (a v : Nat) : s.only [.csr] (s.setReg a v) := by
  refine ⟨rfl, fun p hp => ?_⟩
  cases p with
  | csr => exact absurd List.mem_cons_self hp
  | hbm | pcache => exact fun _ => rfl
  | _ => rfl

theorem State.only_answer (s : State) (d : Word) (l : List Nat) :
    s.only [.rdata, .accessFault] { s with rdata := d, accessFault := l } := by
  refine ⟨rfl, fun p hp => ?_⟩
  cases p with
  | rdata | accessFault => exact absurd (by decide) hp
  | hbm | pcache => exact fun _ => rfl
  | _ => rfl

/-- An access without a fault lowers the core's line. -/
theorem State.accessFault_accessOk (s : State) (core v : Nat) : core ∉ (s.accessOk core v).accessFault := by
  simp [State.accessOk]

/-- An access the spec refuses: zero, the core's line, and nothing else. -/
theorem State.commit_accessFail (s : State) (core : Nat) :
    let t := s.commit (s.accessFail core)
    t.rdata = 0 ∧ core ∈ t.accessFault ∧ s.only [.rdata, .accessFault] t :=
  ⟨rfl, List.mem_cons_self, State.only_commit (s.only_answer _ _)⟩

/-- An access that finds no register: zero, and nothing else. -/
theorem State.commit_accessOk_zero (s : State) (core : Nat) :
    let t := s.commit (s.accessOk core 0)
    t.rdata = 0 ∧ s.only [.rdata, .accessFault] t :=
  ⟨rfl, State.only_commit (s.only_answer _ _)⟩

/-! ## Accesses of the CSR window (R4) -/

theorem csrAligned_iff (a w : Nat) : csrAligned a w = true ↔ w = 8 ∧ a % 8 = 0 := by simp [csrAligned]

theorem State.coreAccess_misaligned (s : State) (core : Nat) {a w : Nat} (st : Option Word) (errs : Errs) (hc : inCsr a = true)
    (h : ¬(w = 8 ∧ a % 8 = 0)) : s.coreAccess core a w st errs = s.accessFail core := by
  have hw : csrAligned a w = false := Bool.eq_false_iff.mpr (mt (csrAligned_iff a w).mp h)
  simp [State.coreAccess, State.csrAccess, hc, hw]

/-- An aligned access raises no fault. -/
theorem State.accessFault_coreAccess (s : State) (core : Nat) {a : Nat} (st : Option Word) (errs : Errs) (hc : inCsr a = true)
    (h : a % 8 = 0) : core ∉ (s.coreAccess core a 8 st errs).accessFault := by
  have hw : csrAligned a 8 = true := (csrAligned_iff a 8).mpr ⟨rfl, h⟩
  cases st <;> simpa [State.coreAccess, State.csrAccess, hc, hw] using State.accessFault_accessOk _ _ _

/-- Where there is no register a store is ignored. -/
theorem State.regStore_none (s : State) {a : Nat} (v : Nat) (h : regAt a = none) : s.regStore a v = s := by
  have hne : a ≠ Reg.GLB_RST_CTL := by
    rintro rfl
    exact absurd h (by decide)
  simp [State.regStore, State.store, hne, h]

/-- Where there is no register a load returns zero. -/
theorem State.load_none (s : State) {a : Nat} (h : regAt a = none) : s.load a = { s with rdata := 0 } := by
  simp [State.load, h]

theorem State.coreAccess_none (s : State) (core : Nat) {a : Nat} (st : Option Word) (errs : Errs) (hc : inCsr a = true)
    (h8 : a % 8 = 0) (h : regAt a = none) : s.coreAccess core a 8 st errs = s.accessOk core 0 := by
  have hw : csrAligned a 8 = true := (csrAligned_iff a 8).mpr ⟨rfl, h8⟩
  cases st with
  | none => simp [State.coreAccess, State.csrAccess, hc, hw, s.load_none h, State.accessOk]
  | some v => simp [State.coreAccess, State.csrAccess, hc, hw, s.regStore_none _ h]

/-! ## Loads of the selected bank -/

theorem State.reg_rdata (s : State) (d : Word) (b : Nat) : State.reg { s with rdata := d } b = s.reg b := rfl

/-- A load reads and clears in the bank the selector names; other words stay. -/
theorem State.reg_plainLoad_other (s : State) {a b : Nat} (h : b ≠ s.bankOf a * 2 ^ 32 + a) : (s.plainLoad a).reg b = s.reg b := by
  cases hr : regAt a with
  | none => simp only [State.plainLoad, hr, State.reg_rdata]
  | some r =>
    simp only [State.plainLoad, hr, State.reg_rdata]
    split
    · exact s.reg_setReg_ne _ h
    · rfl

end Sys2Proof.Machine

end

section
/-! The statements of the block's scope: the queue and memory (R8, R412, R414) and the CSR window (R4 to R6). -/

namespace Sys2Proof.Proofs.Scope
open Sys2Proof Sys2Proof.Machine

/-- Settles O2: a command ends in a commit, which sets the form of memory and puts the queue back; a tick touches neither. -/
theorem everyStepKeeps : Obligations.EveryStepKeeps := by
  intro s t ⟨hsafe, hwf⟩ hstep
  obtain ⟨ht, hq⟩ := step_keeps_safe hsafe hstep
  exact ⟨⟨ht, fun i hi => hwf i (List.mem_of_mem_tail (hq ▸ hi))⟩, hq⟩

/-- Settles O3: memory is empty, and so is the queue. -/
theorem resetKeepsInvariant : Obligations.ResetKeepsInvariant :=
  ⟨⟨⟨rfl, rfl⟩, fun _ h => absurd h List.not_mem_nil⟩, rfl⟩

/-- Settles O4: a command leaves the state as it is, or ends in a commit. -/
theorem everyCommandAnswers : Obligations.EveryCommandAnswers := by
  intro c s
  obtain h | ⟨u, h⟩ := exec_next c s
  · exact ⟨s, h⟩
  · exact ⟨s.commit u, h⟩

/-- Where reset is not held, an act ends in the commit of what it does. -/
theorem gives_act {c : Instr} {s : State} {f : State → State} {P : State → Prop} (hc : exec c s = act s f)
    (hr : s.inReset = false) (hP : P (s.commit (f s))) : c.gives s P :=
  ⟨_, hc.trans (act_next s f hr), hP⟩

/-- Settles O8: a misaligned access ends in the fault, one without a register in the answer zero, an aligned one without a
fault. -/
theorem csrAlignment : Obligations.CsrAlignment := by
  intro s core hr
  refine ⟨fun a w st hc hw => ?_, fun a w st errs hc hw8 hw => ?_, fun a st errs hc ha hn => ?_, fun a st errs hc ha => ?_⟩
  · refine gives_act rfl hr ?_
    have hb : csrAligned a.toNat w = false := Bool.eq_false_iff.mpr (mt (csrAligned_iff a.toNat w).mp hw)
    simpa only [hc, hb, Bool.not_false, Bool.and_true, if_true] using s.commit_accessFail core
  · refine gives_act rfl hr ?_
    simpa only [Nat.min_eq_left hw8, s.coreAccess_misaligned core st errs hc hw] using s.commit_accessFail core
  · refine gives_act rfl hr ?_
    simpa only [Nat.min_self, s.coreAccess_none core st errs hc ha hn] using s.commit_accessOk_zero core
  · exact gives_act rfl hr (s.accessFault_coreAccess core st errs hc ha)

/-- Settles O9: such a store sets the register to its fields' new values in their places, from which each reads back. -/
theorem registerWriteFields : Obligations.RegisterWriteFields := by
  intro s a v r hr hreg hblock
  have hstore : s.regStore a.toNat v.toNat = s.storeFields 0 a.toNat v.toNat := by
    obtain ⟨hlo, hhi⟩ | herr := hblock
    · exact s.regStore_mrg _ (Option.isSome_of_eq_some hreg) hlo hhi
    · exact s.regStore_err _ _ herr
  have hmb : ∀ f ∈ r.fields, f.acc ≠ .mb := by
    obtain ⟨hlo, hhi⟩ | herr := hblock
    · exact acc_ne_mb_of_mrg r (regsAt_mrg hlo hhi ▸ mem_of_regAt hreg)
    · exact acc_ne_mb_of_err _ herr r hreg
  have hset : s.regStore a.toNat v.toNat = s.setReg a.toNat (r.store (s.reg a.toNat) v.toNat) :=
    hstore.trans (s.storeFields_regAt _ hreg)
  refine ⟨_, exec_registerWrite v hr hreg, ?_⟩
  rw [hset]
  refine ⟨fun f hf => ?_, State.only_commit (s.only_setReg _ _), fun b hb => ?_⟩
  · rw [State.commit_reg, State.reg_setReg_same, RegDef.bits_store (laidOut_and_aligned_of_regAt hreg).1 _ _ hf, RegField.kept]
    cases hacc : f.acc with
    | mb => exact absurd hacc (hmb f hf)
    | _ => rfl
  · exact State.reg_setReg_ne _ _ (by simpa using hb)

/-- Meter 1 is selected, and meter 0 has counted one green message. -/
def meterState : State := (State.reset.setFd Fd.SCH_MTR_SEL_INDEX 1).inc Fd.SCH_MTR_GREEN_COUNT

/-- Refutes O10: SCH_MTR_GREEN is a single RC register of the window, but it shows the meter SCH_MTR_SEL names (Table 14-4). With meter 1
selected a load returns that meter's count, zero, and meter 0's count of one stays. -/
theorem not_counterReadClears : ¬ Obligations.CounterReadClears := by
  intro h
  have hreg : regAt (BitVec.ofNat 32 Reg.SCH_MTR_GREEN).toNat = some ⟨Reg.SCH_MTR_GREEN, [], [⟨63, 0, .rc, 0, .plain⟩]⟩ := by
    decide
  obtain ⟨t, ht, -, hzero, -⟩ := h meterState (BitVec.ofNat 32 Reg.SCH_MTR_GREEN) _ rfl hreg rfl rfl
  obtain rfl := Host.Outcome.next.inj ((exec_rcCounterRead rfl hreg).symm.trans ht)
  have hload : meterState.load Reg.SCH_MTR_GREEN = meterState.plainLoad Reg.SCH_MTR_GREEN := rfl
  have hbank : meterState.bankOf Reg.SCH_MTR_GREEN = 1 := by decide
  have hkept : (meterState.plainLoad Reg.SCH_MTR_GREEN).reg Reg.SCH_MTR_GREEN = meterState.reg Reg.SCH_MTR_GREEN :=
    meterState.reg_plainLoad_other (by rw [hbank]; omega)
  have hone : meterState.reg Reg.SCH_MTR_GREEN = 1 := by decide
  have haddr : (BitVec.ofNat 32 Reg.SCH_MTR_GREEN).toNat = Reg.SCH_MTR_GREEN := rfl
  rw [haddr, State.commit_reg, hload, hkept, hone] at hzero
  exact one_ne_zero hzero

end Sys2Proof.Proofs.Scope

end

section
/-! SUPPORT. The start-up from a configuration image (R415 to R422): what each stage sets, and what it leaves as it was. -/

namespace Sys2Proof.Machine

/-! ## What the stages of a start keep -/

/-- What a start has recorded stands: registers outside `ks`, the accepted image, whether start-up has stopped, and MEAS1. -/
structure State.KeepsStart (s : State) (ks : List Nat) (t : State) : Prop where
  regs : s.regsBut ks t
  accepted : t.glb.accepted = s.glb.accepted
  stopped : t.glb.stopped = s.glb.stopped
  meas1 : tfind t.sec.meas 1 = tfind s.sec.meas 1

theorem State.regsBut.fd {s t : State} {ks : List Nat} (h : s.regsBut ks t) {f : Fd} (hf : f.addr ∉ ks) : t.fd f = s.fd f := by
  rw [State.fd, State.fd, h _ hf]

theorem State.regsBut.flag {s t : State} {ks : List Nat} (h : s.regsBut ks t) {f : Fd} (hf : f.addr ∉ ks) :
    t.flag f = s.flag f := by
  rw [State.flag, State.flag, h.fd hf]

theorem State.tfind_meas_extend_same (s : State) (k : Nat) (d : List Byte) :
    tfind (s.extend k d).sec.meas k = some (sha256 (s.meas k ++ d)) := tfind_tset_same _ _ _

theorem State.tfind_meas_extend_ne (s : State) {k j : Nat} (d : List Byte) (h : j ≠ k) :
    tfind (s.extend k d).sec.meas j = tfind s.sec.meas j := tfind_tset_ne _ _ h

namespace State.KeepsStart
variable {s t u : State} {ks ls : List Nat}

theorem refl (s : State) (ks : List Nat) : s.KeepsStart ks s := ⟨fun _ _ => rfl, rfl, rfl, rfl⟩

theorem trans (h : s.KeepsStart ks t) (h' : t.KeepsStart ls u) : s.KeepsStart (ks ++ ls) u where
  regs a ha := by
    obtain ⟨hk, hl⟩ := not_or.mp (mt List.mem_append.mpr ha)
    exact (h'.regs a hl).trans (h.regs a hk)
  accepted := h'.accepted.trans h.accepted
  stopped := h'.stopped.trans h.stopped
  meas1 := h'.meas1.trans h.meas1

/-! Each update a stage is made of keeps it. -/

theorem foldl {α : Type} {f : State → α → State} (l : List α)
    (step : ∀ x ∈ l, ∀ u, s.KeepsStart ks u → s.KeepsStart ks (f u x)) : ∀ t, s.KeepsStart ks t → s.KeepsStart ks (l.foldl f t) := by
  induction l with
  | nil => exact fun _ h => h
  | cons x l ih =>
    exact fun t h => ih (fun y hy => step y (List.mem_cons_of_mem _ hy)) _ (step x List.mem_cons_self t h)

section
variable (h : s.KeepsStart ks t)
include h

theorem setReg {a : Nat} (v : Nat) (ha : a ∈ ks) : s.KeepsStart ks (t.setReg a v) where
  regs b hb := (t.reg_setReg_ne v (ne_of_mem_of_not_mem ha hb).symm).trans (h.regs b hb)
  accepted := h.accepted
  stopped := h.stopped
  meas1 := h.meas1

theorem setFd {f : Fd} (v : Nat) (hf : f.addr ∈ ks) : s.KeepsStart ks (t.setFd f v) := h.setReg _ hf

theorem onGlb {f : Glb → Glb} (ha : (f t.glb).accepted = t.glb.accepted) (hs : (f t.glb).stopped = t.glb.stopped) :
    s.KeepsStart ks (t.onGlb f) :=
  ⟨h.regs, ha.trans h.accepted, hs.trans h.stopped, h.meas1⟩

theorem report (code : Nat) : s.KeepsStart ks (t.report code) := h.onGlb rfl rfl

theorem hbmWrite (a : Nat) (l : List Byte) : s.KeepsStart ks (t.hbmWrite a l) := ⟨h.regs, h.accepted, h.stopped, h.meas1⟩

theorem setHbm (m : List Host.Cell) : s.KeepsStart ks { t with hbm := m } := ⟨h.regs, h.accepted, h.stopped, h.meas1⟩

theorem drawn : s.KeepsStart ks t.drawn := ⟨h.regs, h.accepted, h.stopped, h.meas1⟩

theorem onHb (f : HbmBlock → HbmBlock) : s.KeepsStart ks (t.onHb f) := ⟨h.regs, h.accepted, h.stopped, h.meas1⟩

theorem onFlt (f : Flt → Flt) : s.KeepsStart ks (t.onFlt f) := ⟨h.regs, h.accepted, h.stopped, h.meas1⟩

theorem extend {k : Nat} (d : List Byte) (hk : 1 ≠ k) : s.KeepsStart ks (t.extend k d) :=
  ⟨h.regs, h.accepted, h.stopped, (t.tfind_meas_extend_ne d hk).trans h.meas1⟩

/-- Where start-up stops, all else it has recorded stands. -/
theorem stopAt (code : Nat) : s.regsBut ks (t.stopAt code) ∧ (t.stopAt code).glb.accepted = s.glb.accepted ∧
    tfind (t.stopAt code).sec.meas 1 = tfind s.sec.meas 1 := ⟨h.regs, h.accepted, h.meas1⟩

end

end State.KeepsStart

@[simp] theorem State.report_fd (s : State) (code : Nat) (f : Fd) : (s.report code).fd f = s.fd f := rfl
@[simp] theorem State.stopAt_fd (s : State) (code : Nat) (f : Fd) : (s.stopAt code).fd f = s.fd f := rfl
@[simp] theorem State.extend_fd (s : State) (k : Nat) (d : List Byte) (f : Fd) : (s.extend k d).fd f = s.fd f := rfl

/-! ## The image a cold start takes (R417, R419) -/

/-- The checks of an image look at the key hashes and SEC_FUSE_STATUS alone. -/
theorem State.checkImage_congr {s t : State} (hh : t.sec.hashes = s.sec.hashes)
    (hf : t.reg Reg.SEC_FUSE_STATUS = s.reg Reg.SEC_FUSE_STATUS) (rd : Nat → Nat → List Byte) (size : Nat) :
    t.checkImage rd size = s.checkImage rd size := by
  have hspoiled : t.fd Fd.SEC_FUSE_STATUS_SPOILED = s.fd Fd.SEC_FUSE_STATUS_SPOILED := congrArg (bits · _ _) hf
  have hrevoked : t.fd Fd.SEC_FUSE_STATUS_REVOKED = s.fd Fd.SEC_FUSE_STATUS_REVOKED := congrArg (bits · _ _) hf
  have hsvn : t.fd Fd.SEC_FUSE_STATUS_SVN = s.fd Fd.SEC_FUSE_STATUS_SVN := congrArg (bits · _ _) hf
  unfold State.checkImage State.keySlotOf State.slotIn
  rw [hh, hspoiled, hrevoked, hsvn]

/-- A cold start takes an accepted image of slot A. -/
theorem State.startImage_of_slotA {s : State} {x : Nat × List Byte}
    (h : s.checkImage (slice s.glb.nor) s.glb.nor.length = .inr x) : s.startImage false = .inr x := by
  simp [State.startImage, State.norImage, h]

/-! ## The stages of a cold start -/

/-- Reset values, the board's NOR and NAND, and the cause: what a cold start begins with. -/
def State.coldEntered (s : State) (causes : Nat) (nor : List Byte) (nand : Nand) : State :=
  (s.coldReset.onGlb fun g => { g with nor := nor, nand := nand }).setFd Fd.GLB_RST_CAUSE_CAUSE causes

/-- The boot ROM runs on core 0, and the image is not yet read. -/
def State.romEntered (s : State) : State :=
  ((s.setReg Reg.GLB_CLK_STATUS (2 ^ 22 - 1)).setFd (Fd.GLB_CORE_STATUS_STATE 0) 1).report 0x00

/-- The image is accepted under slot k, and measured. -/
def State.imageTaken (s : State) (k : Nat) (img : List Byte) : State :=
  ((((s.report 0x01).report 0x02).setFd Fd.SEC_STATUS_BOOT_SLOT k).onGlb fun g => { g with accepted := true }).measureBoot k img

/-- Where in HBM core 0 enters the firmware: DEST + ENTRY of the FIRMWARE record (Table 19-6). -/
def imgEntry (rs : List ImgRec) : Nat := (((ofType rs 0x20).head?).map (fun r => r.dest + lat r.payload 0 8)).getD 0

/-- The records are loaded, and core 0 may enter the firmware; the flash layer is not yet looked at. -/
def State.firmwareReady (s : State) (rs : List ImgRec) (img : List Byte) : State :=
  ((((((rs.foldl State.pass2Record s).measureGeckos).hbmWrite 0 img).placeCert rs).setFd Fd.SEC_CTL_BOOT_DONE 1).onGlb
    fun g => { g with coreAt := tset g.coreAt 0 (2 ^ 39 + imgEntry rs) }).report 0x04

/-- A cold start with an accepted image whose NODE record is found, where enough channels train. -/
theorem State.boot_of_accepted {s : State} {failed : List Nat} {k : Nat} {img : List Byte} {rs : List ImgRec} {node : ImgRec}
    (himg : s.romEntered.startImage false = .inr (k, img)) (hrs : imgRecords (lat img 16 4) (img.drop 1024) = some rs)
    (hnode : nodeRecord rs = some node)
    (htrained : 224 ≤ (((((s.romEntered.imageTaken k img).pass1 rs node).report 0x03).train failed).hb.trained.length)) :
    s.boot false failed =
      ((((s.romEntered.imageTaken k img).pass1 rs node).report 0x03).train failed).zeroMemory.pass2 rs img := by
  unfold State.romEntered at himg
  unfold State.boot
  simp only [himg, hrs, Option.getD_some, hnode, Bool.false_eq_true, if_false]
  exact if_neg (Nat.not_lt.mpr htrained)

/-! ### The image is read and taken -/

/-- Nothing the boot ROM does before it reads the image changes what the checks look at. -/
theorem State.startImage_coldEntered {s : State} {nor : List Byte} {x : Nat × List Byte} (causes : Nat) (nand : Nand)
    (h : s.coldReset.checkImage (slice nor) nor.length = .inr x) :
    (s.coldEntered causes nor nand).romEntered.startImage false = .inr x := by
  have hf : (s.coldEntered causes nor nand).romEntered.reg Reg.SEC_FUSE_STATUS = s.coldReset.reg Reg.SEC_FUSE_STATUS := by
    rw [State.romEntered, State.report, State.onGlb_reg, State.reg_setFd_ne _ _ _ (by decide), State.reg_setReg_ne _ _ (by decide),
      State.coldEntered, State.reg_setFd_ne _ _ _ (by decide), State.onGlb_reg]
  have hh : (s.coldEntered causes nor nand).romEntered.sec.hashes = s.coldReset.sec.hashes := rfl
  exact State.startImage_of_slotA ((State.checkImage_congr hh hf (slice nor) nor.length).trans h)

theorem State.fd_bootSlot_imageTaken (s : State) (k : Nat) (img : List Byte) :
    (s.imageTaken k img).fd Fd.SEC_STATUS_BOOT_SLOT = k % 4 := by
  simp only [State.imageTaken, State.measureBoot, State.extend_fd, State.onGlb_fd]
  exact State.fd_setFd_same _ Fd.SEC_STATUS_BOOT_SLOT k (by decide)

theorem State.tfind_meas1_measureBoot (s : State) (slot : Nat) (img : List Byte) :
    tfind (s.measureBoot slot img).sec.meas 1 = some (sha256 (s.meas 1 ++ sha256 (imgMessage img))) := by
  rw [State.measureBoot, State.tfind_meas_extend_ne _ _ (by decide), State.tfind_meas_extend_same, State.meas,
    State.tfind_meas_extend_ne _ _ (by decide), State.meas]

theorem State.tfind_meas1_imageTaken {s : State} (k : Nat) (img : List Byte) (h : s.meas 1 = zeros 32) :
    tfind (s.imageTaken k img).sec.meas 1 = some (sha256 (zeros 32 ++ sha256 (imgMessage img))) := by
  rw [State.imageTaken, State.tfind_meas1_measureBoot, ← h]
  rfl

/-! ### Pass 1 (R14, R418) -/

/-- The geometry the FLASH_GEOM record declares (Table 19-6). -/
def imgGeom (rs : List ImgRec) : List Byte := (((ofType rs 0x02).head?).map (·.payload)).getD []

theorem State.pass1_of_noWrites (s : State) {rs : List ImgRec} (node : ImgRec) (hw : ofType rs 0x10 = []) :
    s.pass1 rs node = (((s.sizeMemory rs (imgGeom rs)).setFd Fd.TRL_NODE_NODE (lat node.payload 8 4)).setFd Fd.TWN_DOMAIN_DOMAIN
      (lat node.payload 12 2)).onGlb fun g => { g with geom := imgGeom rs, nodeBytes := slice node.payload 16 48 } := by
  rw [State.pass1, hw]
  rfl

theorem State.fd_ctlGib_sizeMemory {s : State} (rs : List ImgRec) (geom : List Byte) (h : s.glb.sized = false) :
    (s.sizeMemory rs geom).fd Fd.GLB_MEMCFG_CTL_GIB = imgCtlGib rs % 256 := by
  rw [State.sizeMemory, if_neg (by simp [h]), State.onGlb_fd, State.fd_setFd_other _ _ _ _ (by decide) (by decide)]
  exact State.fd_setFd_same _ Fd.GLB_MEMCFG_CTL_GIB _ (by decide)

/-- The registers of pass 1. -/
def pass1Regs : List Nat := [Reg.GLB_MEMCFG, Reg.TRL_NODE, Reg.TWN_DOMAIN]

theorem State.keepsStart_sizeMemory (s : State) (rs : List ImgRec) (geom : List Byte) :
    s.KeepsStart pass1Regs (s.sizeMemory rs geom) := by
  have h := KeepsStart.refl s pass1Regs
  unfold State.sizeMemory
  split
  · exact h
  · exact ((h.setFd _ (by decide)).setFd _ (by decide)).onGlb rfl rfl

section
variable (s : State) {rs : List ImgRec} (node : ImgRec) (hw : ofType rs 0x10 = [])
include hw

theorem State.keepsStart_pass1 : s.KeepsStart pass1Regs (s.pass1 rs node) := by
  rw [s.pass1_of_noWrites node hw]
  exact (((s.keepsStart_sizeMemory rs _).setFd _ (by decide)).setFd _ (by decide)).onGlb rfl rfl

theorem State.fd_ctlGib_pass1 (hs : s.glb.sized = false) : (s.pass1 rs node).fd Fd.GLB_MEMCFG_CTL_GIB = imgCtlGib rs % 256 := by
  rw [s.pass1_of_noWrites node hw, State.onGlb_fd, State.fd_setFd_other _ _ _ _ (by decide) (by decide),
    State.fd_setFd_other _ _ _ _ (by decide) (by decide), State.fd_ctlGib_sizeMemory _ _ hs]

theorem State.fd_node_pass1 : (s.pass1 rs node).fd Fd.TRL_NODE_NODE = lat node.payload 8 4 % 2 ^ 20 := by
  rw [s.pass1_of_noWrites node hw, State.onGlb_fd, State.fd_setFd_other _ _ _ _ (by decide) (by decide)]
  exact State.fd_setFd_same _ Fd.TRL_NODE_NODE _ (by decide)

theorem State.fd_domain_pass1 : (s.pass1 rs node).fd Fd.TWN_DOMAIN_DOMAIN = lat node.payload 12 2 % 2 ^ 10 := by
  rw [s.pass1_of_noWrites node hw, State.onGlb_fd]
  exact State.fd_setFd_same _ Fd.TWN_DOMAIN_DOMAIN _ (by decide)

end

/-! ### Training and zeroing (R199, R422) -/

/-- The registers of the stacks that training writes. -/
def trainRegs : List Nat := (List.range 8).flatMap fun i => [Reg.HBM_STATUS i, Reg.HBM_TRAIN i]

/-- The control registers of the stacks. -/
def stackCtls : List Nat := (List.range 8).map Reg.HBM_CTL

theorem State.keepsStart_train (s : State) (failed : List Nat) : s.KeepsStart trainRegs (s.train failed) := by
  unfold State.train
  refine .onHb (.foldl _ (fun i hi u hu => ?_) s (.refl s _)) _
  have hmem : ∀ a ∈ [Reg.HBM_STATUS i, Reg.HBM_TRAIN i], a ∈ trainRegs := fun a ha => List.mem_flatMap.mpr ⟨i, hi, ha⟩
  exact (hu.setFd _ (hmem _ List.mem_cons_self)).setFd _ (hmem _ (List.mem_cons_of_mem _ List.mem_cons_self))

/-- The stacks of a list begin to serve. -/
def State.enableStacks (s : State) (l : List Nat) : State := l.foldl (fun s i => s.setFd (Fd.HBM_CTL_ENABLE i) 1) s

theorem State.zeroMemory_eq (s : State) : s.zeroMemory = { s.enableStacks (List.range 8) with hbm := [] } := rfl

theorem State.fd_setHbm (s : State) (m : List Host.Cell) (f : Fd) : State.fd { s with hbm := m } f = s.fd f := rfl

theorem State.keepsStart_zeroMemory (s : State) : s.KeepsStart stackCtls s.zeroMemory := by
  rw [s.zeroMemory_eq]
  refine .setHbm (.foldl _ (fun i hi u hu => ?_) s (.refl s _)) []
  exact hu.setFd (f := Fd.HBM_CTL_ENABLE i) 1 (List.mem_map_of_mem (f := Reg.HBM_CTL) hi)

theorem State.fd_enable_enableStacks {j : Nat} : ∀ (l : List Nat) (s : State), j ∈ l ∨ s.fd (Fd.HBM_CTL_ENABLE j) = 1 →
    (s.enableStacks l).fd (Fd.HBM_CTL_ENABLE j) = 1 := by
  intro l
  induction l with
  | nil => exact fun s h => h.resolve_left List.not_mem_nil
  | cons i l ih =>
    intro s h
    refine ih (s.setFd (Fd.HBM_CTL_ENABLE i) 1) ?_
    have h0 : (Fd.HBM_CTL_ENABLE i).hi < 64 := Nat.zero_lt_succ _
    by_cases hi : j = i
    · subst hi
      exact .inr (s.fd_setFd_same _ 1 h0)
    · refine h.imp (List.mem_of_ne_of_mem hi) fun hj => ?_
      have hne : (Fd.HBM_CTL_ENABLE j).addr ≠ (Fd.HBM_CTL_ENABLE i).addr := by
        simp only [Fd.HBM_CTL_ENABLE, Reg.HBM_CTL]
        omega
      rw [s.fd_setFd_other _ _ 1 (.inl hne) h0, hj]

/-- All stacks serve. -/
theorem State.enable_zeroMemory (s : State) {i : Nat} (h : i < 8) : s.zeroMemory.flag (Fd.HBM_CTL_ENABLE i) = true := by
  rw [s.zeroMemory_eq, State.flag, State.fd_setHbm, State.fd_enable_enableStacks _ s (.inl (List.mem_range.mpr h))]
  rfl

/-- At most as many channels miss as are named. -/
theorem State.le_length_trained_train (s : State) (failed : List Nat) : 256 - failed.length ≤ (s.train failed).hb.trained.length := by
  have hbad : ((List.range 256).filter fun c => ((List.range 256).filter failed.contains).contains c).length ≤ failed.length := by
    refine ((List.nodup_range.filter _).subperm fun c hc => ?_).length_le
    simp only [List.mem_filter, List.contains_iff_mem] at hc
    exact hc.2.2
  have hsplit := List.length_eq_length_filter_add (l := List.range 256)
    fun c => ((List.range 256).filter failed.contains).contains c
  have htrained : (s.train failed).hb.trained =
      (List.range 256).filter fun c => !((List.range 256).filter failed.contains).contains c := rfl
  rw [List.length_range] at hsplit
  rw [htrained]
  omega

/-! ### Pass 2 and the hand-over (R416, R421) -/

namespace State.KeepsStart
variable {s t : State} {ks : List Nat} (h : s.KeepsStart ks t)
include h

theorem pass2Record (r : ImgRec) : s.KeepsStart ks (t.pass2Record r) := by
  unfold State.pass2Record
  split_ifs
  · exact h.hbmWrite _ _
  · refine foldl _ (fun k _ u hu => ?_) t h
    dsimp only
    split
    · exact hu
    · exact hu.onHb _
  · exact h

theorem measureGeckos : s.KeepsStart ks t.measureGeckos := foldl _ (fun _ _ _ hu => hu.extend _ (by decide)) t h

/-- The records of pass 2 are loaded and measured. -/
theorem loadRecords (rs : List ImgRec) : s.KeepsStart ks (rs.foldl State.pass2Record t).measureGeckos :=
  (foldl rs (fun r _ _ hu => hu.pass2Record r) t h).measureGeckos

theorem placeCert (rs : List ImgRec) (hc : Reg.SEC_CERT ∈ ks) : s.KeepsStart ks (t.placeCert rs) :=
  ((h.drawn.hbmWrite _ _).setFd _ hc).setFd _ hc

end State.KeepsStart

theorem State.keepsStart_firmwareReady (s : State) (rs : List ImgRec) (img : List Byte) :
    s.KeepsStart [Reg.SEC_CERT, Reg.SEC_CTL] (s.firmwareReady rs img) := by
  refine .report (.onGlb (.setFd (.placeCert (.hbmWrite ?_ 0 img) rs (by decide)) 1 (by decide)) rfl rfl) 0x04
  exact (KeepsStart.refl s _).loadRecords rs

theorem State.fd_bootDone_firmwareReady (s : State) (rs : List ImgRec) (img : List Byte) :
    (s.firmwareReady rs img).fd Fd.SEC_CTL_BOOT_DONE = 1 := by
  rw [State.firmwareReady, State.report_fd, State.onGlb_fd]
  exact State.fd_setFd_same _ Fd.SEC_CTL_BOOT_DONE 1 (by decide)

/-- Pass 2 of an image without fuse commands, where start-up has not stopped. -/
theorem State.pass2_of_noFuses {s : State} {rs : List ImgRec} (img : List Byte) (hf : ofType rs 0x40 = [])
    (hs : s.glb.stopped = false) : s.pass2 rs img = (s.firmwareReady rs img).identify := by
  have hkeep : ((rs.foldl State.pass2Record s).measureGeckos).glb.stopped = false :=
    ((KeepsStart.refl s []).loadRecords rs).stopped.trans hs
  simp only [State.pass2, hf, List.flatMap_nil, List.foldl_nil, hkeep, Bool.false_eq_true, if_false, State.firmwareReady,
    imgEntry]

/-! ### The flash layer identifies its parts (R218, R423) -/

/-- The registers the flash layer's identification writes. -/
def identifyRegs : List Nat := [Reg.FLT_GEOM, Reg.FLT_STATUS, Reg.FLT_ERR]

/-- The flash layer with the parts found, before the geometry is judged. -/
def State.partsFound (s : State) : State :=
  let n := s.glb.nand.geom.toNat
  let g := s.glb.geom
  let s := s.trainNand.setReg Reg.FLT_GEOM (setBits (setBits n 47 32 (lat g 6 2)) 63 50 0)
  let listed := (List.range 512).filter fun l => bits (lat g (16 + 4 * (l / 32)) 4) (l % 32) (l % 32) == 1
  s.onFlt fun f => { f with lunFail := f.lunFail ++ listed.filter (fun l => !f.lunFail.contains l) }

theorem State.identify_eq (s : State) : s.identify = if s.partsFound.geometryOk then s.partsFound.setFd Fd.FLT_STATUS_STATE 1
    else ((s.partsFound.setFd Fd.FLT_STATUS_STATE 6).raise Fd.FLT_ERR_GEOMETRY).stopAt 0x22 := rfl

theorem State.keepsStart_partsFound (s : State) : s.KeepsStart identifyRegs s.partsFound := by
  unfold State.partsFound State.trainNand
  exact .onFlt (.setReg (.onFlt (.refl s _) _) _ (by decide)) _

theorem State.status_partsFound (s : State) : s.partsFound.glb.status = s.glb.status := rfl

/-- Identification ends in IDENT, with the status it found and start-up going on, or in FAILED, start-up stopped. -/
theorem State.identify_ends (s : State) :
    (s.identify.glb.status = s.glb.status ∧ s.identify.glb.stopped = s.glb.stopped ∧ s.identify.fd Fd.FLT_STATUS_STATE = 1) ∨
    (s.identify.glb.status = 0x22 ∧ s.identify.glb.stopped = true ∧ s.identify.fd Fd.FLT_STATUS_STATE = 6 ∧
      s.identify.fd Fd.FLT_ERR_GEOMETRY = 1) := by
  rw [State.identify_eq, State.raise]
  split
  · exact .inl ⟨s.status_partsFound, s.keepsStart_partsFound.stopped, State.fd_setFd_same _ Fd.FLT_STATUS_STATE 1 (by decide)⟩
  · rw [State.stopAt_fd, State.stopAt_fd]
    refine .inr ⟨rfl, rfl, ?_, State.fd_setFd_same _ Fd.FLT_ERR_GEOMETRY 1 (by decide)⟩
    rw [State.fd_setFd_other _ Fd.FLT_ERR_GEOMETRY Fd.FLT_STATUS_STATE 1 (by decide) (by decide)]
    exact State.fd_setFd_same _ Fd.FLT_STATUS_STATE 6 (by decide)

/-- Neither end touches another register, the accepted image or MEAS1. -/
theorem State.identify_frame (s : State) :
    s.regsBut identifyRegs s.identify ∧ s.identify.glb.accepted = s.glb.accepted ∧
    tfind s.identify.sec.meas 1 = tfind s.sec.meas 1 := by
  have hp := s.keepsStart_partsFound
  rw [State.identify_eq]
  split
  · have h := hp.setFd (f := Fd.FLT_STATUS_STATE) 1 (by decide)
    exact ⟨h.regs, h.accepted, h.meas1⟩
  · exact ((hp.setFd (f := Fd.FLT_STATUS_STATE) 6 (by decide)).setFd (f := Fd.FLT_ERR_GEOMETRY) 1 (by decide)).stopAt 0x22

end Sys2Proof.Machine

end

section
/-! The statement of chapter 1: an accepted image starts the device (R415 to R422). -/

namespace Sys2Proof.Proofs.Startup
open Sys2Proof Sys2Proof.Machine

/-- The registers written after pass 1, up to the hand-over. -/
def laterRegs : List Nat := trainRegs ++ stackCtls ++ [Reg.SEC_CERT, Reg.SEC_CTL]

/-- Settles O17: slot A's image is taken and measured, pass 1 loads its fields, each later stage leaves what the earlier ones
recorded, and the flash layer's identification decides the end. -/
theorem acceptedImageStarts : Obligations.AcceptedImageStarts := by
  intro s nor img failed nand k rs node himg hrs hnode hwrites hfuses hfailed
  let entered := (s.coldEntered 0x01 nor nand).romEntered
  let taken := entered.imageTaken k img
  let loaded := taken.pass1 rs node
  let trained := (loaded.report 0x03).train (failed.map (·.val))
  let zeroed := trained.zeroMemory
  let ready := zeroed.firmwareReady rs img
  have htrained : 224 ≤ trained.hb.trained.length := by
    have hle := (loaded.report 0x03).le_length_trained_train (failed.map (·.val))
    rw [List.length_map] at hle
    exact le_trans (by omega) hle
  have hloaded : taken.KeepsStart pass1Regs loaded := taken.keepsStart_pass1 node hwrites
  have hzeroed : loaded.KeepsStart (trainRegs ++ stackCtls) zeroed :=
    (((State.KeepsStart.refl loaded []).report 0x03).trans (State.keepsStart_train _ _)).trans trained.keepsStart_zeroMemory
  have hready : zeroed.KeepsStart [Reg.SEC_CERT, Reg.SEC_CTL] ready := zeroed.keepsStart_firmwareReady rs img
  have hlater : loaded.KeepsStart laterRegs ready := hzeroed.trans hready
  have hruns : zeroed.glb.stopped = false := (hzeroed.stopped.trans hloaded.stopped).trans rfl
  obtain ⟨hregs, haccepted, hmeas⟩ := ready.identify_frame
  have hstart : s.coldStart 0x01 nor failed nand = ready.identify :=
    (State.boot_of_accepted (State.startImage_coldEntered 0x01 nand himg) hrs hnode htrained).trans
      (State.pass2_of_noFuses img hfuses hruns)
  have hkept : ∀ f : Fd, f.addr ∉ laterRegs ++ identifyRegs → ready.identify.fd f = loaded.fd f := fun f hf => by
    obtain ⟨hl, hi⟩ := not_or.mp (mt List.mem_append.mpr hf)
    exact (hregs.fd hi).trans (hlater.regs.fd hl)
  have hexec : exec (.coldStart nor failed nand.geom nand.chips) s = .next (s.commit ready.identify) :=
    congrArg (fun t => Host.Outcome.next (s.commit t)) hstart
  refine ⟨_, hexec, ?_⟩
  simp only [State.commit_fd, State.commit_glb, State.commit_sec, State.commit_flag]
  refine ⟨?_, ?_, ?_, ?_, ?_, ?_, ?_, fun i hi => ?_, ?_⟩
  · rw [hkept _ (by decide), taken.fd_ctlGib_pass1 node hwrites rfl]
  · rw [hkept _ (by decide), taken.fd_node_pass1 node hwrites]
  · rw [hkept _ (by decide), taken.fd_domain_pass1 node hwrites]
  · rw [hkept _ (by decide), hloaded.regs.fd (by decide), entered.fd_bootSlot_imageTaken]
  · rw [hregs.fd (by decide), zeroed.fd_bootDone_firmwareReady]
  · exact haccepted.trans (hlater.accepted.trans hloaded.accepted)
  · rw [hmeas, hlater.meas1, hloaded.meas1, State.tfind_meas1_imageTaken k img rfl]
  · have hctl : ∀ i < 8, (Fd.HBM_CTL_ENABLE i).addr ∉ [Reg.SEC_CERT, Reg.SEC_CTL] ++ identifyRegs := by decide
    obtain ⟨hcert, hflash⟩ := not_or.mp (mt List.mem_append.mpr (hctl i hi))
    rw [hregs.flag hflash, hready.regs.flag hcert, trained.enable_zeroMemory hi]
  · obtain ⟨hst, hstop, hflash⟩ | hfail := ready.identify_ends
    · exact .inl ⟨hst, hstop.trans (hready.stopped.trans hruns), hflash⟩
    · exact .inr hfail

end Sys2Proof.Proofs.Startup

end

section
/-! SUPPORT. The frame of a command, put together from the frames of the updates it is made of. -/

namespace Sys2Proof.Machine

/-! ## Frames add up -/

theorem State.same.trans {s t u : State} {p : Part} (h : s.same t p) (h' : t.same u p) : s.same u p := by
  cases p with
  | hbm | pcache => exact fun a => (h' a).trans (h a)
  | _ => exact Eq.trans h' h

theorem State.only.refl (s : State) (ps : List Part) : s.only ps s := by
  refine ⟨rfl, fun p _ => ?_⟩
  cases p with
  | hbm | pcache => exact fun _ => rfl
  | _ => rfl

/-- What an update made of pieces among `ps` leaves, the whole leaves too. -/
theorem State.only.then {s t u : State} {ps qs : List Part} (h : s.only ps t) (h' : t.only qs u) (hq : qs ⊆ ps) : s.only ps u :=
  ⟨h'.1.trans h.1, fun p hp => (h.2 p hp).trans (h'.2 p fun hm => hp (hq hm))⟩

theorem State.only.mono {s t : State} {ps qs : List Part} (h : s.only qs t) (hq : qs ⊆ ps) : s.only ps t :=
  (State.only.refl s ps).then h hq

/-- The frame of a fold is that of its steps. -/
theorem State.only_foldl {α : Type} {ps : List Part} {f : State → α → State} (hf : ∀ (u : State) x, u.only ps (f u x)) (l : List α) :
    ∀ s : State, s.only ps (l.foldl f s) := by
  induction l with
  | nil => exact fun s => State.only.refl s ps
  | cons x l ih => exact fun s => (hf s x).then (ih _) (List.Subset.refl _)

/-! ## One update -/

section
variable (s : State)

theorem State.only_onPgt (f : Pgt → Pgt) : s.only [.pgt] (s.onPgt f) := by
  refine ⟨rfl, fun p hp => ?_⟩
  cases p with
  | pgt => exact absurd List.mem_cons_self hp
  | hbm | pcache => exact fun _ => rfl
  | _ => rfl

theorem State.only_onTrl (f : Trl → Trl) : s.only [.trl] (s.onTrl f) := by
  refine ⟨rfl, fun p hp => ?_⟩
  cases p with
  | trl => exact absurd List.mem_cons_self hp
  | hbm | pcache => exact fun _ => rfl
  | _ => rfl

theorem State.only_onTwn (f : Twn → Twn) : s.only [.twn] (s.onTwn f) := by
  refine ⟨rfl, fun p hp => ?_⟩
  cases p with
  | twn => exact absurd List.mem_cons_self hp
  | hbm | pcache => exact fun _ => rfl
  | _ => rfl

theorem State.only_onPdir (f : Pdir → Pdir) : s.only [.pdir] (s.onPdir f) := by
  refine ⟨rfl, fun p hp => ?_⟩
  cases p with
  | pdir => exact absurd List.mem_cons_self hp
  | hbm | pcache => exact fun _ => rfl
  | _ => rfl

theorem State.only_onCust (f : Custody → Custody) : s.only [.cust] (s.onCust f) := by
  refine ⟨rfl, fun p hp => ?_⟩
  cases p with
  | cust => exact absurd List.mem_cons_self hp
  | hbm | pcache => exact fun _ => rfl
  | _ => rfl

theorem State.only_onTier (f : TierBlock → TierBlock) : s.only [.tier] (s.onTier f) := by
  refine ⟨rfl, fun p hp => ?_⟩
  cases p with
  | tier => exact absurd List.mem_cons_self hp
  | hbm | pcache => exact fun _ => rfl
  | _ => rfl

theorem State.only_onHb (f : HbmBlock → HbmBlock) : s.only [.hb] (s.onHb f) := by
  refine ⟨rfl, fun p hp => ?_⟩
  cases p with
  | hb => exact absurd List.mem_cons_self hp
  | hbm | pcache => exact fun _ => rfl
  | _ => rfl

theorem State.only_onFlt (f : Flt → Flt) : s.only [.flt] (s.onFlt f) := by
  refine ⟨rfl, fun p hp => ?_⟩
  cases p with
  | flt => exact absurd List.mem_cons_self hp
  | hbm | pcache => exact fun _ => rfl
  | _ => rfl

theorem State.only_drawn : s.only [.free] s.drawn := by
  refine ⟨rfl, fun p hp => ?_⟩
  cases p with
  | free => exact absurd List.mem_cons_self hp
  | hbm | pcache => exact fun _ => rfl
  | _ => rfl

theorem State.only_setHbm (m : List Host.Cell) : s.only [.hbm] { s with hbm := m } := by
  refine ⟨rfl, fun p hp => ?_⟩
  cases p with
  | hbm => exact absurd List.mem_cons_self hp
  | pcache => exact fun _ => rfl
  | _ => rfl

end

end Sys2Proof.Machine

end

section
/-! SUPPORT. A request that names a sequence held here, with nothing before it: it takes its place, begins, and ends (R38, R345,
R346, R464). -/

namespace Sys2Proof.Machine

/-! ## Records and descriptors -/

theorem State.seq_modSeq (s : State) (k : Nat) (f : Seq → Seq) (j : Nat) :
    (s.modSeq k f).seq j = if j = k then (s.seq k).map f else s.seq j := by
  split
  · next h => rw [h]; exact tfind_tmod_same _ _ _
  · next h => exact tfind_tmod_ne _ _ h

theorem State.desc_modDesc (s : State) (d : Nat) (f : Desc → Desc) (e : Nat) :
    (s.modDesc d f).desc e = if e = d then (s.desc d).map f else s.desc e := by
  split
  · next h => rw [h]; exact tfind_tmod_same _ _ _
  · next h => exact tfind_tmod_ne _ _ h

/-! ## An operation is answered -/

/-- A message nothing waits for changes the transport alone. -/
theorem State.send_plain_eq_onTrl (s : State) (c op svc : Nat) (b : List Byte) : ∃ f, s.send c op svc b .plain = s.onTrl f := by
  simp only [State.send, State.enqueue, OutMsg.mk', State.endMsg, Bool.false_eq_true, if_false]
  split
  · exact ⟨id, rfl⟩
  · split
    · exact ⟨id, rfl⟩
    · exact ⟨_, rfl⟩

/-- An answer changes the transport, and takes the operation out of the order. -/
theorem State.answerOp_eq (s : State) (o : SeqOp) (st : Nat) (b : List Byte) :
    ∃ f, s.answerOp o st b = (s.onTrl f).endOp o.id := by
  obtain ⟨f, hf⟩ := s.send_plain_eq_onTrl o.conduit (if st ≤ 2 then 0x30 else 0x31) (if o.kind == .info then 6 else 3)
    (respHeader o.msgseq st ++ b)
  exact ⟨f, by rw [← hf]; rfl⟩

section
variable (s : State) (o : SeqOp) (st : Nat) (b : List Byte)

@[simp] theorem State.seq_answerOp (j : Nat) : (s.answerOp o st b).seq j = s.seq j := by
  obtain ⟨f, hf⟩ := s.answerOp_eq o st b
  rw [hf]; rfl

@[simp] theorem State.descs_answerOp : (s.answerOp o st b).pgt.descs = s.pgt.descs := by
  obtain ⟨f, hf⟩ := s.answerOp_eq o st b
  rw [hf]; rfl

@[simp] theorem State.freeing_answerOp : (s.answerOp o st b).pgt.freeing = s.pgt.freeing := by
  obtain ⟨f, hf⟩ := s.answerOp_eq o st b
  rw [hf]; rfl

@[simp] theorem State.held_answerOp : (s.answerOp o st b).cust.held = s.cust.held := by
  obtain ⟨f, hf⟩ := s.answerOp_eq o st b
  rw [hf]; rfl

theorem State.ops_answerOp : (s.answerOp o st b).pgt.ops = s.pgt.ops.filter fun x => x.id != o.id := by
  obtain ⟨f, hf⟩ := s.answerOp_eq o st b
  rw [hf]; rfl

theorem State.copies_answerOp : (s.answerOp o st b).pgt.copies = s.pgt.copies.filter fun x => x.op != o.id := by
  obtain ⟨f, hf⟩ := s.answerOp_eq o st b
  rw [hf]; rfl

theorem State.only_answerOp : s.only [.pgt, .trl] (s.answerOp o st b) := by
  obtain ⟨f, hf⟩ := s.answerOp_eq o st b
  rw [hf]
  exact ((s.only_onTrl f).mono (by decide)).then (State.only_onPgt _ _) (by decide)

end

/-- Whether a conduit takes messages hangs on the transport, the member's role and the witness conduit. -/
theorem State.sends_congr {s t : State} {c : Nat} (hc : t.conduit c = s.conduit c) (hr : t.csr = s.csr)
    (hw : t.twn.role = s.twn.role) (h : s.sends c) : t.sends c := by
  obtain ⟨h1, h2⟩ := h
  have hf : t.fd Fd.TWN_WITNESS_CONDUIT = s.fd Fd.TWN_WITNESS_CONDUIT := by simp only [State.fd, State.reg, hr]
  exact ⟨by rw [hc]; exact h1, by rw [State.muted, hw, hf]; exact h2⟩

/-- The answer stands at the end of the request's conduit, whatever was done before it beside the transport. -/
theorem State.answered_commit_answerOp {s u : State} {o : SeqOp} (st : Nat) (b : List Byte) (hc : u.conduit o.conduit = s.conduit o.conduit)
    (hs : u.sends o.conduit) : s.answered o.conduit o.msgseq st b (s.commit (u.answerOp o st b)) := by
  obtain ⟨cd, cd', m, hcd, hcd', hq⟩ := u.answered_respond o.conduit o.msgseq (if o.kind == .info then 6 else 3) st b hs
  exact ⟨cd, cd', m, hc.symm.trans hcd, hcd', hq⟩

/-! ## The order, with one operation in it -/

/-- The operations in the order. -/
def State.setOps (s : State) (l : List SeqOp) : State := s.onPgt fun g => { g with ops := l }

@[simp] theorem State.seq_setOps (s : State) (l : List SeqOp) (j : Nat) : (s.setOps l).seq j = s.seq j := rfl
@[simp] theorem State.desc_setOps (s : State) (l : List SeqOp) (d : Nat) : (s.setOps l).desc d = s.desc d := rfl
@[simp] theorem State.hbm_setOps (s : State) (l : List SeqOp) : (s.setOps l).hbm = s.hbm := rfl

/-- The operation's own record in the order changed. -/
theorem State.modOp_of_ops {s : State} {o : SeqOp} (h : s.pgt.ops = [o]) (f : SeqOp → SeqOp) : s.modOp o.id f = s.setOps [f o] := by
  simp [State.modOp, State.setOps, State.onPgt, h]

/-- A pass over one operation, no copies waiting. -/
theorem State.settleOnce_one {s : State} {o : SeqOp} (ho : s.pgt.ops = [o]) (hc : s.pgt.copies = []) : s.settleOnce = s.opStep o.id := by
  simp [State.settleOnce, ho, hc]

theorem State.settleOnce_none {s : State} (ho : s.pgt.ops = []) (hc : s.pgt.copies = []) : s.settleOnce = s := by
  simp [State.settleOnce, ho, hc]

theorem State.settleFor_none {s : State} (ho : s.pgt.ops = []) (hc : s.pgt.copies = []) : ∀ n, State.settleFor n s = s
  | 0 => rfl
  | n + 1 => by simp [State.settleFor, State.settleOnce_none ho hc]

/-- The pass changes the one operation: another follows. -/
theorem State.settleFor_one {s : State} {o : SeqOp} (ho : s.pgt.ops = [o]) (hc : s.pgt.copies = []) (n : Nat)
    (h : (s.opStep o.id).pgt.ops ≠ [o]) : State.settleFor (n + 1) s = State.settleFor n (s.opStep o.id) := by
  simp [State.settleFor, State.settleOnce_one ho hc, ho, h]

theorem State.answerAborts_none {s : State} (h : s.cust.held = []) : s.answerAborts = s := by
  simp [State.answerAborts, h]

/-- The one operation is answered in the first pass. -/
theorem State.settle_ended {s : State} {o : SeqOp} (ho : s.pgt.ops = [o]) (hc : s.pgt.copies = [])
    (ho' : (s.opStep o.id).pgt.ops = []) (hc' : (s.opStep o.id).pgt.copies = []) (hh : (s.opStep o.id).cust.held = []) :
    s.settle = s.opStep o.id := by
  rw [State.settle, ho, show 4 * [o].length + 4 = 7 + 1 from rfl, State.settleFor_one ho hc 7 (by rw [ho']; simp),
    State.settleFor_none ho' hc', State.answerAborts_none hh]

/-- The one operation is applied in the first pass, and answered in the second. -/
theorem State.settle_applied {s a : State} {o o' : SeqOp} (ho : s.pgt.ops = [o]) (hc : s.pgt.copies = []) (ha : s.opStep o.id = a)
    (hao : a.pgt.ops = [o']) (hne : o' ≠ o) (hac : a.pgt.copies = []) (ho' : (a.opStep o'.id).pgt.ops = [])
    (hc' : (a.opStep o'.id).pgt.copies = []) (hh : (a.opStep o'.id).cust.held = []) : s.settle = a.opStep o'.id := by
  rw [State.settle, ho, show 4 * [o].length + 4 = 6 + 1 + 1 from rfl, State.settleFor_one ho hc 7 (by rw [ha, hao]; simpa using hne), ha,
    State.settleFor_one hao hac 6 (by rw [ho']; simp), State.settleFor_none ho' hc', State.answerAborts_none hh]

/-- Nothing is ordered before the one operation. -/
theorem opsBefore_one (o : SeqOp) : opsBefore [o] o = [] := by simp [opsBefore]

theorem mayBegin_one (o : SeqOp) (committed : Nat → Nat) : mayBegin [o] o committed = true := by
  simp [mayBegin, opsBefore_one, appendWaits, appliedEnd]

theorem mayCommit_one {o : SeqOp} (h : o.phase = .acked) : mayCommit [o] o = true := by
  simp [mayCommit, opsBefore_one, h]

theorem State.admits_of_alone {s : State} (h : s.alone) : s.admits = true := by
  rcases h with h | h <;> simp [State.admits, h]

theorem State.mirrors_of_alone {s : State} (h : s.alone) (k : Nat) : s.mirrors k = false := by
  rcases h with h | h <;> simp [State.mirrors, h]

/-- Nothing is mirrored: an applied operation may commit at once. -/
theorem State.mirrorOp_of_alone {s : State} (h : s.alone) (o : SeqOp) (mop handle : Nat) (b : List Byte) :
    s.mirrorOp o mop handle b = s.modOp o.id fun o => { o with phase := .acked } := by
  simp [State.mirrorOp, State.mirrors_of_alone h]

theorem State.opStep_acked {s : State} {o : SeqOp} (ho : s.pgt.ops = [o]) (hp : o.phase = .acked) : s.opStep o.id = s.commitOp o := by
  simp [State.opStep, ho, hp, mayCommit_one]

/-- The operations a sequence's own conduit asks for that change it. -/
def OpKind.changes (k : OpKind) : Prop := k = .append ∨ k = .seal ∨ k = .truncate ∨ k = .free

/-- The one operation, on an ACTIVE sequence whose handle it names, begins. -/
theorem State.opStep_waiting {s : State} {o : SeqOp} {q : Seq} (ho : s.pgt.ops = [o]) (hp : o.phase = .waiting) (hk : o.kind.changes)
    (ha : s.alone) (hq : s.seq o.seq = some q) (hh : s.handleOk (lat o.payload 0 8) (s.partOf o.conduit) o.seq = true)
    (hst : q.sstate = .active) : s.opStep o.id = s.beginOp o := by
  have hh' : s.handleOk (s.opHandle o) (s.partOf o.conduit) o.seq = true := by
    rcases hk with h | h | h | h <;> simpa [State.opHandle, h] using hh
  rcases hk with h | h | h | h <;>
    simp [State.opStep, ho, hp, State.tryBegin, State.admits_of_alone ha, h, mayBegin_one, hh', hq, hst]

/-! ## The request -/

/-- The operation a request becomes. -/
def State.request (s : State) (k : Nat) (kind : OpKind) (c m : Nat) (p : List Byte) : SeqOp :=
  ⟨s.pgt.nextOp, k, kind, c, m, p, s.usec, .waiting, none, [], 0, 0, none, [], none⟩

/-- The request has its place in the order. -/
def State.placed (s : State) (code k : Nat) (kind : OpKind) (c m : Nat) (p : List Byte) : State :=
  ((s.takeHanded c m code).confirm k).takePlace k kind c m p none

/-- It begins: its sequence has been used. -/
def State.begun (s : State) (code k : Nat) (kind : OpKind) (c m : Nat) (p : List Byte) : State :=
  (s.placed code k kind c m p).modSeq k fun q => { q with lastUse := s.usec }

/-- The one operation `o` is at work, for a request that arrived in `s`: what has been done so far is among `ps`, and the order and
the transport stand. -/
structure State.Works (s : State) (o : SeqOp) (ps : List Part) (t : State) : Prop where
  ops : t.pgt.ops = [o]
  copies : t.pgt.copies = []
  held : t.cust.held = []
  conduits : t.trl.conduits = s.trl.conduits
  role : t.twn.role = s.twn.role
  csr : t.csr = s.csr
  only : s.only ps t

namespace State.Works
variable {s t : State} {o : SeqOp} {ps : List Part} (h : s.Works o ps t)
include h

theorem mono {qs : List Part} (hq : ps ⊆ qs) : s.Works o qs t := { h with only := h.only.mono hq }

/-- A step in the tables of the PGT that leaves the order. -/
theorem onPgt {f : Pgt → Pgt} (ho : (f t.pgt).ops = t.pgt.ops) (hc : (f t.pgt).copies = t.pgt.copies) (hp : .pgt ∈ ps) :
    s.Works o ps (t.onPgt f) where
  ops := ho.trans h.ops
  copies := hc.trans h.copies
  held := h.held
  conduits := h.conduits
  role := h.role
  csr := h.csr
  only := h.only.then (State.only_onPgt t f) (by simpa using hp)

/-- The operation's own record changes. -/
theorem setOps (o' : SeqOp) (hp : .pgt ∈ ps) : s.Works o' ps (t.setOps [o']) where
  ops := rfl
  copies := h.copies
  held := h.held
  conduits := h.conduits
  role := h.role
  csr := h.csr
  only := h.only.then (State.only_onPgt t _) (by simpa using hp)

theorem onPdir (f : Pdir → Pdir) (hp : .pdir ∈ ps) : s.Works o ps (t.onPdir f) :=
  { h with only := h.only.then (State.only_onPdir t f) (by simpa using hp) }

theorem setHbm (m : List Host.Cell) (hp : .hbm ∈ ps) : s.Works o ps { t with hbm := m } :=
  { h with only := h.only.then (State.only_setHbm t m) (by simpa using hp) }

theorem alone (ha : s.alone) : t.alone := ha.imp h.role.trans h.role.trans

theorem conduit (c : Nat) : t.conduit c = s.conduit c := congrArg (tfind · c) h.conduits

theorem sends {c : Nat} (hs : s.sends c) : t.sends c := State.sends_congr (h.conduit c) h.csr h.role hs

/-- The operation answered. -/
theorem answered (st : Nat) (b : List Byte) (hs : s.sends o.conduit) :
    s.answered o.conduit o.msgseq st b (s.commit (t.answerOp o st b)) :=
  State.answered_commit_answerOp st b (h.conduit _) (h.sends hs)

theorem only_answered (st : Nat) (b : List Byte) (hp : .pgt ∈ ps) (ht : .trl ∈ ps) : s.only ps (s.commit (t.answerOp o st b)) :=
  State.only_commit (h.only.then (t.only_answerOp o st b) (by simp [hp, ht]))

end State.Works

/-- What is known of a request of a conduit that takes its place at once. -/
structure State.Begins (s : State) (code k : Nat) (kind : OpKind) (c m : Nat) (p : List Byte) (q : Seq) : Prop where
  takes : s.takes c (lat p 0 8) k q
  format : reqFormatBad code p = false
  kindOf : opKind code = some kind
  named : reqHandle code p = lat p 0 8
  changes : kind.changes

section
variable {s : State} {code k : Nat} {kind : OpKind} {c m : Nat} {p : List Byte} {q : Seq}

theorem State.hbm_begun (s : State) (code k : Nat) (kind : OpKind) (c m : Nat) (p : List Byte) : (s.begun code k kind c m p).hbm = s.hbm := rfl

theorem State.seq_begun (hq : s.seq k = some q) (j : Nat) :
    (s.begun code k kind c m p).seq j = if j = k then some { q with lastUse := s.usec } else s.seq j := by
  have hp : ∀ j, (s.placed code k kind c m p).seq j = s.seq j := fun _ => rfl
  rw [State.begun, State.seq_modSeq, hp, hp, hq]
  rfl

theorem State.works_begun (h : s.quiet) : s.Works (s.request k kind c m p) [.pgt, .twn, .trl] (s.begun code k kind c m p) where
  ops := by
    obtain ⟨ho, -⟩ := h
    simp only [State.begun, State.placed, State.takePlace, State.modSeq, State.onPgt, State.confirm, State.onTwn, State.takeHanded,
      State.onTrl, ho]
    rfl
  copies := h.2.1
  held := h.2.2.1
  conduits := rfl
  role := rfl
  csr := rfl
  only := by
    have h1 : s.only [.pgt, .twn, .trl] (s.takeHanded c m code) := (s.only_onTrl _).mono (by decide)
    have h2 : s.only [.pgt, .twn, .trl] ((s.takeHanded c m code).confirm k) := h1.then (State.only_onTwn _ _) (by decide)
    exact (h2.then (State.only_onPgt _ _) (by decide)).then (State.only_onPgt _ _) (by decide)

variable (h : s.Begins code k kind c m p q)
include h

theorem State.Begins.ops_placed : (s.placed code k kind c m p).pgt.ops = [s.request k kind c m p] :=
  (State.works_begun (code := code) h.takes.2.1).ops

/-- It takes its place. -/
theorem State.Begins.recvNamed_eq : (s.takeHanded c m code).recvNamed c m code p none = s.placed code k kind c m p := by
  obtain ⟨-, -, -, -, hpart, hroute, -, hok, -⟩ := h.takes
  have hpart' : hPart (lat p 0 8) = (s.takeHanded c m code).partOf c := hpart
  have hroute' : (s.takeHanded c m code).route (lat p 0 8) = .here k := hroute
  have hok' : (s.takeHanded c m code).handleOk (lat p 0 8) ((s.takeHanded c m code).partOf c) k = true := hok
  simp only [State.recvNamed, h.format, h.named, hpart', hroute', h.kindOf, hok', State.placed, ne_eq, not_true, if_false, if_true,
    Bool.false_eq_true]

/-- It begins at once. -/
theorem State.Begins.opStep_placed :
    (s.placed code k kind c m p).opStep (s.request k kind c m p).id = (s.placed code k kind c m p).beginOp (s.request k kind c m p) := by
  obtain ⟨-, -, halone, -, -, -, hq, hok, hst⟩ := h.takes
  exact State.opStep_waiting h.ops_placed rfl h.changes halone hq hok hst

/-- A request answered as it begins. -/
theorem State.Begins.exec_answered {i : Instr} {st : Nat} {b : List Byte}
    (hi : exec i s = act s fun s => ((s.takeHanded c m code).recvNamed c m code p none).settle)
    (hb : (s.placed code k kind c m p).beginOp (s.request k kind c m p) =
      (s.begun code k kind c m p).answerOp (s.request k kind c m p) st b) :
    exec i s = .next (s.commit ((s.begun code k kind c m p).answerOp (s.request k kind c m p) st b)) := by
  obtain ⟨hr, hquiet, -⟩ := h.takes
  have hw := State.works_begun (code := code) (k := k) (kind := kind) (c := c) (m := m) (p := p) hquiet
  rw [hi, act_next s _ hr, h.recvNamed_eq, State.settle_ended h.ops_placed hquiet.2.1, h.opStep_placed, hb]
  · rw [h.opStep_placed, hb, State.ops_answerOp, hw.ops]; simp
  · rw [h.opStep_placed, hb, State.copies_answerOp, hw.copies]; rfl
  · rw [h.opStep_placed, hb, State.held_answerOp, hw.held]

/-- A request applied as it begins, committed next. -/
theorem State.Begins.exec_committed {i : Instr} {a z : State} {o : SeqOp} {ps : List Part} {st : Nat} {b : List Byte}
    (hi : exec i s = act s fun s => ((s.takeHanded c m code).recvNamed c m code p none).settle)
    (hb : (s.placed code k kind c m p).beginOp (s.request k kind c m p) = a) (ha : s.Works o ps a) (hphase : o.phase = .acked)
    (hcommit : a.commitOp o = z.answerOp o st b) (hz : s.Works o ps z) : exec i s = .next (s.commit (z.answerOp o st b)) := by
  obtain ⟨hr, hquiet, -⟩ := h.takes
  have hstep : a.opStep o.id = z.answerOp o st b := (State.opStep_acked ha.ops hphase).trans hcommit
  rw [hi, act_next s _ hr, h.recvNamed_eq, State.settle_applied h.ops_placed hquiet.2.1 (h.opStep_placed.trans hb) ha.ops
    (fun he => by simp [he, State.request] at hphase) ha.copies, hstep]
  · rw [hstep, State.ops_answerOp, hz.ops]; simp
  · rw [hstep, State.copies_answerOp, hz.copies]; rfl
  · rw [hstep, State.held_answerOp, hz.held]

/-- What a request answered as it begins leaves. -/
theorem State.Begins.answered_begun (st : Nat) (b : List Byte) :
    let t := s.commit ((s.begun code k kind c m p).answerOp (s.request k kind c m p) st b)
    s.answered c m st b t ∧ (∀ j, t.seq j = if j = k then some { q with lastUse := s.usec } else s.seq j) ∧
      t.pgt.descs = s.pgt.descs ∧ s.only [.pgt, .twn, .trl] t := by
  obtain ⟨-, hquiet, -, hsends, -, -, hq, -, -⟩ := h.takes
  have hw := State.works_begun (code := code) (k := k) (kind := kind) (c := c) (m := m) (p := p) hquiet
  refine ⟨hw.answered st b hsends, fun j => ?_, ?_, hw.only_answered st b (by decide) (by decide)⟩
  · exact ((s.begun code k kind c m p).seq_answerOp _ st b j).trans (State.seq_begun hq j)
  · exact (s.begun code k kind c m p).descs_answerOp _ st b

end

end Sys2Proof.Machine

end

section
/-! SUPPORT. Several writes of HBM, and what a range reads back after them. -/

namespace Sys2Proof.Machine

/-- Writes one after another, each an address and its bytes. -/
def State.hbmWrites (s : State) (l : List (Nat × List Byte)) : State := l.foldl (fun s w => s.hbmWrite w.1 w.2) s

/-- Two writes that share no byte. -/
def apart (v w : Nat × List Byte) : Prop := v.1 + v.2.length ≤ w.1 ∨ w.1 + w.2.length ≤ v.1

theorem State.hbmWrites_eq (s : State) (l : List (Nat × List Byte)) : ∃ m, s.hbmWrites l = { s with hbm := m } := by
  induction l generalizing s with
  | nil => exact ⟨s.hbm, rfl⟩
  | cons w l ih =>
    obtain ⟨m, hm⟩ := ih (s.hbmWrite w.1 w.2)
    exact ⟨m, hm⟩

theorem State.hbm_hbmWrites_congr {s t : State} (h : t.hbm = s.hbm) (l : List (Nat × List Byte)) :
    (t.hbmWrites l).hbm = (s.hbmWrites l).hbm := by
  induction l generalizing s t with
  | nil => exact h
  | cons w l ih => exact ih (by simp only [State.hbmWrite, h])

/-- A byte in none of the ranges written. -/
theorem State.byteOf_hbmWrites_outside {x : Nat} : ∀ (l : List (Nat × List Byte)) (s : State),
    (∀ w ∈ l, x < w.1 ∨ w.1 + w.2.length ≤ x) → byteOf (s.hbmWrites l).hbm x = byteOf s.hbm x := by
  intro l
  induction l with
  | nil => exact fun _ _ => rfl
  | cons w l ih =>
    intro s h
    obtain ⟨hw, hl⟩ := List.forall_mem_cons.mp h
    exact (ih (s.hbmWrite w.1 w.2) hl).trans (s.byteOf_hbmWrite_outside _ _ hw)

theorem State.hbmRead_congr {s t : State} {a n : Nat} (h : ∀ i < n, byteOf t.hbm (a + i) = byteOf s.hbm (a + i)) :
    t.hbmRead a n = s.hbmRead a n :=
  List.map_congr_left fun i hi => h i (List.mem_range.mp hi)

/-- Of writes apart from each other, each is read back. -/
theorem State.hbmRead_hbmWrites {w : Nat × List Byte} (hend : w.1 + w.2.length ≤ hbmBytes) : ∀ (l : List (Nat × List Byte)) (s : State),
    l.Pairwise apart → w ∈ l → (s.hbmWrites l).hbmRead w.1 w.2.length = w.2 := by
  intro l
  induction l with
  | nil => exact fun _ _ h => absurd h List.not_mem_nil
  | cons v l ih =>
    intro s hp hw
    obtain ⟨hv, hl⟩ := List.pairwise_cons.mp hp
    obtain rfl | hw := List.mem_cons.mp hw
    · have hkept : ((s.hbmWrite w.1 w.2).hbmWrites l).hbmRead w.1 w.2.length = (s.hbmWrite w.1 w.2).hbmRead w.1 w.2.length := by
        refine State.hbmRead_congr fun i hi => State.byteOf_hbmWrites_outside l _ fun u hu => ?_
        rcases hv u hu with h | h <;> omega
      exact hkept.trans (s.hbmRead_hbmWrite _ _ hend)
    · exact ih _ hl hw

end Sys2Proof.Machine

end

section
/-! SUPPORT. The slots of a page, the descriptors a page table names, and the commit of an operation (R40, R50, R52). -/

namespace Sys2Proof.Machine

theorem mem_of_tfind {α : Type} {a : Nat} {x : α} : ∀ {t : Tbl α}, tfind t a = some x → (a, x) ∈ t := by
  intro t
  induction t with
  | nil => exact fun h => nomatch h
  | cons e t ih =>
    obtain ⟨b, y⟩ := e
    intro h
    rw [tfind] at h
    split at h
    · next hb => exact List.mem_cons.mpr (.inl (by rw [← Option.some.inj h, hb]))
    · exact List.mem_cons_of_mem _ (ih h)

/-! ## Slots (R40) -/

theorem contentSize_eq (def0 : Nat) : contentSize def0 = 16 * rowA def0 + 16 * rowB def0 := by
  simp only [contentSize, tokenBytes]; ring

/-- A row lies in the part of the page that holds its rows. -/
theorem row_le {i : Nat} (r : Nat) (hi : i < 16) : i * r + r ≤ 16 * r :=
  calc i * r + r = (i + 1) * r := by ring
    _ ≤ 16 * r := Nat.mul_le_mul_right r hi

/-- Rows of two slots follow each other. -/
theorem row_le_row {i j : Nat} (r : Nat) (h : i < j) : i * r + r ≤ j * r :=
  calc i * r + r = (i + 1) * r := by ring
    _ ≤ j * r := Nat.mul_le_mul_right r h

section
variable {def0 i : Nat} (hi : i < 16)
include hi

theorem slotParts_le : ∀ y ∈ slotParts def0 i, y.1 + y.2.1 ≤ contentSize def0 := by
  have hA := row_le (rowA def0) hi
  have hB := row_le (rowB def0) hi
  have hT := row_le (tokenBytes def0) hi
  have hs := contentSize_eq def0
  unfold slotParts
  split
  · simpa [contentSize] using hT
  · simp only [List.mem_cons, List.not_mem_nil, or_false, forall_eq_or_imp, forall_eq]
    omega

/-- The two parts of a slot. -/
theorem slotParts_pairwise : (slotParts def0 i).Pairwise fun y z => y.1 + y.2.1 ≤ z.1 ∨ z.1 + z.2.1 ≤ y.1 := by
  have hA := row_le (rowA def0) hi
  unfold slotParts
  split
  · exact List.pairwise_singleton _ _
  · simp only [List.pairwise_cons, List.mem_cons, List.not_mem_nil, or_false, forall_eq, false_implies, implies_true,
      List.Pairwise.nil, and_self, and_true]
    omega

/-- The parts of two slots. -/
theorem slotParts_apart {j : Nat} (hj : j < 16) (hij : i < j) :
    ∀ y ∈ slotParts def0 i, ∀ z ∈ slotParts def0 j, y.1 + y.2.1 ≤ z.1 ∨ z.1 + z.2.1 ≤ y.1 := by
  have hA := row_le (rowA def0) hi
  have hA' := row_le (rowA def0) hj
  have hAA := row_le_row (rowA def0) hij
  have hBB := row_le_row (rowB def0) hij
  have hTT := row_le_row (tokenBytes def0) hij
  unfold slotParts
  split
  · simpa using .inl hTT
  · simp only [List.mem_cons, List.not_mem_nil, or_false, forall_eq_or_imp, forall_eq]
    omega

end

/-! ## Descriptors that a page table names -/

/-- Descriptors of a page table changed, those of the entries of P. -/
def State.markPages (s : State) (pt : Tbl Nat) (P : Nat × Nat → Prop) [DecidablePred P] (f : Desc → Desc) : State :=
  pt.foldl (fun s e => if P e then s.modDesc e.2 f else s) s

section
variable (P : Nat × Nat → Prop) [DecidablePred P] (f : Desc → Desc)

theorem State.markPages_eq (pt : Tbl Nat) : ∀ s : State, ∃ ds, s.markPages pt P f = s.onPgt fun g => { g with descs := ds } := by
  induction pt with
  | nil => exact fun s => ⟨s.pgt.descs, rfl⟩
  | cons e pt ih =>
    intro s
    obtain ⟨ds, hds⟩ := ih (if P e then s.modDesc e.2 f else s)
    refine ⟨ds, hds.trans ?_⟩
    split <;> rfl

theorem State.seq_markPages (pt : Tbl Nat) (s : State) (j : Nat) : (s.markPages pt P f).seq j = s.seq j := by
  obtain ⟨ds, hds⟩ := State.markPages_eq P f pt s
  rw [hds]; rfl

theorem State.hbm_markPages (pt : Tbl Nat) (s : State) : (s.markPages pt P f).hbm = s.hbm := by
  obtain ⟨ds, hds⟩ := State.markPages_eq P f pt s
  rw [hds]; rfl

theorem State.Works.markPages {s t : State} {o : SeqOp} {ps : List Part} (h : s.Works o ps t) (pt : Tbl Nat) (hp : .pgt ∈ ps) :
    s.Works o ps (t.markPages pt P f) := by
  obtain ⟨ds, hds⟩ := State.markPages_eq P f pt t
  rw [hds]
  exact h.onPgt rfl rfl hp

theorem State.desc_markPages (hf : ∀ x, f (f x) = f x) (d : Nat) (pt : Tbl Nat) : ∀ s : State,
    (s.markPages pt P f).desc d = if ∃ e ∈ pt, P e ∧ e.2 = d then (s.desc d).map f else s.desc d := by
  induction pt with
  | nil => simp [State.markPages]
  | cons e pt ih =>
    intro s
    have hstep : (s.markPages (e :: pt) P f).desc d = ((if P e then s.modDesc e.2 f else s).markPages pt P f).desc d := rfl
    have hone : (if P e then s.modDesc e.2 f else s).desc d = if P e ∧ e.2 = d then (s.desc d).map f else s.desc d := by
      by_cases hP : P e
      · by_cases hd : e.2 = d
        · subst hd; simp [hP, State.desc_modDesc]
        · simp [hP, hd, State.desc_modDesc, Ne.symm hd]
      · simp [hP]
    have hff : f ∘ f = f := funext hf
    rw [hstep, ih, hone]
    by_cases h : P e ∧ e.2 = d
    · simp [h, hff]
    · simp only [h, if_false, List.exists_mem_cons_iff, false_or]

end

/-- A tadpole is due to be sealed (R52 step 1). -/
def Desc.due (x : Desc) : Desc := if x.state == .tadpole then { x with sealDue := true } else x

theorem Desc.due_due (x : Desc) : x.due.due = x.due := by
  unfold Desc.due
  split
  · rfl
  · rfl

theorem Desc.valid_due (x : Desc) : x.due.valid = x.valid := by
  unfold Desc.due; split <;> rfl

theorem State.dueSeals_eq {s : State} {k : Nat} {q : Seq} (hq : s.seq k = some q) (layer len : Nat) :
    s.dueSeals k layer len = s.markPages q.pt (fun e => keyLayer e.1 = layer ∧ 16 * (keyPos e.1 + 1) ≤ len) Desc.due := by
  simp only [State.dueSeals, hq]
  rfl

theorem State.closeSeq_eq {s : State} {k : Nat} {q : Seq} (hq : s.seq k = some q) :
    s.closeSeq k = (s.modSeq k fun q => { q with closed := true }).markPages q.pt (fun _ => True) Desc.due := by
  simp only [State.closeSeq, hq, State.markPages, if_true]
  rfl

/-! ## The commit of an operation -/

/-- What a command leaves that ends in an answer. -/
theorem State.seq_commit_answerOp (s z : State) (o : SeqOp) (st : Nat) (b : List Byte) (j : Nat) :
    (s.commit (z.answerOp o st b)).seq j = z.seq j := z.seq_answerOp o st b j

theorem State.desc_commit_answerOp (s z : State) (o : SeqOp) (st : Nat) (b : List Byte) (d : Nat) :
    (s.commit (z.answerOp o st b)).desc d = z.desc d := by
  have h : (s.commit (z.answerOp o st b)).pgt.descs = z.pgt.descs := z.descs_answerOp o st b
  rw [State.desc, h, State.desc]

theorem State.byteOf_commit_answerOp (s z : State) (o : SeqOp) (st : Nat) (b : List Byte) (a : Nat) :
    byteOf (s.commit (z.answerOp o st b)).hbm a = byteOf z.hbm a := by
  rw [State.commit_byteOf_hbm]
  exact (z.only_answerOp o st b).2 .hbm (by decide) a

end Sys2Proof.Machine

end

section
/-! SUPPORT. An APPEND whose tokens fit in a page that is there (R49, R50). -/

namespace Sys2Proof.Machine

theorem apHead_eq (p : List Byte) : apHead p = 16 + (if lat p 15 1 % 2 = 1 then 4 * apCount p else 0) := by
  simp [apHead, apTok]

/-- Bytes of token t of an APPEND of one group. -/
def apToken (q : Seq) (p : List Byte) (t : Nat) : List Byte := slice p (apHead p + t * tokenBytes q.def0) (tokenBytes q.def0)

/-- The writes of an APPEND in the page at `base`: the parts of each token's slot. -/
def apWrites (q : Seq) (p : List Byte) (base : Nat) : List (Nat × List Byte) :=
  (List.range (apCount p)).flatMap fun t =>
    (slotParts q.def0 (apStart p % 16 + t)).map fun y => (base + y.1, slice (apToken q p t) y.2.2 y.2.1)

/-- The tokens written in page d, whose frame begins at `base`, and VALID raised. -/
def State.appendWritten (s : State) (q : Seq) (p : List Byte) (d base : Nat) : State :=
  (s.hbmWrites (apWrites q p base)).modDesc d fun x => { x with valid := apStart p % 16 + apCount p }

section
variable {q : Seq} {p : List Byte} (hfit : apStart p % 16 + apCount p ≤ 16)
include hfit

theorem mem_apWrites_le (base : Nat) : ∀ w ∈ apWrites q p base, base ≤ w.1 ∧ w.1 + w.2.length ≤ base + contentSize q.def0 := by
  intro w hw
  obtain ⟨t, ht, hw⟩ := List.mem_flatMap.mp hw
  obtain ⟨y, hy, rfl⟩ := List.mem_map.mp hw
  have htc := List.mem_range.mp ht
  have hle := slotParts_le (def0 := q.def0) (show apStart p % 16 + t < 16 by omega) y hy
  rw [slice_length]
  omega

theorem apWrites_pairwise (base : Nat) : (apWrites q p base).Pairwise apart := by
  refine List.pairwise_flatMap.mpr ⟨fun t ht => ?_, ?_⟩
  · have htc := List.mem_range.mp ht
    refine List.pairwise_map.mpr ((slotParts_pairwise (show apStart p % 16 + t < 16 by omega)).imp fun {y z} h => ?_)
    simp only [apart, slice_length]
    omega
  · refine List.pairwise_lt_range.imp_of_mem fun {t u} ht hu htu => ?_
    have huc := List.mem_range.mp hu
    intro v hv w hw
    obtain ⟨y, hy, rfl⟩ := List.mem_map.mp hv
    obtain ⟨z, hz, rfl⟩ := List.mem_map.mp hw
    have h := slotParts_apart (def0 := q.def0) (show apStart p % 16 + t < 16 by omega) (show apStart p % 16 + u < 16 by omega)
      (by omega) y hy z hz
    simp only [apart, slice_length]
    omega

/-- The pages it touches: one. -/
theorem appendPages_one (hg : clsGroups q.def1 = 1) (h0 : apCount p ≠ 0) : appendPages q p = [(0, apStart p / 16)] := by
  have h1 : (apStart p + apCount p - 1) / 16 + 1 - apStart p / 16 = 1 := by omega
  simp [appendPages, hg, h1]

/-- It writes its tokens' slots, and VALID rises. -/
theorem State.appendPage_found {s : State} {k d : Nat} {q' : Seq} {x : Desc} (hq : s.seq k = some q')
    (hd : tfind q'.pt (ptKey (apLayer p) 0 (apStart p / 16)) = some d) (hx : s.desc d = some x) :
    s.appendPage k q p false 0 (apStart p / 16) [] = some (s.appendWritten q p d (x.loc.frame * 2048), []) := by
  have hrow : ∀ t ∈ List.range (apCount p), (apStart p + t) / 16 = apStart p / 16 ∧ (apStart p + t) % 16 = apStart p % 16 + t := by
    intro t ht
    have htc := List.mem_range.mp ht
    omega
  have hvalid : min 16 (apStart p + apCount p - 16 * (apStart p / 16)) = apStart p % 16 + apCount p := by omega
  simp only [State.appendPage, hq, Option.bind_some, hd, hx, hvalid, State.appendWritten, State.hbmWrites, apWrites, List.foldl_flatMap,
    List.foldl_map]
  refine congrArg some (Prod.ext (congrArg (State.modDesc · d _) ?_) rfl)
  refine List.foldl_ext _ _ _ fun u t ht => ?_
  obtain ⟨h1, h2⟩ := hrow t ht
  simp only [h1, if_true, h2, Nat.zero_mul, Nat.zero_add, apToken]

end

/-! ## What it writes -/

section
variable (s : State) (q : Seq) (p : List Byte) (d base : Nat)

theorem State.seq_appendWritten (j : Nat) : (s.appendWritten q p d base).seq j = s.seq j := by
  obtain ⟨m, hm⟩ := s.hbmWrites_eq (apWrites q p base)
  rw [State.appendWritten, hm]; rfl

theorem State.hbm_appendWritten : (s.appendWritten q p d base).hbm = (s.hbmWrites (apWrites q p base)).hbm := rfl

theorem State.desc_appendWritten (e : Nat) : (s.appendWritten q p d base).desc e =
    if e = d then (s.desc d).map fun x => { x with valid := apStart p % 16 + apCount p } else s.desc e := by
  obtain ⟨m, hm⟩ := s.hbmWrites_eq (apWrites q p base)
  rw [State.appendWritten, hm, State.desc_modDesc]; rfl

theorem State.Works.appendWritten {s t : State} {o : SeqOp} {ps : List Part} (h : s.Works o ps t) (hp : .pgt ∈ ps) (hm : .hbm ∈ ps) :
    s.Works o ps (t.appendWritten q p d base) := by
  obtain ⟨m, hmem⟩ := t.hbmWrites_eq (apWrites q p base)
  rw [State.appendWritten, hmem]
  exact (h.setHbm m hm).onPgt rfl rfl hp

end

/-! ## Its beginning and its commit -/

theorem apCount_ne_zero {q : Seq} {p : List Byte} (h : appendCheck q p = none) : apCount p ≠ 0 := by
  intro h0
  simp [appendCheck, h0] at h

theorem not_closed_of_appendCheck {q : Seq} {p : List Byte} (h : appendCheck q p = none) : q.closed = false := by
  by_contra hc
  simp only [appendCheck] at h
  split_ifs at h with h1 h2 h3
  exact h3 (.inr (.inr (by simpa using hc)))

section
variable {s : State} {o : SeqOp} {q : Seq}

theorem State.beginAppend_refused {st : Nat} (hq : s.seq o.seq = some q) (h : appendCheck q o.payload = some st) :
    s.beginAppend o = s.answerOp o st (if st = stALREADY then q.body q.handle (q.len (apLayer o.payload)) else []) := by
  simp only [State.beginAppend, hq, h, State.failOp]
  split <;> rfl

/-- The operation once it is applied. -/
def SeqOp.appended (o : SeqOp) : SeqOp :=
  { o with layer := apLayer o.payload, point := apStart o.payload + apCount o.payload, fresh := [], phase := .acked }

theorem State.beginAppend_fits {d : Nat} {x : Desc} (halone : s.alone) (hops : s.pgt.ops = [o]) (hq : s.seq o.seq = some q)
    (hcheck : appendCheck q o.payload = none) (hg : clsGroups q.def1 = 1) (hfit : apStart o.payload % 16 + apCount o.payload ≤ 16)
    (hd : tfind q.pt (ptKey (apLayer o.payload) 0 (apStart o.payload / 16)) = some d) (hx : s.desc d = some x)
    (hpoison : x.state ≠ .poisoned) :
    s.beginAppend o = (s.appendWritten q o.payload d (x.loc.frame * 2048)).setOps [o.appended] := by
  have hpages := appendPages_one (q := q) hfit hg (apCount_ne_zero hcheck)
  have hblocked : s.appendBlocked o.seq q o.payload = [] := by
    simp [State.appendBlocked, hpages, hq, hd, hx, hpoison]
  have hrows : s.appendRows o.seq q o.payload false = some (s.appendWritten q o.payload d (x.loc.frame * 2048), []) := by
    simp [State.appendRows, hpages, State.appendPage_found hfit hq hd hx]
  obtain ⟨m, hm⟩ := s.hbmWrites_eq (apWrites q o.payload (x.loc.frame * 2048))
  simp only [State.beginAppend, hq, hcheck, hblocked, hrows, List.any_nil, List.isEmpty_nil, Bool.not_true, Bool.false_eq_true, if_false]
  rw [State.appendWritten, hm, State.mirrorOp_of_alone (by exact halone),
    State.modOp_of_ops (o := o) (s := State.modDesc { s with hbm := m } d _) hops]
  exact State.modOp_of_ops (s := State.setOps _ _)
    (o := { o with layer := apLayer o.payload, point := apStart o.payload + apCount o.payload, fresh := [] }) rfl _

/-- The layer's length raised, and the pages that are full due to be sealed. -/
def State.appendCommitted (s : State) (o : SeqOp) (pt : Tbl Nat) : State :=
  (s.modSeq o.seq fun q => q.appended o.payload o.layer o.point).markPages pt
    (fun e => keyLayer e.1 = o.layer ∧ 16 * (keyPos e.1 + 1) ≤ o.point) Desc.due

theorem State.seq_appendCommitted (hq : s.seq o.seq = some q) (pt : Tbl Nat) (j : Nat) :
    (s.appendCommitted o pt).seq j = if j = o.seq then some (q.appended o.payload o.layer o.point) else s.seq j := by
  rw [State.appendCommitted, State.seq_markPages, State.seq_modSeq, hq]
  rfl

theorem State.hbm_appendCommitted (s : State) (o : SeqOp) (pt : Tbl Nat) : (s.appendCommitted o pt).hbm = s.hbm :=
  State.hbm_markPages _ _ _ _

/-- The commit, then the answer. -/
theorem State.commitOp_append (hk : o.kind = .append) (hq : s.seq o.seq = some q) :
    let q' := q.appended o.payload o.layer o.point
    s.commitOp o = (s.appendCommitted o q.pt).answerOp o stOK (q'.body q'.handle (q'.len o.layer)) := by
  intro q'
  have hq' : (s.modSeq o.seq fun q => q.appended o.payload o.layer o.point).seq o.seq = some q' := by
    rw [State.seq_modSeq, if_pos rfl, hq]; rfl
  have hseq : (s.appendCommitted o q.pt).seq o.seq = some q' := (State.seq_appendCommitted hq q.pt o.seq).trans (if_pos rfl)
  have hdue : (s.modSeq o.seq fun q => q.appended o.payload o.layer o.point).dueSeals o.seq o.layer o.point = s.appendCommitted o q.pt :=
    State.dueSeals_eq hq' _ _
  simp only [State.commitOp, hk, State.commitAppend, hdue, hseq]

end

/-- The layer an APPEND has grown. -/
theorem Seq.len_appended {q : Seq} {p : List Byte} {layer point : Nat} (h : layer < q.layerLen.length) :
    (q.appended p layer point).len layer = point := by
  simp [Seq.len, Seq.appended, h]

end Sys2Proof.Machine

end

section
/-! The statement of APPEND (R49, R50). -/

namespace Sys2Proof.Proofs.Sequences
open Sys2Proof Sys2Proof.Machine

section
variable {s : State} {c : Conduit} {m : W32} {p : List Byte} {k : Nat} {q : Seq}

theorem begins_append (h : s.takes c.val (lat p 0 8) k q) (hlen : 16 ≤ p.length) :
    s.Begins 0x08 k .append c.val m.toNat p q :=
  ⟨h, by simpa [reqFormatBad] using hlen, rfl, rfl, .inl rfl⟩

/-- An APPEND that R49 refuses is answered as it begins. -/
theorem append_refused {st : Nat} (h : s.takes c.val (lat p 0 8) k q) (hlen : 16 ≤ p.length) (hcheck : appendCheck q p = some st) :
    (Instr.append c m p).gives s fun t =>
      s.answered c.val m.toNat st (if st = stALREADY then q.body q.handle (q.len (apLayer p)) else []) t ∧
      t.seq k = some { q with lastUse := s.usec } ∧ t.pgt.descs = s.pgt.descs ∧ s.only [.pgt, .twn, .trl] t := by
  have hb := begins_append (m := m) h hlen
  have hq : (s.begun 0x08 k .append c.val m.toNat p).seq k = some { q with lastUse := s.usec } := by
    rw [State.seq_begun h.2.2.2.2.2.2.1, if_pos rfl]
  obtain ⟨hans, hseq, hdesc, honly⟩ := hb.answered_begun st (if st = stALREADY then q.body q.handle (q.len (apLayer p)) else [])
  refine ⟨_, hb.exec_answered rfl ?_, hans, ?_, hdesc, honly⟩
  · exact State.beginAppend_refused (o := s.request k .append c.val m.toNat p) (q := { q with lastUse := s.usec }) hq hcheck
  · rw [hseq, if_pos rfl]

/-- An APPEND whose tokens fit in a page that is there: what is answered, and the state it is answered in. -/
theorem append_fits {d : Nat} {x : Desc} (h : s.takes c.val (lat p 0 8) k q) (hlen : 16 ≤ p.length) (hcheck : appendCheck q p = none)
    (hg : clsGroups q.def1 = 1) (hfit : apStart p % 16 + apCount p ≤ 16) (hlayer : apLayer p < q.layerLen.length)
    (hd : tfind q.pt (ptKey (apLayer p) 0 (apStart p / 16)) = some d) (hx : s.desc d = some x) (hpoison : x.state ≠ .poisoned) :
    let o := (s.request k .append c.val m.toNat p).appended
    let q' := { q with lastUse := s.usec }.appended p (apLayer p) (apStart p + apCount p)
    ∃ z : State, exec (.append c m p) s = .next (s.commit (z.answerOp o stOK (q'.body q.handle (apStart p + apCount p)))) ∧
      s.Works o [.pgt, .twn, .trl, .hbm] z ∧ (∀ j, z.seq j = if j = k then some q' else s.seq j) ∧
      z.hbm = (s.hbmWrites (apWrites q p (x.loc.frame * 2048))).hbm ∧
      (∃ y, z.desc d = some y ∧ y.valid = apStart p % 16 + apCount p) ∧ ∀ e, e ∉ q.pt.map Prod.snd → z.desc e = s.desc e := by
  intro o q'
  have hb := begins_append (m := m) h hlen
  obtain ⟨-, hquiet, halone, -, -, -, hq, -, -⟩ := h
  let u := s.begun 0x08 k .append c.val m.toNat p
  let q1 : Seq := { q with lastUse := s.usec }
  let w := u.appendWritten q1 p d (x.loc.frame * 2048)
  let a := w.setOps [o]
  let z := a.appendCommitted o q1.pt
  have hu : s.Works (s.request k .append c.val m.toNat p) [.pgt, .twn, .trl, .hbm] u := (State.works_begun hquiet).mono (by decide)
  have huq : ∀ j, u.seq j = if j = k then some q1 else s.seq j := State.seq_begun hq
  have ha : s.Works o [.pgt, .twn, .trl, .hbm] a :=
    (hu.appendWritten q1 p d (x.loc.frame * 2048) (by decide) (by decide)).setOps o (by decide)
  have haq : ∀ j, a.seq j = if j = k then some q1 else s.seq j := fun j =>
    (w.seq_setOps [o] j).trans ((u.seq_appendWritten q1 p d (x.loc.frame * 2048) j).trans (huq j))
  have had : ∀ e, a.desc e = if e = d then some { x with valid := apStart p % 16 + apCount p } else s.desc e := fun e =>
    (w.desc_setOps [o] e).trans
      ((u.desc_appendWritten q1 p d (x.loc.frame * 2048) e).trans (by rw [show u.desc = s.desc from rfl, hx]; rfl))
  have hzd : ∀ e, z.desc e = if ∃ y ∈ q1.pt, (keyLayer y.1 = o.layer ∧ 16 * (keyPos y.1 + 1) ≤ o.point) ∧ y.2 = e
      then (a.desc e).map Desc.due else a.desc e := fun e => State.desc_markPages _ _ Desc.due_due e q1.pt _
  have hbegin : (s.placed 0x08 k .append c.val m.toNat p).beginOp (s.request k .append c.val m.toNat p) = a :=
    State.beginAppend_fits (o := s.request k .append c.val m.toNat p) (q := q1) halone hu.ops ((huq k).trans (if_pos rfl)) hcheck hg hfit
      hd hx hpoison
  have hz : s.Works o [.pgt, .twn, .trl, .hbm] z := (ha.onPgt rfl rfl (by decide)).markPages _ _ _ (by decide)
  have hcommit : a.commitOp o = z.answerOp o stOK (q'.body q.handle (apStart p + apCount p)) := by
    have hlen' : q'.len o.layer = apStart p + apCount p := Seq.len_appended hlayer
    rw [← hlen']
    exact State.commitOp_append rfl ((haq k).trans (if_pos rfl))
  refine ⟨z, hb.exec_committed rfl hbegin ha rfl hcommit hz, hz, fun j => ?_, ?_, ?_, fun e he => ?_⟩
  · rw [State.seq_appendCommitted ((haq k).trans (if_pos rfl)), haq]
    exact ite_congr rfl (fun _ => rfl) fun h => if_neg h
  · calc z.hbm = w.hbm := (State.hbm_appendCommitted a o q1.pt).trans (w.hbm_setOps [o])
      _ = (u.hbmWrites (apWrites q p (x.loc.frame * 2048))).hbm := u.hbm_appendWritten q1 p d _
      _ = (s.hbmWrites (apWrites q p (x.loc.frame * 2048))).hbm := State.hbm_hbmWrites_congr (s.hbm_begun _ _ _ _ _ _) _
  · rw [hzd, had, if_pos rfl]
    split
    · exact ⟨_, rfl, Desc.valid_due _⟩
    · exact ⟨_, rfl, rfl⟩
  · have hne : ∀ y ∈ q1.pt, y.2 ≠ e := fun y hy hye => he (hye ▸ List.mem_map_of_mem (f := Prod.snd) hy)
    have hde : e ≠ d := (hne _ (mem_of_tfind hd)).symm
    rw [hzd, if_neg, had, if_neg hde]
    rintro ⟨y, hy, -, hye⟩
    exact hne y hy hye

end

/-- Settles O37: an APPEND in a page that is there is applied as it begins and committed next; one refused is answered at once. -/
theorem appends : Obligations.Appends := by
  intro s c m p k q htakes hlen
  refine ⟨fun hcheck hg hfit hlayer d x hd hx hpoison hend => ?_, fun hcheck => ?_, fun hcheck => ?_⟩
  case refine_2 =>
    obtain ⟨t, ht, hans, hrest⟩ := append_refused htakes hlen hcheck
    exact ⟨t, ht, ⟨_, hans⟩, hrest⟩
  case refine_3 => exact append_refused htakes hlen hcheck
  case refine_1 =>
    obtain ⟨z, hexec, hz, hseq, hhbm, ⟨y, hy, hvalid⟩, hdesc⟩ :=
      append_fits (m := m) htakes hlen hcheck hg hfit hlayer hd hx hpoison
    have hbyte : ∀ o b a, byteOf (s.commit (z.answerOp o stOK b)).hbm a = byteOf (s.hbmWrites (apWrites q p (x.loc.frame * 2048))).hbm a :=
      fun o b a => (State.byteOf_commit_answerOp _ _ _ _ _ _).trans (by rw [hhbm])
    refine ⟨_, hexec, fun i hi y hy => ?_, fun a ha => ?_, ?_, fun e he => ?_, fun j hj => ?_, 
      ⟨{ q with lastUse := s.usec }.appended p (apLayer p) (apStart p + apCount p), ?_, rfl, rfl, rfl, ?_⟩, ?_⟩
    · have hw : (x.loc.frame * 2048 + y.1, slice (apToken q p i) y.2.2 y.2.1) ∈ apWrites q p (x.loc.frame * 2048) :=
        List.mem_flatMap.mpr ⟨i, List.mem_range.mpr hi, List.mem_map_of_mem (f := fun y : Nat × Nat × Nat => (_, _)) hy⟩
      have hle := mem_apWrites_le hfit (x.loc.frame * 2048) _ hw
      have hread := State.hbmRead_hbmWrites (hle.2.trans hend) _ s (apWrites_pairwise hfit (x.loc.frame * 2048)) hw
      rw [slice_length] at hread
      refine (State.hbmRead_congr fun _ _ => hbyte _ _ _).trans (hread.trans ?_)
      rw [apToken, apHead_eq]
      rfl
    · rw [hbyte]
      refine State.byteOf_hbmWrites_outside _ _ fun w hw => ?_
      have := mem_apWrites_le hfit (x.loc.frame * 2048) w hw
      omega
    · rw [State.desc_commit_answerOp, hy]
      exact congrArg some hvalid
    · rw [State.desc_commit_answerOp, hdesc e he]
    · rw [State.seq_commit_answerOp, hseq, if_neg hj]
    · rw [State.seq_commit_answerOp, hseq, if_pos rfl]
    · exact hz.answered stOK _ htakes.2.2.2.1
    · exact hz.only_answered stOK _ (by decide) (by decide)

end Sys2Proof.Proofs.Sequences

end

section
/-! SUPPORT. References dropped and page tables trimmed: what they change in the tables of the PGT (R42, R57, R61). -/

namespace Sys2Proof.Machine

/-- `t` is `s` with descriptors, deferred reclamation and page tables changed. -/
def State.releases (s t : State) : Prop :=
  ∃ ds r tb, t = s.onPgt fun g => { g with descs := ds, reclaim := r, tables := tb }

namespace State.releases
variable {s t u : State}

theorem refl (s : State) : s.releases s := ⟨s.pgt.descs, s.pgt.reclaim, s.pgt.tables, rfl⟩

theorem trans (h : s.releases t) (h' : t.releases u) : s.releases u := by
  obtain ⟨ds, r, tb, rfl⟩ := h
  obtain ⟨ds', r', tb', rfl⟩ := h'
  exact ⟨ds', r', tb', rfl⟩

theorem foldl {α : Type} {f : State → α → State} (hf : ∀ (s : State) x, s.releases (f s x)) (l : List α) :
    ∀ s : State, s.releases (l.foldl f s) := by
  induction l with
  | nil => exact refl
  | cons x l ih => exact fun s => (hf s x).trans (ih _)

theorem seq (h : s.releases t) (j : Nat) : t.seq j = s.seq j := by
  obtain ⟨_, _, _, rfl⟩ := h
  rfl

theorem works {o : SeqOp} {ps : List Part} (h : t.releases u) (hw : s.Works o ps t) (hp : .pgt ∈ ps) : s.Works o ps u := by
  obtain ⟨_, _, _, rfl⟩ := h
  exact hw.onPgt rfl rfl hp

/-- All but the tables of the PGT stands, and of these the order, the sequences and their chunks. -/
theorem frame (h : s.releases t) : t.pgt.ops = s.pgt.ops ∧ t.pgt.copies = s.pgt.copies ∧ t.pgt.seqs = s.pgt.seqs ∧
    t.pgt.seqChunks = s.pgt.seqChunks ∧ t.pgt.freeing = s.pgt.freeing ∧ t.pgt.gens = s.pgt.gens ∧ s.only [.pgt] t := by
  obtain ⟨_, _, _, rfl⟩ := h
  exact ⟨rfl, rfl, rfl, rfl, rfl, rfl, s.only_onPgt _⟩

end State.releases

/-! ## One reference -/

section
variable (s : State) (d : Nat)

theorem State.releases_dropRef : s.releases (s.dropRef d) := by
  unfold State.dropRef
  split
  · exact .refl s
  · dsimp only
    split
    · exact ⟨_, _, _, rfl⟩
    · exact ⟨_, _, _, rfl⟩

theorem State.desc_dropRef_ne {e : Nat} (h : e ≠ d) : (s.dropRef d).desc e = s.desc e := by
  have hmod : ∀ (u : State) f, (u.modDesc d f).desc e = u.desc e := fun u f => by rw [State.desc_modDesc, if_neg h]
  unfold State.dropRef
  split
  · rfl
  · dsimp only
    split
    · exact (hmod _ _).trans (hmod _ _)
    · exact hmod _ _

theorem State.refcnt_dropRef : ((s.dropRef d).desc d).map (·.refcnt) = (s.desc d).map (·.refcnt - 1) := by
  have hmod : ∀ (u : State) f, (u.modDesc d f).desc d = (u.desc d).map f := fun u f => by rw [State.desc_modDesc, if_pos rfl]
  unfold State.dropRef
  split
  · next h => rw [h]; rfl
  · next x h =>
    dsimp only
    split
    · refine (congrArg (Option.map (·.refcnt)) ((hmod _ _).trans (congrArg (Option.map _) (hmod _ _)))).trans ?_
      rw [h]; rfl
    · rw [hmod, h]; rfl

/-- The last reference gone, the page is under deferred reclamation. -/
theorem State.reclaim_dropRef {x : Desc} (hx : s.desc d = some x) (h1 : x.refcnt ≤ 1) : ∃ r ∈ (s.dropRef d).pgt.reclaim, r.desc = some d := by
  simp only [State.dropRef, hx, h1, if_true]
  exact ⟨_, List.mem_append_right _ (List.mem_singleton.mpr rfl), rfl⟩

theorem State.reclaim_subset_dropRef : s.pgt.reclaim ⊆ (s.dropRef d).pgt.reclaim := by
  unfold State.dropRef
  split
  · exact List.Subset.refl _
  · dsimp only
    split
    · exact List.subset_append_left _ _
    · exact List.Subset.refl _

end

/-! ## References of a list of pages -/

/-- One reference of each page of a list dropped. -/
def State.dropRefs (s : State) (l : List Nat) : State := l.foldl State.dropRef s

theorem State.releases_dropRefs (s : State) (l : List Nat) : s.releases (s.dropRefs l) :=
  State.releases.foldl State.releases_dropRef l s

theorem State.desc_dropRefs_notMem {e : Nat} : ∀ (l : List Nat) (s : State), e ∉ l → (s.dropRefs l).desc e = s.desc e := by
  intro l
  induction l with
  | nil => exact fun _ _ => rfl
  | cons d l ih =>
    intro s h
    obtain ⟨hd, hl⟩ := List.ne_and_not_mem_of_not_mem_cons h
    exact (ih (s.dropRef d) hl).trans (s.desc_dropRef_ne d hd)

theorem State.refcnt_dropRefs {e : Nat} : ∀ (l : List Nat) (s : State), l.Nodup → e ∈ l →
    ((s.dropRefs l).desc e).map (·.refcnt) = (s.desc e).map (·.refcnt - 1) := by
  intro l
  induction l with
  | nil => exact fun _ _ h => absurd h List.not_mem_nil
  | cons d l ih =>
    intro s hn he
    obtain ⟨hd, hl⟩ := List.nodup_cons.mp hn
    obtain rfl | he := List.mem_cons.mp he
    · exact (congrArg _ (State.desc_dropRefs_notMem l (s.dropRef e) hd)).trans (s.refcnt_dropRef e)
    · have hne : e ≠ d := fun h => hd (h ▸ he)
      exact (ih (s.dropRef d) hl he).trans (congrArg _ (s.desc_dropRef_ne d hne))

theorem State.reclaim_subset_dropRefs : ∀ (l : List Nat) (s : State), s.pgt.reclaim ⊆ (s.dropRefs l).pgt.reclaim := by
  intro l
  induction l with
  | nil => exact fun s => List.Subset.refl _
  | cons d l ih => exact fun s => List.Subset.trans (s.reclaim_subset_dropRef d) (ih (s.dropRef d))

theorem State.reclaim_dropRefs {e : Nat} {x : Desc} (h1 : x.refcnt ≤ 1) : ∀ (l : List Nat) (s : State), l.Nodup → e ∈ l →
    s.desc e = some x → ∃ r ∈ (s.dropRefs l).pgt.reclaim, r.desc = some e := by
  intro l
  induction l with
  | nil => exact fun _ _ h => absurd h List.not_mem_nil
  | cons d l ih =>
    intro s hn he hx
    obtain ⟨hd, hl⟩ := List.nodup_cons.mp hn
    obtain rfl | he := List.mem_cons.mp he
    · obtain ⟨r, hr, hre⟩ := s.reclaim_dropRef e hx h1
      exact ⟨r, State.reclaim_subset_dropRefs l _ hr, hre⟩
    · have hne : e ≠ d := fun h => hd (h ▸ he)
      exact ih (s.dropRef d) hl he ((s.desc_dropRef_ne d hne).trans hx)

/-! ## Page tables -/

theorem State.releases_trimTables (s : State) (k : Nat) : s.releases (s.trimTables k) := by
  unfold State.trimTables
  dsimp only
  split
  · exact .refl s
  · exact (State.releases.foldl (fun u a => ⟨_, _, _, rfl⟩) _ s).trans ⟨_, _, _, rfl⟩

theorem State.trimTables_keeps (s : State) (k : Nat) : (∀ e, (s.trimTables k).desc e = s.desc e) ∧
    s.pgt.reclaim ⊆ (s.trimTables k).pgt.reclaim := by
  have hfold : ∀ (l : List Nat) (u : State),
      (∀ e, (l.foldl (fun s a => s.retireFrame ⟨.hbm, 0, a⟩ (2 ^ 12) 0 true) u).desc e = u.desc e) ∧
        u.pgt.reclaim ⊆ (l.foldl (fun s a => s.retireFrame ⟨.hbm, 0, a⟩ (2 ^ 12) 0 true) u).pgt.reclaim := by
    intro l
    induction l with
    | nil => exact fun u => ⟨fun _ => rfl, List.Subset.refl _⟩
    | cons a l ih =>
      intro u
      obtain ⟨hd, hr⟩ := ih (u.retireFrame ⟨.hbm, 0, a⟩ (2 ^ 12) 0 true)
      exact ⟨hd, List.Subset.trans (List.subset_append_left _ _) hr⟩
  unfold State.trimTables
  dsimp only
  split
  · exact ⟨fun _ => rfl, List.Subset.refl _⟩
  · exact hfold _ s

/-! ## The commit of a TRUNCATE at a page boundary (R58) -/

theorem tfind_filter {α : Type} (P : Nat → Bool) (k : Nat) (t : Tbl α) :
    tfind (t.filter fun e => P e.1) k = if P k then tfind t k else none := by
  induction t with
  | nil => simp [tfind]
  | cons e t ih =>
    obtain ⟨a, x⟩ := e
    by_cases hk : a = k
    · subst hk
      by_cases hP : P a <;> simp [hP, tfind, ih]
    · by_cases hP : P a <;> simp [hP, tfind, hk, ih]

/-- Entries of a page table below position t / 16, and the pages of the others. -/
def keptBelow (pt : Tbl Nat) (t : Nat) : Tbl Nat := pt.filter fun e => decide (16 * keyPos e.1 < t)
def goneFrom (pt : Tbl Nat) (t : Nat) : List Nat := (pt.filter fun e => !decide (16 * keyPos e.1 < t)).map Prod.snd

theorem truncated_eq (pt : Tbl Nat) (t : Nat) : truncated pt t [] = (keptBelow pt t, goneFrom pt t) := by
  simp [truncated, keptBelow, goneFrom]

theorem nodup_goneFrom {pt : Tbl Nat} (h : (pt.map Prod.snd).Nodup) (t : Nat) : (goneFrom pt t).Nodup :=
  h.sublist (List.filter_sublist.map Prod.snd)

theorem mem_goneFrom {pt : Tbl Nat} (h : (pt.map Prod.snd).Nodup) (t : Nat) {e : Nat × Nat} (he : e ∈ pt) :
    e.2 ∈ goneFrom pt t ↔ ¬ 16 * keyPos e.1 < t := by
  constructor
  · intro hm
    obtain ⟨e', he', heq⟩ := List.mem_map.mp hm
    obtain ⟨hpt, hcut⟩ := List.mem_filter.mp he'
    obtain rfl : e' = e := List.inj_on_of_nodup_map h hpt he heq
    simpa using hcut
  · exact fun hcut => List.mem_map.mpr ⟨e, List.mem_filter.mpr ⟨he, by simpa using hcut⟩, rfl⟩

/-- The record a TRUNCATE leaves. -/
def Seq.cut (q : Seq) (t : Nat) : Seq :=
  let br := q.broken || (clsPrefix q.def1 && decide (t / 16 < q.keyed))
  { q with
    pt := keptBelow q.pt t, closed := false, layerLen := q.layerLen.map (fun _ => t), broken := br,
    tokids := if br then [] else q.tokids.take (t - 16 * q.keyed),
    pendKeys := if br then [] else q.pendKeys.filter (fun x => x.1 < t / 16) }

theorem State.modSeq_congr {s : State} {k : Nat} {q : Seq} {f g : Seq → Seq} (hq : s.seq k = some q) (h : f q = g q) :
    s.modSeq k f = s.modSeq k g := by
  have hq' : tfind s.pgt.seqs k = some q := hq
  simp only [State.modSeq, State.onPgt, tmod, hq', h]

section
variable {s : State} {k n : Nat} {q : Seq} (hq : s.seq k = some q) (hn : n % 16 = 0)
include hq hn

theorem State.truncateSeq_eq : s.truncateSeq k n [] = ((s.modSeq k fun _ => q.cut n).dropRefs (goneFrom q.pt n)).trimTables k := by
  simp only [State.truncateSeq, hq, truncated_eq, hn, if_true]
  exact congrArg (fun u => (State.dropRefs u _).trimTables k) (State.modSeq_congr hq rfl)

theorem State.seq_truncateSeq (j : Nat) : (s.truncateSeq k n []).seq j = if j = k then some (q.cut n) else s.seq j := by
  rw [State.truncateSeq_eq hq hn, (State.releases_trimTables _ k).seq, (State.releases_dropRefs _ _).seq, State.seq_modSeq, hq]
  rfl

/-- One reference less of each page cut off. -/
theorem State.refcnt_truncateSeq (hpt : (q.pt.map Prod.snd).Nodup) {e : Nat × Nat} (he : e ∈ q.pt) {x : Desc} (hx : s.desc e.2 = some x) :
    ((s.truncateSeq k n []).desc e.2).map (·.refcnt) = some (if 16 * keyPos e.1 < n then x.refcnt else x.refcnt - 1) := by
  rw [State.truncateSeq_eq hq hn, (State.trimTables_keeps _ k).1]
  have hx' : (s.modSeq k fun _ => q.cut n).desc e.2 = some x := hx
  split
  · next h => rw [State.desc_dropRefs_notMem _ _ fun hm => (mem_goneFrom hpt n he).mp hm h, hx']; rfl
  · next h => rw [State.refcnt_dropRefs _ _ (nodup_goneFrom hpt n) ((mem_goneFrom hpt n he).mpr h), hx']; rfl

theorem State.Works.truncateSeq {u : State} {o : SeqOp} {ps : List Part} (h : u.Works o ps s) (hp : .pgt ∈ ps) :
    u.Works o ps (s.truncateSeq k n []) := by
  rw [State.truncateSeq_eq hq hn]
  exact (State.releases_trimTables _ k).works ((State.releases_dropRefs _ _).works (h.onPgt rfl rfl hp) hp) hp

end

end Sys2Proof.Machine

end

section
/-! SUPPORT. SEAL, TRUNCATE and FREE from their beginning to their answer (R58 to R60). -/

namespace Sys2Proof.Machine

/-- The operation once it may commit. -/
def SeqOp.acknowledged (o : SeqOp) : SeqOp := { o with phase := .acked }

/-- Nothing is mirrored: the one operation may commit at once. -/
theorem State.mirrorOp_eq_setOps {s : State} {o : SeqOp} (h : s.alone) (ho : s.pgt.ops = [o]) (mop handle : Nat) (b : List Byte) :
    s.mirrorOp o mop handle b = s.setOps [o.acknowledged] := by
  rw [State.mirrorOp_of_alone h]
  exact State.modOp_of_ops ho _

section
variable {s : State} {o : SeqOp} {q : Seq} (hq : s.seq o.seq = some q)
include hq

/-! ## SEAL -/

theorem State.beginSeal_open (halone : s.alone) (hops : s.pgt.ops = [o]) (hc : q.closed = false)
    (hl : ∀ l ∈ q.layerLen, l = q.length) : s.beginSeal o = s.setOps [o.acknowledged] := by
  have hany : q.layerLen.any (· != q.length) = false := by simpa using hl
  simp only [State.beginSeal, hq, hc, hany, Bool.false_eq_true, if_false]
  exact State.mirrorOp_eq_setOps halone hops _ _ _

theorem State.beginSeal_closed (hc : q.closed = true) : s.beginSeal o = s.answerOp o stALREADY (q.body q.handle q.length) := by
  simp only [State.beginSeal, hq, hc, if_true]

theorem State.seq_closeSeq (j : Nat) : (s.closeSeq o.seq).seq j = if j = o.seq then some { q with closed := true } else s.seq j := by
  rw [State.closeSeq_eq hq, State.seq_markPages, State.seq_modSeq, hq]
  rfl

theorem State.desc_closeSeq (d : Nat) : (s.closeSeq o.seq).desc d =
    (s.desc d).map fun x => if d ∈ q.pt.map Prod.snd ∧ x.state = .tadpole then { x with sealDue := true } else x := by
  rw [State.closeSeq_eq hq]
  refine (State.desc_markPages _ _ Desc.due_due d q.pt _).trans ?_
  have hdesc : (s.modSeq o.seq fun q => { q with closed := true }).desc d = s.desc d := rfl
  have hmem : (∃ e ∈ q.pt, True ∧ e.2 = d) ↔ d ∈ q.pt.map Prod.snd := by simp
  rw [hdesc]
  by_cases h : d ∈ q.pt.map Prod.snd
  · rw [if_pos (hmem.mpr h)]
    refine congrArg (Option.map · _) (funext fun x => ?_)
    simp only [Desc.due, beq_iff_eq, h, true_and]
  · rw [if_neg (mt hmem.mp h)]
    simp only [h, false_and, if_false, Option.map_id']

theorem State.Works.closeSeq {u : State} {o' : SeqOp} {ps : List Part} (h : u.Works o' ps s) (hp : .pgt ∈ ps) :
    u.Works o' ps (s.closeSeq o.seq) := by
  rw [State.closeSeq_eq hq]
  exact (h.onPgt rfl rfl hp).markPages _ _ _ hp

theorem State.commitOp_seal (hk : o.kind = .seal) :
    s.commitOp o = (s.closeSeq o.seq).answerOp o stOK ({ q with closed := true }.body q.handle q.length) := by
  have hseq := (State.seq_closeSeq hq o.seq).trans (if_pos rfl)
  simp only [State.commitOp, hk, State.commitSeal, hseq]
  rfl

/-! ## TRUNCATE -/

/-- The TRUNCATE at point n once it may commit. -/
def SeqOp.truncating (o : SeqOp) (n : Nat) : SeqOp := { o with point := n, fresh := [], epoch := none, phase := .acked }

theorem State.beginTruncate_beyond (h : ∃ l ∈ q.layerLen, l < trT o.payload) : s.beginTruncate o = s.answerOp o stBOUNDS [] := by
  have hany : q.layerLen.any (· < trT o.payload) = true := by simpa using h
  simp only [State.beginTruncate, hq, hany, if_true]
  rfl

/-- At a page boundary nothing is copied. -/
theorem State.beginTruncate_boundary (halone : s.alone) (hops : s.pgt.ops = [o]) (h16 : trT o.payload % 16 = 0)
    (hprefix : clsPrefix q.def1 = false) (hle : ∀ l ∈ q.layerLen, trT o.payload ≤ l)
    (hsome : q.closed = true ∨ ∃ l ∈ q.layerLen, l ≠ trT o.payload) :
    s.beginTruncate o = s.setOps [o.truncating (trT o.payload)] := by
  have hany : q.layerLen.any (· < trT o.payload) = false := by simpa using hle
  have hall : (q.layerLen.all (· == trT o.payload) && !q.closed) = false := by
    rcases hsome with h | h
    · simp [h]
    · have : q.layerLen.all (· == trT o.payload) = false := by simpa using h
      simp [this]
  have hcopies : s.partCopies o.id q (trT o.payload) (hPart q.handle) true = some (s, []) := by simp [State.partCopies, h16]
  have hpurge : q.purgeDue (trT o.payload) = false := by simp [Seq.purgeDue, hprefix]
  simp only [State.beginTruncate, hq, hany, hall, hcopies, List.isEmpty_nil, Bool.false_eq_true, if_false, if_true]
  rw [State.modOp_of_ops hops]
  have hq' : ∀ l, (s.setOps l).seq o.seq = some q := fun _ => hq
  simp only [State.truncateCopied, hq', hpurge, Bool.false_and, Bool.false_eq_true, if_false]
  exact State.mirrorOp_eq_setOps (s := s.setOps [{ o with point := trT o.payload, fresh := [], epoch := none, phase := .copying }])
    halone rfl _ _ _

/-- The pages cut off, and the purges of this operation given their epoch. -/
def State.truncateCommitted (s : State) (o : SeqOp) : State :=
  (s.truncateSeq o.seq o.point o.fresh).onPdir fun p => { p with
    purges := p.purges.map (fun x => if x.2.op == o.id && x.2.epoch.isNone then
      (x.1, { x.2 with epoch := some (s.truncateSeq o.seq o.point o.fresh).pgt.epoch }) else x) }

omit hq in
theorem State.commitOp_truncate {q' : Seq} (hk : o.kind = .truncate) (hq' : (s.truncateSeq o.seq o.point o.fresh).seq o.seq = some q') :
    s.commitOp o = (s.truncateCommitted o).answerOp o stOK (q'.body q'.handle q'.length) := by
  have hseq : (s.truncateCommitted o).seq o.seq = some q' := hq'
  simp only [State.truncateCommitted] at hseq
  simp only [State.commitOp, hk, State.commitTruncate, hseq, State.truncateCommitted]

/-! ## FREE -/

theorem State.beginFree_eq (halone : s.alone) (hops : s.pgt.ops = [o]) : s.beginFree o = s.setOps [o.acknowledged] := by
  simp only [State.beginFree, hq]
  exact State.mirrorOp_eq_setOps halone hops _ _ _

/-- The sequence FREEING. -/
def State.freeCommitted (s : State) (k : Nat) : State :=
  (s.modSeq k fun q => { q with sstate := .freeing }).onPgt fun p => { p with freeing := p.freeing ++ [k] }

theorem State.commitOp_free (hk : o.kind = .free) : s.commitOp o = (s.freeCommitted o.seq).answerOp o stOK (q.body q.handle q.length) := by
  simp only [State.commitOp, hk, State.commitFree, hq]
  rfl

end

end Sys2Proof.Machine

end

section
/-! SUPPORT. What SEAL, TRUNCATE and FREE of a sequence held here leave (R58 to R60). -/

namespace Sys2Proof.Machine

section
variable {s : State} {c : Conduit} {m : W32} {p : List Byte} {k : Nat} {q : Seq}

/-! ## SEAL -/

section
variable (h : s.takes c.val (lat p 0 8) k q) (hlen : p.length = 8)
include h hlen

theorem State.begins_seal : s.Begins 0x09 k .seal c.val m.toNat p q :=
  ⟨h, by simp [reqFormatBad, hlen], rfl, rfl, .inr (.inl rfl)⟩

theorem State.seal_open (hc : q.closed = false) (hl : ∀ l ∈ q.layerLen, l = q.length) :
    (Instr.sealSeq c m p).gives s fun t =>
      t.seq k = some { q with closed := true, lastUse := s.usec } ∧
      (∀ d, t.desc d = (s.desc d).map fun x =>
        if d ∈ q.pt.map Prod.snd ∧ x.state = .tadpole then { x with sealDue := true } else x) ∧
      s.answered c.val m.toNat stOK ({ q with closed := true }.body q.handle q.length) t ∧ (∀ j, j ≠ k → t.seq j = s.seq j) ∧
      s.only [.pgt, .twn, .trl] t := by
  have hb := State.begins_seal (m := m) h hlen
  obtain ⟨-, hquiet, halone, hsends, -, -, hq, -, -⟩ := h
  let u := s.begun 0x09 k .seal c.val m.toNat p
  let o := s.request k .seal c.val m.toNat p
  let q1 : Seq := { q with lastUse := s.usec }
  let a := u.setOps [o.acknowledged]
  have hu : s.Works o [.pgt, .twn, .trl] u := State.works_begun hquiet
  have ha : s.Works o.acknowledged [.pgt, .twn, .trl] a := hu.setOps _ (by decide)
  have haq : ∀ j, a.seq j = if j = k then some q1 else s.seq j := fun j => (u.seq_setOps _ j).trans (State.seq_begun hq j)
  have hak : a.seq o.acknowledged.seq = some q1 := (haq k).trans (if_pos rfl)
  have hbegin : (s.placed 0x09 k .seal c.val m.toNat p).beginOp o = a :=
    State.beginSeal_open (s := u) (o := o) (q := q1) ((State.seq_begun hq k).trans (if_pos rfl)) (hu.alone halone) hu.ops hc hl
  have hz := State.Works.closeSeq hak ha (by decide)
  have had : a.desc = s.desc := rfl
  refine ⟨_, hb.exec_committed rfl hbegin ha rfl (State.commitOp_seal hak rfl) hz, ?_, fun d => ?_, hz.answered _ _ hsends, fun j hj => ?_,
    hz.only_answered _ _ (by decide) (by decide)⟩
  · exact (State.seq_commit_answerOp _ _ _ _ _ _).trans ((State.seq_closeSeq hak k).trans (if_pos rfl))
  · exact (State.desc_commit_answerOp _ _ _ _ _ _).trans ((State.desc_closeSeq hak d).trans (by rw [had]))
  · exact (State.seq_commit_answerOp _ _ _ _ _ _).trans
      ((State.seq_closeSeq hak j).trans ((if_neg hj).trans ((haq j).trans (if_neg hj))))

theorem State.seal_closed (hc : q.closed = true) :
    (Instr.sealSeq c m p).gives s fun t =>
      t.seq k = some { q with lastUse := s.usec } ∧ s.answered c.val m.toNat stALREADY (q.body q.handle q.length) t ∧
      t.pgt.descs = s.pgt.descs ∧ s.only [.pgt, .twn, .trl] t := by
  have hb := State.begins_seal (m := m) h hlen
  have hq : (s.begun 0x09 k .seal c.val m.toNat p).seq k = some { q with lastUse := s.usec } :=
    (State.seq_begun h.2.2.2.2.2.2.1 k).trans (if_pos rfl)
  obtain ⟨hans, hseq, hdesc, honly⟩ := hb.answered_begun stALREADY (q.body q.handle q.length)
  exact ⟨_, hb.exec_answered rfl (State.beginSeal_closed (o := s.request k .seal c.val m.toNat p) hq hc), (hseq k).trans (if_pos rfl), hans,
    hdesc, honly⟩

/-! ## FREE -/

theorem State.begins_free : s.Begins 0x0B k .free c.val m.toNat p q :=
  ⟨h, by simp [reqFormatBad, hlen], rfl, rfl, .inr (.inr (.inr rfl))⟩

theorem State.free_active :
    (Instr.free c m p).gives s fun t =>
      t.seq k = some { q with sstate := .freeing, lastUse := s.usec } ∧ k ∈ t.pgt.freeing ∧ t.pgt.descs = s.pgt.descs ∧
      s.answered c.val m.toNat stOK (q.body q.handle q.length) t ∧ (∀ j, j ≠ k → t.seq j = s.seq j) ∧ s.only [.pgt, .twn, .trl] t := by
  have hb := State.begins_free (m := m) h hlen
  obtain ⟨-, hquiet, halone, hsends, -, -, hq, -, -⟩ := h
  let u := s.begun 0x0B k .free c.val m.toNat p
  let o := s.request k .free c.val m.toNat p
  let q1 : Seq := { q with lastUse := s.usec }
  let a := u.setOps [o.acknowledged]
  let z := a.freeCommitted k
  have hu : s.Works o [.pgt, .twn, .trl] u := State.works_begun hquiet
  have ha : s.Works o.acknowledged [.pgt, .twn, .trl] a := hu.setOps _ (by decide)
  have haq : ∀ j, a.seq j = if j = k then some q1 else s.seq j := fun j => (u.seq_setOps _ j).trans (State.seq_begun hq j)
  have hak : a.seq k = some q1 := (haq k).trans (if_pos rfl)
  have hbegin : (s.placed 0x0B k .free c.val m.toNat p).beginOp o = a :=
    State.beginFree_eq (s := u) (o := o) (q := q1) ((State.seq_begun hq k).trans (if_pos rfl)) (hu.alone halone) hu.ops
  have hz : s.Works o.acknowledged [.pgt, .twn, .trl] z := (ha.onPgt rfl rfl (by decide)).onPgt rfl rfl (by decide)
  have hzq : ∀ j, z.seq j = if j = k then some { q1 with sstate := .freeing } else a.seq j := fun j =>
    (State.seq_modSeq a k _ j).trans (by rw [hak]; rfl)
  have hcommit := State.commitOp_free (s := a) (o := o.acknowledged) hak rfl
  refine ⟨_, hb.exec_committed rfl hbegin ha rfl hcommit hz, ?_, ?_, ?_, hz.answered _ _ hsends, fun j hj => ?_,
    hz.only_answered _ _ (by decide) (by decide)⟩
  · exact (State.seq_commit_answerOp _ _ _ _ _ _).trans ((hzq k).trans (if_pos rfl))
  · have hf : (z.answerOp o.acknowledged stOK (q1.body q1.handle q1.length)).pgt.freeing = a.pgt.freeing ++ [k] :=
      State.freeing_answerOp _ _ _ _
    exact hf ▸ List.mem_append_right _ (List.mem_singleton.mpr rfl)
  · exact State.descs_answerOp _ _ _ _
  · exact (State.seq_commit_answerOp _ _ _ _ _ _).trans ((hzq j).trans ((if_neg hj).trans ((haq j).trans (if_neg hj))))

end

/-! ## TRUNCATE -/

section
variable (h : s.takes c.val (lat p 0 8) k q) (hlen : p.length = 16) (hn : lat p 8 4 < 2 ^ 25) (h12 : lat p 12 4 = 0)
include h hlen hn h12

theorem State.begins_truncate : s.Begins 0x0C k .truncate c.val m.toNat p q :=
  ⟨h, by simpa [reqFormatBad, hlen, h12] using hn, rfl, rfl, .inr (.inr (.inl rfl))⟩

theorem State.truncate_beyond (hl : ∃ l ∈ q.layerLen, l < lat p 8 4) :
    (Instr.truncate c m p).gives s fun t =>
      s.answered c.val m.toNat stBOUNDS [] t ∧ t.seq k = some { q with lastUse := s.usec } ∧ t.pgt.descs = s.pgt.descs ∧
      s.only [.pgt, .twn, .trl] t := by
  have hb := State.begins_truncate (m := m) h hlen hn h12
  have hq : (s.begun 0x0C k .truncate c.val m.toNat p).seq k = some { q with lastUse := s.usec } :=
    (State.seq_begun h.2.2.2.2.2.2.1 k).trans (if_pos rfl)
  obtain ⟨hans, hseq, hdesc, honly⟩ := hb.answered_begun stBOUNDS []
  have hl' : ∃ l ∈ q.layerLen, l < trT p := by rwa [trT, Nat.mod_eq_of_lt hn]
  exact ⟨_, hb.exec_answered rfl (State.beginTruncate_beyond (o := s.request k .truncate c.val m.toNat p) hq hl'), hans,
    (hseq k).trans (if_pos rfl), hdesc, honly⟩

theorem State.truncate_boundary (h16 : lat p 8 4 % 16 = 0) (hprefix : clsPrefix q.def1 = false) (hle : ∀ l ∈ q.layerLen, lat p 8 4 ≤ l)
    (hsome : q.closed = true ∨ ∃ l ∈ q.layerLen, l ≠ lat p 8 4) :
    (Instr.truncate c m p).gives s fun t =>
      t.seq k = some ({ q with lastUse := s.usec }.cut (lat p 8 4)) ∧
      ((q.pt.map Prod.snd).Nodup → ∀ e ∈ q.pt, ∀ x, s.desc e.2 = some x →
        (t.desc e.2).map (·.refcnt) = some (if 16 * keyPos e.1 < lat p 8 4 then x.refcnt else x.refcnt - 1)) ∧
      (∃ b, s.answered c.val m.toNat stOK b t) ∧ (∀ j, j ≠ k → t.seq j = s.seq j) ∧ s.only [.pgt, .pdir, .twn, .trl] t := by
  have hb := State.begins_truncate (m := m) h hlen hn h12
  obtain ⟨-, hquiet, halone, hsends, -, -, hq, -, -⟩ := h
  let u := s.begun 0x0C k .truncate c.val m.toNat p
  let o := s.request k .truncate c.val m.toNat p
  let q1 : Seq := { q with lastUse := s.usec }
  let o' := o.truncating (lat p 8 4)
  let a := u.setOps [o']
  let z := a.truncateCommitted o'
  have hu : s.Works o [.pgt, .pdir, .twn, .trl] u := (State.works_begun hquiet).mono (by decide)
  have ha : s.Works o' [.pgt, .pdir, .twn, .trl] a := hu.setOps _ (by decide)
  have haq : ∀ j, a.seq j = if j = k then some q1 else s.seq j := fun j => (u.seq_setOps _ j).trans (State.seq_begun hq j)
  have hak : a.seq k = some q1 := (haq k).trans (if_pos rfl)
  have hT : trT o.payload = lat p 8 4 := Nat.mod_eq_of_lt hn
  have hbegin : (s.placed 0x0C k .truncate c.val m.toNat p).beginOp o = a :=
    (State.beginTruncate_boundary (s := u) (o := o) (q := q1) ((State.seq_begun hq k).trans (if_pos rfl)) (hu.alone halone) hu.ops
      (hT ▸ h16) hprefix (hT ▸ hle) (hT ▸ hsome)).trans (by rw [hT])
  have hz : s.Works o' [.pgt, .pdir, .twn, .trl] z := (State.Works.truncateSeq hak h16 ha (by decide)).onPdir _ (by decide)
  have hzq : ∀ j, z.seq j = if j = k then some (q1.cut (lat p 8 4)) else a.seq j := State.seq_truncateSeq hak h16
  have hcommit := State.commitOp_truncate (s := a) (o := o') rfl ((State.seq_truncateSeq hak h16 k).trans (if_pos rfl))
  refine ⟨_, hb.exec_committed rfl hbegin ha rfl hcommit hz, ?_, fun hpt e he x hx => ?_, ⟨_, hz.answered _ _ hsends⟩, fun j hj => ?_,
    hz.only_answered _ _ (by decide) (by decide)⟩
  · exact (State.seq_commit_answerOp _ _ _ _ _ _).trans ((hzq k).trans (if_pos rfl))
  · exact (congrArg _ (State.desc_commit_answerOp _ _ _ _ _ _)).trans (State.refcnt_truncateSeq hak h16 hpt he hx)
  · exact (State.seq_commit_answerOp _ _ _ _ _ _).trans ((hzq j).trans ((if_neg hj).trans ((haq j).trans (if_neg hj))))

end

/-! ## Requests refused before they take a place -/

section
variable (hr : s.inReset = false) (hquiet : s.quiet) (hsends : s.sends c.val)
include hr hquiet hsends

/-- A request answered with a status as it arrives. -/
theorem State.refused_gives {i : Instr} {code st : Nat} (hi : exec i s = recvOp c m code p s) (hcode : code ≠ 0x01)
    (hrec : (s.takeHanded c.val m.toNat code).recvNamed c.val m.toNat code p none =
      (s.takeHanded c.val m.toNat code).endRequest c.val m.toNat code p none st []) :
    i.gives s fun t => s.answered c.val m.toNat st [] t ∧ t.pgt = s.pgt ∧ s.only [.twn, .trl] t := by
  obtain ⟨ho, hcop, hheld, -⟩ := hquiet
  let u := s.takeHanded c.val m.toNat code
  have hend : u.endRequest c.val m.toNat code p none st [] = u.respond c.val m.toNat (serviceOf code 0) st [] := by
    simp [State.endRequest, hcode]
  obtain ⟨f, hf⟩ : ∃ f, u.respond c.val m.toNat (serviceOf code 0) st [] = u.onTrl f := u.send_plain_eq_onTrl _ _ _ _
  have hsettle : (u.onTrl f).settle = u.onTrl f := State.settle_quiet _ ho hcop hheld
  refine ⟨s.commit (u.onTrl f), ?_, ?_, rfl, State.only_commit ?_⟩
  · rw [hi, recvOp, act_next s _ hr, hrec, hend, hf, hsettle]
  · have hans : u.answered c.val m.toNat st [] (u.respond c.val m.toNat (serviceOf code 0) st []) := State.answered_respond u _ _ _ _ _ hsends
    rw [hf] at hans
    exact hans
  · exact ((s.only_onTrl _).mono (by decide)).then (State.only_onTrl _ f) (by decide)

end

theorem State.recvNamed_malformed (s : State) (c m code : Nat) (p : List Byte) (hbad : reqFormatBad code p = true) :
    s.recvNamed c m code p none = s.endRequest c m code p none stFORMAT [] := by
  simp [State.recvNamed, hbad]

theorem State.recvNamed_unknown {s : State} {c m code : Nat} {p : List Byte} (hgood : reqFormatBad code p = false)
    (hpart : hPart (reqHandle code p) = s.partOf c) (hroute : s.route (reqHandle code p) = .bounds) :
    s.recvNamed c m code p none = s.endRequest c m code p none stBOUNDS [] := by
  simp [State.recvNamed, hgood, hpart, hroute]

end

end Sys2Proof.Machine

end

section
/-! SUPPORT. A sequence freed (R60): its references, its tables and chunks, and its custody record. -/

namespace Sys2Proof.Machine

/-! ## Chunks of the sequence table given back -/

/-- One chunk given back. -/
def State.freeChunk (s : State) (c : Nat × Nat) : State := (s.freeHbm c.2).onPgt fun p => { p with seqChunks := tdel p.seqChunks c.1 }

/-- `t` is `s` with chunks of HBM given back. -/
def State.givesBack (s t : State) : Prop :=
  ∃ m u cs, t = { s with hbm := m, tier := { s.tier with hbmUsed := u }, pgt := { s.pgt with seqChunks := cs } }

theorem State.givesBack_foldl (l : List (Nat × Nat)) : ∀ s : State, s.givesBack (l.foldl State.freeChunk s) := by
  induction l with
  | nil => exact fun s => ⟨s.hbm, s.tier.hbmUsed, s.pgt.seqChunks, rfl⟩
  | cons c l ih =>
    intro s
    obtain ⟨m, u, cs, h⟩ := ih (s.freeChunk c)
    exact ⟨m, u, cs, h⟩

/-- A byte outside the chunks as they were allotted. -/
theorem State.byteOf_freeChunks {a : Nat} : ∀ (l : List (Nat × Nat)) (s : State),
    (∀ y ∈ l, a < y.2 * 2048 ∨ (y.2 + (tfind s.tier.hbmUsed y.2).getD 0) * 2048 ≤ a) →
    byteOf (l.foldl State.freeChunk s).hbm a = byteOf s.hbm a := by
  intro l
  induction l with
  | nil => exact fun _ _ => rfl
  | cons c l ih =>
    intro s h
    obtain ⟨hc, hl⟩ := List.forall_mem_cons.mp h
    have hrest : ∀ y ∈ l, a < y.2 * 2048 ∨ (y.2 + (tfind (s.freeChunk c).tier.hbmUsed y.2).getD 0) * 2048 ≤ a := by
      intro y hy
      have hused : (s.freeChunk c).tier.hbmUsed = tdel s.tier.hbmUsed c.2 := rfl
      rw [hused]
      by_cases hyc : y.2 = c.2
      · rw [hyc, tfind_tdel_same]
        simp only [Option.getD_none, Nat.add_zero]
        exact lt_or_ge _ _
      · rw [tfind_tdel_ne _ hyc]
        exact hl y hy
    have hone : byteOf (s.freeChunk c).hbm a = byteOf s.hbm a := by
      have hmem : (s.freeChunk c).hbm = zeroRange s.hbm (c.2 * 2048) ((tfind s.tier.hbmUsed c.2).getD 0 * 2048) := rfl
      rw [Nat.add_mul] at hc
      rw [hmem, byteOf_zeroRange, if_neg]
      omega
    exact (ih _ hrest).trans hone

theorem State.only_freeHbm (s : State) (a : Nat) : s.only [.tier, .hbm] (s.freeHbm a) := by
  have htier : (s.onTier fun b => { b with hbmUsed := tdel b.hbmUsed a }).only [.hbm] (s.freeHbm a) := State.only_setHbm _ _
  exact ((s.only_onTier _).mono (by decide)).then htier (by decide)

theorem State.only_freeChunks (l : List (Nat × Nat)) (s : State) : s.only [.pgt, .tier, .hbm] (l.foldl State.freeChunk s) :=
  State.only_foldl (f := State.freeChunk) (fun u c => ((u.only_freeHbm c.2).mono (by decide)).then
    ((u.freeHbm c.2).only_onPgt fun p => { p with seqChunks := tdel p.seqChunks c.1 }) (by decide)) l s

/-! ## The sequence gone -/

/-- The state a freed sequence with page table pt leaves, its chunks aside. -/
def State.unreferenced (s : State) (k : Nat) (pt : Tbl Nat) : State :=
  ((s.dropRefs (pt.map Prod.snd)).onPgt fun p => { p with seqs := tdel p.seqs k }).trimTables k

/-- The chunks that hold no record and no slot. -/
def State.emptyChunks (s : State) : List (Nat × Nat) :=
  s.pgt.seqChunks.filter fun c => !s.pgt.seqs.any fun q => (q.2.chunks q.1).contains c.1

/-- A freed sequence's record gone too. -/
def State.unrecorded (s : State) (k : Nat) (pt : Tbl Nat) : State :=
  ((s.unreferenced k pt).emptyChunks.foldl State.freeChunk (s.unreferenced k pt)).onPgt fun p =>
    { p with freeing := p.freeing.filter (· != k) }

section
variable {s : State} {k : Nat} {q : Seq}

theorem State.freeSeq_eq (hq : s.seq k = some q) (hcold : q.cold = none) : s.freeSeq k = s.unrecorded k q.pt := by
  simp only [State.freeSeq, hq, hcold, State.unrecorded, State.unreferenced, State.dropRefs, List.foldl_map]
  rfl

/-- What the record's end leaves of the tables. -/
theorem State.unreferenced_spec (s : State) (k : Nat) (pt : Tbl Nat) :
    ∃ t : State, s.releases t ∧ (∀ e, (s.unreferenced k pt).desc e = (s.dropRefs (pt.map Prod.snd)).desc e) ∧
      (s.dropRefs (pt.map Prod.snd)).pgt.reclaim ⊆ (s.unreferenced k pt).pgt.reclaim ∧
      s.unreferenced k pt = t.onPgt fun p => { p with seqs := tdel s.pgt.seqs k } := by
  obtain ⟨ds, r, tb, hd⟩ := s.releases_dropRefs (pt.map Prod.snd)
  let u := (s.dropRefs (pt.map Prod.snd)).onPgt fun p => { p with seqs := tdel p.seqs k }
  obtain ⟨ds', r', tb', ht⟩ := u.releases_trimTables k
  obtain ⟨hkd, hkr⟩ := u.trimTables_keeps k
  refine ⟨s.onPgt fun g => { g with descs := ds', reclaim := r', tables := tb' }, ⟨ds', r', tb', rfl⟩, hkd, hkr, ?_⟩
  have hu : u = (s.onPgt fun g => { g with descs := ds, reclaim := r, tables := tb }).onPgt fun p => { p with seqs := tdel p.seqs k } :=
    congrArg (fun v => State.onPgt v _) hd
  rw [State.unreferenced, ht, hu]
  rfl

theorem State.applyChange_drop (s : State) (i : Nat) : ∃ g, s.applyChange (.drop i) =
    (s.onCust fun u => { u with records := tdel u.records i }).onPgt fun p => { p with gens := tset p.gens i (g, s.usec) } := ⟨_, rfl⟩

/-- A sequence homed here leaves its home's record. -/
theorem State.leaveCustody_home (halone : s.alone) (hquiet : s.pgt.ops = [] ∧ s.pgt.copies = [] ∧ s.cust.held = [])
    (hhome : hHome q.handle = s.node) : s.leaveCustody k q = s.applyChange (.drop (hIndex q.handle)) := by
  obtain ⟨ho, hc, hh⟩ := hquiet
  have hrole : (s.role == .paired) = false := by rcases halone with h | h <;> simp [h]
  let t := s.applyChange (.drop (hIndex q.handle))
  have hheld : t.cust.held = [] := hh
  have hretry : t.retryHeld = t := by rw [State.retryHeld, hheld]; rfl
  have hresume : t.resume = t := by rw [State.resume, hretry]; exact State.settle_quiet _ ho hc hh
  simp only [State.leaveCustody, hhome, if_true, State.custChange, hrole, Bool.false_eq_true, if_false, List.foldl_nil]
  exact hresume

end

end Sys2Proof.Machine

end

section
/-! SUPPORT. FREE_COMPLETE of a sequence homed here (R60). -/

namespace Sys2Proof.Machine

section
variable (s : State) (k : Nat) (pt : Tbl Nat)

/-- The pieces that a freed sequence's end changes. -/
theorem State.unrecorded_eq : ∃ ds r tb m u cs, s.unrecorded k pt = { s with
    hbm := m, tier := { s.tier with hbmUsed := u },
    pgt := { s.pgt with seqs := tdel s.pgt.seqs k, descs := ds, reclaim := r, tables := tb, seqChunks := cs,
                        freeing := s.pgt.freeing.filter (· != k) } } := by
  obtain ⟨t, ⟨ds, r, tb, rfl⟩, -, -, hu⟩ := s.unreferenced_spec k pt
  obtain ⟨m, u, cs, hw⟩ := State.givesBack_foldl (s.unreferenced k pt).emptyChunks (s.unreferenced k pt)
  rw [State.unrecorded, hw, hu]
  exact ⟨ds, r, tb, m, u, cs, rfl⟩

theorem State.desc_unrecorded (e : Nat) : (s.unrecorded k pt).desc e = (s.dropRefs (pt.map Prod.snd)).desc e := by
  obtain ⟨-, -, hd, -, -⟩ := s.unreferenced_spec k pt
  obtain ⟨m, u, cs, hw⟩ := State.givesBack_foldl (s.unreferenced k pt).emptyChunks (s.unreferenced k pt)
  rw [State.unrecorded, hw]
  exact hd e

theorem State.reclaim_unrecorded : (s.dropRefs (pt.map Prod.snd)).pgt.reclaim ⊆ (s.unrecorded k pt).pgt.reclaim := by
  obtain ⟨-, -, -, hr, -⟩ := s.unreferenced_spec k pt
  obtain ⟨m, u, cs, hw⟩ := State.givesBack_foldl (s.unreferenced k pt).emptyChunks (s.unreferenced k pt)
  rw [State.unrecorded, hw]
  exact hr

theorem State.byteOf_unrecorded {a : Nat}
    (h : ∀ y ∈ s.pgt.seqChunks, a < y.2 * 2048 ∨ (y.2 + (tfind s.tier.hbmUsed y.2).getD 0) * 2048 ≤ a) :
    byteOf (s.unrecorded k pt).hbm a = byteOf s.hbm a := by
  obtain ⟨t, ⟨ds, r, tb, rfl⟩, -, -, hu⟩ := s.unreferenced_spec k pt
  have hkept : byteOf (s.unrecorded k pt).hbm a = byteOf (s.unreferenced k pt).hbm a := by
    refine State.byteOf_freeChunks _ _ fun y hy => ?_
    rw [hu] at hy ⊢
    exact h y (List.mem_filter.mp hy).1
  rw [hkept, hu]
  rfl

theorem State.only_unrecorded : s.only [.pgt, .tier, .hbm] (s.unrecorded k pt) := by
  obtain ⟨ds, r, tb, m, u, cs, h⟩ := s.unrecorded_eq k pt
  rw [h]
  refine ⟨rfl, fun p hp => ?_⟩
  cases p with
  | pgt | tier | hbm => exact absurd (by decide) hp
  | pcache => exact fun _ => rfl
  | _ => rfl

end

/-- The end of a sequence homed here. -/
theorem State.freeDone_home {s : State} {k : Nat} {q : Seq} (hquiet : s.quiet) (halone : s.alone) (hq : s.seq k = some q)
    (hk : k = hIndex q.handle) (hhome : hHome q.handle = s.node) (hcold : q.cold = none) :
    ∃ t : State, (s.freeDone k).settle = t ∧ t.seq k = none ∧ k ∉ t.pgt.freeing ∧ tfind t.cust.records k = none ∧
      (∃ g, tfind t.pgt.gens k = some (g, s.usec)) ∧ (∀ j, j ≠ k → t.seq j = s.seq j) ∧
      (∀ e, t.desc e = (s.unrecorded k q.pt).desc e) ∧ t.pgt.reclaim = (s.unrecorded k q.pt).pgt.reclaim ∧
      t.hbm = (s.unrecorded k q.pt).hbm ∧ s.only [.pgt, .cust, .tier, .hbm] t := by
  obtain ⟨ho, hc, hh, -⟩ := hquiet
  have hfseq := State.freeSeq_eq hq hcold
  have honly := s.only_unrecorded k q.pt
  obtain ⟨ds, r, tb, m, u, cs, hw⟩ := s.unrecorded_eq k q.pt
  generalize s.unrecorded k q.pt = w at hfseq honly hw ⊢
  have hseq : ∀ j, w.seq j = tfind (tdel s.pgt.seqs k) j := fun j => congrArg (State.seq · j) hw
  have hfree : w.pgt.freeing = s.pgt.freeing.filter (· != k) := congrArg (fun v : State => v.pgt.freeing) hw
  have husec : w.usec = s.usec := (congrArg State.usec hw).trans rfl
  have hwquiet : w.pgt.ops = [] ∧ w.pgt.copies = [] ∧ w.cust.held = [] :=
    ⟨(congrArg (fun v : State => v.pgt.ops) hw).trans ho, (congrArg (fun v : State => v.pgt.copies) hw).trans hc,
      (congrArg (fun v : State => v.cust.held) hw).trans hh⟩
  have hwalone : w.alone := by
    have hrole : w.role = s.role := (congrArg State.role hw).trans rfl
    exact halone.imp hrole.trans hrole.trans
  have hwhome : hHome q.handle = w.node := hhome.trans ((congrArg State.node hw).trans rfl).symm
  have hdone : s.freeDone k = w.applyChange (.drop (hIndex q.handle)) := by
    have h : s.freeDone k = (s.freeSeq k).leaveCustody k q := by simp only [State.freeDone, hq]
    rw [h, hfseq]
    exact State.leaveCustody_home hwalone hwquiet hwhome
  obtain ⟨g, hg⟩ := w.applyChange_drop (hIndex q.handle)
  obtain ⟨hwo, hwc, hwh⟩ := hwquiet
  have hsettle : (s.freeDone k).settle = w.applyChange (.drop (hIndex q.handle)) := by
    rw [hdone, hg]
    exact State.settle_quiet _ hwo hwc hwh
  refine ⟨_, hsettle, ?_⟩
  rw [hg, ← hk, husec]
  refine ⟨(hseq k).trans (tfind_tdel_same _ _), ?_, tfind_tdel_same _ _, ⟨g, tfind_tset_same _ _ _⟩,
    fun j hj => (hseq j).trans (tfind_tdel_ne _ hj), fun _ => rfl, rfl, rfl, ?_⟩
  · have h : k ∉ w.pgt.freeing := by rw [hfree]; simp
    exact h
  · exact ((honly.mono (by decide)).then (State.only_onCust _ _) (by decide)).then (State.only_onPgt _ _) (by decide)

end Sys2Proof.Machine

end

section
/-! The statement of SEAL, TRUNCATE and FREE (R38, R58 to R60). -/

namespace Sys2Proof.Proofs.Sequences
open Sys2Proof Sys2Proof.Machine

/-- A sequence freed gives up its references and its record. -/
theorem freeComplete_home {s : State} {k : Nat} {q : Machine.Seq} (hr : s.inReset = false) (hquiet : s.quiet) (halone : s.alone)
    (hfree : k ∈ s.pgt.freeing) (hq : s.seq k = some q) (hk : k = hIndex q.handle) (hhome : hHome q.handle = s.node)
    (hcold : q.cold = none) :
    (Instr.freeComplete k).gives s fun t =>
      t.seq k = none ∧ k ∉ t.pgt.freeing ∧ tfind t.cust.records k = none ∧ (∃ g, tfind t.pgt.gens k = some (g, s.usec)) ∧
      ((q.pt.map Prod.snd).Nodup → ∀ e ∈ q.pt, ∀ x, s.desc e.2 = some x →
        (t.desc e.2).map (·.refcnt) = some (x.refcnt - 1) ∧ (x.refcnt = 1 → ∃ r ∈ t.pgt.reclaim, r.desc = some e.2)) ∧
      (∀ a, (∀ y ∈ s.pgt.seqChunks, a < y.2 * 2048 ∨ (y.2 + (tfind s.tier.hbmUsed y.2).getD 0) * 2048 ≤ a) →
        byteOf t.hbm a = byteOf s.hbm a) ∧
      (∀ j, j ≠ k → t.seq j = s.seq j) ∧ s.only [.pgt, .cust, .tier, .hbm] t := by
  obtain ⟨t, ht, hseq, hfreeing, hrec, hgen, hother, hdesc, hreclaim, hhbm, honly⟩ := State.freeDone_home hquiet halone hq hk hhome hcold
  have hexec : exec (.freeComplete k) s = .next (s.commit t) := by
    have h : exec (.freeComplete k) s = act s fun s => if s.pgt.freeing.contains k then (s.freeDone k).settle else s := rfl
    rw [h, act_next s _ hr, if_pos (List.contains_iff_mem.mpr hfree), ht]
  refine ⟨_, hexec, hseq, hfreeing, hrec, hgen, fun hn e he x hx => ⟨?_, fun h1 => ?_⟩, fun a ha => ?_, hother, State.only_commit honly⟩
  · have hd : (s.commit t).desc e.2 = (s.unrecorded k q.pt).desc e.2 := hdesc e.2
    rw [hd, State.desc_unrecorded, State.refcnt_dropRefs _ _ hn (List.mem_map_of_mem he), hx]
    rfl
  · obtain ⟨r, hr, hre⟩ := State.reclaim_dropRefs h1.le _ s hn (List.mem_map_of_mem he) hx
    have hsub := State.reclaim_unrecorded s k q.pt hr
    exact ⟨r, hreclaim.symm ▸ hsub, hre⟩
  · rw [State.commit_byteOf_hbm, hhbm]
    exact State.byteOf_unrecorded s k q.pt ha

/-- Settles O38: each of the three is applied as it begins and committed next, or answered at once; the end of a FREE drops what the
sequence held. -/
theorem sealsTruncatesAndFrees : Obligations.SealsTruncatesAndFrees := by
  refine ⟨fun s c m p k q h => ⟨?_, ?_, ?_, ?_, ?_⟩, fun s c m p hr hquiet hsends hpart hroute => ?_,
    fun s k q hr hquiet halone hfree hq hk hhome hcold => freeComplete_home hr hquiet halone hfree hq hk hhome hcold⟩
  · exact fun hlen hc hl => State.seal_open h hlen hc hl
  · intro hlen hc
    obtain ⟨t, ht, hseq, hans, hrest⟩ := State.seal_closed (m := m) h hlen hc
    refine ⟨t, ht, hseq, ?_, hrest⟩
    simpa only [Seq.body, hc] using hans
  · intro hlen hn h12 h16 hprefix hle hsome
    obtain ⟨t, ht, hseq, hrest⟩ := State.truncate_boundary (m := m) h hlen hn h12 h16 hprefix hle hsome
    exact ⟨t, ht, ⟨_, hseq, rfl, rfl, fun key => (tfind_filter (fun a => decide (16 * keyPos a < lat p 8 4)) key q.pt).trans (by simp)⟩, hrest⟩
  · exact fun hlen hn h12 hl => State.truncate_beyond h hlen hn h12 hl
  · exact fun hlen => State.free_active h hlen
  · have malformed : ∀ {i : Instr} {code : Nat}, exec i s = recvOp c m code p s → code ≠ 0x01 → reqFormatBad code p = true →
        i.gives s fun t => s.answered c.val m.toNat stFORMAT [] t ∧ t.pgt = s.pgt ∧ s.only [.twn, .trl] t :=
      fun hi hcode hbad => State.refused_gives hr hquiet hsends hi hcode (State.recvNamed_malformed _ _ _ _ _ hbad)
    have unknown : ∀ {i : Instr} {code : Nat}, exec i s = recvOp c m code p s → code ≠ 0x01 → reqFormatBad code p = false →
        reqHandle code p = lat p 0 8 → i.gives s fun t => s.answered c.val m.toNat stBOUNDS [] t ∧ t.pgt = s.pgt ∧ s.only [.twn, .trl] t :=
      fun hi hcode hgood hnamed => State.refused_gives hr hquiet hsends hi hcode
        (State.recvNamed_unknown hgood (by rw [hnamed]; exact hpart) (by rw [hnamed]; exact hroute))
    refine ⟨fun hlen => unknown (code := 0x08) rfl (by decide) (by simpa [reqFormatBad] using hlen) rfl,
      fun hlen => malformed (code := 0x08) rfl (by decide) (by simpa [reqFormatBad] using hlen),
      fun hlen => ⟨unknown (code := 0x09) rfl (by decide) (by simp [reqFormatBad, hlen]) rfl,
        unknown (code := 0x0B) rfl (by decide) (by simp [reqFormatBad, hlen]) rfl⟩,
      fun hlen => ⟨malformed (code := 0x09) rfl (by decide) (by simpa [reqFormatBad] using hlen),
        malformed (code := 0x0B) rfl (by decide) (by simpa [reqFormatBad] using hlen)⟩,
      fun hlen hn h12 => unknown (code := 0x0C) rfl (by decide) (by simpa [reqFormatBad, hlen, h12] using hn) rfl,
      fun hlen => malformed (code := 0x0C) rfl (by decide) (by simp [reqFormatBad, hlen])⟩

end Sys2Proof.Proofs.Sequences

end

section
/-! SUPPORT. A FORK whose parent is recorded under the key that stands for no sequence. -/

namespace Sys2Proof.Machine

/-- The key stands for "no parent": the FORK begins as a creation, and ends with BOUNDS where its class byte names no class. -/
theorem State.fork_of_noSeq {s : State} {c : Conduit} {m : W32} {p : List Byte} {q : Seq} (h : s.takes c.val (lat p 0 8) noSeq q)
    (hformat : reqFormatBad 0x0A p = false) (h0 : lat p 0 8 ≠ 0) (hcls : clsValid (s.def0 (lat p 12 1)) = false) :
    exec (.fork c m p) s = .next (s.commit
      ((s.begun 0x0A noSeq .fork c.val m.toNat p).answerOp (s.request noSeq .fork c.val m.toNat p) stBOUNDS [])) := by
  obtain ⟨hr, hquiet, halone, -, hpart, hroute, -, hok, -⟩ := h
  let u := s.takeHanded c.val m.toNat 0x0A
  let t := s.placed 0x0A noSeq .fork c.val m.toNat p
  let o := s.request noSeq .fork c.val m.toNat p
  have hpart' : hPart (lat p 0 8) = u.partOf c.val := hpart
  have hroute' : u.route (lat p 0 8) = .here noSeq := hroute
  have hok' : u.handleOk (lat p 0 8) (u.partOf c.val) noSeq = true := hok
  have hrecv : u.recvFork c.val m.toNat p [] = t := by
    simp only [State.recvFork, State.recvNamed, hformat, h0, reqHandle, opKind, hpart', hroute', hok', ne_eq, not_true, not_false_eq_true,
      if_false, if_true, Bool.false_eq_true, Nat.reduceEqDiff]
    rfl
  have hw := State.works_begun (code := 0x0A) (k := noSeq) (kind := .fork) (c := c.val) (m := m.toNat) (p := p) hquiet
  have hops : t.pgt.ops = [o] := hw.ops
  have hcreate : t.beginOp o = (s.begun 0x0A noSeq .fork c.val m.toNat p).beginCreate o (s.partOf c.val) := rfl
  have hcls' : clsValid ((s.begun 0x0A noSeq .fork c.val m.toNat p).def0 (lat o.payload 12 1)) = false := hcls
  have hstep : t.opStep o.id = (s.begun 0x0A noSeq .fork c.val m.toNat p).answerOp o stBOUNDS [] := by
    have hbegin : t.opStep o.id = t.beginOp o := by
      have halone' : t.alone := halone
      have hkind : o.kind = .fork := rfl
      have hphase : o.phase = .waiting := rfl
      have hseq : o.seq = noSeq := rfl
      simp [State.opStep, hops, hphase, State.tryBegin, State.admits_of_alone halone', hkind, mayBegin_one, hseq]
    rw [hbegin, hcreate]
    simp only [State.beginCreate, hcls', Bool.not_false, Bool.true_or, if_true]
    rfl
  have hexec : exec (.fork c m p) s = act s fun s => ((s.takeHanded c.val m.toNat 0x0A).recvFork c.val m.toNat p []).settle := rfl
  rw [hexec, act_next s _ hr, hrecv, State.settle_ended hops hquiet.2.1, hstep]
  · rw [hstep, State.ops_answerOp, hw.ops]; simp [o]
  · rw [hstep, State.copies_answerOp, hw.copies]; rfl
  · rw [hstep, State.held_answerOp, hw.held]

end Sys2Proof.Machine

end

section
/-! The statement of FORK fails: a parent recorded as inbound under the key 2^30, which `State.beginOp` reads as "no parent". -/

namespace Sys2Proof.Proofs.Sequences
open Sys2Proof Sys2Proof.Machine

/-- The index the device takes for a new sequence. -/
def pickedIndex : Nat := Config.pick State.reset.free % 2 ^ 24

/-- A handle of partition 0, homed at node 5, and its sequence, empty and ACTIVE. -/
def strayHandle : Nat := 5 * 2 ^ 40 + 1
def straySeq : Machine.Seq := newSeq strayHandle 0 (2 ^ 15) 0 0 0 false

/-- It is held here under the key 2^30; the new sequence has its chunk and its page table; no class is defined. -/
def strayState : State := { State.reset with
  trl := { State.reset.trl with conduits := [(0, { ConduitState.closed with cstate := 1 })] }
  pgt := { State.reset.pgt with
    seqs := [(noSeq, straySeq)], seqChunks := [(pickedIndex / 32768, 0)], tables := [(pickedIndex, [0])] }
  cust := { State.reset.cust with inbound := [(strayHandle, noSeq)] } }

/-- A FORK of it at POINT 0. -/
def strayFork : List Byte := le 8 strayHandle ++ zeros 16

theorem pickedIndex_lt : pickedIndex < 2 ^ 24 := Nat.mod_lt _ (by decide)

theorem seq_strayState : strayState.seq pickedIndex = none := by
  have hne : noSeq ≠ pickedIndex := fun h => absurd (h ▸ pickedIndex_lt) (by decide)
  simp [State.seq, strayState, tfind, hne]

theorem takes_strayFork : strayState.takes 0 (lat strayFork 0 8) noSeq straySeq := by decide

theorem seqRoom_strayState : strayState.seqRoom 0 = (stOK, pickedIndex) := by
  have hroom : ¬ (strayState.fd (Fd.PGT_PART_SEQ_MAX_MAX 0) ≤ strayState.partSeqs 0 ∨ 16777216 ≤ strayState.allSeqs) := by decide
  have husable : strayState.indexUsable pickedIndex = true := by
    have hrec : strayState.cust.records = [] := rfl
    have hgens : strayState.pgt.gens = [] := rfl
    simp [State.indexUsable, seq_strayState, hrec, hgens]
  have hindex : strayState.newIndex = some pickedIndex :=
    List.find?_cons_of_pos (Bool.and_eq_true_iff.mpr ⟨decide_eq_true pickedIndex_lt, husable⟩)
  rw [State.seqRoom, if_neg hroom, hindex]

/-- The child's record and page table have their place. -/
theorem placeSeq_strayState (q : Machine.Seq) (hq : clsPrefix q.def1 = false) (hpt : q.tableFrames ≤ 1) (hnil : q.pt = []) :
    (strayState.placeSeq pickedIndex q []).isSome = true := by
  have hchunks : q.chunks pickedIndex = [pickedIndex / 32768] := by
    rw [Seq.chunks, if_neg (Nat.not_le.mpr pickedIndex_lt), hq]
    rfl
  have htake : strayState.takeSeqChunks (q.chunks pickedIndex) = some strayState := by
    have hthere : (tfind strayState.pgt.seqChunks (pickedIndex / 32768)).isSome = true := by simp [strayState, tfind]
    simp [State.takeSeqChunks, hchunks, hthere]
  have hself : { q with pt := [] } = q := by rw [← hnil]
  let t := (strayState.onPgt fun p => { p with seqs := tset p.seqs pickedIndex q }).drawn
  have hneed : t.tableNeed pickedIndex ≤ 1 := by
    have hseq : t.seq pickedIndex = some q := tfind_tset_same _ _ _
    simpa [State.tableNeed, hseq] using hpt
  have htables : (t.tablesOf pickedIndex).length = 1 := by
    have h : t.tablesOf pickedIndex = [0] := by
      simp [State.tablesOf, t, State.drawn, State.onPgt, strayState, tfind]
    rw [h]; rfl
  have hfit : t.fitTables pickedIndex = some (t.trimTables pickedIndex) := by
    simp [State.fitTables, htables, Nat.sub_eq_zero_of_le hneed]
  rw [State.placeSeq, htake, Option.map_some, Option.bind_some, hself, Option.isSome_map]
  exact congrArg Option.isSome hfit

/-- Refutes O39: its second clause lets the parent's key be 2^30. A FORK whose parent is recorded as inbound under that key begins as
a creation (R55) in the class its payload names, none here, and is answered BOUNDS: no child is made, though the parent is there. -/
theorem not_forks : ¬ Obligations.Forks := by
  unfold Obligations.Forks
  intro h
  obtain ⟨-, hfork, -⟩ := h strayState 0 0 strayFork pickedIndex (by decide) (by decide) (by decide) seqRoom_strayState (by decide)
    (by decide) (by decide) rfl
  obtain ⟨t, ht, ⟨⟨ch, hch, -⟩, -⟩, -⟩ := hfork noSeq straySeq (by decide) (by decide) takes_strayFork
    ⟨by decide, by decide, by decide, by decide, by decide, by decide⟩ (placeSeq_strayState _ rfl (by decide) rfl)
  rw [State.fork_of_noSeq takes_strayFork (by decide) (by decide) (by decide)] at ht
  obtain rfl := Host.Outcome.next.inj ht
  have hkept : (strayState.commit ((strayState.begun 0x0A noSeq .fork 0 0 strayFork).answerOp
      (strayState.request noSeq .fork 0 0 strayFork) stBOUNDS [])).seq pickedIndex = none := by
    rw [State.seq_commit_answerOp, State.seq_begun takes_strayFork.2.2.2.2.2.2.1, if_neg, seq_strayState]
    exact fun h => absurd (h ▸ pickedIndex_lt) (by decide)
  exact absurd (hkept.symm.trans hch) (by simp)

end Sys2Proof.Proofs.Sequences

end

section
/-! SUPPORT. The seal of a page: its unit, and what the steps after it leave of the pages (R52, R54, R68, R135). -/

namespace Sys2Proof.Machine

/-! ## Units of the pool -/

/-- Whatever the device picks is one of the list. -/
theorem pickOf_of_ne_nil {α : Type} (s : State) {l : List α} (h : l ≠ []) : ∃ x ∈ l, pickOf s l = some x := by
  have hlt : Config.pick s.free % l.length < l.length := Nat.mod_lt _ (List.length_pos_of_ne_nil h)
  exact ⟨l[Config.pick s.free % l.length], List.getElem_mem hlt, List.getElem?_eq_getElem hlt⟩

/-- Where a unit of the pool is free, one such is taken. -/
theorem State.poolUnit_free {s : State} (h : ∃ u < 16, s.fd (Fd.CVU_CTL_OWNER u) = 0 ∧ tfind s.pgt.cvu u = none) :
    ∃ u < 16, s.fd (Fd.CVU_CTL_OWNER u) = 0 ∧ tfind s.pgt.cvu u = none ∧ s.poolUnit = some u := by
  have hmem : ∀ u, u ∈ (List.range 16).filter (fun u => s.fd (Fd.CVU_CTL_OWNER u) == 0 && (tfind s.pgt.cvu u).isNone) ↔
      u < 16 ∧ s.fd (Fd.CVU_CTL_OWNER u) = 0 ∧ tfind s.pgt.cvu u = none := by simp
  obtain ⟨v, hv⟩ := h
  obtain ⟨u, hu, hpick⟩ := pickOf_of_ne_nil s (List.ne_nil_of_mem ((hmem v).mpr hv))
  obtain ⟨h16, howner, hfree⟩ := (hmem u).mp hu
  exact ⟨u, h16, howner, hfree, hpick⟩

/-- Unit u at work on the seal of page d. -/
def State.sealStarted (s : State) (d u : Nat) : State :=
  (((s.onPgt fun p => { p with cvu := tset p.cvu u (.seal d) }).drawn).setFd (Fd.CVU_STATUS_BUSY u) 1).modDesc d fun x =>
    { x with sealUnit := some u }

theorem State.startSeal_eq {s : State} {d u : Nat} {x : Desc} (hx : s.desc d = some x) (hu : s.poolUnit = some u)
    (hst : x.state = .tadpole) (hdue : x.sealDue = true) (hnone : x.sealUnit = none) (hcut : s.cutDue d = false) :
    s.startSeal d = s.sealStarted d u := by
  simp [State.startSeal, hx, hu, hst, hdue, hnone, hcut, State.sealStarted]

section
variable (s : State) (d u : Nat)

theorem State.desc_sealStarted (e : Nat) : (s.sealStarted d u).desc e =
    if e = d then (s.desc d).map fun x => { x with sealUnit := some u } else s.desc e :=
  State.desc_modDesc _ _ _ _

theorem State.fd_sealStarted : (s.sealStarted d u).fd (Fd.CVU_STATUS_BUSY u) = 1 :=
  State.fd_setFd_same ((s.onPgt fun p => { p with cvu := tset p.cvu u (.seal d) }).drawn) (Fd.CVU_STATUS_BUSY u) 1 (show 0 < 64 by decide)

theorem State.only_sealStarted : s.only [.csr, .pgt, .free] (s.sealStarted d u) := by
  have h1 := (s.only_onPgt fun p => { p with cvu := tset p.cvu u (.seal d) }).mono (qs := [.pgt]) (ps := [.csr, .pgt, .free]) (by decide)
  have h2 := (h1.then (State.only_drawn _) (by decide)).then (State.only_setFd _ (Fd.CVU_STATUS_BUSY u) 1) (by decide)
  exact h2.then (State.only_onPgt _ _) (by decide)

theorem State.regsBut_sealStarted : s.regsBut [(Fd.CVU_STATUS_BUSY u).addr] (s.sealStarted d u) :=
  State.regsBut_setFd ((s.onPgt fun p => { p with cvu := tset p.cvu u (.seal d) }).drawn) (Fd.CVU_STATUS_BUSY u) 1

end

/-! ## The units of a page given back -/

theorem tfind_foldl_tdel {α : Type} (v : Nat) : ∀ (us : List Nat) (t : Tbl α),
    tfind (us.foldl tdel t) v = if v ∈ us then none else tfind t v := by
  intro us
  induction us with
  | nil => simp
  | cons u us ih =>
    intro t
    rw [List.foldl_cons, ih]
    by_cases hv : v = u
    · subst hv; simp
    · simp [hv, tfind_tdel_ne]

/-- The units that compute the seal of page d. -/
def State.sealUnits (s : State) (d : Nat) : List Nat := (s.pgt.cvu.filter (fun p => p.2 == .seal d)).map Prod.fst

theorem State.freeSealUnits_eq (s : State) (d : Nat) : ∃ r, s.freeSealUnits d =
    { s with csr := r, pgt := { s.pgt with cvu := (s.sealUnits d).foldl tdel s.pgt.cvu } } := by
  have hfold : ∀ (us : List Nat) (t : State), ∃ r,
      us.foldl (fun s u => (s.onPgt fun p => { p with cvu := tdel p.cvu u }).setFd (Fd.CVU_STATUS_BUSY u) 0) t =
        { t with csr := r, pgt := { t.pgt with cvu := us.foldl tdel t.pgt.cvu } } := by
    intro us
    induction us with
    | nil => exact fun t => ⟨t.csr, rfl⟩
    | cons u us ih =>
      intro t
      obtain ⟨r, h⟩ := ih ((t.onPgt fun p => { p with cvu := tdel p.cvu u }).setFd (Fd.CVU_STATUS_BUSY u) 0)
      exact ⟨r, h⟩
  exact hfold _ s

theorem State.cvu_freeSealUnits (s : State) (d v : Nat) : tfind (s.freeSealUnits d).pgt.cvu v ≠ some (.seal d) := by
  obtain ⟨r, h⟩ := s.freeSealUnits_eq d
  have hcvu : (s.freeSealUnits d).pgt.cvu = (s.sealUnits d).foldl tdel s.pgt.cvu := congrArg (fun t : State => t.pgt.cvu) h
  rw [hcvu, tfind_foldl_tdel]
  split
  · simp
  · next hv =>
    intro hf
    exact hv (List.mem_map.mpr ⟨(v, .seal d), List.mem_filter.mpr ⟨mem_of_tfind hf, by simp⟩, rfl⟩)

/-! ## What follows a seal leaves the pages as they are -/

/-- The pages and the check-value units stand, and so do the pieces beside memory, registers and the prefix directory. -/
structure State.keepsPages (s t : State) : Prop where
  descs : t.pgt.descs = s.pgt.descs
  cvu : t.pgt.cvu = s.pgt.cvu
  rdata : t.rdata = s.rdata
  evc : t.evc = s.evc
  trl : t.trl = s.trl
  sec : t.sec = s.sec
  twn : t.twn = s.twn

namespace State.keepsPages
variable {s t u : State}

theorem refl (s : State) : s.keepsPages s := ⟨rfl, rfl, rfl, rfl, rfl, rfl, rfl⟩

theorem trans (h : s.keepsPages t) (h' : t.keepsPages u) : s.keepsPages u :=
  ⟨h'.descs.trans h.descs, h'.cvu.trans h.cvu, h'.rdata.trans h.rdata, h'.evc.trans h.evc, h'.trl.trans h.trl, h'.sec.trans h.sec,
    h'.twn.trans h.twn⟩

theorem foldl {α : Type} {f : State → α → State} (hf : ∀ (s : State) x, s.keepsPages (f s x)) (l : List α) :
    ∀ s : State, s.keepsPages (l.foldl f s) := by
  induction l with
  | nil => exact refl
  | cons x l ih => exact fun s => (hf s x).trans (ih _)

theorem ite {p : Prop} [Decidable p] (ht : s.keepsPages t) (hu : s.keepsPages u) : s.keepsPages (if p then t else u) := by
  split
  · exact ht
  · exact hu

theorem onTier (h : s.keepsPages t) (f : TierBlock → TierBlock) : s.keepsPages (t.onTier f) := { h with }

theorem charge4 (h : s.keepsPages t) (part i bytes : Nat) : s.keepsPages (t.charge4 part i bytes) := { h with }

theorem queueJob (h : s.keepsPages t) (j : GkJob) : s.keepsPages (t.queueJob j) := { h with }

end State.keepsPages

section
variable (s : State)

theorem State.keepsPages_setFd (f : Fd) (v : Nat) : s.keepsPages (s.setFd f v) := ⟨rfl, rfl, rfl, rfl, rfl, rfl, rfl⟩

theorem State.keepsPages_inc (f : Fd) : s.keepsPages (s.inc f) := s.keepsPages_setFd _ _

theorem State.keepsPages_modSeq (k : Nat) (f : Seq → Seq) : s.keepsPages (s.modSeq k f) := ⟨rfl, rfl, rfl, rfl, rfl, rfl, rfl⟩

/-- A chunk taken for a digest, unless one is there (`p`). -/
theorem State.keepsPages_digestChunk (p : Bool) (o : Option Nat) : s.keepsPages (if p then s else match o with
    | none => s
    | some c => s.onTier fun b => { b with hbmUsed := tset b.hbmUsed c 1024, digestChunks := c :: b.digestChunks }) := by
  refine .ite (.refl s) ?_
  cases o with
  | none => exact .refl s
  | some c => exact (State.keepsPages.refl s).onTier _

theorem State.keepsPages_queueDigest (d : Nat) : s.keepsPages (s.queueDigest d) := by
  unfold State.queueDigest
  split
  · exact .refl s
  · dsimp only
    refine .ite (.refl s) (.ite (s.keepsPages_setFd _ _) ?_)
    split
    · exact s.keepsPages_digestChunk _ _
    · exact (((s.keepsPages_digestChunk _ _).onTier _).charge4 _ _ _).queueJob _

theorem State.keepsPages_formKeys (k : Nat) : ∀ (n : Nat) (s : State), s.keepsPages (State.formKeys n s k) := by
  intro n
  induction n with
  | zero => exact .refl
  | succ n ih =>
    intro s
    unfold State.formKeys
    split
    · exact .refl s
    · split
      · exact (s.keepsPages_modSeq k _).trans (ih _)
      · exact .refl s

theorem State.keepsPages_pdirInsert (key part cls index gen pos : Nat) : s.keepsPages (s.pdirInsert key part cls index gen pos) := by
  unfold State.pdirInsert
  split
  · exact .refl s
  · dsimp only
    split
    · exact s.keepsPages_inc _
    · have hevict : ∀ p : Bool, s.keepsPages (if p then s.inc Fd.PDIR_EVICTS_COUNT else s) := fun p =>
        .ite (s.keepsPages_inc _) (.refl s)
      exact (hevict _).trans ⟨rfl, rfl, rfl, rfl, rfl, rfl, rfl⟩

theorem State.keepsPages_prefixSeal (k : Nat) : s.keepsPages (s.prefixSeal k) := by
  have hkeys : ∀ o : Option Seq, s.keepsPages (match o with | none => s | some q => State.formKeys (q.tokids.length / 16) s k) := by
    intro o
    cases o with
    | none => exact .refl s
    | some q => exact State.keepsPages_formKeys k _ s
  unfold State.prefixSeal
  dsimp only
  split
  · exact hkeys _
  · refine .ite ((hkeys _).trans (State.keepsPages_modSeq _ k _)) ?_
    exact ((hkeys _).trans (State.keepsPages_modSeq _ k _)).trans
      (State.keepsPages.foldl (fun u x => u.keepsPages_pdirInsert _ _ _ _ _ _) _ _)

end

/-- The page SEALED. -/
def Desc.sealed (x : Desc) (c : Nat) : Desc := { x with crc := BitVec.ofNat 32 c, state := .sealed, sealDue := false, sealUnit := none }

theorem State.sealPage_keeps {s : State} {d : Nat} {x : Desc} (hx : s.desc d = some x) :
    (s.modDesc d fun x' => x'.sealed (crc32c (s.pageContent x))).keepsPages (s.sealPage d) := by
  simp only [State.sealPage, hx]
  exact (State.keepsPages_queueDigest _ d).trans (State.keepsPages.foldl (f := fun (s : State) (q : Nat × Seq) => s.prefixSeal q.1)
    (fun u q => u.keepsPages_prefixSeal q.1) _ _)

/-- A seal that is not abandoned. -/
theorem State.sealDone_eq {s : State} {d u : Nat} {x : Desc} (hx : s.desc d = some x) (hunit : x.sealUnit = some u)
    (hbusy : tfind s.pgt.cvu u = some (.seal d)) (hst : x.state = .tadpole) (href : 0 < x.refcnt) (hcut : s.cutDue d = false) :
    s.sealDone d = (s.freeSealUnits d).sealPage d := by
  have hany : s.pgt.cvu.any (fun p => p.2 == .seal d) = true := List.any_eq_true.mpr ⟨_, mem_of_tfind hbusy, by simp⟩
  have hcut' : (s.freeSealUnits d).cutDue d = false := by
    obtain ⟨r, h⟩ := s.freeSealUnits_eq d
    rw [h]
    exact hcut
  simp [State.sealDone, hx, hany, hunit, hst, href.ne', hcut']

end Sys2Proof.Machine

end

section
/-! SUPPORT. Reclamation of a page's frame in HBM, and the descriptor window (R45, R61). -/

namespace Sys2Proof.Machine

/-! ## Reclamation -/

section
variable {s : State} {d : Nat} {x : Desc} {r : Reclaim}

/-- A frame in HBM under reclamation: its charge is gone, its page is LOCKED_BANK, and a gecko zeroes it. -/
def State.frameReclaimed (s : State) (d frame : Nat) (r : Reclaim) : State :=
  let s := s.onPgt fun p => { p with reclaim := eraseFirst (fun y => y == r) p.reclaim }
  let s := if r.free_ then s else s.uncharge4 r.part 1 (chargeOf .hbm r.def0)
  (s.modDesc d fun x => { x with state := .lockedBank, digestValid := false }).zeroFrame frame r.def0 (some d)

/-- The job that zeroes a page's frame. -/
def zeroJob (frame def0 : Nat) (desc : Option Nat) (epoch : Nat) : GkJob :=
  let n := frameUnits (frameCode def0)
  let a := chanAddr (frame * 2048)
  ⟨chanOf (frame * 2048), 4, 0, a, n * 2048, 0, .zero frame n desc, [⟨a, n * 2048, .lock, 0⟩, ⟨a, n * 2048, .win, 0⟩], none, none, epoch⟩

/-- The pieces a reclaimed frame changes. -/
theorem State.frameReclaimed_eq (s : State) (d frame : Nat) (r : Reclaim) : ∃ tier, s.frameReclaimed d frame r = { s with
    tier := tier
    pgt := { s.pgt with
      reclaim := eraseFirst (fun y => y == r) s.pgt.reclaim
      descs := tmod s.pgt.descs d fun x => { x with state := .lockedBank, digestValid := false } }
    hb := { s.hb with jobs := s.hb.jobs ++ [zeroJob frame r.def0 (some d) s.pgt.epoch] } } := by
  unfold State.frameReclaimed
  dsimp only
  split
  · exact ⟨_, rfl⟩
  · exact ⟨_, rfl⟩

theorem State.reclaimOne_eq (hd : r.desc = some d) (hloc : r.loc = some x.loc) (hhbm : x.loc.tier = .hbm) (hhot : tfind s.twn.hot d = none)
    (hdig : r.digest = none) : s.reclaimOne r = s.frameReclaimed d x.loc.frame r := by
  let u := s.onPgt fun p => { p with reclaim := eraseFirst (fun y => y == r) p.reclaim }
  have hdrop : u.dropHot d r = u := by
    have hhot' : tfind u.twn.hot d = none := hhot
    simp only [State.dropHot, hhot']
  simp only [State.reclaimOne, hd, hloc, hdig, hhbm, reduceCtorEq, false_and, if_false, if_true]
  rw [hdrop]
  rfl

/-- A pool whose last chunk holds a descriptor is as it is. -/
theorem State.shrinkPool_of_desc (hx : s.desc d = some x) (h : (s.pgt.chunks.length - 1) * 65536 ≤ d) : s.shrinkPool = s := by
  have hany : s.pgt.descs.any (fun e => (s.pgt.chunks.length - 1) * 65536 ≤ e.1) = true :=
    List.any_eq_true.mpr ⟨(d, x), mem_of_tfind hx, by simpa using h⟩
  unfold State.shrinkPool
  split
  · rfl
  · rw [if_pos hany]

/-- The first entry of a list's kind, where it has what is asked beside. -/
theorem find?_and {α : Type} {p c : α → Bool} {l : List α} {a : α} (h : l.find? p = some a) (hc : c a = true) :
    l.find? (fun y => p y && c y) = some a := by
  induction l with
  | nil => simp at h
  | cons b l ih =>
    rw [List.find?_cons] at h ⊢
    cases hp : p b with
    | true =>
      rw [hp] at h
      obtain rfl := Option.some.inj h
      simp [hc]
    | false =>
      rw [hp] at h
      simpa using ih h

theorem State.exec_pageReclaim (hr : s.inReset = false) (hx : s.desc d = some x) (hborrow : s.tier.borrowed = [])
    (hfind : s.pgt.reclaim.find? (fun r => r.desc == some d) = some r) (hclear : s.epochClear r.epoch = true)
    (hleaps : ∀ l ∈ s.tier.leaps, l.desc ≠ d) (hjobs : ∀ j ∈ s.hb.jobs, j.locks ≠ some d) (hhot : tfind s.twn.hot d = none)
    (hdig : r.digest = none) (hloc : r.loc = some x.loc) (hhbm : x.loc.tier = .hbm) (hpool : (s.pgt.chunks.length - 1) * 65536 ≤ d) :
    exec (.pageReclaim d) s = .next (s.commit (s.frameReclaimed d x.loc.frame r)) := by
  have hd : r.desc = some d := by simpa using List.find?_some hfind
  let clear := fun (r : Reclaim) => s.epochClear r.epoch && (match r.desc with
    | some d => !s.tier.leaps.any (fun p => p.desc == d) && !s.hb.jobs.any (fun j => j.locks == some d) | none => true)
  have hclear' : clear r = true := by
    have hl : s.tier.leaps.any (fun p => p.desc == d) = false := by simpa using hleaps
    have hj : s.hb.jobs.any (fun j => j.locks == some d) = false := by simpa using hjobs
    simp [clear, hclear, hd, hl, hj]
  obtain ⟨tier, heq⟩ := s.frameReclaimed_eq d x.loc.frame r
  have hborrow' : (s.frameReclaimed d x.loc.frame r).tier.borrowed = [] := by
    unfold State.frameReclaimed
    dsimp only
    split
    · exact hborrow
    · exact hborrow
  have hshrink : (s.frameReclaimed d x.loc.frame r).shrinkPool = s.frameReclaimed d x.loc.frame r := by
    refine State.shrinkPool_of_desc (d := d) (x := { x with state := .lockedBank, digestValid := false }) ?_ ?_
    · rw [heq]
      exact (tfind_tmod_same _ _ _).trans (congrArg (Option.map _) hx)
    · rw [heq]
      exact hpool
  have hexec : exec (.pageReclaim d) s = act s fun s =>
      match (s.pgt.reclaim.find? (fun r => r.desc == some d && clear r)).or (s.pgt.reclaim.find? (fun r => r.desc.isNone && clear r)) with
      | none => s
      | some r => (s.reclaimOne r).shrinkPool.returnExtents := rfl
  rw [hexec, act_next s _ hr]
  simp only [find?_and hfind hclear', Option.some_or, State.reclaimOne_eq hd hloc hhbm hhot hdig, hshrink]
  rw [State.returnExtents_quiet _ hborrow']

end

/-! ## The descriptor window -/

/-- A plain field a store writes holds what was stored. -/
theorem RegField.kept_plain {f : RegField} (old v : Nat) (hacc : f.acc = .rw) (htreat : f.treat = .plain) :
    f.kept old v = bits v f.hi f.lo := by
  rw [RegField.kept, hacc, htreat]
  exact Nat.mod_eq_of_lt (bits_lt _ _ _)

section
variable {s : State} {a : Nat}

theorem State.storeFields_eq {r : RegDef} (bank v : Nat) (hr : regAt a = some r) :
    s.storeFields bank a v = s.setReg (bank * 2 ^ 32 + a) (r.store (s.reg (bank * 2 ^ 32 + a)) v) := by
  simp [State.storeFields, hr]

/-- A plain field of a register stored to. -/
theorem State.bits_storeFields {r : RegDef} (bank v : Nat) (hr : regAt a = some r) (hlaid : r.laidOut = true) {f : RegField}
    (hf : f ∈ r.fields) (hacc : f.acc = .rw) (htreat : f.treat = .plain) :
    bits ((s.storeFields bank a v).reg (bank * 2 ^ 32 + a)) f.hi f.lo = bits v f.hi f.lo := by
  rw [State.storeFields_eq bank v hr, State.reg_setReg_same, RegDef.bits_store hlaid _ _ hf, RegField.kept_plain _ _ hacc htreat]

theorem State.reg_storeFields_ne (bank v : Nat) {b : Nat} (h : b ≠ bank * 2 ^ 32 + a) : (s.storeFields bank a v).reg b = s.reg b := by
  unfold State.storeFields
  split
  · rfl
  · exact State.reg_setReg_ne _ _ h

theorem State.only_storeFields (s : State) (bank a v : Nat) : s.only [.csr] (s.storeFields bank a v) := by
  unfold State.storeFields
  split
  · exact State.only.refl s _
  · exact s.only_setReg _ _

end

/-- The four words of a descriptor shown. -/
def State.showDesc (s : State) (b : List Byte) : State :=
  (((s.setReg Reg.PGT_DESC_DATA0 (lat b 0 8)).setReg Reg.PGT_DESC_DATA1 (lat b 8 8)).setReg Reg.PGT_DESC_DATA2
    (lat b 16 8)).setReg Reg.PGT_DESC_DATA3 (lat b 24 8)

theorem unle_lt : ∀ l : List Byte, unle l < 256 ^ l.length := by
  intro l
  induction l with
  | nil => simp [unle]
  | cons b l ih =>
    have hb : b.toNat < 256 := b.isLt
    have hu : unle (b :: l) = b.toNat + 256 * unle l := rfl
    rw [hu, List.length_cons, pow_succ]
    omega

theorem lat_lt (p : List Byte) (off n : Nat) : lat p off n < 256 ^ n := by
  have h := unle_lt (slice p off n)
  rwa [slice_length] at h

section
variable (s : State) (b : List Byte)

theorem State.reg_showDesc (a : Nat) : (s.showDesc b).reg a =
    if a = Reg.PGT_DESC_DATA3 then lat b 24 8 else if a = Reg.PGT_DESC_DATA2 then lat b 16 8
    else if a = Reg.PGT_DESC_DATA1 then lat b 8 8 else if a = Reg.PGT_DESC_DATA0 then lat b 0 8 else s.reg a := by
  have hlt : ∀ off, lat b off 8 % 2 ^ 64 = lat b off 8 := fun off => Nat.mod_eq_of_lt (lat_lt b off 8)
  rw [State.showDesc, State.reg_setReg, State.reg_setReg, State.reg_setReg, State.reg_setReg, hlt, hlt, hlt, hlt]

theorem State.showDesc_data : (s.showDesc b).reg Reg.PGT_DESC_DATA0 = lat b 0 8 ∧ (s.showDesc b).reg Reg.PGT_DESC_DATA1 = lat b 8 8 ∧
    (s.showDesc b).reg Reg.PGT_DESC_DATA2 = lat b 16 8 ∧ (s.showDesc b).reg Reg.PGT_DESC_DATA3 = lat b 24 8 := by
  simp [State.reg_showDesc, Reg.PGT_DESC_DATA0, Reg.PGT_DESC_DATA1, Reg.PGT_DESC_DATA2, Reg.PGT_DESC_DATA3]

theorem State.reg_showDesc_other {a : Nat} (h0 : a ≠ Reg.PGT_DESC_DATA0) (h1 : a ≠ Reg.PGT_DESC_DATA1) (h2 : a ≠ Reg.PGT_DESC_DATA2)
    (h3 : a ≠ Reg.PGT_DESC_DATA3) : (s.showDesc b).reg a = s.reg a := by
  rw [State.reg_showDesc, if_neg h3, if_neg h2, if_neg h1, if_neg h0]

theorem State.only_showDesc : s.only [.csr] (s.showDesc b) :=
  (((s.only_setReg _ _).then (State.only_setReg _ _ _) (by decide)).then (State.only_setReg _ _ _) (by decide)).then
    (State.only_setReg _ _ _) (by decide)

end

end Sys2Proof.Machine

end

section
/-! The statement of the seal, the epoch, reclamation and the descriptor window (R45, R52, R61, R62). -/

namespace Sys2Proof.Proofs.Sequences
open Sys2Proof Sys2Proof.Machine

section
variable {s : State} (hr : s.inReset = false)
include hr

/-- A due tadpole takes a free unit. -/
theorem pageSeal_takes_unit {d : Nat} {x : Desc} (hx : s.desc d = some x) (hst : x.state = .tadpole) (hcut : s.cutDue d = false)
    (hdue : x.sealDue = true) (hnone : x.sealUnit = none)
    (hfree : ∃ u < 16, s.fd (Fd.CVU_CTL_OWNER u) = 0 ∧ tfind s.pgt.cvu u = none) :
    (Instr.pageSeal d).gives s fun t => ∃ u < 16, s.fd (Fd.CVU_CTL_OWNER u) = 0 ∧ tfind s.pgt.cvu u = none ∧
      tfind t.pgt.cvu u = some (.seal d) ∧ t.fd (Fd.CVU_STATUS_BUSY u) = 1 ∧ t.desc d = some { x with sealUnit := some u } ∧
      (∀ e, e ≠ d → t.desc e = s.desc e) ∧ s.only [.csr, .pgt, .free] t ∧ s.regsBut [(Fd.CVU_STATUS_BUSY u).addr] t := by
  obtain ⟨u, hu, howner, hnew, hpool⟩ := State.poolUnit_free hfree
  have hexec : exec (.pageSeal d) s = .next (s.commit (s.sealStarted d u)) := by
    have h : exec (.pageSeal d) s = act s fun s => s.startSeal d := rfl
    rw [h, act_next s _ hr, State.startSeal_eq hx hpool hst hdue hnone hcut]
  refine ⟨_, hexec, u, hu, howner, hnew, tfind_tset_same _ _ _, s.fd_sealStarted d u, ?_, fun e he => ?_,
    State.only_commit (s.only_sealStarted d u), s.regsBut_sealStarted d u⟩
  · exact (s.desc_sealStarted d u d).trans (by rw [if_pos rfl, hx]; rfl)
  · exact (s.desc_sealStarted d u e).trans (if_neg he)

/-- A tadpole whose check value is there seals. -/
theorem sealCrcDone_seals {d u : Nat} {x : Desc} (hx : s.desc d = some x) (hst : x.state = .tadpole) (hcut : s.cutDue d = false)
    (hunit : x.sealUnit = some u) (hbusy : tfind s.pgt.cvu u = some (.seal d)) (href : 0 < x.refcnt) (hawake : s.awake = true) :
    (Instr.sealCrcDone d).gives s fun t =>
      t.desc d = some (x.sealed (crc32c (s.pageContent x))) ∧ (∀ v, tfind t.pgt.cvu v ≠ some (.seal d)) ∧
      (∀ e, e ≠ d → t.desc e = s.desc e) ∧ t.rdata = s.rdata ∧ t.evc = s.evc ∧ t.trl = s.trl ∧ t.sec = s.sec ∧ t.twn = s.twn := by
  obtain ⟨r, hunits⟩ := s.freeSealUnits_eq d
  have hx' : (s.freeSealUnits d).desc d = some x := by rw [hunits]; exact hx
  have hkeeps := State.sealPage_keeps hx'
  have hcontent : (s.freeSealUnits d).pageContent x = s.pageContent x := by rw [hunits]; rfl
  rw [hcontent] at hkeeps
  have hexec : exec (.sealCrcDone d) s = .next (s.commit ((s.freeSealUnits d).sealPage d)) := by
    have h : exec (.sealCrcDone d) s = actIf s s.awake fun s => s.sealDone d := rfl
    rw [h, actIf_next s _ _ hr hawake, State.sealDone_eq hx hunit hbusy hst href hcut]
  have hdesc : ∀ e, ((s.freeSealUnits d).sealPage d).desc e =
      if e = d then some (x.sealed (crc32c (s.pageContent x))) else s.desc e := by
    intro e
    have h := State.desc_modDesc (s.freeSealUnits d) d (fun x' => x'.sealed (crc32c (s.pageContent x))) e
    rw [hx'] at h
    refine (congrArg (tfind · e) hkeeps.descs).trans (h.trans ?_)
    rw [hunits]
    rfl
  refine ⟨_, hexec, (hdesc d).trans (if_pos rfl), fun v hv => ?_, fun e he => (hdesc e).trans (if_neg he),
    hkeeps.rdata.trans ?_, hkeeps.evc.trans ?_, hkeeps.trl.trans ?_, hkeeps.sec.trans ?_, hkeeps.twn.trans ?_⟩
  · exact s.cvu_freeSealUnits d v ((congrArg (tfind · v) hkeeps.cvu).symm.trans hv)
  all_goals rw [hunits]; rfl

/-- A store to PGT_DESC_SEL takes the descriptor named. -/
theorem descSnapshot_shows {v : Word} {x : Desc} (hx : s.desc (bits v.toNat 31 0) = some x) : (Instr.descSnapshot v).gives s fun t =>
    t.fd Fd.PGT_DESC_SEL_INDEX = bits v.toNat 31 0 ∧
    t.reg Reg.PGT_DESC_DATA0 = lat x.bytes 0 8 ∧ t.reg Reg.PGT_DESC_DATA1 = lat x.bytes 8 8 ∧
    t.reg Reg.PGT_DESC_DATA2 = lat x.bytes 16 8 ∧ t.reg Reg.PGT_DESC_DATA3 = lat x.bytes 24 8 ∧ s.only [.csr] t ∧
    s.regsBut [Reg.PGT_DESC_SEL, Reg.PGT_DESC_DATA0, Reg.PGT_DESC_DATA1, Reg.PGT_DESC_DATA2, Reg.PGT_DESC_DATA3] t := by
  obtain ⟨r, hdef, hlaid, hf⟩ : ∃ r, regAt Reg.PGT_DESC_SEL = some r ∧ r.laidOut = true ∧ ⟨31, 0, .rw, 0, .plain⟩ ∈ r.fields :=
    ⟨⟨Reg.PGT_DESC_SEL, [], [⟨31, 0, .rw, 0, .plain⟩]⟩, by decide, by decide, List.mem_cons_self⟩
  have hsel : bits ((s.storeFields 0 Reg.PGT_DESC_SEL v.toNat).reg Reg.PGT_DESC_SEL) 31 0 = bits v.toNat 31 0 :=
    by simpa using State.bits_storeFields (s := s) 0 v.toNat hdef hlaid hf rfl rfl
  have hkept : ∀ a, a ≠ Reg.PGT_DESC_SEL → (s.storeFields 0 Reg.PGT_DESC_SEL v.toNat).reg a = s.reg a :=
    fun a ha => State.reg_storeFields_ne 0 _ (by simpa using ha)
  have honly := s.only_storeFields 0 Reg.PGT_DESC_SEL v.toNat
  have hexec : exec (.descSnapshot v) s = execDescSnapshot v s := rfl
  rw [Instr.gives, hexec, execDescSnapshot, act_next s _ hr]
  generalize s.storeFields 0 Reg.PGT_DESC_SEL v.toNat = u at hsel hkept honly
  have hpgt : u.pgt = s.pgt := honly.2 .pgt (by decide)
  have hshown : u.desc (u.fd Fd.PGT_DESC_SEL_INDEX) = some x := by
    have hindex : u.fd Fd.PGT_DESC_SEL_INDEX = bits v.toNat 31 0 := hsel
    rw [hindex, State.desc, hpgt]
    exact hx
  have hsel' : (u.showDesc x.bytes).reg Reg.PGT_DESC_SEL = u.reg Reg.PGT_DESC_SEL :=
    u.reg_showDesc_other _ (by decide) (by decide) (by decide) (by decide)
  obtain ⟨h0, h1, h2, h3⟩ := u.showDesc_data x.bytes
  refine ⟨s.commit (u.showDesc x.bytes), by simp only [hshown]; rfl, ?_⟩
  rw [State.commit_fd, State.commit_reg, State.commit_reg, State.commit_reg, State.commit_reg, State.fd, Fd.PGT_DESC_SEL_INDEX, hsel', hsel, h0,
    h1, h2, h3]
  refine ⟨rfl, rfl, rfl, rfl, rfl, State.only_commit (honly.then (u.only_showDesc _) (by decide)), fun a ha => ?_⟩
  simp only [List.mem_cons, List.not_mem_nil, or_false, not_or] at ha
  obtain ⟨hs, ha0, ha1, ha2, ha3⟩ := ha
  rw [State.commit_reg, u.reg_showDesc_other _ ha0 ha1 ha2 ha3, hkept a hs]

/-- A frame in HBM that no reader holds is zeroed, its page LOCKED_BANK. -/
theorem pageReclaim_zeroes {d : Nat} {x : Desc} {r : Reclaim} (hx : s.desc d = some x) (hborrow : s.tier.borrowed = [])
    (hfind : s.pgt.reclaim.find? (fun r => r.desc == some d) = some r) (hclear : s.epochClear r.epoch = true)
    (hleaps : ∀ l ∈ s.tier.leaps, l.desc ≠ d) (hjobs : ∀ j ∈ s.hb.jobs, j.locks ≠ some d) (hhot : tfind s.twn.hot d = none)
    (hdig : r.digest = none) (hloc : r.loc = some x.loc) (hhbm : x.loc.tier = .hbm) (hpool : (s.pgt.chunks.length - 1) * 65536 ≤ d) :
    (Instr.pageReclaim d).gives s fun t =>
      t.pgt.reclaim = eraseFirst (fun y => y == r) s.pgt.reclaim ∧
      t.desc d = some { x with state := .lockedBank, digestValid := false } ∧
      (∃ j, t.hb.jobs = s.hb.jobs ++ [j] ∧ j.code = 4 ∧ j.chan = chanOf (x.loc.frame * 2048) ∧
        j.arg0 = chanAddr (x.loc.frame * 2048) ∧ j.arg1 = frameUnits (frameCode r.def0) * 2048) ∧ s.only [.pgt, .hb, .tier] t := by
  obtain ⟨tier, heq⟩ := s.frameReclaimed_eq d x.loc.frame r
  refine ⟨_, State.exec_pageReclaim hr hx hborrow hfind hclear hleaps hjobs hhot hdig hloc hhbm hpool, ?_⟩
  rw [heq]
  refine ⟨rfl, (tfind_tmod_same _ _ _).trans (congrArg (Option.map _) hx), ⟨_, rfl, rfl, rfl, rfl, rfl⟩, State.only_commit ⟨rfl, fun p hp => ?_⟩⟩
  cases p with
  | pgt | hb | tier => exact absurd (by decide) hp
  | hbm | pcache => exact fun _ => rfl
  | _ => rfl

end

/-- Settles O40: each act is one update of the tables, and what follows a seal leaves the pages alone. -/
theorem pagesAndEpochs : Obligations.PagesAndEpochs := by
  intro s hr
  refine ⟨fun d x hx hst hcut => ⟨fun hdue hnone hfree => pageSeal_takes_unit hr hx hst hcut hdue hnone hfree,
    fun u hunit hbusy href hawake => sealCrcDone_seals hr hx hst hcut hunit hbusy href hawake⟩, fun hdue => ?_,
    fun d x r hx hborrow hfind hclear hleaps hjobs hhot hdig hloc hhbm hpool =>
      pageReclaim_zeroes hr hx hborrow hfind hclear hleaps hjobs hhot hdig hloc hhbm hpool,
    fun v x hx => descSnapshot_shows hr hx⟩
  have h : exec .pgtEpochAdvance s = .next (s.commit (s.onPgt fun p => { p with epoch := (p.epoch + 1) % 2 ^ 32, epochAt := s.mtime })) :=
    actIf_next s _ _ hr (decide_eq_true hdue)
  exact ⟨_, h, rfl, rfl, rfl, rfl, State.only_commit (s.only_onPgt _)⟩

end Sys2Proof.Proofs.Sequences

end

section
/-! SUPPORT. Registers of the check-value units and of the classes (Tables 3-13, 3-17). -/

namespace Sys2Proof.Machine

/-- A field of one bit, just set. -/
theorem State.fd_setFd_bit {s : State} {f : Fd} {v : Nat} (hf : f.hi < 64) (h1 : f.hi = f.lo) (hv : v < 2) : (s.setFd f v).fd f = v := by
  rw [State.fd_setFd_same s f v hf, h1, Nat.add_sub_cancel_left, pow_one, Nat.mod_eq_of_lt hv]

/-! ## Check-value units -/

section
variable (s : State) (u : Nat)

/-- Unit u at work for software. -/
def State.cvuStarted (s : State) (u : Nat) : State :=
  (s.onPgt fun p => { p with cvu := tset p.cvu u .software }).setFd (Fd.CVU_STATUS_BUSY u) 1

/-- Unit u at rest. -/
def State.cvuEnded (s : State) (u : Nat) : State :=
  (s.onPgt fun p => { p with cvu := tdel p.cvu u }).setFd (Fd.CVU_STATUS_BUSY u) 0

theorem State.reg_cvuEnded_ne {a : Nat} (h : a ≠ Reg.CVU_STATUS u) : (s.cvuEnded u).reg a = s.reg a := by
  rw [State.cvuEnded, State.reg_setFd_ne _ _ _ h, State.onPgt_reg]

theorem State.fd_cvuEnded_ne {f : Fd} (h : f.addr ≠ Reg.CVU_STATUS u) : (s.cvuEnded u).fd f = s.fd f := by
  rw [State.fd, s.reg_cvuEnded_ne u h, State.fd]

theorem State.only_cvuEnded : s.only [.csr, .pgt] (s.cvuEnded u) :=
  ((s.only_onPgt _).mono (by decide)).then (State.only_setFd _ _ _) (by decide)

theorem State.only_cvuStarted : s.only [.csr, .pgt] (s.cvuStarted u) :=
  ((s.only_onPgt _).mono (by decide)).then (State.only_setFd _ _ _) (by decide)

/-- The running value does not hang on STATUS. -/
theorem State.cvuRun_cvuEnded (n : Nat) : (s.cvuEnded u).cvuRun u n = s.cvuRun u n := by
  have hsrc : (s.cvuEnded u).fd (Fd.CVU_SRC_ADDR u) = s.fd (Fd.CVU_SRC_ADDR u) :=
    s.fd_cvuEnded_ne u (by simp only [Fd.CVU_SRC_ADDR, Reg.CVU_SRC, Reg.CVU_STATUS]; omega)
  have hctl : (s.cvuEnded u).flag (Fd.CVU_CTL_POLY u) = s.flag (Fd.CVU_CTL_POLY u) := by
    rw [State.flag, s.fd_cvuEnded_ne u (by simp only [Fd.CVU_CTL_POLY, Reg.CVU_CTL, Reg.CVU_STATUS]; omega), State.flag]
  have hctx : (s.cvuEnded u).fd (Fd.CVU_CTX_CTX u) = s.fd (Fd.CVU_CTX_CTX u) :=
    s.fd_cvuEnded_ne u (by simp only [Fd.CVU_CTX_CTX, Reg.CVU_CTX, Reg.CVU_STATUS]; omega)
  have hmem : ∀ a n, (s.cvuEnded u).hbmRead a n = s.hbmRead a n := fun _ _ => rfl
  rw [State.cvuRun, State.cvuRun, hsrc, hctl, hctx, hmem]

/-- The value of a job of n bytes, final-XORed where asked. -/
def State.cvuFinal (s : State) (u c : Nat) : Nat :=
  if s.flag (Fd.CVU_CTL_FINAL u) && !s.flag (Fd.CVU_CTL_POLY u) then c ^^^ 0xFFFFFFFF else c

theorem State.cvuFinal_cvuEnded (c : Nat) : (s.cvuEnded u).cvuFinal u c = s.cvuFinal u c := by
  have hflag : ∀ f : Fd, f.addr = Reg.CVU_CTL u → (s.cvuEnded u).flag f = s.flag f := fun f hf => by
    rw [State.flag, s.fd_cvuEnded_ne u (by rw [hf]; simp only [Reg.CVU_CTL, Reg.CVU_STATUS]; omega), State.flag]
  rw [State.cvuFinal, hflag _ rfl, hflag _ rfl, State.cvuFinal]

/-- A job's end: the running value, the result and DONE. -/
def State.cvuDone (s : State) (u c : Nat) : State :=
  (((s.cvuEnded u).setReg (Reg.CVU_CTX u) c).setReg (Reg.CVU_RESULT u) (s.cvuFinal u c)).raise (Fd.CVU_STATUS_DONE u)

/-- A job's stop: the running value and ERR. -/
def State.cvuStopped (s : State) (u c : Nat) : State :=
  ((s.cvuEnded u).setReg (Reg.CVU_CTX u) c).raise (Fd.CVU_STATUS_ERR u)

theorem State.cvuDone_spec (c : Nat) : let t := s.cvuDone u c
    t.reg (Reg.CVU_CTX u) = c % 2 ^ 64 ∧ t.reg (Reg.CVU_RESULT u) = s.cvuFinal u c % 2 ^ 64 ∧ t.fd (Fd.CVU_STATUS_DONE u) = 1 ∧
      t.fd (Fd.CVU_STATUS_BUSY u) = 0 ∧ tfind t.pgt.cvu u = none ∧ s.only [.csr, .pgt] t := by
  intro t
  have hne : ∀ a, a ≠ Reg.CVU_STATUS u → t.reg a =
      (((s.cvuEnded u).setReg (Reg.CVU_CTX u) c).setReg (Reg.CVU_RESULT u) (s.cvuFinal u c)).reg a := fun a ha =>
    State.reg_setFd_ne _ (Fd.CVU_STATUS_DONE u) 1 ha
  have hctx : Reg.CVU_CTX u ≠ Reg.CVU_RESULT u := by simp only [Reg.CVU_CTX, Reg.CVU_RESULT]; omega
  refine ⟨?_, ?_, State.fd_setFd_bit (show 1 < 64 by decide) rfl (by decide), ?_, tfind_tdel_same _ _, ?_⟩
  · rw [hne _ (by simp only [Reg.CVU_CTX, Reg.CVU_STATUS]; omega), State.reg_setReg_ne _ _ hctx, State.reg_setReg_same]
  · rw [hne _ (by simp only [Reg.CVU_RESULT, Reg.CVU_STATUS]; omega), State.reg_setReg_same]
  · have hbusy : (s.cvuEnded u).fd (Fd.CVU_STATUS_BUSY u) = 0 := State.fd_setFd_bit (show 0 < 64 by decide) rfl (by decide)
    have hother : t.fd (Fd.CVU_STATUS_BUSY u) = _ :=
      State.fd_setFd_other _ (Fd.CVU_STATUS_DONE u) (Fd.CVU_STATUS_BUSY u) 1 (.inr (.inr (show 0 < 1 by decide))) (show 1 < 64 by decide)
    rw [hother, State.fd, State.reg_setReg_ne _ _ (by simp only [Fd.CVU_STATUS_BUSY, Reg.CVU_RESULT, Reg.CVU_STATUS]; omega),
      State.reg_setReg_ne _ _ (by simp only [Fd.CVU_STATUS_BUSY, Reg.CVU_CTX, Reg.CVU_STATUS]; omega)]
    exact hbusy
  · exact (((s.only_cvuEnded u).then (State.only_setReg _ _ _) (by decide)).then (State.only_setReg _ _ _) (by decide)).then
      (State.only_setFd _ _ _) (by decide)

theorem State.cvuStopped_spec (c : Nat) : let t := s.cvuStopped u c
    t.reg (Reg.CVU_CTX u) = c % 2 ^ 64 ∧ t.fd (Fd.CVU_STATUS_ERR u) = 1 ∧ t.fd (Fd.CVU_STATUS_BUSY u) = 0 ∧
      t.reg (Reg.CVU_RESULT u) = s.reg (Reg.CVU_RESULT u) ∧ s.only [.csr, .pgt] t := by
  intro t
  have hne : ∀ a, a ≠ Reg.CVU_STATUS u → t.reg a = ((s.cvuEnded u).setReg (Reg.CVU_CTX u) c).reg a := fun a ha =>
    State.reg_setFd_ne _ (Fd.CVU_STATUS_ERR u) 1 ha
  refine ⟨?_, State.fd_setFd_bit (show 2 < 64 by decide) rfl (by decide), ?_, ?_, ?_⟩
  · rw [hne _ (by simp only [Reg.CVU_CTX, Reg.CVU_STATUS]; omega), State.reg_setReg_same]
  · have hbusy : (s.cvuEnded u).fd (Fd.CVU_STATUS_BUSY u) = 0 := State.fd_setFd_bit (show 0 < 64 by decide) rfl (by decide)
    have hother : t.fd (Fd.CVU_STATUS_BUSY u) = _ :=
      State.fd_setFd_other _ (Fd.CVU_STATUS_ERR u) (Fd.CVU_STATUS_BUSY u) 1 (.inr (.inr (show 0 < 2 by decide))) (show 2 < 64 by decide)
    rw [hother, State.fd, State.reg_setReg_ne _ _ (by simp only [Fd.CVU_STATUS_BUSY, Reg.CVU_CTX, Reg.CVU_STATUS]; omega)]
    exact hbusy
  · rw [hne _ (by simp only [Reg.CVU_RESULT, Reg.CVU_STATUS]; omega),
      State.reg_setReg_ne _ _ (by simp only [Reg.CVU_RESULT, Reg.CVU_CTX]; omega),
      s.reg_cvuEnded_ne u (by simp only [Reg.CVU_RESULT, Reg.CVU_STATUS]; omega)]
  · exact ((s.only_cvuEnded u).then (State.only_setReg _ _ _) (by decide)).then (State.only_setFd _ _ _) (by decide)

end

/-! ## Class definitions -/

/-- The two registers of a class. -/
def classDef0 : RegDef := ⟨Reg.PGT_CLASS_DEF0, [],
  [⟨51, 48, .rw, 0, .plain⟩, ⟨41, 32, .rw, 0, .plain⟩, ⟨26, 16, .rw, 0, .plain⟩, ⟨15, 15, .rw, 0, .plain⟩, ⟨14, 12, .rw, 0, .plain⟩,
    ⟨11, 8, .rw, 0, .plain⟩, ⟨7, 4, .rw, 0, .plain⟩, ⟨0, 0, .rw, 0, .plain⟩]⟩

def classDef1 : RegDef := ⟨Reg.PGT_CLASS_DEF1, [], [⟨16, 16, .rw, 0, .plain⟩, ⟨15, 8, .rw, 0, .plain⟩, ⟨5, 0, .rw, 0, .plain⟩]⟩

theorem regAt_classDef0 : regAt Reg.PGT_CLASS_DEF0 = some classDef0 := by decide
theorem regAt_classDef1 : regAt Reg.PGT_CLASS_DEF1 = some classDef1 := by decide

section
variable (s : State) (c v : Nat)

theorem State.def0_storeFields :
    let w := (s.storeFields c Reg.PGT_CLASS_DEF0 v).def0 c
    bits w 51 48 = bits v 51 48 ∧ bits w 41 32 = bits v 41 32 ∧ bits w 26 16 = bits v 26 16 ∧ bits w 15 15 = bits v 15 15 ∧
      bits w 14 12 = bits v 14 12 ∧ bits w 11 8 = bits v 11 8 ∧ bits w 7 4 = bits v 7 4 := by
  intro w
  have field : ∀ f ∈ classDef0.fields, bits w f.hi f.lo = bits v f.hi f.lo := fun f hf =>
    State.bits_storeFields c v regAt_classDef0 (by decide) hf (by revert f; decide) (by revert f; decide)
  simp only [classDef0, List.forall_mem_cons] at field
  obtain ⟨h51, h41, h26, h15, h14, h11, h7, -⟩ := field
  exact ⟨h51, h41, h26, h15, h14, h11, h7⟩

theorem State.def1_storeFields :
    let w := (s.storeFields c Reg.PGT_CLASS_DEF1 v).def1 c
    bits w 16 16 = bits v 16 16 ∧ bits w 15 8 = bits v 15 8 ∧ bits w 5 0 = bits v 5 0 := by
  intro w
  have field : ∀ f ∈ classDef1.fields, bits w f.hi f.lo = bits v f.hi f.lo := fun f hf =>
    State.bits_storeFields c v regAt_classDef1 (by decide) hf (by revert f; decide) (by revert f; decide)
  simp only [classDef1, List.forall_mem_cons] at field
  obtain ⟨h16, h15, h5, -⟩ := field
  exact ⟨h16, h15, h5⟩

/-- The class's VALID bit cleared. -/
def State.invalidate (s : State) (c : Nat) : State := s.setFd (Fd.PGT_CLASS_DEF0_VALID.at c) 0

theorem State.def0_invalidate : (s.invalidate c).def0 c = setBits (s.def0 c) 15 15 0 :=
  State.reg_setFd_same s (Fd.PGT_CLASS_DEF0_VALID.at c) 0 (show 15 < 64 by decide)

theorem State.reg_invalidate_ne {a : Nat} (h : a ≠ c * 2 ^ 32 + Reg.PGT_CLASS_DEF0) : (s.invalidate c).reg a = s.reg a :=
  State.reg_setFd_ne s (Fd.PGT_CLASS_DEF0_VALID.at c) 0 h

end

end Sys2Proof.Machine

end

section
/-! The statement of the check-value units and the class definitions (R40, R41, R53, R54, R212). -/

namespace Sys2Proof.Proofs.Sequences
open Sys2Proof Sys2Proof.Machine

section
variable {s : State} (hr : s.inReset = false)
include hr

/-! ## Check-value units -/

/-- GO to a unit of software starts its job. -/
theorem cvuGo_starts {u : Fin 16} {v : Word} (hfree : tfind s.pgt.cvu u.val = none) (howner : s.fd (Fd.CVU_CTL_OWNER u.val) = 1)
    (hgo : bits v.toNat 0 0 = 1) (hlen : s.fd (Fd.CVU_LEN_LEN u.val) ≠ 0) : (Instr.cvuGo u v).gives s fun t =>
      tfind t.pgt.cvu u.val = some .software ∧ t.fd (Fd.CVU_STATUS_BUSY u.val) = 1 ∧ s.only [.csr, .pgt] t := by
  have honly := s.only_storeFields 0 (Reg.CVU_CTL u.val) v.toNat
  have hlen' : (s.storeFields 0 (Reg.CVU_CTL u.val) v.toNat).fd (Fd.CVU_LEN_LEN u.val) ≠ 0 := by
    rw [State.fd, State.reg_storeFields_ne 0 _ (by simp only [Fd.CVU_LEN_LEN, Reg.CVU_LEN, Reg.CVU_CTL]; omega)]
    exact hlen
  have hexec : exec (.cvuGo u v) s = .next (s.commit ((s.storeFields 0 (Reg.CVU_CTL u.val) v.toNat).cvuStarted u.val)) := by
    have h : exec (.cvuGo u v) s = execCvuGo u v s := rfl
    rw [h, execCvuGo, act_next s _ hr]
    simp only [hfree, howner, hgo, hlen', Option.isSome_none, Bool.false_eq_true, if_false, one_ne_zero]
    rfl
  refine ⟨_, hexec, tfind_tset_same _ _ _, ?_, State.only_commit ((honly.mono (by decide)).then (State.only_cvuStarted _ _) (by decide))⟩
  rw [State.commit_fd]
  exact State.fd_setFd_bit (show 0 < 64 by decide) rfl (by decide)

/-- A store to CVU_CTX. -/
theorem cvuCtxWrite_stores (u : Fin 16) (v : Word) :
    ((tfind s.pgt.cvu u.val).isSome = true → (Instr.cvuCtxWrite u v).gives s fun t =>
      t.fd (Fd.CVU_STATUS_CTX_BUSY u.val) = 1 ∧ s.only [.csr] t ∧ s.regsBut [(Fd.CVU_STATUS_CTX_BUSY u.val).addr] t) ∧
    (tfind s.pgt.cvu u.val = none → (Instr.cvuCtxWrite u v).gives s fun t =>
      t.reg (Reg.CVU_CTX u.val) = v.toNat % (if s.flag (Fd.CVU_CTL_POLY u.val) then 2 ^ 64 else 2 ^ 32) ∧ s.only [.csr] t ∧
      s.regsBut [Reg.CVU_CTX u.val] t) := by
  have hexec : exec (.cvuCtxWrite u v) s = execCvuCtxWrite u v s := rfl
  constructor
  · intro hbusy
    refine ⟨s.commit (s.raise (Fd.CVU_STATUS_CTX_BUSY u.val)), ?_, ?_, State.only_commit (s.only_setFd _ _), fun a ha => ?_⟩
    · rw [hexec, execCvuCtxWrite, act_next s _ hr, if_pos hbusy]
    · rw [State.commit_fd]
      exact State.fd_setFd_bit (show 3 < 64 by decide) rfl (by decide)
    · rw [State.commit_reg]
      exact s.regsBut_setFd _ 1 a ha
  · intro hfree
    let w := if s.flag (Fd.CVU_CTL_POLY u.val) then v.toNat else v.toNat % 2 ^ 32
    refine ⟨s.commit (s.setReg (Reg.CVU_CTX u.val) w), ?_, ?_, State.only_commit (s.only_setReg _ _), fun a ha => ?_⟩
    · rw [hexec, execCvuCtxWrite, act_next s _ hr, if_neg (by simp [hfree])]
    · rw [State.commit_reg, State.reg_setReg_same]
      simp only [w]
      split
      · rfl
      · exact Nat.mod_eq_of_lt (lt_trans (Nat.mod_lt _ (by norm_num)) (by norm_num))
    · rw [State.commit_reg, State.reg_setReg_ne _ _ (by simpa using ha)]

/-- A job whose bytes lie in a LOCK range goes on. -/
theorem cvuJobDone_locked {u : Fin 16} {k : Option Nat}
    (hlock : s.lockedAt (s.fd (Fd.CVU_SRC_ADDR u.val)) (s.fd (Fd.CVU_LEN_LEN u.val)) = true) :
    (Instr.cvuJobDone u k).gives s fun t => s.only [] t := by
  have hexec : exec (.cvuJobDone u k) s = execCvuJobDone u k s := rfl
  refine ⟨s.commit s, ?_, State.only_commit (State.only.refl s _)⟩
  rw [hexec, execCvuJobDone, actIf, act_next s _ hr]
  simp only [hlock, Bool.not_true, Bool.and_false, Bool.false_eq_true, if_false]

section
variable {u : Fin 16} (hsoft : tfind s.pgt.cvu u.val = some .software) (hawake : s.awake = true)
  (hlock : s.lockedAt (s.fd (Fd.CVU_SRC_ADDR u.val)) (s.fd (Fd.CVU_LEN_LEN u.val)) = false)
  (hroom : s.fd (Fd.CVU_SRC_ADDR u.val) + s.fd (Fd.CVU_LEN_LEN u.val) ≤ hbmBytes)
include hsoft hawake hlock hroom

theorem exec_cvuJobDone_none :
    exec (.cvuJobDone u none) s = .next (s.commit (s.cvuDone u.val (s.cvuRun u.val (s.fd (Fd.CVU_LEN_LEN u.val))))) := by
  have hexec : exec (.cvuJobDone u none) s = execCvuJobDone u none s := rfl
  have hrest : ((s.onPgt fun p => { p with cvu := tdel p.cvu u.val }).setFd (Fd.CVU_STATUS_BUSY u.val) 0) = s.cvuEnded u.val := rfl
  have hbad : ¬ hbmBytes - s.fd (Fd.CVU_SRC_ADDR u.val) < s.fd (Fd.CVU_LEN_LEN u.val) := by omega
  rw [hexec, execCvuJobDone, actIf_next s _ _ hr (by simp [hsoft, hawake, hlock])]
  simp only [hrest, if_neg hbad, State.cvuRun_cvuEnded]
  have hfinal := State.cvuFinal_cvuEnded s u.val (s.cvuRun u.val (s.fd (Fd.CVU_LEN_LEN u.val)))
  rw [State.cvuDone, ← hfinal, State.cvuFinal]

theorem exec_cvuJobDone_some {k : Nat} (hk : k < s.fd (Fd.CVU_LEN_LEN u.val)) :
    exec (.cvuJobDone u (some k)) s = .next (s.commit (s.cvuStopped u.val (s.cvuRun u.val (k / 32 * 32)))) := by
  have hexec : exec (.cvuJobDone u (some k)) s = execCvuJobDone u (some k) s := rfl
  have hrest : ((s.onPgt fun p => { p with cvu := tdel p.cvu u.val }).setFd (Fd.CVU_STATUS_BUSY u.val) 0) = s.cvuEnded u.val := rfl
  have hmin : min k (hbmBytes - s.fd (Fd.CVU_SRC_ADDR u.val)) = k := by omega
  rw [hexec, execCvuJobDone, actIf_next s _ _ hr (by simp [hsoft, hawake, hlock])]
  simp only [hrest, if_pos hk, hmin, State.cvuRun_cvuEnded]
  rfl

end

/-! ## Classes -/

section
variable (v : Word)

/-- A class that is valid and has sequences keeps its definition. -/
theorem class_held (hheld : s.classHeld (s.fd Fd.PGT_CLASS_SEL_CLASS) = true) : ∀ i ∈ [Instr.classDefine v, .classDef1Write v], i.gives s fun t =>
    t.def0 (s.fd Fd.PGT_CLASS_SEL_CLASS) = s.def0 (s.fd Fd.PGT_CLASS_SEL_CLASS) ∧
      t.def1 (s.fd Fd.PGT_CLASS_SEL_CLASS) = s.def1 (s.fd Fd.PGT_CLASS_SEL_CLASS) ∧ t.fd Fd.PGT_ERR_CLASS_BUSY = 1 ∧ s.only [.csr] t ∧
      s.regsBut [Reg.PGT_ERR] t := by
  have hregs : s.regsBut [Reg.PGT_ERR] (s.commit (s.raise Fd.PGT_ERR_CLASS_BUSY)) := fun a ha => by
    rw [State.commit_reg]
    exact s.regsBut_setFd Fd.PGT_ERR_CLASS_BUSY 1 a ha
  have hpost : ∀ c, (s.commit (s.raise Fd.PGT_ERR_CLASS_BUSY)).def0 c = s.def0 c ∧
      (s.commit (s.raise Fd.PGT_ERR_CLASS_BUSY)).def1 c = s.def1 c := fun c =>
    ⟨hregs _ (by simp only [List.mem_singleton, Reg.PGT_CLASS_DEF0, Reg.PGT_ERR]; omega),
      hregs _ (by simp only [List.mem_singleton, Reg.PGT_CLASS_DEF1, Reg.PGT_ERR]; omega)⟩
  have hbusy : (s.commit (s.raise Fd.PGT_ERR_CLASS_BUSY)).fd Fd.PGT_ERR_CLASS_BUSY = 1 := by
    rw [State.commit_fd]
    exact State.fd_setFd_bit (by decide) rfl (by decide)
  have gives : ∀ i, exec i s = .next (s.commit (s.raise Fd.PGT_ERR_CLASS_BUSY)) → i.gives s fun t =>
      t.def0 (s.fd Fd.PGT_CLASS_SEL_CLASS) = s.def0 (s.fd Fd.PGT_CLASS_SEL_CLASS) ∧
        t.def1 (s.fd Fd.PGT_CLASS_SEL_CLASS) = s.def1 (s.fd Fd.PGT_CLASS_SEL_CLASS) ∧ t.fd Fd.PGT_ERR_CLASS_BUSY = 1 ∧ s.only [.csr] t ∧
        s.regsBut [Reg.PGT_ERR] t := fun i hi =>
    ⟨_, hi, (hpost _).1, (hpost _).2, hbusy, State.only_commit (s.only_setFd _ _), hregs⟩
  have h0 : exec (.classDefine v) s = execClassDefine v s := rfl
  have h1 : exec (.classDef1Write v) s = execClassDef1Write v s := rfl
  simp only [List.forall_mem_cons, List.not_mem_nil, false_implies, implies_true, and_true]
  exact ⟨gives _ (by rw [h0, execClassDefine, act_next s _ hr, if_pos hheld]), gives _ (by rw [h1, execClassDef1Write, act_next s _ hr, if_pos hheld])⟩

/-- A store to PGT_CLASS_DEF1 of any other class. -/
theorem classDef1Write_takes (hheld : s.classHeld (s.fd Fd.PGT_CLASS_SEL_CLASS) = false) : let c := s.fd Fd.PGT_CLASS_SEL_CLASS
    (Instr.classDef1Write v).gives s fun t =>
      clsLayers (t.def1 c) = bits v.toNat 15 8 + 1 ∧ clsGroups (t.def1 c) = bits v.toNat 5 0 + 1 ∧
      clsPrefix (t.def1 c) = (bits v.toNat 16 16 == 1) ∧ clsValid (t.def0 c) = false ∧ (∀ d, d ≠ c → t.def0 d = s.def0 d) ∧
      s.only [.csr] t := by
  intro c
  let w := s.storeFields c Reg.PGT_CLASS_DEF1 v.toNat
  let t := w.invalidate c
  have hexec : exec (.classDef1Write v) s = .next (s.commit t) := by
    have h : exec (.classDef1Write v) s = execClassDef1Write v s := rfl
    rw [h, execClassDef1Write, act_next s _ hr, if_neg (by simp [hheld])]
    rfl
  obtain ⟨hprefix, hlayers, hgroups⟩ := s.def1_storeFields c v.toNat
  have hdef1 : (s.commit t).def1 c = w.def1 c := by
    rw [State.def1, State.commit_reg, w.reg_invalidate_ne c (by simp only [Reg.PGT_CLASS_DEF0, Reg.PGT_CLASS_DEF1]; omega), State.def1]
  have hvalid : bits ((s.commit t).def0 c) 15 15 = 0 := by
    have h : (s.commit t).def0 c = t.def0 c := s.commit_reg t _
    rw [h, w.def0_invalidate c, bits_setBits_same, Nat.zero_mod]
  refine ⟨_, hexec, ?_, ?_, ?_, ?_, fun d hd => ?_, State.only_commit ((s.only_storeFields _ _ _).then (State.only_setFd _ _ _) (by decide))⟩
  · rw [hdef1, clsLayers, hlayers]
  · rw [hdef1, clsGroups, hgroups]
  · rw [hdef1, clsPrefix, hprefix]
  · rw [clsValid, hvalid]; rfl
  · rw [State.def0, State.commit_reg, w.reg_invalidate_ne c (by omega),
      State.reg_storeFields_ne _ _ (by simp only [Reg.PGT_CLASS_DEF0, Reg.PGT_CLASS_DEF1]; omega), State.def0]

/-- The fields of a definition, VALID aside. -/
def classFields (w v : Nat) : Prop :=
  fmtA w = bits v 7 4 ∧ fmtB w = bits v 11 8 ∧ frameCode w = bits v 14 12 ∧ widthA w = bits v 26 16 ∧ widthB w = bits v 41 32 ∧
    clsPart w = bits v 51 48

omit hr in
theorem classFields_def0 (c : Nat) : classFields ((s.storeFields c Reg.PGT_CLASS_DEF0 v.toNat).def0 c) v.toNat := by
  obtain ⟨h51, h41, h26, -, h14, h11, h7⟩ := s.def0_storeFields c v.toNat
  exact ⟨h7, h11, h14, h26, h41, h51⟩

omit hr in
theorem classFields_setBits {w n : Nat} (h : classFields w n) : classFields (setBits w 15 15 0) n := by
  obtain ⟨h7, h11, h14, h26, h41, h51⟩ := h
  have keep : ∀ hi lo, 15 < lo ∨ hi < 15 → bits (setBits w 15 15 0) hi lo = bits w hi lo := fun hi lo ho =>
    bits_setBits_other w 15 15 0 hi lo (ho.imp id .inl)
  exact ⟨(keep 7 4 (by decide)).trans h7, (keep 11 8 (by decide)).trans h11, (keep 14 12 (by decide)).trans h14,
    (keep 26 16 (by decide)).trans h26, (keep 41 32 (by decide)).trans h41, (keep 51 48 (by decide)).trans h51⟩

/-- A store to PGT_CLASS_DEF0 of any other class. -/
theorem classDefine_takes (hheld : s.classHeld (s.fd Fd.PGT_CLASS_SEL_CLASS) = false) : let c := s.fd Fd.PGT_CLASS_SEL_CLASS
    (Instr.classDefine v).gives s fun t => classFields (t.def0 c) v.toNat ∧
      (clsValid (t.def0 c) = true → bits v.toNat 15 15 = 1 ∧ classDefOk (t.def0 c) (clsGroups (s.def1 c)) = true) ∧
      (bits v.toNat 15 15 = 1 → clsValid (t.def0 c) = false → t.fd Fd.PGT_ERR_CLASS_FORMAT = 1) ∧ t.def1 c = s.def1 c ∧
      (∀ d, d ≠ c → t.def0 d = s.def0 d) ∧ s.only [.csr] t := by
  intro c
  let w := s.storeFields c Reg.PGT_CLASS_DEF0 v.toNat
  let bad := (w.invalidate c).raise Fd.PGT_ERR_CLASS_FORMAT
  have hexec : exec (.classDefine v) s = .next (s.commit
      (if bits v.toNat 15 15 = 0 then w else if classDefOk (w.def0 c) (clsGroups (w.def1 c)) then w else bad)) := by
    have h : exec (.classDefine v) s = execClassDefine v s := rfl
    rw [h, execClassDefine, act_next s _ hr, if_neg (by simp [hheld])]
    rfl
  have hw0 : ∀ d, d ≠ c → w.def0 d = s.def0 d := fun d hd =>
    State.reg_storeFields_ne _ _ (by omega)
  have hw1 : w.def1 c = s.def1 c := State.reg_storeFields_ne _ _ (by simp only [Reg.PGT_CLASS_DEF0, Reg.PGT_CLASS_DEF1]; omega)
  have hwvalid : bits (w.def0 c) 15 15 = bits v.toNat 15 15 := (s.def0_storeFields c v.toNat).2.2.2.1
  have hwonly : s.only [.csr] w := s.only_storeFields _ _ _
  have hbadreg : ∀ a, a ≠ Reg.PGT_ERR → bad.reg a = (w.invalidate c).reg a := fun a ha =>
    State.reg_setFd_ne (w.invalidate c) Fd.PGT_ERR_CLASS_FORMAT 1 ha
  have hbad0 : bad.def0 c = setBits (w.def0 c) 15 15 0 :=
    (hbadreg _ (by simp only [Reg.PGT_CLASS_DEF0, Reg.PGT_ERR]; omega)).trans (w.def0_invalidate c)
  have hbadother : ∀ d, d ≠ c → bad.def0 d = s.def0 d := fun d hd =>
    (hbadreg _ (by simp only [Reg.PGT_CLASS_DEF0, Reg.PGT_ERR]; omega)).trans ((w.reg_invalidate_ne c (by omega)).trans (hw0 d hd))
  have hbad1 : bad.def1 c = s.def1 c :=
    (hbadreg _ (by simp only [Reg.PGT_CLASS_DEF1, Reg.PGT_ERR]; omega)).trans
      ((w.reg_invalidate_ne c (by simp only [Reg.PGT_CLASS_DEF0, Reg.PGT_CLASS_DEF1]; omega)).trans hw1)
  have hwfields := classFields_def0 (s := s) v c
  have hcommit : ∀ (u : State) d, (s.commit u).def0 d = u.def0 d ∧ (s.commit u).def1 d = u.def1 d := fun u d =>
    ⟨s.commit_reg u _, s.commit_reg u _⟩
  refine ⟨_, hexec, ?_⟩
  simp only [(hcommit _ _).1, (hcommit _ _).2, State.commit_fd]
  split_ifs with h0 hok
  · refine ⟨hwfields, fun hv => ?_, fun hv => ?_, hw1, hw0, State.only_commit hwonly⟩
    · simp [clsValid, hwvalid, h0] at hv
    · omega
  · refine ⟨hwfields, fun hv => ⟨?_, hw1 ▸ hok⟩, fun hv hinvalid => ?_, hw1, hw0, State.only_commit hwonly⟩
    · rw [← hwvalid]; simpa [clsValid] using hv
    · simp [clsValid, hwvalid, hv] at hinvalid
  · refine ⟨hbad0 ▸ classFields_setBits hwfields, fun hv => ?_, fun _ _ => State.fd_setFd_bit (by decide) rfl (by decide), hbad1, hbadother,
      State.only_commit ((hwonly.then (w.only_setFd _ _) (by decide)).then (State.only_setFd _ _ _) (by decide))⟩
    rw [hbad0, clsValid, bits_setBits_same] at hv
    simp at hv

end

end

/-- Settles O41: each store and each end of a job is a write of the registers it names, in its own unit or class. -/
theorem checkUnitsAndClasses : Obligations.CheckUnitsAndClasses := by
  intro s hr
  refine ⟨fun u v hfree howner hgo hlen => cvuGo_starts hr hfree howner hgo hlen, fun u v => cvuCtxWrite_stores hr u v,
    fun u k hlock => cvuJobDone_locked hr hlock, fun u hsoft hawake hlock hroom => ⟨?_, fun k hk => ?_⟩,
    fun v => ⟨class_held hr v, fun hheld => ⟨?_, classDef1Write_takes hr v hheld⟩⟩⟩
  · obtain ⟨hctx, hresult, hdone, hbusy, hfree, honly⟩ := s.cvuDone_spec u.val (s.cvuRun u.val (s.fd (Fd.CVU_LEN_LEN u.val)))
    refine ⟨_, exec_cvuJobDone_none hr hsoft hawake hlock hroom, ?_, ?_, ?_, ?_, hfree, State.only_commit honly⟩
    · rw [State.commit_reg]; exact hctx
    · rw [State.commit_reg, hresult, State.cvuFinal]
      refine congrArg (· % 2 ^ 64) (ite_congr ?_ (fun _ => rfl) fun _ => rfl)
      simp
    · rw [State.commit_fd]; exact hdone
    · rw [State.commit_fd]; exact hbusy
  · obtain ⟨hctx, herr, hbusy, hresult, honly⟩ := s.cvuStopped_spec u.val (s.cvuRun u.val (k / 32 * 32))
    refine ⟨_, exec_cvuJobDone_some hr hsoft hawake hlock hroom hk, ?_, ?_, ?_, ?_, State.only_commit honly⟩
    · rw [State.commit_reg]; exact hctx
    · rw [State.commit_fd]; exact herr
    · rw [State.commit_fd]; exact hbusy
    · rw [State.commit_reg]; exact hresult
  · obtain ⟨t, ht, ⟨hA, hB, hframe, hwA, hwB, hpart⟩, hrest⟩ := classDefine_takes hr v hheld
    exact ⟨t, ht, hA, hB, hframe, hwA, hwB, hpart, hrest⟩

end Sys2Proof.Proofs.Sequences

end

section
/-! SUPPORT. Cold images: what giving one to flash, reading it back and reinstating it changes (R43, R44). -/

namespace Sys2Proof.Machine

/-! ## The order and the sequences stand -/

/-- The sequences, their order and the requests held stand, and so does the count of thaws. -/
structure State.keepsSeqs (s t : State) : Prop where
  seqs : t.pgt.seqs = s.pgt.seqs
  ops : t.pgt.ops = s.pgt.ops
  copies : t.pgt.copies = s.pgt.copies
  cust : t.cust = s.cust
  thaws : t.fd Fd.PGT_THAWS_COUNT = s.fd Fd.PGT_THAWS_COUNT

namespace State.keepsSeqs
variable {s t u : State}

theorem refl (s : State) : s.keepsSeqs s := ⟨rfl, rfl, rfl, rfl, rfl⟩

theorem trans (h : s.keepsSeqs t) (h' : t.keepsSeqs u) : s.keepsSeqs u :=
  ⟨h'.seqs.trans h.seqs, h'.ops.trans h.ops, h'.copies.trans h.copies, h'.cust.trans h.cust, h'.thaws.trans h.thaws⟩

theorem seq (h : s.keepsSeqs t) (j : Nat) : t.seq j = s.seq j := congrArg (tfind · j) h.seqs

theorem foldl {α : Type} {f : State → α → State} (hf : ∀ (s : State) x, s.keepsSeqs (f s x)) (l : List α) :
    ∀ s : State, s.keepsSeqs (l.foldl f s) := by
  induction l with
  | nil => exact refl
  | cons x l ih => exact fun s => (hf s x).trans (ih _)

/-- Steps taken one after another, each if there is room. -/
theorem foldl_bind {α : Type} {f : State → α → Option State} (hf : ∀ {s t : State} {x}, f s x = some t → s.keepsSeqs t) (l : List α) :
    ∀ {s t : State}, l.foldl (fun r x => r.bind fun s => f s x) (some s) = some t → s.keepsSeqs t := by
  have hnone : ∀ l : List α, l.foldl (fun r x => r.bind fun s => f s x) none = none := by
    intro l
    induction l with
    | nil => rfl
    | cons x l ih => exact ih
  induction l with
  | nil =>
    intro s t h
    obtain rfl := Option.some.inj h
    exact refl s
  | cons x l ih =>
    intro s t h
    cases hx : f s x with
    | none => simp [hx, hnone] at h
    | some u =>
      simp only [List.foldl_cons, Option.bind_some, hx] at h
      exact (hf hx).trans (ih h)

end State.keepsSeqs

section
variable {s t : State}

theorem State.keepsSeqs_takeHbmRaw {n al a : Nat} {ok : Nat → Bool} (h : s.takeHbmRaw n al ok = some (a, t)) : s.keepsSeqs t := by
  obtain ⟨b, -, hb⟩ := Option.map_eq_some_iff.mp h
  obtain ⟨-, rfl⟩ := Prod.mk.inj hb
  exact ⟨rfl, rfl, rfl, rfl, rfl⟩

theorem State.keepsSeqs_takeSeqChunks {l : List Nat} (h : s.takeSeqChunks l = some t) : s.keepsSeqs t := by
  refine State.keepsSeqs.foldl_bind (fun {u v c} hc => ?_) l h
  split at hc
  · obtain rfl := Option.some.inj hc
    exact .refl u
  · obtain ⟨⟨a, w⟩, hw, rfl⟩ := Option.map_eq_some_iff.mp hc
    exact (State.keepsSeqs_takeHbmRaw hw).trans ⟨rfl, rfl, rfl, rfl, rfl⟩

theorem State.keepsSeqs_addTable {k : Nat} (h : s.addTable k = some t) : s.keepsSeqs t := by
  obtain ⟨⟨a, w⟩, hw, rfl⟩ := Option.map_eq_some_iff.mp h
  exact (State.keepsSeqs_takeHbmRaw hw).trans ⟨rfl, rfl, rfl, rfl, rfl⟩

theorem State.releases.keepsSeqs (h : s.releases t) : s.keepsSeqs t := by
  obtain ⟨_, _, _, rfl⟩ := h
  exact ⟨rfl, rfl, rfl, rfl, rfl⟩

theorem State.keepsSeqs_fitTables {k : Nat} (h : s.fitTables k = some t) : s.keepsSeqs t := by
  obtain ⟨u, hu, rfl⟩ := Option.map_eq_some_iff.mp h
  exact (State.keepsSeqs.foldl_bind (fun {v w _} hw => State.keepsSeqs_addTable hw) _ hu).trans (u.releases_trimTables k).keepsSeqs

theorem State.keepsSeqs_fltTrim (s : State) (l n : Nat) : s.keepsSeqs (s.fltTrim l n) :=
  ⟨rfl, rfl, rfl, rfl, State.fd_setFd_other _ Fd.FLT_TRIMS_COUNT Fd.PGT_THAWS_COUNT _ (.inl (by decide)) (by decide)⟩

theorem State.keepsSeqs_trimImage (s : State) (im : ColdImage) : s.keepsSeqs (s.trimImage im) :=
  State.keepsSeqs.foldl (fun u l => u.keepsSeqs_fltTrim l 1) im.units s

end

/-! ## A sequence reinstated -/

/-- The record an image gives back, its descriptors all in the pool. -/
def Seq.reinstated (q : Seq) (im : ColdImage) (usec : Nat) : Seq := { q with
  sstate := .active, thawing := false, pt := im.pages [], layerLen := im.layerLen, chainKey := im.chainKey, keyed := im.keyed
  broken := im.broken, tokids := im.tokids, pendKeys := im.pendKeys, cold := none, thawEpoch := none, ptLoc := 0, ptSize := 0
  ptCrc := 0, lastUse := usec }

theorem ColdImage.pages_nil {im : ColdImage} (h : im.tadpoles = []) : im.pages [] = im.pt := by
  simp [ColdImage.pages, h]

/-- Where the image holds no descriptor and no tadpole, the record alone is changed. -/
theorem State.reinstate_spec {s t : State} {k : Nat} {q : Seq} {im : ColdImage} (hq : s.seq k = some q) (hcold : q.cold = some im)
    (hdescs : im.descs = []) (htads : im.tadpoles = []) (h : s.reinstate k = some t) :
    (s.modSeq k fun _ => q.reinstated im s.usec).keepsSeqs t := by
  have hback : s.putBack im = some (s, []) := by simp [State.putBack, hdescs]
  simp only [State.reinstate, hq, hcold, hback, Option.bind_some, htads, List.foldl_nil] at h
  obtain ⟨u, hu, h⟩ := Option.bind_eq_some_iff.mp h
  obtain ⟨v, hv, rfl⟩ := Option.map_eq_some_iff.mp h
  have hchunks := State.keepsSeqs_takeSeqChunks hu
  have hrecord : (s.modSeq k fun _ => q.reinstated im s.usec).keepsSeqs (u.modSeq k fun _ => q.reinstated im s.usec) :=
    ⟨congrArg (fun t => tmod t k fun _ => q.reinstated im s.usec) hchunks.seqs, hchunks.ops, hchunks.copies, hchunks.cust, hchunks.thaws⟩
  exact (hrecord.trans (State.keepsSeqs_fitTables hv)).trans (v.keepsSeqs_trimImage im)

/-- With no request waiting a lost thaw is the record's, and the error. -/
theorem State.thawLost_idle {s : State} {k : Nat} (h : s.pgt.ops = []) : s.thawLost k =
    (s.raise Fd.PGT_ERR_THAW_LOST).modSeq k fun q => { q with thawing := false, thawEpoch := none } := by
  have hops : ((s.raise Fd.PGT_ERR_THAW_LOST).modSeq k fun q => { q with thawing := false, thawEpoch := none }).pgt.ops = [] := h
  rw [State.thawLost, hops]
  rfl

/-! ## Reads of an image -/

/-- A read of unit l, not a command's, has been asked for. -/
def State.readsUnit (s : State) (l : Nat) : Prop := ∃ r ∈ s.flt.reads, r.lunit = l ∧ r.cmd = false

/-- The reads of an image asked for. -/
def State.askReads (s : State) (ls : List Nat) : State := ls.foldl (fun s l => s.askRead l false) s

theorem State.askRead_eq (s : State) (l : Nat) (cmd : Bool) : ∃ rs, s.askRead l cmd = s.onFlt (fun f => { f with reads := rs }) ∧
    s.flt.reads ⊆ rs := by
  unfold State.askRead
  split
  · exact ⟨s.flt.reads, rfl, List.Subset.refl _⟩
  · exact ⟨_, rfl, List.subset_append_left _ _⟩

theorem State.readsUnit_askRead (s : State) (l : Nat) : (s.askRead l false).readsUnit l := by
  unfold State.askRead
  split
  · next h =>
    obtain ⟨r, hr, hl⟩ := List.any_eq_true.mp (Bool.and_eq_true_iff.mp h).2
    exact ⟨r, hr, by simpa using hl⟩
  · exact ⟨_, List.mem_append_right _ (List.mem_singleton.mpr rfl), rfl, rfl⟩

theorem State.askReads_eq (s : State) (ls : List Nat) : ∃ rs, s.askReads ls = s.onFlt (fun f => { f with reads := rs }) ∧
    s.flt.reads ⊆ rs := by
  induction ls generalizing s with
  | nil => exact ⟨s.flt.reads, rfl, List.Subset.refl _⟩
  | cons l ls ih =>
    obtain ⟨rs, hrs, hsub⟩ := s.askRead_eq l false
    obtain ⟨rs', hrs', hsub'⟩ := ih (s.askRead l false)
    refine ⟨rs', hrs'.trans (by rw [hrs]; rfl), List.Subset.trans hsub ?_⟩
    rw [hrs] at hsub'
    exact hsub'

theorem State.pgt_askReads (s : State) (ls : List Nat) : (s.askReads ls).pgt = s.pgt := by
  obtain ⟨rs, hrs, -⟩ := s.askReads_eq ls
  rw [hrs, State.onFlt_pgt]

theorem State.only_askReads (s : State) (ls : List Nat) : s.only [.flt] (s.askReads ls) := by
  obtain ⟨rs, hrs, -⟩ := s.askReads_eq ls
  rw [hrs]
  exact s.only_onFlt _

/-- Every unit of the image is read. -/
theorem State.readsUnit_askReads {l : Nat} : ∀ (ls : List Nat) (s : State), l ∈ ls → (s.askReads ls).readsUnit l := by
  intro ls
  induction ls with
  | nil => exact fun _ h => absurd h List.not_mem_nil
  | cons l' ls ih =>
    intro s h
    obtain rfl | h := List.mem_cons.mp h
    · obtain ⟨r, hr, hl⟩ := s.readsUnit_askRead l
      obtain ⟨rs, hrs, hsub⟩ := (s.askRead l false).askReads_eq ls
      have hreads : (s.askReads (l :: ls)).flt.reads = rs := congrArg (fun t : State => t.flt.reads) hrs
      exact ⟨r, hreads ▸ hsub hr, hl⟩
    · exact ih (s.askRead l' false) h

/-- The reads of an image forgotten. -/
def State.dropReads (s : State) (ls : List Nat) : State := ls.foldl State.dropRead s

theorem State.dropReads_eq (s : State) (ls : List Nat) : ∃ rs, s.dropReads ls = s.onFlt fun f => { f with reads := rs } := by
  induction ls generalizing s with
  | nil => exact ⟨s.flt.reads, rfl⟩
  | cons l ls ih =>
    obtain ⟨rs, hrs⟩ := ih (s.dropRead l)
    exact ⟨rs, hrs⟩

theorem State.pgt_dropReads (s : State) (ls : List Nat) : (s.dropReads ls).pgt = s.pgt := by
  obtain ⟨rs, hrs⟩ := s.dropReads_eq ls
  rw [hrs, State.onFlt_pgt]

theorem State.only_dropReads (s : State) (ls : List Nat) : s.only [.flt] (s.dropReads ls) := by
  obtain ⟨rs, hrs⟩ := s.dropReads_eq ls
  rw [hrs]
  exact s.only_onFlt _

theorem State.keepsSeqs_dropReads (s : State) (ls : List Nat) : s.keepsSeqs (s.dropReads ls) := by
  obtain ⟨rs, hrs⟩ := s.dropReads_eq ls
  rw [hrs]
  exact ⟨rfl, rfl, rfl, rfl, rfl⟩

end Sys2Proof.Machine

end

section
/-! The statement of cold images and thaws (R43, R44). -/

namespace Sys2Proof.Proofs.Sequences
open Sys2Proof Sys2Proof.Machine

/-- The CRC-64 an image keeps is that of its bytes: its own value is none of them. -/
theorem crc_imageOf (s : State) (q : Machine.Seq) : (s.imageOf q).crc.toNat = crc64From 0 (s.imageOf q).bytes % 2 ^ 64 := by
  unfold State.imageOf
  dsimp only
  rw [BitVec.toNat_ofNat]
  rfl

section
variable {s : State} {k : Nat} {q : Machine.Seq} (hr : s.inReset = false) (hq : s.seq k = some q)
include hr hq

/-- The image of a sequence, of one unit, is given to flash. -/
theorem coldConversion_gives {l : Nat} {t u : State} (hms : s.fd Fd.PGT_COLD_DELAY_MS ≠ 0) (hst : q.sstate = .active)
    (hhidden : q.hidden = false) (hcold : q.cold = none) (hidle : q.lastUse + s.fd Fd.PGT_COLD_DELAY_MS * 1000 ≤ s.usec)
    (hquiet : s.quiet) (hquiesced : s.cust.quiesced = [])
    (hsettled : ∀ d ∈ q.pages, ∃ x, s.desc d = some x ∧
      (x.state = .tadpole ∧ x.sealDue = false ∨ x.state = .sealed ∧ x.loc.tier = .flash))
    (hlen : (s.imageOf q).bytes.length ≤ 65536) (halloc : s.fltAlloc (if k < 2 ^ 24 then 3 else 2) = some (l, t))
    (hwrite : t.fltWrite l (max 1 (ceilDiv (s.imageOf q).bytes.length 2048)) (hPart q.handle) (slice (s.imageOf q).bytes 0 65536)
      (.image k) = (stOK, u)) :
    exec (.coldConversion k) s = .next (s.commit (u.modSeq k fun q' => { q' with cold := some { s.imageOf q with units := [l] } })) := by
  have hn : max 1 (ceilDiv (s.imageOf q).bytes.length 65536) = 1 := by
    simp only [ceilDiv]; omega
  have hone : State.fltAllocN 1 (if k < 2 ^ 24 then 3 else 2) s = some ([l], t) := by
    simp only [State.fltAllocN, halloc, Option.bind_some, Option.map_some]
  have hlive : min 65536 ((s.imageOf q).bytes.length - 65536 * 0) = (s.imageOf q).bytes.length := by omega
  have hexec : exec (.coldConversion k) s = execColdConversion k s := rfl
  rw [hexec, execColdConversion, act_next s _ hr]
  simp only [hq]
  rw [if_neg]
  · simp only [hn, hone, List.zipIdx_cons, List.zipIdx_nil, List.foldl_cons, List.foldl_nil, hlive, Nat.mul_zero, hwrite, if_true]
  · rintro (h | h | h | h | h | h | h | h)
    · exact hms h
    · exact h hst
    · simp [hhidden] at h
    · simp [hcold] at h
    · omega
    · simp only [Bool.not_eq_true', List.all_eq_false] at h
      obtain ⟨d, hd, h⟩ := h
      obtain ⟨x, hx, ⟨h1, h2⟩ | ⟨h1, h2⟩⟩ := hsettled d hd
      · simp [hx, h1, h2] at h
      · simp [hx, h1, h2] at h
    · simp [hquiet.1] at h
    · simp [hquiesced] at h

/-- A thaw asks for the image's units and holds the epoch. -/
theorem thaw_asks (hst : q.sstate = .cold) (hnone : q.thawEpoch = none) : (Instr.thaw k).gives s fun t =>
    t.seq k = some { q with thawing := true, thawEpoch := some s.pgt.epoch } ∧
    (∀ im, q.cold = some im → ∀ l ∈ im.units, ∃ r ∈ t.flt.reads, r.lunit = l ∧ r.cmd = false) ∧
    (∀ j, j ≠ k → t.seq j = s.seq j) ∧ t.pgt.descs = s.pgt.descs ∧ s.only [.pgt, .flt] t := by
  let w := s.modSeq k fun q => { q with thawing := true, thawEpoch := some s.pgt.epoch }
  let ls := (q.cold.map (·.units)).getD []
  have hexec : exec (.thaw k) s = .next (s.commit (w.askReads ls)) := by
    have h : exec (.thaw k) s = act s fun s => s.startThaw k := rfl
    rw [h, act_next s _ hr]
    simp only [State.startThaw, hq, hst, hnone, Option.isSome_none, bne_self_eq_false, Bool.or_self, Bool.false_eq_true, if_false]
    rfl
  have hwq : ∀ j, w.seq j = if j = k then some { q with thawing := true, thawEpoch := some s.pgt.epoch } else s.seq j := fun j =>
    (s.seq_modSeq k _ j).trans (by rw [hq]; rfl)
  have hseq : ∀ j, (w.askReads ls).seq j = w.seq j := fun j => congrArg (fun g : Pgt => tfind g.seqs j) (w.pgt_askReads ls)
  refine ⟨_, hexec, (hseq k).trans ((hwq k).trans (if_pos rfl)), fun im him l hl => ?_,
    fun j hj => (hseq j).trans ((hwq j).trans (if_neg hj)), ?_, State.only_commit ?_⟩
  · exact State.readsUnit_askReads ls w (by simpa [ls, him] using hl)
  · exact (congrArg (·.descs) (w.pgt_askReads ls)).trans rfl
  · exact ((s.only_onPgt _).mono (by decide)).then (w.only_askReads ls) (by decide)

section
variable {im : ColdImage} {b twin : List Byte} {answered : Bool} (hst : q.sstate = .cold) (hthaw : q.thawEpoch.isSome = true)
  (hquiet : s.quiet) (hcold : q.cold = some im) (hread : s.imageRead im = some b) (hpool : s.poolUnit.isSome = true)
include hst hthaw hquiet hcold hread hpool

/-- An image that checks gives its sequence back. -/
theorem thawDone_good (hgood : crc64From 0 (slice b 0 (4096 * q.ptSize)) = q.ptCrc.toNat) (hdescs : im.descs = [])
    (htads : im.tadpoles = []) (hback : (s.reinstate k).isSome = true) : (Instr.thawDone k answered twin).gives s fun t =>
      t.seq k = some (q.reinstated im s.usec) ∧
      t.fd Fd.PGT_THAWS_COUNT = min (s.fd Fd.PGT_THAWS_COUNT + 1) (2 ^ 64 - 1) ∧ (∀ j, j ≠ k → t.seq j = s.seq j) := by
  obtain ⟨v, hv⟩ := Option.isSome_iff_exists.mp hback
  have hspec := State.reinstate_spec hq hcold hdescs htads hv
  let w := v.dropReads im.units
  have hw : (s.modSeq k fun _ => q.reinstated im s.usec).keepsSeqs w := hspec.trans (v.keepsSeqs_dropReads im.units)
  have hsettle : (w.inc Fd.PGT_THAWS_COUNT).settle = w.inc Fd.PGT_THAWS_COUNT :=
    State.settle_quiet _ (hw.ops.trans hquiet.1) (hw.copies.trans hquiet.2.1) ((congrArg (·.held) hw.cust).trans hquiet.2.2.1)
  have hexec : exec (.thawDone k answered twin) s = .next (s.commit (w.inc Fd.PGT_THAWS_COUNT)) := by
    have h : exec (.thawDone k answered twin) s = act s fun s => s.thawDone k (if answered then some twin else none) := rfl
    have hneed : (q.sstate != .cold || q.thawEpoch.isNone || s.poolUnit.isNone) = false := by
      simp [hst, hthaw, hpool]
    have hdrop : (im.units.foldl State.dropRead v).inc Fd.PGT_THAWS_COUNT = w.inc Fd.PGT_THAWS_COUNT := rfl
    rw [h, act_next s _ hr]
    simp only [State.thawDone, hq, hcold, hread, hneed, hgood, hv, decide_true, Bool.true_or, Bool.false_eq_true, if_false, if_true]
    rw [hdrop, hsettle]
  have hseq : ∀ j, (s.commit (w.inc Fd.PGT_THAWS_COUNT)).seq j = if j = k then some (q.reinstated im s.usec) else s.seq j := fun j =>
    (hw.seq j).trans ((s.seq_modSeq k _ j).trans (by rw [hq]; rfl))
  refine ⟨_, hexec, (hseq k).trans (if_pos rfl), ?_, fun j hj => (hseq j).trans (if_neg hj)⟩
  have hcount : w.fd Fd.PGT_THAWS_COUNT = s.fd Fd.PGT_THAWS_COUNT := hw.thaws
  have hlt : min (s.fd Fd.PGT_THAWS_COUNT + 1) (2 ^ 64 - 1) < 2 ^ 64 := by omega
  rw [State.commit_fd, State.inc, State.count, State.fd_setFd_same _ _ _ (by decide), hcount]
  exact Nat.mod_eq_of_lt hlt

/-- An image that does not check, and no other: the sequence stays COLD. -/
theorem thawDone_bad (hbad : ¬ crc64From 0 (slice b 0 (4096 * q.ptSize)) = q.ptCrc.toNat) (hlone : s.alone ∨ answered = false) :
    (Instr.thawDone k answered twin).gives s fun t =>
      t.seq k = some { q with thawing := false, thawEpoch := none } ∧ t.fd Fd.PGT_ERR_THAW_LOST = 1 ∧
      (∀ j, j ≠ k → t.seq j = s.seq j) ∧ t.pgt.descs = s.pgt.descs ∧ s.only [.csr, .pgt, .flt] t := by
  have hkeeps := s.keepsSeqs_dropReads im.units
  let w := s.dropReads im.units
  let t := (w.raise Fd.PGT_ERR_THAW_LOST).modSeq k fun q => { q with thawing := false, thawEpoch := none }
  have hwq : ∀ j, w.seq j = s.seq j := hkeeps.seq
  have hops : t.pgt.ops = [] := hkeeps.ops.trans hquiet.1
  have hcopies : t.pgt.copies = [] := hkeeps.copies.trans hquiet.2.1
  have hheld : t.cust.held = [] := (congrArg (·.held) hkeeps.cust).trans hquiet.2.2.1
  have hlost : w.thawLost k = t := State.thawLost_idle hops
  have hexec : exec (.thawDone k answered twin) s = .next (s.commit t) := by
    have h : exec (.thawDone k answered twin) s = act s fun s => s.thawDone k (if answered then some twin else none) := rfl
    have hneed : (q.sstate != .cold || q.thawEpoch.isNone || s.poolUnit.isNone) = false := by
      simp [hst, hthaw, hpool]
    have hother : ∀ ok : List Byte → Bool, ((s.role == .paired || s.role == .regrowing) &&
        ((if answered then some twin else none).map ok).getD false) = false := by
      intro ok
      rcases hlone with (h | h) | h <;> simp [h]
    have hdrop : ((im.units.foldl State.dropRead s).thawLost k).settle = (w.thawLost k).settle := rfl
    rw [h, act_next s _ hr]
    simp only [State.thawDone, hq, hcold, hread, hneed, hbad, hother, decide_false, Bool.or_self, Bool.false_eq_true, if_false]
    rw [hdrop, hlost, State.settle_quiet t hops hcopies hheld]
  have htq : ∀ j, t.seq j = if j = k then some { q with thawing := false, thawEpoch := none } else s.seq j := fun j =>
    ((w.raise Fd.PGT_ERR_THAW_LOST).seq_modSeq k _ j).trans
      (ite_congr rfl (fun _ => congrArg (Option.map _) ((hwq k).trans hq)) fun _ => hwq j)
  refine ⟨_, hexec, (htq k).trans (if_pos rfl), ?_, fun j hj => (htq j).trans (if_neg hj), ?_, State.only_commit ?_⟩
  · rw [State.commit_fd]
    exact State.fd_setFd_bit (s := w) (f := Fd.PGT_ERR_THAW_LOST) (by decide) rfl (by decide)
  · exact congrArg (·.descs) (s.pgt_dropReads im.units)
  · have hw : s.only [.csr, .pgt, .flt] w := (s.only_dropReads im.units).mono (by decide)
    exact (hw.then (w.only_setFd _ _) (by decide)).then (State.only_onPgt _ _) (by decide)

end

end

/-- Settles O42: each act changes the one record, beside what it asks of flash. -/
theorem coldSequences : Obligations.ColdSequences := by
  intro s k q hr hq
  refine ⟨fun l t u hms hst hhidden hcold hidle hquiet hquiesced hsettled => ?_, fun hst hnone => thaw_asks hr hq hst hnone,
    fun im b answered twin hst hthaw hquiet hcold hread hpool => ⟨fun hgood hdescs htads hback => ?_, fun hbad hlone => ?_⟩⟩
  · intro im hlen halloc hwrite
    exact ⟨_, coldConversion_gives hr hq hms hst hhidden hcold hidle hquiet hquiesced hsettled hlen halloc hwrite,
      (State.seq_modSeq u k _ k).trans (if_pos rfl), rfl, fun j hj => (State.seq_modSeq u k _ j).trans (if_neg hj), rfl, crc_imageOf s q⟩
  · obtain ⟨t, ht, hseq, hrest⟩ := thawDone_good (answered := answered) (twin := twin) hr hq hst hthaw hquiet hcold hread hpool hgood hdescs htads hback
    exact ⟨t, ht, ⟨_, hseq, rfl, rfl, rfl, rfl, rfl, rfl, rfl, ColdImage.pages_nil htads, rfl, rfl⟩, hrest⟩
  · exact thawDone_bad hr hq hst hthaw hquiet hcold hread hpool hbad hlone

end Sys2Proof.Proofs.Sequences

end

section
/-! SUPPORT. The bytes of a channel: its range of device addresses, and what a write or a zeroing of it leaves (R192, Table 10-5). -/

namespace Sys2Proof.Machine

/-! ## Pieces of a range -/

/-- Piece i of a range: where it starts, where it ends. -/
def pieceLo (a i : Nat) : Nat := max a ((a / 65536 + i) * 65536)
def pieceHi (a n i : Nat) : Nat := min (a + n) ((a / 65536 + i + 1) * 65536)
def pieceCount (a n : Nat) : Nat := (a % 65536 + n + 65535) / 65536

theorem chPieces_eq (a n : Nat) : chPieces a n = (List.range (pieceCount a n)).map fun i => (pieceLo a i, pieceHi a n i - pieceLo a i) := rfl

/-- A piece lies in the range, and in one 64 KiB block. -/
theorem mem_chPieces {a n : Nat} {p : Nat × Nat} (h : p ∈ chPieces a n) : a ≤ p.1 ∧ p.1 + p.2 ≤ a + n ∧ p.1 % 65536 + p.2 ≤ 65536 := by
  rw [chPieces_eq] at h
  obtain ⟨i, hi, rfl⟩ := List.mem_map.mp h
  have hlt := List.mem_range.mp hi
  simp only [pieceCount, pieceLo, pieceHi] at hlt ⊢
  omega

/-- Two pieces lie in two blocks. -/
theorem chPieces_pairwise (a n : Nat) : (chPieces a n).Pairwise fun p r => p.1 / 65536 < r.1 / 65536 := by
  rw [chPieces_eq]
  refine List.pairwise_map.mpr (List.pairwise_lt_range.imp fun {i j} hij => ?_)
  simp only [pieceLo]
  omega

/-- The pieces put end to end are the range. -/
theorem chPieces_cover (a n : Nat) : (chPieces a n).flatMap (fun p => List.range' p.1 p.2) = List.range' a n := by
  have hprefix : ∀ m ≤ pieceCount a n, (List.range m).flatMap (fun i => List.range' (pieceLo a i) (pieceHi a n i - pieceLo a i)) =
      List.range' a (min (a + n) ((a / 65536 + m) * 65536) - a) := by
    intro m
    induction m with
    | zero =>
      intro _
      have h0 : min (a + n) ((a / 65536 + 0) * 65536) - a = 0 := by omega
      rw [h0]
      rfl
    | succ m ih =>
      intro hm
      have hm' : m ≤ pieceCount a n := by omega
      have hlo : pieceLo a m = a + 1 * (min (a + n) ((a / 65536 + m) * 65536) - a) := by
        simp only [pieceCount, pieceLo] at hm ⊢
        omega
      have hsum : min (a + n) ((a / 65536 + m) * 65536) - a + (pieceHi a n m - pieceLo a m) =
          min (a + n) ((a / 65536 + (m + 1)) * 65536) - a := by
        simp only [pieceCount, pieceLo, pieceHi] at hm ⊢
        omega
      rw [List.range_succ, List.flatMap_append, ih hm', List.flatMap_singleton, hlo, ← hlo, ← hsum, hlo, List.range'_append]
  have hall := hprefix (pieceCount a n) le_rfl
  have hend : min (a + n) ((a / 65536 + pieceCount a n) * 65536) - a = n := by
    simp only [pieceCount]
    omega
  rw [chPieces_eq, List.flatMap_map, hall, hend]

/-- Every place of the range lies in a piece. -/
theorem exists_piece {a n i : Nat} (hi : i < n) : ∃ p ∈ chPieces a n, p.1 ≤ a + i ∧ a + i < p.1 + p.2 := by
  have hmem : a + i ∈ (chPieces a n).flatMap (fun p => List.range' p.1 p.2) := by
    rw [chPieces_cover, List.mem_range'_1]
    omega
  obtain ⟨p, hp, hx⟩ := List.mem_flatMap.mp hmem
  exact ⟨p, hp, List.mem_range'_1.mp hx⟩

/-! ## Device addresses -/

/-- A channel's data lies apart in steps of 16 MiB, its own 64 KiB of each. -/
theorem devAddr_add (k : Nat) {a j : Nat} (h : a % 65536 + j < 65536) : devAddr k (a + j) = devAddr k a + j := by
  simp only [devAddr, show (2 : Nat) ^ 16 = 65536 from rfl]
  have hq : (a + j) / 65536 = a / 65536 := by omega
  have hr : (a + j) % 65536 = a % 65536 + j := by omega
  rw [hq, hr]
  omega

section
variable {k a n : Nat}

/-- A piece of a usable range lies below the end of usable HBM. -/
theorem devAddr_piece_le (hk : k < 256) (h : a + n ≤ 0x7C000000) {p : Nat × Nat} (hp : p ∈ chPieces a n) (hpos : 0 < p.2) :
    devAddr k p.1 + p.2 ≤ hbmBytes := by
  obtain ⟨-, hend, hblock⟩ := mem_chPieces hp
  simp only [devAddr, hbmBytes, show (2 : Nat) ^ 16 = 65536 from rfl, show (2 : Nat) ^ 30 = 1073741824 from rfl]
  omega

/-- Pieces in two blocks are apart in the device. -/
theorem devAddr_apart {p r : Nat × Nat} (hp : p ∈ chPieces a n) (h : p.1 / 65536 < r.1 / 65536) :
    devAddr k p.1 + p.2 ≤ devAddr k r.1 := by
  obtain ⟨-, -, hblock⟩ := mem_chPieces hp
  simp only [devAddr, show (2 : Nat) ^ 16 = 65536 from rfl]
  omega

/-- An address in a piece is that of a place of the range. -/
theorem devAddr_of_piece {p : Nat × Nat} {x : Nat} (hp : p ∈ chPieces a n) (hlo : devAddr k p.1 ≤ x) (hhi : x < devAddr k p.1 + p.2) :
    ∃ i < n, x = devAddr k (a + i) := by
  obtain ⟨hstart, hend, hblock⟩ := mem_chPieces hp
  refine ⟨p.1 - a + (x - devAddr k p.1), by omega, ?_⟩
  have hplace : a + (p.1 - a + (x - devAddr k p.1)) = p.1 + (x - devAddr k p.1) := by omega
  rw [hplace, devAddr_add k (by omega)]
  omega

end

/-! ## Reading a channel -/

/-- Byte by byte. -/
theorem State.chBytes_eq (s : State) (k a n : Nat) : s.chBytes k a n = (List.range' a n).map fun x => byteOf s.hbm (devAddr k x) := by
  rw [← chPieces_cover, List.map_flatMap]
  refine List.flatMap_congr fun p hp => ?_
  obtain ⟨-, -, hblock⟩ := mem_chPieces hp
  rw [State.hbmRead, bytesOf, List.range'_eq_map_range, List.map_map]
  refine List.map_congr_left fun j hj => ?_
  have hlt := List.mem_range.mp hj
  simp only [Function.comp_apply]
  rw [devAddr_add k (by omega)]

theorem State.chBytes_length (s : State) (k a n : Nat) : (s.chBytes k a n).length = n := by
  rw [State.chBytes_eq, List.length_map, List.length_range']

theorem State.chBytes_congr {s t : State} {k a n : Nat} (h : ∀ i < n, byteOf t.hbm (devAddr k (a + i)) = byteOf s.hbm (devAddr k (a + i))) :
    t.chBytes k a n = s.chBytes k a n := by
  rw [State.chBytes_eq, State.chBytes_eq]
  refine List.map_congr_left fun x hx => ?_
  obtain ⟨hlo, hhi⟩ := List.mem_range'_1.mp hx
  have hxi := h (x - a) (by omega)
  rwa [Nat.add_sub_cancel' hlo] at hxi

/-- Every byte but those of n places of channel k from a stands. -/
def State.chBut (s : State) (k a n : Nat) (t : State) : Prop :=
  ∀ x, (∀ i < n, x ≠ devAddr k (a + i)) → byteOf t.hbm x = byteOf s.hbm x

/-! ## Writing a channel -/

/-- The writes of a channel range. -/
def chWrites (k a : Nat) (l : List Byte) : List (Nat × List Byte) :=
  (chPieces a l.length).map fun p => (devAddr k p.1, slice l (p.1 - a) p.2)

theorem State.chWrite_eq (s : State) (k a : Nat) (l : List Byte) : s.chWrite k a l = s.hbmWrites (chWrites k a l) := by
  rw [State.hbmWrites, chWrites, List.foldl_map]
  rfl

theorem slice_eq_map_range (l : List Byte) {o m : Nat} (h : o + m ≤ l.length) : slice l o m = (List.range m).map fun j => (l[o + j]?).getD 0 := by
  have htake : ((l.drop o).take m).length = m := by
    rw [List.length_take, List.length_drop]
    omega
  refine List.ext_getElem? fun i => ?_
  rw [slice]
  simp only [htake, Nat.sub_self, List.replicate_zero, List.append_nil, List.getElem?_map]
  by_cases hi : i < m
  · rw [List.getElem?_take_of_lt hi, List.getElem?_drop, List.getElem?_range hi, Option.map_some,
      List.getElem?_eq_getElem (show o + i < l.length by omega), Option.getD_some]
  · rw [List.getElem?_eq_none (by omega), List.getElem?_eq_none (by simpa using hi), Option.map_none]

/-- The pieces' bytes put end to end. -/
theorem flatMap_slices (a : Nat) (l : List Byte) : (chPieces a l.length).flatMap (fun p => slice l (p.1 - a) p.2) = l := by
  have hpiece : ∀ p ∈ chPieces a l.length, slice l (p.1 - a) p.2 = (List.range' p.1 p.2).map fun x => (l[x - a]?).getD 0 := by
    intro p hp
    obtain ⟨hstart, hend, -⟩ := mem_chPieces hp
    rw [slice_eq_map_range l (by omega), List.range'_eq_map_range, List.map_map]
    refine List.map_congr_left fun j _ => ?_
    simp only [Function.comp_apply]
    rw [Nat.sub_add_comm hstart]
  rw [List.flatMap_congr hpiece, ← List.map_flatMap, chPieces_cover]
  refine List.ext_getElem (by rw [List.length_map, List.length_range']) fun i h1 h2 => ?_
  simp [List.getElem?_eq_getElem h2]

section
variable {k a : Nat} {l : List Byte}

theorem chWrites_pairwise : (chWrites k a l).Pairwise apart := by
  refine List.pairwise_map.mpr ((chPieces_pairwise a l.length).imp_of_mem fun {p r} hp _ h => .inl ?_)
  rw [slice_length]
  exact devAddr_apart hp h

/-- What is written in a channel is read back. -/
theorem State.chBytes_chWrite (s : State) (hk : k < 256) (h : a + l.length ≤ 0x7C000000) : (s.chWrite k a l).chBytes k a l.length = l := by
  have hpiece : ∀ p ∈ chPieces a l.length, (s.chWrite k a l).hbmRead (devAddr k p.1) p.2 = slice l (p.1 - a) p.2 := by
    intro p hp
    obtain hzero | hpos := Nat.eq_zero_or_pos p.2
    · rw [hzero]
      exact (List.eq_nil_of_length_eq_zero (slice_length _ _ _)).symm
    · have hw : (devAddr k p.1, slice l (p.1 - a) p.2) ∈ chWrites k a l := List.mem_map_of_mem (f := fun p : Nat × Nat => (_, _)) hp
      have hread := State.hbmRead_hbmWrites (w := (devAddr k p.1, slice l (p.1 - a) p.2))
        (by rw [slice_length]; exact devAddr_piece_le hk h hp hpos) (chWrites k a l) s chWrites_pairwise hw
      rw [State.chWrite_eq]
      rwa [slice_length] at hread
  rw [State.chBytes, List.flatMap_congr hpiece, flatMap_slices]

/-- No other byte is. -/
theorem State.chBut_chWrite (s : State) (k a : Nat) (l : List Byte) : s.chBut k a l.length (s.chWrite k a l) := by
  intro x hx
  rw [State.chWrite_eq]
  refine State.byteOf_hbmWrites_outside _ _ fun w hw => ?_
  obtain ⟨p, hp, rfl⟩ := List.mem_map.mp hw
  rw [slice_length]
  by_contra hin
  obtain ⟨i, hi, rfl⟩ := devAddr_of_piece (k := k) (x := x) hp (by omega) (by omega)
  exact hx i hi rfl

end

/-! ## Zeroing a channel -/

theorem byteOf_zeroRanges (x : Nat) : ∀ (ws : List (Nat × Nat)) (m : List Host.Cell),
    byteOf (ws.foldl (fun m w => zeroRange m w.1 w.2) m) x = if ∃ w ∈ ws, w.1 ≤ x ∧ x < w.1 + w.2 then 0 else byteOf m x := by
  intro ws
  induction ws with
  | nil => simp
  | cons w ws ih =>
    intro m
    rw [List.foldl_cons, ih, byteOf_zeroRange]
    by_cases h : ∃ w ∈ ws, w.1 ≤ x ∧ x < w.1 + w.2
    · rw [if_pos h, if_pos (by obtain ⟨v, hv, hx⟩ := h; exact ⟨v, List.mem_cons_of_mem _ hv, hx⟩)]
    · rw [if_neg h]
      refine if_congr ⟨fun hw => ⟨w, List.mem_cons_self, hw⟩, ?_⟩ rfl rfl
      rintro ⟨v, hv, hx⟩
      obtain rfl | hv := List.mem_cons.mp hv
      · exact hx
      · exact absurd ⟨v, hv, hx⟩ h

section
variable (s : State) (k a n : Nat)

theorem State.byteOf_chZero (x : Nat) : byteOf (s.chZero k a n).hbm x =
    if ∃ p ∈ chPieces a n, devAddr k p.1 ≤ x ∧ x < devAddr k p.1 + p.2 then 0 else byteOf s.hbm x := by
  have h := byteOf_zeroRanges x ((chPieces a n).map fun p => (devAddr k p.1, p.2)) s.hbm
  rw [List.foldl_map] at h
  simp only [List.mem_map, exists_exists_and_eq_and] at h
  exact h

theorem State.chBytes_chZero : (s.chZero k a n).chBytes k a n = zeros n := by
  rw [State.chBytes_eq]
  refine List.eq_replicate_iff.mpr ⟨by rw [List.length_map, List.length_range'], fun b hb => ?_⟩
  obtain ⟨x, hx, rfl⟩ := List.mem_map.mp hb
  obtain ⟨hlo, hhi⟩ := List.mem_range'_1.mp hx
  obtain ⟨p, hp, hplo, hphi⟩ := exists_piece (a := a) (n := n) (i := x - a) (by omega)
  obtain ⟨-, -, hblock⟩ := mem_chPieces hp
  rw [Nat.add_sub_cancel' hlo] at hplo hphi
  have haddr : devAddr k x = devAddr k p.1 + (x - p.1) := by
    rw [← devAddr_add k (by omega), Nat.add_sub_cancel' hplo]
  rw [State.byteOf_chZero, if_pos ⟨p, hp, by omega, by omega⟩]

theorem State.chBut_chZero : s.chBut k a n (s.chZero k a n) := by
  intro x hx
  rw [State.byteOf_chZero, if_neg]
  rintro ⟨p, hp, hlo, hhi⟩
  obtain ⟨i, hi, rfl⟩ := devAddr_of_piece (k := k) hp hlo hhi
  exact hx i hi rfl

end

/-! ## Without errors the gecko reads what is there -/

theorem errGroups_nil (a n : Nat) : errGroups [] a n = [] := rfl

theorem State.chRead_nil (s : State) (k a n : Nat) : s.chRead k a n [] = s.chBytes k a n := rfl

theorem State.chFix_nil (s : State) (k a n : Nat) : s.chFix k a n [] = s := by
  have h : ∀ (l : List (Nat × Nat)) (u : State), l.foldl (fun s r => s.writeBack [] r.1 r.2) u = u := by
    intro l
    induction l with
    | nil => exact fun _ => rfl
    | cons r l ih => exact fun u => ih u
  exact h _ s

theorem State.chFound_nil (s : State) (k a n : Nat) : s.chFound k a n [] = (0, 0) := by
  have h : (devRanges k [(a, n)]).flatMap (fun r => (errGroups [] r.1 r.2).map (s.readGroup [])) = [] :=
    List.flatMap_eq_nil_iff.mpr fun _ _ => rfl
  rw [State.chFound, h]
  rfl

theorem State.eccRanges_nil (s : State) (rs : List (Nat × Nat)) : rs.foldl (fun s r => s.eccRange [] r.1 r.2) s = s := by
  induction rs generalizing s with
  | nil => rfl
  | cons r rs ih => exact ih s

theorem State.badBlocks_nil (s : State) (rs : List (Nat × Nat)) : (rs.any fun r => !(s.badBlocks [] r.1 r.2).isEmpty) = false :=
  List.any_eq_false.mpr fun r _ => by simp [State.badBlocks, errGroups_nil]

end Sys2Proof.Machine

end

section
/-! SUPPORT. A job's end in the slot of its gecko, and how a job runs whose reads meet no error (R206, R207, R213, R214). -/

namespace Sys2Proof.Machine

/-! ## Geckos -/

theorem State.gk_setGk (s : State) (k : Nat) (g : Gecko) (j : Nat) : (s.setGk k g).gk j = if j = k then g else s.gk j := by
  have h : (s.setGk k g).hb.geckos = tset s.hb.geckos k g := rfl
  rw [State.gk, h]
  split
  · next hj => rw [hj, tfind_tset_same, Option.getD_some]
  · next hj => rw [tfind_tset_ne _ _ hj, State.gk]

/-- `t` is `s` with work of gecko k's job in it: the geckos stand as they were, and beside the gecko block only `ps` has changed. -/
structure State.jobOf (s : State) (ps : List Part) (t : State) : Prop where
  gk : ∀ j, t.gk j = s.gk j
  hb : t.hb = { s.hb with geckos := t.hb.geckos }
  csr : t.csr = s.csr
  only : s.only (.hb :: ps) t

namespace State.jobOf
variable {s t : State} {ps : List Part}

theorem setHbm (h : s.jobOf ps t) (m : List Host.Cell) (hp : .hbm ∈ ps) : s.jobOf ps { t with hbm := m } :=
  { h with only := h.only.then (State.only_setHbm t m) (by simp [hp]) }

theorem onPgt (h : s.jobOf ps t) (f : Pgt → Pgt) (hp : .pgt ∈ ps) : s.jobOf ps (t.onPgt f) :=
  { h with only := h.only.then (State.only_onPgt t f) (by simp [hp]) }

theorem onTier (h : s.jobOf ps t) (f : TierBlock → TierBlock) (hp : .tier ∈ ps) : s.jobOf ps (t.onTier f) :=
  { h with only := h.only.then (State.only_onTier t f) (by simp [hp]) }

theorem chWrite (h : s.jobOf ps t) (k a : Nat) (l : List Byte) (hp : .hbm ∈ ps) : s.jobOf ps (t.chWrite k a l) := by
  obtain ⟨m, hm⟩ := t.hbmWrites_eq (chWrites k a l)
  rw [State.chWrite_eq, hm]
  exact h.setHbm m hp

theorem chZero (h : s.jobOf ps t) (k a n : Nat) (hp : .hbm ∈ ps) : s.jobOf ps (t.chZero k a n) := h.setHbm _ hp

end State.jobOf

/-- The gecko's own record stored as it is: the geckos are what they were. -/
theorem State.jobOf_setGk (s : State) (k : Nat) (ps : List Part) : s.jobOf ps (s.setGk k (s.gk k)) where
  gk j := by
    rw [State.gk_setGk]
    split
    · next h => rw [h]
    · rfl
  hb := rfl
  csr := rfl
  only := (s.only_onHb _).mono (by simp)

/-! ## The end of a job -/

/-- ARG2 written where a job has a result, then its slot done. -/
def State.jobEnded (s : State) (k slot st : Nat) (r : Option Nat) : State :=
  (match r with
    | some v => s.setGk k { s.gk k with cmd := putBytes (s.gk k).cmd (32 * slot + 24) (le 8 v) }
    | none => s).slotDone k slot st

/-- The command memory of a slot done. -/
def doneBytes (cmd : List Host.Cell) (slot st : Nat) : List Host.Cell :=
  putBytes cmd (32 * slot + 1) [BitVec.ofNat 8 ((tget 0 cmd (32 * slot + 1)).toNat / 2 * 2 + 1), BitVec.ofNat 8 st]

/-- The command memory with a job's result. -/
def withResult (cmd : List Host.Cell) (slot : Nat) (r : Option Nat) : List Host.Cell :=
  match r with
  | some v => putBytes cmd (32 * slot + 24) (le 8 v)
  | none => cmd

theorem byteOf_doneBytes (cmd : List Host.Cell) (slot st x : Nat) : byteOf (doneBytes cmd slot st) x =
    if x = 32 * slot + 1 then BitVec.ofNat 8 ((byteOf cmd (32 * slot + 1)).toNat / 2 * 2 + 1)
    else if x = 32 * slot + 2 then BitVec.ofNat 8 st else byteOf cmd x := by
  rw [doneBytes, byteOf_putBytes]
  by_cases h1 : x = 32 * slot + 1
  · rw [h1]; simp; rfl
  · by_cases h2 : x = 32 * slot + 2
    · rw [h2]; simp
    · rw [if_neg (by simp only [List.length_cons, List.length_nil]; omega), if_neg h1, if_neg h2]

/-- The gecko once a slot of it is done. -/
def Gecko.slotDone (g : Gecko) (slot st : Nat) (r : Option Nat) : Gecko :=
  { g with cmd := doneBytes (withResult g.cmd slot r) slot st, rung := g.rung.filter (· != slot), busy := g.busy.filter (· != slot) }

/-- The registers of a job's end. -/
def State.slotCounted (s : State) (k slot : Nat) : State :=
  let f := Fd.GK_READY_READY (k / 32) (k % 32)
  (s.setFd f (s.fd f ||| 2 ^ slot)).inc (Fd.GK_JOBS_COUNT (k / 32) (k % 32))

theorem State.jobEnded_gk (s : State) (k slot st : Nat) (r : Option Nat) (j : Nat) :
    (s.jobEnded k slot st r).gk j = if j = k then (s.gk k).slotDone slot st r else s.gk j := by
  have hdone : ∀ u : State, (u.slotDone k slot st).gk j = if j = k then (u.gk k).slotDone slot st none else u.gk j :=
    fun u => u.gk_setGk k ((u.gk k).slotDone slot st none) j
  unfold State.jobEnded
  cases r with
  | none => exact hdone s
  | some v =>
    refine (hdone _).trans ?_
    simp only [State.gk_setGk, if_true]
    split
    · rfl
    · rfl

theorem State.jobEnded_csr (s : State) (k slot st : Nat) (r : Option Nat) : (s.jobEnded k slot st r).csr = (s.slotCounted k slot).csr := by
  unfold State.jobEnded
  cases r with
  | none => rfl
  | some v => rfl

theorem State.jobEnded_hb (s : State) (k slot st : Nat) (r : Option Nat) :
    (s.jobEnded k slot st r).hb = { s.hb with geckos := (s.jobEnded k slot st r).hb.geckos } := by
  unfold State.jobEnded
  cases r with
  | none => rfl
  | some v => rfl

theorem State.hbm_jobEnded (s : State) (k slot st : Nat) (r : Option Nat) : (s.jobEnded k slot st r).hbm = s.hbm := by
  unfold State.jobEnded
  cases r with
  | none => rfl
  | some v => rfl

theorem State.pgt_jobEnded (s : State) (k slot st : Nat) (r : Option Nat) : (s.jobEnded k slot st r).pgt = s.pgt := by
  unfold State.jobEnded
  cases r with
  | none => rfl
  | some v => rfl

theorem State.only_jobEnded (s : State) (k slot st : Nat) (r : Option Nat) : s.only [.hb, .csr] (s.jobEnded k slot st r) := by
  have hdone : ∀ u : State, u.only [.hb, .csr] (u.slotDone k slot st) := fun u =>
    (((u.only_onHb _).mono (by decide)).then (State.only_setFd _ _ _) (by decide)).then (State.only_setFd _ _ _) (by decide)
  unfold State.jobEnded
  cases r with
  | none => exact hdone s
  | some v => exact ((s.only_onHb _).mono (by decide)).then (hdone _) (by decide)

section
variable (s : State) (k slot : Nat)

theorem State.jobs_slotCounted : (s.slotCounted k slot).fd (Fd.GK_JOBS_COUNT (k / 32) (k % 32)) =
    min (s.fd (Fd.GK_JOBS_COUNT (k / 32) (k % 32)) + 1) (2 ^ 64 - 1) := by
  have hne : (Fd.GK_JOBS_COUNT (k / 32) (k % 32)).addr ≠ (Fd.GK_READY_READY (k / 32) (k % 32)).addr := by
    simp only [Fd.GK_JOBS_COUNT, Fd.GK_READY_READY, Reg.GK_JOBS, Reg.GK_READY]
    omega
  have hlt : min (s.fd (Fd.GK_JOBS_COUNT (k / 32) (k % 32)) + 1) (2 ^ 64 - 1) < 2 ^ 64 := by omega
  rw [State.slotCounted, State.inc, State.count, State.fd_setFd_same _ _ _ (show 63 < 64 by decide),
    State.fd_setFd_other _ _ _ _ (.inl hne) (show 7 < 64 by decide)]
  exact Nat.mod_eq_of_lt hlt

theorem State.ready_slotCounted (h : slot < 8) :
    bits ((s.slotCounted k slot).fd (Fd.GK_READY_READY (k / 32) (k % 32))) slot slot = 1 := by
  have hne : (Fd.GK_READY_READY (k / 32) (k % 32)).addr ≠ (Fd.GK_JOBS_COUNT (k / 32) (k % 32)).addr := by
    simp only [Fd.GK_JOBS_COUNT, Fd.GK_READY_READY, Reg.GK_JOBS, Reg.GK_READY]
    omega
  have hfd : (s.slotCounted k slot).fd (Fd.GK_READY_READY (k / 32) (k % 32)) =
      (s.fd (Fd.GK_READY_READY (k / 32) (k % 32)) ||| 2 ^ slot) % 2 ^ 8 := by
    rw [State.slotCounted, State.inc, State.count, State.fd_setFd_other _ _ _ _ (.inl hne) (show 63 < 64 by decide),
      State.fd_setFd_same _ _ _ (show 7 < 64 by decide)]
    rfl
  have hbit : (bits ((s.slotCounted k slot).fd (Fd.GK_READY_READY (k / 32) (k % 32))) slot slot).testBit 0 = true := by
    rw [testBit_bits, hfd, Nat.testBit_mod_two_pow, Nat.testBit_or, Nat.testBit_two_pow]
    simp [h]
  have hlt := bits_lt ((s.slotCounted k slot).fd (Fd.GK_READY_READY (k / 32) (k % 32))) slot slot
  rw [Nat.add_sub_cancel_left] at hlt
  rw [Nat.testBit_zero, decide_eq_true_eq] at hbit
  omega

end

/-! ## Running without errors -/

section
variable {s : State} {k slot code : Nat}

/-- The slot's bytes (Table 10-3). -/
def Gecko.slotBytes (g : Gecko) (slot : Nat) : List Byte := (List.range 32).map fun i => tget 0 g.cmd (32 * slot + i)

/-- A job in a rung slot of a running gecko, not in breach. -/
theorem State.runJob_ok {st : Nat} {r : Option Nat} {u : State} (pick : GkJob → Bool) (hruns : s.gkRuns k = true)
    (hrung : slot ∈ (s.gk k).rung) (hbusy : (s.gk k).busy = []) (hcode : lat ((s.gk k).slotBytes slot) 0 1 = code)
    (heffect : (s.setGk k (s.gk k)).jobEffect k code (lat ((s.gk k).slotBytes slot) 3 1) (lat ((s.gk k).slotBytes slot) 8 8)
      (lat ((s.gk k).slotBytes slot) 16 8) (lat ((s.gk k).slotBytes slot) 24 8) [] = .ok st r u) :
    s.runJob k slot code pick [] = u.jobEnded k slot st r := by
  have hcontains : (s.gk k).rung.contains slot = true := List.contains_iff_mem.mpr hrung
  have husable : ∀ g, (s.setGk k g).chanUsable k = true := fun _ => by
    simp only [State.gkRuns, Bool.and_eq_true] at hruns
    exact hruns.1.2
  have hguard : (false || lat ((s.gk k).slotBytes slot) 0 1 != code || !s.gkRuns k || !(s.gk k).busy.isEmpty) = false := by
    simp [hcode, hruns, hbusy]
  have hb : ((List.range 32).map fun i => tget 0 (s.gk k).cmd (32 * slot + i)) = (s.gk k).slotBytes slot := rfl
  have hue : { s.gk k with ue := (s.gk k).ue || false } = s.gk k := by simp
  simp only [State.runJob, hcontains, if_true, hb, hguard, Bool.false_eq_true, if_false, State.eccRanges_nil, State.badBlocks_nil, hue, husable,
    Bool.not_true, heffect, and_false]
  rfl

end

end Sys2Proof.Machine

end

section
/-! SUPPORT. What a job that has ended leaves, and its effect by its code (Table 10-5). -/

namespace Sys2Proof.Machine

/-! ## The end -/

/-- The slot has ended with a status, its job is counted, and beside it the gecko stands. -/
def State.jobEnds (s : State) (k slot st : Nat) (ps : List Part) (t : State) : Prop :=
  t.slotEnded k slot st ∧
    t.fd (Fd.GK_JOBS_COUNT (k / 32) (k % 32)) = min (s.fd (Fd.GK_JOBS_COUNT (k / 32) (k % 32)) + 1) (2 ^ 64 - 1) ∧
    t.gk k = { s.gk k with cmd := (t.gk k).cmd, rung := (t.gk k).rung } ∧
    (∀ m, m ≠ slot → (m ∈ (t.gk k).rung ↔ m ∈ (s.gk k).rung)) ∧ s.gkOnly k (.csr :: ps) t

/-- The result of a slot: ARG2. -/
def State.slotResult (s : State) (k slot : Nat) : Nat :=
  unle ((List.range 8).map fun i => tget 0 (s.gk k).cmd (32 * slot + 24 + i))

theorem State.fd_congr {s t : State} (h : t.csr = s.csr) (f : Fd) : t.fd f = s.fd f := by
  rw [State.fd, State.fd, State.reg, State.reg, h]

section
variable {s u : State} {k slot st : Nat} {ps : List Part} {r : Option Nat}

theorem State.jobOf.ends (h : s.jobOf ps u) (hslot : slot < 8) (hst : st < 256) (hbusy : (s.gk k).busy = []) :
    s.jobEnds k slot st ps (s.commit (u.jobEnded k slot st r)) := by
  let t := u.jobEnded k slot st r
  have htk : (s.commit t).gk k = (s.gk k).slotDone slot st r := by
    have h1 : (s.commit t).gk k = t.gk k := rfl
    rw [h1, State.jobEnded_gk, if_pos rfl, h.gk]
  have hfd : ∀ f, (s.commit t).fd f = (u.slotCounted k slot).fd f := fun f => by
    rw [State.commit_fd, State.fd_congr (u.jobEnded_csr k slot st r)]
  have hcmd : ∀ x, byteOf ((s.commit t).gk k).cmd x = byteOf (doneBytes (withResult (s.gk k).cmd slot r) slot st) x := fun x => by
    rw [htk]; rfl
  refine ⟨⟨?_, ?_, ?_, ?_, ?_⟩, ?_, ?_, fun m hm => ?_, fun j hj => ?_, ?_, State.only_commit ?_⟩
  · have h2 : tget 0 ((s.commit t).gk k).cmd (32 * slot + 2) = BitVec.ofNat 8 st := by
      refine (hcmd _).trans ?_
      rw [byteOf_doneBytes, if_neg (by omega), if_pos rfl]
    rw [h2, BitVec.toNat_ofNat, Nat.mod_eq_of_lt hst]
  · have h1 : tget 0 ((s.commit t).gk k).cmd (32 * slot + 1) =
        BitVec.ofNat 8 ((byteOf (withResult (s.gk k).cmd slot r) (32 * slot + 1)).toNat / 2 * 2 + 1) := by
      refine (hcmd _).trans ?_
      rw [byteOf_doneBytes, if_pos rfl]
    rw [h1, BitVec.toNat_ofNat]
    omega
  · rw [htk]; simp [Gecko.slotDone]
  · rw [htk]; simp [Gecko.slotDone, hbusy]
  · rw [hfd]; exact u.ready_slotCounted k slot hslot
  · rw [hfd, u.jobs_slotCounted, State.fd_congr h.csr]
  · rw [htk]; simp [Gecko.slotDone, hbusy]
  · rw [htk]; simp [Gecko.slotDone, hm]
  · have h1 : (s.commit t).gk j = t.gk j := rfl
    rw [h1, State.jobEnded_gk, if_neg hj, h.gk]
  · have h1 : (s.commit t).hb = t.hb := rfl
    rw [h1, u.jobEnded_hb k slot st r, h.hb]
  · exact (h.only.mono (by simp)).then (u.only_jobEnded k slot st r) (by simp)

/-- The bytes of the result. -/
theorem byteOf_withResult (cmd : List Host.Cell) (v : Nat) {i : Nat} (hi : i < 8) :
    byteOf (doneBytes (withResult cmd slot (some v)) slot st) (32 * slot + 24 + i) = ((le 8 v)[i]?).getD 0 := by
  rw [byteOf_doneBytes, if_neg (by omega), if_neg (by omega), withResult, byteOf_putBytes, if_pos (by rw [le_length]; omega),
    Nat.add_sub_cancel_left]

theorem unle_le (n : Nat) : ∀ v, unle (le n v) = v % 256 ^ n := by
  induction n with
  | zero => intro v; rw [pow_zero, Nat.mod_one]; rfl
  | succ n ih =>
    intro v
    have hcons : unle (le (n + 1) v) = (BitVec.ofNat 8 v).toNat + 256 * unle (le n (v / 256)) := rfl
    rw [hcons, ih, BitVec.toNat_ofNat, show 256 ^ (n + 1) = 256 * 256 ^ n from pow_succ' 256 n, Nat.mod_mul]

theorem State.jobOf.result (h : s.jobOf ps u) (v : Nat) : (s.commit (u.jobEnded k slot st (some v))).slotResult k slot = v % 2 ^ 64 := by
  have htk : (s.commit (u.jobEnded k slot st (some v))).gk k = (s.gk k).slotDone slot st (some v) := by
    have h1 : (s.commit (u.jobEnded k slot st (some v))).gk k = (u.jobEnded k slot st (some v)).gk k := rfl
    rw [h1, State.jobEnded_gk, if_pos rfl, h.gk]
  have hbytes : ((List.range 8).map fun i => tget 0 ((s.gk k).slotDone slot st (some v)).cmd (32 * slot + 24 + i)) = le 8 v := by
    refine List.ext_getElem (by rw [List.length_map, List.length_range, le_length]) fun i h1 h2 => ?_
    rw [List.getElem_map, List.getElem_range]
    have hi : i < 8 := by simpa using h1
    refine (byteOf_withResult (slot := slot) (st := st) (s.gk k).cmd v hi).trans ?_
    rw [List.getElem?_eq_getElem h2, Option.getD_some]
  rw [State.slotResult, htk, hbytes, unle_le, show 256 ^ 8 = 2 ^ 64 from rfl]

end

/-! ## Windows -/

theorem State.fenceOk_of_window {s : State} {k a n : Nat} {kinds : List LockKind} (h : s.window k a n kinds) :
    s.fenceOk k a n kinds = true := by
  obtain ⟨e, he, hkind, hlo, hhi⟩ := h
  exact List.any_eq_true.mpr ⟨e, he, by simp [hkind, hlo, hhi]⟩

/-- A write inside a window. -/
theorem State.jobWrite_window {s : State} {k a : Nat} {l : List Byte} (h : s.window k a l.length [.lock, .win]) :
    s.jobWrite k a l = .ok stOK none (s.chWrite k a l) := by
  rw [State.jobWrite, if_pos (State.fenceOk_of_window h)]

end Sys2Proof.Machine

end

section
/-! SUPPORT. What the standard jobs of a gecko do, by their code (R53, R205, R206, R207, R214). -/

namespace Sys2Proof.Machine

/-! ## A job that reaches its end -/

/-- A running gecko is to run a job of a code in a rung slot. -/
def State.runsJob (s : State) (k slot code : Nat) : Prop :=
  s.inReset = false ∧ s.gkRuns k = true ∧ slot ∈ (s.gk k).rung ∧ (s.gk k).busy = [] ∧ lat ((s.gk k).slotBytes slot) 0 1 = code

/-- What a command that runs the job of a slot leaves, from the job's effect. -/
theorem State.runsJob.gives {s u : State} {k slot code st : Nat} {r : Option Nat} {ps : List Part} {i : Instr} (h : s.runsJob k slot code)
    (hexec : exec i s = act s fun s => s.runJob k slot code anyJob []) (hslot : slot < 8) (hst : st < 256)
    (hof : s.jobOf ps u)
    (heffect : (s.setGk k (s.gk k)).jobEffect k code (lat ((s.gk k).slotBytes slot) 3 1) (lat ((s.gk k).slotBytes slot) 8 8)
      (lat ((s.gk k).slotBytes slot) 16 8) (lat ((s.gk k).slotBytes slot) 24 8) [] = .ok st r u) :
    i.gives s fun t => (∀ x, byteOf t.hbm x = byteOf u.hbm x) ∧ t.pgt = u.pgt ∧ (∀ v, r = some v → t.slotResult k slot = v % 2 ^ 64) ∧ s.jobEnds k slot st ps t := by
  obtain ⟨hr, hruns, hrung, hbusy, hcode⟩ := h
  have hrun := State.runJob_ok anyJob hruns hrung hbusy hcode heffect
  refine ⟨s.commit (u.jobEnded k slot st r), ?_, ?_, ?_, ?_, hof.ends hslot hst hbusy⟩
  · rw [hexec, act_next s _ hr, hrun]
  · exact fun x => (State.commit_byteOf_hbm _ _ x).trans (by rw [State.hbm_jobEnded])
  · exact u.pgt_jobEnded k slot st r
  · rintro v rfl
    exact hof.result v

/-! ## Effects (Table 10-5) -/

theorem inChan_of_le {a n : Nat} (h : a + n ≤ 0x7C000000) : inChan a n = true := decide_eq_true h

section
variable {s : State} {k param a0 a1 a2 : Nat}

theorem State.jobEffect_crc (h : a0 % 2 ^ 31 + a1 ≤ 0x7C000000) : s.jobEffect k 2 param a0 a1 a2 [] =
    .ok stOK (some (a2 / 2 ^ 32 * 2 ^ 32 + crc32cFrom (a2 % 2 ^ 32) (s.chBytes k (a0 % 2 ^ 31) a1))) s := by
  simp only [State.jobEffect, inChan_of_le h, State.chRead_nil, Bool.not_true, Bool.false_eq_true, if_false]

theorem State.jobEffect_crc_format (h : 0x7C000000 < a0 % 2 ^ 31 + a1) : s.jobEffect k 2 param a0 a1 a2 [] = .ok stFORMAT none s := by
  have hout : inChan (a0 % 2 ^ 31) a1 = false := decide_eq_false (by omega)
  simp only [State.jobEffect, hout, Bool.not_false, if_true]

theorem State.jobEffect_compact (hsrc : a0 % 2 ^ 31 + a2 ≤ 0x7C000000) (hdst : a1 % 2 ^ 31 + a2 ≤ 0x7C000000)
    (hw : s.window k (a1 % 2 ^ 31) a2 [.lock, .win]) : s.jobEffect k 3 param a0 a1 a2 [] =
      .ok stOK none (s.chWrite k (a1 % 2 ^ 31) (s.chBytes k (a0 % 2 ^ 31) a2)) := by
  have hw' : s.window k (a1 % 2 ^ 31) (s.chBytes k (a0 % 2 ^ 31) a2).length [.lock, .win] := by rwa [State.chBytes_length]
  simp only [State.jobEffect, inChan_of_le hsrc, inChan_of_le hdst, State.chRead_nil, Bool.not_true, Bool.or_self, Bool.false_eq_true, if_false,
    State.jobWrite_window hw']

theorem State.jobEffect_zero (hsrc : a0 % 2 ^ 31 + a1 ≤ 0x7C000000) (hgroup : a1 % 128 = 0) (hw : s.window k (a0 % 2 ^ 31) a1 [.lock, .win]) :
    s.jobEffect k 4 param a0 a1 a2 [] = .ok stOK none (s.chZero k (a0 % 2 ^ 31) a1) := by
  simp only [State.jobEffect, inChan_of_le hsrc, hgroup, State.fenceOk_of_window hw, bne_self_eq_false, Bool.not_true, Bool.or_self,
    Bool.false_eq_true, if_false, if_true]

theorem State.jobEffect_scrubRange (hsrc : a0 % 2 ^ 31 + a1 ≤ 0x7C000000) : s.jobEffect k 5 param a0 a1 a2 [] = .ok stOK (some 0) s := by
  simp only [State.jobEffect, inChan_of_le hsrc, State.chFound_nil, State.chFix_nil, Bool.not_true, Bool.false_eq_true, if_false, zero_mul, add_zero]

theorem State.jobEffect_scrubPage (hsrc : a0 % 2 ^ 31 + a1 ≤ 0x7C000000) : s.jobEffect k 6 param a0 a1 a2 [] =
    .ok (if crc32c (s.chBytes k (a0 % 2 ^ 31) a1) = a2 % 2 ^ 32 then stOK else stPOISONED) none s := by
  simp only [State.jobEffect, inChan_of_le hsrc, Bool.not_true, Bool.false_eq_true, if_false]
  rw [State.chRead_nil, State.chFix_nil]

theorem State.jobEffect_digest {dg : List Byte} {n : Nat} (hn : 16 * (((fmtOf (bits a1 35 32)).map (·.rowBytes (bits a1 50 40))).getD 0 +
      (if bits a1 60 60 == 1 then ((fmtOf (bits a1 39 36)).map (·.rowBytes (bits a1 59 51))).getD 0 else 0)) = n)
    (hsrc : a0 % 2 ^ 31 + n ≤ 0x7C000000)
    (hdg : bankDigestOf param (bits a1 35 32) (bits a1 39 36) (bits a1 50 40) (bits a1 59 51) (a1 % 2 ^ 32) (a0 / 2 ^ 32)
      (s.chBytes k (a0 % 2 ^ 31) n) (bits a1 60 60 == 1) = some dg)
    (hout : a2 % 2 ^ 31 + dg.length ≤ 0x7C000000) (hw : s.window k (a2 % 2 ^ 31) dg.length [.lock, .win]) :
    s.jobEffect k 1 param a0 a1 a2 [] = .ok stOK none (s.chWrite k (a2 % 2 ^ 31) dg) := by
  simp only [State.jobEffect, hn, inChan_of_le hsrc, State.chRead_nil, hdg, inChan_of_le hout, State.jobWrite_window hw, Bool.not_true,
    Bool.false_eq_true, if_false, if_true]

/-- COW's target: the first ranges of the rows, then the second ones. -/
def State.cowCopied (s : State) (k src dst n ra rb : Nat) : State :=
  let t := s.chWrite k dst (s.chBytes k src (n * ra))
  if rb = 0 then t else t.chWrite k (dst + 16 * ra) (s.chBytes k (src + 16 * ra) (n * rb))

theorem State.fenceOk_chWrite (s : State) (k a n : Nat) (kinds : List LockKind) (j b : Nat) (l : List Byte) :
    (s.chWrite j b l).fenceOk k a n kinds = s.fenceOk k a n kinds := by
  obtain ⟨m, hm⟩ := s.hbmWrites_eq (chWrites j b l)
  rw [State.chWrite_eq, hm]
  rfl

theorem State.jobEffect_cow {ra rb : Nat} (hra : bits a2 23 0 = ra) (hrb : bits a2 47 24 = rb) (hn : param % 16 ≠ 0)
    (hsrc : a0 % 2 ^ 31 + 16 * (ra + rb) ≤ 0x7C000000) (hdst : a1 % 2 ^ 31 + 16 * (ra + rb) ≤ 0x7C000000)
    (hwa : s.window k (a1 % 2 ^ 31) (param % 16 * ra) [.lock, .win])
    (hwb : rb ≠ 0 → s.window k (a1 % 2 ^ 31 + 16 * ra) (param % 16 * rb) [.lock, .win]) :
    s.jobEffect k 7 param a0 a1 a2 [] = .ok stOK none (s.cowCopied k (a0 % 2 ^ 31) (a1 % 2 ^ 31) (param % 16) ra rb) := by
  have hfirst : s.window k (a1 % 2 ^ 31) (s.chBytes k (a0 % 2 ^ 31) (param % 16 * ra)).length [.lock, .win] := by rwa [State.chBytes_length]
  simp only [State.jobEffect, hra, hrb, hn, inChan_of_le hsrc, inChan_of_le hdst, State.chRead_nil, State.jobWrite_window hfirst, Bool.not_true,
    Bool.false_eq_true, or_self, if_false, State.cowCopied]
  split
  · rfl
  · next hne =>
    have hsecond := State.fenceOk_of_window (hwb hne)
    rw [State.jobWrite, State.chBytes_length, State.fenceOk_chWrite, if_pos hsecond]

theorem State.jobEffect_sweep (hsrc : a0 % 2 ^ 31 + 65536 ≤ 0x7C000000) (hcount : a1 ≤ 2048) (hout : a2 % 2 ^ 31 + sweepOutBytes ≤ 0x7C000000)
    (hpiece : s.window k (a0 % 2 ^ 31) 65536 [.atom]) (hw : s.window k (a2 % 2 ^ 31) sweepOutBytes [.lock, .win]) :
    s.jobEffect k 8 param a0 a1 a2 [] = .ok stOK none (s.sweepPiece k (a2 % 2 ^ 31) (devAddr k (a0 % 2 ^ 31)) a1) := by
  have hmany : decide (2048 < a1) = false := decide_eq_false (by omega)
  simp only [State.jobEffect, inChan_of_le hsrc, inChan_of_le hout, hmany, State.fenceOk_of_window hpiece, State.fenceOk_of_window hw, Bool.not_true,
    Bool.or_self, Bool.and_self, Bool.false_eq_true, if_false, if_true]

end

/-! ## A copy on write -/

/-- Places of a channel lie in the device in their order. -/
theorem devAddr_lt {k x y : Nat} (h : x < y) : devAddr k x < devAddr k y := by
  simp only [devAddr, show (2 : Nat) ^ 16 = 65536 from rfl]
  omega

theorem State.jobOf.cowCopied {s t : State} {ps : List Part} {k src dst n ra rb : Nat} (h : s.jobOf ps t) (hp : .hbm ∈ ps) :
    s.jobOf ps (t.cowCopied k src dst n ra rb) := by
  rw [State.cowCopied]
  split
  · exact h.chWrite _ _ _ hp
  · exact (h.chWrite _ _ _ hp).chWrite _ _ _ hp

section
variable (s : State) {k src dst n ra rb : Nat}

theorem State.cowCopied_bytes (hk : k < 256) (hn : n ≤ 16) (hdst : dst + 16 * (ra + rb) ≤ 0x7C000000) :
    (s.cowCopied k src dst n ra rb).chBytes k dst (n * ra) = s.chBytes k src (n * ra) ∧
    (s.cowCopied k src dst n ra rb).chBytes k (dst + 16 * ra) (n * rb) = s.chBytes k (src + 16 * ra) (n * rb) ∧
    s.chBut k dst (16 * ra + n * rb) (s.cowCopied k src dst n ra rb) := by
  have hra : n * ra ≤ 16 * ra := Nat.mul_le_mul_right ra hn
  have hrb : n * rb ≤ 16 * rb := Nat.mul_le_mul_right rb hn
  have hlenA := s.chBytes_length k src (n * ra)
  have hlenB := s.chBytes_length k (src + 16 * ra) (n * rb)
  let t := s.chWrite k dst (s.chBytes k src (n * ra))
  have hfirst : t.chBytes k dst (n * ra) = s.chBytes k src (n * ra) := by
    have h := s.chBytes_chWrite (a := dst) (l := s.chBytes k src (n * ra)) hk (by omega)
    rwa [hlenA] at h
  have hbutA : s.chBut k dst (n * ra) t := by
    have h := s.chBut_chWrite k dst (s.chBytes k src (n * ra))
    rwa [hlenA] at h
  by_cases hzero : rb = 0
  · rw [State.cowCopied, if_pos hzero, hzero]
    rw [hzero, Nat.mul_zero] at hlenB
    exact ⟨hfirst, (List.eq_nil_of_length_eq_zero (State.chBytes_length _ _ _ _)).trans (List.eq_nil_of_length_eq_zero hlenB).symm, fun x hx => hbutA x fun i hi => hx i (by omega)⟩
  · rw [State.cowCopied, if_neg hzero]
    have hbutB : t.chBut k (dst + 16 * ra) (n * rb) (t.chWrite k (dst + 16 * ra) (s.chBytes k (src + 16 * ra) (n * rb))) := by
      have h := t.chBut_chWrite k (dst + 16 * ra) (s.chBytes k (src + 16 * ra) (n * rb))
      rwa [hlenB] at h
    refine ⟨?_, ?_, fun x hx => (hbutB x fun i hi => ?_).trans (hbutA x fun i hi => hx i (by omega))⟩
    · refine (State.chBytes_congr fun i hi => hbutB _ fun j _ => ?_).trans hfirst
      exact Nat.ne_of_lt (devAddr_lt (by omega))
    · have h := t.chBytes_chWrite (a := dst + 16 * ra) (l := s.chBytes k (src + 16 * ra) (n * rb)) hk (by omega)
      rwa [hlenB] at h
    · have h := hx (16 * ra + i) (by omega)
      rwa [← Nat.add_assoc] at h

end

/-! ## A sweep -/

/-- The entries of the descriptors from lo on, n of them, with their HEAT halved. -/
def halved (lo n : Nat) (descs : Tbl Desc) : Tbl Desc :=
  descs.map fun e => if lo ≤ e.1 && e.1 < lo + n then (e.1, { e.2 with heat := e.2.heat / 2 }) else e

section
variable {lo n : Nat} {e : Nat × Desc} (descs : List (Nat × Desc))

theorem halved_cons_in (h : lo ≤ e.1 ∧ e.1 < lo + n) :
    halved lo n (e :: descs) = (e.1, { e.2 with heat := e.2.heat / 2 }) :: halved lo n descs := by
  rw [halved, List.map_cons, if_pos (by simpa using h), halved]

theorem halved_cons_out (h : ¬ (lo ≤ e.1 ∧ e.1 < lo + n)) : halved lo n (e :: descs) = e :: halved lo n descs := by
  rw [halved, List.map_cons, if_neg (by simpa using h), halved]

end

theorem tfind_halved (lo n d : Nat) (descs : Tbl Desc) : tfind (halved lo n descs) d =
    (tfind descs d).map fun x => if lo ≤ d ∧ d < lo + n then { x with heat := x.heat / 2 } else x := by
  induction descs with
  | nil => rfl
  | cons e descs ih =>
    obtain ⟨a, x⟩ := e
    by_cases hin : lo ≤ a ∧ a < lo + n
    · rw [halved_cons_in descs hin, tfind, tfind, ih]
      split
      · next ha => rw [Option.map_some, if_pos (ha ▸ hin)]
      · rfl
    · rw [halved_cons_out descs hin, tfind, tfind, ih]
      split
      · next ha => rw [Option.map_some, if_neg (ha ▸ hin)]
      · rfl

/-- What a sweep writes of them. -/
def sweptOf (lo n : Nat) (descs : Tbl Desc) : List (Nat × Nat) :=
  ((halved lo n descs).filter fun e => lo ≤ e.1 && e.1 < lo + n).map fun e => (e.1, e.2.heat)

theorem sweptOf_eq (lo n : Nat) (descs : Tbl Desc) : sweptOf lo n descs =
    (descs.filter fun e => decide (lo ≤ e.1 ∧ e.1 < lo + n)).map fun e => (e.1, e.2.heat / 2) := by
  induction descs with
  | nil => rfl
  | cons e descs ih =>
    rw [sweptOf] at ih ⊢
    by_cases hin : lo ≤ e.1 ∧ e.1 < lo + n
    · rw [halved_cons_in descs hin, List.filter_cons_of_pos (by simpa using hin), List.filter_cons_of_pos (by simpa using hin), List.map_cons,
        List.map_cons, ih]
    · rw [halved_cons_out descs hin, List.filter_cons_of_neg (by simpa using hin), List.filter_cons_of_neg (by simpa using hin), ih]

theorem sweepBytes_swept (lo n : Nat) (descs : Tbl Desc) : sweepBytes (sweptOf lo n descs) =
    (descs.filter fun e => decide (lo ≤ e.1 ∧ e.1 < lo + n)).flatMap fun e => le 4 e.1 ++ le 1 (e.2.heat / 2) ++ zeros 3 := by
  rw [sweptOf_eq, sweepBytes, List.flatMap_map]

theorem sweptOf_length (lo n : Nat) (descs : Tbl Desc) :
    (sweptOf lo n descs).length = (descs.filter fun e => decide (lo ≤ e.1 ∧ e.1 < lo + n)).length := by
  rw [sweptOf_eq, List.length_map]

theorem sweepBytes_length (l : List (Nat × Nat)) : (sweepBytes l).length = 8 * l.length := by
  induction l with
  | nil => rfl
  | cons g l ih =>
    have hcons : sweepBytes (g :: l) = (le 4 g.1 ++ le 1 g.2 ++ zeros 3) ++ sweepBytes l := rfl
    rw [hcons, List.length_append, ih, List.length_append, List.length_append, le_length, le_length, List.length_cons]
    simp only [zeros, List.length_replicate]
    omega

/-- The pool's chunk in which a piece lies. -/
theorem find?_chunk {chunks : List Nat} {a i c : Nat} (hc : chunks[i]? = some c) (hlo : c * 2048 ≤ a) (hhi : a < c * 2048 + 2 ^ 21)
    (hfirst : ∀ j < i, ∀ e, chunks[j]? = some e → a < e * 2048 ∨ e * 2048 + 2 ^ 21 ≤ a) :
    chunks.zipIdx.find? (fun c => c.1 * 2048 ≤ a && a < c.1 * 2048 + 2 ^ 21) = some (c, i) := by
  obtain ⟨hi, rfl⟩ := List.getElem?_eq_some_iff.mp hc
  refine List.find?_eq_some_iff_getElem.mpr ⟨by simp only [hlo, hhi, decide_true, Bool.and_self], i, by simpa using hi, by simp, fun j hj => ?_⟩
  have hout := hfirst j hj _ (List.getElem?_eq_getElem (show j < chunks.length by omega))
  simp only [List.getElem_zipIdx, Bool.not_eq_true', Bool.and_eq_false_iff, decide_eq_false_iff_not]
  omega

theorem State.sweepPiece_eq (s : State) {k out a n i c : Nat}
    (hfind : s.pgt.chunks.zipIdx.find? (fun c => c.1 * 2048 ≤ a && a < c.1 * 2048 + 2 ^ 21) = some (c, i)) :
    let lo := i * 65536 + (a - c * 2048) / 32
    s.sweepPiece k out a n = ((s.onPgt fun p => { p with descs := halved lo n p.descs }).onTier fun b =>
      { b with gathered := b.gathered ++ sweptOf lo n s.pgt.descs }).chWrite k out (sweepBytes (sweptOf lo n s.pgt.descs)) := by
  intro lo
  rw [State.sweepPiece, hfind]
  rfl

theorem State.pgt_chWrite (s : State) (k a : Nat) (l : List Byte) : (s.chWrite k a l).pgt = s.pgt := by
  obtain ⟨m, hm⟩ := s.hbmWrites_eq (chWrites k a l)
  rw [State.chWrite_eq, hm]

end Sys2Proof.Machine

end

section
/-! The statement of the standard jobs of a gecko, job by job (R53, R205, R206, R207, R214). -/

namespace Sys2Proof.Proofs.Sequences
open Sys2Proof Sys2Proof.Machine

section
variable {s : State} {k : Fin 256} {slot : Fin 8}

/-- A job that writes one range of its channel. -/
theorem job_writes {i : Instr} {code a : Nat} {l : List Byte} (h : s.runsJob k.val slot.val code)
    (hexec : exec i s = act s fun s => s.runJob k.val slot.val code anyJob [])
    (hfits : a + l.length ≤ 0x7C000000)
    (heffect : (s.setGk k.val (s.gk k.val)).jobEffect k.val code (lat ((s.gk k.val).slotBytes slot.val) 3 1)
      (lat ((s.gk k.val).slotBytes slot.val) 8 8) (lat ((s.gk k.val).slotBytes slot.val) 16 8) (lat ((s.gk k.val).slotBytes slot.val) 24 8) [] =
      .ok stOK none ((s.setGk k.val (s.gk k.val)).chWrite k.val a l)) :
    i.gives s fun t => t.chBytes k.val a l.length = l ∧ s.chBut k.val a l.length t ∧ s.jobEnds k.val slot.val stOK [.hbm] t := by
  obtain ⟨t, ht, hhbm, -, -, hends⟩ := h.gives hexec slot.isLt (by decide) ((s.jobOf_setGk k.val [.hbm]).chWrite k.val a l (by decide)) heffect
  exact ⟨t, ht, (State.chBytes_congr fun j _ => hhbm _).trans (State.chBytes_chWrite _ k.isLt hfits),
    fun x hx => (hhbm x).trans (State.chBut_chWrite _ k.val a l x hx), hends⟩

/-- A job that only reads. -/
theorem job_reads {i : Instr} {code st : Nat} {r : Option Nat} (h : s.runsJob k.val slot.val code)
    (hexec : exec i s = act s fun s => s.runJob k.val slot.val code anyJob []) (hst : st < 256)
    (heffect : (s.setGk k.val (s.gk k.val)).jobEffect k.val code (lat ((s.gk k.val).slotBytes slot.val) 3 1)
      (lat ((s.gk k.val).slotBytes slot.val) 8 8) (lat ((s.gk k.val).slotBytes slot.val) 16 8) (lat ((s.gk k.val).slotBytes slot.val) 24 8) [] =
      .ok st r (s.setGk k.val (s.gk k.val))) :
    i.gives s fun t => (∀ v, r = some v → t.slotResult k.val slot.val = v % 2 ^ 64) ∧ s.jobEnds k.val slot.val st [] t := by
  obtain ⟨t, ht, -, -, hresult, hends⟩ := h.gives hexec slot.isLt hst (s.jobOf_setGk k.val []) heffect
  exact ⟨t, ht, hresult, hends⟩

theorem act_congr {f g : State → State} (h : f s = g s) : act s f = act s g := by rw [act, act, actAlways, actAlways, h]

/-- A COMPACT in a rung slot runs. -/
theorem exec_compact_rung (d : Nat) (h : slot.val ∈ (s.gk k.val).rung) :
    exec (.compact k slot d [] []) s = act s fun s => s.runJob k.val slot.val 3 anyJob [] := by
  have hexec : exec (.compact k slot d [] []) s = execCompact k slot d [] [] s := rfl
  rw [hexec, execCompact]
  exact act_congr (if_pos (List.contains_iff_mem.mpr h))

/-- A COMPACT's copy. -/
theorem compact_copies (d : Nat) {src dst n : Nat} (h : s.runsJob k.val slot.val 3)
    (hsrc : lat ((s.gk k.val).slotBytes slot.val) 8 8 % 2 ^ 31 = src) (hdst : lat ((s.gk k.val).slotBytes slot.val) 16 8 % 2 ^ 31 = dst)
    (hn : lat ((s.gk k.val).slotBytes slot.val) 24 8 = n) (hin : src + n ≤ 0x7C000000) (hout : dst + n ≤ 0x7C000000)
    (hw : s.window k.val dst n [.lock, .win]) : (Instr.compact k slot d [] []).gives s fun t =>
      t.chBytes k.val dst n = s.chBytes k.val src n ∧ s.chBut k.val dst n t ∧ s.jobEnds k.val slot.val stOK [.hbm] t := by
  subst hsrc hdst hn
  have hlen := (s.setGk k.val (s.gk k.val)).chBytes_length k.val (lat ((s.gk k.val).slotBytes slot.val) 8 8 % 2 ^ 31)
    (lat ((s.gk k.val).slotBytes slot.val) 24 8)
  have ⟨_, _, hrung, _⟩ := h
  have hjob := job_writes h (exec_compact_rung d hrung) (by rwa [hlen]) (State.jobEffect_compact hin hout hw)
  rw [hlen] at hjob
  exact hjob

/-- A COW's copies. -/
theorem cow_copies {src dst n ra rb : Nat} (h : s.runsJob k.val slot.val 7)
    (hsrc : lat ((s.gk k.val).slotBytes slot.val) 8 8 % 2 ^ 31 = src) (hdst : lat ((s.gk k.val).slotBytes slot.val) 16 8 % 2 ^ 31 = dst)
    (hn : lat ((s.gk k.val).slotBytes slot.val) 3 1 % 16 = n) (hra : bits (lat ((s.gk k.val).slotBytes slot.val) 24 8) 23 0 = ra)
    (hrb : bits (lat ((s.gk k.val).slotBytes slot.val) 24 8) 47 24 = rb) (hpos : n ≠ 0) (hin : src + 16 * (ra + rb) ≤ 0x7C000000)
    (hout : dst + 16 * (ra + rb) ≤ 0x7C000000) (hwa : s.window k.val dst (n * ra) [.lock, .win])
    (hwb : rb ≠ 0 → s.window k.val (dst + 16 * ra) (n * rb) [.lock, .win]) : (Instr.cow k slot [] []).gives s fun t =>
      t.chBytes k.val dst (n * ra) = s.chBytes k.val src (n * ra) ∧
      t.chBytes k.val (dst + 16 * ra) (n * rb) = s.chBytes k.val (src + 16 * ra) (n * rb) ∧
      s.chBut k.val dst (16 * ra + n * rb) t ∧ s.jobEnds k.val slot.val stOK [.hbm] t := by
  subst hsrc hdst hn
  obtain ⟨t, ht, hhbm, -, -, hends⟩ := h.gives (i := .cow k slot [] []) rfl slot.isLt (by decide)
    (State.jobOf.cowCopied (s.jobOf_setGk k.val [.hbm]) (by decide)) (State.jobEffect_cow hra hrb hpos hin hout hwa hwb)
  obtain ⟨hfirst, hsecond, hbut⟩ := (s.setGk k.val (s.gk k.val)).cowCopied_bytes (src := lat ((s.gk k.val).slotBytes slot.val) 8 8 % 2 ^ 31)
    (n := lat ((s.gk k.val).slotBytes slot.val) 3 1 % 16) k.isLt (Nat.mod_lt _ (by decide)).le hout
  exact ⟨t, ht, (State.chBytes_congr fun j _ => hhbm _).trans hfirst, (State.chBytes_congr fun j _ => hhbm _).trans hsecond,
    fun x hx => (hhbm x).trans (hbut x hx), hends⟩

/-- A sweep's halving, and its output. -/
theorem sweep_halves {src out n i c : Nat} (h : s.runsJob k.val slot.val 8)
    (hsrc : lat ((s.gk k.val).slotBytes slot.val) 8 8 % 2 ^ 31 = src) (hn : lat ((s.gk k.val).slotBytes slot.val) 16 8 = n)
    (hout : lat ((s.gk k.val).slotBytes slot.val) 24 8 % 2 ^ 31 = out) (hfits : src + 65536 ≤ 0x7C000000) (hcount : n ≤ 2048)
    (hroom : out + sweepOutBytes ≤ 0x7C000000) (hpiece : s.window k.val src 65536 [.atom]) (hw : s.window k.val out sweepOutBytes [.lock, .win])
    (hfind : s.pgt.chunks.zipIdx.find? (fun c => c.1 * 2048 ≤ devAddr k.val src && devAddr k.val src < c.1 * 2048 + 2 ^ 21) = some (c, i)) :
    (Instr.sweep k slot [] []).gives s fun t =>
      let lo := i * 65536 + (devAddr k.val src - c * 2048) / 32
      let bytes := sweepBytes (sweptOf lo n s.pgt.descs)
      t.pgt.descs = halved lo n s.pgt.descs ∧
      (out + bytes.length ≤ 0x7C000000 → t.chBytes k.val out bytes.length = bytes ∧ s.chBut k.val out bytes.length t) ∧
      s.jobEnds k.val slot.val stOK [.hbm, .pgt, .tier] t := by
  subst hsrc hn hout
  have heffect := State.jobEffect_sweep (s := s.setGk k.val (s.gk k.val)) (param := lat ((s.gk k.val).slotBytes slot.val) 3 1) hfits hcount hroom hpiece hw
  rw [State.sweepPiece_eq (s.setGk k.val (s.gk k.val)) hfind] at heffect
  obtain ⟨t, ht, hhbm, hpgt, -, hends⟩ := h.gives (i := .sweep k slot [] []) (ps := [.hbm, .pgt, .tier]) rfl slot.isLt (by decide)
    ((((s.jobOf_setGk k.val _).onPgt _ (by decide)).onTier _ (by decide)).chWrite _ _ _ (by decide)) heffect
  refine ⟨t, ht, ?_, fun hlen => ⟨?_, fun x hx => ?_⟩, hends⟩
  · rw [hpgt, State.pgt_chWrite]
    rfl
  · exact (State.chBytes_congr fun j _ => hhbm _).trans (State.chBytes_chWrite _ k.isLt hlen)
  · exact (hhbm x).trans (State.chBut_chWrite _ _ _ _ x hx)

end

/-- Settles O34: each job's effect by its code, then the end common to all of them. -/
theorem geckoJobs : Obligations.GeckoJobs := by
  intro s k slot
  refine ⟨?digest, ?crc, ?crcFormat, ?compact, ?zero, ?scrubRange, ?scrubPage, ?cow, ?sweep⟩
  case digest =>
    intro dg hruns wa wb fa fb lt n hsrc hdg hout hw
    exact job_writes hruns rfl hout (State.jobEffect_digest rfl hsrc hdg hout hw)
  case crc =>
    intro hruns hsrc
    obtain ⟨t, ht, hresult, hends⟩ := job_reads (i := .crc k slot [] []) hruns rfl (by decide) (State.jobEffect_crc hsrc)
    refine ⟨t, ht, ?_, hends⟩
    have hmod : ∀ h c : Nat, (h * 2 ^ 32 + c) % 2 ^ 64 % 2 ^ 32 = c % 2 ^ 32 := fun h c => by omega
    exact (congrArg (· % 2 ^ 32) (hresult _ rfl)).trans (hmod _ _)
  case crcFormat =>
    intro hruns hout
    obtain ⟨t, ht, -, hends⟩ := job_reads (i := .crc k slot [] []) hruns rfl (by decide) (State.jobEffect_crc_format hout)
    exact ⟨t, ht, hends⟩
  case compact => exact fun hruns hsrc hdst hw d => compact_copies d hruns rfl rfl rfl hsrc hdst hw
  case zero =>
    intro hruns hsrc hgroup hw
    obtain ⟨t, ht, hhbm, -, -, hends⟩ := State.runsJob.gives (i := .zero k slot [] []) hruns rfl slot.isLt (by decide)
      ((s.jobOf_setGk k.val [.hbm]).chZero k.val _ _ (by decide)) (State.jobEffect_zero hsrc hgroup hw)
    exact ⟨t, ht, (State.chBytes_congr fun j _ => hhbm _).trans (State.chBytes_chZero _ _ _ _),
      fun x hx => (hhbm x).trans (State.chBut_chZero _ _ _ _ x hx), hends⟩
  case scrubRange =>
    intro hruns hsrc
    obtain ⟨t, ht, hresult, hends⟩ := job_reads (i := .scrubRange k slot [] []) hruns rfl (by decide) (State.jobEffect_scrubRange hsrc)
    exact ⟨t, ht, hresult 0 rfl, hends⟩
  case scrubPage =>
    intro hruns hsrc
    obtain ⟨t, ht, -, hends⟩ := job_reads (i := .scrubPage k slot [] []) hruns rfl (by split <;> decide) (State.jobEffect_scrubPage hsrc)
    exact ⟨t, ht, hends⟩
  case cow => exact fun hruns hpos hin hout hwa hwb => cow_copies hruns rfl rfl rfl rfl rfl hpos hin hout hwa hwb
  case sweep =>
    intro i c out hruns hsrc hcount hout hpiece hw hc hlo hhi hfirst
    obtain ⟨t, ht, hdescs, hbytes, hends⟩ := sweep_halves hruns rfl rfl rfl hsrc hcount hout hpiece hw (find?_chunk hc hlo hhi hfirst)
    refine ⟨t, ht, fun d => ?_, fun hhit => ?_, hends⟩
    · rw [hdescs]
      exact tfind_halved _ _ d _
    · rw [sweepBytes_length, sweptOf_length, sweepBytes_swept] at hbytes
      have hall : 8 * _ ≤ sweepOutBytes := Nat.mul_le_mul_left 8 (hhit.trans hcount)
      exact hbytes ((Nat.add_le_add_left hall _).trans hout)

end Sys2Proof.Proofs.Sequences

end

section
/-! SUPPORT. The prefix directory: its entries and their shadow, what makes one valid, and what removing some leaves (R70 to R72,
R81, R83). -/

namespace Sys2Proof.Machine

/-! ## Tables in order -/

section
variable {α : Type}

theorem tfind_mapVal (f : α → α) (t : Tbl α) (k : Nat) : tfind (t.map fun e => (e.1, f e.2)) k = (tfind t k).map f := by
  induction t with
  | nil => rfl
  | cons e t ih =>
    obtain ⟨a, x⟩ := e
    by_cases h : a = k <;> simp [tfind, h, ih]

theorem le_key_of_keysAbove : ∀ {t : Tbl α} {n : Nat}, keysAbove n t = true → ∀ e ∈ t, n ≤ e.1 := by
  intro t
  induction t with
  | nil => exact fun _ _ h => absurd h List.not_mem_nil
  | cons p t ih =>
    intro n h e he
    obtain ⟨hp, ht⟩ := Bool.and_eq_true_iff.mp h
    have hn : n ≤ p.1 := of_decide_eq_true hp
    obtain rfl | he := List.mem_cons.mp he
    · exact hn
    · exact hn.trans (Nat.le_of_succ_le (ih ht e he))

/-- In a table with rising keys no key stands twice. -/
theorem nodup_keys_of_keysAbove : ∀ {t : Tbl α} {n : Nat}, keysAbove n t = true → (t.map Prod.fst).Nodup := by
  intro t
  induction t with
  | nil => exact fun _ => List.nodup_nil
  | cons p t ih =>
    intro n h
    have ht : keysAbove (p.1 + 1) t = true := (Bool.and_eq_true_iff.mp h).2
    refine List.nodup_cons.mpr ⟨fun hm => ?_, ih ht⟩
    obtain ⟨e, he, heq⟩ := List.mem_map.mp hm
    exact (Nat.ne_of_lt (le_key_of_keysAbove ht e he)) heq.symm

theorem tfind_eq_none_iff {t : Tbl α} {k : Nat} : tfind t k = none ↔ k ∉ t.map Prod.fst := by
  induction t with
  | nil => simp
  | cons e t ih =>
    obtain ⟨a, x⟩ := e
    by_cases h : a = k
    · simp [tfind, h]
    · simp [tfind, h, ih, Ne.symm h]

end

/-! ## Valid entries (R72, R83) -/

/-- An entry may be used: its shadow is readable and the same, and its donor still holds what it names. -/
def State.entryValid (s : State) (ue : List Nat) (e : Nat) (x : PdirEntry) : Prop :=
  e ∉ ue ∧ s.shadowOk e x = true ∧ s.donorOk x = true

section
variable {s t : State}

theorem State.shadowOk_congr (hbase : t.fd Fd.PDIR_SHADOW_BASE_ADDR = s.fd Fd.PDIR_SHADOW_BASE_ADDR) {e : Nat}
    (hbytes : ∀ i < 32, byteOf t.hbm (s.shadowAt e + i) = byteOf s.hbm (s.shadowAt e + i)) (x : PdirEntry) :
    t.shadowOk e x = s.shadowOk e x := by
  have hat : t.shadowAt e = s.shadowAt e := by rw [State.shadowAt, hbase, State.shadowAt]
  rw [State.shadowOk, hat, State.hbmRead_congr hbytes, State.shadowOk]

theorem State.donorOk_congr (hseqs : t.pgt.seqs = s.pgt.seqs) (hpurges : t.pdir.purges = s.pdir.purges) (x : PdirEntry) :
    t.donorOk x = s.donorOk x := by
  have hseq : t.seq x.index = s.seq x.index := congrArg (tfind · x.index) hseqs
  simp only [State.donorOk, hseq, hpurges]

theorem State.validate_of_valid {ue : List Nat} {e : Nat} {x : PdirEntry} (h : s.entryValid ue e x) : s.validate ue e x = (true, s) := by
  obtain ⟨hue, hshadow, hdonor⟩ := h
  simp [State.validate, hue, hshadow, hdonor]

end

/-! ## One entry removed -/

/-- `t` is `s` with entry e gone from both copies; errors may have been counted. -/
structure State.Drops (s : State) (e : Nat) (t : State) : Prop where
  entries : t.pdir.entries = tdel s.pdir.entries e
  purges : t.pdir.purges = s.pdir.purges
  regs : s.regsBut [Reg.PDIR_ERR, Reg.PDIR_MISMATCHES] t
  shadow : s.hbmBut (s.shadowAt e) 32 t
  only : s.only [.csr, .pdir, .hbm] t

theorem State.only_hbmWrite (s : State) (a : Nat) (l : List Byte) : s.only [.hbm] (s.hbmWrite a l) := s.only_setHbm _

theorem State.drops_dropEntry (s : State) (e : Nat) : s.Drops e (s.dropEntry e) where
  entries := rfl
  purges := rfl
  regs := fun _ _ => rfl
  shadow := fun a ha => s.byteOf_hbmWrite_outside _ _ (by simpa [zeros] using ha)
  only := ((s.only_hbmWrite _ _).mono (by decide)).then (State.only_onPdir _ _) (by decide)

section
variable {s t : State} {e : Nat}

/-- An error noted, or counted. -/
theorem State.Drops.setFd (h : s.Drops e t) {f : Fd} (hf : f.addr = Reg.PDIR_ERR ∨ f.addr = Reg.PDIR_MISMATCHES) (v : Nat) :
    s.Drops e (t.setFd f v) where
  entries := h.entries
  purges := h.purges
  regs := fun a ha => (t.reg_setFd_ne f v fun heq => ha (by rw [heq]; simpa using hf)).trans (h.regs a ha)
  shadow := h.shadow
  only := h.only.then (t.only_setFd f v) (by decide)

theorem State.drops_validate {ue : List Nat} {x : PdirEntry} (h : ¬ s.entryValid ue e x) : s.Drops e (s.validate ue e x).2 := by
  have hdrop := s.drops_dropEntry e
  unfold State.validate
  split_ifs with hue hshadow hdonor
  · exact (hdrop.setFd (f := Fd.PDIR_ERR_SHADOW_UE) (.inl rfl) 1).setFd (f := Fd.PDIR_MISMATCHES_COUNT) (.inr rfl) _
  · exact (hdrop.setFd (f := Fd.PDIR_ERR_MISMATCH) (.inl rfl) 1).setFd (f := Fd.PDIR_MISMATCHES_COUNT) (.inr rfl) _
  · exact hdrop
  · exact absurd ⟨by simpa using hue, by simpa using hshadow, by simpa using hdonor⟩ h

/-- The shadows of two entries share no byte, so that the validity of the others stands. -/
theorem State.Drops.entryValid_other (h : s.Drops e t) (ue : List Nat) {f : Nat} (hf : f ≠ e) (y : PdirEntry) :
    t.entryValid ue f y ↔ s.entryValid ue f y := by
  have hshadow : t.shadowOk f y = s.shadowOk f y := by
    refine State.shadowOk_congr (h.regs.fd (by decide)) (fun i hi => h.shadow _ ?_) y
    simp only [State.shadowAt]
    omega
  have hdonor : t.donorOk y = s.donorOk y :=
    State.donorOk_congr (congrArg Pgt.seqs (h.only.2 .pgt (by decide))) h.purges y
  rw [State.entryValid, hshadow, hdonor, State.entryValid]

end

/-! ## A pass of the walker (R83) -/

/-- Each entry of a list is validated. -/
def State.validateAll (s : State) (ue : List Nat) (l : List (Nat × PdirEntry)) : State :=
  l.foldl (fun s x => (s.validate ue x.1 x.2).2) s

section
variable (s : State) (ue : List Nat)

theorem State.only_validateAll (l : List (Nat × PdirEntry)) : s.only [.csr, .pdir, .hbm] (s.validateAll ue l) := by
  refine State.only_foldl (fun u x => ?_) l s
  by_cases h : u.entryValid ue x.1 x.2
  · rw [State.validate_of_valid h]
    exact State.only.refl u _
  · exact (State.drops_validate h).only

theorem State.tfind_validateAll_notMem {e : Nat} : ∀ (l : List (Nat × PdirEntry)) (s : State), e ∉ l.map Prod.fst →
    tfind (s.validateAll ue l).pdir.entries e = tfind s.pdir.entries e := by
  intro l
  induction l with
  | nil => exact fun _ _ => rfl
  | cons p l ih =>
    intro s he
    obtain ⟨hp, hl⟩ := List.ne_and_not_mem_of_not_mem_cons he
    refine (ih (s.validate ue p.1 p.2).2 hl).trans ?_
    by_cases h : s.entryValid ue p.1 p.2
    · rw [State.validate_of_valid h]
    · rw [(State.drops_validate h).entries, tfind_tdel_ne _ hp]

/-- A valid entry of the list stays, another goes. -/
theorem State.tfind_validateAll : ∀ (l : List (Nat × PdirEntry)) (s : State), (l.map Prod.fst).Nodup → ∀ p ∈ l,
    (s.entryValid ue p.1 p.2 → tfind (s.validateAll ue l).pdir.entries p.1 = tfind s.pdir.entries p.1) ∧
      (¬ s.entryValid ue p.1 p.2 → tfind (s.validateAll ue l).pdir.entries p.1 = none) := by
  intro l
  induction l with
  | nil => exact fun _ _ _ h => absurd h List.not_mem_nil
  | cons q l ih =>
    intro s hnodup p hp
    obtain ⟨hq, hl⟩ := List.nodup_cons.mp hnodup
    obtain rfl | hp := List.mem_cons.mp hp
    · have hlater := State.tfind_validateAll_notMem ue l (s.validate ue p.1 p.2).2 hq
      refine ⟨fun h => hlater.trans (by rw [State.validate_of_valid h]), fun h => hlater.trans ?_⟩
      rw [(State.drops_validate h).entries, tfind_tdel_same]
    · have hne : p.1 ≠ q.1 := fun heq => hq (heq ▸ List.mem_map_of_mem hp)
      have hrest := ih (s.validate ue q.1 q.2).2 hl p hp
      by_cases h : s.entryValid ue q.1 q.2
      · rw [State.validate_of_valid h] at hrest
        simpa only [State.validateAll, List.foldl_cons, State.validate_of_valid h] using hrest
      · have hdrop := State.drops_validate h
        rwa [hdrop.entryValid_other ue hne, hdrop.entries, tfind_tdel_ne _ hne] at hrest

end

/-! ## Entries removed together (R81) -/

/-- The entries of a list removed. -/
def State.dropEntries (s : State) (l : List (Nat × PdirEntry)) : State := l.foldl (fun s x => s.dropEntry x.1) s

theorem State.dropEntries_eq (l : List (Nat × PdirEntry)) : ∀ s : State, ∃ m, s.dropEntries l =
    ({ s with hbm := m } : State).onPdir fun p => { p with entries := (l.map Prod.fst).foldl tdel p.entries } := by
  induction l with
  | nil => exact fun s => ⟨s.hbm, rfl⟩
  | cons x l ih =>
    intro s
    obtain ⟨m, hm⟩ := ih (s.dropEntry x.1)
    exact ⟨m, hm⟩

section
variable (s : State) (l : List (Nat × PdirEntry))

theorem State.tfind_dropEntries (e : Nat) :
    tfind (s.dropEntries l).pdir.entries e = if e ∈ l.map Prod.fst then none else tfind s.pdir.entries e := by
  obtain ⟨m, hm⟩ := State.dropEntries_eq l s
  rw [hm]
  exact tfind_foldl_tdel e _ _

theorem State.reg_dropEntries (a : Nat) : (s.dropEntries l).reg a = s.reg a := by
  obtain ⟨m, hm⟩ := State.dropEntries_eq l s
  rw [hm]; rfl

theorem State.pgt_dropEntries : (s.dropEntries l).pgt = s.pgt := by
  obtain ⟨m, hm⟩ := State.dropEntries_eq l s
  rw [hm]; rfl

theorem State.only_dropEntries : s.only [.pdir, .hbm] (s.dropEntries l) := by
  obtain ⟨m, hm⟩ := State.dropEntries_eq l s
  rw [hm]
  exact ((s.only_setHbm m).mono (by decide)).then (State.only_onPdir _ _) (by decide)

/-- All its entries removed, the directory holds none. -/
theorem State.tfind_dropEntries_all (e : Nat) : tfind (s.dropEntries s.pdir.entries).pdir.entries e = none := by
  rw [State.tfind_dropEntries]
  split_ifs with he
  · rfl
  · exact tfind_eq_none_iff.mpr he

end

end Sys2Proof.Machine

end

section
/-! SUPPORT. LOOKUP: what a probe finds where every matching entry is valid, and what a hit leaves (R72, R73, R75, R80). -/

namespace Sys2Proof.Machine

/-! ## What a probe finds (R73) -/

/-- Entry e is x, lies in the key's set, and has its key, partition and class. -/
def State.matchesKey (s : State) (part cls key e : Nat) (x : PdirEntry) : Prop :=
  tfind s.pdir.entries e = some x ∧ e / 16 = key % 2 ^ 14 ∧ x.key = key ∧ x.part = part ∧ x.cls = cls

section
variable {s : State} {ue : List Nat} {part cls key : Nat}

/-- What a probe of n ways from w on found: the matching entries of these ways, in way order. -/
structure State.Found (s : State) (part cls key n w : Nat) (l : List (Nat × PdirEntry)) : Prop where
  mem : ∀ e x, (e, x) ∈ l ↔ s.matchesKey part cls key e x ∧ pdirSet key * 16 + w ≤ e ∧ e < pdirSet key * 16 + w + n
  rising : l.Pairwise fun a b => a.1 < b.1

/-- A way that holds no matching entry adds nothing. -/
theorem State.Found.skip {n w : Nat} {l : List (Nat × PdirEntry)} (h : s.Found part cls key n (w + 1) l)
    (hno : ∀ x, ¬ s.matchesKey part cls key (pdirSet key * 16 + w) x) : s.Found part cls key (n + 1) w l where
  mem e x := by
    rw [h.mem]
    refine and_congr_right fun hm => ?_
    have hne : e ≠ pdirSet key * 16 + w := fun he => hno x (he ▸ hm)
    omega
  rising := h.rising

/-- A way that holds one adds it in front. -/
theorem State.Found.cons {n w : Nat} {x : PdirEntry} {l : List (Nat × PdirEntry)} (h : s.Found part cls key n (w + 1) l)
    (hx : s.matchesKey part cls key (pdirSet key * 16 + w) x) :
    s.Found part cls key (n + 1) w ((pdirSet key * 16 + w, x) :: l) where
  mem e y := by
    rw [List.mem_cons, h.mem, Prod.mk.injEq]
    by_cases he : e = pdirSet key * 16 + w
    · subst he
      have huniq : s.matchesKey part cls key (pdirSet key * 16 + w) y ↔ y = x :=
        ⟨fun hy => Option.some.inj (hy.1.symm.trans hx.1), fun hy => hy ▸ hx⟩
      rw [huniq]
      refine ⟨?_, fun h => .inl ⟨rfl, h.1⟩⟩
      rintro (⟨-, rfl⟩ | ⟨rfl, hlo, -⟩)
      · exact ⟨rfl, by omega⟩
      · omega
    · have hrange : (pdirSet key * 16 + (w + 1) ≤ e ∧ e < pdirSet key * 16 + (w + 1) + n) ↔
          (pdirSet key * 16 + w ≤ e ∧ e < pdirSet key * 16 + w + (n + 1)) := by omega
      simp only [he, false_and, false_or, hrange]
  rising := List.pairwise_cons.mpr ⟨fun p hp => by
    obtain ⟨-, hlo, -⟩ := (h.mem p.1 p.2).mp hp
    show pdirSet key * 16 + w < p.1
    omega, h.rising⟩

/-- Where every matching entry is valid, a probe changes nothing and finds them all. -/
theorem State.probe_of_valid (hvalid : ∀ e x, s.matchesKey part cls key e x → s.entryValid ue e x) : ∀ n w, w + n ≤ 16 →
    ∃ l, State.probe ue s key part cls n w = (s, l) ∧ s.Found part cls key n w l := by
  intro n
  induction n with
  | zero => exact fun w _ => ⟨[], rfl, ⟨fun e x => ⟨fun h => absurd h List.not_mem_nil, fun h => by omega⟩, List.Pairwise.nil⟩⟩
  | succ n ih =>
    intro w hw
    obtain ⟨l, hl, hfound⟩ := ih (w + 1) (by omega)
    have hset : (pdirSet key * 16 + w) / 16 = key % 2 ^ 14 := by simp only [pdirSet]; omega
    rw [State.probe]
    cases hfind : tfind s.pdir.entries (pdirSet key * 16 + w) with
    | none => exact ⟨l, hl, hfound.skip fun x hx => by simpa [hfind] using hx.1⟩
    | some x =>
      by_cases hkey : x.key = key ∧ x.part = part ∧ x.cls = cls
      · have hx : s.matchesKey part cls key (pdirSet key * 16 + w) x := ⟨hfind, hset, hkey⟩
        obtain ⟨rfl, rfl, rfl⟩ := hkey
        simp only [bne_self_eq_false, Bool.or_self, Bool.false_eq_true, if_false, State.validate_of_valid (hvalid _ x hx), hl, if_true]
        exact ⟨_, rfl, hfound.cons hx⟩
      · have hno : (x.key != key || x.part != part || x.cls != cls) = true := by
          simp only [Bool.or_eq_true, bne_iff_ne]
          tauto
        simp only [hno, if_true]
        refine ⟨l, hl, hfound.skip fun y hy => hkey ?_⟩
        obtain rfl : x = y := Option.some.inj (hfind.symm.trans hy.1)
        exact hy.2.2

/-- The list found, its first entry known. -/
theorem State.Found.eq_cons {n w e : Nat} {x : PdirEntry} {l : List (Nat × PdirEntry)} (h : s.Found part cls key n w l)
    (hm : (e, x) ∈ l) (hfirst : ∀ f y, (f, y) ∈ l → e ≤ f) : ∃ r, l = (e, x) :: r ∧ ∀ f y, (f, y) ∈ r ↔ f ≠ e ∧ (f, y) ∈ l := by
  match l, h.rising with
  | p :: r, hr =>
    obtain ⟨hlater, -⟩ := List.pairwise_cons.mp hr
    have hp : p = (e, x) := by
      obtain hp | hp := List.mem_cons.mp hm
      · exact hp.symm
      · exact absurd (hlater _ hp) (hfirst p.1 p.2 List.mem_cons_self).not_gt
    subst hp
    refine ⟨r, rfl, fun f y => ⟨fun hf => ⟨(hlater _ hf).ne', List.mem_cons_of_mem _ hf⟩, fun ⟨hne, hf⟩ => ?_⟩⟩
    obtain heq | hf := List.mem_cons.mp hf
    · exact absurd (congrArg Prod.fst heq) hne
    · exact hf

/-- Whether more than one was found. -/
theorem isEmpty_eq_not_of_iff {α β : Type} {l : List (α × β)} {b : Bool} (h : b = true ↔ ∃ f y, (f, y) ∈ l) : l.isEmpty = !b := by
  cases l with
  | nil => simpa using h
  | cons p l =>
    obtain rfl : b = true := h.mpr ⟨p.1, p.2, List.mem_cons_self⟩
    rfl

/-- The ways of a set. -/
theorem mem_set_iff (key e : Nat) : (pdirSet key * 16 + 0 ≤ e ∧ e < pdirSet key * 16 + 0 + 16) ↔ e / 16 = key % 2 ^ 14 := by
  simp only [pdirSet]
  omega

/-- The probe that ends a lookup by keys: e is the first matching entry of the set. -/
theorem State.probe_first {e : Nat} {x : PdirEntry} {multi : Bool} (hx : s.matchesKey part cls key e x)
    (hfirst : ∀ f y, f < e → ¬ s.matchesKey part cls key f y) (hvalid : ∀ f y, s.matchesKey part cls key f y → s.entryValid ue f y)
    (hmulti : multi = true ↔ ∃ f y, f ≠ e ∧ s.matchesKey part cls key f y) :
    ∃ r, State.probe ue s key part cls 16 0 = (s, (e, x) :: r) ∧ r.isEmpty = !multi := by
  obtain ⟨l, hl, hfound⟩ := State.probe_of_valid hvalid 16 0 (by decide)
  have hmem : ∀ f y, (f, y) ∈ l ↔ s.matchesKey part cls key f y := fun f y => by
    rw [hfound.mem, mem_set_iff]
    exact and_iff_left_of_imp fun h => h.2.1
  obtain ⟨r, rfl, hr⟩ := hfound.eq_cons ((hmem e x).mpr hx) fun f y hf => Nat.le_of_not_lt fun hlt => hfirst f y hlt ((hmem f y).mp hf)
  exact ⟨r, hl, isEmpty_eq_not_of_iff (by simpa only [hr, hmem] using hmulti)⟩

/-- The probe of a NEXT from entry e: f is the first matching entry after it (R75). -/
theorem State.probe_next {e f : Nat} {y : PdirEntry} {multi : Bool} (he : e / 16 = key % 2 ^ 14) (hy : s.matchesKey part cls key f y)
    (hlt : e < f) (hfirst : ∀ g z, e < g → g < f → ¬ s.matchesKey part cls key g z)
    (hvalid : ∀ g z, s.matchesKey part cls key g z → s.entryValid ue g z)
    (hmulti : multi = true ↔ ∃ g z, f < g ∧ s.matchesKey part cls key g z) :
    ∃ r, State.probe ue s key part cls (15 - e % 16) (e % 16 + 1) = (s, (f, y) :: r) ∧ r.isEmpty = !multi := by
  obtain ⟨l, hl, hfound⟩ := State.probe_of_valid hvalid (15 - e % 16) (e % 16 + 1) (by omega)
  have hmem : ∀ g z, (g, z) ∈ l ↔ s.matchesKey part cls key g z ∧ e < g := fun g z => by
    rw [hfound.mem]
    refine and_congr_right fun hg => ?_
    have hset : g / 16 = key % 2 ^ 14 := hg.2.1
    simp only [pdirSet]
    omega
  obtain ⟨r, rfl, hr⟩ := hfound.eq_cons ((hmem f y).mpr ⟨hy, hlt⟩) fun g z hg => Nat.le_of_not_lt fun hgf => by
    obtain ⟨hz, heg⟩ := (hmem g z).mp hg
    exact hfirst g z heg hgf hz
  refine ⟨r, hl, isEmpty_eq_not_of_iff (hmulti.trans (exists_congr fun g => exists_congr fun z => ?_))⟩
  rw [hr, hmem]
  constructor
  · exact fun ⟨hfg, hz⟩ => ⟨hfg.ne', hz, hlt.trans hfg⟩
  · rintro ⟨hne, hz, heg⟩
    exact ⟨lt_of_le_of_ne (Nat.le_of_not_lt fun hgf => hfirst g z heg hgf hz) hne.symm, hz⟩

/-- A set with no matching entry. -/
theorem State.probe_empty (hno : ∀ f y, ¬ s.matchesKey part cls key f y) : State.probe ue s key part cls 16 0 = (s, []) := by
  obtain ⟨l, hl, hfound⟩ := State.probe_of_valid (ue := ue) (fun f y h => absurd h (hno f y)) 16 0 (by decide)
  obtain rfl : l = [] := List.eq_nil_iff_forall_not_mem.mpr fun p hp => hno p.1 p.2 ((hfound.mem p.1 p.2).mp hp).1
  exact hl

end

/-! ## The keys, from the highest position down (R73) -/

/-- The keys of the first n positions, highest first. -/
def keysDown (key : Nat → Nat) (n : Nat) : List Nat := ((List.range n).map key).reverse

@[simp] theorem keysDown_succ (key : Nat → Nat) (n : Nat) : keysDown key (n + 1) = key n :: keysDown key n := by
  simp [keysDown, List.range_succ]

section
variable {s : State} {ue : List Nat} {part cls : Nat} {key : Nat → Nat}

/-- Positions whose sets hold no matching entry are passed over. -/
theorem State.probeKeys_skip {m n : Nat} (h : m ≤ n) (hno : ∀ i, m ≤ i → i < n → ∀ f y, ¬ s.matchesKey part cls (key i) f y) :
    State.probeKeys ue s part cls (keysDown key n) = State.probeKeys ue s part cls (keysDown key m) := by
  induction n, h using Nat.le_induction with
  | base => rfl
  | succ n h ih =>
    rw [keysDown_succ, State.probeKeys, State.probe_empty (hno n h n.lt_succ_self)]
    exact ih fun i hi hin => hno i hi (Nat.lt_succ_of_lt hin)

/-- The lookup ends at the highest position that has a matching entry. -/
theorem State.probeKeys_first {j n e : Nat} {x : PdirEntry} {multi : Bool} (hj : j < n) (hx : s.matchesKey part cls (key j) e x)
    (hfirst : ∀ f y, f < e → ¬ s.matchesKey part cls (key j) f y)
    (hvalid : ∀ f y, s.matchesKey part cls (key j) f y → s.entryValid ue f y)
    (habove : ∀ i, j < i → i < n → ∀ f y, ¬ s.matchesKey part cls (key i) f y)
    (hmulti : multi = true ↔ ∃ f y, f ≠ e ∧ s.matchesKey part cls (key j) f y) :
    ∃ r, State.probeKeys ue s part cls (keysDown key n) = (s, (e, x) :: r) ∧ r.isEmpty = !multi := by
  obtain ⟨r, hr, hempty⟩ := State.probe_first hx hfirst hvalid hmulti
  refine ⟨r, (State.probeKeys_skip (Nat.succ_le_of_lt hj) fun i hi => habove i hi).trans ?_, hempty⟩
  rw [Nat.succ_eq_add_one, keysDown_succ, State.probeKeys, hr]

theorem State.probeKeys_empty {n : Nat} (hno : ∀ i < n, ∀ f y, ¬ s.matchesKey part cls (key i) f y) :
    State.probeKeys ue s part cls (keysDown key n) = (s, []) :=
  State.probeKeys_skip (Nat.zero_le n) fun i _ hi => hno i hi

end

/-! ## A LOOKUP counted and answered (R73, R80) -/

/-- The LOOKUP has been taken and counted. -/
def State.lookupTaken (s : State) (c m : Nat) : State := (s.takeHanded c m 0x0D).inc Fd.PDIR_LOOKUPS_COUNT

/-- Its entry's AGE is 15, and the hit is counted. -/
def State.entryHit (s : State) (e : Nat) : State :=
  (s.onPdir fun p => { p with entries := tmod p.entries e fun y => { y with age := 15 } }).inc Fd.PDIR_HITS_COUNT

/-- A counter of 64 bits advanced by one holds at its maximum (R7). -/
theorem State.fd_inc_64 (s : State) {f : Fd} (hlo : f.lo = 0) (hhi : f.hi = 63) : (s.inc f).fd f = min (s.fd f + 1) (2 ^ 64 - 1) := by
  rw [State.inc, State.count, State.fd_setFd_same _ _ _ (by omega), hlo, hhi]
  omega

section
variable (s : State) (c m : Nat)

theorem State.regsBut_lookupTaken : s.regsBut [Reg.PDIR_LOOKUPS] (s.lookupTaken c m) :=
  State.regsBut_setFd (s.takeHanded c m 0x0D) Fd.PDIR_LOOKUPS_COUNT _

theorem State.only_lookupTaken : s.only [.csr, .trl] (s.lookupTaken c m) :=
  ((s.only_onTrl _).mono (by decide)).then (State.only_setFd _ _ _) (by decide)

/-- Counting a lookup makes no entry valid or invalid. -/
theorem State.entryValid_lookupTaken {ue : List Nat} {e : Nat} {x : PdirEntry} (h : s.entryValid ue e x) :
    (s.lookupTaken c m).entryValid ue e x := by
  obtain ⟨hue, hshadow, hdonor⟩ := h
  exact ⟨hue, (State.shadowOk_congr ((s.regsBut_lookupTaken c m).fd (by decide)) (fun _ _ => rfl) x).trans hshadow, hdonor⟩

theorem State.regsBut_entryHit (e : Nat) : s.regsBut [Reg.PDIR_HITS] (s.entryHit e) :=
  State.regsBut_setFd (s.onPdir _) Fd.PDIR_HITS_COUNT _

theorem State.only_entryHit (e : Nat) : s.only [.csr, .pdir] (s.entryHit e) :=
  ((s.only_onPdir _).mono (by decide)).then (State.only_setFd _ _ _) (by decide)

theorem State.fd_hits_entryHit (e : Nat) : (s.entryHit e).fd Fd.PDIR_HITS_COUNT = min (s.fd Fd.PDIR_HITS_COUNT + 1) (2 ^ 64 - 1) :=
  (s.onPdir _).fd_inc_64 rfl rfl

end

/-- A conduit still takes messages after steps beside it that leave the witness conduit's register. -/
theorem State.sends_of_regsBut {s t : State} {c : Nat} {ks : List Nat} (hc : t.conduit c = s.conduit c) (hr : t.twn.role = s.twn.role)
    (hregs : s.regsBut ks t) (hk : Fd.TWN_WITNESS_CONDUIT.addr ∉ ks) (h : s.sends c) : t.sends c := by
  obtain ⟨hactive, hmuted⟩ := h
  exact ⟨by rw [hc, hactive], by rw [State.muted, hr, hregs.fd hk, ← State.muted, hmuted]⟩

/-- The response stands at the end of the conduit's queue, and the transport alone has changed for it. -/
theorem State.answered_commit_respond {s w : State} {c : Nat} (q svc st : Nat) (b : List Byte) (hc : w.conduit c = s.conduit c)
    (hs : w.sends c) : s.answered c q st b (s.commit (w.respond c q svc st b)) ∧
      ∃ f, s.commit (w.respond c q svc st b) = s.commit (w.onTrl f) := by
  obtain ⟨cd, cd', m, hcd, hcd', hq⟩ := w.answered_respond c q svc st b hs
  obtain ⟨f, hf⟩ := w.send_plain_eq_onTrl c (if st ≤ 2 then 0x30 else 0x31) svc (respHeader q st ++ b)
  exact ⟨⟨cd, cd', m, hc.symm.trans hcd, hcd', hq⟩, f, congrArg s.commit hf⟩

section
variable {s : State} {c m : Nat} (hsends : s.sends c)
include hsends

/-- A LOOKUP that finds nothing: EMPTY, MATCHED and CURSOR zero. -/
theorem State.lookupEnd_empty :
    let t := s.commit ((s.lookupTaken c m).lookupEnd c m [])
    s.answered c m stEMPTY (zeros 16) t ∧ t.pdir = s.pdir ∧ s.only [.csr, .trl] t ∧ s.regsBut [Reg.PDIR_LOOKUPS] t := by
  have hregs := s.regsBut_lookupTaken c m
  obtain ⟨hans, f, hf⟩ := State.answered_commit_respond (s := s) (w := s.lookupTaken c m) m 0 stEMPTY (lookupBody 0 false 0) rfl
    (State.sends_of_regsBut (s := s) rfl rfl hregs (by decide) hsends)
  have hbody : lookupBody 0 false 0 = zeros 16 := by decide
  rw [hbody] at hans hf
  simp only [State.lookupEnd, hbody]
  rw [hf] at hans ⊢
  exact ⟨hans, rfl, State.only_commit ((s.only_lookupTaken c m).then (State.only_onTrl _ f) (by decide)), hregs⟩

/-- A LOOKUP that ends with entry e. -/
theorem State.lookupEnd_hit {e : Nat} {x : PdirEntry} {r : List (Nat × PdirEntry)} {multi : Bool} (hx : tfind s.pdir.entries e = some x)
    (hr : r.isEmpty = !multi) :
    let t := s.commit ((s.lookupTaken c m).lookupEnd c m ((e, x) :: r))
    s.answered c m stOK (le 4 (x.pos + 1 + if multi then 2 ^ 31 else 0) ++ zeros 4 ++ le 8 (e + x.stamp * 2 ^ 18 + x.part * 2 ^ 34)) t ∧
      tfind t.pdir.entries e = some { x with age := 15 } ∧ (∀ f, f ≠ e → tfind t.pdir.entries f = tfind s.pdir.entries f) ∧
      t.fd Fd.PDIR_HITS_COUNT = min (s.fd Fd.PDIR_HITS_COUNT + 1) (2 ^ 64 - 1) ∧ s.only [.csr, .pdir, .trl] t ∧
      s.regsBut [Reg.PDIR_LOOKUPS, Reg.PDIR_HITS] t := by
  let w := (s.lookupTaken c m).entryHit e
  have htaken := s.regsBut_lookupTaken c m
  have hregs : s.regsBut [Reg.PDIR_LOOKUPS, Reg.PDIR_HITS] w := fun a ha => by
    simp only [List.mem_cons, List.not_mem_nil, or_false, not_or] at ha
    exact ((s.lookupTaken c m).regsBut_entryHit e a (by simpa using ha.2)).trans (htaken a (by simpa using ha.1))
  have hend : (s.lookupTaken c m).lookupEnd c m ((e, x) :: r) = w.respond c m 0 stOK (lookupBody (x.pos + 1) multi (cursorOf e x)) := by
    rw [State.lookupEnd, hr, Bool.not_not]
    rfl
  obtain ⟨hans, f, hf⟩ := State.answered_commit_respond (s := s) (w := w) m 0 stOK (lookupBody (x.pos + 1) multi (cursorOf e x)) rfl
    (State.sends_of_regsBut (s := s) rfl rfl hregs (by decide) hsends)
  rw [hend]
  refine ⟨hans, ?_⟩
  rw [hf]
  refine ⟨?_, fun g hg => tfind_tmod_ne _ _ hg, ?_, State.only_commit ?_, hregs⟩
  · exact (tfind_tmod_same _ _ _).trans (by rw [show tfind (s.lookupTaken c m).pdir.entries e = some x from hx]; rfl)
  · exact ((s.lookupTaken c m).fd_hits_entryHit e).trans (by rw [htaken.fd (by decide)])
  · exact (((s.only_lookupTaken c m).mono (by decide)).then (State.only_entryHit _ e) (by decide)).then (State.only_onTrl _ f) (by decide)

end

/-! ## From the request to its probes (R73 to R75) -/

section
variable {s : State} {c m : Nat} {p : List Byte} {ue : List Nat} (hcheck : s.lookupCheck (s.partOf c) p = none)
  (hen : s.flag Fd.PDIR_CTL_ENABLE = true)
include hcheck hen

theorem State.lookup_keys (h0 : lat p 1 1 = 0) : (s.takeHanded c m 0x0D).lookup c m p ue =
    let (t, l) := State.probeKeys ue (s.lookupTaken c m) (s.partOf c) (lat p 0 1) (keysDown (fun i => lat p (16 + 8 * i) 8) (lat p 2 2))
    t.lookupEnd c m l := by
  have hpart' : (s.takeHanded c m 0x0D).partOf c = s.partOf c := rfl
  have hcheck' : (s.takeHanded c m 0x0D).lookupCheck (s.partOf c) p = none := hcheck
  have hen' : (s.lookupTaken c m).flag Fd.PDIR_CTL_ENABLE = true := ((s.regsBut_lookupTaken c m).flag (by decide)).trans hen
  rw [State.lookupTaken] at hen'
  simp only [State.lookup, hpart', hcheck', hen', h0, Bool.not_true, Bool.false_eq_true, if_false, Nat.zero_mod, zero_ne_one]
  rfl

/-- A NEXT from the entry its cursor names. -/
theorem State.lookup_next {e : Nat} {x : PdirEntry} (h1 : lat p 1 1 = 1) (hcur : lat p 8 8 = e + x.stamp * 2 ^ 18 + s.partOf c * 2 ^ 34)
    (he : e < 2 ^ 18) (hstamp : x.stamp < 2 ^ 16) (hpart : s.partOf c < 16) (hx : tfind s.pdir.entries e = some x) :
    (s.takeHanded c m 0x0D).lookup c m p ue =
      let (t, l) := State.probe ue (s.lookupTaken c m) x.key (s.partOf c) x.cls (15 - e % 16) (e % 16 + 1)
      t.lookupEnd c m l := by
  have hcheck' : (s.takeHanded c m 0x0D).lookupCheck (s.partOf c) p = none := hcheck
  have hen' : (s.lookupTaken c m).flag Fd.PDIR_CTL_ENABLE = true := ((s.regsBut_lookupTaken c m).flag (by decide)).trans hen
  rw [State.lookupTaken] at hen'
  have hentry : lat p 8 8 % 2 ^ 18 = e := by omega
  have hcpart : bits (lat p 8 8) 37 34 = s.partOf c := by simp only [bits, Nat.shiftRight_eq_div_pow]; omega
  have hcstamp : bits (lat p 8 8) 33 18 = x.stamp := by simp only [bits, Nat.shiftRight_eq_div_pow]; omega
  have hctop : lat p 8 8 / 2 ^ 38 = 0 := by omega
  have hx' : tfind ((s.takeHanded c m 0x0D).inc Fd.PDIR_LOOKUPS_COUNT).pdir.entries e = some x := hx
  have hpart' : (s.takeHanded c m 0x0D).partOf c = s.partOf c := rfl
  simp only [State.lookup, hcheck', hen', h1, hentry, hx', hcpart, hcstamp, hctop, hpart', Bool.not_true, Bool.false_eq_true, if_false,
    Nat.mod_succ, if_true, ne_eq, not_true, or_false]
  rfl

end

end Sys2Proof.Machine

end

section
/-! SUPPORT. The purge of a donor's entries: a TRUNCATE that waited for a filter entry, and the walker's pass for one (R58, R81). -/

namespace Sys2Proof.Machine

/-! ## A TRUNCATE to any point (R58) -/

/-- `t` is `s` with memory, descriptors, deferred reclamation and page tables changed. -/
def State.recuts (s t : State) : Prop :=
  ∃ m ds r tb, t = ({ s with hbm := m } : State).onPgt fun g => { g with descs := ds, reclaim := r, tables := tb }

section
variable {s t u : State}

theorem State.recuts.refl (s : State) : s.recuts s := ⟨s.hbm, s.pgt.descs, s.pgt.reclaim, s.pgt.tables, rfl⟩

theorem State.recuts.trans (h : s.recuts t) (h' : t.recuts u) : s.recuts u := by
  obtain ⟨_, _, _, _, rfl⟩ := h
  obtain ⟨m, ds, r, tb, rfl⟩ := h'
  exact ⟨m, ds, r, tb, rfl⟩

theorem State.recuts.foldl {α : Type} {f : State → α → State} (hf : ∀ (s : State) x, s.recuts (f s x)) (l : List α) :
    ∀ s : State, s.recuts (l.foldl f s) := by
  induction l with
  | nil => exact State.recuts.refl
  | cons x l ih => exact fun s => (hf s x).trans (ih _)

theorem State.releases.recuts (h : s.releases t) : s.recuts t := by
  obtain ⟨ds, r, tb, rfl⟩ := h
  exact ⟨s.hbm, ds, r, tb, rfl⟩

theorem State.recuts.frame (h : s.recuts t) : t.pgt.seqs = s.pgt.seqs ∧ t.pgt.epoch = s.pgt.epoch ∧ t.pdir = s.pdir := by
  obtain ⟨_, _, _, _, rfl⟩ := h
  exact ⟨rfl, rfl, rfl⟩

theorem State.recuts.works {o : SeqOp} {ps : List Part} (h : t.recuts u) (hw : s.Works o ps t) (hh : .hbm ∈ ps) (hp : .pgt ∈ ps) :
    s.Works o ps u := by
  obtain ⟨_, _, _, _, rfl⟩ := h
  exact (hw.setHbm _ hh).onPgt rfl rfl hp

end

/-- A tadpole of the page a TRUNCATE to n cuts keeps its slots below n. -/
def State.cutPart (n : Nat) (s : State) (e : Nat × Nat) : State :=
  if keyPos e.1 = n / 16 then
    match s.desc e.2 with
    | none => s
    | some x =>
      if x.state == .tadpole then
        (s.writePage x (firstSlots x.def0 (s.pageContent x) (n % 16))).modDesc e.2 fun x =>
          { x with valid := n % 16, sealDue := false, sealUnit := none }
      else s
  else s

theorem State.recuts_cutPart (n : Nat) (s : State) (e : Nat × Nat) : s.recuts (s.cutPart n e) := by
  unfold State.cutPart
  split
  · split
    · exact .refl s
    · split
      · exact ⟨_, _, _, _, rfl⟩
      · exact .refl s
  · exact .refl s

/-- The record is cut, every layer's length n; then pages are released and cut. -/
theorem State.recuts_truncateSeq {s : State} {k : Nat} {q : Seq} (hq : s.seq k = some q) (n : Nat) (copies : Tbl Nat) :
    ∃ f : Seq → Seq, (f q).layerLen = q.layerLen.map (fun _ => n) ∧ (s.modSeq k f).recuts (s.truncateSeq k n copies) := by
  have hreleased : ∀ (u : State) (l : List Nat), u.recuts ((l.foldl State.dropRef u).trimTables k) := fun u l =>
    ((u.releases_dropRefs l).trans (State.releases_trimTables _ k)).recuts
  simp only [State.truncateSeq, hq]
  refine ⟨?record, ?length, ?released⟩
  case released =>
    split
    · exact hreleased _ _
    · exact (hreleased _ _).trans (State.recuts.foldl (State.recuts_cutPart n) _ _)
  case length => rfl

/-! ## A TRUNCATE finds a filter entry (R81) -/

section
variable {s : State} {o : SeqOp} {q : Seq}

/-- The filter entry i is the TRUNCATE's, which may commit. -/
def State.purgeRegistered (s : State) (o : SeqOp) (i : Nat) : State :=
  (s.onPdir fun p => { p with purges := tset p.purges i ⟨o.seq, o.point / 16, none, o.id⟩ }).setOps [o.acknowledged]

theorem State.registerPurge_eq (o : SeqOp) (h : ∃ i < 64, tfind s.pdir.purges i = none) : ∃ i < 64, tfind s.pdir.purges i = none ∧
    s.registerPurge o = some (s.onPdir fun p => { p with purges := tset p.purges i ⟨o.seq, o.point / 16, none, o.id⟩ }) := by
  obtain ⟨j, hj, hfree⟩ := h
  have hsome : ((List.range 64).find? fun i => (tfind s.pdir.purges i).isNone).isSome = true :=
    List.find?_isSome.mpr ⟨j, List.mem_range.mpr hj, by rw [hfree]; rfl⟩
  obtain ⟨i, hi⟩ := Option.isSome_iff_exists.mp hsome
  refine ⟨i, List.mem_range.mp (List.mem_of_find?_eq_some hi), ?_, by rw [State.registerPurge, hi]; rfl⟩
  simpa using List.find?_some hi

/-- The one TRUNCATE that waits registers its purge. -/
theorem State.opStep_purging (ho : s.pgt.ops = [o]) (halone : s.alone) (hphase : o.phase = .purging) (hk : o.seq < 2 ^ 24)
    (hq : s.seq o.seq = some q) (hdue : q.purgeDue o.point = true) (hfree : ∃ i < 64, tfind s.pdir.purges i = none) :
    ∃ i < 64, tfind s.pdir.purges i = none ∧ s.opStep o.id = s.purgeRegistered o i := by
  obtain ⟨i, hi, hnone, hreg⟩ := State.registerPurge_eq o hfree
  refine ⟨i, hi, hnone, ?_⟩
  have hcopied : s.opStep o.id = s.truncateCopied o := by simp [State.opStep, ho, hphase]
  simp only [hcopied, State.truncateCopied, hq, hdue, hk, hreg, Bool.true_and, decide_true, if_true]
  exact State.mirrorOp_eq_setOps (s := s.onPdir _) halone ho _ _ _

/-- Its commit gives the filter entry its epoch. -/
theorem State.tfind_purges_truncateCommitted {i : Nat} {p : Purge} (hp : tfind s.pdir.purges i = some p) (hop : p.op = o.id)
    (hepoch : p.epoch = none) (hq : s.seq o.seq = some q) :
    tfind (s.truncateCommitted o).pdir.purges i = some { p with epoch := some s.pgt.epoch } := by
  obtain ⟨f, -, hcut⟩ := State.recuts_truncateSeq hq o.point o.fresh
  obtain ⟨-, he, hpdir⟩ := hcut.frame
  let g : Purge → Purge := fun y => if y.op == o.id && y.epoch.isNone then
    { y with epoch := some (s.truncateSeq o.seq o.point o.fresh).pgt.epoch } else y
  have hmap : (s.truncateCommitted o).pdir.purges =
      (s.truncateSeq o.seq o.point o.fresh).pdir.purges.map fun e => (e.1, g e.2) := by
    refine List.map_congr_left fun e _ => ?_
    simp only [g]
    split <;> rfl
  have hold : tfind (s.truncateSeq o.seq o.point o.fresh).pdir.purges i = some p := by rw [hpdir]; exact hp
  rw [hmap, tfind_mapVal, hold]
  simp only [g, hop, hepoch, beq_self_eq_true, Option.isNone_none, Bool.and_self, if_true, Option.map_some]
  rw [he]
  rfl

/-- It leaves the record with every layer's length at the point. -/
theorem State.seq_truncateCommitted (hq : s.seq o.seq = some q) :
    ∃ q', (s.truncateCommitted o).seq o.seq = some q' ∧ q'.layerLen = q.layerLen.map fun _ => o.point := by
  obtain ⟨f, hlen, hcut⟩ := State.recuts_truncateSeq hq o.point o.fresh
  refine ⟨f q, (congrArg (tfind · o.seq) hcut.frame.1).trans ?_, hlen⟩
  exact (s.seq_modSeq o.seq f o.seq).trans (by rw [if_pos rfl, hq]; rfl)

theorem State.Works.truncateCommitted {u : State} {ps : List Part} (h : u.Works o ps s) (hq : s.seq o.seq = some q) (hh : .hbm ∈ ps)
    (hp : .pgt ∈ ps) (hd : .pdir ∈ ps) : u.Works o ps (s.truncateCommitted o) := by
  obtain ⟨f, -, hcut⟩ := State.recuts_truncateSeq hq o.point o.fresh
  exact (hcut.works (h.onPgt rfl rfl hp) hh hp).onPdir _ hd

/-- The one operation may commit: the order runs until it is answered. -/
theorem State.settle_acked {u a z : State} {ps : List Part} {st : Nat} {b : List Byte} (ha : u.Works o ps a) (hphase : o.phase = .acked)
    (hcommit : a.commitOp o = z.answerOp o st b) (hz : u.Works o ps z) :
    a.settle = z.answerOp o st b ∧ (z.answerOp o st b).pgt.ops = [] := by
  have hstep : a.opStep o.id = z.answerOp o st b := (State.opStep_acked ha.ops hphase).trans hcommit
  have hops : (z.answerOp o st b).pgt.ops = [] := by rw [State.ops_answerOp, hz.ops]; simp
  refine ⟨?_, hops⟩
  rw [State.settle_ended ha.ops ha.copies, hstep]
  · rw [hstep, hops]
  · rw [hstep, State.copies_answerOp, hz.copies]; rfl
  · rw [hstep, State.held_answerOp, hz.held]

/-- The one operation of the donor that waits for a filter entry goes a step, and then the order runs. -/
theorem exec_purgeRegister (hr : s.inReset = false) (ho : s.pgt.ops = [o]) (hphase : o.phase = .purging) :
    exec (.purgeRegister o.seq) s = .next (s.commit (s.opStep o.id).settle) := by
  have hids : (s.pgt.ops.filter fun x => x.seq == o.seq && x.phase == .purging).map (·.id) = [o.id] := by simp [ho, hphase]
  refine (act_next s _ hr).trans ?_
  simp only [hids, List.foldl_cons, List.foldl_nil]

/-- The TRUNCATE that waited registers its purge, commits and is answered. -/
theorem State.purgeRegister_gives (hr : s.inReset = false) (ho : s.pgt.ops = [o]) (hc : s.pgt.copies = []) (hh : s.cust.held = [])
    (halone : s.alone) (hkind : o.kind = .truncate) (hphase : o.phase = .purging) (hk : o.seq < 2 ^ 24) (hq : s.seq o.seq = some q)
    (hdue : q.purgeDue o.point = true) (hfree : ∃ i < 64, tfind s.pdir.purges i = none) (hsends : s.sends o.conduit) :
    (Instr.purgeRegister o.seq).gives s fun t =>
      (∃ i < 64, tfind s.pdir.purges i = none ∧ tfind t.pdir.purges i = some ⟨o.seq, o.point / 16, some s.pgt.epoch, o.id⟩) ∧
      (t.seq o.seq).map (·.layerLen) = some (q.layerLen.map fun _ => o.point) ∧ t.pgt.ops = [] ∧
      (∃ b, s.answered o.conduit o.msgseq stOK b t) := by
  obtain ⟨i, hi, hnone, hstep⟩ := State.opStep_purging ho halone hphase hk hq hdue hfree
  let a := s.purgeRegistered o i
  let z := a.truncateCommitted o.acknowledged
  have hw : s.Works o [.hbm, .pgt, .pdir] s := ⟨ho, hc, hh, rfl, rfl, rfl, .refl s _⟩
  have ha : s.Works o.acknowledged [.hbm, .pgt, .pdir] a := (hw.onPdir _ (by decide)).setOps _ (by decide)
  have haq : a.seq o.acknowledged.seq = some q := hq
  have hz : s.Works o.acknowledged [.hbm, .pgt, .pdir] z := ha.truncateCommitted haq (by decide) (by decide) (by decide)
  obtain ⟨q', hzq, hlen⟩ := State.seq_truncateCommitted haq
  obtain ⟨hsettle, hops⟩ := State.settle_acked ha rfl (State.commitOp_truncate hkind hzq) hz
  let b := q'.body q'.handle q'.length
  have hpdir : (z.answerOp o.acknowledged stOK b).pdir = z.pdir := (z.only_answerOp _ _ _).2 .pdir (by decide)
  have hexec : exec (.purgeRegister o.seq) s = .next (s.commit (z.answerOp o.acknowledged stOK b)) :=
    (exec_purgeRegister hr ho hphase).trans (by rw [hstep, hsettle])
  refine ⟨_, hexec, ⟨i, hi, hnone, ?_⟩, ?_, hops, b, hz.answered stOK b hsends⟩
  · rw [State.commit_pdir, hpdir]
    exact State.tfind_purges_truncateCommitted (tfind_tset_same _ _ _) rfl rfl haq
  · exact (congrArg _ ((State.seq_commit_answerOp _ _ _ _ _ _).trans hzq)).trans (congrArg some hlen)

end

/-! ## The walker's pass for a filter entry (R81) -/

section
variable {s : State} {k : Nat} {p : Purge} {c : Nat}

/-- What the pass removes: the donor's entries from the cut on, inserted before it. -/
def Purge.covers (p : Purge) (c : Nat) (x : Nat × PdirEntry) : Bool :=
  x.2.index == p.donor && p.cutoff ≤ x.2.pos && serialLt 32 x.2.insEpoch c

theorem State.purgePass_eq (hp : tfind s.pdir.purges k = some p) (hc : p.epoch = some c) :
    s.purgePass k = (s.dropEntries (s.pdir.entries.filter (p.covers c))).onPdir fun d => { d with purges := tdel d.purges k } := by
  simp only [State.purgePass, hp, hc]
  rfl

theorem State.tfind_purgePass (hp : tfind s.pdir.purges k = some p) (hc : p.epoch = some c) {e : Nat × PdirEntry}
    (he : e ∈ s.pdir.entries) (hcov : p.covers c e = true) : tfind (s.purgePass k).pdir.entries e.1 = none := by
  have hgone : e.1 ∈ (s.pdir.entries.filter (p.covers c)).map Prod.fst := List.mem_map_of_mem (List.mem_filter.mpr ⟨he, hcov⟩)
  rw [State.purgePass_eq hp hc]
  exact (s.tfind_dropEntries _ e.1).trans (if_pos hgone)

theorem State.purgePassDone_gives {k : Fin 64} (hr : s.inReset = false) (hquiet : s.quiet) (hp : tfind s.pdir.purges k.val = some p)
    (hc : p.epoch = some c) : (Instr.purgePassDone k).gives s fun t =>
      tfind t.pdir.purges k.val = none ∧
      (∀ e ∈ s.pdir.entries, e.2.index = p.donor → p.cutoff ≤ e.2.pos → serialLt 32 e.2.insEpoch c = true →
        tfind t.pdir.entries e.1 = none) ∧ s.only [.pdir, .hbm] t := by
  have hpass := State.purgePass_eq hp hc
  have hpgt : (s.purgePass k.val).pgt = s.pgt := by rw [hpass, State.onPdir_pgt, State.pgt_dropEntries]
  have honly : s.only [.pdir, .hbm] (s.purgePass k.val) := by
    rw [hpass]
    exact (s.only_dropEntries _).then (State.only_onPdir _ _) (by decide)
  have hcust : (s.purgePass k.val).cust = s.cust := honly.2 .cust (by decide)
  obtain ⟨hops, hcopies, hheld, -⟩ := hquiet
  have hsettle : (s.purgePass k.val).settle = s.purgePass k.val :=
    State.settle_quiet _ (by rw [hpgt, hops]) (by rw [hpgt, hcopies]) (by rw [hcust, hheld])
  have hexec : exec (.purgePassDone k) s = .next (s.commit (s.purgePass k.val)) :=
    (act_next s _ hr).trans (by rw [hsettle])
  refine ⟨_, hexec, ?_, fun e he hdonor hcut hold => State.tfind_purgePass hp hc he ?_, State.only_commit honly⟩
  · rw [State.commit_pdir, hpass]
    exact tfind_tdel_same _ _
  · simp [Purge.covers, hdonor, hcut, hold]

end

end Sys2Proof.Machine

end

section
/-! The statement of the prefix directory (R72 to R75, R80, R81, R83). -/

namespace Sys2Proof.Proofs.PrefixDirectory
open Sys2Proof Sys2Proof.Machine

/-- The act of a LOOKUP, with NEXT or without, whose probes find a list. -/
theorem act_lookup {s t : State} {c m : Nat} {p : List Byte} {ue : List Nat} {l : List (Nat × PdirEntry)} (hr : s.inReset = false)
    (h : (s.takeHanded c m 0x0D).lookup c m p ue = t.lookupEnd c m l) :
    act s (fun s => (s.takeHanded c m 0x0D).lookup c m p ue) = .next (s.commit (t.lookupEnd c m l)) :=
  (act_next s _ hr).trans (by rw [h])

/-- PDIR_CTL and its fields. -/
def ctlDef : RegDef := ⟨Reg.PDIR_CTL, [], [⟨8, 1, .rw, 50, .zeroAs 1⟩, ⟨0, 0, .rw, 0, .plain⟩]⟩

/-- ENABLE after a store to PDIR_CTL. -/
theorem flag_enable_storeFields (s : State) (v : Nat) :
    (s.storeFields 0 Reg.PDIR_CTL v).flag Fd.PDIR_CTL_ENABLE = (bits v 0 0 == 1) := by
  have hreg : regAt Reg.PDIR_CTL = some ctlDef := by decide
  have hbit := State.bits_storeFields (s := s) 0 v hreg (by decide) (f := ⟨0, 0, .rw, 0, .plain⟩) (by decide) rfl rfl
  rw [Nat.zero_mul, Nat.zero_add] at hbit
  exact congrArg (· == 1) hbit

theorem regsBut_storeFields (s : State) (v : Nat) : s.regsBut [Reg.PDIR_CTL] (s.storeFields 0 Reg.PDIR_CTL v) :=
  fun _ ha => State.reg_storeFields_ne 0 v (by simpa using ha)

/-- Settles O43: a probe whose matching entries are valid lists them in way order and changes nothing, so that a lookup ends with the
first of the highest key that has one; a validation keeps a valid entry and removes another; the purge and the disable remove
what they name. -/
theorem prefixDirectory : Obligations.PrefixDirectory := by
  intro s hr
  refine ⟨fun c m p ue hsends hen hcheck => ⟨?keys, ?empty, ?next⟩, ?age, ?scrub, ?purge, ?register, ?disable, ?enable⟩
  case keys =>
    intro j e x multi h0 hj hx hfirst hvalid habove hmulti
    obtain ⟨r, hprobe, hmore⟩ := State.probeKeys_first (s := s.lookupTaken c.val m.toNat) (ue := ue)
      (key := fun i => lat p (16 + 8 * i) 8) hj hx hfirst (fun f y hy => s.entryValid_lookupTaken _ _ (hvalid f y hy)) habove hmulti
    have hlookup := State.lookup_keys (m := m.toNat) (ue := ue) hcheck hen h0
    rw [hprobe] at hlookup
    exact ⟨_, act_lookup hr hlookup, State.lookupEnd_hit hsends hx.1 hmore⟩
  case empty =>
    intro h0 hno
    have hlookup := State.lookup_keys (m := m.toNat) (ue := ue) hcheck hen h0
    rw [State.probeKeys_empty (s := s.lookupTaken c.val m.toNat) hno] at hlookup
    exact ⟨_, act_lookup hr hlookup, State.lookupEnd_empty hsends⟩
  case next =>
    intro e x f y multi h1 hcur he hstamp hpart hx hy hlt hfirst hvalid hmulti
    obtain ⟨r, hprobe, hmore⟩ := State.probe_next (s := s.lookupTaken c.val m.toNat) (ue := ue) hx.2.1 hy hlt hfirst
      (fun g z hz => s.entryValid_lookupTaken _ _ (hvalid g z hz)) hmulti
    have hlookup := State.lookup_next (m := m.toNat) (ue := ue) hcheck hen h1 hcur he hstamp hpart hx.1
    rw [hprobe] at hlookup
    exact ⟨_, act_lookup hr hlookup, State.lookupEnd_hit hsends hy.1 hmore⟩
  case age =>
    intro hdue
    refine ⟨_, actIf_next s _ _ hr (decide_eq_true hdue), fun e => ?_, rfl, rfl, State.only_commit (s.only_onPdir _)⟩
    exact tfind_mapVal (fun x => { x with age := x.age - 1 }) s.pdir.entries e
  case scrub =>
    intro ue htable hen hms hdue
    let u := s.onPdir fun p => { p with scrubAt := s.mtime }
    have hnodup := nodup_keys_of_keysAbove htable
    have hexec : exec (.pdirScrubPass ue) s = .next (s.commit (u.validateAll ue s.pdir.entries)) :=
      actIf_next s _ _ hr (by simp [hen, hms, hdue])
    refine ⟨_, hexec, fun e x hx => ?_, fun e he => ?_, State.only_commit ?_⟩
    · obtain ⟨hkept, hgone⟩ := u.tfind_validateAll ue s.pdir.entries hnodup (e, x) (mem_of_tfind hx)
      exact ⟨fun h => (hkept h).trans hx, hgone⟩
    · exact (State.tfind_validateAll_notMem ue _ u (tfind_eq_none_iff.mp he)).trans he
    · exact ((s.only_onPdir _).mono (by decide)).then (u.only_validateAll ue _) (by decide)
  case purge => exact fun k pg ep hquiet hpg hep => State.purgePassDone_gives hr hquiet hpg hep
  case register =>
    rintro k op q hops hcopies hheld - halone rfl hkind hphase hk hq hprefix hkeyed hfree hsends
    exact State.purgeRegister_gives hr hops hcopies hheld halone hkind hphase hk hq (by simp [Seq.purgeDue, hprefix, hkeyed]) hfree hsends
  case disable =>
    intro v hv hen
    let u := s.storeFields 0 Reg.PDIR_CTL v.toNat
    have honly := s.only_storeFields 0 Reg.PDIR_CTL v.toNat
    have hexec : exec (.pdirDisable v) s = .next (s.commit (u.dropEntries u.pdir.entries)) :=
      (actIf_next s _ _ hr (by simp [hv])).trans (by rw [hen]; rfl)
    refine ⟨_, hexec, ?_, u.tfind_dropEntries_all, State.only_commit ?_, fun a ha => ?_⟩
    · have hflag : (u.dropEntries u.pdir.entries).flag Fd.PDIR_CTL_ENABLE = u.flag Fd.PDIR_CTL_ENABLE := by
        rw [State.flag, State.fd, State.reg_dropEntries, State.flag, State.fd]
      exact hflag.trans ((flag_enable_storeFields s v.toNat).trans (by rw [hv]; rfl))
    · exact (honly.mono (by decide)).then (u.only_dropEntries _) (by decide)
    · exact (u.reg_dropEntries _ a).trans (regsBut_storeFields s v.toNat a ha)
  case enable =>
    intro v hv
    let v' := if s.fd Fd.PDIR_SHADOW_BASE_ADDR = 0 then v.toNat - 1 else v.toNat
    have hexec : exec (.pdirEnable v) s = .next (s.commit (s.storeFields 0 Reg.PDIR_CTL v')) := actIf_next s _ _ hr (by simp [hv])
    refine ⟨_, hexec, (flag_enable_storeFields s v').trans ?_, State.only_commit (s.only_storeFields _ _ _), regsBut_storeFields s v'⟩
    have hodd : v.toNat % 2 = 1 := by simpa [bits] using hv
    by_cases hbase : s.fd Fd.PDIR_SHADOW_BASE_ADDR = 0
    · have hbit : bits (v.toNat - 1) 0 0 = 0 := by simp [bits]; omega
      simp [v', hbase, hbit]
    · simp [v', hbase, hv]

end Sys2Proof.Proofs.PrefixDirectory

end

section
/-! The statement of the end of streams fails: the release of a stream whose result went to a REMOTE region takes its hold off the
region's entry, which stands in HBM too (R274, R283), and the frame it states leaves HBM out. -/

namespace Sys2Proof.Proofs.Streams
open Sys2Proof Sys2Proof.Machine

/-- A REMOTE region with one use in progress. -/
def usedRegion : Region :=
  { Region.free with len := 64, rstate := 1, remote := true, wr := true, imm := true, gen := 1, inflight := 1 }

/-- A stream whose result is on its way to region 0. -/
def deliveringStream : Stream :=
  { State.reset.mkStream [] 0 0 0 0 0 0 0 0 0 0 0 0 with cstate := .delivering, region := some 0 }

/-- Its last byte has been placed; the region's entry stands in the table and in HBM. -/
def deliveredState : State := { State.reset with
  hbm := putBytes [] 0 usedRegion.bytes
  rmo := { State.reset.rmo with regions := [(0, usedRegion)] }
  ae := { State.reset.ae with streams := [(0, deliveringStream)] }
  trl := { State.reset.trl with ended := [(.result 0, stOK)] } }

/-- The release of a stream without blocks of the pool changes of HBM its region's entry. -/
theorem hbm_releaseStream {s : State} {i r : Nat} {x : Stream} (hx : s.stream i = some x) (hwork : x.workAt = none)
    (hitems : x.items = []) (hregion : x.region = some r) : (s.releaseStream i).hbm = (s.outflight r).hbm := by
  simp only [State.releaseStream, hx, hwork, hitems, hregion, State.dropPool, List.foldl_nil]
  rfl

/-- The region's entry in HBM counts one use before the delivery. -/
theorem inflight_deliveredState : byteOf deliveredState.hbm 28 = 1 := by decide

/-- And none after it. -/
theorem inflight_released : byteOf (deliveredState.outflight 0).hbm 28 = 0 := by decide

/-- Refutes O46: its last clause lets the stream hold a region. The delivery of a result written into one releases the stream,
and INFLIGHT of the region's entry goes from 1 to 0 in HBM. -/
theorem not_streamsEnd : ¬ Obligations.StreamsEnd := by
  unfold Obligations.StreamsEnd
  intro h
  obtain ⟨-, -, -, hdelivered⟩ := h deliveredState rfl
  obtain ⟨t, ht, -, -, -, -, -, honly⟩ := hdelivered 0 deliveringStream rfl rfl rfl rfl (by decide)
  let u := deliveredState.onTrl fun t => { t with ended := [] }
  have hexec : exec (.resultDelivered 0) deliveredState =
      .next (deliveredState.commit ((u.releaseStream 0).inc Fd.MRG_RESULTS_COUNT)) := rfl
  obtain rfl := Host.Outcome.next.inj (hexec.symm.trans ht)
  have hkept := honly.2 .hbm (by decide) 28
  have hreleased : (u.releaseStream 0).hbm = (deliveredState.outflight 0).hbm :=
    hbm_releaseStream (s := u) (x := deliveringStream) rfl rfl rfl rfl
  rw [State.commit_byteOf_hbm, State.inc_hbm, hreleased, inflight_released, inflight_deliveredState] at hkept
  exact absurd hkept (by decide)

end Sys2Proof.Proofs.Streams

end

section
/-! SUPPORT. Streams and their work items: what an update of one reads back as, and the frame of the engines' tables. -/

namespace Sys2Proof.Machine

/-! ## Frames -/

section
variable (s : State)

theorem State.only_onAe (f : Ae → Ae) : s.only [.ae] (s.onAe f) := by
  refine ⟨rfl, fun p hp => ?_⟩
  cases p with
  | ae => exact absurd List.mem_cons_self hp
  | hbm | pcache => exact fun _ => rfl
  | _ => rfl

theorem State.only_onGlb (f : Glb → Glb) : s.only [.glb] (s.onGlb f) := by
  refine ⟨rfl, fun p hp => ?_⟩
  cases p with
  | glb => exact absurd List.mem_cons_self hp
  | hbm | pcache => exact fun _ => rfl
  | _ => rfl

theorem State.only_modStream (i : Nat) (f : Stream → Stream) : s.only [.ae] (s.modStream i f) := s.only_onAe _

theorem State.only_modItem (i k : Nat) (f : WorkItem → WorkItem) : s.only [.ae] (s.modItem i k f) := s.only_onAe _

end

/-! ## Streams -/

/-- The items of a stream with the one at k changed. -/
def modAt (k : Nat) (f : WorkItem → WorkItem) (l : List WorkItem) : List WorkItem :=
  (l.zipIdx).map fun (it, j) => if j = k then f it else it

theorem getElem?_modAt (k : Nat) (f : WorkItem → WorkItem) (l : List WorkItem) (j : Nat) :
    (modAt k f l)[j]? = if j = k then (l[j]?).map f else l[j]? := by
  rw [modAt, List.getElem?_map, List.getElem?_zipIdx, Option.map_map, Nat.zero_add]
  split
  · next h => simp [h, Function.comp_def]
  · next h => simp [h, Function.comp_def]

theorem State.stream_modStream (s : State) (i : Nat) (f : Stream → Stream) (j : Nat) :
    (s.modStream i f).stream j = if j = i then (s.stream i).map f else s.stream j := by
  split
  · next h => rw [h]; exact tfind_tmod_same _ _ _
  · next h => exact tfind_tmod_ne _ _ h

section
variable {s : State} {i : Nat} {x : Stream}

theorem State.stream_modStream_ne (f : Stream → Stream) {j : Nat} (h : j ≠ i) : (s.modStream i f).stream j = s.stream j := by
  rw [State.stream_modStream, if_neg h]

theorem State.stream_modItem_ne (k : Nat) (f : WorkItem → WorkItem) {j : Nat} (h : j ≠ i) :
    (s.modItem i k f).stream j = s.stream j := State.stream_modStream_ne _ h

variable (hx : s.stream i = some x)
include hx

theorem State.stream_modStream_same (f : Stream → Stream) : (s.modStream i f).stream i = some (f x) := by
  rw [State.stream_modStream, if_pos rfl, hx, Option.map_some]

theorem State.stream_modItem_same (k : Nat) (f : WorkItem → WorkItem) :
    (s.modItem i k f).stream i = some { x with items := modAt k f x.items } := State.stream_modStream_same hx _

theorem State.item_of_stream (k : Nat) : s.item i k = x.items[k]? := by rw [State.item, hx, Option.bind_some]

end

/-- Two changes that agree on the stream. -/
theorem State.modStream_congr {s : State} {i : Nat} {x : Stream} {f g : Stream → Stream} (hx : s.stream i = some x) (h : f x = g x) :
    s.modStream i f = s.modStream i g := by
  have hx' : tfind s.ae.streams i = some x := hx
  simp only [State.modStream, State.onAe, tmod, hx', h]

/-- An item that is there belongs to a stream that is there. -/
theorem State.stream_of_item {s : State} {i k : Nat} {it : WorkItem} (h : s.item i k = some it) :
    ∃ x, s.stream i = some x ∧ x.items[k]? = some it := Option.bind_eq_some_iff.mp h

/-- The item changed. -/
theorem State.item_modItem_same {s : State} {i k : Nat} {it : WorkItem} (h : s.item i k = some it) (f : WorkItem → WorkItem) :
    (s.modItem i k f).item i k = some (f it) := by
  obtain ⟨x, hx, hit⟩ := State.stream_of_item h
  rw [State.item_of_stream (State.stream_modItem_same hx k f), getElem?_modAt, if_pos rfl, hit, Option.map_some]

/-- A change of a stream that leaves its items. -/
theorem State.item_modStream {s : State} {f : Stream → Stream} (hf : ∀ x, (f x).items = x.items) (i j k : Nat) :
    (s.modStream i f).item j k = s.item j k := by
  rw [State.item, State.item, State.stream_modStream]
  split
  · next h => subst h; cases s.stream j <;> simp [hf]
  · rfl

end Sys2Proof.Machine

end

section
/-! SUPPORT. A window split into ranges (R101, R102). -/

namespace Sys2Proof.Machine

/-! ## Contiguous ranges -/

theorem sum_evenShares (a m : Nat) : ∀ n, ((List.range n).map fun k => a + if k < m then 1 else 0).sum = n * a + min n m
  | 0 => by simp
  | n + 1 => by
    rw [List.range_succ, List.map_append, List.sum_append, sum_evenShares a m n, Nat.succ_mul]
    simp only [List.map_cons, List.map_nil, List.sum_cons, List.sum_nil]
    split <;> omega

/-- The ranges hold every unit. -/
theorem sum_rangeSizes (u : Nat) {n : Nat} (hn : 0 < n) : (rangeSizes u n).sum = u := by
  rw [rangeSizes, sum_evenShares, Nat.min_eq_right (Nat.mod_lt u hn).le, Nat.div_add_mod]

section
variable {α : Type}

theorem length_cutBySizes : ∀ (ks : List Nat) (l : List α), (cutBySizes ks l).length = ks.length
  | [], _ => rfl
  | _ :: ks, _ => congrArg Nat.succ (length_cutBySizes ks _)

/-- Cut into ranges, a list is still there in its order. -/
theorem flatten_cutBySizes : ∀ (ks : List Nat) (l : List α), (cutBySizes ks l).flatten = l.take ks.sum
  | [], _ => by simp [cutBySizes]
  | k :: ks, l => by
    rw [cutBySizes, List.flatten_cons, flatten_cutBySizes ks, List.sum_cons, List.take_add]

theorem map_length_cutBySizes : ∀ (ks : List Nat) (l : List α), ks.sum ≤ l.length → (cutBySizes ks l).map List.length = ks
  | [], _, _ => rfl
  | k :: ks, l, h => by
    rw [List.sum_cons] at h
    rw [cutBySizes, List.map_cons, map_length_cutBySizes ks _ (by rw [List.length_drop]; omega), List.length_take,
      Nat.min_eq_left (by omega)]

theorem mem_of_mem_cutBySizes {x : α} {r : List α} : ∀ {ks : List Nat} {l : List α}, r ∈ cutBySizes ks l → x ∈ r → x ∈ l
  | [], _, hr, _ => absurd hr List.not_mem_nil
  | k :: ks, l, hr, hx => by
    obtain rfl | hr := List.mem_cons.mp hr
    · exact List.mem_of_mem_take hx
    · exact List.mem_of_mem_drop (mem_of_mem_cutBySizes hr hx)

end

/-! ## A window of sealed local units -/

/-- The number of ranges of a window of u sealed units (R102). -/
def State.rangeCount (s : State) (x : Stream) (u : Nat) : Nat :=
  max 1 (min (min 16 (s.fd Fd.AE_SPLIT_MAX_ENG_M1 + 1)) (min (ceilDiv u (max 1 (s.fd Fd.AE_SPLIT_MIN_UNITS)))
    (if x.maxEng = 0 then 16 else x.maxEng)))

theorem State.rangeCount_bounds (s : State) (x : Stream) (u : Nat) : 1 ≤ s.rangeCount x u ∧ s.rangeCount x u ≤ 16 := by
  unfold State.rangeCount
  omega

/-- The ranges a window of sealed local units is cut into. -/
def State.ranges (s : State) (x : Stream) (us : List PageUnit) : List (List PageUnit) :=
  cutBySizes (rangeSizes us.length (s.rangeCount x us.length)) us

theorem tailDeferred_of_local {us : List PageUnit} (h : ∀ u ∈ us, u.kind = .local_) : tailDeferred us = us := by
  rw [tailDeferred, List.filter_eq_self.mpr fun u hu => by rw [h u hu]; rfl,
    List.filter_eq_nil_iff.mpr fun u hu => by rw [h u hu]; decide, List.append_nil]

section
variable (s : State) (x : Stream) {us : List PageUnit}

/-- Such a window is cut into its ranges, each an item of its own. -/
theorem State.splitUnits_of_local (hlocal : ∀ u ∈ us, u.kind = .local_) (hsealed : ∀ u ∈ us, u.tadpole = false) :
    s.splitUnits x us = (s.ranges x us).map (WorkItem.fresh · false) := by
  have hown : us.filter (fun u => u.kind != .remote) = us := List.filter_eq_self.mpr fun u hu => by rw [hlocal u hu]; rfl
  have hno : us.filter (·.tadpole) = [] := List.filter_eq_nil_iff.mpr fun u hu => by simp [hsealed u hu]
  have hall : us.filter (fun u => !u.tadpole) = us := List.filter_eq_self.mpr fun u hu => by simp [hsealed u hu]
  have htails : (s.ranges x us).map tailDeferred = s.ranges x us :=
    (List.map_congr_left fun _ hr => tailDeferred_of_local fun u hu => hlocal u (mem_of_mem_cutBySizes hr hu)).trans (List.map_id _)
  simp only [State.splitUnits, hown, hno, hall, List.foldl_nil]
  exact congrArg (List.map _) htails

theorem State.length_ranges : (s.ranges x us).length = s.rangeCount x us.length := by
  rw [State.ranges, length_cutBySizes, rangeSizes, List.length_map, List.length_range]

theorem State.flatten_ranges : (s.ranges x us).flatten = us := by
  rw [State.ranges, flatten_cutBySizes, sum_rangeSizes _ (s.rangeCount_bounds x _).1, List.take_length]

/-- The size of a range. -/
theorem State.length_of_getElem?_ranges {a : Nat} {r : List PageUnit} (h : (s.ranges x us)[a]? = some r) :
    r.length = us.length / s.rangeCount x us.length + if a < us.length % s.rangeCount x us.length then 1 else 0 := by
  have hsizes : (s.ranges x us).map List.length = rangeSizes us.length (s.rangeCount x us.length) :=
    map_length_cutBySizes _ _ (by rw [sum_rangeSizes _ (s.rangeCount_bounds x _).1])
  have ha : a < s.rangeCount x us.length := by
    rw [← State.length_ranges]
    exact (List.getElem?_eq_some_iff.mp h).1
  have hat := congrArg (·[a]?) hsizes
  simpa [rangeSizes, h, List.getElem?_range ha] using hat

end

end Sys2Proof.Machine

end

section
/-! SUPPORT. WINDOW_SPLIT of a window of sealed local units (R101 to R103). -/

namespace Sys2Proof.Machine

/-! ## The line at the dispatcher -/

/-- The items in line at the dispatcher set. -/
def State.setWaiting (s : State) (w : List (Nat × Nat)) : State := s.onAe fun a => { a with waiting := w }

/-- An item goes in line among those that are. -/
theorem State.lineUp_eq (s : State) (i k : Nat) : ∃ w, s.lineUp i k = s.setWaiting w ∧ (i, k) ∈ w ∧ s.ae.waiting ⊆ w := by
  refine ⟨_, rfl, ?_⟩
  dsimp only
  split
  · refine ⟨by simp, fun y hy => ?_⟩
    simp only [List.mem_append, List.mem_filter, hy, true_and]
    cases ((s.item y.1 y.2).map (·.resumed)).getD false <;> simp
  · exact ⟨by simp, List.subset_append_left _ _⟩

theorem State.lineUps_eq (i : Nat) : ∀ (l : List Nat) (s : State),
    ∃ w, l.foldl (fun s k => s.lineUp i k) s = s.setWaiting w ∧ (∀ k ∈ l, (i, k) ∈ w) ∧ s.ae.waiting ⊆ w := by
  intro l
  induction l with
  | nil => exact fun s => ⟨s.ae.waiting, rfl, fun _ h => absurd h List.not_mem_nil, List.Subset.refl _⟩
  | cons k l ih =>
    intro s
    obtain ⟨w, hw, hk, hsub⟩ := s.lineUp_eq i k
    obtain ⟨w', hw', hl, hsub'⟩ := ih (s.setWaiting w)
    refine ⟨w', by rw [List.foldl_cons, hw, hw']; rfl, ?_, fun y hy => hsub' (hsub hy)⟩
    exact List.forall_mem_cons.mpr ⟨hsub' hk, hl⟩

/-! ## What a window of local units does not ask for -/

section
variable {s : State} {i : Nat} {x : Stream}

theorem State.placeStream_of_placed (hx : s.stream i = some x) (h : x.workAt.isSome = true) : s.placeStream i = s := by
  simp [State.placeStream, hx, h]

theorem State.deferFaults_of_local (s : State) (i : Nat) : ∀ us : List PageUnit, (∀ u ∈ us, u.kind = .local_) → s.deferFaults i us = s
  | [], _ => rfl
  | u :: us, h => by
    have hu : u.kind ≠ .deferred := by rw [h u List.mem_cons_self]; decide
    have ih := State.deferFaults_of_local s i us fun v hv => h v (List.mem_cons_of_mem _ hv)
    simpa [State.deferFaults, hu] using ih

/-- No remote unit, no lender, no SUBQUERY (R121). -/
theorem State.sendSubs_of_local (hx : s.stream i = some x) (h : ∀ u ∈ x.units, u.kind = .local_) : s.sendSubs i = s := by
  have hnone : lendersOf x.units = [] := by
    rw [lendersOf, List.filter_eq_nil_iff.mpr fun u hu => by rw [h u hu]; decide]
    rfl
  simp [State.sendSubs, hx, hnone, State.addDeferred]

end

/-! ## The window taken -/

/-- The stream with a window of all its units, split into items. -/
def Stream.windowed (x : Stream) (items : List WorkItem) : Stream :=
  { x with units := x.scanned, taken := x.scanned.length, items := items }

section
variable {s : State} {i : Nat} {x : Stream}

/-- The items of the first window of a stream all of whose units are sealed and local. -/
def State.firstItems (s : State) (x : Stream) : List WorkItem := (s.ranges x x.scanned).map (WorkItem.fresh · false)

theorem State.exec_windowSplit (hr : s.inReset = false) (hx : s.stream i = some x) (hstate : x.cstate = .dispatch) (hitems : x.items = [])
    (hwork : x.workAt.isSome = true) (hlen : x.scanned.length ≤ 65536) (htaken : x.taken = 0)
    (hunits : ∀ u ∈ x.scanned, u.kind = .local_ ∧ u.tadpole = false ∧ ∀ y, s.desc u.desc = some y → y.state ≠ .poisoned) :
    ∃ w, exec (.windowSplit i) s =
        .next (s.commit ((s.modStream i fun x => x.windowed (s.firstItems x)).setWaiting w)) ∧
      ∀ k < (s.firstItems x).length, (i, k) ∈ w := by
  have hlocal : ∀ u ∈ x.scanned, u.kind = .local_ := fun u hu => (hunits u hu).1
  let t := s.modStream i fun x => x.windowed (s.firstItems x)
  obtain ⟨w, hw, hline, -⟩ := State.lineUps_eq i (List.range (s.firstItems x).length) t
  have ht : (t.setWaiting w).stream i = some (x.windowed (s.firstItems x)) := State.stream_modStream_same hx _
  have hwin : (x.scanned.drop 0).take 65536 = x.scanned := by rw [List.drop_zero, List.take_of_length_le hlen]
  have hsplit : s.splitUnits x x.scanned = s.firstItems x :=
    s.splitUnits_of_local x hlocal fun u hu => (hunits u hu).2.1
  have hmod : (s.modStream i fun y => { y with units := x.scanned, taken := y.taken + x.scanned.length, items := s.firstItems x }) = t :=
    State.modStream_congr hx (by rw [htaken, Nat.zero_add]; rfl)
  refine ⟨w, (act_next s _ hr).trans ?_, fun k hk => hline k (List.mem_range.mpr hk)⟩
  congr 2
  simp only [hx, State.placeStream_of_placed hx hwork, Option.bind_some, hwork, hstate, hitems, htaken, hwin, hsplit, hmod, hw,
    State.deferFaults_of_local _ _ _ hlocal, State.sendSubs_of_local ht hlocal, List.isEmpty_nil, if_true, Bool.not_true,
    Bool.or_false, List.any_nil]
  rw [if_neg (by decide)]
  refine if_neg fun hany => ?_
  obtain ⟨u, hu, hbad⟩ := List.any_eq_true.mp hany
  split at hbad
  · next y hy => exact (hunits u hu).2.2 y hy (by simpa using (Bool.and_eq_true_iff.mp hbad).2)
  · exact absurd hbad Bool.false_ne_true

end

end Sys2Proof.Machine

end

section
/-! SUPPORT. The dispatcher and the engines (R103, R85). -/

namespace Sys2Proof.Machine

/-! ## The engine with the fewest items -/

/-- The least of what stands and e by g, the first of equals. -/
def leastBy (g : Nat → Nat) (b : Option (Nat × Nat)) (e : Nat) : Option (Nat × Nat) :=
  match b with
  | some (m, f) => if g e < m then some (g e, e) else some (m, f)
  | none => some (g e, e)

theorem foldl_leastBy_some (g : Nat → Nat) : ∀ (l : List Nat) (f : Nat),
    ∃ e ∈ f :: l, l.foldl (leastBy g) (some (g f, f)) = some (g e, e) ∧ ∀ d ∈ f :: l, g e ≤ g d
  | [], f => ⟨f, List.mem_cons_self, rfl, by simp⟩
  | d :: l, f => by
    by_cases hlt : g d < g f
    · obtain ⟨e, he, hfold, hmin⟩ := foldl_leastBy_some g l d
      refine ⟨e, List.mem_cons_of_mem _ he, by rw [List.foldl_cons, leastBy, if_pos hlt, hfold], ?_⟩
      exact List.forall_mem_cons.mpr ⟨(hmin d List.mem_cons_self).trans hlt.le, hmin⟩
    · obtain ⟨e, he, hfold, hmin⟩ := foldl_leastBy_some g l f
      refine ⟨e, by grind, by rw [List.foldl_cons, leastBy, if_neg hlt, hfold], ?_⟩
      have hf := hmin f List.mem_cons_self
      exact List.forall_mem_cons.mpr ⟨hf, List.forall_mem_cons.mpr ⟨by omega, fun a ha => hmin a (List.mem_cons_of_mem _ ha)⟩⟩

/-- The least of a list by g. -/
theorem foldl_leastBy {g : Nat → Nat} {l : List Nat} {e : Nat} (h : (l.foldl (leastBy g) none).map Prod.snd = some e) :
    e ∈ l ∧ ∀ d ∈ l, g e ≤ g d := by
  cases l with
  | nil => simp at h
  | cons f l =>
    obtain ⟨e', he, hfold, hmin⟩ := foldl_leastBy_some g l f
    rw [List.foldl_cons, leastBy, hfold] at h
    cases h
    exact ⟨he, hmin⟩

/-- The engine chosen is eligible and none eligible has fewer items (R103). -/
theorem State.chooseEngine_least {s : State} {part e : Nat} (h : s.chooseEngine part [] = some e) :
    s.engineOk e part = true ∧ ∀ f < 80, s.engineOk f part = true → (s.engineQueue e).length ≤ (s.engineQueue f).length := by
  obtain ⟨he, hmin⟩ := foldl_leastBy (g := fun e => (s.engineQueue e).length) h
  exact ⟨by simpa using (List.mem_filter.mp he).2, fun f hf hok => hmin f (by simp [hf, hok])⟩

/-! ## An engine starts its first item -/

/-- The tables of engine e that starts item k of stream i at m. -/
def Ae.engage (a : Ae) (e i k m : Nat) (l : List (Nat × Nat)) : Ae :=
  { a with running := tset a.running e (i, k), queues := tput [] a.queues e l, busySince := tset a.busySince e m }

def WorkItem.started (e : Nat) (it : WorkItem) : WorkItem :=
  { it with istate := .running, engine := some e, saveAt := none, slicesIn := false, asked := false }

def Stream.started (x : Stream) : Stream := if x.cstate == .aborting then x else { x with cstate := .running }

theorem Stream.started_items (x : Stream) : x.started.items = x.items := by
  unfold Stream.started
  split <;> rfl

theorem Stream.started_cstate {x : Stream} (h : x.cstate ≠ .aborting) : x.started.cstate = .running := by
  rw [Stream.started, if_neg (by simpa using h)]

/-- Engine e takes item k of stream i, l left in its queue. -/
def State.started (s : State) (e i k : Nat) (l : List (Nat × Nat)) : State :=
  ((s.onAe fun a => a.engage e i k s.mtime l).modItem i k (·.started e)).modStream i Stream.started

section
variable {s : State} {e i k : Nat} {l : List (Nat × Nat)}

theorem State.started_csr : (s.started e i k l).csr = s.csr := rfl

theorem State.started_waiting : (s.started e i k l).ae.waiting = s.ae.waiting := rfl

theorem State.started_running : tfind (s.started e i k l).ae.running e = some (i, k) := tfind_tset_same s.ae.running e (i, k)

theorem State.started_busySince : tfind (s.started e i k l).ae.busySince e = some s.mtime := tfind_tset_same s.ae.busySince e s.mtime

theorem State.started_only : s.only [.ae] (s.started e i k l) :=
  ((s.only_onAe _).then (State.only_modItem _ i k _) (List.Subset.refl _)).then (State.only_modStream _ i _) (List.Subset.refl _)

theorem State.started_cstate {x : Stream} (hx : s.stream i = some x) (h : x.cstate ≠ .aborting) :
    ((s.started e i k l).stream i).map (·.cstate) = some .running := by
  rw [State.started, State.stream_modStream_same
    (State.stream_modItem_same (s := s.onAe fun a => a.engage e i k s.mtime l) hx k _)]
  exact congrArg some (Stream.started_cstate h)

theorem State.started_item {it : WorkItem} (hit : s.item i k = some it) : (s.started e i k l).item i k = some (it.started e) := by
  rw [State.started, State.item_modStream Stream.started_items]
  exact State.item_modItem_same (s := s.onAe fun a => a.engage e i k s.mtime l) hit _

theorem State.engineStart_of_first (hawake : s.awake = true) (hidle : tfind s.ae.running e = none)
    (hqueue : s.engineQueue e = (i, k) :: l) (hsave : (s.item i k).bind (·.saveAt) = none) :
    s.engineStart e = s.started e i k l := by
  have hdrop : (s.onAe fun a => a.engage e i k s.mtime l).dropPool (((s.onAe fun a => a.engage e i k s.mtime l).item i k).bind (·.saveAt)) e =
      s.onAe fun a => a.engage e i k s.mtime l := by
    rw [show ((s.onAe fun a => a.engage e i k s.mtime l).item i k).bind (·.saveAt) = none from hsave]
    rfl
  simp only [State.engineStart, hawake, hidle, hqueue, Bool.not_true, Bool.false_eq_true, if_false]
  exact congrArg (fun t => (t.modItem i k (·.started e)).modStream i Stream.started) hdrop

/-- An engine with nothing in its queue. -/
theorem State.engineStart_of_empty (h : s.engineQueue e = []) : s.engineStart e = s := by
  unfold State.engineStart
  split
  · rfl
  · simp [h]

end

/-! ## The dispatcher -/

/-- The line left and the item in the engine's queue. -/
def Ae.giveFirst (a : Ae) (i k e : Nat) (q : List (Nat × Nat)) : Ae :=
  { a with waiting := a.waiting.filter (· != (i, k)), queues := tset a.queues e (q ++ [(i, k)]) }

/-- Queued at engine e, selecting or not. -/
def WorkItem.queuedAt (e : Nat) (sel : WorkItem → Bool) (it : WorkItem) : WorkItem :=
  { it with istate := .queued, engine := some e, sel := sel it }

/-- Item k of stream i alone in the queue of engine e. -/
def State.queuedAt (s : State) (i k e : Nat) (sel : WorkItem → Bool) : State :=
  (s.onAe fun a => a.giveFirst i k e []).modItem i k (·.queuedAt e sel)

section
variable {s : State} {e i k : Nat} {sel : WorkItem → Bool}

theorem State.queuedAt_only : s.only [.ae] (s.queuedAt i k e sel) :=
  (s.only_onAe _).then (State.only_modItem _ i k _) (List.Subset.refl _)

theorem State.queuedAt_csr : (s.queuedAt i k e sel).csr = s.csr := rfl

theorem State.queuedAt_waiting : (s.queuedAt i k e sel).ae.waiting = s.ae.waiting.filter (· != (i, k)) := rfl

theorem State.queuedAt_engineQueue : (s.queuedAt i k e sel).engineQueue e = [(i, k)] :=
  congrArg (Option.getD · []) (tfind_tset_same s.ae.queues e ([] ++ [(i, k)]))

theorem State.queuedAt_stream {x : Stream} (hx : s.stream i = some x) :
    ∃ y, (s.queuedAt i k e sel).stream i = some y ∧ y.cstate = x.cstate :=
  ⟨_, State.stream_modItem_same (s := s.onAe fun a => a.giveFirst i k e []) hx k _, rfl⟩

theorem State.queuedAt_item {it : WorkItem} (hit : s.item i k = some it) :
    (s.queuedAt i k e sel).item i k = some (it.queuedAt e sel) :=
  State.item_modItem_same (s := s.onAe fun a => a.giveFirst i k e []) hit _

/-- An item given to an idle engine with an empty queue: the engine starts it. -/
theorem State.giveItem_of_idle {x : Stream} {it : WorkItem} (hx : s.stream i = some x) (hit : s.item i k = some it)
    (hawake : s.awake = true) (hidle : tfind s.ae.running e = none) (hqueue : s.engineQueue e = []) (hsave : it.saveAt = none) :
    ∃ sel, s.giveItem i k e = (s.queuedAt i k e sel).started e i k [] := by
  let sel := fun y : WorkItem => x.smode != 0 && max 1 (s.fd Fd.AE_SEL_CTL_MIN_UNITS) ≤ y.units.length && x.lender.isNone
  let t := s.onAe fun a => a.giveFirst i k e []
  have hx' : t.stream i = some x := hx
  have hs : ((s.queuedAt i k e sel).item i k).bind (·.saveAt) = none := by
    rw [State.queuedAt_item hit]
    exact hsave
  refine ⟨sel, ?_⟩
  rw [← State.engineStart_of_first (l := []) (s := s.queuedAt i k e sel) hawake hidle State.queuedAt_engineQueue hs, State.giveItem, hqueue]
  change State.engineStart (match t.stream i with | none => t | some x => _) e = _
  rw [hx']
  rfl

/-- A stream's item alone in line, given to the engine chosen (R103). -/
theorem State.dispatch_of_first {x : Stream} (hx : s.stream i = some x) (hwork : x.workAt.isSome = true) (hline : s.ae.waiting = [(i, k)])
    (he : s.chooseEngine x.part [] = some e) (hcheck : s.flag Fd.TWN_XCHK_ENABLE = false) (hgive : (s.giveItem i k e).csr = s.csr) :
    ∃ f, s.dispatch i = (s.giveItem i k e).onTwn f := by
  have hoff : ((s.giveItem i k e).onTwn fun t => { t with xcount := t.xcount + 1 }).flag Fd.TWN_XCHK_ENABLE = false :=
    (congrArg (· == 1) (State.fd_congr hgive _)).trans hcheck
  have hsample : (s.giveItem i k e).sample i k e = (s.giveItem i k e).onTwn fun t => { t with xcount := t.xcount + 1 } := by
    simp only [State.sample, hoff, Bool.not_false, Bool.true_or, if_true]
  have hplaced : x.workAt.isNone = false := by rw [← Option.not_isSome, hwork]; rfl
  simp only [State.dispatch, State.placeStream_of_placed hx hwork, hline, hx, List.find?_cons, beq_self_eq_true, List.takeWhile_cons,
    bne_self_eq_false, Bool.false_eq_true, if_false, List.any_nil, Bool.or_false, hplaced, he]
  split
  · exact ⟨_, hsample⟩
  · exact ⟨id, rfl⟩

end

end Sys2Proof.Machine

end

section
/-! SUPPORT. A unit's end and a lock wait's end (R85, R105, R106, R212). -/

namespace Sys2Proof.Machine

section
variable {s : State} {i k e : Nat} {x : Stream} {it : WorkItem} {todo : List TodoUnit}

/-- A tile with a unit left that is not deferred goes on. -/
theorem State.afterUnit_of_more (hx : s.stream i = some x) (hstate : x.cstate = .running) (hit : s.item i k = some it)
    (htodo : it.todo = some todo) {t1 : TodoUnit} (hmem : t1 ∈ todo) (hkind : (it.units[t1.ix]?).map (·.kind) ≠ some .deferred) :
    s.afterUnit i k e = s := by
  have hsome : todo.isEmpty = false := by cases todo <;> simp_all
  have hmore : todo.all (fun t => ((it.units[t.ix]?).map (·.kind)) == some .deferred) = false :=
    List.all_eq_false.mpr ⟨t1, hmem, by simpa using hkind⟩
  have hlive : (StreamState.running == .aborting) = false := by decide
  simp only [State.afterUnit, hx, hit, htodo, hstate, hlive, hsome, hmore, Bool.false_eq_true, if_false]

/-! ## The end of a unit -/

theorem State.beginTile_of_begun (hx : s.stream i = some x) (hit : s.item i k = some it) (htodo : it.todo = some todo) (errs : Errs) :
    s.beginTile i k errs = s := by
  simp [State.beginTile, hx, hit, htodo]

/-- The unit of a page that is neither locked nor lost is read. -/
theorem State.findUnit_read {u : PageUnit} (htier : u.loc.tier = .hbm ∨ u.loc.tier = .pcache)
    (hfree : if x.lender.isSome then s.lockedAt (u.loc.frame * 2048) (contentSize x.def0) = false
      else ∀ y, s.desc u.desc = some y → y.state ≠ .poisoned ∧ y.state ≠ .lockedBank) : s.findUnit x u = .read := by
  unfold State.findUnit
  split at hfree
  · next h => rw [if_pos h, Stream.unitAt, hfree]; rfl
  · next h =>
    rw [if_neg h]
    split
    · rfl
    · next y hy =>
      obtain ⟨hpoison, hlock⟩ := hfree y hy
      rcases htier with ht | ht <;> simp [hpoison, hlock, ht]

/-- A unit read without an error is computed and taken off the list. -/
theorem State.fetchUnit_clean (t : TodoUnit) (u : PageUnit) :
    s.fetchUnit i k e x t u [] = (s.computeUnit i k e x u []).unitOff i k t.ix := by
  have hbad : ∀ a n, s.badBlocks [] a n = [] := fun _ _ => rfl
  have hecc : ∀ (s : State) a n, s.eccRange [] a n = s := fun _ _ _ => rfl
  simp [State.fetchUnit, hbad, hecc]

/-- The end of a unit that is read without an error, with another one left (R105). -/
theorem State.unitEnd_of_read {t0 : TodoUnit} {u : PageUnit} (hrun : tfind s.ae.running e = some (i, k)) (hx : s.stream i = some x)
    (hit : s.item i k = some it) (htodo : it.todo = some (t0 :: todo)) (hu : it.units[t0.ix]? = some u) (hlocal : u.kind = .local_)
    (hread : s.findUnit x u = .read) (hsel : t0.eligible = false) (hmode : x.amode ≠ 2) (hstate : x.cstate = .running)
    (hlock : tfind s.ae.lockWait e = none)
    (hmore : ((s.computeUnit i k e x u []).unitOff i k t0.ix).afterUnit i k e = (s.computeUnit i k e x u []).unitOff i k t0.ix) :
    s.unitEnd e [] = (s.computeUnit i k e x u []).unitOff i k t0.ix := by
  have hskip : x.skips it t0 u = none := by simp [Stream.skips, hsel]
  have hlive : (StreamState.running == .aborting) = false := by decide
  have hplain : x.expanded = false := by simpa [Stream.expanded] using hmode
  have hfirst : (t0 :: todo).find? (fun t => ((it.units[t.ix]?).map (·.kind)) != some .deferred) = some t0 := by
    refine List.find?_cons_of_pos ?_
    rw [hu, Option.map_some, hlocal]
    decide
  have hdo : s.doUnit i k e x it t0 u [] = (s.computeUnit i k e x u []).unitOff i k t0.ix := by
    simp only [State.doUnit, hsel, Bool.false_and, Bool.false_eq_true, if_false, hskip, hread, State.fetchUnit_clean]
  simp only [State.unitEnd, hrun, hx, hit, hstate, hlive, hlock, hplain, Bool.false_and, Option.isSome_none, Bool.false_eq_true, if_false,
    State.beginTile_of_begun hx hit htodo, htodo, Option.getD_some, hfirst, hu, hdo, hmore]

/-- The item with a unit added to every row of its tile (R105). -/
def State.addUnit (s : State) (x : Stream) (u : PageUnit) (it : WorkItem) : WorkItem :=
  let accs := it.accs.map fun a => x.addPage a u (s.unitContent x u []) (x.imgOf s).fmt
    (if x.expanded then sliceOf (x.imgOf s) x.slices x.layer (x.rowHead a.row) else [])
  if it.inBlock + 1 = 64 then { it with accs := accs.map RowAcc.fold, inBlock := 0 } else { it with accs := accs, inBlock := it.inBlock + 1 }

theorem State.computeUnit_eq (u : PageUnit) :
    s.computeUnit i k e x u [] = (s.modItem i k (s.addUnit x u)).inc (Fd.AE_UNITS_COUNT e) := rfl

theorem State.addUnit_of_room {u : PageUnit} (hblock : it.inBlock + 1 < 64) (hmode : x.amode ≠ 2) :
    s.addUnit x u it = { it with
      accs := it.accs.map fun a => x.addPage a u (s.unitContent x u []) (x.imgOf s).fmt []
      inBlock := it.inBlock + 1 } := by
  have hplain : x.expanded = false := by simpa [Stream.expanded] using hmode
  simp only [State.addUnit, if_neg (show ¬ it.inBlock + 1 = 64 by omega), hplain, Bool.false_eq_true, if_false]

/-- The item after a unit that does not fill its block. -/
theorem State.item_computeUnit_unitOff {u : PageUnit} (hit : s.item i k = some it) (hblock : it.inBlock + 1 < 64) (hmode : x.amode ≠ 2) (ix : Nat) :
    ((s.computeUnit i k e x u []).unitOff i k ix).item i k = some { it with
      accs := it.accs.map fun a => x.addPage a u (s.unitContent x u []) (x.imgOf s).fmt []
      inBlock := it.inBlock + 1
      todo := it.todo.map fun l => l.filter fun t => t.ix != ix } := by
  have hcompute : (s.computeUnit i k e x u []).item i k = some (s.addUnit x u it) := by
    rw [State.computeUnit_eq]
    exact State.item_modItem_same hit (s.addUnit x u)
  rw [State.addUnit_of_room hblock hmode] at hcompute
  exact State.item_modItem_same hcompute _

theorem State.stream_computeUnit_unitOff (hx : s.stream i = some x) (u : PageUnit) (ix : Nat) :
    ∃ y, ((s.computeUnit i k e x u []).unitOff i k ix).stream i = some y ∧ y.cstate = x.cstate := by
  have hcompute : (s.computeUnit i k e x u []).stream i = some { x with items := modAt k (s.addUnit x u) x.items } :=
    State.stream_modItem_same hx k (s.addUnit x u)
  exact ⟨_, State.stream_modItem_same hcompute k _, rfl⟩

theorem State.stream_computeUnit_unitOff_ne (u : PageUnit) (ix : Nat) {j : Nat} (h : j ≠ i) :
    ((s.computeUnit i k e x u []).unitOff i k ix).stream j = s.stream j := by
  have hcompute : (s.computeUnit i k e x u []).stream j = s.stream j := State.stream_modItem_ne k (s.addUnit x u) h
  exact (State.stream_modItem_ne k _ h).trans hcompute

theorem State.fd_computeUnit_unitOff (u : PageUnit) (ix : Nat) (f : Fd) :
    ((s.computeUnit i k e x u []).unitOff i k ix).fd f = (s.inc (Fd.AE_UNITS_COUNT e)).fd f := rfl

theorem State.only_computeUnit_unitOff (u : PageUnit) (ix : Nat) :
    s.only [.csr, .ae] ((s.computeUnit i k e x u []).unitOff i k ix) :=
  (((s.only_modItem i k _).mono (by simp)).then (State.only_setFd _ _ _) (by simp)).then (State.only_modItem _ i k _) (by simp)

/-! ## The end of a wait for a lock -/

/-- A lock wait that runs out defers the units of its page (R106). -/
theorem State.engineWaitEnds_of_expired {d t0 : Nat} (hwait : tfind s.ae.lockWait e = some (d, t0)) (hrun : tfind s.ae.running e = some (i, k))
    (hdue : t0 * 10 + s.fd Fd.AE_SPLIT_LOCK_WAIT_NS ≤ s.mtime * 10) (hx : s.stream i = some x) :
    s.engineWaitEnds e = ((s.onAe fun a => { a with lockWait := tdel a.lockWait e }).modItem i k (·.deferPage x d)).afterUnit i k e := by
  simp only [State.engineWaitEnds, hwait, hrun, if_neg (Nat.not_lt.mpr hdue), hx]

/-- A unit of another page keeps its place and kind. -/
theorem WorkItem.mem_deferPage {d : Nat} {t1 : TodoUnit} {u : PageUnit} (htodo : it.todo = some todo) (hmem : t1 ∈ todo)
    (hu : it.units[t1.ix]? = some u) (hname : x.lockName u ≠ d) :
    (∃ l, (it.deferPage x d).todo = some l ∧ t1 ∈ l) ∧ (it.deferPage x d).units[t1.ix]? = some u := by
  refine ⟨⟨_, by rw [WorkItem.deferPage, htodo, Option.map_some], ?_⟩, ?_⟩
  · refine List.mem_append_left _ (List.mem_filter.mpr ⟨hmem, ?_⟩)
    simp [hu, hname]
  · simp [WorkItem.deferPage, hu, hname]

end

end Sys2Proof.Machine

end

section
/-! SUPPORT. An uncorrectable error in an engine's SRAM (R110). -/

namespace Sys2Proof.Machine

theorem State.regsBut.then {s t u : State} {ks ls : List Nat} (h : s.regsBut ks t) (h' : t.regsBut ls u) : s.regsBut (ks ++ ls) u := by
  intro a ha
  rw [List.mem_append, not_or] at ha
  exact (h' a ha.2).trans (h a ha.1)

theorem State.regsBut.of_csr {s t u : State} {ks : List Nat} (h : s.regsBut ks t) (hc : u.csr = t.csr) : s.regsBut ks u := by
  intro a ha
  rw [← h a ha, State.reg, State.reg, hc]

/-! ## What the error counts and records -/

/-- An error of a class without a limit is counted in its window alone (R337). -/
theorem State.countErr_of_unlimited {s : State} {c : Nat} (h : s.fd (Fd.TWN_CLASS_LIMIT c) = 0) (unit n : Nat) :
    (s.countErr c unit n).csr = s.csr ∧ (s.countErr c unit n).ae = s.ae := by
  have hlimit : ∀ f, (s.onTwn f).fd (Fd.TWN_CLASS_LIMIT c) = 0 := fun _ => h
  unfold State.countErr
  rw [if_neg fun hc => hc.1 (hlimit _)]
  exact ⟨rfl, rfl⟩

/-- Bytes written and a register's field set, then a change of the event concentrator. -/
theorem State.regsBut_recorded (s : State) (a : Nat) (l : List Byte) (f : Fd) (v : Nat) (g : Evc → Evc) :
    s.regsBut [f.addr] (((s.hbmWrite a l).setFd f v).onEvc g) := by
  have hset : (s.hbmWrite a l).regsBut [f.addr] ((s.hbmWrite a l).setFd f v) := State.regsBut_setFd _ f v
  exact hset

theorem State.ae_recorded (s : State) (a : Nat) (l : List Byte) (f : Fd) (v : Nat) (g : Evc → Evc) :
    (((s.hbmWrite a l).setFd f v).onEvc g).ae = s.ae := rfl

/-- A record for the kernel goes to its mailbox or is dropped. -/
theorem State.mbRecord_regs (s : State) (m ty : Nat) (body : List Byte) :
    s.regsBut [Reg.EVC_MB_IDX m, Reg.EVC_MB_DROPS] (s.mbRecord m ty body) ∧ (s.mbRecord m ty body).ae = s.ae := by
  have hsub : ∀ {u : State} {k : Nat}, k ∈ [Reg.EVC_MB_IDX m, Reg.EVC_MB_DROPS] → s.regsBut [k] u →
      s.regsBut [Reg.EVC_MB_IDX m, Reg.EVC_MB_DROPS] u := fun hk h a ha => h a fun hm => ha (List.mem_singleton.mp hm ▸ hk)
  unfold State.mbRecord
  split
  · unfold State.mbPut
    exact ⟨hsub (by simp [Fd.EVC_MB_IDX_PI]) (s.regsBut_recorded _ _ _ _ _), s.ae_recorded _ _ _ _ _⟩
  · exact ⟨hsub (by simp [Fd.EVC_MB_DROPS_COUNT]) ((s.regsBut_setFd Fd.EVC_MB_DROPS_COUNT _).of_csr rfl), rfl⟩

/-- The time an engine ran is charged to the partition and counted. -/
theorem State.engineTime_eq {s : State} {e : Nat} {p : Nat × Nat} (hrun : tfind s.ae.running e = some p) :
    ∃ (u : State) (n : Nat), u.csr = s.csr ∧ u.ae = s.ae ∧ s.engineTime e true = u.count (Fd.AE_BUSY_NS_NS e) n := by
  obtain ⟨i, k⟩ := p
  unfold State.engineTime
  rw [hrun]
  refine ⟨_, _, ?_, ?_, rfl⟩
  all_goals
    split
    · split <;> rfl
    · rfl

/-! ## The item taken off and started over -/

/-- The item from its first unit, in line before those that never ran (R110). -/
def WorkItem.restarted (it : WorkItem) : WorkItem :=
  { it with
    istate := .waiting, engine := none, tile := 0, todo := none, inBlock := 0, accs := [], resumed := true,
    heldRecs := [], stalled := false, slicesIn := false, asked := false }

/-- The engine without its item. -/
def Ae.disengage (a : Ae) (e : Nat) : Ae :=
  { a with running := tdel a.running e, busySince := tdel a.busySince e, lockWait := tdel a.lockWait e }

section
variable {s : State} {i k e : Nat} {x : Stream} {it : WorkItem}

theorem State.restartItem_eq (hit : s.item i k = some it) :
    ∃ w, s.restartItem i k = ((s.modItem i k WorkItem.restarted).setWaiting w).inc Fd.AE_RESTARTS_COUNT ∧ (i, k) ∈ w := by
  obtain ⟨w, hw, hmem, -⟩ := (s.modItem i k WorkItem.restarted).lineUp_eq i k
  exact ⟨w, by rw [State.restartItem, hit, ← hw]; rfl, hmem⟩

theorem State.abandonItem_eq (hrun : tfind s.ae.running e = some (i, k)) (hx : s.stream i = some x) (hstate : x.cstate = .running)
    (hae : (s.engineTime e true).ae = s.ae) : s.abandonItem e = ((s.engineTime e true).onAe (·.disengage e)).restartItem i k := by
  have hx' : ((s.engineTime e true).onAe (·.disengage e)).stream i = some x := by
    rw [← hx]
    exact congrArg (fun a => tfind a.streams i) hae
  have hlive : (StreamState.running == .aborting) = false := by decide
  rw [State.abandonItem, hrun]
  change (match ((s.engineTime e true).onAe (·.disengage e)).stream i with | none => _ | some x => _) = _
  rw [hx']
  simp only [hstate, hlive, Bool.false_eq_true, if_false]
  rfl

/-- Item k of stream i off engine e and in line from its first unit, n counted as the engine's time. -/
def State.restarted (s : State) (e i k n : Nat) (w : List (Nat × Nat)) : State :=
  ((((s.count (Fd.AE_BUSY_NS_NS e) n).onAe (·.disengage e)).modItem i k WorkItem.restarted).setWaiting w).inc Fd.AE_RESTARTS_COUNT

theorem State.abandonItem_restarts (hrun : tfind s.ae.running e = some (i, k)) (hx : s.stream i = some x) (hstate : x.cstate = .running)
    (hit : s.item i k = some it) :
    ∃ (u : State) (n : Nat) (w : List (Nat × Nat)),
      u.csr = s.csr ∧ u.ae = s.ae ∧ (i, k) ∈ w ∧ s.abandonItem e = u.restarted e i k n w := by
  obtain ⟨u, n, hcsr, hae, htime⟩ := State.engineTime_eq hrun
  have hit' : ((u.count (Fd.AE_BUSY_NS_NS e) n).onAe (·.disengage e)).item i k = some it := by
    rw [← hit]
    exact congrArg (fun a => (tfind a.streams i).bind fun x => x.items[k]?) hae
  obtain ⟨w, hw, hmem⟩ := State.restartItem_eq hit'
  refine ⟨u, n, w, hcsr, hae, hmem, ?_⟩
  rw [State.abandonItem_eq hrun hx hstate (by rw [htime]; exact hae), htime, hw]
  rfl

section
variable (s i k e) (n : Nat) (w : List (Nat × Nat))

theorem State.restarted_running : tfind (s.restarted e i k n w).ae.running e = none := tfind_tdel_same s.ae.running e

theorem State.restarted_engineQueue (f : Nat) : (s.restarted e i k n w).engineQueue f = s.engineQueue f := rfl

theorem State.restarted_stream_ne {j : Nat} (h : j ≠ i) : (s.restarted e i k n w).stream j = s.stream j :=
  State.stream_modItem_ne (s := (s.count (Fd.AE_BUSY_NS_NS e) n).onAe (·.disengage e)) k WorkItem.restarted h

theorem State.restarted_regs : s.regsBut [Reg.AE_BUSY_NS e, Reg.AE_RESTARTS] (s.restarted e i k n w) := by
  have htime : s.regsBut [Reg.AE_BUSY_NS e] (s.count (Fd.AE_BUSY_NS_NS e) n) := s.regsBut_setFd (Fd.AE_BUSY_NS_NS e) _
  exact State.regsBut.then (t := (((s.count (Fd.AE_BUSY_NS_NS e) n).onAe (·.disengage e)).modItem i k WorkItem.restarted).setWaiting w)
    htime (State.regsBut_setFd _ Fd.AE_RESTARTS_COUNT _)

theorem State.restarted_count :
    (s.restarted e i k n w).fd Fd.AE_RESTARTS_COUNT = min (s.fd Fd.AE_RESTARTS_COUNT + 1) (2 ^ 64 - 1) := by
  have hother : (s.count (Fd.AE_BUSY_NS_NS e) n).fd Fd.AE_RESTARTS_COUNT = s.fd Fd.AE_RESTARTS_COUNT := by
    refine s.fd_setFd_other _ _ _ (.inl ?_) (show 63 < 64 by decide)
    simp only [Fd.AE_RESTARTS_COUNT, Fd.AE_BUSY_NS_NS, Reg.AE_RESTARTS, Reg.AE_BUSY_NS]
    omega
  rw [← hother]
  exact State.fd_inc_64
    ((((s.count (Fd.AE_BUSY_NS_NS e) n).onAe (·.disengage e)).modItem i k WorkItem.restarted).setWaiting w) rfl rfl

end

theorem State.restarted_item (hit : s.item i k = some it) (n : Nat) (w : List (Nat × Nat)) :
    (s.restarted e i k n w).item i k = some it.restarted :=
  State.item_modItem_same (s := (s.count (Fd.AE_BUSY_NS_NS e) n).onAe (·.disengage e)) hit _

end

end Sys2Proof.Machine

end

section
/-! The statement of windows, dispatch and the engines. -/

namespace Sys2Proof.Proofs.Streams

open Sys2Proof Sys2Proof.Machine Sys2Proof.Proofs.Scope

/-! ## Windows -/

section
variable {s : State} {i : Nat} {x : Stream}

theorem length_firstItems : (s.firstItems x).length = s.rangeCount x x.scanned.length := by
  rw [State.firstItems, List.length_map, State.length_ranges]

/-- The items hold the units of the window in order (R102). -/
theorem units_of_firstItems : ((s.firstItems x).map (·.units)).flatten = x.scanned := by
  have hunits : (s.firstItems x).map (·.units) = s.ranges x x.scanned := by
    rw [State.firstItems, List.map_map]
    exact List.map_id _
  rw [hunits, State.flatten_ranges]

theorem length_units_of_firstItems {a : Nat} {v : WorkItem} (h : (s.firstItems x)[a]? = some v) :
    v.units.length = x.scanned.length / s.rangeCount x x.scanned.length +
      if a < x.scanned.length % s.rangeCount x x.scanned.length then 1 else 0 := by
  rw [State.firstItems, List.getElem?_map] at h
  obtain ⟨r, hr, rfl⟩ := Option.map_eq_some_iff.mp h
  exact s.length_of_getElem?_ranges x hr

/-- The sizes of two items differ by at most one, the larger first (R102). -/
theorem firstItems_even {a b : Nat} {v w : WorkItem} (hv : (s.firstItems x)[a]? = some v) (hw : (s.firstItems x)[b]? = some w) (hab : a < b) :
    w.units.length ≤ v.units.length ∧ v.units.length ≤ w.units.length + 1 := by
  rw [length_units_of_firstItems hv, length_units_of_firstItems hw]
  split <;> split <;> omega

theorem windowSplit_gives (hr : s.inReset = false) (hx : s.stream i = some x) (hstate : x.cstate = .dispatch) (hitems : x.items = [])
    (hwork : x.workAt.isSome = true) (hlen : x.scanned.length ≤ 65536) (htaken : x.taken = 0)
    (hunits : ∀ u ∈ x.scanned, u.kind = .local_ ∧ u.tadpole = false ∧ ∀ y, s.desc u.desc = some y → y.state ≠ .poisoned) :
    (Instr.windowSplit i).gives s fun t =>
      ∃ y, t.stream i = some y ∧ y.units = x.scanned ∧ y.taken = x.scanned.length ∧ (y.items.map (·.units)).flatten = x.scanned ∧
        1 ≤ y.items.length ∧ y.items.length ≤ 16 ∧ (∀ it ∈ y.items, it.istate = .waiting ∧ it.resumed = false) ∧
        (∀ (a b : Nat) (v w : WorkItem), y.items[a]? = some v → y.items[b]? = some w → a < b →
          w.units.length ≤ v.units.length ∧ v.units.length ≤ w.units.length + 1) ∧
        (∀ k < y.items.length, (i, k) ∈ t.ae.waiting) ∧ (∀ j, j ≠ i → t.stream j = s.stream j) ∧ s.only [.ae] t := by
  obtain ⟨w, hexec, hline⟩ := State.exec_windowSplit hr hx hstate hitems hwork hlen htaken hunits
  have hcount := s.rangeCount_bounds x x.scanned.length
  rw [← length_firstItems] at hcount
  have hfresh : ∀ it ∈ s.firstItems x, it.istate = .waiting ∧ it.resumed = false := by
    intro it hit
    obtain ⟨r, -, rfl⟩ := List.mem_map.mp hit
    exact ⟨rfl, rfl⟩
  exact ⟨_, hexec, x.windowed (s.firstItems x), State.stream_modStream_same hx _, rfl, rfl, units_of_firstItems, hcount.1, hcount.2, hfresh,
    fun _ _ _ _ => firstItems_even, hline, fun j hj => State.stream_modStream_ne _ hj,
    State.only_commit ((s.only_modStream i _).then (State.only_onAe _ _) (List.Subset.refl _))⟩

end

/-! ## The dispatcher -/

section
variable {s : State} {i k e : Nat} {x : Stream} {it : WorkItem}

theorem workItemDispatch_gives (hr : s.inReset = false) (hx : s.stream i = some x) (hit : s.item i k = some it) (hsave : it.saveAt = none)
    (hwork : x.workAt.isSome = true) (hline : s.ae.waiting = [(i, k)]) (he : s.chooseEngine x.part [] = some e)
    (hidle : tfind s.ae.running e = none) (hqueue : s.engineQueue e = []) (hawake : s.awake = true)
    (hcheck : s.flag Fd.TWN_XCHK_ENABLE = false) (hstate : x.cstate ≠ .aborting) :
    (Instr.workItemDispatch i).gives s fun t =>
      tfind t.ae.running e = some (i, k) ∧ tfind t.ae.busySince e = some s.mtime ∧ t.ae.waiting = [] ∧
      (t.item i k).map (fun y => (y.istate, y.engine, y.units)) = some (.running, some e, it.units) ∧
      (t.stream i).map (·.cstate) = some .running ∧ s.engineOk e x.part = true ∧
      (∀ f < 80, s.engineOk f x.part = true → (s.engineQueue e).length ≤ (s.engineQueue f).length) ∧ s.only [.ae, .twn] t := by
  obtain ⟨hok, hleast⟩ := State.chooseEngine_least he
  obtain ⟨sel, hgive⟩ := State.giveItem_of_idle hx hit hawake hidle hqueue hsave
  obtain ⟨f, hdisp⟩ := State.dispatch_of_first hx hwork hline he hcheck
    (by rw [hgive, State.started_csr, State.queuedAt_csr])
  rw [hgive] at hdisp
  have hleft : s.ae.waiting.filter (· != (i, k)) = [] := by
    rw [hline]
    simp
  have hrun := State.started_running (s := s.queuedAt i k e sel) (e := e) (i := i) (k := k) (l := [])
  have hbusy := State.started_busySince (s := s.queuedAt i k e sel) (e := e) (i := i) (k := k) (l := [])
  have hitem := State.started_item (e := e) (l := []) (State.queuedAt_item (e := e) (sel := sel) hit)
  obtain ⟨y, hy, hsame⟩ := State.queuedAt_stream (e := e) (k := k) (sel := sel) hx
  have hstream := State.started_cstate (e := e) (k := k) (l := []) hy (hsame ▸ hstate)
  have honly : s.only [.ae, .twn] (s.commit (s.dispatch i)) := by
    rw [hdisp]
    exact State.only_commit (((State.queuedAt_only.then State.started_only (List.Subset.refl _)).mono (by simp)).then
      (State.only_onTwn _ _) (by simp))
  have hwait : ((s.queuedAt i k e sel).started e i k []).ae.waiting = [] := by
    rw [State.started_waiting, State.queuedAt_waiting, hleft]
  generalize (s.queuedAt i k e sel).started e i k [] = u at *
  refine gives_act rfl hr ?_
  rw [hdisp] at honly ⊢
  exact ⟨hrun, hbusy, hwait, congrArg (Option.map _) hitem, hstream, hok, hleast, honly⟩

end

/-! ## The engines -/

section
variable {s : State} {i k : Nat} {x : Stream} {it : WorkItem} {todo : List TodoUnit}

theorem engineUnitEnd_gives {e : Fin 80} {t0 : TodoUnit} {u : PageUnit} (hr : s.inReset = false)
    (hrun : tfind s.ae.running e.val = some (i, k)) (hx : s.stream i = some x) (hit : s.item i k = some it)
    (htodo : it.todo = some (t0 :: todo)) (hu : it.units[t0.ix]? = some u) (hlocal : u.kind = .local_)
    (htier : u.loc.tier = .hbm ∨ u.loc.tier = .pcache) (hsel : t0.eligible = false) (hblock : it.inBlock + 1 < 64) (hmode : x.amode ≠ 2)
    (hstate : x.cstate = .running) (hlock : tfind s.ae.lockWait e.val = none) (hawake : s.awake = true)
    (hok : s.flag (Fd.AE_STATUS_QUARANTINED e.val) = false)
    (hfree : if x.lender.isSome then s.lockedAt (u.loc.frame * 2048) (contentSize x.def0) = false
      else ∀ y, s.desc u.desc = some y → y.state ≠ .poisoned ∧ y.state ≠ .lockedBank)
    (hmore : ∃ t1 ∈ todo, t1.ix ≠ t0.ix ∧ (it.units[t1.ix]?).map (·.kind) = some .local_) :
    (Instr.engineUnitEnd e 0 []).gives s fun t =>
      (∃ y, t.item i k = some y ∧ y.todo = some (todo.filter fun z => z.ix != t0.ix) ∧ y.inBlock = it.inBlock + 1 ∧ y.units = it.units ∧
        y.accs = it.accs.map fun a => x.addPage a u (s.unitContent x u []) (x.imgOf s).fmt []) ∧
      t.fd (Fd.AE_UNITS_COUNT e.val) = min (s.fd (Fd.AE_UNITS_COUNT e.val) + 1) (2 ^ 64 - 1) ∧
      tfind t.ae.running e.val = some (i, k) ∧ (∀ j, j ≠ i → t.stream j = s.stream j) ∧ s.only [.csr, .ae, .glb] t := by
  let v := s.onGlb fun g => { g with finishing := g.finishing.filter (· != e.val) }
  let t := (v.computeUnit i k e.val x u []).unitOff i k t0.ix
  obtain ⟨y, hy, hsame⟩ := State.stream_computeUnit_unitOff (s := v) (e := e.val) (k := k) hx u t0.ix
  have hitem := State.item_computeUnit_unitOff (s := v) (e := e.val) (x := x) (u := u) hit hblock hmode t0.ix
  have hleft : (it.todo.map fun l => l.filter fun z => z.ix != t0.ix) = some (todo.filter fun z => z.ix != t0.ix) := by
    simp [htodo]
  have hgoes : t.afterUnit i k e.val = t := by
    obtain ⟨t1, hmem, hne, hkind⟩ := hmore
    refine State.afterUnit_of_more hy (hsame.trans hstate) hitem hleft (List.mem_filter.mpr ⟨hmem, by simpa using hne⟩) ?_
    rw [hkind]
    decide
  have hend : v.unitEnd e.val [] = t :=
    State.unitEnd_of_read (s := v) hrun hx hit htodo hu hlocal (State.findUnit_read htier hfree) hsel hmode hstate hlock hgoes
  have hflag : t.flag (Fd.AE_STATUS_QUARANTINED e.val) = false := by
    refine (congrArg (· == 1) ((State.fd_computeUnit_unitOff u t0.ix _).trans (State.fd_setFd_other v _ _ _ (.inl ?_) (show 63 < 64 by decide)))).trans hok
    simp only [Fd.AE_STATUS_QUARANTINED, Fd.AE_UNITS_COUNT, Reg.AE_STATUS, Reg.AE_UNITS]
    omega
  have hexec : exec (.engineUnitEnd e 0 []) s = .next (s.commit t) := by
    refine (actIf_next s _ _ hr (by rw [hawake]; rfl)).trans ?_
    change Host.Outcome.next (s.commit (if (v.unitEnd e.val []).flag _ then _ else _)) = _
    rw [hend, hflag]
    rfl
  refine ⟨_, hexec, ⟨_, hitem, hleft, rfl, rfl, rfl⟩, ?_, hrun, fun j hj => State.stream_computeUnit_unitOff_ne u t0.ix hj, ?_⟩
  · exact State.fd_inc_64 v rfl rfl
  · exact State.only_commit (((s.only_onGlb _).mono (by simp)).then (State.only_computeUnit_unitOff u t0.ix) (by simp))

theorem lockWaitExpire_gives {e : Fin 96} {d t0 : Nat} (hr : s.inReset = false) (he : e.val < 80)
    (hwait : tfind s.ae.lockWait e.val = some (d, t0)) (hdue : t0 * 10 + s.fd Fd.AE_SPLIT_LOCK_WAIT_NS ≤ s.mtime * 10)
    (hrun : tfind s.ae.running e.val = some (i, k)) (hx : s.stream i = some x) (hstate : x.cstate = .running)
    (hit : s.item i k = some it) (htodo : it.todo = some todo)
    (hmore : ∃ t1 ∈ todo, ∃ u, it.units[t1.ix]? = some u ∧ x.lockName u ≠ d ∧ u.kind ≠ .deferred) :
    (Instr.lockWaitExpire e).gives s fun t =>
      tfind t.ae.lockWait e.val = none ∧ tfind t.ae.running e.val = some (i, k) ∧
      (t.item i k).map (·.units) = some (it.units.map fun u => if x.lockName u = d then { u with kind := .deferred } else u) ∧
      (∀ j, j ≠ i → t.stream j = s.stream j) ∧ s.only [.ae] t := by
  let v := s.onAe fun a => { a with lockWait := tdel a.lockWait e.val }
  let t := v.modItem i k (·.deferPage x d)
  have hitem : t.item i k = some (it.deferPage x d) := State.item_modItem_same (s := v) hit _
  have hgoes : t.afterUnit i k e.val = t := by
    obtain ⟨t1, hmem, u, hu, hname, hkind⟩ := hmore
    obtain ⟨⟨l, hl, hmem'⟩, hu'⟩ := WorkItem.mem_deferPage htodo hmem hu hname
    refine State.afterUnit_of_more (State.stream_modItem_same (s := v) hx k _) hstate hitem hl hmem' ?_
    simpa [hu'] using hkind
  have hexec : exec (.lockWaitExpire e) s = .next (s.commit t) := by
    refine (act_next s _ hr).trans ?_
    rw [if_neg (by omega), State.engineWaitEnds_of_expired hwait hrun hdue hx, hgoes]
  exact ⟨_, hexec, tfind_tdel_same _ _, hrun, congrArg (Option.map (·.units)) hitem, fun j hj => State.stream_modItem_ne (s := v) k (·.deferPage x d) hj,
    State.only_commit ((s.only_onAe _).then (State.only_modItem _ i k _) (List.Subset.refl _))⟩

end

section
variable {s : State} {i k : Nat} {x : Stream} {it : WorkItem}

/-- The error is raised, counted and recorded before the item is taken off. -/
theorem sramUe_reported (s : State) (e st h t : Nat) (hlimit : s.fd (Fd.TWN_CLASS_LIMIT 3) = 0) :
    ∃ v, v = ((s.raise (Fd.AE_ERR_SRAM_UE e)).countErr 3 e 1).engineEvent e 1 st 0 h t ∧ v.ae = s.ae ∧ v.fd (Fd.AE_ERR_SRAM_UE e) = 1 ∧
      s.regsBut [Reg.AE_ERR e, Reg.EVC_MB_IDX 2, Reg.EVC_MB_DROPS] v := by
  let r := s.raise (Fd.AE_ERR_SRAM_UE e)
  have hraise : s.regsBut [Reg.AE_ERR e] r := s.regsBut_setFd (Fd.AE_ERR_SRAM_UE e) 1
  have hlimit' : r.fd (Fd.TWN_CLASS_LIMIT 3) = 0 := by
    refine (hraise.fd ?_).trans hlimit
    simp only [Fd.TWN_CLASS_LIMIT, Reg.TWN_CLASS, Reg.AE_ERR, List.mem_singleton]
    omega
  obtain ⟨hcsr, hae⟩ := State.countErr_of_unlimited hlimit' e 1
  obtain ⟨hregs, hsame⟩ := (r.countErr 3 e 1).mbRecord_regs 2 0x03
    (le 1 e ++ le 1 1 ++ le 2 st ++ le 4 0 ++ le 8 h ++ le 8 t ++ zeros 16)
  refine ⟨_, rfl, hsame.trans hae, ?_, (hraise.of_csr hcsr).then hregs⟩
  have hone : r.fd (Fd.AE_ERR_SRAM_UE e) = 1 := s.fd_setFd_same (Fd.AE_ERR_SRAM_UE e) 1 (show 0 < 64 by decide)
  refine ((hregs.fd ?_).trans (State.fd_congr hcsr _)).trans hone
  simp only [Fd.AE_ERR_SRAM_UE, Reg.AE_ERR, Reg.EVC_MB_IDX, Reg.EVC_MB_DROPS, List.mem_cons, List.not_mem_nil, or_false]
  omega

theorem engineSramUe_gives {e : Fin 80} (hr : s.inReset = false) (hrun : tfind s.ae.running e.val = some (i, k)) (hx : s.stream i = some x)
    (hit : s.item i k = some it) (hstate : x.cstate = .running) (hlimit : s.fd (Fd.TWN_CLASS_LIMIT 3) = 0)
    (hqueue : s.engineQueue e.val = []) (hok : s.flag (Fd.AE_STATUS_QUARANTINED e.val) = false) :
    (Instr.engineSramUe e).gives s fun t =>
      t.fd (Fd.AE_ERR_SRAM_UE e.val) = 1 ∧ tfind t.ae.running e.val = none ∧ (i, k) ∈ t.ae.waiting ∧
      (t.item i k).map (fun y => (y.istate, y.engine, y.tile, y.todo, y.accs, y.units)) = some (.waiting, none, 0, none, [], it.units) ∧
      t.fd Fd.AE_RESTARTS_COUNT = min (s.fd Fd.AE_RESTARTS_COUNT + 1) (2 ^ 64 - 1) ∧ (∀ j, j ≠ i → t.stream j = s.stream j) := by
  obtain ⟨v, hv, hae, herr, hregs⟩ := sramUe_reported s e.val i x.handle x.tag hlimit
  have hstreams : ∀ j, v.stream j = s.stream j := fun j => congrArg (fun a : Ae => tfind a.streams j) hae
  have hit' : v.item i k = some it := by
    rw [← hit, State.item, State.item, hstreams]
  obtain ⟨u, n, w, hcsr, hsame, hmem, habandon⟩ := State.abandonItem_restarts (s := v) (by rw [hae, hrun]) ((hstreams i).trans hx) hstate hit'
  have htregs := (hregs.of_csr hcsr).then (u.restarted_regs i k e.val n w)
  have hutregs := u.restarted_regs i k e.val n w
  have hidle := u.restarted_running i k e.val n w
  have hline : (i, k) ∈ (u.restarted e.val i k n w).ae.waiting := hmem
  have hcount := u.restarted_count i k e.val n w
  have hothers := fun j => u.restarted_stream_ne i k e.val n w (j := j)
  have hempty := u.restarted_engineQueue i k e.val n w e.val
  have hitem := State.restarted_item (s := u) (e := e.val) (i := i) (k := k) (it := it)
    (by rw [← hit', State.item, State.item, State.stream, State.stream, hsame]) n w
  generalize u.restarted e.val i k n w = t at *
  have hflag : t.flag (Fd.AE_STATUS_QUARANTINED e.val) = false := by
    refine (htregs.flag ?_).trans hok
    simp only [Fd.AE_STATUS_QUARANTINED, Reg.AE_STATUS, Reg.AE_ERR, Reg.EVC_MB_IDX, Reg.EVC_MB_DROPS, Reg.AE_BUSY_NS, Reg.AE_RESTARTS,
      List.cons_append, List.nil_append, List.mem_cons, List.not_mem_nil, or_false]
    omega
  have hstart : t.engineStart e.val = t :=
    State.engineStart_of_empty (by rw [hempty, ← hqueue, State.engineQueue, State.engineQueue, hsame, hae])
  have hexec : exec (.engineSramUe e) s = .next (s.commit t) := by
    refine (act_next s _ hr).trans ?_
    simp only [hrun, Option.bind_some, hx, Option.map_some, ← hv, habandon]
    rw [hflag, if_neg Bool.false_ne_true, hstart]
  have hcount' : t.fd Fd.AE_RESTARTS_COUNT = min (s.fd Fd.AE_RESTARTS_COUNT + 1) (2 ^ 64 - 1) := by
    rw [hcount, State.fd_congr hcsr, hregs.fd]
    simp only [Fd.AE_RESTARTS_COUNT, Reg.AE_RESTARTS, Reg.AE_ERR, Reg.EVC_MB_IDX, Reg.EVC_MB_DROPS, List.mem_cons, List.not_mem_nil, or_false]
    omega
  have herr' : t.fd (Fd.AE_ERR_SRAM_UE e.val) = 1 := by
    rw [hutregs.fd, State.fd_congr hcsr, herr]
    simp only [Fd.AE_ERR_SRAM_UE, Reg.AE_ERR, Reg.AE_BUSY_NS, Reg.AE_RESTARTS, List.mem_cons, List.not_mem_nil, or_false]
    omega
  have hothers' : ∀ j, j ≠ i → t.stream j = s.stream j := by
    intro j hj
    rw [hothers j hj, ← hstreams, State.stream, State.stream, hsame]
  exact ⟨_, hexec, herr', hidle, hline, congrArg (Option.map _) hitem, hcount', hothers'⟩

end

/-- Settles O45: a window's ranges hold its units in order and their sizes are the quotient or one more (R102); the dispatcher's
choice is the least of a fold over the engines (R103); a unit's end, a lock wait's end and an SRAM error change the one item, and
a unit left in the tile keeps the engine on it (R105, R106, R110). -/
theorem streamsAtTheEngines : Obligations.StreamsAtTheEngines := by
  intro s hr
  refine ⟨?_, ?_, ?_, ?_, ?_⟩
  · intro i x hx hstate hitems _ hwork hlen htaken hunits
    exact windowSplit_gives hr hx hstate hitems hwork hlen htaken hunits
  · intro i k e x it hx hit _ hsave hwork hline he hidle hqueue hawake hcheck hstate
    exact workItemDispatch_gives hr hx hit hsave hwork hline he hidle hqueue hawake hcheck hstate
  · intro e i k x it todo t0 u hrun hx hit htodo hu hlocal htier hsel hblock hmode hstate hlock hawake hok hfree hmore
    exact engineUnitEnd_gives hr hrun hx hit htodo hu hlocal htier hsel hblock hmode hstate hlock hawake hok hfree hmore
  · intro e d t0 i k x it todo he hwait hdue hrun hx hstate hit htodo hmore
    exact lockWaitExpire_gives hr he hwait hdue hrun hx hstate hit htodo hmore
  · intro e i k x it hrun hx hit hstate hlimit hqueue hok
    exact engineSramUe_gives hr hrun hx hit hstate hlimit hqueue hok

end Sys2Proof.Proofs.Streams

end

section
/-! SUPPORT. A stream admitted in a free context (R89, R99, R108). -/

namespace Sys2Proof.Machine

/-! ## A free key -/

/-- Where some key below the bound is free, one is found. -/
theorem freeKey_of_free {α : Type} {t : Tbl α} {bound : Nat} (hint : Nat) (h : ∃ j < bound, tfind t j = none) :
    ∃ i, freeKey t bound hint = some i ∧ tfind t i = none := by
  classical
  have hfind : (freeKey t bound hint).isSome := by
    let j := Nat.find h
    obtain ⟨hlt, hfree⟩ := Nat.find_spec h
    refine List.find?_isSome.mpr ⟨j, List.mem_cons_of_mem _ ?_, by simp [j, hlt, hfree]⟩
    rcases Nat.eq_zero_or_pos j with h0 | hpos
    · exact h0 ▸ List.mem_cons_self
    · have htaken : tfind t (j - 1) ≠ none := fun hnone =>
        Nat.find_min h (show j - 1 < j by omega) ⟨by omega, hnone⟩
      obtain ⟨a, ha⟩ := Option.ne_none_iff_exists'.mp htaken
      exact List.mem_cons_of_mem _ (List.mem_map.mpr ⟨_, mem_of_tfind ha, by simp only; omega⟩)
  obtain ⟨i, hi⟩ := Option.isSome_iff_exists.mp hfind
  have hok := List.find?_some hi
  exact ⟨i, hi, by simpa using (Bool.and_eq_true_iff.mp hok).2⟩

/-! ## The context taken -/

/-- A stream with its workspace, or waiting for it. -/
def Stream.placedAt (x : Stream) (w : Option Nat) : Stream := { x with workAt := w }

/-- `t` is `s` with stream x admitted in context i. -/
structure State.Admits (s : State) (x : Stream) (i : Nat) (t : State) : Prop where
  room : s.stream i = none
  stream : ∃ w, t.stream i = some (x.placedAt w)
  others : ∀ j, j ≠ i → t.stream j = s.stream j
  count : t.fd Fd.AE_ADMITS_COUNT = min (s.fd Fd.AE_ADMITS_COUNT + 1) (2 ^ 64 - 1)
  batches : t.ae.batches = s.ae.batches
  nextBatch : t.ae.nextBatch = s.ae.nextBatch
  only : s.only [.csr, .ae, .free] t

/-- Blocks taken from the pool. -/
theorem State.takePool_ae {s t : State} {n a : Nat} (h : s.takePool n = some (a, t)) :
    t.ae = { s.ae with poolUsed := t.ae.poolUsed } ∧ t.csr = s.csr ∧ s.only [.ae, .free] t := by
  obtain ⟨b, -, hb⟩ := Option.map_eq_some_iff.mp h
  cases hb
  exact ⟨rfl, rfl, ((s.only_onAe _).mono (by simp)).then (State.only_drawn _) (by simp)⟩

/-- A stream's workspace where there is room (R108). -/
theorem State.placeStream_placedAt {s : State} {i : Nat} {x : Stream} (hx : s.stream i = some x) :
    (∃ w, (s.placeStream i).stream i = some (x.placedAt w)) ∧ (∀ j, j ≠ i → (s.placeStream i).stream j = s.stream j) ∧
      (s.placeStream i).ae.batches = s.ae.batches ∧ (s.placeStream i).ae.nextBatch = s.ae.nextBatch ∧
      (s.placeStream i).csr = s.csr ∧ s.only [.ae, .free] (s.placeStream i) := by
  have hself : (∃ w, s.stream i = some (x.placedAt w)) := ⟨x.workAt, hx⟩
  unfold State.placeStream
  rw [hx]
  dsimp only
  split
  · exact ⟨hself, fun _ _ => rfl, rfl, rfl, rfl, .refl s _⟩
  · split
    · exact ⟨hself, fun _ _ => rfl, rfl, rfl, rfl, .refl s _⟩
    · next a t hpool =>
      obtain ⟨hae, hcsr, honly⟩ := State.takePool_ae hpool
      have hstreams : ∀ j, t.stream j = s.stream j := fun j => by rw [State.stream, hae]; rfl
      refine ⟨⟨some a, ?_⟩, fun j hj => ?_, ?_, ?_, hcsr, honly.then (State.only_modStream _ _ _) (by simp)⟩
      · exact State.stream_modStream_same ((hstreams i).trans hx) _
      · exact (State.stream_modStream_ne _ hj).trans (hstreams j)
      · change t.ae.batches = _
        rw [hae]
      · change t.ae.nextBatch = _
        rw [hae]

theorem State.addStream_admits {s : State} (x : Stream) (h : ∃ j < 65536, s.stream j = none) :
    ∃ i t, s.addStream x = (t, some i) ∧ s.Admits x i t := by
  obtain ⟨i, hi, hfree⟩ := freeKey_of_free (t := s.ae.streams) (Config.pick s.free) h
  let u := ((s.onAe fun a => { a with streams := tset a.streams i x }).drawn).inc Fd.AE_ADMITS_COUNT
  have hu : u.stream i = some x := tfind_tset_same s.ae.streams i x
  obtain ⟨hsame, hothers, hbatches, hnext, hcsr, honly⟩ := State.placeStream_placedAt hu
  have huonly : s.only [.csr, .ae, .free] u :=
    ((((s.only_onAe _).mono (by simp)).then (State.only_drawn _) (by simp)).then (State.only_setFd _ _ _) (by simp))
  refine ⟨i, u.placeStream i, by rw [State.addStream, hi], ⟨hfree, hsame, fun j hj => ?_, ?_, hbatches, hnext, huonly.then honly (by simp)⟩⟩
  · exact (hothers j hj).trans (tfind_tset_ne s.ae.streams x hj)
  · rw [State.fd_congr hcsr]
    exact State.fd_inc_64 _ rfl rfl

end Sys2Proof.Machine

end

section
/-! SUPPORT. A stream on a sequence held here starts: HEAT, promotions and the context (R99, R166, R182). -/

namespace Sys2Proof.Machine

/-! ## HEAT and promotions -/

/-- `t` is `s` but for the pages' heat and the promotions asked for. -/
structure State.Warms (s t : State) : Prop where
  seqs : t.pgt.seqs = s.pgt.seqs
  ops : t.pgt.ops = s.pgt.ops
  copies : t.pgt.copies = s.pgt.copies
  only : s.only [.pgt, .tier] t

namespace State.Warms

theorem refl (s : State) : s.Warms s := ⟨rfl, rfl, rfl, .refl s _⟩

theorem trans {s t u : State} (h : s.Warms t) (h' : t.Warms u) : s.Warms u where
  seqs := h'.seqs.trans h.seqs
  ops := h'.ops.trans h.ops
  copies := h'.copies.trans h.copies
  only := h.only.then h'.only (List.Subset.refl _)

theorem foldl {α : Type} {f : State → α → State} (hf : ∀ u a, State.Warms u (f u a)) (l : List α) : ∀ s : State, s.Warms (l.foldl f s) := by
  induction l with
  | nil => exact refl
  | cons a l ih => exact fun s => (hf s a).trans (ih _)

theorem onTier (s : State) (f : TierBlock → TierBlock) : s.Warms (s.onTier f) := ⟨rfl, rfl, rfl, (s.only_onTier f).mono (by simp)⟩

theorem modDesc (s : State) (d : Nat) (f : Desc → Desc) : s.Warms (s.modDesc d f) := ⟨rfl, rfl, rfl, (s.only_onPgt _).mono (by simp)⟩

end State.Warms

theorem State.warms_warm (s : State) (u : PageUnit) : s.Warms (s.warm u) := by
  unfold State.warm
  split
  · exact .refl s
  · dsimp only
    split
    · split
      · exact .modDesc s _ _
      · exact (State.Warms.modDesc s _ _).trans (.onTier _ _)
    · exact .modDesc s _ _

theorem State.warms_heatUp (s : State) (us : List PageUnit) : s.Warms (s.heatUp us) := State.Warms.foldl State.warms_warm us s

theorem State.warms_prefetchLayers (s : State) (k layer : Nat) : s.Warms (s.prefetchLayers k layer) := by
  unfold State.prefetchLayers
  split
  · exact .refl s
  · refine State.Warms.foldl (fun u j => ?_) _ s
    dsimp only
    split
    · exact .refl u
    · refine State.Warms.foldl (fun v e => ?_) _ u
      split
      · exact .refl v
      · split
        · exact .onTier v _
        · exact .refl v

/-! ## What stands before the context is taken -/

/-- `t` is `s` as a stream of sequence k starts: it has been used, its pages are warmer, and registers other than AE_ADMITS may
have counted. -/
structure State.Starts (s : State) (k : Nat) (t : State) : Prop where
  ae : t.ae = s.ae
  seq : t.seq k = (s.seq k).map fun q => { q with lastUse := s.usec }
  ops : t.pgt.ops = s.pgt.ops
  copies : t.pgt.copies = s.pgt.copies
  count : t.fd Fd.AE_ADMITS_COUNT = s.fd Fd.AE_ADMITS_COUNT
  only : s.only [.csr, .pgt, .tier] t

/-- An admitted stream is added after the sequence's use and its pages' heat (R99). -/
theorem State.startStream_eq (s : State) (x : Stream) (asked : Nat) (hr : x.region = none) :
    ∃ u, s.Starts x.seq u ∧ s.startStream x asked = u.addStream { x with scanned := s.scan x } := by
  let w := s.heatUp (s.scan x)
  let v := w.modSeq x.seq fun q => { q with lastUse := w.usec }
  let u := if asked != 0 && x.smode = 0 then v.inc Fd.AE_SEL_AS_EXACT_COUNT else v
  have hw : s.Warms w := s.warms_heatUp _
  have hwae : w.ae = s.ae := hw.only.2 .ae (by decide)
  have hwcsr : w.csr = s.csr := hw.only.2 .csr (by decide)
  have husec : w.usec = s.usec := congrArg (· / 100) (hw.only.2 .mtime (by decide))
  have hv : v.seq x.seq = (s.seq x.seq).map fun q => { q with lastUse := s.usec } := by
    rw [State.seq_modSeq, if_pos rfl, husec, State.seq, hw.seqs]
    rfl
  have hu : u.ae = v.ae ∧ u.pgt = v.pgt ∧ u.fd Fd.AE_ADMITS_COUNT = v.fd Fd.AE_ADMITS_COUNT ∧ v.only [.csr] u := by
    dsimp only [u]
    split
    · exact ⟨rfl, rfl, State.fd_setFd_other _ _ _ _ (.inl (by decide)) (by decide), State.only_setFd _ _ _⟩
    · exact ⟨rfl, rfl, rfl, .refl v _⟩
  obtain ⟨huae, hupgt, hufd, huonly⟩ := hu
  have hp := u.warms_prefetchLayers x.seq x.layer
  have hpae : (u.prefetchLayers x.seq x.layer).ae = u.ae := hp.only.2 .ae (by decide)
  refine ⟨u.prefetchLayers x.seq x.layer, ⟨?_, ?_, ?_, ?_, ?_, ?_⟩, ?_⟩
  · rw [hpae, huae]
    exact hwae
  · rw [State.seq, hp.seqs, hupgt]
    exact hv
  · rw [hp.ops, hupgt]
    exact hw.ops
  · rw [hp.copies, hupgt]
    exact hw.copies
  · rw [State.fd_congr (hp.only.2 .csr (by decide)), hufd]
    exact State.fd_congr hwcsr _
  · refine (((hw.only.mono (by simp)).then (State.only_onPgt _ _) (by simp)).then huonly (by simp)).then hp.only (by simp)
  · rw [State.startStream, hr]

end Sys2Proof.Machine

end

section
/-! SUPPORT. A QUERY in its place (R89, R101, R347). -/

namespace Sys2Proof.Machine

section
variable {s : State}

/-- A unit of the scan is a page of the layer below its length (R101). -/
theorem State.mem_scan {x : Stream} {q : Seq} {u : PageUnit} (hq : s.seq x.seq = some q) (h : u ∈ s.scan x) :
    tfind q.pt (ptKey x.layer u.group u.page) = some u.desc ∧ u.group < clsGroups x.def1 ∧ 16 * u.page < x.llen := by
  simp only [State.scan, hq, List.mem_flatMap, List.mem_range, List.mem_filterMap] at h
  obtain ⟨g, hg, p, hp, hu⟩ := h
  have hp' : 16 * p < x.llen := by
    rw [ceilDiv] at hp
    omega
  split at hu
  · cases hu
  · next d hd =>
    split at hu
    · cases hu
    · split at hu
      · cases hu
      · cases hu
        exact ⟨hd, hg, hp'⟩

theorem State.resultKey_zero (part roff bytes : Nat) : s.resultKey part 0 roff bytes = (stOK, none) := rfl

/-! ## The checks of R89 -/

/-- The stream a query becomes. -/
def State.queryStream (s : State) (o : SeqOp) (q : Seq) : Stream :=
  s.mkStream o.payload o.seq (lat o.payload 0 8) (s.partOf o.conduit) o.conduit o.msgseq (q.len (lat o.payload 8 1)) q.def0 q.def1
    (lat o.payload 16 4) (lat o.payload 10 2) 64 (64 + (if qBias o.payload then 4 * lat o.payload 12 2 else 0))

variable {o : SeqOp} {q : Seq} (ho : s.pgt.ops = [o]) (hq : s.seq o.seq = some q)
  (hok : s.handleOk (lat o.payload 0 8) (s.partOf o.conduit) o.seq = true) (hactive : q.sstate = .active)
  (hlayer : lat o.payload 8 1 < clsLayers q.def1) (hwr : o.byWr = none)
include hq hok hactive hlayer hwr

/-- A query whose shape does not fit its class is rejected (step 3 of R89). -/
theorem State.tryQuery_misshapen (hshape : s.shapeBad o.payload (s.partOf o.conduit) q.def0 (clsGroups q.def1) 0 = true) :
    s.tryQuery o = (s.rejectQuery o.conduit o.payload none stFORMAT).endOp o.id := by
  have hcold : (SeqState.active == .cold) = false := by decide
  simp only [State.tryQuery, hq, hok, hactive, hcold, hshape, hwr, Bool.not_true, Bool.false_or, decide_eq_true_eq,
    if_neg (Nat.not_le.mpr hlayer), Bool.false_eq_true, if_false, if_true]

include ho

/-- A query that passes every check starts its stream. -/
theorem State.tryQuery_starts (hshape : s.shapeBad o.payload (s.partOf o.conduit) q.def0 (clsGroups q.def1) 0 = false)
    (hmode : qAmode o.payload ≠ 2)
    (hpos : posOk (qMask o.payload) (lat o.payload 16 4) (lat o.payload 10 2) (lat o.payload 20 4) (q.len (lat o.payload 8 1)) = true)
    (hend : lat o.payload 16 4 + lat o.payload 10 2 ≤ 16777216) (hkey : qRkey o.payload = 0)
    (hroom : s.contextRoom (s.partOf o.conduit) 1 = true) :
    s.tryQuery o = ((s.endOp o.id).startStream (s.queryStream o q) (qSmode o.payload)).1 := by
  have hcold : (SeqState.active == .cold) = false := by decide
  have hahead : ∀ l, (appliedEnd (opsBefore s.pgt.ops o) (lat o.payload 8 1)).getD l = l := by
    intro l
    rw [ho, opsBefore_one]
    rfl
  simp only [State.tryQuery, hq, hok, hactive, hcold, hshape, hwr, hahead, Nat.max_self, hpos, hkey, State.resultKey_zero, hroom, hmode,
    Bool.not_true, Bool.false_or, Bool.or_false, decide_eq_true_eq, decide_false, Bool.false_and, if_neg (Nat.not_le.mpr hlayer),
    if_neg (Nat.not_lt.mpr hend), ne_eq, not_true, Bool.false_eq_true, if_false]
  rfl

end

end Sys2Proof.Machine

end

section
/-! SUPPORT. The commands QUERY, BATCH_QUERY and SUBQUERY, down to the checks (R89, R91, R122, R347). -/

namespace Sys2Proof.Machine

/-! ## QUERY -/

section
variable {s : State} {k m : Nat} {c : Conduit} {p : List Byte} {q : Seq}

/-- The one operation, a query, is checked. -/
theorem State.opStep_query {o : SeqOp} (ho : s.pgt.ops = [o]) (hp : o.phase = .waiting) (hk : o.kind = .query) (ha : s.alone) :
    s.opStep o.id = s.tryQuery o := by
  simp [State.opStep, ho, hp, State.tryBegin, State.admits_of_alone ha, hk]

variable (h : s.takes c.val (lat p 0 8) k q) (hgood : headerBad p false = false)
include h hgood

theorem State.recvNamed_query :
    (s.takeHanded c.val m 0x01).recvNamed c.val m 0x01 p none = s.placed 0x01 k .query c.val m p := by
  obtain ⟨-, -, -, -, hpart, hroute, -, hok, -⟩ := h
  have hpart' : hPart (lat p 0 8) = (s.takeHanded c.val m 0x01).partOf c.val := hpart
  have hroute' : (s.takeHanded c.val m 0x01).route (lat p 0 8) = .here k := hroute
  have hok' : (s.takeHanded c.val m 0x01).handleOk (lat p 0 8) ((s.takeHanded c.val m 0x01).partOf c.val) k = true := hok
  have hnamed : reqHandle 0x01 p = lat p 0 8 := rfl
  have hformat : reqFormatBad 0x01 p = false := hgood
  have hkind : opKind 0x01 = some .query := rfl
  simp only [State.recvNamed, hformat, hnamed, hpart', hroute', hkind, hok', State.placed, ne_eq, not_true, if_false, if_true,
    Bool.false_eq_true]

/-- A query checked in its place at once. -/
theorem State.exec_query {w : W32} (hm : w.toNat = m) {t : State}
    (ht : (s.placed 0x01 k .query c.val m p).tryQuery (s.request k .query c.val m p) = t) (hops : t.pgt.ops = [])
    (hcopies : t.pgt.copies = []) (hheld : t.cust.held = []) : exec (.query c w p) s = .next (s.commit t) := by
  have hplaced : (s.placed 0x01 k .query c.val m p).pgt.ops = [s.request k .query c.val m p] := (State.works_begun (code := 0x01) h.2.1).ops
  have hstep : (s.placed 0x01 k .query c.val m p).opStep (s.request k .query c.val m p).id = t :=
    (State.opStep_query hplaced rfl rfl h.2.2.1).trans ht
  refine (act_next s _ h.1).trans ?_
  rw [hm, State.recvNamed_query h hgood, State.settle_ended hplaced h.2.1.2.1, hstep]
  · rw [hstep, hops]
  · rw [hstep, hcopies]
  · rw [hstep, hheld]

end

/-! ## A refusal -/

theorem resultHeader_refused (tag st : Nat) (raw f32 : Bool) :
    resultHeader tag st raw f32 false 0 0 = le 8 tag ++ le 1 st ++ le 1 ((if raw then 1 else 0) + (if f32 then 2 else 0)) ++ zeros 6 := by
  have hz : le 2 0 ++ le 4 0 = zeros 6 := by decide
  rw [resultHeader, List.append_assoc _ (le 2 0), hz]
  simp

/-- A refused query is a RESULT header (Table 6-3). -/
theorem State.rejectQuery_plain (s : State) (c : Nat) (p : List Byte) {st : Nat} (h : st ≠ stBUSY) :
    s.rejectQuery c p none st = s.send c 0x05 1 (resultHeader (qTag p) st (qRaw p) (qF32 p) false 0 0) .plain := by
  simp [State.rejectQuery, h, State.failRequest]

/-- What has been sent hangs on the conduit before and after. -/
theorem State.sent.congr {s t v u : State} {c op : Nat} {b : List Byte} (h : v.sent c op b t) (hs : v.conduit c = s.conduit c)
    (ht : u.conduit c = t.conduit c) : s.sent c op b u := by
  obtain ⟨cd, cd', m, hcd, hcd', hsent⟩ := h
  exact ⟨cd, cd', m, hs.symm.trans hcd, ht.trans hcd', hsent⟩

section
variable {s : State} {m : W32} {c : Conduit} {p : List Byte} {st : Nat}

/-- A query refused before it takes a place. -/
theorem State.query_refused (hr : s.inReset = false) (hquiet : s.quiet) (hs : s.sends c.val) (hst : st ≠ stBUSY) (hstale : st ≠ stSTALEMAP)
    (hrecv : (s.takeHanded c.val m.toNat 0x01).recvNamed c.val m.toNat 0x01 p none =
      (s.takeHanded c.val m.toNat 0x01).endRequest c.val m.toNat 0x01 p none st []) :
    (Instr.query c m p).gives s fun t =>
      s.sent c.val 0x05 (le 8 (lat p 56 8) ++ le 1 st ++ le 1 ((if qRaw p then 1 else 0) + (if qF32 p then 2 else 0)) ++ zeros 6) t ∧
      t.ae = s.ae ∧ t.pgt = s.pgt := by
  let h := s.takeHanded c.val m.toNat 0x01
  let b := resultHeader (qTag p) st (qRaw p) (qF32 p) false 0 0
  have hsend : h.recvNamed c.val m.toNat 0x01 p none = h.send c.val 0x05 1 b .plain := by
    rw [hrecv, State.endRequest, if_pos ⟨rfl, .inl hstale⟩, State.rejectQuery_plain _ _ _ hst]
  obtain ⟨f, hf⟩ := h.send_plain_eq_onTrl c.val 0x05 1 b
  have hsettle : (h.send c.val 0x05 1 b .plain).settle = h.send c.val 0x05 1 b .plain := by
    rw [hf]
    exact State.settle_quiet _ hquiet.1 hquiet.2.1 hquiet.2.2.1
  have hexec : exec (.query c m p) s = .next (s.commit (h.send c.val 0x05 1 b .plain)) := by
    refine (act_next s _ hr).trans ?_
    rw [hsend, hsettle]
  refine ⟨_, hexec, ?_, ?_, ?_⟩
  · have hsent := State.sent_send h c.val 0x05 1 b .plain hs
    rwa [show b = _ from resultHeader_refused _ _ _ _] at hsent
  · rw [hf]; rfl
  · rw [hf]; rfl

end

end Sys2Proof.Machine

end

section
/-! SUPPORT. A BATCH_QUERY of one entry whose sequence is held here (R90, R91). -/

namespace Sys2Proof.Machine

/-! ## The header of a batch -/

theorem slice_take {p : List Byte} {off n w : Nat} (h : off + n ≤ w) : slice (p.take w) off n = slice p off n := by
  have hsame : ((p.take w).drop off).take n = (p.drop off).take n := by
    rw [List.drop_take, List.take_take, Nat.min_eq_left (by omega)]
  rw [slice, slice, hsame]

theorem lat_take {p : List Byte} {off n w : Nat} (h : off + n ≤ w) : lat (p.take w) off n = lat p off n := by
  rw [lat, lat, slice_take h]

/-! ## The batch as it is admitted -/

/-- The one entry of a table, no stream yet. -/
def soleEntry (e : List Byte) : BatchEntry := ⟨lat e 0 8, lat e 8 4, lat e 12 2, none, none, []⟩

/-- A batch of one entry of a known class, without a region. -/
def State.soleBatch (s : State) (c m : Nat) (p e : List Byte) (q : Seq) : Batch :=
  ⟨c, m, s.partOf c, p.take 64, p.drop 64, some (q.def0, q.def1), s.batchWidth p (s.partOf c) q.def0, [soleEntry e], 0, none, none, false⟩

/-- The tables with batch x, the next of its kind. -/
def Ae.addBatch (a : Ae) (x : Batch) : Ae := { a with batches := tset a.batches a.nextBatch x, nextBatch := a.nextBatch + 1 }

/-- The entry of the batch has its place in the order. -/
def State.entered (s : State) (c m k : Nat) (x : Batch) : State :=
  ((s.onAe (·.addBatch x)).confirm k).takePlace k (.entry (s.ae.nextBatch * 1024)) c m [] none

section
variable {s : State} {c m k : Nat} {p e : List Byte} {q : Seq}

theorem State.entryRoute_here {part layer : Nat} (hroute : s.route (lat e 0 8) = .here k) (hok : s.handleOk (lat e 0 8) part k = true)
    (hq : s.seq k = some q) (hlayer : layer < clsLayers q.def1) : s.entryRoute part layer e = (none, some k) := by
  simp [State.entryRoute, hroute, hok, hq, hlayer]

/-- A batch with an entry that waits goes on. -/
theorem State.finishBatch_of_waiting {b : Nat} {x : Batch} (hx : tfind s.ae.batches b = some x) (hw : x.entries.any (fun e => e.status.isNone) = true) :
    s.finishBatch b = s := by
  simp [State.finishBatch, hx, hw]

theorem State.recvBatch_one (he : e = batchEntryAt p 0) (hgood : headerBad p true = false) (hone : batchN p = 1) (hentry : entryOk e = true)
    (hcount : lat e 12 2 = lat p 10 2) (hroute : s.route (lat e 0 8) = .here k) (hok : s.handleOk (lat e 0 8) (s.partOf c) k = true)
    (hq : s.seq k = some q) (hlayer : lat p 8 1 < clsLayers q.def1)
    (hshape : s.shapeBad p (s.partOf c) q.def0 (clsGroups q.def1) 16 = false) (hkey : qRkey p = 0)
    (hroom : s.contextRoom (s.partOf c) 1 = true) :
    s.recvBatch c m p none = s.entered c m k (s.soleBatch c m p e q) := by
  have hentries : (List.range 1).map (batchEntryAt p) = [e] := by rw [he]; rfl
  have hcountBad : (0 + lat e 12 2 != lat p 10 2) = false := by simp [hcount]
  have hexpected : (s.entered c m k (s.soleBatch c m p e q)).finishBatch s.ae.nextBatch = s.entered c m k (s.soleBatch c m p e q) :=
    State.finishBatch_of_waiting (tfind_tset_same s.ae.batches s.ae.nextBatch _) rfl
  rw [← hexpected]
  simp only [State.recvBatch, hgood, hentries, hcountBad, List.any_cons, List.any_nil, hentry, List.map_cons, List.map_nil,
    State.entryRoute_here hroute hok hq hlayer, List.filterMap_cons, List.filterMap_nil, Option.bind_some, hq, List.head?_cons, Option.map_some,
    bne_self_eq_false, Nat.mul_one, hone, hshape, hkey, State.resultKey_zero, hroom, Bool.not_true, Bool.or_false, Nat.add_zero, Bool.false_eq_true, if_false,
    ne_eq, not_true, List.zip_cons_cons, List.zip_nil_left, List.zipIdx_cons, List.foldl_cons, List.zipIdx_nil, List.foldl_nil, Option.getD_some]
  rfl

end

/-! ## The entry in its place -/

def State.modBatch (s : State) (b : Nat) (f : Batch → Batch) : State := s.onAe fun a => { a with batches := tmod a.batches b f }

/-- The batch of a known class. -/
def Batch.known (x : Batch) (cls : Nat × Nat) (w : Nat) : Batch := { x with cls := some cls, owidth := w }

/-- The batch's first entry with its stream. -/
def Batch.assigned (x : Batch) (j : Option Nat) : Batch :=
  { x with entries := (x.entries.zipIdx).map fun (e, k) => if k = 0 then { e with stream := j } else e }

/-- The stream the first entry of batch b becomes. -/
def State.entryStream (s : State) (o : SeqOp) (q : Seq) (b : Nat) (x : Batch) (e : BatchEntry) : Stream :=
  let kw := (rowWidths (qAmode x.header) q.def0 (s.imgShape (x.part * 8 + qImg x.header))).1
  { s.mkStream (x.header ++ x.rest) o.seq e.handle x.part x.conduit x.msgseq (q.len (lat x.header 8 1)) q.def0 q.def1 e.qpos e.qcount 64
      (batchTable x.header + 16 * batchN x.header + 0 * lat x.header 12 2 * codeBytes (lat x.header 14 1 % 16) kw) with
    batch := some b, entry := 0, rkey := 0, roff := 0, imm := 0 }

section
variable {s t : State} {o : SeqOp} {q : Seq} {b : Nat} {x : Batch} {e : BatchEntry} {j : Option Nat}

/-- The one operation, an entry, is checked. -/
theorem State.opStep_entry {n : Nat} (ho : s.pgt.ops = [o]) (hp : o.phase = .waiting) (hk : o.kind = .entry n) (ha : s.alone) :
    s.opStep o.id = s.tryEntry o n := by
  simp [State.opStep, ho, hp, State.tryBegin, State.admits_of_alone ha, hk]

theorem State.tryEntry_starts (ho : s.pgt.ops = [o]) (hb : tfind s.ae.batches b = some x) (hq : s.seq o.seq = some q)
    (hes : x.entries = [e]) (hcls : x.cls = some (q.def0, q.def1)) (hok : s.handleOk e.handle x.part o.seq = true)
    (hlayer : lat x.header 8 1 < clsLayers q.def1) (hactive : q.sstate = .active) (hmode : qAmode x.header ≠ 2)
    (hpos : posOk (qMask x.header) e.qpos e.qcount (lat x.header 20 4) (q.len (lat x.header 8 1)) = true)
    (hend : e.qpos + e.qcount ≤ 16777216)
    (hstart : ((s.modBatch b (·.known (q.def0, q.def1) (s.batchWidth x.header x.part q.def0))).endOp o.id).startStream
      ((s.modBatch b (·.known (q.def0, q.def1) (s.batchWidth x.header x.part q.def0))).entryStream o q b x e) (qSmode x.header) = (t, j)) :
    s.tryEntry o (b * 1024) = t.modBatch b (·.assigned j) := by
  have hcold : (SeqState.active == .cold) = false := by decide
  have hclass : s.batchClass x (q.def0, q.def1) = stOK := by simp [State.batchClass, hcls]
  have hbatch : b * 1024 / 1024 = b := by omega
  have hentry : b * 1024 % 1024 = 0 := by omega
  have hahead : ∀ l, (appliedEnd (opsBefore s.pgt.ops o) (lat x.header 8 1)).getD l = l := by
    intro l
    rw [ho, opsBefore_one]
    rfl
  simp only [State.tryEntry, hbatch, hentry, hb, hq, hes, hok, hactive, hcold, hclass, List.getElem?_cons_zero, Bool.not_true, Bool.false_or,
    decide_eq_true_eq, if_neg (Nat.not_le.mpr hlayer), State.onAe_pgt, hahead, Nat.max_self, hpos, hmode, decide_false, Bool.false_and,
    Bool.or_false, if_neg (Nat.not_lt.mpr hend), ne_eq, not_true, Bool.false_eq_true, if_false]
  exact congrArg (fun r : State × Option Nat => r.1.modBatch b (·.assigned r.2)) hstart

end

end Sys2Proof.Machine

end

section
/-! SUPPORT. A SUBQUERY whose units all lie in extents lent to its sender (R122). -/

namespace Sys2Proof.Machine

/-- Where the unit entries of a SUBQUERY begin. -/
def subUnitsAt (p : List Byte) : Nat := 96 + if qBias p then 4 * lat p 12 2 else 0

/-- Unit i of a SUBQUERY. -/
def subUnit (p : List Byte) (i : Nat) : PageUnit :=
  let u := slice p (subUnitsAt p + 16 * i) 16
  ⟨⟨.hbm, 0, lat u 0 8 % 2 ^ 40⟩, lat u 8 4, lat u 12 4 % 2 ^ 20, bits (lat u 12 4) 25 20, .local_, 16, false, []⟩

/-- What the stream of a SUBQUERY works for. -/
def subWork (node : Nat) (p : List Byte) : LenderWork :=
  ⟨node, lat p 64 4 % 2 ^ 16, bits (lat p 64 4) 27 16, bits (lat p 64 4) 31 28, node, lat p 76 1 % 2 == 1, false, false, 0, 0, 0, none,
    lat p 72 4⟩

/-- The stream a SUBQUERY becomes. -/
def State.subStream (s : State) (c q : Nat) (p : List Byte) : Stream :=
  { s.mkStream p (2 ^ 30) (lat p 0 8) (s.partOf c) c q (lat p 68 4) (lat p 88 8 % 2 ^ 42) ((bits (lat p 88 8) 47 42 + 1 - 1) + 255 * 256)
      (lat p 16 4) (lat p 10 2) 96 (subUnitsAt p + 16 * lat p 72 4) with
    smode := 0, rkey := 0, lender := some (subWork (s.peerOf c) p)
    scanned := ((List.range (lat p 72 4)).map (subUnit p)).map fun u => { u with slots := min 16 (lat p 68 4 - 16 * u.page) } }

section
variable {s : State} {c q : Nat} {p : List Byte}

/-- A field of three bytes that is zero is zero in its parts. -/
theorem lat_parts_zero {off : Nat} (hlong : off + 3 ≤ p.length) (h : lat p off 3 = 0) : lat p off 1 = 0 ∧ lat p (off + 1) 2 = 0 := by
  rw [lat, slice_eq_map_range p hlong] at h
  rw [lat, lat, slice_eq_map_range p (by omega), slice_eq_map_range p (by omega)]
  simp [List.range_succ, unle, Nat.add_assoc] at h ⊢
  omega

theorem State.recvSub_lent (hlong : 96 ≤ p.length) (hgood : headerBad p false = false) (hflags : lat p 76 1 < 2) (hzero : lat p 77 3 = 0)
    (hsendto : lat p 80 4 = s.peerOf c) (hnode : lat p 80 4 < 2 ^ 20) (hzero' : lat p 84 4 = 0) (hdef : lat p 88 8 < 2 ^ 48)
    (hllen : lat p 68 4 < 2 ^ 25) (hpos : 0 < lat p 72 4) (hn : lat p 72 4 < 2 ^ 26) (hmode : qAmode p ≠ 2)
    (hlatent : qAmode p = 0 ↔ latent (lat p 88 8 % 2 ^ 42) = false)
    (hgroups : qAmode p = 0 → lat p 12 2 % (bits (lat p 88 8) 47 42 + 1) = 0)
    (hclass : classDefOk (lat p 88 8 % 2 ^ 42) (bits (lat p 88 8) 47 42 + 1) = true)
    (hsize : p.length = 96 + 16 * lat p 72 4 + rowsSize p (rowWidths (qAmode p) (lat p 88 8 % 2 ^ 42) (s.imgShape 0)).1)
    (hlent : ∀ i < lat p 72 4, (s.lentAt (s.peerOf c) (s.partOf c) (subUnit p i).loc.frame
      (frameUnits (frameCode (lat p 88 8 % 2 ^ 42)))).isSome = true)
    (hroom : s.contextRoom (s.partOf c) 1 = true) (hcredits : s.creditsUsed ≤ s.fd Fd.MRG_CREDIT_POOL_MAX) :
    s.recvSub c q p = (s.addStream (s.subStream c q p)).1 := by
  obtain ⟨hgroupIn, hreserved⟩ : lat p 77 1 = 0 ∧ lat p 78 2 = 0 := lat_parts_zero (by omega) hzero
  have hvia : (lat p 76 1 / 4 % 2 == 1) = false := by simp; omega
  have hrelay : (lat p 76 1 / 2 % 2 == 1) = false := by simp; omega
  have hnode' : lat p 80 4 % 2 ^ 20 = s.peerOf c := by omega
  have hn' : lat p 72 4 % 2 ^ 26 = lat p 72 4 := by omega
  have hunits : ((List.range (lat p 72 4)).map (subUnit p)).all (fun u =>
      (s.lentAt (s.peerOf c) (s.partOf c) u.loc.frame (frameUnits (frameCode (lat p 88 8 % 2 ^ 42)))).isSome) = true := by
    simpa using hlent
  have hext : (decide (2 ^ 25 ≤ lat p 68 4) || decide (2 ^ 26 ≤ lat p 72 4) || decide (8 ≤ lat p 76 1) || decide (16 ≤ lat p 77 1) ||
      lat p 78 2 != 0 || decide (2 ^ 20 ≤ lat p 80 4) || lat p 84 4 != 0 || decide (2 ^ 48 ≤ lat p 88 8) || (!false && lat p 77 1 != 0)) = false := by
    simp only [Bool.or_eq_false_iff, decide_eq_false_iff_not, bne_eq_false_iff_eq, Bool.not_false, Bool.true_and]
    omega
  have hshape : ((qAmode p == 0) == latent (lat p 88 8 % 2 ^ 42) || qAmode p == 2 ||
      (qAmode p == 0 && lat p 12 2 % (bits (lat p 88 8) 47 42 + 1) != 0)) = false := by
    generalize latent (lat p 88 8 % 2 ^ 42) = l at hlatent
    by_cases h0 : qAmode p = 0
    · simp [h0, hlatent.mp h0, hgroups h0]
    · simp [h0, Bool.eq_true_of_not_eq_false (mt hlatent.mpr h0), hmode]
  have hshort : decide (p.length < 96) = false := by simpa using hlong
  have hnone : decide (lat p 72 4 = 0) = false := by simpa using hpos.ne'
  have hfits : (p.length != 96 + 16 * lat p 72 4 + rowsSize p (rowWidths (qAmode p) (lat p 88 8 % 2 ^ 42) (s.imgShape 0)).1) = false := by
    simpa using hsize
  have hcredit : ¬ (max 1 (s.fd Fd.MRG_CTL_STREAM_CREDITS) < 0 ∨ s.fd Fd.MRG_CREDIT_POOL_MAX < s.creditsUsed + 0) := by omega
  delta subUnit subUnitsAt at hunits
  dsimp only at hunits
  simp only [State.recvSub, hvia, hrelay, hnode', hn', hgood, hext, hshape, hclass, hroom, hunits, hshort, hnone, hfits, hcredit,
    beq_self_eq_true, Bool.or_false, Bool.not_true, Bool.false_eq_true, if_false, and_false, ne_eq, not_true]
  rfl

end

end Sys2Proof.Machine

end

section
/-! The statement of the admission of QUERY, BATCH_QUERY and SUBQUERY. -/

namespace Sys2Proof.Proofs.Admission

open Sys2Proof Sys2Proof.Machine

/-! ## QUERY -/

section
variable {s : State} {c : Conduit} {m : W32} {p : List Byte} {k : Nat} {q : Seq}

theorem only_placed (s : State) (code k : Nat) (kind : OpKind) (c m : Nat) (p : List Byte) :
    s.only [.pgt, .twn, .trl] (s.placed code k kind c m p) := by
  have h1 : s.only [.pgt, .twn, .trl] (s.takeHanded c m code) := (s.only_onTrl _).mono (by decide)
  exact (h1.then (State.only_onTwn _ _) (by decide)).then (State.only_onPgt _ _) (by decide)

theorem query_gives (h : s.takes c.val (lat p 0 8) k q) (hgood : headerBad p false = false) (hlayer : lat p 8 1 < clsLayers q.def1)
    (hmode : qAmode p ≠ 2) (hshape : s.shapeBad p (s.partOf c.val) q.def0 (clsGroups q.def1) 0 = false)
    (hpos : posOk (qMask p) (lat p 16 4) (lat p 10 2) (lat p 20 4) (q.len (lat p 8 1)) = true)
    (hend : lat p 16 4 + lat p 10 2 ≤ 16777216) (hkey : qRkey p = 0) (hroom : s.contextRoom (s.partOf c.val) 1 = true)
    (hfree : ∃ j < 65536, s.stream j = none) :
    (Instr.query c m p).gives s fun t =>
      (∃ i x, s.stream i = none ∧ t.stream i = some x ∧ x.seq = k ∧ x.handle = lat p 0 8 ∧ x.tag = lat p 56 8 ∧ x.llen = q.len (lat p 8 1) ∧
        x.epoch = s.pgt.epoch ∧ x.layer = lat p 8 1 ∧ x.qpos = lat p 16 4 ∧ x.qcount = lat p 10 2 ∧ x.qheads = lat p 12 2 ∧
        x.part = s.partOf c.val ∧ x.conduit = c.val ∧ x.msgseq = m.toNat ∧ x.cstate = .dispatch ∧ x.items = [] ∧ x.recs = [] ∧ x.taken = 0 ∧
        x.deadline = s.usec + 1000 * max 1 (s.fd Fd.AE_TIMEOUT_MS) ∧
        (∀ u ∈ x.scanned, tfind q.pt (ptKey x.layer u.group u.page) = some u.desc ∧ u.group < clsGroups q.def1 ∧
          16 * u.page < q.len (lat p 8 1)) ∧
        ∀ j, j ≠ i → t.stream j = s.stream j) ∧
      t.fd Fd.AE_ADMITS_COUNT = min (s.fd Fd.AE_ADMITS_COUNT + 1) (2 ^ 64 - 1) ∧
      t.seq k = some { q with lastUse := s.usec } ∧ t.pgt.ops = [] ∧ s.only [.csr, .ae, .pgt, .tier, .twn, .trl, .free] t := by
  obtain ⟨hr, ⟨hops, hcopies, hheld, hborrowed⟩, halone, hsends, hpart, hroute, hq, hok, hactive⟩ := h
  let v := s.placed 0x01 k .query c.val m.toNat p
  let o := s.request k .query c.val m.toNat p
  have hplaced : v.pgt.ops = [o] := (State.works_begun (code := 0x01) ⟨hops, hcopies, hheld, hborrowed⟩).ops
  let w := v.endOp o.id
  let x := v.queryStream o q
  have htry : v.tryQuery o = (w.startStream x (qSmode p)).1 :=
    State.tryQuery_starts hplaced hq hok hactive hlayer rfl hshape hmode hpos hend hkey hroom
  obtain ⟨u, hstarts, hstart⟩ := w.startStream_eq x (qSmode p) rfl
  have hae : u.ae = s.ae := hstarts.ae
  have hstreams : ∀ j, u.stream j = s.stream j := fun j => congrArg (fun a : Ae => tfind a.streams j) hae
  obtain ⟨i, t, hadd, hadm⟩ := u.addStream_admits { x with scanned := w.scan x } (by simpa only [hstreams] using hfree)
  have hpgt : t.pgt = u.pgt := hadm.only.2 .pgt (by decide)
  have hwops : w.pgt.ops = [] := by
    change v.pgt.ops.filter _ = []
    rw [hplaced]
    simp
  have honly : s.only [.csr, .ae, .pgt, .tier, .twn, .trl, .free] t := by
    have hw : s.only [.csr, .ae, .pgt, .tier, .twn, .trl, .free] w :=
      ((only_placed s _ _ _ _ _ _).mono (by simp)).then (State.only_onPgt _ _) (by simp)
    exact (hw.then hstarts.only (by simp)).then hadm.only (by simp)
  have hexec : exec (.query c m p) s = .next (s.commit t) := by
    refine State.exec_query ⟨hr, ⟨hops, hcopies, hheld, hborrowed⟩, halone, hsends, hpart, hroute, hq, hok, hactive⟩ hgood rfl ?_ ?_ ?_ ?_
    · exact htry.trans (by rw [hstart, hadd])
    · rw [hpgt, hstarts.ops, hwops]
    · rw [hpgt, hstarts.copies]
      change v.pgt.copies.filter _ = []
      rw [show v.pgt.copies = [] from hcopies]
      rfl
    · rw [show t.cust = s.cust from honly.2 .cust (by decide), hheld]
  obtain ⟨a, ha⟩ := hadm.stream
  have hunits : ∀ z ∈ w.scan x, tfind q.pt (ptKey (lat p 8 1) z.group z.page) = some z.desc ∧ z.group < clsGroups q.def1 ∧
      16 * z.page < q.len (lat p 8 1) := fun z hz => State.mem_scan (s := w) (x := x) hq hz
  refine ⟨_, hexec, ⟨i, _, (hstreams i).symm.trans hadm.room, ha, rfl, rfl, rfl, rfl, rfl, rfl, rfl, rfl, rfl, rfl, rfl, rfl, rfl, rfl, rfl, rfl,
    rfl, hunits, fun j hj => (hadm.others j hj).trans (hstreams j)⟩, ?_, ?_, ?_, State.only_commit honly⟩
  · exact hadm.count.trans (by rw [hstarts.count]; rfl)
  · change tfind t.pgt.seqs k = _
    rw [hpgt]
    exact hstarts.seq.trans (by rw [show w.seq x.seq = some q from hq]; rfl)
  · change t.pgt.ops = []
    rw [hpgt, hstarts.ops, hwops]

/-- A query whose shape does not fit its class. -/
theorem query_misshapen_gives (h : s.takes c.val (lat p 0 8) k q) (hgood : headerBad p false = false)
    (hlayer : lat p 8 1 < clsLayers q.def1) (hshape : s.shapeBad p (s.partOf c.val) q.def0 (clsGroups q.def1) 0 = true) :
    (Instr.query c m p).gives s fun t => (∃ b, s.sent c.val 0x05 (le 8 (lat p 56 8) ++ le 1 stFORMAT ++ b) t) ∧ t.ae = s.ae := by
  obtain ⟨hr, ⟨hops, hcopies, hheld, hborrowed⟩, halone, hsends, hpart, hroute, hq, hok, hactive⟩ := h
  let v := s.placed 0x01 k .query c.val m.toNat p
  let o := s.request k .query c.val m.toNat p
  let b := resultHeader (qTag p) stFORMAT (qRaw p) (qF32 p) false 0 0
  have hb : b = le 8 (lat p 56 8) ++ le 1 stFORMAT ++ (le 1 ((if qRaw p then 1 else 0) + (if qF32 p then 2 else 0)) ++ zeros 6) := by
    rw [← List.append_assoc]
    exact resultHeader_refused (qTag p) stFORMAT (qRaw p) (qF32 p)
  have hplaced : v.pgt.ops = [o] := (State.works_begun (code := 0x01) ⟨hops, hcopies, hheld, hborrowed⟩).ops
  have htry : v.tryQuery o = (v.send c.val 0x05 1 b .plain).endOp o.id := by
    rw [State.tryQuery_misshapen (s := v) (o := o) hq hok hactive hlayer rfl hshape, State.rejectQuery_plain _ _ _ (by decide)]
    rfl
  obtain ⟨f, hf⟩ := v.send_plain_eq_onTrl c.val 0x05 1 b
  have hexec : exec (.query c m p) s = .next (s.commit ((v.send c.val 0x05 1 b .plain).endOp o.id)) := by
    refine State.exec_query ⟨hr, ⟨hops, hcopies, hheld, hborrowed⟩, halone, hsends, hpart, hroute, hq, hok, hactive⟩ hgood rfl htry ?_ ?_ ?_
    · rw [hf]
      change v.pgt.ops.filter _ = []
      rw [hplaced]
      simp
    · rw [hf]
      change v.pgt.copies.filter _ = []
      rw [show v.pgt.copies = [] from hcopies]
      rfl
    · rw [hf]
      exact hheld
  refine ⟨_, hexec, ⟨le 1 ((if qRaw p then 1 else 0) + (if qF32 p then 2 else 0)) ++ zeros 6, ?_⟩, ?_⟩
  · have hsent : v.sent c.val 0x05 b (v.send c.val 0x05 1 b .plain) := State.sent_send v c.val 0x05 1 b .plain hsends
    have hsame : v.trl.conduits = s.trl.conduits := rfl
    rw [← hb]
    exact hsent.congr (congrArg (tfind · c.val) hsame) rfl
  · rw [hf]
    exact (only_placed s 0x01 k .query c.val m.toNat p).2 .ae (by decide)

end

/-! ## BATCH_QUERY -/

section
variable {s : State} {c : Conduit} {m : W32} {p e : List Byte} {k : Nat} {q : Seq}

theorem batchQuery_gives (he : e = slice p (64 + if qBias p then 4 * lat p 12 2 else 0) 16) (h : s.takes c.val (lat e 0 8) k q)
    (hgood : headerBad p true = false) (hone : lat p 0 2 % 2 ^ 10 = 1) (hentry : entryOk e = true) (hcount : lat e 12 2 = lat p 10 2)
    (hlayer : lat p 8 1 < clsLayers q.def1) (hmode : qAmode p ≠ 2)
    (hshape : s.shapeBad p (s.partOf c.val) q.def0 (clsGroups q.def1) 16 = false)
    (hpos : posOk (qMask p) (lat e 8 4) (lat e 12 2) (lat p 20 4) (q.len (lat p 8 1)) = true)
    (hend : lat e 8 4 + lat e 12 2 ≤ 16777216) (hkey : qRkey p = 0) (hroom : s.contextRoom (s.partOf c.val) 1 = true)
    (hfree : ∃ j < 65536, s.stream j = none) :
    (Instr.batchQuery c m p).gives s fun t =>
      ∃ i x b, s.stream i = none ∧ t.stream i = some x ∧ x.seq = k ∧ x.batch = some s.ae.nextBatch ∧ x.entry = 0 ∧
        x.llen = q.len (lat p 8 1) ∧ x.qpos = lat e 8 4 ∧ x.qcount = lat e 12 2 ∧ tfind t.ae.batches s.ae.nextBatch = some b ∧
        b.conduit = c.val ∧ b.entries.map (·.stream) = [some i] ∧ t.ae.nextBatch = s.ae.nextBatch + 1 ∧ t.pgt.ops = [] := by
  obtain ⟨hr, ⟨hops, hcopies, hheld, -⟩, halone, -, -, hroute, hq, hok, hactive⟩ := h
  let b := s.ae.nextBatch
  let h := s.takeHanded c.val m.toNat 0x02
  let x := h.soleBatch c.val m.toNat p e q
  let v := h.entered c.val m.toNat k x
  let o := s.request k (.entry (b * 1024)) c.val m.toNat []
  have hrecv : h.recvBatch c.val m.toNat p none = v :=
    State.recvBatch_one (s := h) he hgood hone hentry hcount hroute hok hq hlayer hshape hkey hroom
  have hentered : v.pgt.ops = [o] := by
    change s.pgt.ops ++ [o] = [o]
    rw [hops, List.nil_append]
  let g := v.modBatch b (·.known (q.def0, q.def1) (v.batchWidth x.header x.part q.def0))
  let w := g.endOp o.id
  let y := g.entryStream o q b x (soleEntry e)
  obtain ⟨u, hstarts, hstart⟩ := w.startStream_eq y (qSmode x.header) rfl
  have hae : u.ae = g.ae := hstarts.ae
  have hgstreams : g.ae.streams = s.ae.streams := rfl
  have hstreams : ∀ j, u.stream j = s.stream j := fun j => by rw [State.stream, hae, hgstreams, State.stream]
  obtain ⟨i, t, hadd, hadm⟩ := u.addStream_admits { y with scanned := w.scan y } (by simpa only [hstreams] using hfree)
  have hlat : ∀ off n, off + n ≤ 64 → lat x.header off n = lat p off n := fun off n => lat_take
  have hamode : qAmode x.header = qAmode p := congrArg (· % 4) (hlat 9 1 (by decide))
  have hmask : qMask x.header = qMask p := congrArg (· / 16 % 4) (hlat 9 1 (by decide))
  have hlayer' : lat x.header 8 1 = lat p 8 1 := hlat 8 1 (by decide)
  have hbatch : tfind v.ae.batches b = some x := tfind_tset_same s.ae.batches b x
  have htry : v.tryEntry o (b * 1024) = t.modBatch b (·.assigned (some i)) := by
    refine State.tryEntry_starts hentered hbatch hq rfl rfl hok (hlayer' ▸ hlayer) hactive (hamode ▸ hmode) ?_ hend (hstart.trans hadd)
    rw [hmask, hlayer', hlat 20 4 (by decide)]
    exact hpos
  have hstep : v.opStep o.id = t.modBatch b (·.assigned (some i)) := (State.opStep_entry hentered rfl rfl halone).trans htry
  have hpgt : t.pgt = u.pgt := hadm.only.2 .pgt (by decide)
  have hwops : w.pgt.ops = [] := by
    change v.pgt.ops.filter _ = []
    rw [hentered]
    simp
  have htops : t.pgt.ops = [] := by rw [hpgt, hstarts.ops, hwops]
  have htcopies : t.pgt.copies = [] := by
    rw [hpgt, hstarts.copies]
    change s.pgt.copies.filter _ = []
    rw [hcopies]
    rfl
  have htheld : t.cust.held = [] := by
    rw [show t.cust = u.cust from hadm.only.2 .cust (by decide), show u.cust = w.cust from hstarts.only.2 .cust (by decide)]
    exact hheld
  have hexec : exec (.batchQuery c m p) s = .next (s.commit (t.modBatch b (·.assigned (some i)))) := by
    refine (act_next s _ hr).trans ?_
    change Host.Outcome.next (s.commit (h.recvBatch c.val m.toNat p none).settle) = _
    rw [hrecv, State.settle_ended hentered hcopies (by rw [hstep]; exact htops) (by rw [hstep]; exact htcopies) (by rw [hstep]; exact htheld),
      hstep]
  have hfound : tfind t.ae.batches b = some (x.known (q.def0, q.def1) (v.batchWidth x.header x.part q.def0)) := by
    rw [hadm.batches, hae]
    exact (tfind_tmod_same v.ae.batches b _).trans (congrArg (Option.map _) hbatch)
  have hassigned : tfind (tmod t.ae.batches b (·.assigned (some i))) b =
      some ((x.known (q.def0, q.def1) (v.batchWidth x.header x.part q.def0)).assigned (some i)) :=
    (tfind_tmod_same t.ae.batches b _).trans (congrArg (Option.map _) hfound)
  obtain ⟨a, ha⟩ := hadm.stream
  have hnext : t.ae.nextBatch = b + 1 := by rw [hadm.nextBatch, hae]; rfl
  exact ⟨_, hexec, i, _, _, (hstreams i).symm.trans hadm.room, ha, rfl, rfl, rfl, congrArg q.len hlayer', rfl, rfl, hassigned, rfl, rfl,
    hnext, htops⟩

end

/-! ## SUBQUERY -/

section
variable {s : State} {c : Conduit} {m : W32} {p : List Byte}

theorem subStream_units {s : State} {c q j : Nat} {u : PageUnit} (h : (s.subStream c q p).scanned[j]? = some u) :
    u.loc = (subUnit p j).loc ∧ u.page = (subUnit p j).page := by
  change (((List.range (lat p 72 4)).map (subUnit p)).map _)[j]? = some u at h
  rw [List.getElem?_map, List.getElem?_map] at h
  obtain ⟨v, hv, rfl⟩ := Option.map_eq_some_iff.mp h
  obtain ⟨i, hi, rfl⟩ := Option.map_eq_some_iff.mp hv
  obtain ⟨hlt, hget⟩ := List.getElem?_eq_some_iff.mp hi
  rw [List.getElem_range] at hget
  subst hget
  exact ⟨rfl, rfl⟩

theorem subquery_gives (hr : s.inReset = false) (hfree : ∃ j < 65536, s.stream j = none)
    (hrecv : (s.takeHanded c.val m.toNat 0x03).recvSub c.val m.toNat p =
      ((s.takeHanded c.val m.toNat 0x03).addStream ((s.takeHanded c.val m.toNat 0x03).subStream c.val m.toNat p)).1) :
    (Instr.subquery c m p).gives s fun t =>
      (∃ i x w, s.stream i = none ∧ t.stream i = some x ∧ x.lender = some w ∧ w.node = s.peerOf c.val ∧ w.hstream = lat p 64 4 % 2 ^ 16 ∧
        w.sub = bits (lat p 64 4) 27 16 ∧ w.subgen = bits (lat p 64 4) 31 28 ∧ w.hold = (lat p 76 1 % 2 == 1) ∧ w.nunits = lat p 72 4 ∧
        x.llen = lat p 68 4 ∧ x.smode = 0 ∧ x.handle = lat p 0 8 ∧ x.scanned.length = lat p 72 4 ∧
        ∀ j u, x.scanned[j]? = some u → u.loc = (subUnit p j).loc ∧ u.page = (subUnit p j).page) ∧
      t.pgt = s.pgt ∧ s.only [.csr, .ae, .trl, .free] t := by
  let h := s.takeHanded c.val m.toNat 0x03
  let x := h.subStream c.val m.toNat p
  have hh : s.only [.csr, .ae, .trl, .free] h := (s.only_onTrl _).mono (by simp)
  obtain ⟨i, t, hadd, hadm⟩ := h.addStream_admits x hfree
  have honly : s.only [.csr, .ae, .trl, .free] t := hh.then hadm.only (by simp)
  have hexec : exec (.subquery c m p) s = .next (s.commit t) := by
    refine (act_next s _ hr).trans ?_
    rw [hrecv, hadd]
  obtain ⟨a, ha⟩ := hadm.stream
  have hlen : x.scanned.length = lat p 72 4 := by
    change (((List.range (lat p 72 4)).map (subUnit p)).map _).length = _
    rw [List.length_map, List.length_map, List.length_range]
  exact ⟨_, hexec, ⟨i, _, subWork (s.peerOf c.val) p, hadm.room, ha, rfl, rfl, rfl, rfl, rfl, rfl, rfl, rfl, rfl, rfl, hlen,
    fun j u hu => subStream_units (s := h) (c := c.val) (q := m.toNat) hu⟩, honly.2 .pgt (by decide), State.only_commit honly⟩

end

/-- Settles O44: a query that passes R89 is alone in the order, so its check in its place starts the stream in the pass that
follows; a refusal is a RESULT header; the one entry of a batch is checked as a query is (R91); a SUBQUERY takes a context at
once (R122). -/
theorem queryAdmission : Obligations.QueryAdmission := by
  intro s c m p
  refine ⟨fun k q htakes => ⟨?_, ?_⟩, ?_, ?_, ?_, ?_⟩
  · intro hgood hlayer hmode hshape hpos hend hkey hroom hfree
    exact query_gives htakes hgood hlayer hmode hshape hpos hend hkey hroom hfree
  · intro hlayer hgood hshape
    exact query_misshapen_gives htakes hgood hlayer hshape
  · intro hr hquiet hsends hbad
    exact State.query_refused hr hquiet hsends (by decide) (by decide) (State.recvNamed_malformed _ _ _ _ _ hbad)
  · intro hr hquiet hsends hgood hpart hroute
    exact State.query_refused hr hquiet hsends (by decide) (by decide) (State.recvNamed_unknown hgood hpart hroute)
  · intro k q e l htakes hgood hone hentry hcount hlayer hmode hshape hpos hend hkey hroom hfree
    exact batchQuery_gives rfl htakes hgood hone hentry hcount hlayer hmode hshape hpos hend hkey hroom hfree
  · intro d0 groups n unit hr hlong hgood hflags hzero hsendto hnode hzero' hdef hllen hpos hn hmode hlatent hgroups hclass hsize hlent hroom
      hcredits hfree
    exact subquery_gives hr hfree (State.recvSub_lent (s := s.takeHanded c.val m.toNat 0x03) hlong hgood hflags hzero hsendto hnode hzero' hdef
      hllen hpos hn hmode hlatent hgroups hclass hsize hlent hroom hcredits)

end Sys2Proof.Proofs.Admission

end

section
/-! SUPPORT. Records merged into a stream's rows, answers of lenders and grants (R115, R116, R123, R125). -/

namespace Sys2Proof.Machine

/-- In a table no key of which stands twice, each entry is the one found at its key. -/
theorem tfind_of_mem {α : Type} {k : Nat} {x : α} : ∀ {t : Tbl α}, (t.map Prod.fst).Nodup → (k, x) ∈ t → tfind t k = some x := by
  intro t
  induction t with
  | nil => exact fun _ h => absurd h List.not_mem_nil
  | cons e t ih =>
    intro hnodup h
    obtain ⟨hfirst, hrest⟩ := List.nodup_cons.mp hnodup
    obtain rfl | h := List.mem_cons.mp h
    · exact if_pos rfl
    · have hne : e.1 ≠ k := fun heq => hfirst (heq ▸ List.mem_map_of_mem (f := Prod.fst) h)
      exact (if_neg hne).trans (ih hrest h)

theorem State.only_takeHanded (s : State) (c q op : Nat) : s.only [.trl] (s.takeHanded c q op) := s.only_onTrl _

/-! ## A record merged (R115, R116) -/

/-- The stream with a record merged into its row. -/
def Stream.merged (x : Stream) (r : Rec) : Stream := { x with recs := tset x.recs r.row (mergeRec (x.recAt r.row) r) }

theorem Stream.recAt_merged_same (x : Stream) (r : Rec) : (x.merged r).recAt r.row = mergeRec (x.recAt r.row) r := by
  rw [Stream.recAt, Stream.merged, tfind_tset_same, Option.getD_some]

theorem Stream.recAt_merged_ne (x : Stream) (r : Rec) {k : Nat} (h : k ≠ r.row) : (x.merged r).recAt k = x.recAt k := by
  rw [Stream.recAt, Stream.merged, tfind_tset_ne _ _ h, ← Stream.recAt]

/-- The record taken off the queue of the merge units. -/
def State.recordTaken (s : State) (m : MergeItem) : State := s.onAe fun a => { a with mergeQ := eraseFirst (fun y => y == m) a.mergeQ }

section
variable {s : State} {i : Nat} {x : Stream}

/-- A stream with an item under way is not collected (R118). -/
theorem State.collect_of_unfinished (hx : s.stream i = some x) (hitem : ∃ it ∈ x.items, it.istate ≠ .done) : s.collect i = s := by
  obtain ⟨it, hmem, hstate⟩ := hitem
  have hitems : x.items.all (fun it => it.istate == .done) = false :=
    List.all_eq_false.mpr ⟨it, hmem, by simpa using hstate⟩
  have hsettled : s.settled i x = false := by simp only [State.settled, hitems, Bool.false_and]
  simp only [State.collect, hx, hsettled, Bool.not_false, Bool.or_true, if_true]

/-- A merge unit's record of a stream that goes on is merged into its row. -/
theorem State.mergeOne_of_local {u : Nat} {m : MergeItem} (hfirst : s.ae.mergeQ.find? (fun m => s.mergeUnit m.stream m.r.row == u) = some m)
    (hx : s.stream m.stream = some x) (hgen : x.gen = m.gen) (hsub : m.sub = none) (hitem : ∃ it ∈ x.items, it.istate ≠ .done) :
    s.mergeOne u = (s.recordTaken m).modStream m.stream (·.merged m.r) := by
  have hx' : (s.recordTaken m).stream m.stream = some x := hx
  have hmerge := State.modStream_congr hx' (g := (·.merged m.r))
    (f := fun x => if x.gen = m.gen then { x with recs := tset x.recs m.r.row (mergeRec (x.recAt m.r.row) m.r) } else x) (if_pos hgen)
  have hblock : ∀ t : State, t.blockMerged m = t := by
    intro t
    simp only [State.blockMerged, hsub]
  have hcollect := State.collect_of_unfinished (State.stream_modStream_same hx' (·.merged m.r)) hitem
  simp only [State.mergeOne, hfirst]
  rw [← State.recordTaken, hmerge, hblock, hcollect]

/-! ## A PARTIAL (R123) -/

/-- The stream whose SUBQUERY in the slot has been answered. -/
def Stream.landed (x : Stream) (k : Nat) : Stream := { x with subs := x.subs.map fun z => if z.sub = k then { z with landed := true } else z }

variable {p : List Byte}

/-- A good block of a stream with rows waits for the merge units. -/
theorem State.homeAnswer_of_good {y : SubQuery} (hgood : blockGood x p = true) (hmembers : y.members = []) (hrows : 0 < x.rowCount) :
    s.homeAnswer i x y p = (s.modStream i (·.landed y.sub)).queueBlock i x p y.sub false := by
  simp only [State.homeAnswer, hgood, hmembers, List.foldl_nil, if_true, if_neg hrows.ne']
  rfl

/-- The answer to a SUBQUERY outstanding at its home. -/
theorem State.recvPartial_of_outstanding {y : SubQuery} (hx : s.stream (lat p 8 4 % 2 ^ 16) = some x) (hhandle : x.handle = lat p 0 8)
    (hhome : x.lender = none) (hstate : x.cstate = .running)
    (hsub : x.subs.find? (fun y => y.sub == bits (lat p 8 4) 27 16 && y.gen == bits (lat p 8 4) 31 28 && !y.landed) = some y) :
    s.recvPartial p = s.homeAnswer (lat p 8 4 % 2 ^ 16) x y p := by
  have hmatch : x.handle = lat p 0 8 ∧ x.lender.isNone ∧ x.cstate ≠ .aborting := ⟨hhandle, by rw [hhome]; rfl, by rw [hstate]; decide⟩
  simp only [State.recvPartial, hx, Option.bind_some, if_pos hmatch, hsub, Option.map_some]

/-- An answer whose HANDLE no stream has is stale. -/
theorem State.recvPartial_of_unknown (hnone : ∀ j x, s.stream j = some x → x.handle ≠ lat p 0 8) (htable : twf s.ae.streams = true) :
    s.recvPartial p = s.inc Fd.MRG_STALE_COUNT := by
  unfold State.recvPartial
  dsimp only
  split
  · next heq =>
    obtain ⟨x, hx, hmatch⟩ := Option.bind_eq_some_iff.mp heq
    rw [if_neg fun h => hnone _ x hx h.1] at hmatch
    exact nomatch hmatch
  · split
    · next j x heq =>
      have hfound : s.stream j = some x := tfind_of_mem (nodup_keys_of_keysAbove htable) (List.mem_of_find?_eq_some heq)
      have hhandle : x.handle = lat p 0 8 := by
        have hkey := List.find?_some heq
        simp only [Bool.and_assoc] at hkey
        exact beq_iff_eq.mp (Bool.and_eq_true_iff.mp hkey).1
      exact absurd hhandle (hnone j x hfound)
    · rfl

/-! ## A GRANT (R125) -/

/-- A lender's stream whose partial may leave once it is computed. -/
def Stream.granted (x : Stream) : Stream := { x with lender := x.lender.map fun w => { w with granted := true } }

/-- With no partial held back the grant is kept with the stream. -/
theorem State.releaseHeld_of_none_held (hheld : ∀ d ∈ s.trl.conduits, ∀ m ∈ d.2.queue, m.hold = false) :
    s.releaseHeld i x = s.modStream i fun _ => x.granted := by
  have hnone : s.trl.conduits.find? (fun c => c.2.queue.any (fun m => m.purpose == .partialOf i && m.hold)) = none := by
    refine List.find?_eq_none.mpr fun d hd => ?_
    rw [Bool.not_eq_true, List.any_eq_false]
    intro m hm
    rw [hheld d hd m hm, Bool.and_false]
    exact Bool.false_ne_true
  simp only [State.releaseHeld, hnone]
  rfl

end

end Sys2Proof.Machine

end

section
/-! The statement of partials, merging and grants. -/

namespace Sys2Proof.Proofs.Partials
open Sys2Proof Sys2Proof.Machine

section
variable {s : State} {x : Stream}

/-! ## Merging -/

theorem mergeRecord_gives {u : Fin 4} {m : MergeItem} (hr : s.inReset = false)
    (hfirst : s.ae.mergeQ.find? (fun m => s.mergeUnit m.stream m.r.row == u.val) = some m) (hx : s.stream m.stream = some x)
    (hgen : x.gen = m.gen) (hsub : m.sub = none) (hitem : ∃ it ∈ x.items, it.istate ≠ .done) :
    (Instr.mergeRecord u).gives s fun t =>
      t.ae.mergeQ = eraseFirst (fun y => y == m) s.ae.mergeQ ∧
      (∃ y, t.stream m.stream = some y ∧ y = { x with recs := y.recs } ∧ y.recAt m.r.row = mergeRec (x.recAt m.r.row) m.r ∧
        ∀ r, r ≠ m.r.row → y.recAt r = x.recAt r) ∧ (∀ j, j ≠ m.stream → t.stream j = s.stream j) ∧ s.only [.ae] t := by
  let w := s.recordTaken m
  let t := w.modStream m.stream (·.merged m.r)
  have hexec : exec (.mergeRecord u) s = .next (s.commit t) := by
    refine (act_next s _ hr).trans ?_
    rw [State.mergeOne_of_local hfirst hx hgen hsub hitem]
  have hmerged : t.stream m.stream = some (x.merged m.r) := State.stream_modStream_same (s := w) hx _
  have honly : s.only [.ae] t := (s.only_onAe _).then (w.only_modStream _ _) (List.Subset.refl _)
  exact ⟨_, hexec, rfl, ⟨_, hmerged, rfl, x.recAt_merged_same m.r, fun r hne => x.recAt_merged_ne m.r hne⟩,
    fun j hj => State.stream_modStream_ne (s := w) _ hj, State.only_commit honly⟩

/-! ## Answers of lenders -/

variable {c : Conduit} {q : W32} {p : List Byte}

theorem partialRecord_good_gives {i : Nat} {y : SubQuery} (hi : i = lat p 8 4 % 2 ^ 16) (hr : s.inReset = false) (hx : s.stream i = some x)
    (hhandle : x.handle = lat p 0 8) (hhome : x.lender = none) (hstate : x.cstate = .running)
    (hsub : x.subs.find? (fun y => y.sub == bits (lat p 8 4) 27 16 && y.gen == bits (lat p 8 4) 31 28 && !y.landed) = some y)
    (hgood : blockGood x p = true) (hmembers : y.members = []) (hrows : 0 < x.rowCount) :
    (Instr.partialRecord c q p).gives s fun t =>
      t.ae.mergeQ = s.ae.mergeQ ++ (recsOf x.rowCount x.owidth (p.drop 32)).map (fun r => ⟨i, x.gen, r, some y.sub, false⟩) ∧
      (t.stream i).map (·.subs) = some (x.subs.map fun z => if z.sub = y.sub then { z with landed := true } else z) ∧
      (∀ j, j ≠ i → t.stream j = s.stream j) ∧ s.only [.ae, .trl] t := by
  let h := s.takeHanded c.val q.toNat 0x04
  let l := h.modStream i (·.landed y.sub)
  let t := l.queueBlock i x p y.sub false
  have hxh : h.stream i = some x := hx
  have hexec : exec (.partialRecord c q p) s = .next (s.commit t) := by
    refine (act_next s _ hr).trans ?_
    rw [State.recvPartial_of_outstanding (s := h) (hi ▸ hxh) hhandle hhome hstate hsub, ← hi,
      State.homeAnswer_of_good hgood hmembers hrows]
  have hlanded : t.stream i = some (x.landed y.sub) := State.stream_modStream_same hxh _
  have honly : s.only [.ae, .trl] t :=
    (((s.only_takeHanded _ _ _).mono (by simp)).then (h.only_modStream i _) (by simp)).then (l.only_onAe _) (by simp)
  exact ⟨_, hexec, rfl, congrArg (Option.map (·.subs)) hlanded, fun j hj => State.stream_modStream_ne (s := h) _ hj,
    State.only_commit honly⟩

theorem partialRecord_stale_gives (hr : s.inReset = false) (hnone : ∀ j x, s.stream j = some x → x.handle ≠ lat p 0 8)
    (htable : twf s.ae.streams = true) : (Instr.partialRecord c q p).gives s fun t =>
      t.fd Fd.MRG_STALE_COUNT = min (s.fd Fd.MRG_STALE_COUNT + 1) (2 ^ 64 - 1) ∧ t.ae = s.ae ∧ s.only [.csr, .trl] t ∧
      s.regsBut [Reg.MRG_STALE] t := by
  let h := s.takeHanded c.val q.toNat 0x04
  let t := h.inc Fd.MRG_STALE_COUNT
  have hexec : exec (.partialRecord c q p) s = .next (s.commit t) := by
    refine (act_next s _ hr).trans ?_
    rw [State.recvPartial_of_unknown (s := h) hnone htable]
  have hcount : t.fd Fd.MRG_STALE_COUNT = min (h.fd Fd.MRG_STALE_COUNT + 1) (2 ^ 64 - 1) := h.fd_inc_64 rfl rfl
  have honly : s.only [.csr, .trl] t := ((s.only_takeHanded _ _ _).mono (by simp)).then (h.only_setFd _ _) (by simp)
  exact ⟨_, hexec, hcount, rfl, State.only_commit honly, h.regsBut_setFd Fd.MRG_STALE_COUNT _⟩

/-! ## Grants -/

theorem grant_gives {j : Nat} {w : LenderWork} (hr : s.inReset = false) (htype : lat p 0 2 = 0x0101) (hlen : p.length = 16)
    (hstreams : s.ae.streams = [(j, x)]) (hhandle : x.handle = lat p 8 8) (hstate : x.cstate ≠ .aborting) (hw : x.lender = some w)
    (hnode : w.node = s.peerOf c.val) (hhome : w.hstream = lat p 2 2) (hsub : w.sub = lat p 4 2 % 2 ^ 12)
    (hgen : w.subgen = lat p 4 2 / 2 ^ 12) (hhold : w.hold = true) (hheld : ∀ d ∈ s.trl.conduits, ∀ m ∈ d.2.queue, m.hold = false) :
    (Instr.grant c q p).gives s fun t =>
      t.stream j = some { x with lender := some { w with granted := true } } ∧ s.only [.ae, .trl] t := by
  let h := s.takeHanded c.val q.toNat 0x3F
  let t := h.modStream j fun _ => x.granted
  have hform : ¬ (lat p 0 2 ≠ 0x0101 ∨ p.length ≠ 16) := not_or.mpr ⟨not_not.mpr htype, not_not.mpr hlen⟩
  have hstreams' : (s.takeHanded c.val q.toNat 0x3F).ae.streams = [(j, x)] := hstreams
  have hnode' : w.node = (s.takeHanded c.val q.toNat 0x3F).peerOf c.val := hnode
  have hlive : (x.cstate != .aborting) = true := bne_iff_ne.mpr hstate
  have hexec : exec (.grant c q p) s = .next (s.commit t) := by
    refine (act_next s _ hr).trans ?_
    dsimp only
    rw [if_neg hform, hstreams', List.find?_cons_of_pos]
    · exact congrArg (fun t => Host.Outcome.next (s.commit t)) (State.releaseHeld_of_none_held (s := h) hheld)
    · simp only [hhandle, hlive, hw, hnode', hhome, hsub, hgen, hhold, beq_self_eq_true, Bool.and_true]
  have hx : h.stream j = some x := by
    rw [State.stream, hstreams']
    exact if_pos rfl
  have hgranted : t.stream j = some x.granted := State.stream_modStream_same hx _
  have honly : s.only [.ae, .trl] t := ((s.only_takeHanded _ _ _).mono (by simp)).then (h.only_modStream j _) (by simp)
  refine ⟨_, hexec, hgranted.trans ?_, State.only_commit honly⟩
  rw [Stream.granted, hw, Option.map_some]

end

/-- Settles O47: a record taken from the queue changes one row of its stream, which goes on while an item is under way (R115); an
answer to an outstanding SUBQUERY queues its records and one that no stream's HANDLE matches is counted alone (R123); with no
partial held back a grant is kept with the lender's stream (R125). -/
theorem partialsAreMerged : Obligations.PartialsAreMerged := by
  intro s hr
  refine ⟨?_, fun c q p => ⟨?_, ?_, ?_⟩⟩
  · intro u m x hfirst hx hgen hsub hitem
    exact mergeRecord_gives hr hfirst hx hgen hsub hitem
  · intro x y hx hhandle hhome hstate hsub hgood hmembers hrows
    exact partialRecord_good_gives rfl hr hx hhandle hhome hstate hsub hgood hmembers hrows
  · intro hnone htable
    exact partialRecord_stale_gives hr hnone htable
  · intro j x w htype hlen hstreams hhandle hstate hw hnode hhome hsub hgen hhold hheld
    exact grant_gives hr htype hlen hstreams hhandle hstate hw hnode hhome hsub hgen hhold hheld

end Sys2Proof.Proofs.Partials

end

section
/-! SUPPORT. An instruction of a gecko that completes: the fields of its word, the registers it writes and its frame (R202 to R204). -/

namespace Sys2Proof.Machine

/-! ## Words of format A (R202) -/

section
variable {op : Nat} {d a b : Fin 16} {imm : BitVec 14}

theorem fields_wordA (hop : op < 64) : let w := wordA op d.val a.val b.val imm.toNat
    bits w 31 26 = op ∧ bits w 25 22 = d.val ∧ bits w 21 18 = a.val ∧ bits w 17 14 = b.val ∧ bits w 13 0 = imm.toNat := by
  have hd := d.isLt
  have ha := a.isLt
  have hb := b.isLt
  have himm := imm.isLt
  simp only [bits, wordA, Nat.shiftRight_eq_div_pow]
  omega

/-- VXOR, VAND, VOR, VADDW. -/
theorem legalWord_vec (hlo : 0x30 ≤ op) (hhi : op ≤ 0x33) (hd : d.val < 8) (ha : a.val < 8) (hb : b.val < 8) :
    legalWord (wordA op d.val a.val b.val 0) = true := by
  obtain ⟨h1, h2, h3, h4, h5⟩ := fields_wordA (op := op) (d := d) (a := a) (b := b) (imm := 0) (by omega)
  have hop : op = 0x30 ∨ op = 0x31 ∨ op = 0x32 ∨ op = 0x33 := by omega
  change legalWord (wordA op d.val a.val b.val (0 : BitVec 14).toNat) = true
  simp only [legalWord, h1, h2, h3, h4, h5]
  obtain rfl | rfl | rfl | rfl := hop <;> simp [hd, ha, hb]

theorem legalWord_vdig (hd : d.val < 8) (heven : d.val % 2 = 0) (ha : a.val < 8) (himm : imm.toNat < 32)
    (hfmt : (fmtOf (imm.toNat % 16)).isSome = true) : legalWord (wordA 0x34 d.val a.val b.val imm.toNat) = true := by
  obtain ⟨h1, h2, h3, h4, h5⟩ := fields_wordA (op := 0x34) (d := d) (a := a) (b := b) (imm := imm) (by decide)
  simp only [legalWord, h1, h2, h3, h4, h5]
  simp [hd, heven, ha, himm, hfmt]

theorem legalWord_vcrc (ha : a.val < 8) (himm : imm.toNat < 32) : legalWord (wordA 0x35 d.val a.val 0 imm.toNat) = true := by
  obtain ⟨h1, h2, h3, h4, h5⟩ := fields_wordA (op := 0x35) (d := d) (a := a) (b := 0) (imm := imm) (by decide)
  change legalWord (wordA 0x35 d.val a.val (0 : Fin 16).val imm.toNat) = true
  simp only [legalWord, h1, h2, h3, h4, h5]
  simp [ha, himm]

theorem legalWord_vbcast (hd : d.val < 8) : legalWord (wordA 0x36 d.val 0 b.val 0) = true := by
  obtain ⟨h1, h2, h3, h4, h5⟩ := fields_wordA (op := 0x36) (d := d) (a := 0) (b := b) (imm := 0) (by decide)
  change legalWord (wordA 0x36 d.val (0 : Fin 16).val b.val (0 : BitVec 14).toNat) = true
  simp only [legalWord, h1, h2, h3, h4, h5]
  simp [hd]

end

/-! ## Registers -/

theorem Gecko.reg_setReg (g : Gecko) {d : Nat} (hd : d < 16) (v : W32) (i : Nat) :
    (g.setReg d v).reg i = if i = d ∧ i ≠ 0 then v else g.reg i := by
  unfold Gecko.setReg Gecko.reg
  by_cases hi : i = 0
  · simp [hi]
  · by_cases hid : i = d
    · subst hid
      simp [hi, hd]
    · by_cases h0 : d = 0
      · simp [h0, hi]
      · simp [h0, hi, hid, Ne.symm hid]

theorem Gecko.vreg_setV (g : Gecko) {d : Nat} (hd : d < 8) (v : BitVec 256) (i : Nat) :
    (g.setV d v).vreg i = if i = d then v else g.vreg i := by
  unfold Gecko.setV Gecko.vreg
  by_cases hid : i = d
  · subst hid
    simp [hd]
  · simp [hid, Ne.symm hid]

@[simp] theorem Gecko.reg_ran (g : Gecko) (i : Nat) : g.ran.reg i = g.reg i := rfl

@[simp] theorem Gecko.vreg_ran (g : Gecko) (i : Nat) : g.ran.vreg i = g.vreg i := rfl

@[simp] theorem Gecko.vreg_next (g : Gecko) (i : Nat) : g.next.vreg i = g.vreg i := rfl

@[simp] theorem Gecko.unbounded_ran (g : Gecko) : g.ran.unbounded = g.unbounded := rfl

@[simp] theorem Gecko.unbounded_next (g : Gecko) : g.next.unbounded = g.unbounded := rfl

/-! ## The instruction completes -/

section
variable {s : State} {k w : Nat} {f : State → Gecko → GkRes} {g : Gecko}

theorem State.gkExec_ok (h : s.gkAt k w) (hw : legalWord w = true) (hf : f s (s.gk k).ran = .ok s g) : s.gkExec k w f = s.setGk k g := by
  obtain ⟨-, hruns, hfetch⟩ := h
  have hres : (if legalWord w = true then f s (s.gk k).ran else .fault .illegal) = .ok s g := (if_pos hw).trans hf
  refine (if_neg (by simp [hruns, hfetch])).trans ?_
  rw [Gecko.ran] at hres
  rw [hres]

theorem State.gkOnly_setGk (s : State) (k : Nat) (g : Gecko) : s.gkOnly k [] (s.commit (s.setGk k g)) :=
  ⟨fun j hj => (s.gk_setGk k g j).trans (if_neg hj), rfl, State.only_commit (s.only_onHb _)⟩

/-- An instruction whose only result is its gecko leaves that gecko and changes nothing else. -/
theorem gives_of_completes {c : Instr} {P : State → Prop} (h : s.gkAt k w) (hw : legalWord w = true)
    (hc : exec c s = act s fun s => s.gkExec k w f) (hf : f s (s.gk k).ran = .ok s g)
    (hP : ∀ t, t.gk k = g → s.gkOnly k [] t → P t) : c.gives s P := by
  refine Proofs.Scope.gives_act hc h.1 ?_
  rw [State.gkExec_ok h hw hf]
  exact hP _ ((s.gk_setGk k g k).trans (if_pos rfl)) (s.gkOnly_setGk k g)

theorem State.gkSets_of_setReg {t : State} {d : Nat} {v : W32} (hd : d < 16) (hg : t.gk k = ((s.gk k).ran.setReg d v).next)
    (ho : s.gkOnly k [] t) : s.gkSets k d v t := by
  refine ⟨fun i _ => ?_, ?_, ho⟩
  · rw [hg]
    exact (s.gk k).ran.reg_setReg hd v i
  · rw [hg, Gecko.setReg]
    split
    · rfl
    · rfl

theorem State.gkSetsV_of_setV {t : State} {d : Nat} {v : BitVec 256} (hd : d < 8) (hg : t.gk k = ((s.gk k).ran.setV d v).next)
    (ho : s.gkOnly k [] t) : s.gkSetsV k d v t := by
  refine ⟨fun i _ => ?_, ?_, ho⟩
  · rw [hg]
    exact (s.gk k).ran.vreg_setV hd v i
  · rw [hg]
    rfl

end

end Sys2Proof.Machine

end

section
/-! SUPPORT. The bytes and the lanes of a vector register, and the digest update of VDIG, position by position (R132, R203). -/

namespace Sys2Proof.Machine

/-! ## Bytes and lanes -/

/-- The digit at place i of a number written in base b. -/
theorem ofDigits_div_pow_mod {b : Nat} (hb : 0 < b) {l : List Nat} (h : ∀ x ∈ l, x < b) (i : Nat) :
    Nat.ofDigits b l / b ^ i % b = (l[i]?).getD 0 := by
  rw [Nat.ofDigits_div_pow_eq_ofDigits_drop i hb l h, ← List.head?_drop]
  cases hdrop : l.drop i with
  | nil => exact Nat.zero_mod b
  | cons x rest =>
    have hx : x < b := h x (List.mem_of_mem_drop (hdrop ▸ List.mem_cons_self))
    rw [Nat.ofDigits_cons, Nat.add_mul_mod_self_left, Nat.mod_eq_of_lt hx]
    rfl

theorem unle_eq_ofDigits (l : List Byte) : unle l = Nat.ofDigits 256 (l.map BitVec.toNat) := by
  induction l with
  | nil => rfl
  | cons b l ih => rw [List.map_cons, Nat.ofDigits_cons, ← ih]; rfl

theorem unle_div_pow_mod (l : List Byte) (i : Nat) : unle l / 256 ^ i % 256 = byteAt l i := by
  have hdigits : ∀ x ∈ l.map BitVec.toNat, x < 256 := by
    intro x hx
    obtain ⟨b, -, rfl⟩ := List.mem_map.mp hx
    exact b.isLt
  rw [unle_eq_ofDigits, ofDigits_div_pow_mod (by decide) hdigits, List.getElem?_map, byteAt]
  cases l[i]? with
  | none => rfl
  | some b => rfl

theorem unle_append (l m : List Byte) : unle (l ++ m) = unle l + 256 ^ l.length * unle m := by
  simp only [unle_eq_ofDigits, List.map_append, Nat.ofDigits_append, List.length_map]

/-- Words of four bytes put end to end are digits in base 2^32. -/
theorem unle_flatMap_le_four (f : Nat → Nat) (l : List Nat) :
    unle (l.flatMap fun i => le 4 (f i)) = Nat.ofDigits (2 ^ 32) (l.map fun i => f i % 2 ^ 32) := by
  induction l with
  | nil => rfl
  | cons i l ih =>
    rw [List.flatMap_cons, unle_append, unle_le, le_length, ih, List.map_cons, Nat.ofDigits_cons, show 256 ^ 4 = 2 ^ 32 from rfl]

theorem getElem?_le {n i : Nat} (hi : i < n) : ∀ v, (le n v)[i]? = some (BitVec.ofNat 8 (v / 256 ^ i)) := by
  induction n generalizing i with
  | zero => exact absurd hi (Nat.not_lt_zero i)
  | succ n ih =>
    intro v
    cases i with
    | zero => rw [pow_zero, Nat.div_one]; rfl
    | succ i =>
      have htail : (le (n + 1) v)[i + 1]? = (le n (v / 256))[i]? := rfl
      rw [htail, ih (Nat.lt_of_succ_lt_succ hi), Nat.div_div_eq_div_mul, ← pow_succ']

theorem take_le {m n : Nat} (h : m ≤ n) : ∀ v, (le n v).take m = le m v := by
  induction m generalizing n with
  | zero => exact fun _ => List.take_zero
  | succ m ih =>
    intro v
    obtain ⟨n, rfl⟩ : ∃ n', n = n' + 1 := ⟨n - 1, by omega⟩
    exact congrArg (_ :: ·) (ih (Nat.le_of_succ_le_succ h) (v / 256))

theorem toNat_ofVbytes {l : List Byte} (h : l.length = 32) : (ofVbytes l).toNat = unle l := by
  have hlt := unle_lt l
  rw [h] at hlt
  rw [ofVbytes, ← h, List.take_length, BitVec.toNat_ofNat]
  exact Nat.mod_eq_of_lt hlt

theorem ofVbytes_div_pow_mod {l : List Byte} (h : l.length = 32) (i : Nat) : (ofVbytes l).toNat / 256 ^ i % 256 = byteAt l i := by
  rw [toNat_ofVbytes h, unle_div_pow_mod]

/-- Lane i of VADDW as `addLanes` forms it. -/
def laneSum (x y : BitVec 256) (i : Nat) : Nat :=
  (bits x.toNat (32 * i + 31) (32 * i) + bits y.toNat (32 * i + 31) (32 * i)) % 2 ^ 32

theorem laneSum_eq (x y : BitVec 256) (i : Nat) : laneSum x y i = (x.toNat / 2 ^ (32 * i) + y.toNat / 2 ^ (32 * i)) % 2 ^ 32 := by
  rw [laneSum, bits, bits, Nat.shiftRight_eq_div_pow, Nat.shiftRight_eq_div_pow, show 32 * i + 31 + 1 - 32 * i = 32 by omega, ← Nat.add_mod]

theorem addLanes_lane (x y : BitVec 256) {i : Nat} (hi : i < 8) : (addLanes x y).toNat / 2 ^ (32 * i) % 2 ^ 32 =
    (x.toNat / 2 ^ (32 * i) + y.toNat / 2 ^ (32 * i)) % 2 ^ 32 := by
  have hlen : ((List.range 8).flatMap fun i => le 4 (laneSum x y i)).length = 32 := by simp [le_length]
  have hdigits : ∀ z ∈ (List.range 8).map fun i => laneSum x y i % 2 ^ 32, z < 2 ^ 32 := by
    intro z hz
    obtain ⟨j, -, rfl⟩ := List.mem_map.mp hz
    exact Nat.mod_lt _ (by decide)
  calc (addLanes x y).toNat / 2 ^ (32 * i) % 2 ^ 32
      = Nat.ofDigits (2 ^ 32) ((List.range 8).map fun i => laneSum x y i % 2 ^ 32) / (2 ^ 32) ^ i % 2 ^ 32 := by
        rw [← pow_mul, ← unle_flatMap_le_four, ← toNat_ofVbytes hlen]; rfl
    _ = laneSum x y i % 2 ^ 32 := by
        rw [ofDigits_div_pow_mod (by decide) hdigits, List.getElem?_map, List.getElem?_range hi]; rfl
    _ = _ := by rw [laneSum_eq, Nat.mod_mod]

/-! ## The digest update (R132) -/

/-- MIN at one position after an element. -/
def digLower (x : W32) (o : Byte) : Byte :=
  if fIsNaN x = false ∧ fLt (decF8B (toF8B .down x).toNat) (decF8B o.toNat) = true then toF8B .down x else o

/-- MAX at one position after an element. -/
def digRaise (x : W32) (o : Byte) : Byte :=
  if fIsNaN x = false ∧ fLt (decF8B o.toNat) (decF8B (toF8B .up x).toNat) = true then toF8B .up x else o

/-- Elements, the first of them at position e.2, each put to the byte at its position. -/
def digPut (r : W32 → Byte → Byte) (e : List W32 × Nat) (l : List Byte) : List Byte :=
  e.1.zipIdx.foldl (fun l p => l.modify (e.2 + p.2) (r p.1)) l

/-- The element that stands at a position. -/
def digAt (e : List W32 × Nat) (i : Nat) : Option W32 := if e.2 ≤ i then e.1[i - e.2]? else none

/-- A byte set where the one there passes a test. -/
theorem modify_ite (l : List Byte) (i : Nat) (v : Byte) (c : Nat → Prop) [DecidablePred c] :
    l.modify i (fun o => if c o.toNat then v else o) = if c (byteAt l i) then l.set i v else l := by
  have hbyte : (l[i]?.getD default).toNat = byteAt l i := rfl
  rw [List.modify_eq_set, hbyte]
  split
  · rfl
  · obtain hlt | hge := Nat.lt_or_ge i l.length
    · rw [List.getElem?_eq_getElem hlt, Option.getD_some, List.set_getElem_self]
    · exact List.set_eq_of_length_le hge

theorem digUpdate_eq (mn mx : List Byte) (i : Nat) (x : W32) : digUpdate mn mx i x = (mn.modify i (digLower x), mx.modify i (digRaise x)) := by
  have hmin : mn.modify i (digLower x) = _ :=
    modify_ite mn i (toF8B .down x) fun o => fIsNaN x = false ∧ fLt (decF8B (toF8B .down x).toNat) (decF8B o) = true
  have hmax : mx.modify i (digRaise x) = _ :=
    modify_ite mx i (toF8B .up x) fun o => fIsNaN x = false ∧ fLt (decF8B o) (decF8B (toF8B .up x).toNat) = true
  rw [hmin, hmax, digUpdate]
  cases hnan : fIsNaN x with
  | true => simp
  | false => simp

/-- MIN and MAX are updated apart. -/
theorem foldl_digUpdate (e : List W32 × Nat) (mn mx : List Byte) :
    e.1.zipIdx.foldl (fun r p => digUpdate r.1 r.2 (e.2 + p.2) p.1) (mn, mx) = (digPut digLower e mn, digPut digRaise e mx) :=
  List.foldl_hom₂ _ Prod.mk _ _ _ mn mx fun _ _ p => (digUpdate_eq _ _ (e.2 + p.2) p.1).symm

theorem getElem?_digPut_from (r : W32 → Byte → Byte) (first i : Nat) : ∀ (xs : List W32) (n : Nat) (l : List Byte),
    ((xs.zipIdx n).foldl (fun l p => l.modify (first + p.2) (r p.1)) l)[i]? = (l[i]?).map ((digAt (xs, first + n) i).elim id r) := by
  intro xs
  induction xs with
  | nil => intro n l; simp [digAt]
  | cons x xs ih =>
    intro n l
    rw [List.zipIdx_cons, List.foldl_cons, ih, List.getElem?_modify]
    obtain hlt | rfl | hgt := Nat.lt_trichotomy i (first + n)
    · simp [digAt, show ¬ first + n ≤ i by omega, show ¬ first + (n + 1) ≤ i by omega, show first + n ≠ i by omega]
    · simp [digAt, show ¬ first + (n + 1) ≤ first + n by omega]
    · have hsub : i - (first + n) = i - (first + (n + 1)) + 1 := by omega
      simp [digAt, show first + n ≤ i by omega, show first + (n + 1) ≤ i by omega, show first + n ≠ i by omega, hsub]

theorem getElem?_digPut (r : W32 → Byte → Byte) (e : List W32 × Nat) (l : List Byte) (i : Nat) :
    (digPut r e l)[i]? = (l[i]?).map ((digAt e i).elim id r) := getElem?_digPut_from r e.2 i e.1 0 l

theorem length_digPut (r : W32 → Byte → Byte) (e : List W32 × Nat) (l : List Byte) : (digPut r e l).length = l.length := by
  refine List.foldlRecOn (motive := fun m : List Byte => m.length = l.length) _ _ rfl fun m hm p _ => ?_
  rw [List.length_modify, hm]

theorem digPut_byte (r : W32 → Byte → Byte) (e : List W32 × Nat) (v : BitVec 256) {i : Nat} (hi : i < 32) :
    (ofVbytes (digPut r e (vbytes v))).toNat / 256 ^ i % 256 = ((digAt e i).elim id r (BitVec.ofNat 8 (v.toNat / 256 ^ i))).toNat := by
  have hlen : (digPut r e (vbytes v)).length = 32 := (length_digPut r e _).trans (le_length 32 _)
  rw [ofVbytes_div_pow_mod hlen, byteAt, getElem?_digPut, vbytes, getElem?_le hi, Option.map_some, Option.getD_some]

theorem toNat_digLower (x : W32) (n : Nat) : (digLower x (BitVec.ofNat 8 n)).toNat =
    if fIsNaN x = false ∧ fLt (decF8B (toF8B .down x).toNat) (decF8B (n % 256)) = true then (toF8B .down x).toNat else n % 256 := by
  rw [digLower, apply_ite BitVec.toNat, BitVec.toNat_ofNat]

theorem toNat_digRaise (x : W32) (n : Nat) : (digRaise x (BitVec.ofNat 8 n)).toNat =
    if fIsNaN x = false ∧ fLt (decF8B (n % 256)) (decF8B (toF8B .up x).toNat) = true then (toF8B .up x).toNat else n % 256 := by
  rw [digRaise, apply_ite BitVec.toNat, BitVec.toNat_ofNat]

/-! ## The gecko VDIG leaves (R132) -/

/-- The elements VDIG takes from va under the scale byte in gb, and the position of the first. -/
def Gecko.digTaken (g : Gecko) (a b : Nat) (imm : BitVec 14) : List W32 × Nat :=
  digElems (imm.toNat % 16) ((g.reg b).toNat % 256) (imm.toNat / 16 % 2) (vbytes (g.vreg a))

/-- An element, or the scale byte of a scaled format, is not finite. -/
def Gecko.digUnbounded (g : Gecko) (a b : Nat) (imm : BitVec 14) : Bool :=
  (g.digTaken a b imm).1.any (fun x => !fIsFinite x) ||
    (((fmtOf (imm.toNat % 16)).map Fmt.scaled).getD false && (g.reg b).toNat % 256 == 255)

/-- The gecko with MIN in vd, MAX in the register after it, and UNBOUNDED perhaps set. -/
def Gecko.digested (g : Gecko) (d : Nat) (ub : Bool) (r : List Byte × List Byte) : Gecko :=
  (({ g with unbounded := g.unbounded || ub }).setV d (ofVbytes r.1)).setV (d + 1) (ofVbytes r.2)

/-- What VDIG leaves of its gecko, before the PC moves on. -/
def Gecko.vdigResult (g : Gecko) (d a b : Nat) (imm : BitVec 14) : Gecko :=
  let e := g.digTaken a b imm
  g.digested d (g.digUnbounded a b imm)
    (digPut digLower e (vbytes (g.vreg d)), digPut digRaise e (vbytes (g.vreg (d + 1))))

theorem execVdig_eq (k : Fin 256) (d a b : Fin 16) (imm : BitVec 14) (s : State) : execVdig k d a b imm s =
    act s fun s => s.gkExec k.val (wordA 0x34 d.val a.val b.val imm.toNat) fun s g => .ok s (g.vdigResult d.val a.val b.val imm).next := by
  refine congrArg (act s) (funext fun s => congrArg (s.gkExec k.val _) (funext fun s => funext fun g => ?_))
  exact congrArg (fun r => GkRes.ok s (g.digested d.val (g.digUnbounded a.val b.val imm) r).next)
    (foldl_digUpdate (g.digTaken a.val b.val imm) (vbytes (g.vreg d.val)) (vbytes (g.vreg (d.val + 1))))

section
variable (g : Gecko) {d a b i : Nat} {imm : BitVec 14}

theorem Gecko.vreg_digested (hd : d + 1 < 8) (ub : Bool) (r : List Byte × List Byte) (i : Nat) :
    (g.digested d ub r).vreg i = if i = d + 1 then ofVbytes r.2 else if i = d then ofVbytes r.1 else g.vreg i := by
  rw [Gecko.digested, Gecko.vreg_setV _ hd, Gecko.vreg_setV _ (Nat.lt_of_succ_lt hd)]
  rfl

theorem Gecko.digested_eq (d : Nat) (ub : Bool) (r : List Byte × List Byte) : g.digested d ub r =
    { g with vregs := (g.digested d ub r).vregs, unbounded := g.unbounded || ub } := rfl

theorem Gecko.vdigResult_min (hd : d + 1 < 8) (hi : i < 32) : ((g.vdigResult d a b imm).vreg d).toNat / 256 ^ i % 256 =
    ((digAt (g.digTaken a b imm) i).elim id digLower (BitVec.ofNat 8 ((g.vreg d).toNat / 256 ^ i))).toNat := by
  rw [Gecko.vdigResult, Gecko.vreg_digested g hd, if_neg (Nat.lt_succ_self d).ne, if_pos rfl, digPut_byte _ _ _ hi]

theorem Gecko.vdigResult_max (hd : d + 1 < 8) (hi : i < 32) : ((g.vdigResult d a b imm).vreg (d + 1)).toNat / 256 ^ i % 256 =
    ((digAt (g.digTaken a b imm) i).elim id digRaise (BitVec.ofNat 8 ((g.vreg (d + 1)).toNat / 256 ^ i))).toNat := by
  rw [Gecko.vdigResult, Gecko.vreg_digested g hd, if_pos rfl, digPut_byte _ _ _ hi]

theorem Gecko.vreg_vdigResult_other (hd : d + 1 < 8) (hi : i ≠ d) (hi1 : i ≠ d + 1) : (g.vdigResult d a b imm).vreg i = g.vreg i := by
  rw [Gecko.vdigResult, Gecko.vreg_digested g hd, if_neg hi1, if_neg hi]

theorem Gecko.vdigResult_eq : g.vdigResult d a b imm =
    { g with vregs := (g.vdigResult d a b imm).vregs, unbounded := g.unbounded || g.digUnbounded a b imm } := Gecko.digested_eq g d _ _

theorem Gecko.unbounded_vdigResult : (g.vdigResult d a b imm).unbounded = (g.unbounded || g.digUnbounded a b imm) :=
  congrArg Gecko.unbounded (Gecko.vdigResult_eq g)

/-- What VDIG writes: two vector registers, UNBOUNDED and the PC. -/
theorem Gecko.next_vdigResult : (g.vdigResult d a b imm).next =
    { g with vregs := (g.vdigResult d a b imm).next.vregs, unbounded := (g.vdigResult d a b imm).next.unbounded, pc := g.pc + 1 } := by
  rw [Gecko.vdigResult_eq]
  rfl

theorem Gecko.digUnbounded_of_not_finite {x : W32} (hx : x ∈ (g.digTaken a b imm).1) (hfin : fIsFinite x = false) :
    g.digUnbounded a b imm = true := by
  rw [Gecko.digUnbounded, Bool.or_eq_true]
  exact .inl (List.any_eq_true.mpr ⟨x, hx, by rw [hfin, Bool.not_false]⟩)

theorem Gecko.digTaken_ran (himm : imm.toNat < 32) : g.ran.digTaken a b imm =
    digElems (imm.toNat % 16) ((g.reg b).toNat % 256) (imm.toNat / 16) (le 32 (g.vreg a).toNat) := by
  rw [Gecko.digTaken, Nat.mod_eq_of_lt (show imm.toNat / 16 < 2 by omega), Gecko.reg_ran, Gecko.vreg_ran, vbytes]

end

end Sys2Proof.Machine

end

section
/-! The statement of the vector instructions of a gecko (R132, R203). -/

namespace Sys2Proof.Proofs.Geckos
open Sys2Proof Sys2Proof.Machine

section
variable {s : State} {k : Fin 256} {d a b : Fin 16} {imm : BitVec 14}

/-! ## Two registers combined, and a byte spread -/

/-- A vector operation sets vd to its function of va and vb. -/
theorem vec_gives {c : Instr} {op : Nat} {f : BitVec 256 → BitVec 256 → BitVec 256} (hlo : 0x30 ≤ op) (hhi : op ≤ 0x33) (hd : d.val < 8)
    (ha : a.val < 8) (hb : b.val < 8) (hc : exec c s = act s fun s => s.gkVec op k d a b 0 f)
    (h : s.gkAt k.val (wordA op d.val a.val b.val 0)) :
    c.gives s (s.gkSetsV k.val d.val (f ((s.gk k.val).vreg a.val) ((s.gk k.val).vreg b.val))) :=
  gives_of_completes h (legalWord_vec hlo hhi hd ha hb) hc rfl fun _ => State.gkSetsV_of_setV hd

theorem vbcast_gives (hd : d.val < 8) (h : s.gkAt k.val (wordA 0x36 d.val 0 b.val 0)) : (Instr.vbcast k d 0 b 0).gives s
    (s.gkSetsV k.val d.val (ofVbytes (List.replicate 32 (((s.gk k.val).reg b.val).setWidth 8)))) :=
  gives_of_completes h (legalWord_vbcast hd) rfl rfl fun _ => State.gkSetsV_of_setV hd

theorem replicated_byte (x : W32) {i : Nat} (hi : i < 32) :
    (ofVbytes (List.replicate 32 (x.setWidth 8))).toNat / 256 ^ i % 256 = x.toNat % 256 := by
  rw [ofVbytes_div_pow_mod List.length_replicate, byteAt, List.getElem?_replicate, if_pos hi, Option.getD_some, BitVec.toNat_setWidth]

/-! ## VCRC -/

theorem vcrc_gives (ha : a.val < 8) (himm : imm.toNat < 32) (h : s.gkAt k.val (wordA 0x35 d.val a.val 0 imm.toNat)) :
    (Instr.vcrc k d a 0 imm).gives s (s.gkSets k.val d.val
      (BitVec.ofNat 32 (crc32cFrom ((s.gk k.val).reg d.val).toNat (le (imm.toNat + 1) ((s.gk k.val).vreg a.val).toNat)))) := by
  have hbytes : (vbytes ((s.gk k.val).vreg a.val)).take (imm.toNat % 32 + 1) = le (imm.toNat + 1) ((s.gk k.val).vreg a.val).toNat := by
    rw [Nat.mod_eq_of_lt himm]
    exact take_le himm _
  rw [← hbytes]
  exact gives_of_completes h (legalWord_vcrc ha himm) rfl rfl fun _ => State.gkSets_of_setReg d.isLt

/-! ## VDIG (R132) -/

theorem vdig_gives (hd : d.val < 8) (heven : d.val % 2 = 0) (ha : a.val < 8) (himm : imm.toNat < 32)
    (hfmt : (fmtOf (imm.toNat % 16)).isSome = true) (h : s.gkAt k.val (wordA 0x34 d.val a.val b.val imm.toNat)) :
    (Instr.vdig k d a b imm).gives s fun t =>
      t.gk k.val = ((s.gk k.val).ran.vdigResult d.val a.val b.val imm).next ∧ s.gkOnly k.val [] t :=
  gives_of_completes h (legalWord_vdig hd heven ha himm hfmt) (execVdig_eq k d a b imm s) rfl fun _ hg ho => ⟨hg, ho⟩

end

/-- Settles O30: each instruction leaves its gecko with one register set, VDIG with two. VADDW's value reads back lane by lane,
VBCAST's and VDIG's byte by byte; VDIG's fold puts to each position the one element that stands there. -/
theorem geckoVectors : Obligations.GeckoVectors := by
  intro s k d a b imm ha
  refine ⟨fun hd hb => ⟨fun h => ?_, fun h => ?_, fun h => ?_, fun h => ?_⟩, fun hd h => ?_, fun himm h => ?_,
    fun hd heven himm hfmt h => ?_⟩
  · rw [← BitVec.toNat_xor, BitVec.ofNat_toNat, BitVec.setWidth_eq]
    exact vec_gives (by decide) (by decide) hd ha hb rfl h
  · rw [← BitVec.toNat_and, BitVec.ofNat_toNat, BitVec.setWidth_eq]
    exact vec_gives (by decide) (by decide) hd ha hb rfl h
  · rw [← BitVec.toNat_or, BitVec.ofNat_toNat, BitVec.setWidth_eq]
    exact vec_gives (by decide) (by decide) hd ha hb rfl h
  · obtain ⟨t, hexec, hsets⟩ := vec_gives (c := .vaddw k d a b 0) (by decide) (by decide) hd ha hb rfl h
    exact ⟨t, hexec, _, hsets, fun i hi => addLanes_lane _ _ hi⟩
  · obtain ⟨t, hexec, hsets⟩ := vbcast_gives hd h
    exact ⟨t, hexec, _, hsets, fun i hi => replicated_byte _ hi⟩
  · exact vcrc_gives ha himm h
  · obtain ⟨t, hexec, hg, honly⟩ := vdig_gives hd heven ha himm hfmt h
    have hd1 : d.val + 1 < 8 := by omega
    have he := Gecko.digTaken_ran (s.gk k.val) (a := a.val) (b := b.val) himm
    refine ⟨t, hexec, fun i hi => ?_, fun i hi => ?_, fun hx => ?_, fun hu => ?_, fun i _ hi hi1 => ?_, ?_, honly⟩
    · rw [hg, Gecko.vreg_next, ← he, ← digAt]
      refine (Gecko.vdigResult_min _ hd1 hi).trans ?_
      cases digAt ((s.gk k.val).ran.digTaken a.val b.val imm) i with
      | some v => exact toNat_digLower v _
      | none => exact BitVec.toNat_ofNat _ _
    · rw [hg, Gecko.vreg_next, ← he, ← digAt]
      refine (Gecko.vdigResult_max _ hd1 hi).trans ?_
      cases digAt ((s.gk k.val).ran.digTaken a.val b.val imm) i with
      | some v => exact toNat_digRaise v _
      | none => exact BitVec.toNat_ofNat _ _
    · obtain ⟨v, hv, hfin⟩ := hx
      rw [← he] at hv
      rw [hg, Gecko.unbounded_next, Gecko.unbounded_vdigResult, Gecko.digUnbounded_of_not_finite _ hv hfin, Bool.or_true]
    · rw [hg, Gecko.unbounded_next, Gecko.unbounded_vdigResult, Gecko.unbounded_ran, hu, Bool.true_or]
    · rw [hg, Gecko.vreg_next, Gecko.vreg_vdigResult_other _ hd1 hi hi1, Gecko.vreg_ran]
    · rw [hg]
      exact Gecko.next_vdigResult (s.gk k.val).ran

end Sys2Proof.Proofs.Geckos

end

section
/-! SUPPORT. Messages of any purpose and the ends of commands that send them, with nothing waiting to settle (R252, R255, R326). -/

namespace Sys2Proof.Machine

/-! ## Messages sent -/

section
variable (s : State) (c op svc : Nat) (b : List Byte) (p : Purpose)

/-- A message, taken or refused, changes the transport alone. -/
theorem State.send_eq_onTrl : ∃ f, s.send c op svc b p = s.onTrl f := by
  have hend : ∃ f, s.endMsg p stTIMEOUT = s.onTrl f := by
    unfold State.endMsg
    split
    · exact ⟨id, rfl⟩
    · exact ⟨_, rfl⟩
  unfold State.send State.enqueue
  split
  · exact hend
  · split
    · exact hend
    · split <;> exact ⟨_, rfl⟩

theorem State.only_send : s.only [.trl] (s.send c op svc b p) := by
  obtain ⟨f, hf⟩ := s.send_eq_onTrl c op svc b p
  rw [hf]
  exact s.only_onTrl f

theorem State.only_respond (q st : Nat) : s.only [.trl] (s.respond c q svc st b) := s.only_send _ _ _ _ _

theorem State.csr_send : (s.send c op svc b p).csr = s.csr := (s.only_send c op svc b p).2 .csr (by decide)
theorem State.tier_send : (s.send c op svc b p).tier = s.tier := (s.only_send c op svc b p).2 .tier (by decide)

/-- A message on one conduit leaves the others as they were. -/
theorem State.conduit_send_ne {v : Nat} (h : v ≠ c) (hs : s.sends c) : (s.send c op svc b p).conduit v = s.conduit v := by
  obtain ⟨hactive, hmuted⟩ := hs
  obtain ⟨cd, hcd, hst⟩ := Option.map_eq_some_iff.mp hactive
  simp only [State.send, State.enqueue, hcd, hst, hmuted, OutMsg.mk', bne_self_eq_false, Bool.or_self, Bool.false_eq_true, if_false]
  exact tfind_tmod_ne _ _ h

end

/-- One message sent is all that was sent. -/
theorem State.sent.all {s t : State} {c op : Nat} {b : List Byte} (h : s.sent c op b t) : s.sentAll c [(op, b)] t := by
  obtain ⟨cd, cd', m, hcd, hcd', hq, hop, hb⟩ := h
  exact ⟨cd, cd', [m], hcd, hcd', hq, by rw [List.map_singleton, hop, hb]⟩

/-- A message sent last in a command that left the conduit alone before it. -/
theorem State.sentAll_commit_send {s w : State} {c : Nat} (op svc : Nat) (b : List Byte) (p : Purpose) (hc : w.conduit c = s.conduit c)
    (hs : w.sends c) : s.sentAll c [(op, b)] (s.commit (w.send c op svc b p)) :=
  ((w.sent_send c op svc b p hs).congr hc rfl).all

/-! ## The end of a command -/

/-- No operation, copy or held message waits: settling changes nothing (R326). -/
abbrev State.idle (s : State) : Prop := s.pgt.ops = [] ∧ s.pgt.copies = [] ∧ s.cust.held = []

theorem State.quiet.idle {s : State} (h : s.quiet) : s.idle := ⟨h.1, h.2.1, h.2.2.1⟩

theorem State.idle.settle {s : State} (h : s.idle) : s.settle = s := State.settle_quiet s h.1 h.2.1 h.2.2

theorem State.idle.send {s : State} (h : s.idle) (c op svc : Nat) (b : List Byte) (p : Purpose) : (s.send c op svc b p).idle := by
  obtain ⟨f, hf⟩ := s.send_eq_onTrl c op svc b p
  rw [hf]
  exact h

theorem State.idle.respond {s : State} (h : s.idle) (c q svc st : Nat) (b : List Byte) : (s.respond c q svc st b).idle :=
  h.send _ _ _ _ _

/-- An act whose result is known. -/
theorem act_eq {s t : State} {f : State → State} (hr : s.inReset = false) (h : f s = t) : act s f = .next (s.commit t) :=
  (act_next s f hr).trans (by rw [h])

theorem actIf_eq {s t : State} {b : Bool} {f : State → State} (hr : s.inReset = false) (hb : b = true) (h : f s = t) :
    actIf s b f = .next (s.commit t) := (actIf_next s b f hr hb).trans (by rw [h])

/-- A command that ends with a response: it stands at the end of the conduit's queue, and what the command did before stands. -/
theorem State.answered_commit {s w : State} {c : Nat} (q svc st : Nat) (b : List Byte) (hc : w.conduit c = s.conduit c)
    (hs : w.sends c) : s.answered c q st b (s.commit (w.respond c q svc st b)) :=
  (State.answered_commit_respond q svc st b hc hs).1

/-! ## The water marks (R172) -/

/-- PRESSURE set or cleared. -/
def State.pressed (s : State) (p : Bool) : State := s.onTier fun b => { b with pressure := p }

/-- Free tier 2 held against the water marks changes PRESSURE and may raise DEVICE_FULL. -/
theorem State.waterMark_eq (s : State) : ∃ p, s.waterMark = s.pressed p ∨ s.waterMark = (s.pressed p).raise Fd.TIER_ERR_DEVICE_FULL := by
  unfold State.waterMark
  dsimp only
  generalize (if s.freeTier2 < _ then true else _) = p
  refine ⟨p, ?_⟩
  split
  · exact .inr rfl
  · exact .inl rfl

/-- What the water marks change: PRESSURE, and a bit of TIER_ERR. -/
structure State.Marked (s t : State) : Prop where
  tier : ∃ p, t.tier = { s.tier with pressure := p }
  only : s.only [.csr, .tier] t
  regs : s.regsBut [Reg.TIER_ERR] t

theorem State.marked_waterMark (s : State) : s.Marked s.waterMark := by
  obtain ⟨p, h⟩ := s.waterMark_eq
  have honly : s.only [.csr, .tier] (s.pressed p) := (s.only_onTier _).mono (by decide)
  obtain h | h := h
  · rw [h]
    exact ⟨⟨p, rfl⟩, honly, fun _ _ => rfl⟩
  · rw [h]
    exact ⟨⟨p, rfl⟩, honly.then (State.only_setFd _ _ _) (by decide),
      fun a ha => State.regsBut_setFd (s.pressed p) Fd.TIER_ERR_DEVICE_FULL 1 a ha⟩

end Sys2Proof.Machine

end


section
/-! SUPPORT. Extents as the lender keeps them: offered, taken back, recalled, their frames zeroed (R184 to R187, R189). -/

namespace Sys2Proof.Machine

theorem State.lentX_modLent (s : State) (e : Nat) (f : Extent → Extent) (j : Nat) :
    (s.modLent e f).lentX j = if j = e then (s.lentX e).map f else s.lentX j := by
  split
  · next h => rw [h]; exact tfind_tmod_same _ _ _
  · next h => exact tfind_tmod_ne _ _ h

section
variable {s : State} {e : Nat} {x : Extent} (hx : s.lentX e = some x)
include hx

theorem State.lentX_modLent_same (f : Extent → Extent) : (s.modLent e f).lentX e = some (f x) := by
  rw [State.lentX_modLent, if_pos rfl, hx, Option.map_some]

/-! ## Taken back (R186, R189) -/

theorem State.takeBack_eq : s.takeBack e = (s.freeHbm (x.base / 2048)).onTier fun b => { b with lent := tdel b.lent e } := by
  simp only [State.takeBack, hx]

/-- An extent taken back is in no table, and its content reads zero. -/
theorem State.takeBack_spec : let t := s.takeBack e
    t.lentX e = none ∧ tfind t.tier.hbmUsed (x.base / 2048) = none ∧ s.only [.hbm, .tier] t ∧
      s.hbmBut (x.base / 2048 * 2048) ((tfind s.tier.hbmUsed (x.base / 2048)).getD 0 * 2048) t := by
  intro t
  have ht : t = (s.freeHbm (x.base / 2048)).onTier fun b => { b with lent := tdel b.lent e } := State.takeBack_eq hx
  rw [ht]
  refine ⟨tfind_tdel_same _ _, tfind_tdel_same _ _, ?_, fun a ha => ?_⟩
  · exact ((s.only_freeHbm _).mono (by decide)).then (State.only_onTier _ _) (by decide)
  · exact (byteOf_zeroRange _ _ _ _).trans (if_neg (by omega))

/-- An extent that is returned or lost and holds no frame goes back; one that still holds some stays. -/
theorem State.settleExtent_empty (hdone : (x.returned || x.lostEpoch.isSome) = true) (hempty : x.frames = []) :
    s.settleExtent e = s.takeBack e := by
  simp only [State.settleExtent, hx, hdone, hempty, List.isEmpty_nil, Bool.and_self, if_true]

theorem State.settleExtent_held (hheld : x.frames ≠ []) : s.settleExtent e = s := by
  have hne : x.frames.isEmpty = false := by simpa using hheld
  simp only [State.settleExtent, hx, hne, Bool.and_false, Bool.false_eq_true, if_false]

end

/-! ## An OFFER (R184) -/

def offeredExtent (node a c : Nat) : Extent := ⟨.offered, node, 0, a * 2048, [], none, false, c, false, none, false⟩

/-- The extent e of the 1 GiB from unit a, offered to peer i. -/
def State.offering (s : State) (i e a node c : Nat) : State := s.onTier fun b => { b with
  lendTurn := (i + 1) % 16
  hbmUsed := tset b.hbmUsed a gib
  lent := tset b.lent e (offeredExtent node a c) }

theorem State.sendOffer_eq {s : State} {i a e c : Nat} (hlend : s.flag Fd.TIER_CTL_LEND = true)
    (hturn : ((List.range 16).map (fun j => (s.tier.lendTurn + j) % 16)).find? (fun j => s.flag (Fd.TIER_PEER_LEND_TO j)) = some i)
    (hnone : ∀ x ∈ s.tier.lent, x.2.estate ≠ .offered) (hfree : (s.fd Fd.TIER_LEND_CTL_RESERVE_GIB + 1) * 2 ^ 30 ≤ s.freeTier2)
    (hmax : s.lentOut < s.fd Fd.TIER_LEND_CTL_MAX_GIB) (ha : s.freeExtent = some a)
    (he : (List.range 512).find? (fun e => (s.lentX e).isNone) = some e) (hc : s.conduitToNode (s.fd (Fd.TIER_PEER_NODE i)) = some c) :
    s.sendOffer i = (s.offering i e a (s.fd (Fd.TIER_PEER_NODE i)) c).send c 0x1A 5 (lendPayload 1 0 e 0 (a * 2048) 0 false []) (.offer e) := by
  have hany : s.tier.lent.any (fun e => e.2.estate == .offered && !e.2.inherited) = false :=
    List.any_eq_false.mpr fun y hy => by simp [hnone y hy]
  have hroom : ¬ s.freeTier2 < (s.fd Fd.TIER_LEND_CTL_RESERVE_GIB + 1) * 2 ^ 30 := Nat.not_lt.mpr hfree
  have hfew : ¬ s.fd Fd.TIER_LEND_CTL_MAX_GIB ≤ s.lentOut := Nat.not_le.mpr hmax
  unfold State.sendOffer
  extract_lets node next free
  have hguard : (!s.flag Fd.TIER_CTL_LEND || next != some i || s.tier.lent.any (fun e => e.2.estate == .offered && !e.2.inherited) ||
      decide (free < (s.fd Fd.TIER_LEND_CTL_RESERVE_GIB + 1) * 2 ^ 30) || decide (s.fd Fd.TIER_LEND_CTL_MAX_GIB ≤ s.lentOut)) = false := by
    rw [hlend, show next = some i from hturn, hany, decide_eq_false hroom, decide_eq_false hfew, bne_self_eq_false]
    rfl
  rw [if_neg (ne_true_of_eq_false hguard), ha, he, hc]
  rfl

theorem State.sendOffer_off {s : State} (hlend : s.flag Fd.TIER_CTL_LEND = false) (i : Nat) : s.sendOffer i = s := by
  unfold State.sendOffer
  extract_lets node next free
  rw [hlend]
  exact if_pos (by simp only [Bool.not_false, Bool.true_or])

/-! ## RECALL (R186) -/

/-- Frames of an extent in use, in units. -/
def Extent.used (x : Extent) : Nat := x.frames.foldl (fun n (p : Nat × Nat) => n + p.2) 0

/-- The extent with the fewest frames in use, so far. -/
def lessUsed (b : Option (Nat × Extent)) (e : Nat × Extent) : Option (Nat × Extent) :=
  match b with
  | some y => if e.2.used < y.2.used then some e else some y
  | none => some e

theorem foldl_lessUsed_some : ∀ (l : List (Nat × Extent)) (y : Nat × Extent),
    ∃ z ∈ y :: l, l.foldl lessUsed (some y) = some z ∧ ∀ w ∈ y :: l, z.2.used ≤ w.2.used := by
  intro l
  induction l with
  | nil => exact fun y => ⟨y, List.mem_cons_self, rfl, fun w hw => by rw [List.mem_singleton.mp hw]⟩
  | cons e l ih =>
    intro y
    by_cases hlt : e.2.used < y.2.used
    · obtain ⟨z, hz, hfold, hmin⟩ := ih e
      refine ⟨z, List.mem_cons_of_mem _ hz, ?_, fun w hw => ?_⟩
      · rw [List.foldl_cons, lessUsed, if_pos hlt, hfold]
      · obtain rfl | hw := List.mem_cons.mp hw
        · exact (hmin e List.mem_cons_self).trans hlt.le
        · exact hmin w hw
    · obtain ⟨z, hz, hfold, hmin⟩ := ih y
      have hzy := hmin y List.mem_cons_self
      refine ⟨z, ?_, ?_, fun w hw => ?_⟩
      · obtain rfl | hz := List.mem_cons.mp hz
        · exact List.mem_cons_self
        · exact List.mem_cons_of_mem _ (List.mem_cons_of_mem _ hz)
      · rw [List.foldl_cons, lessUsed, if_neg hlt, hfold]
      · obtain rfl | hw := List.mem_cons.mp hw
        · exact hzy
        · obtain rfl | hw := List.mem_cons.mp hw
          · exact hzy.trans (Nat.not_lt.mp hlt)
          · exact hmin w (List.mem_cons_of_mem _ hw)

/-- Of a list that is not empty the fold finds an entry with the fewest. -/
theorem foldl_lessUsed {l : List (Nat × Extent)} (h : l ≠ []) :
    ∃ z ∈ l, l.foldl lessUsed none = some z ∧ ∀ w ∈ l, z.2.used ≤ w.2.used := by
  obtain ⟨y, l', rfl⟩ := List.exists_cons_of_ne_nil h
  exact foldl_lessUsed_some l' y

def Extent.recalled (x : Extent) (due : Nat) : Extent := { x with estate := .recalling, deadline := some due }

theorem State.freeTier2_congr {s t : State} (hhb : t.hb = s.hb) (hused : t.tier.hbmUsed = s.tier.hbmUsed)
    (hfd : t.fd Fd.GLB_MEMCFG_CTL_GIB = s.fd Fd.GLB_MEMCFG_CTL_GIB ∧ t.fd Fd.GLB_MEMCFG_MAP_GIB = s.fd Fd.GLB_MEMCFG_MAP_GIB) :
    t.freeTier2 = s.freeTier2 := by
  simp only [State.freeTier2, State.chanFree, State.chanUsable, State.tier2Base, State.ctlBytes, hhb, hused, hfd.1, hfd.2]

/-- RECALL of an extent: its record, then the message. -/
def State.recallOf (s : State) (e : Nat) (x : Extent) : State :=
  let ms := max 1 (s.fd Fd.TIER_LEND_CTL_RECALL_MS)
  let t := s.modLent e (·.recalled (s.usec + ms * 1000))
  match t.conduitTo x.node x.part with
  | some c => t.send c 0x1A 5 (lendPayload 2 x.part e 0 0 ms false []) .plain
  | none => t

/-- Below LOW_MIB the ACTIVE extent with the fewest frames in use is recalled. -/
theorem State.recall_eq {s w : State} (hw : s.waterMark = w) (hlow : w.freeTier2 < w.fd Fd.TIER_WATER_LOW_MIB * 2 ^ 20)
    (hactive : ∃ e ∈ w.tier.lent, e.2.estate = .active) :
    ∃ e x, (e, x) ∈ w.tier.lent ∧ x.estate = .active ∧ (∀ y ∈ w.tier.lent, y.2.estate = .active → x.used ≤ y.2.used) ∧
      s.recall = w.recallOf e x := by
  obtain ⟨e, he, hest⟩ := hactive
  have hne : w.tier.lent.filter (fun e => e.2.estate == .active) ≠ [] := List.ne_nil_of_mem (List.mem_filter.mpr ⟨he, beq_iff_eq.mpr hest⟩)
  obtain ⟨⟨e, x⟩, hz, hfold, hmin⟩ := foldl_lessUsed hne
  obtain ⟨hzl, hza⟩ := List.mem_filter.mp hz
  refine ⟨e, x, hzl, beq_iff_eq.mp hza, fun y hy hya => hmin y (List.mem_filter.mpr ⟨hy, beq_iff_eq.mpr hya⟩), ?_⟩
  have hbest : s.recall = match (w.tier.lent.filter (fun e => e.2.estate == .active)).foldl lessUsed none with
      | none => w
      | some (e, x) => w.recallOf e x := by
    unfold State.recall
    rw [hw]
    exact (if_neg (Nat.not_le.mpr hlow)).trans rfl
  rw [hbest, hfold]

section
variable (s : State) (e : Nat) (x : Extent)

/-- The record, and at most a message beside it. -/
theorem State.recallOf_eq : ∃ f,
    s.recallOf e x = (s.modLent e (·.recalled (s.usec + max 1 (s.fd Fd.TIER_LEND_CTL_RECALL_MS) * 1000))).onTrl f := by
  unfold State.recallOf
  extract_lets ms t
  split
  · exact t.send_eq_onTrl _ _ _ _ _
  · exact ⟨id, rfl⟩

theorem State.only_recallOf : s.only [.tier, .trl] (s.recallOf e x) := by
  obtain ⟨f, hf⟩ := s.recallOf_eq e x
  rw [hf]
  exact ((s.only_onTier _).mono (by decide)).then (State.only_onTrl _ f) (by decide)

/-- The record is RECALLING with its deadline; the other extents stay. -/
theorem State.lentX_recallOf (j : Nat) : (s.recallOf e x).lentX j =
    if j = e then (s.lentX e).map (·.recalled (s.usec + max 1 (s.fd Fd.TIER_LEND_CTL_RECALL_MS) * 1000)) else s.lentX j := by
  obtain ⟨f, hf⟩ := s.recallOf_eq e x
  rw [hf]
  exact s.lentX_modLent e _ j

end

/-! ## Frames of a lost borrower (R189) -/

/-- The entries of an extent's frames that are still to be zeroed, each given to a gecko once. -/
def State.zeroFrames (s : State) (e : Nat) (l : List (Nat × Nat)) : State :=
  l.foldl (fun (s : State) (p : Nat × Nat) =>
    if s.pgt.reclaim.any (fun r => r.loc == some ⟨.lent, s.node, p.1⟩) || s.hb.jobs.any (fun j => j.use == .zeroLent e p.1) then s
    else s.zeroOwnLent p.1) s

section
variable {e : Nat} {x : Extent}

theorem State.zeroOwnLent_eq {s : State} (hlent : s.tier.lent = [(e, x)]) {f : Nat} (hf : (tfind x.frames f).isSome = true) :
    ∃ j : GkJob, s.zeroOwnLent f = s.queueJob j ∧ j.use = .zeroLent e f := by
  simp only [State.zeroOwnLent, hlent, List.find?_cons_of_pos, hf]
  exact ⟨_, rfl, rfl⟩

/-- Each frame gets one job, in order. -/
theorem State.zeroFrames_eq : ∀ (l : List (Nat × Nat)) (s : State), s.tier.lent = [(e, x)] → s.pgt.reclaim = [] →
    (∀ p ∈ l, (tfind x.frames p.1).isSome = true) → (l.map Prod.fst).Nodup → (∀ p ∈ l, ∀ j ∈ s.hb.jobs, j.use ≠ .zeroLent e p.1) →
    ∃ js : List GkJob, s.zeroFrames e l = s.onHb (fun h => { h with jobs := h.jobs ++ js }) ∧
      js.map (·.use) = l.map fun p => .zeroLent e p.1 := by
  intro l
  induction l with
  | nil => exact fun s _ _ _ _ _ => ⟨[], by simp only [List.append_nil]; rfl, rfl⟩
  | cons p l ih =>
    intro s hlent hreclaim hframes hnodup hjobs
    obtain ⟨hpl, hnodup'⟩ := List.nodup_cons.mp hnodup
    obtain ⟨hp, hl⟩ := List.forall_mem_cons.mp hframes
    obtain ⟨j, hj, huse⟩ := State.zeroOwnLent_eq hlent hp
    have hnew : s.hb.jobs.any (fun j => j.use == .zeroLent e p.1) = false :=
      List.any_eq_false.mpr fun j hj => by simpa using hjobs p List.mem_cons_self j hj
    have hstep : s.zeroFrames e (p :: l) = (s.queueJob j).zeroFrames e l := by
      simp only [State.zeroFrames, List.foldl_cons, hreclaim, List.any_nil, hnew, Bool.or_self, Bool.false_eq_true, if_false, hj]
    have hjobs' : ∀ q ∈ l, ∀ i ∈ (s.queueJob j).hb.jobs, i.use ≠ .zeroLent e q.1 := by
      intro q hq i hi
      obtain hi | hi := List.mem_append.mp hi
      · exact hjobs q (List.mem_cons_of_mem _ hq) i hi
      · rw [List.mem_singleton.mp hi, huse]
        intro heq
        injection heq with _ hkey
        exact hpl (hkey ▸ List.mem_map_of_mem hq)
    obtain ⟨js, hjs, huses⟩ := ih (s.queueJob j) hlent hreclaim hl hnodup' hjobs'
    refine ⟨j :: js, ?_, by rw [List.map_cons, List.map_cons, huses, huse]⟩
    rw [hstep, hjs]
    simp only [State.queueJob, State.onHb, List.append_assoc, List.singleton_append]

end

/-! ## The window on an extent (Table 9-10) -/

/-- TIER_EXT_INFO of a lent extent. -/
def Extent.info (x : Extent) : Nat :=
  (x.frames.foldl (fun n (p : Nat × Nat) => n + p.2) 0) * 2 / 1024 * 2 ^ 28 + x.estate.code * 2 ^ 24 + x.part * 2 ^ 20 + x.node

def extSelDef : RegDef := ⟨Reg.TIER_EXT_SEL, [], [⟨9, 9, .rw, 0, .plain⟩, ⟨8, 0, .rw, 0, .plain⟩]⟩

theorem State.fd_extSel (s : State) (v : Nat) : let t := s.storeFields 0 Reg.TIER_EXT_SEL v
    t.fd Fd.TIER_EXT_SEL_SIDE = bits v 9 9 ∧ t.fd Fd.TIER_EXT_SEL_INDEX = bits v 8 0 := by
  have hreg : regAt Reg.TIER_EXT_SEL = some extSelDef := by decide
  have hside := State.bits_storeFields (s := s) 0 v hreg (by decide) (f := ⟨9, 9, .rw, 0, .plain⟩) (by decide) rfl rfl
  have hindex := State.bits_storeFields (s := s) 0 v hreg (by decide) (f := ⟨8, 0, .rw, 0, .plain⟩) (by decide) rfl rfl
  rw [Nat.zero_mul, Nat.zero_add] at hside hindex
  exact ⟨hside, hindex⟩

end Sys2Proof.Machine

end


section
/-! SUPPORT. What a LEND_OFFER message, a LEAP_PUSH and a LEAP_PULL do at either end (R184 to R187). -/

namespace Sys2Proof.Machine

/-- A good LEND_OFFER message of its kind does its work, and nothing settles after it. -/
theorem recvLend_eq {s u : State} {c : Conduit} {q : W32} {p : List Byte} {kind : Nat} {f : State → State} (hr : s.inReset = false)
    (hok : lendOk p = true) (hkind : ltype p = kind) (hf : f (s.takeHanded c.val q.toNat 0x1A) = u) (hu : u.idle) :
    recvLend c q p kind f s = .next (s.commit u) := by
  refine act_eq hr ?_
  dsimp only
  rw [hok, hkind, bne_self_eq_false, Bool.not_true, Bool.or_self, if_neg Bool.false_ne_true, hf, hu.settle]

/-- One that is malformed is refused. -/
theorem recvLend_refused {s : State} {c : Conduit} {q : W32} {p : List Byte} (hr : s.inReset = false) (hbad : lendOk p = false) (kind : Nat)
    (f : State → State) : recvLend c q p kind f s =
      .next (s.commit ((s.takeHanded c.val q.toNat 0x1A).respond c.val q.toNat 5 stFORMAT [])) := by
  refine act_eq hr ?_
  dsimp only
  rw [hbad, Bool.not_false, Bool.true_or, if_pos rfl]

section
variable {s : State} {c q : Nat} {p : List Byte}

/-! ## An OFFER at the borrower (R184) -/

/-- The extent of an OFFER bound to a partition. -/
def State.binding (s : State) (c : Nat) (p : List Byte) (part : Nat) : State := s.onTier fun b => { b with
  borrowed := tset b.borrowed (borrowKey (s.peerOf c) (lext p)) ⟨.active, s.peerOf c, part, lat p 8 8, [], none, false, c, false, none, false⟩ }

section
variable (hown : lat p 1 1 < 16)
include hown

theorem not_inherited : (lat p 1 1 / 16 % 2 == 1) = false := by
  rw [Nat.div_eq_of_lt hown]
  rfl

theorem State.offered_bound {i part : Nat} (hi : s.peerEntry (s.peerOf c) = some i) (hpart : s.neediest (s.borrowParts i) = some part)
    (hborrow : s.flag Fd.TIER_CTL_BORROW = true) (hroom : s.tier.borrowed.length < 512) (halign : lat p 8 8 % 2 ^ 30 = 0) :
    s.offered c q p = (s.binding c p part).respond c q 5 stOK (le 1 part) := by
  have htake : (s.flag Fd.TIER_CTL_BORROW && decide (s.tier.borrowed.length < 512) && lat p 8 8 % 2 ^ 30 == 0) = true := by
    rw [hborrow, decide_eq_true hroom, halign]
    rfl
  unfold State.offered
  dsimp only
  rw [not_inherited hown, hi, Option.map_some, Option.getD_some, if_neg Bool.false_ne_true, hpart]
  exact if_pos htake

/-- A peer from which nothing may be borrowed is refused. -/
theorem State.offered_stranger (hi : s.peerEntry (s.peerOf c) = none) : s.offered c q p = s.respond c q 5 stQUOTA [] := by
  unfold State.offered
  dsimp only
  rw [not_inherited hown, hi, Option.map_none, Option.getD_none, if_neg Bool.false_ne_true]
  rfl

end

/-! ## Pages of a lent extent (R185) -/

/-- The page of a push stored in frame a of its extent. -/
def State.stored (s : State) (p : List Byte) (a : Nat) : State :=
  (s.modLent (lat p 8 2) fun x => { x with frames := tset x.frames a (frameUnits (lat p 11 1)) }).hbmWrite (a * 2048) (p.drop 32)

theorem State.leapStore_eq {a : Nat} (hcode : lat p 11 1 < 6) (hext : lat p 8 2 < 512) (hpart : lat p 10 1 = s.partOf c)
    (hpart16 : lat p 10 1 < 16) (hlen : p.length = 32 + lat p 12 4) (hz : lat p 20 4 = 0) (hframe : lat p 24 8 = 0)
    (hfit : lat p 12 4 ≤ frameUnits (lat p 11 1) * 2048) (hcrc : crc32c (p.drop 32) = lat p 16 4)
    (hat : s.storeAt (s.peerOf c) (lat p 10 1) (lat p 8 2) (frameUnits (lat p 11 1)) = (stOK, some a)) :
    s.leapStore c q p = (s.stored p a).respond c q 5 stOK (le 8 a) := by
  have hc8 : lat p 11 1 % 8 = lat p 11 1 := Nat.mod_eq_of_lt (by omega)
  have he : lat p 8 2 % 512 = lat p 8 2 := Nat.mod_eq_of_lt hext
  have hp : lat p 10 1 % 16 = lat p 10 1 := Nat.mod_eq_of_lt hpart16
  have hgood : ¬ (p.length ≠ 32 + lat p 12 4 ∨ 512 ≤ lat p 8 2 ∨ 16 ≤ lat p 10 1 ∨ 16 ≤ lat p 11 1 ∨ lat p 20 4 ≠ 0 ∨ lat p 24 8 ≠ 0 ∨
      5 < lat p 11 1 ∨ frameUnits (lat p 11 1) * 2048 < lat p 12 4) := by omega
  unfold State.leapStore
  dsimp only
  rw [hc8, he, hp, if_neg hgood, if_neg (not_not.mpr hpart), hat]
  exact if_neg (not_not.mpr hcrc)

/-- A pull is answered with the page, or refused where it names no page of the sender's. -/
theorem State.leapPulled_eq (hcode : lat p 11 1 < 6) (hext : lat p 8 2 < 512) (hpart16 : lat p 10 1 < 16) (hlen : p.length = 32)
    (hz : lat p 20 4 = 0) (hfit : lat p 12 4 ≤ frameUnits (lat p 11 1) * 2048) : s.leapPulled c q p =
      let data := s.hbmRead (lat p 24 8 * 2048) (lat p 12 4)
      if lat p 10 1 = s.partOf c ∧ (s.lentAt (s.peerOf c) (lat p 10 1) (lat p 24 8) (frameUnits (lat p 11 1))).isSome = true then
        s.send c 0x19 5 (leapHeader (lat p 0 8) (lat p 8 2) (lat p 10 1) (lat p 11 1) data.length (crc32c data) (lat p 24 8) true ++ data) .plain
      else s.respond c q 5 stBOUNDS [] := by
  have hc8 : lat p 11 1 % 8 = lat p 11 1 := Nat.mod_eq_of_lt (by omega)
  have hp : lat p 10 1 % 16 = lat p 10 1 := Nat.mod_eq_of_lt hpart16
  have hgood : ¬ (p.length ≠ 32 ∨ 512 ≤ lat p 8 2 ∨ 16 ≤ lat p 10 1 ∨ 8 ≤ lat p 11 1 ∨ 5 < lat p 11 1 ∨ lat p 20 4 ≠ 0 ∨
      frameUnits (lat p 11 1) * 2048 < lat p 12 4) := by omega
  unfold State.leapPulled
  dsimp only
  rw [hc8, hp, if_neg hgood]
  by_cases hlent : lat p 10 1 = s.partOf c ∧ (s.lentAt (s.peerOf c) (lat p 10 1) (lat p 24 8) (frameUnits (lat p 11 1))).isSome = true
  · rw [if_pos hlent, if_neg]
    rw [not_or, not_not, Bool.not_eq_true, Option.isNone_eq_false_iff]
    exact hlent
  · rw [if_neg hlent, if_pos]
    rw [← Option.not_isSome, Bool.not_eq_true', ← Bool.not_eq_true]
    exact not_and_or.mp hlent

/-! ## The content of a page pulled (R185) -/

/-- The record of a leap after an update that keeps which page it is. -/
theorem State.leap_modLeap (d : Nat) {f : Leap → Leap} (hf : ∀ l, (f l).desc = l.desc) : (s.modLeap d f).leap d = (s.leap d).map f := by
  have hp : ((fun l : Leap => l.desc == d) ∘ fun l => if l.desc = d then f l else l) = fun l => l.desc == d := by
    funext l
    by_cases h : l.desc = d
    · simp only [Function.comp_apply, if_pos h, hf]
    · simp only [Function.comp_apply, if_neg h]
  have hfind : (s.modLeap d f).leap d = (s.leap d).map fun l => if l.desc = d then f l else l := by
    simp only [State.leap, State.modLeap, State.onTier, List.find?_map, hp]
  rw [hfind]
  cases hl : s.leap d with
  | none => rfl
  | some l =>
    have hd : l.desc = d := beq_iff_eq.mp (List.find?_some (p := fun l : Leap => l.desc == d) hl)
    rw [Option.map_some, if_pos hd, Option.map_some]

section
variable {d : Nat} {l : Leap} {x : Desc} (hl : s.leap d = some l) (hx : s.desc d = some x) (hnone : l.content = none) (hgood : l.bad = false)
include hl hx hnone hgood

/-- Content for a leap that is not on its way to FLASH is kept with it; a failure makes it bad. -/
theorem State.leapContent_eq (hdst : l.dst ≠ .flash) (st : Nat) (b : List Byte) : s.leapContent d st b =
    s.modLeap d (if st = stOK then fun l => { l with content := some b } else fun l => { l with bad := true }) := by
  simp only [State.leapContent, hl, hx, hnone, hgood, Option.isSome_none, Bool.or_self, Bool.false_eq_true, if_false, if_neg hdst]
  by_cases hst : st = stOK
  · rw [if_neg (not_not.mpr hst), if_pos hst]
  · rw [if_pos hst, if_neg hst]

end

/-- With no fault waiting an answer is the leap's alone. -/
theorem State.pulled_eq (hfaults : s.tier.faults = []) (d st : Nat) (b : List Byte) : s.pulled d st b = s.leapContent d st b := by
  have hsame : ∀ g : PageFault → PageFault, s.onTier (fun t => { t with faults := t.faults.map g }) = s := by
    intro g
    rw [State.onTier, hfaults, List.map_nil, ← hfaults]
  rw [State.pulled, hsame]

/-! ## RELEASE at the lender (R185) -/

/-- RELEASE's frames, in the order of the message. -/
def State.releaseFrames (s : State) (node : Nat) (p : List Byte) (l : List Nat) : State :=
  l.foldl (fun s i =>
    let f := lat p (32 + 8 * i) 8
    match s.lentX (lext p) with
    | some x =>
      if x.node = node ∧ (tfind x.frames f).isSome ∧ !s.pgt.reclaim.any (fun r => r.loc == some ⟨.lent, s.node, f⟩) then
        s.retireFrame ⟨.lent, s.node, f⟩ 0 x.part true
      else s
    | none => s) s

/-- The entry of deferred reclamation of a lent frame. -/
def State.lentReclaim (s : State) (x : Extent) (f : Nat) : Reclaim := ⟨none, some ⟨.lent, s.node, f⟩, 0, x.part, true, none, s.pgt.epoch⟩

/-- Each frame of the extent that the message names is held for reclamation, once. -/
theorem State.releaseFrames_eq {x : Extent} (p : List Byte) : ∀ (l : List Nat) (s : State), s.lentX (lext p) = some x →
    ∃ fs : List Nat, s.releaseFrames x.node p l = s.onPgt (fun g => { g with reclaim := g.reclaim ++ fs.map (s.lentReclaim x) }) ∧
      (∀ f ∈ fs, ∃ i ∈ l, f = lat p (32 + 8 * i) 8 ∧ (tfind x.frames f).isSome = true) ∧
      (∀ i ∈ l, (tfind x.frames (lat p (32 + 8 * i) 8)).isSome = true →
        (∃ r ∈ s.pgt.reclaim, r.loc = some ⟨.lent, s.node, lat p (32 + 8 * i) 8⟩) ∨ lat p (32 + 8 * i) 8 ∈ fs) := by
  intro l
  induction l with
  | nil => exact fun s _ => ⟨[], by simp only [List.map_nil, List.append_nil]; rfl, fun f hf => absurd hf List.not_mem_nil,
      fun i hi => absurd hi List.not_mem_nil⟩
  | cons i l ih =>
    intro s hx
    by_cases hnew : (tfind x.frames (lat p (32 + 8 * i) 8)).isSome = true ∧
        (!s.pgt.reclaim.any fun r => r.loc == some ⟨.lent, s.node, lat p (32 + 8 * i) 8⟩) = true
    · obtain ⟨fs, hfold, hfrom, hto⟩ := ih (s.retireFrame ⟨.lent, s.node, lat p (32 + 8 * i) 8⟩ 0 x.part true) hx
      refine ⟨lat p (32 + 8 * i) 8 :: fs, ?_, ?_, ?_⟩
      · have hstep : s.releaseFrames x.node p (i :: l) =
            (s.retireFrame ⟨.lent, s.node, lat p (32 + 8 * i) 8⟩ 0 x.part true).releaseFrames x.node p l := by
          simp only [State.releaseFrames, List.foldl_cons, hx, true_and, if_pos hnew]
        rw [hstep, hfold]
        simp only [State.onPgt, State.retireFrame, List.append_assoc, List.map_cons, List.singleton_append]
        rfl
      · intro f hf
        obtain rfl | hf := List.mem_cons.mp hf
        · exact ⟨i, List.mem_cons_self, rfl, hnew.1⟩
        · obtain ⟨j, hj, hfj⟩ := hfrom f hf
          exact ⟨j, List.mem_cons_of_mem _ hj, hfj⟩
      · intro j hj hsome
        obtain rfl | hj := List.mem_cons.mp hj
        · exact .inr List.mem_cons_self
        · obtain ⟨r, hr, hloc⟩ | hmem := hto j hj hsome
          · obtain hr | hr := List.mem_append.mp hr
            · exact .inl ⟨r, hr, hloc⟩
            · rw [List.mem_singleton.mp hr] at hloc
              injection hloc with hloc
              injection hloc with _ _ hframe
              exact .inr (hframe ▸ List.mem_cons_self)
          · exact .inr (List.mem_cons_of_mem _ hmem)
    · obtain ⟨fs, hfold, hfrom, hto⟩ := ih s hx
      refine ⟨fs, ?_, fun f hf => ?_, fun j hj hsome => ?_⟩
      · have hstep : s.releaseFrames x.node p (i :: l) = s.releaseFrames x.node p l := by
          simp only [State.releaseFrames, List.foldl_cons, hx, if_neg fun h => hnew (And.right h)]
        rw [hstep, hfold]
      · obtain ⟨j, hj, hfj⟩ := hfrom f hf
        exact ⟨j, List.mem_cons_of_mem _ hj, hfj⟩
      · obtain rfl | hj := List.mem_cons.mp hj
        · have hany : (s.pgt.reclaim.any fun r => r.loc == some ⟨.lent, s.node, lat p (32 + 8 * j) 8⟩) = true := by
            by_contra h
            exact hnew ⟨hsome, by rw [Bool.not_eq_true] at h; rw [h]; rfl⟩
          obtain ⟨r, hr, hloc⟩ := List.any_eq_true.mp hany
          exact .inl ⟨r, hr, beq_iff_eq.mp hloc⟩
        · exact hto j hj hsome

/-! ## RECALL at the borrower (R186) -/

/-- A location in a borrowed extent. -/
def Extent.covers (x : Extent) (l : Loc) : Bool :=
  l.tier == .lent && l.node == x.node && decide (x.base ≤ l.frame * 2048) && decide (l.frame * 2048 < x.base + 2 ^ 30)

section
variable {k : Nat} {x : Extent} (hone : s.tier.borrowed = [(k, x)])
include hone

/-- An extent with a page in it is not returned. -/
theorem State.returnExtents_covering (hpage : s.pgt.descs.any (fun y => x.covers y.2.loc) = true) : s.returnExtents = s := by
  unfold State.returnExtents
  rw [hone, List.foldl_cons, List.foldl_nil]
  extract_lets inside busy
  have hbusy : busy = true := by
    have hany : s.pgt.descs.any (fun p => inside p.2.loc) = true := hpage
    simp only [busy, hany, Bool.true_or]
  rw [hbusy, Bool.or_true, if_pos rfl]

/-- A RECALLING extent that holds nothing is returned. -/
theorem State.returnExtents_empty {c : Nat} (hstate : x.estate = .recalling) (hdescs : s.pgt.descs = []) (hleaps : s.tier.leaps = [])
    (hreclaim : s.pgt.reclaim = []) (hpush : s.pushOpen k = false) (hto : s.conduitTo x.node x.part = some c) :
    s.returnExtents = (s.onTier fun b => { b with borrowed := tdel b.borrowed k }).send c 0x1A 5
      (lendPayload 3 x.part (k % 512) 0 0 0 false []) (.giveBack k) := by
  unfold State.returnExtents
  rw [hone, List.foldl_cons, List.foldl_nil, hdescs, hleaps, hreclaim, hpush, hstate]
  have hto' : (s.onTier fun b => { b with borrowed := tdel b.borrowed k }).conduitTo x.node x.part = some c := hto
  dsimp only
  rw [hto']
  rfl

end

/-! ## REASSIGN at the lender (R187) -/

/-- The extent bound to another node, and offered to it. -/
theorem State.reassign_eq {x : Extent} {v : Nat} (hx : s.lentX (lext p) = some x) (hnode : x.node = s.peerOf c) (hpart : x.part = lpart p)
    (hactive : x.estate = .active) (hv : s.conduitToNode (lat p 4 4) = some v) : s.reassign c q p =
      ((s.modLent (lext p) fun x => { x with node := lat p 4 4 }).send v 0x1A 5 (lendPayload 1 x.part (lext p) 0 x.base 0 true [])
        .plain).respond c q 5 stOK [] := by
  have hbound : ¬ (x.node ≠ s.peerOf c ∨ x.part ≠ lpart p ∨ (x.estate ≠ .active ∧ x.estate ≠ .recalling)) := by
    rw [hnode, hpart, hactive]
    simp
  have hv' : (s.modLent (lext p) fun x => { x with node := lat p 4 4 }).conduitToNode (lat p 4 4) = some v := hv
  unfold State.reassign
  dsimp only
  rw [hx]
  dsimp only
  rw [if_neg hbound, hv']

end

end Sys2Proof.Machine

end


section
/-! Extents lent and borrowed (R184 to R187, R189). -/

namespace Sys2Proof.Proofs.Lending
open Sys2Proof Sys2Proof.Machine

section
variable {s : State} (hr : s.inReset = false)
include hr

/-! ## OFFER_SEND (R184) -/

theorem offerSend_gives {i : Fin 16} {a e c : Nat} (hc : s.sends c) (hoffer : s.sendOffer i.val =
      (s.offering i.val e a (s.fd (Fd.TIER_PEER_NODE i)) c).send c 0x1A 5 (lendPayload 1 0 e 0 (a * 2048) 0 false []) (.offer e)) :
    (Instr.offerSend i).gives s fun t =>
      t.lentX e = some ⟨.offered, s.fd (Fd.TIER_PEER_NODE i), 0, a * 2048, [], none, false, c, false, none, false⟩ ∧
        (∀ j, j ≠ e → t.lentX j = s.lentX j) ∧ tfind t.tier.hbmUsed a = some 524288 ∧ t.tier.lendTurn = (i.val + 1) % 16 ∧
        s.sentAll c [(0x1A, lendPayload 1 0 e 0 (a * 2048) 0 false [])] t ∧ s.only [.tier, .trl] t := by
  have hsends : (s.offering i.val e a (s.fd (Fd.TIER_PEER_NODE i)) c).sends c := hc
  have honly : s.only [.tier, .trl] (s.offering i.val e a (s.fd (Fd.TIER_PEER_NODE i)) c) := (s.only_onTier _).mono (by decide)
  refine ⟨_, act_eq hr hoffer, ?_⟩
  obtain ⟨f, hf⟩ := (s.offering i.val e a (s.fd (Fd.TIER_PEER_NODE i)) c).send_eq_onTrl c 0x1A 5
    (lendPayload 1 0 e 0 (a * 2048) 0 false []) (.offer e)
  refine ⟨?_, fun j hj => ?_, ?_, ?_, State.sentAll_commit_send _ _ _ _ rfl hsends,
    State.only_commit (honly.then (State.only_send _ _ _ _ _ _) (by decide))⟩
  all_goals rw [hf]
  · exact tfind_tset_same _ _ _
  · exact tfind_tset_ne _ _ hj
  · exact tfind_tset_same _ _ _
  · rfl

theorem offerSend_off (hlend : s.flag Fd.TIER_CTL_LEND = false) (i : Fin 16) : (Instr.offerSend i).gives s fun t => s.only [] t :=
  ⟨_, act_eq hr (State.sendOffer_off hlend i.val), State.only_commit (State.only.refl s _)⟩

/-! ## RECALL_DEADLINE and EXTENT_RECLAIM (R186, R189) -/

section
variable {ext : Fin 512} {x : Extent} (hx : s.lentX ext.val = some x)
include hx

theorem recallDeadline_gives {d : Nat} (hd : x.deadline = some d) (hstate : x.estate = .recalling) (hlate : x.late = false)
    (hdue : d ≤ s.usec) : (Instr.recallDeadline ext).gives s fun t =>
      t.lentX ext.val = some { x with late := true } ∧ t.fd Fd.TIER_ERR_RECALL_LATE = 1 ∧ s.only [.csr, .tier] t ∧
        s.regsBut [Reg.TIER_ERR] t := by
  let w := s.modLent ext.val fun x => { x with late := true }
  have honly : s.only [.csr, .tier] w := (s.only_onTier _).mono (by decide)
  refine ⟨_, act_eq hr (t := w.raise Fd.TIER_ERR_RECALL_LATE) ?_, State.lentX_modLent_same hx _,
    State.fd_setFd_same w Fd.TIER_ERR_RECALL_LATE 1 (by decide),
    State.only_commit (honly.then (State.only_setFd w _ _) (by decide)), State.regsBut_setFd w Fd.TIER_ERR_RECALL_LATE 1⟩
  simp only [hx, hd, hstate, hlate, decide_eq_true hdue]
  rfl

section
variable {ep : Nat} (hep : x.lostEpoch = some ep)
include hep

theorem extentReclaim_waits (hclear : s.epochClear ep = false) : (Instr.extentReclaim ext).gives s fun t => s.only [] t := by
  refine ⟨_, act_eq hr (t := s) ?_, State.only_commit (State.only.refl s _)⟩
  simp only [State.reclaimExtent, hx, hep, hclear, Bool.not_false, if_true]

variable (hclear : s.epochClear ep = true)
include hclear

omit hr in
theorem reclaimExtent_eq : s.reclaimExtent ext.val = (s.zeroFrames ext.val x.frames).settleExtent ext.val := by
  simp only [State.reclaimExtent, hx, hep, hclear, Bool.not_true, Bool.false_eq_true, if_false, State.zeroFrames]

theorem extentReclaim_empty (hempty : x.frames = []) : (Instr.extentReclaim ext).gives s fun t =>
    t.lentX ext.val = none ∧ tfind t.tier.hbmUsed (x.base / 2048) = none ∧ s.only [.hbm, .tier] t ∧
      s.hbmBut (x.base / 2048 * 2048) ((tfind s.tier.hbmUsed (x.base / 2048)).getD 0 * 2048) t := by
  have heq : s.reclaimExtent ext.val = s.takeBack ext.val := by
    rw [reclaimExtent_eq hx hep hclear, hempty]
    exact State.settleExtent_empty hx (by rw [hep, Option.isSome_some, Bool.or_true]) hempty
  obtain ⟨hgone, hfree, honly, hbut⟩ := State.takeBack_spec hx
  exact ⟨_, act_eq hr heq, hgone, hfree, State.only_commit honly, fun a ha => (s.commit_byteOf_hbm _ a).trans (hbut a ha)⟩

theorem extentReclaim_frames (hlent : s.tier.lent = [(ext.val, x)]) (hjobs : s.hb.jobs = []) (hreclaim : s.pgt.reclaim = [])
    (hwf : twf x.frames = true) (hheld : x.frames ≠ []) : (Instr.extentReclaim ext).gives s fun t =>
      t.hb.jobs.map (·.use) = x.frames.map (fun f => .zeroLent ext.val f.1) ∧ s.only [.hb] t := by
  have hnodup := nodup_keys_of_keysAbove hwf
  obtain ⟨js, hjs, huses⟩ := State.zeroFrames_eq x.frames s hlent hreclaim
    (fun p hp => by rw [tfind_of_mem hnodup hp]; rfl) hnodup (fun p _ j hj => by rw [hjobs] at hj; exact absurd hj List.not_mem_nil)
  have hx' : (s.onHb fun h => { h with jobs := h.jobs ++ js }).lentX ext.val = some x := hx
  refine ⟨_, act_eq hr (t := s.onHb fun h => { h with jobs := h.jobs ++ js }) ?_, ?_, State.only_commit (s.only_onHb _)⟩
  · rw [reclaimExtent_eq hx hep hclear, hjs]
    exact State.settleExtent_held hx' hheld
  · rw [← huses, show (s.commit (s.onHb fun h => { h with jobs := h.jobs ++ js })).hb.jobs = s.hb.jobs ++ js from rfl, hjobs,
      List.nil_append]

end

end

/-! ## TIER_EXT_SNAPSHOT (Table 9-10) -/

section
variable (v : Word)

theorem tierExtSnapshot_lent (hside : bits v.toNat 9 9 = 0) {x : Extent} (hx : s.lentX (bits v.toNat 8 0) = some x) :
    (Instr.tierExtSnapshot v).gives s fun t =>
      t.reg Reg.TIER_EXT_INFO = x.info % 2 ^ 64 ∧ s.only [.csr] t ∧ s.regsBut [Reg.TIER_EXT_SEL, Reg.TIER_EXT_INFO] t := by
  let w := s.storeFields 0 Reg.TIER_EXT_SEL v.toNat
  have htier : w.tier = s.tier := (s.only_storeFields 0 Reg.TIER_EXT_SEL v.toNat).2 .tier (by decide)
  obtain ⟨hsel, hindex⟩ := s.fd_extSel v.toNat
  have hflag : w.flag Fd.TIER_EXT_SEL_SIDE = false := by rw [State.flag, hsel, hside]; rfl
  have hx' : w.lentX (w.fd Fd.TIER_EXT_SEL_INDEX) = some x := by
    rw [hindex, State.lentX, htier]
    exact hx
  have hregs : s.regsBut [Reg.TIER_EXT_SEL, Reg.TIER_EXT_INFO] (w.setReg Reg.TIER_EXT_INFO x.info) := fun a ha => by
    simp only [List.mem_cons, List.not_mem_nil, or_false, not_or] at ha
    rw [State.reg_setReg_ne w x.info ha.2]
    exact State.reg_storeFields_ne 0 v.toNat (by rw [Nat.zero_mul, Nat.zero_add]; exact ha.1)
  refine ⟨_, act_eq hr (t := w.setReg Reg.TIER_EXT_INFO x.info) ?_,
    (s.commit_reg _ _).trans (State.reg_setReg_same w Reg.TIER_EXT_INFO x.info),
    State.only_commit ((s.only_storeFields _ _ _).then (State.only_setReg _ _ _) (by decide)), fun a ha => (s.commit_reg _ a).trans (hregs a ha)⟩
  simp only [show s.storeFields 0 Reg.TIER_EXT_SEL v.toNat = w from rfl, hflag, hx', Option.map_some, Bool.false_eq_true, if_false,
    Extent.info]

theorem tierExtSnapshot_none (hside : bits v.toNat 9 9 = 1) (hnone : s.tier.borrowed[bits v.toNat 8 0]? = none) :
    (Instr.tierExtSnapshot v).gives s fun t => t.reg Reg.TIER_EXT_INFO = 0 ∧ s.only [.csr] t := by
  let w := s.storeFields 0 Reg.TIER_EXT_SEL v.toNat
  have htier : w.tier = s.tier := (s.only_storeFields 0 Reg.TIER_EXT_SEL v.toNat).2 .tier (by decide)
  obtain ⟨hsel, hindex⟩ := s.fd_extSel v.toNat
  have hflag : w.flag Fd.TIER_EXT_SEL_SIDE = true := by rw [State.flag, hsel, hside]; rfl
  have hnone' : w.tier.borrowed[w.fd Fd.TIER_EXT_SEL_INDEX]? = none := by
    rw [hindex, htier]
    exact hnone
  refine ⟨_, act_eq hr (t := w.setReg Reg.TIER_EXT_INFO 0) ?_, State.reg_setReg_same w Reg.TIER_EXT_INFO 0,
    State.only_commit ((s.only_storeFields _ _ _).then (State.only_setReg _ _ _) (by decide))⟩
  dsimp only
  rw [hflag, if_pos rfl, hnone']

end

/-! ## RECALL_START (R186) -/

theorem recallStart_gives (hlow : s.fd Fd.TIER_WATER_LOW_MIB * 2 ^ 20 > s.freeTier2) (hactive : ∃ e ∈ s.tier.lent, e.2.estate = .active)
    (hwf : twf s.tier.lent = true) : Instr.recallStart.gives s fun t =>
      ∃ e x, s.lentX e = some x ∧ x.estate = .active ∧ (∀ y ∈ s.tier.lent, y.2.estate = .active → x.used ≤ y.2.used) ∧
        t.lentX e = some (x.recalled (s.usec + max 1 (s.fd Fd.TIER_LEND_CTL_RECALL_MS) * 1000)) ∧ (∀ j, j ≠ e → t.lentX j = s.lentX j) ∧
        (∀ c, s.conduitTo x.node x.part = some c → s.sends c →
          s.sentAll c [(0x1A, lendPayload 2 x.part e 0 0 (max 1 (s.fd Fd.TIER_LEND_CTL_RECALL_MS)) false [])] t) ∧
        s.only [.csr, .tier, .trl] t ∧ s.regsBut [Reg.TIER_ERR] t := by
  obtain ⟨w, hw⟩ : ∃ w, s.waterMark = w := ⟨_, rfl⟩
  have hmarked : s.Marked w := hw ▸ s.marked_waterMark
  obtain ⟨⟨p, htier⟩, honly, hregs⟩ := hmarked
  have hfd : ∀ {f : Fd}, f.addr ≠ Reg.TIER_ERR → w.fd f = s.fd f := fun h => hregs.fd (by simpa using h)
  have hlent : w.tier.lent = s.tier.lent := by rw [htier]
  have hlentX : ∀ j, w.lentX j = s.lentX j := fun j => by rw [State.lentX, State.lentX, hlent]
  have htrl : w.trl = s.trl := honly.2 .trl (by decide)
  have htwn : w.twn = s.twn := honly.2 .twn (by decide)
  have husec : w.usec = s.usec := by rw [State.usec, State.usec, show w.mtime = s.mtime from honly.2 .mtime (by decide)]
  have hms : w.fd Fd.TIER_LEND_CTL_RECALL_MS = s.fd Fd.TIER_LEND_CTL_RECALL_MS := hfd (by decide)
  have hfree : w.freeTier2 = s.freeTier2 := State.freeTier2_congr (honly.2 .hb (by decide)) (by rw [htier])
    ⟨hfd (by decide), hfd (by decide)⟩
  have hlow' : w.freeTier2 < w.fd Fd.TIER_WATER_LOW_MIB * 2 ^ 20 := by rw [hfree, hfd (by decide)]; exact hlow
  obtain ⟨e, x, hmem, hest, hmin, heq⟩ := State.recall_eq hw hlow' (by rw [hlent]; exact hactive)
  rw [hlent] at hmem hmin
  have hx : s.lentX e = some x := tfind_of_mem (nodup_keys_of_keysAbove hwf) hmem
  refine ⟨_, act_eq hr heq, e, x, hx, hest, hmin, ?_, fun j hj => ?_, fun c hc hs => ?_, ?_, ?_⟩
  · refine (w.lentX_recallOf e x e).trans ?_
    rw [if_pos rfl, hlentX, hx, Option.map_some, husec, hms]
  · exact (w.lentX_recallOf e x j).trans ((if_neg hj).trans (hlentX j))
  · let v := w.modLent e (·.recalled (w.usec + max 1 (w.fd Fd.TIER_LEND_CTL_RECALL_MS) * 1000))
    have hcond : v.conduit c = s.conduit c := by rw [State.conduit, State.conduit, ← htrl]; rfl
    have hto : v.conduitTo x.node x.part = some c := by
      rw [← hc, State.conduitTo, State.conduitTo, State.servedBy, State.servedBy, ← htrl, ← htwn]
      rfl
    have hsends : v.sends c := State.sends_of_regsBut hcond (by rw [← htwn]; rfl) (hregs.of_csr rfl) (by decide) hs
    have hsend : w.recallOf e x = v.send c 0x1A 5
        (lendPayload 2 x.part e 0 0 (max 1 (s.fd Fd.TIER_LEND_CTL_RECALL_MS)) false []) .plain := by
      rw [State.recallOf, ← hms]
      rw [show (w.modLent e _).conduitTo x.node x.part = some c from hto]
    rw [hsend]
    exact State.sentAll_commit_send _ _ _ _ hcond hsends
  · exact State.only_commit ((honly.mono (by decide)).then (w.only_recallOf e x) (by decide))
  · exact hregs.of_csr ((w.only_recallOf e x).2 .csr (by decide))

end

end Sys2Proof.Proofs.Lending

end

section
/-! The messages of lending, at either end (R184 to R187). -/

namespace Sys2Proof.Proofs.Lending
open Sys2Proof Sys2Proof.Machine

/-! ## The arms, each a message of its kind -/

section
variable (c : Conduit) (q : W32) (p : List Byte) (s : State)

theorem exec_lendOffer : exec (.lendOffer c q p) s = recvLend c q p 1 (fun s => s.offered c.val q.toNat p) s := rfl
theorem exec_lendRelease : exec (.lendRelease c q p) s = recvLend c q p 4 (fun s => s.lendRelease (s.peerOf c.val) p) s := rfl
theorem exec_lendRecall : exec (.lendRecall c q p) s = recvLend c q p 2 (fun s => s.recalledBy (s.peerOf c.val) p) s := rfl
theorem exec_lendReassign : exec (.lendReassign c q p) s = recvLend c q p 5 (fun s => s.reassign c.val q.toNat p) s := rfl

theorem exec_lendReturn : exec (.lendReturn c q p) s = recvLend c q p 3 (fun s =>
    match s.lentX (lext p) with
    | some x => if x.node = s.peerOf c.val then
        (s.modLent (lext p) fun x => { x with returned := true, estate := .returning }).settleExtent (lext p) else s
    | none => s) s := rfl

end

section
variable {s : State} (hr : s.inReset = false) {c : Conduit} (q : W32) {p : List Byte} (hs : s.sends c.val) (hidle : s.idle)
include hr hs hidle

/-! ## LEND_OFFER (R184) -/

section
variable (hok : lendOk p = true) (hkind : ltype p = 1) (hown : lat p 1 1 < 16)
include hok hkind hown

theorem lendOffer_bound {i part : Nat} (hi : s.peerEntry (s.peerOf c.val) = some i) (hpart : s.neediest (s.borrowParts i) = some part)
    (hborrow : s.flag Fd.TIER_CTL_BORROW = true) (hroom : s.tier.borrowed.length < 512) (halign : lat p 8 8 % 2 ^ 30 = 0) :
    (Instr.lendOffer c q p).gives s fun t =>
      t.tier = { s.tier with
        borrowed := tset s.tier.borrowed (borrowKey (s.peerOf c.val) (lext p))
          ⟨.active, s.peerOf c.val, part, lat p 8 8, [], none, false, c.val, false, none, false⟩ } ∧
        s.answered c.val q.toNat stOK (le 1 part) t ∧ s.only [.tier, .trl] t := by
  let w := (s.takeHanded c.val q.toNat 0x1A).binding c.val p part
  have hw : w.idle := hidle
  have honly : s.only [.tier, .trl] w := ((s.only_takeHanded _ _ _).mono (by decide)).then (State.only_onTier _ _) (by decide)
  have hrun := State.offered_bound (s := s.takeHanded c.val q.toNat 0x1A) (c := c.val) (q := q.toNat) hown hi hpart hborrow hroom halign
  refine ⟨_, (exec_lendOffer c q p s).trans (recvLend_eq hr hok hkind hrun (hw.respond _ _ _ _ _)), ?_,
    State.answered_commit _ _ _ _ rfl hs, State.only_commit (honly.then (State.only_respond _ _ _ _ _ _) (by decide))⟩
  exact State.tier_send w _ _ _ _ _

theorem lendOffer_stranger (hi : s.peerEntry (s.peerOf c.val) = none) : (Instr.lendOffer c q p).gives s fun t =>
    s.answered c.val q.toNat stQUOTA [] t ∧ s.only [.trl] t := by
  let w := s.takeHanded c.val q.toNat 0x1A
  have hw : w.idle := hidle
  have hrun := State.offered_stranger (s := w) (c := c.val) (q := q.toNat) hown hi
  exact ⟨_, (exec_lendOffer c q p s).trans (recvLend_eq hr hok hkind hrun (hw.respond _ _ _ _ _)),
    State.answered_commit _ _ _ _ rfl hs, State.only_commit ((s.only_takeHanded _ _ _).then (State.only_respond _ _ _ _ _ _) (by decide))⟩

end

omit hidle in
theorem lendOffer_malformed (hbad : lendOk p = false) : (Instr.lendOffer c q p).gives s fun t =>
    s.answered c.val q.toNat stFORMAT [] t ∧ s.only [.trl] t :=
  ⟨_, (exec_lendOffer c q p s).trans (recvLend_refused hr hbad 1 _), State.answered_commit _ _ _ _ rfl hs,
    State.only_commit ((s.only_takeHanded _ _ _).then (State.only_respond _ _ _ _ _ _) (by decide))⟩

/-! ## LEAP_PUSH and LEAP_PULL (R185) -/

section
variable (hcode : lat p 11 1 < 6) (hpart16 : lat p 10 1 < 16) (hext : lat p 8 2 < 512)
include hcode hpart16 hext

theorem leapPush_stores {a : Nat} (hpart : lat p 10 1 = s.partOf c.val) (hlen : p.length = 32 + lat p 12 4) (hz : lat p 20 4 = 0)
    (hframe : lat p 24 8 = 0) (hfit : lat p 12 4 ≤ frameUnits (lat p 11 1) * 2048) (hcrc : crc32c (p.drop 32) = lat p 16 4)
    (hat : s.storeAt (s.peerOf c.val) (lat p 10 1) (lat p 8 2) (frameUnits (lat p 11 1)) = (stOK, some a))
    (hend : a * 2048 + lat p 12 4 ≤ hbmBytes) : (Instr.leapPush c q p).gives s fun t =>
      t.hbmRead (a * 2048) (lat p 12 4) = p.drop 32 ∧ s.hbmBut (a * 2048) (lat p 12 4) t ∧
        (t.lentX (lat p 8 2)).map (·.frames) = (s.lentX (lat p 8 2)).map (fun x => tset x.frames a (frameUnits (lat p 11 1))) ∧
        s.answered c.val q.toNat stOK (le 8 a) t ∧ s.only [.hbm, .tier, .trl] t := by
  let v := s.takeHanded c.val q.toNat 0x19
  let w := v.stored p a
  have hw : w.idle := hidle
  have honly : s.only [.hbm, .tier, .trl] w := (((s.only_takeHanded _ _ _).mono (by decide)).then (State.only_onTier _ _) (by decide)).then
    (State.only_hbmWrite _ _ _) (by decide)
  have hsize : (p.drop 32).length = lat p 12 4 := by rw [List.length_drop, hlen]; omega
  obtain ⟨f, hf⟩ := w.send_eq_onTrl c.val 0x30 5 (respHeader q.toNat stOK ++ le 8 a) .plain
  have hrun : (v.leapStore c.val q.toNat p).settle = w.respond c.val q.toNat 5 stOK (le 8 a) := by
    rw [State.leapStore_eq (s := v) hcode hext hpart hpart16 hlen hz hframe hfit hcrc hat, (hw.respond _ _ _ _ _).settle]
  have hexec : exec (.leapPush c q p) s = .next (s.commit (w.respond c.val q.toNat 5 stOK (le 8 a))) := by
    refine act_eq hr ?_
    dsimp only
    rw [Nat.div_eq_of_lt (by omega), if_neg (by decide)]
    exact hrun
  refine ⟨_, hexec, ?_, fun b hb => ?_, ?_, State.answered_commit _ _ _ _ rfl hs,
    State.only_commit (honly.then (State.only_respond _ _ _ _ _ _) (by decide))⟩
  · rw [State.commit_hbmRead, ← hsize]
    exact (congrArg (fun t : State => t.hbmRead (a * 2048) (p.drop 32).length) hf).trans
      (State.hbmRead_hbmWrite _ _ _ (by rw [hsize]; exact hend))
  · rw [← hsize] at hb
    rw [State.commit_byteOf_hbm]
    exact (congrArg (fun t : State => byteOf t.hbm b) hf).trans (State.byteOf_hbmWrite_outside _ _ _ hb)
  · have hx := v.lentX_modLent (lat p 8 2) (fun x => { x with frames := tset x.frames a (frameUnits (lat p 11 1)) }) (lat p 8 2)
    rw [if_pos rfl] at hx
    refine (congrArg (fun t : State => (t.lentX (lat p 8 2)).map (·.frames)) hf).trans ((congrArg (Option.map (·.frames)) hx).trans ?_)
    rw [Option.map_map]
    rfl

omit hidle in
theorem leapPull_gives (hlen : p.length = 32) (hz : lat p 20 4 = 0) (hfit : lat p 12 4 ≤ frameUnits (lat p 11 1) * 2048)
    (hunlocked : s.lockedAt (lat p 24 8 * 2048) (lat p 12 4) = false) : (Instr.leapPull c q p).gives s fun t =>
      let data := s.hbmRead (lat p 24 8 * 2048) (lat p 12 4)
      (if lat p 10 1 = s.partOf c.val ∧ (s.lentAt (s.peerOf c.val) (lat p 10 1) (lat p 24 8) (frameUnits (lat p 11 1))).isSome = true then
        s.sentAll c.val [(0x19, leapHeader (lat p 0 8) (lat p 8 2) (lat p 10 1) (lat p 11 1) data.length (crc32c data) (lat p 24 8) true ++ data)] t
      else s.answered c.val q.toNat stBOUNDS [] t) ∧ s.only [.trl] t := by
  have hrun := State.leapPulled_eq (s := s.takeHanded c.val q.toNat 0x18) (c := c.val) (q := q.toNat) hcode hext hpart16 hlen hz hfit
  refine ⟨_, actIf_eq hr (by rw [hunlocked]; rfl) hrun, ?_⟩
  have honly := s.only_takeHanded c.val q.toNat 0x18
  by_cases hlent : lat p 10 1 = s.partOf c.val ∧
      (s.lentAt (s.peerOf c.val) (lat p 10 1) (lat p 24 8) (frameUnits (lat p 11 1))).isSome = true
  · have hlent' : lat p 10 1 = (s.takeHanded c.val q.toNat 0x18).partOf c.val ∧ ((s.takeHanded c.val q.toNat 0x18).lentAt
        ((s.takeHanded c.val q.toNat 0x18).peerOf c.val) (lat p 10 1) (lat p 24 8) (frameUnits (lat p 11 1))).isSome = true := hlent
    dsimp only
    rw [if_pos hlent, if_pos hlent']
    exact ⟨State.sentAll_commit_send _ _ _ _ rfl hs, State.only_commit (honly.then (State.only_send _ _ _ _ _ _) (by decide))⟩
  · have hlent' : ¬ (lat p 10 1 = (s.takeHanded c.val q.toNat 0x18).partOf c.val ∧ ((s.takeHanded c.val q.toNat 0x18).lentAt
        ((s.takeHanded c.val q.toNat 0x18).peerOf c.val) (lat p 10 1) (lat p 24 8) (frameUnits (lat p 11 1))).isSome = true) := hlent
    dsimp only
    rw [if_neg hlent, if_neg hlent']
    exact ⟨State.answered_commit _ _ _ _ rfl hs, State.only_commit (honly.then (State.only_respond _ _ _ _ _ _) (by decide))⟩

end

omit hs in
theorem leapPush_answers {l : Leap} {x : Desc} (hans : lat p 11 1 / 8 % 2 = 1) (hown : lat p 0 8 < 2 ^ 63)
    (hl : s.leap (lat p 0 8) = some l) (hx : s.desc (lat p 0 8) = some x) (hnone : l.content = none) (hgood : l.bad = false)
    (hdst : l.dst = .hbm) (hfaults : s.tier.faults = []) : (Instr.leapPush c q p).gives s fun t =>
      (if p.length = 32 + lat p 12 4 ∧ crc32c (p.drop 32) = lat p 16 4 then
        t.leap (lat p 0 8) = some { l with content := some (p.drop 32) } else t.leap (lat p 0 8) = some { l with bad := true }) ∧
      s.only [.tier, .trl] t := by
  let v := s.takeHanded c.val q.toNat 0x19
  let st := if p.length = 32 + lat p 12 4 ∧ crc32c (p.drop 32) = lat p 16 4 then stOK else stPOISONED
  let f := if st = stOK then fun l : Leap => { l with content := some (p.drop 32) } else fun l => { l with bad := true }
  have hw : (v.modLeap (lat p 0 8) f).idle := hidle
  have honly : s.only [.tier, .trl] (v.modLeap (lat p 0 8) f) :=
    ((s.only_takeHanded _ _ _).mono (by decide)).then (State.only_onTier _ _) (by decide)
  have hrun : (v.pulled (lat p 0 8) st (p.drop 32)).settle = v.modLeap (lat p 0 8) f := by
    rw [State.pulled_eq (s := v) hfaults, State.leapContent_eq (s := v) hl hx hnone hgood (by rw [hdst]; decide), hw.settle]
  have hexec : exec (.leapPush c q p) s = .next (s.commit (v.modLeap (lat p 0 8) f)) := by
    refine act_eq hr ?_
    dsimp only
    rw [if_pos hans, if_neg (Nat.not_le.mpr hown)]
    exact hrun
  have hf : ∀ l, (f l).desc = l.desc := by
    intro l
    simp only [f]
    split <;> rfl
  have hleap : (v.modLeap (lat p 0 8) f).leap (lat p 0 8) = some (f l) := by
    rw [State.leap_modLeap _ hf]
    exact congrArg (Option.map f) hl
  refine ⟨_, hexec, ?_, State.only_commit honly⟩
  by_cases hgood : p.length = 32 + lat p 12 4 ∧ crc32c (p.drop 32) = lat p 16 4
  · rw [if_pos hgood]
    exact hleap.trans (by simp only [f, st, if_pos hgood, if_true])
  · rw [if_neg hgood]
    exact hleap.trans (by simp only [f, st, if_neg hgood, show stPOISONED ≠ stOK by decide, if_false])

/-! ## LEND_RELEASE and LEND_RECALL (R185, R186) -/

section
variable (hok : lendOk p = true)
include hok

omit hs in
theorem lendRelease_gives (hkind : ltype p = 4) {x : Extent} (hx : s.lentX (lext p) = some x) (hnode : x.node = s.peerOf c.val) :
    (Instr.lendRelease c q p).gives s fun t =>
      (∃ l, t.pgt = { s.pgt with reclaim := s.pgt.reclaim ++ l } ∧
        ∀ r ∈ l, r.epoch = s.pgt.epoch ∧ ∃ i < lat p 18 2, r.loc = some ⟨.lent, s.node, lat p (32 + 8 * i) 8⟩ ∧
          (tfind x.frames (lat p (32 + 8 * i) 8)).isSome = true) ∧
      (∀ i < lat p 18 2, (tfind x.frames (lat p (32 + 8 * i) 8)).isSome = true →
        ∃ r ∈ t.pgt.reclaim, r.loc = some ⟨.lent, s.node, lat p (32 + 8 * i) 8⟩) ∧ s.only [.pgt, .trl] t := by
  let v := s.takeHanded c.val q.toNat 0x1A
  obtain ⟨fs, hfold, hfrom, hto⟩ := State.releaseFrames_eq p (List.range (lat p 18 2)) v hx
  let w := v.onPgt fun g => { g with reclaim := g.reclaim ++ fs.map (v.lentReclaim x) }
  have hw : w.idle := hidle
  have hrun : v.lendRelease (v.peerOf c.val) p = w := by
    rw [show v.peerOf c.val = x.node from hnode.symm]
    exact hfold
  refine ⟨_, (exec_lendRelease c q p s).trans (recvLend_eq hr hok hkind hrun hw), ⟨fs.map (v.lentReclaim x), rfl, fun r hmem => ?_⟩,
    fun i hi hsome => ?_, State.only_commit (((s.only_takeHanded _ _ _).mono (by decide)).then (State.only_onPgt _ _) (by decide))⟩
  · obtain ⟨f, hf, rfl⟩ := List.mem_map.mp hmem
    obtain ⟨i, hi, rfl, hsome⟩ := hfrom f hf
    exact ⟨rfl, i, List.mem_range.mp hi, rfl, hsome⟩
  · obtain ⟨r, hmem, hloc⟩ | hmem := hto i (List.mem_range.mpr hi) hsome
    · exact ⟨r, List.mem_append_left _ hmem, hloc⟩
    · exact ⟨_, List.mem_append_right _ (List.mem_map_of_mem hmem), rfl⟩

section
variable (hkind : ltype p = 2) {x : Extent} (hone : s.tier.borrowed = [(borrowKey (s.peerOf c.val) (lext p), x)]) (hactive : x.estate = .active)
include hkind hone hactive

omit hr hs hok hkind hidle in
/-- The one extent, RECALLING from the RECALL on. -/
theorem borrowed_recalling : tmod s.tier.borrowed (borrowKey (s.peerOf c.val) (lext p)) (fun x =>
      if x.estate == .active then { x with estate := .recalling, deadline := some (s.usec + lat p 16 2 * 1000) } else x) =
    [(borrowKey (s.peerOf c.val) (lext p), x.recalled (s.usec + lat p 16 2 * 1000))] := by
  simp [hone, tmod, tfind, tset, hactive, Extent.recalled]

omit hs in
theorem lendRecall_covered (hpage : ∃ y ∈ s.pgt.descs, y.2.loc.tier = .lent ∧ y.2.loc.node = x.node ∧ x.base ≤ y.2.loc.frame * 2048 ∧
      y.2.loc.frame * 2048 < x.base + 2 ^ 30) : (Instr.lendRecall c q p).gives s fun t =>
    t.tier.borrowed = [(borrowKey (s.peerOf c.val) (lext p), x.recalled (s.usec + lat p 16 2 * 1000))] ∧ s.only [.tier, .trl] t := by
  let v := s.takeHanded c.val q.toNat 0x1A
  let w := v.onTier fun b => { b with borrowed := tmod b.borrowed (borrowKey (v.peerOf c.val) (lext p)) fun x =>
    if x.estate == .active then { x with estate := .recalling, deadline := some (v.usec + lat p 16 2 * 1000) } else x }
  have hw : w.idle := hidle
  have hborrowed : w.tier.borrowed = [(borrowKey (s.peerOf c.val) (lext p), x.recalled (s.usec + lat p 16 2 * 1000))] :=
    borrowed_recalling hone hactive
  have hcovers : w.pgt.descs.any (fun y => (x.recalled (s.usec + lat p 16 2 * 1000)).covers y.2.loc) = true := by
    obtain ⟨y, hy, htier, hnode, hlo, hhi⟩ := hpage
    refine List.any_eq_true.mpr ⟨y, hy, ?_⟩
    simp only [Extent.covers, Extent.recalled, htier, hnode, hlo, hhi, beq_self_eq_true, decide_true, Bool.and_self]
  exact ⟨_, (exec_lendRecall c q p s).trans (recvLend_eq hr hok hkind (State.returnExtents_covering hborrowed hcovers) hw), hborrowed,
    State.only_commit (((s.only_takeHanded _ _ _).mono (by decide)).then (State.only_onTier _ _) (by decide))⟩

theorem lendRecall_empty (hdescs : s.pgt.descs = []) (hleaps : s.tier.leaps = []) (hreclaim : s.pgt.reclaim = [])
    (hpush : s.pushOpen (borrowKey (s.peerOf c.val) (lext p)) = false) (hto : s.conduitTo x.node x.part = some c.val) :
    (Instr.lendRecall c q p).gives s fun t => t.tier.borrowed = [] ∧
      s.sentAll c.val [(0x1A, lendPayload 3 x.part (borrowKey (s.peerOf c.val) (lext p) % 512) 0 0 0 false [])] t ∧ s.only [.tier, .trl] t := by
  let k := borrowKey (s.peerOf c.val) (lext p)
  let v := s.takeHanded c.val q.toNat 0x1A
  let w := v.onTier fun b => { b with borrowed := tmod b.borrowed (borrowKey (v.peerOf c.val) (lext p)) fun x =>
    if x.estate == .active then { x with estate := .recalling, deadline := some (v.usec + lat p 16 2 * 1000) } else x }
  let u := w.onTier fun b => { b with borrowed := tdel b.borrowed k }
  have hu : u.idle := hidle
  have hborrowed : w.tier.borrowed = [(k, x.recalled (s.usec + lat p 16 2 * 1000))] := borrowed_recalling hone hactive
  have hnone : u.tier.borrowed = [] := by
    refine (congrArg (tdel · k) hborrowed).trans ?_
    simp [tdel]
  have honly : s.only [.tier, .trl] u := (((s.only_takeHanded _ _ _).mono (by decide)).then (State.only_onTier _ _) (by decide)).then
    (State.only_onTier _ _) (by decide)
  have hrun := State.returnExtents_empty hborrowed rfl hdescs hleaps hreclaim hpush hto
  refine ⟨_, (exec_lendRecall c q p s).trans (recvLend_eq hr hok hkind hrun (hu.send _ _ _ _ _)), ?_,
    State.sentAll_commit_send _ _ _ _ rfl hs, State.only_commit (honly.then (State.only_send _ _ _ _ _ _) (by decide))⟩
  exact (congrArg TierBlock.borrowed (State.tier_send u _ _ _ _ _)).trans hnone

end

/-! ## LEND_RETURN and LEND_REASSIGN (R186, R187) -/

section
variable {x : Extent} (hx : s.lentX (lext p) = some x) (hnode : x.node = s.peerOf c.val)
include hx hnode

section
variable (hkind : ltype p = 3)
include hkind

omit hs in
theorem lendReturn_held (hheld : x.frames ≠ []) : (Instr.lendReturn c q p).gives s fun t =>
    t.lentX (lext p) = some { x with
      returned := true
      estate := .returning } ∧ s.only [.tier, .trl] t := by
  let v := s.takeHanded c.val q.toNat 0x1A
  let w := v.modLent (lext p) fun x => { x with returned := true, estate := .returning }
  have hw : w.idle := hidle
  have hx' : w.lentX (lext p) = some { x with returned := true, estate := .returning } := State.lentX_modLent_same (s := v) hx _
  have hv : v.lentX (lext p) = some x := hx
  refine ⟨_, (exec_lendReturn c q p s).trans (recvLend_eq hr hok hkind (u := w) ?_ hw), hx',
    State.only_commit (((s.only_takeHanded _ _ _).mono (by decide)).then (State.only_onTier _ _) (by decide))⟩
  rw [hv]
  exact (if_pos hnode).trans (State.settleExtent_held hx' hheld)

omit hs in
theorem lendReturn_empty (hempty : x.frames = []) : (Instr.lendReturn c q p).gives s fun t =>
    t.lentX (lext p) = none ∧ tfind t.tier.hbmUsed (x.base / 2048) = none ∧ s.only [.hbm, .tier, .trl] t := by
  let v := s.takeHanded c.val q.toNat 0x1A
  let w := v.modLent (lext p) fun x => { x with returned := true, estate := .returning }
  have hx' : w.lentX (lext p) = some { x with returned := true, estate := .returning } := State.lentX_modLent_same (s := v) hx _
  have hv : v.lentX (lext p) = some x := hx
  obtain ⟨hgone, hfree, honly, -⟩ := State.takeBack_spec hx'
  have hw : (w.takeBack (lext p)).idle := by
    rw [State.takeBack_eq hx']
    exact hidle
  refine ⟨_, (exec_lendReturn c q p s).trans (recvLend_eq hr hok hkind (u := w.takeBack (lext p)) ?_ hw), hgone, hfree,
    State.only_commit ((((s.only_takeHanded _ _ _).mono (by decide)).then (State.only_onTier _ _) (by decide)).then honly (by decide))⟩
  rw [hv]
  exact (if_pos hnode).trans (State.settleExtent_empty hx' rfl hempty)

end

theorem lendReassign_gives (hkind : ltype p = 5) {v : Nat} (hpart : x.part = lpart p) (hactive : x.estate = .active)
    (hto : s.conduitToNode (lat p 4 4) = some v) (hne : v ≠ c.val) (hsv : s.sends v) : (Instr.lendReassign c q p).gives s fun t =>
      t.lentX (lext p) = some { x with node := lat p 4 4 } ∧
        s.sentAll v [(0x1A, lendPayload 1 x.part (lext p) 0 x.base 0 true [])] t ∧ s.answered c.val q.toNat stOK [] t ∧
        s.only [.tier, .trl] t := by
  let u := s.takeHanded c.val q.toNat 0x1A
  let w := u.modLent (lext p) fun x => { x with node := lat p 4 4 }
  let payload := lendPayload 1 x.part (lext p) 0 x.base 0 true []
  let r := w.send v 0x1A 5 payload .plain
  have hw : w.idle := hidle
  have honly : s.only [.tier, .trl] w := ((s.only_takeHanded _ _ _).mono (by decide)).then (State.only_onTier _ _) (by decide)
  have hrun := State.reassign_eq (s := u) (c := c.val) (q := q.toNat) hx hnode hpart hactive hto
  have hrc : r.conduit c.val = s.conduit c.val := State.conduit_send_ne w v 0x1A 5 payload .plain hne.symm hsv
  have hrs : r.sends c.val := State.sends_congr (s := s) hrc (State.csr_send w _ _ _ _ _)
    (congrArg Twn.role ((w.only_send v 0x1A 5 payload .plain).2 .twn (by decide))) hs
  have hrv : (r.respond c.val q.toNat 5 stOK []).conduit v = r.conduit v := State.conduit_send_ne r c.val _ _ _ _ hne hrs
  have htier : (r.respond c.val q.toNat 5 stOK []).tier = w.tier :=
    (State.tier_send r _ _ _ _ _).trans (State.tier_send w _ _ _ _ _)
  refine ⟨_, (exec_lendReassign c q p s).trans (recvLend_eq hr hok hkind hrun ((hw.send _ _ _ _ _).respond _ _ _ _ _)), ?_, ?_,
    State.answered_commit _ _ _ _ hrc hrs,
    State.only_commit ((honly.then (w.only_send _ _ _ _ _) (by decide)).then (r.only_respond _ _ _ _ _) (by decide))⟩
  · exact (congrArg (fun b : TierBlock => tfind b.lent (lext p)) htier).trans (State.lentX_modLent_same (s := u) hx _)
  · exact ((State.sent_send w v 0x1A 5 payload .plain hsv).congr rfl hrv).all

end

end

end

/-- Settles O50: each message and timer by the rule for what it does to an extent; nothing waits that could settle after it. -/
theorem lendingAndBorrowing : Obligations.LendingAndBorrowing := by
  intro s hr
  refine ⟨?_, fun hlend i => offerSend_off hr hlend i,
    fun ext x hx => ⟨fun d hd hstate hlate hdue => recallDeadline_gives hr hx hd hstate hlate hdue, fun ep hep => ⟨?_, ?_, ?_⟩⟩,
    fun v => ⟨fun hside x hx => tierExtSnapshot_lent hr v hside hx, tierExtSnapshot_none hr v⟩,
    recallStart_gives hr, fun c q p hs hops hcopies hheld => ?_⟩
  · intro i a e c node hlend hturn hnone hroom hmax ha he hto hc
    exact offerSend_gives hr hc (State.sendOffer_eq hlend hturn hnone hroom hmax ha he hto)
  · exact extentReclaim_waits hr hx hep
  · exact extentReclaim_empty hr hx hep
  · exact extentReclaim_frames hr hx hep
  · have hidle : s.idle := ⟨hops, hcopies, hheld⟩
    intro k
    refine ⟨fun hok hkind hown => ⟨fun i part => lendOffer_bound hr q hs hidle hok hkind hown, lendOffer_stranger hr q hs hidle hok hkind hown⟩,
      lendOffer_malformed hr q hs, ?_, ?_, ?_, ?_, fun hok hkind x hone hactive => ⟨?_, ?_⟩, fun hok hkind x hx hnode => ⟨?_, ?_⟩, ?_⟩
    · exact fun a hcode hext hpart hpart16 hlen hz hframe hfit hcrc hat hend =>
        leapPush_stores hr q hs hidle hcode hpart16 hext hpart hlen hz hframe hfit hcrc hat hend
    · exact fun l x hans hown hl hx hnone hgood hdst hfaults => leapPush_answers hr q hidle hans hown hl hx hnone hgood hdst hfaults
    · exact fun hcode hext hpart16 hlen hz hfit hunlocked => leapPull_gives hr q hs hcode hpart16 hext hlen hz hfit hunlocked
    · exact fun hok hkind x hx hnode => lendRelease_gives hr q hidle hok hkind hx hnode
    · exact lendRecall_covered hr q hidle hok hkind hone hactive
    · exact lendRecall_empty hr q hs hidle hok hkind hone hactive
    · exact lendReturn_held hr q hidle hok hx hnode hkind
    · exact lendReturn_empty hr q hidle hok hx hnode hkind
    · exact fun hok hkind x v hx hnode hpart hactive hto hne hsv =>
        lendReassign_gives hr q hs hidle hok hx hnode hkind hpart hactive hto hne hsv

end Sys2Proof.Proofs.Lending

end

section
/-! SUPPORT. The heat sweep: a job and an output area for each piece, and the end of the sweep (R167, R168). -/

namespace Sys2Proof.Machine

/-! ## What is left of the previous sweep -/

/-- A job that outlives its sweep: another's, or one a gecko holds in a slot. -/
def GkJob.outlivesSweep (j : GkJob) : Bool := match j.use with | .sweep _ => j.slot.isSome | _ => true

section
variable {s : State} (hout : s.tier.sweepOut = [])
include hout

/-- With no output area left the previous sweep leaves its jobs alone to be dropped. -/
theorem State.clearSweep_eq : s.clearSweep = (s.onTier fun b => { b with sweepOut := [], sweepLeft := [], sweeping := false }).onHb
    fun h => { h with jobs := h.jobs.filter GkJob.outlivesSweep } := by
  unfold State.clearSweep
  simp only [hout, List.filter_nil, List.foldl_nil, State.onTier]
  rfl

variable (hjobs : ∀ j ∈ s.hb.jobs, ∀ p, j.use ≠ .sweep p)
include hjobs

theorem State.clearSweep_idle : s.clearSweep = s.onTier fun b => { b with sweepOut := [], sweepLeft := [], sweeping := false } := by
  have hkeep : s.hb.jobs.filter GkJob.outlivesSweep = s.hb.jobs := by
    refine List.filter_eq_self.mpr fun j hj => ?_
    unfold GkJob.outlivesSweep
    split
    · next p h => exact absurd h (hjobs j hj p)
    · rfl
  simp only [State.clearSweep_eq hout, State.onHb, State.onTier, hkeep]

omit hout in
theorem State.sweepHeld_nil : s.sweepHeld = [] := by
  refine List.filterMap_eq_nil_iff.mpr fun j hj => ?_
  split
  · next p h => exact absurd h (hjobs j hj p)
  · rfl

end

/-! ## The job of a piece -/

/-- The SWEEP job of a piece, with its output area from unit o. -/
def State.sweepOf (s : State) (p o : Nat) : GkJob :=
  ⟨chanOf (s.pieceAddr p), 8, 0, chanAddr (s.pieceAddr p), 2048, chanAddr (o * 2048), .sweep p,
    [⟨chanAddr (s.pieceAddr p), 65536, .atom, 0⟩, ⟨chanAddr (o * 2048), sweepOutBytes, .win, 0⟩], none, none, s.pgt.epoch⟩

def State.swept (s : State) (p o : Nat) : State :=
  ((s.onTier fun b => { b with hbmUsed := tset b.hbmUsed o 8 }).drawn.onTier fun b => { b with
    sweepOut := tset b.sweepOut p o
    sweepLeft := b.sweepLeft ++ [p] }).queueJob (s.sweepOf p o)

theorem State.takeHbmRaw_some {s t : State} {n al o : Nat} {ok : Nat → Bool} (h : s.takeHbmRaw n al ok = some (o, t)) :
    t = (s.onTier fun b => { b with hbmUsed := tset b.hbmUsed o n }).drawn := by
  obtain ⟨a, -, heq⟩ := Option.map_eq_some_iff.mp h
  injection heq with ha ht
  rw [← ht, ha]

/-- A piece gets its job, or is skipped where its channel has no room. The definition is unfolded as a function, before it is applied:
so nothing evaluates the search for a frame. -/
theorem State.sweepJob_cases (s : State) (p : Nat) : s.sweepJob p = s ∧ s.takeHbmRaw 8 8 (fun c => c == chanOf (s.pieceAddr p)) = none ∨
    ∃ o, s.sweepJob p = s.swept p o := by
  generalize hf : State.sweepJob = f
  delta State.sweepJob at hf
  subst hf
  beta_reduce
  extract_lets a
  rw [show sweepOutBytes / 2048 = 8 from rfl]
  generalize hr : s.takeHbmRaw 8 8 (fun c => c == chanOf a) = r
  cases r with
  | none => exact .inl ⟨rfl, rfl⟩
  | some r =>
    obtain ⟨o, t⟩ := r
    refine .inr ⟨o, ?_⟩
    rw [State.takeHbmRaw_some hr]
    rfl

theorem State.only_sweepJob (s : State) (p : Nat) : s.only [.tier, .hb, .free] (s.sweepJob p) := by
  obtain ⟨h, -⟩ | ⟨o, h⟩ := s.sweepJob_cases p
  · rw [h]
    exact State.only.refl s _
  · rw [h]
    exact ((((s.only_onTier _).mono (by decide)).then (State.only_drawn _) (by decide)).then (State.only_onTier _ _) (by decide)).then
      (State.only_onHb _ _) (by decide)

/-! ## The pieces in turn -/

/-- A piece due in the sweep has an output area of its own. -/
def State.hasArea (s : State) (p : Nat) : Prop := ∃ o, tfind s.tier.sweepOut p = some o ∧ tfind s.tier.hbmUsed o = some 8

theorem tfind_tset_some {α : Type} {t : Tbl α} {k : Nat} {x : α} (h : tfind t k = some x) (j : Nat) : tfind (tset t j x) k = some x := by
  by_cases hk : k = j
  · rw [hk]
    exact tfind_tset_same _ _ _
  · rw [tfind_tset_ne _ _ hk, h]

theorem State.hasArea_swept {s : State} (p o : Nat) {k : Nat} (h : k = p ∨ s.hasArea k) : (s.swept p o).hasArea k := by
  by_cases hk : k = p
  · exact ⟨o, (congrArg (tfind _) hk).trans (tfind_tset_same _ _ _), tfind_tset_same _ _ _⟩
  · obtain ⟨a, ha, hused⟩ := h.resolve_left hk
    exact ⟨a, (tfind_tset_ne _ _ hk).trans ha, tfind_tset_some hused o⟩

/-- A sweep some way into its pieces: each piece left is one of them, with an area and a job in its channel. -/
structure State.Sweeping (s : State) (ps : List Nat) (t : State) : Prop where
  only : s.only [.tier, .hb, .free] t
  fields : (t.tier.sweepAt, t.tier.decay, t.tier.gathered, t.tier.sweeping) =
    (s.tier.sweepAt, s.tier.decay, s.tier.gathered, s.tier.sweeping)
  left : ∀ p ∈ t.tier.sweepLeft, p ∈ ps ∧ t.hasArea p
  jobs : ∃ js, t.hb = { s.hb with jobs := s.hb.jobs ++ js } ∧
    js.map (fun j : GkJob => (j.use, j.code)) = t.tier.sweepLeft.map (fun p => (.sweep p, 8)) ∧
    ∀ j ∈ js, ∀ p, j.use = .sweep p → j.chan = chanOf (s.pieceAddr p)

section
variable {s t : State} {ps : List Nat}

theorem State.Sweeping.swept (h : s.Sweeping ps t) {p : Nat} (hp : p ∈ ps) (o : Nat) : s.Sweeping ps (t.swept p o) := by
  obtain ⟨js, hhb, hmap, hchan⟩ := h.jobs
  have hpgt : t.pgt = s.pgt := h.only.2 .pgt (by decide)
  refine ⟨h.only.then ?_ (List.Subset.refl _), h.fields, fun k hk => ?_, js ++ [t.sweepOf p o], ?_, ?_, fun j hj k hk => ?_⟩
  · exact ((((t.only_onTier _).mono (by decide)).then (State.only_drawn _) (by decide)).then (State.only_onTier _ _) (by decide)).then
      (State.only_onHb _ _) (by decide)
  · obtain hk | hk := List.mem_append.mp hk
    · obtain ⟨hps, harea⟩ := h.left k hk
      exact ⟨hps, State.hasArea_swept p o (.inr harea)⟩
    · rw [List.mem_singleton.mp hk]
      exact ⟨hp, State.hasArea_swept p o (.inl rfl)⟩
  · rw [show (t.swept p o).hb = { t.hb with jobs := t.hb.jobs ++ [t.sweepOf p o] } from rfl, hhb, List.append_assoc]
  · rw [List.map_append, hmap, show (t.swept p o).tier.sweepLeft = t.tier.sweepLeft ++ [p] from rfl, List.map_append]
    rfl
  · obtain hj | hj := List.mem_append.mp hj
    · exact hchan j hj k hk
    · rw [List.mem_singleton.mp hj] at hk ⊢
      injection hk with hk
      rw [← hk, State.pieceAddr, ← hpgt]
      rfl

theorem State.Sweeping.fold : ∀ {l : List Nat} {t : State}, (∀ p ∈ l, p ∈ ps) → s.Sweeping ps t → s.Sweeping ps (l.foldl State.sweepJob t) := by
  intro l
  induction l with
  | nil => exact fun _ h => h
  | cons p l ih =>
    intro t hl h
    refine ih (fun q hq => hl q (List.mem_cons_of_mem _ hq)) ?_
    obtain ⟨hskip, -⟩ | ⟨o, ho⟩ := t.sweepJob_cases p
    · rw [hskip]
      exact h
    · rw [ho]
      exact h.swept (hl p List.mem_cons_self) o

/-- A piece once due stays due while the others get their jobs. -/
theorem State.sweepLeft_fold {p : Nat} : ∀ (l : List Nat) {t : State}, p ∈ t.tier.sweepLeft → p ∈ (l.foldl State.sweepJob t).tier.sweepLeft := by
  intro l
  induction l with
  | nil => exact fun h => h
  | cons q l ih =>
    intro t h
    refine ih ?_
    obtain ⟨hskip, -⟩ | ⟨o, ho⟩ := t.sweepJob_cases q
    · rw [hskip]
      exact h
    · rw [ho]
      exact List.mem_append_left _ h

/-- The first piece is due where its channel has room. -/
theorem State.sweepLeft_first {p : Nat} (l : List Nat) (h : (t.takeHbmRaw 8 8 (fun c => c == chanOf (t.pieceAddr p))).isSome = true) :
    p ∈ ((p :: l).foldl State.sweepJob t).tier.sweepLeft := by
  refine State.sweepLeft_fold l ?_
  obtain ⟨-, hnone⟩ | ⟨o, ho⟩ := t.sweepJob_cases p
  · rw [hnone] at h
    exact absurd h (by decide)
  · rw [ho]
    exact List.mem_append_right _ (List.mem_singleton_self p)

end

/-! ## A sweep starts (R167) -/

def State.sweepBegun (s : State) : State := s.onTier fun b => { b with
  sweepOut := [], sweepLeft := [], sweepAt := s.mtime, gathered := [], sweeping := true, decay := max 1 (s.fd Fd.TIER_CTL_DECAY_MS) }

theorem State.startSweep_eq {s : State} (hout : s.tier.sweepOut = []) (hjobs : ∀ j ∈ s.hb.jobs, ∀ p, j.use ≠ .sweep p) :
    s.startSweep = (List.range (s.pgt.chunks.length * 32)).foldl State.sweepJob s.sweepBegun := by
  have hheld : (s.onTier fun b => { b with sweepOut := [], sweepLeft := [], sweeping := false }).sweepHeld = [] := State.sweepHeld_nil hjobs
  unfold State.startSweep
  rw [State.clearSweep_idle hout hjobs]
  extract_lets t ps
  have hps : ps = List.range (s.pgt.chunks.length * 32) := List.filter_eq_self.mpr fun p _ => by rw [hheld]; rfl
  rw [hps]
  rfl

/-! ## The end of a sweep (R168) -/

def State.candidateTable (s : State) : Tbl (List Nat) :=
  (List.range 16).foldl (fun t p => tput [] t p (s.candidateList p)) []

theorem tget_foldl_tput {α : Type} [DecidableEq α] (d : α) (f : Nat → α) (p : Nat) : ∀ (l : List Nat) (t : Tbl α),
    tget d (l.foldl (fun t p => tput d t p (f p)) t) p = if p ∈ l then f p else tget d t p := by
  intro l
  induction l with
  | nil => exact fun t => rfl
  | cons q l ih =>
    intro t
    rw [List.foldl_cons, ih]
    by_cases hl : p ∈ l
    · rw [if_pos hl, if_pos (List.mem_cons_of_mem _ hl)]
    · rw [if_neg hl]
      by_cases hq : p = q
      · rw [hq, if_pos List.mem_cons_self, tget_tput_same]
      · rw [if_neg (List.not_mem_cons_of_ne_of_not_mem hq hl), tget_tput_ne _ _ _ hq]

/-- Pages of PCACHE cold enough to leave it. -/
def State.cooled (s : State) : List (Nat × Tier) :=
  (s.pgt.descs.filter fun p => p.2.movable .pcache && p.2.heat < s.fd Fd.TIER_POLICY_KEEP_PC).map fun p => (p.1, Tier.hbm)

def State.sweepResults (s : State) (b : TierBlock) : TierBlock := { b with
  sweepOut := [], sweepLeft := [], sweeping := false
  candidates := s.candidateTable, histograms := s.histograms, gathered := []
  due := b.due ++ s.cooled.filter (fun y => !b.due.contains y) }

theorem State.coolHot_nil {s : State} (hhot : s.twn.hot = []) : s.coolHot = s := by
  unfold State.coolHot
  rw [hhot, List.foldl_nil]

theorem State.endSweep_eq {s : State} (hsweeping : s.tier.sweeping = true) (hleft : s.tier.sweepLeft = []) (hout : s.tier.sweepOut = [])
    (hhot : s.twn.hot = []) : s.endSweep =
      ((s.onTier s.sweepResults).onHb fun h => { h with jobs := h.jobs.filter GkJob.outlivesSweep }).inc Fd.TIER_SWEEPS_COUNT := by
  unfold State.endSweep
  extract_lets cs hs cool
  rw [hsweeping, hleft, if_neg (by decide), State.clearSweep_eq hout]
  exact State.coolHot_nil hhot

theorem State.due_sweepResults {s : State} {d : Nat} {x : Desc} (hx : s.desc d = some x) (hmove : x.movable .pcache = true)
    (hcold : x.heat < s.fd Fd.TIER_POLICY_KEEP_PC) : (d, .hbm) ∈ (s.sweepResults s.tier).due := by
  have hcool : (d, Tier.hbm) ∈ s.cooled := by
    refine List.mem_map.mpr ⟨(d, x), List.mem_filter.mpr ⟨mem_of_tfind hx, ?_⟩, rfl⟩
    rw [hmove, decide_eq_true hcold]
    rfl
  by_cases hin : s.tier.due.contains (d, Tier.hbm) = true
  · exact List.mem_append_left _ (List.contains_iff_mem.mp hin)
  · exact List.mem_append_right _ (List.mem_filter.mpr ⟨hcool, by simpa using hin⟩)

end Sys2Proof.Machine

end

section
/-! The heat sweep, from HEAT_SWEEP to SWEEP_DONE (R167, R168). -/

namespace Sys2Proof.Proofs.Sweeps
open Sys2Proof Sys2Proof.Machine

section
variable {s : State} (hr : s.inReset = false)
include hr

theorem heatSweep_gives (hout : s.tier.sweepOut = []) (hjobs : ∀ j ∈ s.hb.jobs, ∀ p, j.use ≠ .sweep p)
    (hdue : s.tier.sweepAt + s.tier.decay * 100000 ≤ s.mtime) : Instr.heatSweep.gives s fun t =>
      t.tier.sweepAt = s.mtime ∧ t.tier.decay = max 1 (s.fd Fd.TIER_CTL_DECAY_MS) ∧ t.tier.gathered = [] ∧ t.tier.sweeping = true ∧
      (∀ p ∈ t.tier.sweepLeft, p < s.pgt.chunks.length * 32 ∧
        ∃ o, tfind t.tier.sweepOut p = some o ∧ tfind t.tier.hbmUsed o = some 8) ∧
      (s.pgt.chunks ≠ [] → (s.takeHbmRaw 8 8 (fun c => c == chanOf (s.pieceAddr 0))).isSome = true → 0 ∈ t.tier.sweepLeft) ∧
      (∃ js, t.hb = { s.hb with jobs := s.hb.jobs ++ js } ∧
        js.map (fun j : GkJob => (j.use, j.code)) = t.tier.sweepLeft.map (fun p => (.sweep p, 8)) ∧
        ∀ j ∈ js, ∀ p, j.use = .sweep p → j.chan = chanOf (s.pieceAddr p)) ∧
      s.only [.tier, .hb, .free] t := by
  have hbegun : s.sweepBegun.Sweeping (List.range (s.pgt.chunks.length * 32)) s.sweepBegun :=
    ⟨State.only.refl _ _, rfl, fun _ hp => absurd hp List.not_mem_nil, [], by rw [List.append_nil], rfl,
      fun _ hj => absurd hj List.not_mem_nil⟩
  obtain ⟨honly, hfields, hleft, hsjobs⟩ := hbegun.fold (fun _ hp => hp)
  simp only [Prod.mk.injEq] at hfields
  obtain ⟨hat, hdecay, hgathered, hsweeping⟩ := hfields
  have honly' : s.only [.tier, .hb, .free] s.sweepBegun := (s.only_onTier _).mono (by decide)
  refine ⟨_, actIf_eq hr (decide_eq_true hdue) (State.startSweep_eq hout hjobs), hat, hdecay, hgathered, hsweeping, fun p hp => ?_,
    fun hchunks hroom => ?_, hsjobs, State.only_commit (honly'.then honly (by decide))⟩
  · obtain ⟨hps, harea⟩ := hleft p hp
    exact ⟨List.mem_range.mp hps, harea⟩
  · have hroom' : (s.sweepBegun.takeHbmRaw 8 8 (fun c => c == chanOf (s.sweepBegun.pieceAddr 0))).isSome = true := by
      rw [State.takeHbmRaw, Option.isSome_map] at hroom ⊢
      exact hroom
    obtain ⟨n, hn⟩ : ∃ n, s.pgt.chunks.length * 32 = n + 1 :=
      Nat.exists_eq_succ_of_ne_zero (Nat.mul_ne_zero (mt List.length_eq_zero_iff.mp hchunks) (by decide))
    have hfirst := State.sweepLeft_first ((List.range n).map Nat.succ) hroom'
    rw [← List.range_succ_eq_map, ← hn] at hfirst
    exact hfirst

theorem sweepDone_gives (hsweeping : s.tier.sweeping = true) (hleft : s.tier.sweepLeft = []) (hout : s.tier.sweepOut = [])
    (hhot : s.twn.hot = []) : Instr.sweepDone.gives s fun t =>
      (∀ p < 16, tget [] t.tier.candidates p = s.candidateList p) ∧ t.tier.histograms = s.histograms ∧ t.tier.gathered = [] ∧
      t.tier.sweeping = false ∧ t.fd Fd.TIER_SWEEPS_COUNT = min (s.fd Fd.TIER_SWEEPS_COUNT + 1) (2 ^ 64 - 1) ∧
      (∀ d x, s.desc d = some x → x.movable .pcache = true → x.heat < s.fd Fd.TIER_POLICY_KEEP_PC → (d, .hbm) ∈ t.tier.due) ∧
      s.only [.csr, .tier, .hb] t ∧ s.regsBut [Reg.TIER_SWEEPS] t := by
  let w := (s.onTier s.sweepResults).onHb fun h => { h with jobs := h.jobs.filter GkJob.outlivesSweep }
  have honly : s.only [.csr, .tier, .hb] w := ((s.only_onTier _).mono (by decide)).then (State.only_onHb _ _) (by decide)
  refine ⟨_, act_eq hr (State.endSweep_eq hsweeping hleft hout hhot), fun p hp => ?_, rfl, rfl, rfl, ?_,
    fun d x hx hmove hcold => State.due_sweepResults hx hmove hcold, State.only_commit (honly.then (State.only_setFd _ _ _) (by decide)),
    fun a ha => (State.commit_reg _ _ _).trans (State.regsBut_setFd w _ _ a ha)⟩
  · refine (tget_foldl_tput [] s.candidateList p (List.range 16) []).trans ?_
    rw [if_pos (List.mem_range.mpr hp)]
  · exact (State.commit_fd _ _ _).trans (State.fd_inc_64 w rfl rfl)

end

end Sys2Proof.Proofs.Sweeps

end

section
/-! SUPPORT. Frames of tier 1, and the beginning of a leap (R164, R175). -/

namespace Sys2Proof.Machine

/-! ## A frame of tier 1 -/

/-- What finding a frame of tier 1 looks at. -/
structure State.SamePc (s t : State) : Prop where
  used : t.tier.pcUsed = s.tier.pcUsed
  landing : t.tier.landing = s.tier.landing
  dirty : t.tier.pcDirty = s.tier.pcDirty
  free : t.free = s.free
  base : t.fd Fd.AE_STREAM_BASE_OFFSET = s.fd Fd.AE_STREAM_BASE_OFFSET
  pool : t.fd Fd.AE_POOL_OFFSET = s.fd Fd.AE_POOL_OFFSET
  size : t.fd Fd.AE_POOL_SIZE = s.fd Fd.AE_POOL_SIZE
  land : t.fd Fd.TIER_FAULT_LAND_MIB = s.fd Fd.TIER_FAULT_LAND_MIB

theorem State.SamePc.isSome_takePc {s t : State} (h : s.SamePc t) (n : Nat) (landing : Bool) :
    (t.takePc n landing).isSome = (s.takePc n landing).isSome := by
  obtain ⟨hused, hlanding, hdirty, hfree, hbase, hpool, hsize, hland⟩ := h
  have hbytes : t.landingBytes = s.landingBytes := by simp only [State.landingBytes, hlanding, hused]
  have hplaced : t.placedBytes = s.placedBytes := by simp only [State.placedBytes, hused, hbytes]
  have hcapacity : t.pcCapacity = s.pcCapacity := by simp only [State.pcCapacity, hsize, hland]
  have hfind : t.findPc n = s.findPc n := by simp only [State.findPc, State.pcReserved, hused, hdirty, hfree, hbase, hpool, hsize]
  unfold State.takePc
  rw [hbytes, hplaced, hcapacity, hland, hfind]
  extract_lets bytes room
  split
  · rw [Option.isSome_map, Option.isSome_map]
  · rfl

/-- A frame of tier 1 taken from unit a. -/
def State.pcTaken (s : State) (a n : Nat) (landing : Bool) : State := (s.onTier fun b => { b with
  pcUsed := tset b.pcUsed a (max 2 n)
  landing := if landing then a :: b.landing else b.landing }).drawn

theorem State.takePc_eq {s : State} {n : Nat} {landing : Bool} (h : (s.takePc n landing).isSome = true) :
    ∃ a, s.takePc n landing = some (a, s.pcTaken a n landing) := by
  unfold State.takePc at h ⊢
  extract_lets at h ⊢
  split at h
  · next hroom =>
    rw [Option.isSome_map] at h
    obtain ⟨a, ha⟩ := Option.isSome_iff_exists.mp h
    exact ⟨a, by rw [if_pos hroom, ha]; rfl⟩
  · exact absurd h (by decide)

theorem State.only_pcTaken (s : State) (a n : Nat) (landing : Bool) : s.only [.tier, .free] (s.pcTaken a n landing) :=
  ((s.only_onTier _).mono (by decide)).then (State.only_drawn _) (by decide)

/-! ## What stands before a leap begins -/

theorem State.pageContent_congr {s t : State} (hhbm : ∀ a, byteOf t.hbm a = byteOf s.hbm a)
    (hpcache : ∀ a, byteOf t.pcache a = byteOf s.pcache a) (x : Desc) : t.pageContent x = s.pageContent x := by
  unfold State.pageContent State.readLoc
  split
  · exact State.hbmRead_congr fun _ _ => hhbm _
  · exact List.map_congr_left fun _ _ => hpcache _
  · rfl

/-- PRESSURE, the prefetches, what is due and what is owed brought up to date. -/
structure State.Readied (s t : State) : Prop where
  tier : ∃ p l due owed, t.tier = { s.tier with pressure := p, prefetch := l, due := due, owed := owed }
  only : s.only [.csr, .tier] t
  regs : s.regsBut [Reg.TIER_ERR] t

section
variable {s t : State} (h : s.Readied t)
include h

theorem State.Readied.onTier {f : TierBlock → TierBlock} (hf : ∀ b, ∃ l due owed, f b = { b with prefetch := l, due := due, owed := owed }) :
    s.Readied (t.onTier f) := by
  obtain ⟨⟨p, l, due, owed, htier⟩, honly, hregs⟩ := h
  obtain ⟨l', due', owed', hf⟩ := hf t.tier
  exact ⟨⟨p, l', due', owed', by rw [State.onTier, hf, htier]⟩, honly.then (t.only_onTier f |>.mono (by decide)) (List.Subset.refl _),
    hregs.of_csr rfl⟩

theorem State.Readied.fd {f : Fd} (hf : f.addr ≠ Reg.TIER_ERR) : t.fd f = s.fd f := h.regs.fd (by simpa using hf)

theorem State.Readied.pgt : t.pgt = s.pgt := h.only.2 .pgt (by decide)

theorem State.Readied.idle (hs : s.idle) : t.idle := by
  rw [State.idle, h.pgt, show t.cust = s.cust from h.only.2 .cust (by decide)]
  exact hs

theorem State.Readied.desc (d : Nat) : t.desc d = s.desc d := by rw [State.desc, State.desc, h.pgt]

theorem State.Readied.leap (d : Nat) : t.leap d = s.leap d := by
  obtain ⟨p, l, due, owed, htier⟩ := h.tier
  rw [State.leap, State.leap, htier]

theorem State.Readied.usage (part i : Nat) : t.usage part i = s.usage part i := by
  obtain ⟨p, l, due, owed, htier⟩ := h.tier
  rw [State.usage, State.usage, htier]

omit h in
theorem TIER_QUOTA_ne_TIER_ERR (i j : Nat) : Reg.TIER_QUOTA i j ≠ Reg.TIER_ERR := by
  simp only [Reg.TIER_QUOTA, Reg.TIER_ERR]
  omega

theorem State.Readied.underHard (part i bytes : Nat) : t.underHard part i bytes = s.underHard part i bytes := by
  rw [State.underHard, State.underHard, h.usage, h.fd (TIER_QUOTA_ne_TIER_ERR part i)]

theorem State.Readied.softOk (x : Desc) (dst : Tier) : t.softOk x dst = s.softOk x dst := by
  have hquota : t.fd (Fd.TIER_QUOTA_SOFT_MIB x.part dst.code) = s.fd (Fd.TIER_QUOTA_SOFT_MIB x.part dst.code) :=
    h.fd (TIER_QUOTA_ne_TIER_ERR x.part dst.code)
  have hcold : t.coldest (some x.part) dst = s.coldest (some x.part) dst := by simp only [State.coldest, State.minHeat, h.pgt]
  simp only [State.softOk, State.belowSoft, h.usage, hquota, hcold]

theorem State.Readied.samePc : s.SamePc t := by
  obtain ⟨p, l, due, owed, htier⟩ := h.tier
  exact ⟨by rw [htier], by rw [htier], by rw [htier], h.only.2 .free (by decide), h.fd (by decide), h.fd (by decide), h.fd (by decide),
    h.fd (by decide)⟩

theorem State.Readied.pageContent (x : Desc) : t.pageContent x = s.pageContent x :=
  State.pageContent_congr (h.only.2 .hbm (by decide)) (h.only.2 .pcache (by decide)) x

end

theorem State.readied_waterMark_prunePrefetch (s : State) : s.Readied s.waterMark.prunePrefetch := by
  obtain ⟨⟨p, htier⟩, honly, hregs⟩ := s.marked_waterMark
  have hready : s.Readied s.waterMark := ⟨⟨p, s.tier.prefetch, s.tier.due, s.tier.owed, htier⟩, honly, hregs⟩
  exact hready.onTier fun b => ⟨_, b.due, b.owed, rfl⟩

theorem State.due_prunePrefetch (s : State) : s.prunePrefetch.tier.due = s.tier.due := rfl

theorem State.due_waterMark_prunePrefetch (s : State) : s.waterMark.prunePrefetch.tier.due = s.tier.due := by
  obtain ⟨⟨p, htier⟩, -, -⟩ := s.marked_waterMark
  rw [State.due_prunePrefetch, htier]

/-! ## LEAP_BEGIN (R175 step 1)

The definitions are unfolded as functions, before they are applied: so nothing evaluates the search for a frame or the free bytes. -/

/-- The state in which a leap that is due begins. -/
def State.leapReady (v : State) (d : Nat) (x : Desc) (dst : Tier) : State :=
  (v.takeDue d x dst true).onTier fun b => { b with prefetch := b.prefetch.filter (fun p => p.desc != d) }

section
variable {s v : State} {d : Nat} {x : Desc} (hv : s.waterMark.prunePrefetch = v) (hx : v.desc d = some x)
include hv hx

theorem State.tryLeap_stays (dst : Tier) (hstop : x.state ≠ .sealed ∨ x.pinned = true) : s.tryLeap d dst =
    v.onTier fun b => { b with prefetch := b.prefetch.filter (fun p => p.desc != d || x.refcnt != 0) } := by
  have hguard : (!v.flag Fd.TIER_CTL_ENABLE || x.state != .sealed || x.pinned || x.refcnt = 0 || x.ofTwin || (v.leap d).isSome) = true := by
    obtain hstate | hpin := hstop
    · simp [hstate]
    · simp [hpin]
  generalize hf : State.tryLeap = f
  delta State.tryLeap at hf
  subst hf
  beta_reduce
  extract_lets w
  rw [show w = v from hv, hx]
  exact if_pos hguard

theorem State.tryLeap_begins {dst : Tier} (henable : v.flag Fd.TIER_CTL_ENABLE = true) (hstate : x.state = .sealed)
    (hpin : x.pinned = false) (href : x.refcnt ≠ 0) (htwin : x.ofTwin = false) (hleap : v.leap d = none) (hawake : v.awake = true)
    (hhard : v.hardStops d x dst = false) (hdue : v.leapDue d x dst = true) : s.tryLeap d dst =
      (v.leapReady d x dst).beginLeap d x dst none
        ((v.takeDue d x dst true).tier.prefetch.any (fun p => p.desc == d) && x.loc.tier == .flash) := by
  have hguard : (!v.flag Fd.TIER_CTL_ENABLE || x.state != .sealed || x.pinned || x.refcnt = 0 || x.ofTwin || (v.leap d).isSome) = false := by
    simp [henable, hstate, hpin, href, htwin, hleap]
  generalize hf : State.tryLeap = f
  delta State.tryLeap at hf
  subst hf
  beta_reduce
  extract_lets w
  rw [show w = v from hv, hx]
  refine (if_neg (ne_true_of_eq_false hguard)).trans ?_
  rw [if_neg (by rw [hawake]; decide)]
  extract_lets u go taken pre ready
  have hu : u = v := if_neg (ne_true_of_eq_false hhard)
  have hgo : go = true := by simp only [go, hu, hdue]
  have htaken : taken = v.takeDue d x dst true := by simp only [taken, hu, hgo]
  have hready : ready = v.leapReady d x dst := by simp only [ready, htaken, State.leapReady]
  rw [if_neg (by rw [hgo]; decide), hready]
  simp only [pre, htaken]

end

/-- A page on its way: IN_LEAP, with the record of its leap. -/
def State.leaping (s : State) (d : Nat) (l : Leap) : State :=
  (s.modDesc d fun x => { x with state := .inLeap }).onTier fun b => { b with nextLeap := l.serial + 1, leaps := b.leaps ++ [l] }

section
variable (s : State) (d : Nat) (l : Leap)

theorem State.only_leaping : s.only [.pgt, .tier] (s.leaping d l) :=
  ((s.only_onPgt _).mono (by decide)).then (State.only_onTier _ _) (by decide)

theorem State.desc_leaping (e : Nat) :
    (s.leaping d l).desc e = if e = d then (s.desc d).map fun x => { x with state := .inLeap } else s.desc e := s.desc_modDesc d _ e

theorem State.leap_leaping (hd : l.desc = d) (hnone : s.leap d = none) : (s.leaping d l).leap d = some l := by
  have hfind : (s.leaping d l).leap d = (s.leap d).or ([l].find? fun l => l.desc == d) := List.find?_append
  rw [hfind, hnone, Option.none_or, List.find?_cons_of_pos (by rw [hd, beq_self_eq_true])]

end

theorem State.leap_pcTaken (s : State) (a n : Nat) (landing : Bool) (d : Nat) : (s.pcTaken a n landing).leap d = s.leap d := rfl

theorem State.usage_pcTaken (s : State) (a n : Nat) (landing : Bool) (part i : Nat) :
    (s.pcTaken a n landing).usage part i = s.usage part i := rfl

theorem State.leap_charge4 (s : State) (part i bytes d : Nat) : (s.charge4 part i bytes).leap d = s.leap d := rfl

theorem State.only_charge4 (s : State) (part i bytes : Nat) : s.only [.tier] (s.charge4 part i bytes) := s.only_onTier _

theorem State.usage_charge4 (s : State) (part i bytes : Nat) : (s.charge4 part i bytes).usage part i = s.usage part i + bytes :=
  tget_tput_same 0 s.tier.usage (part * 4 + i) _

/-- A leap of an HBM page into PCACHE takes a frame there, is charged, and has its content at once. -/
theorem State.beginLeap_pcache {u : State} {d : Nat} {x : Desc} (hloc : x.loc.tier = .hbm)
    (hquota : u.underHard x.part 0 (chargeOf .pcache x.def0) = true) (hroom : (u.takePc (frameUnits x.frameCode) false).isSome = true) :
    ∃ a l, u.beginLeap d x .pcache none false =
        ((u.pcTaken a (frameUnits x.frameCode) false).charge4 x.part 0 (chargeOf .pcache x.def0)).leaping d l ∧
      l.desc = d ∧ l.src = x.loc ∧ l.dst = .pcache ∧ l.target = some ⟨.pcache, 0, a⟩ ∧ l.content = some (u.pageContent x) ∧ l.bad = false := by
  obtain ⟨a, ha⟩ := State.takePc_eq hroom
  generalize hf : State.beginLeap = f
  delta State.beginLeap at hf
  subst hf
  beta_reduce
  extract_lets n bytes inPlace serial content go
  have hcontent : content = some (u.pageContent x) := if_pos (.inl hloc)
  let l : Leap := ⟨d, x.loc, .pcache, some ⟨.pcache, 0, a⟩, u.pgt.epoch, false, content, false, none, false, inPlace, serial⟩
  refine ⟨a, l, ?_, rfl, rfl, rfl, rfl, hcontent, rfl⟩
  rw [if_neg (by rw [show u.underHard x.part Tier.pcache.code bytes = true from hquota]; decide)]
  have hgo : ∀ w : State, w.pgt.epoch = u.pgt.epoch → go w (some ⟨.pcache, 0, a⟩) none = w.leaping d l := by
    intro w hw
    simp only [go, hcontent, Option.isSome_some, if_true, Bool.false_eq_true, if_false, Option.isSome_none]
    simp only [State.leaping, l, hcontent, ← hw]
  rw [show u.takePc n false = _ from ha]
  exact hgo _ rfl

end Sys2Proof.Machine

end

section
/-! The beginning of a leap (R175 step 1). -/

namespace Sys2Proof.Proofs.Leaps
open Sys2Proof Sys2Proof.Machine

section
variable {s : State} (hr : s.inReset = false) {d : Nat} {x : Desc} (hx : s.desc d = some x) (hquiet : s.quiet)
include hr hx hquiet

theorem leapBegin_gives (hleap : s.leap d = none) (henable : s.flag Fd.TIER_CTL_ENABLE = true) (hstate : x.state = .sealed)
    (hpin : x.pinned = false) (href : x.refcnt ≠ 0) (htwin : x.ofTwin = false) (hloc : x.loc.tier = .hbm) (hdue : (d, .pcache) ∈ s.tier.due)
    (hsoft : s.softOk x .pcache = true) (hhard : s.underHard x.part 0 (chargeOf .pcache x.def0) = true)
    (hroom : (s.takePc (frameUnits x.frameCode) false).isSome = true) (hawake : s.awake = true) : (Instr.leapBegin d 0).gives s fun t =>
      ∃ a l, t.leap d = some l ∧ l.src = x.loc ∧ l.dst = .pcache ∧ l.target = some ⟨.pcache, 0, a⟩ ∧
        l.content = some (s.pageContent x) ∧ l.bad = false ∧ t.desc d = some { x with state := .inLeap } ∧
        tfind t.tier.pcUsed a = some (max 2 (frameUnits x.frameCode)) ∧
        t.usage x.part 0 = s.usage x.part 0 + chargeOf .pcache x.def0 ∧ (d, .pcache) ∉ t.tier.due ∧ (∀ e, e ≠ d → t.desc e = s.desc e) ∧
        s.only [.csr, .pgt, .tier, .free] t ∧ s.regsBut [Reg.TIER_ERR] t := by
  obtain ⟨v, hv⟩ : ∃ v, s.waterMark.prunePrefetch = v := ⟨_, rfl⟩
  have hready : s.Readied v := hv ▸ s.readied_waterMark_prunePrefetch
  let u := v.leapReady d x .pcache
  have hu : s.Readied u := (hready.onTier (f := _) fun b => ⟨_, _, _, rfl⟩).onTier fun b => ⟨_, b.due, b.owed, rfl⟩
  have hxv : v.desc d = some x := (hready.desc d).trans hx
  have hvdue : v.tier.due = s.tier.due := hv ▸ s.due_waterMark_prunePrefetch
  have hduev : v.leapDue d x .pcache = true := by
    have hcode : decide (Tier.hbm.code < Tier.pcache.code) = false := by decide
    simp only [State.leapDue, hloc, hcode, Bool.false_and, Bool.false_eq_true, if_false, hvdue, List.contains_iff_mem.mpr hdue,
      hready.softOk, hsoft, Bool.and_self]
  have hbegin : s.tryLeap d .pcache = u.beginLeap d x .pcache none false := by
    rw [State.tryLeap_begins hv hxv (by rw [State.flag, hready.fd (by decide)]; exact henable) hstate hpin href htwin
      ((hready.leap d).trans hleap) (by rw [State.awake, hready.fd (by decide)]; exact hawake)
      (by simp only [State.hardStops, hloc]) hduev, hloc, show (Tier.hbm == Tier.flash) = false from rfl, Bool.and_false]
  obtain ⟨a, l, heq, hd, hsrc, hdst, htarget, hcontent, hbad⟩ := State.beginLeap_pcache (u := u) (d := d) hloc
    ((hu.underHard _ _ _).trans hhard) ((hu.samePc.isSome_takePc _ _).trans hroom)
  let w := (u.pcTaken a (frameUnits x.frameCode) false).charge4 x.part 0 (chargeOf .pcache x.def0)
  have hw : u.only [.tier, .free] w := (u.only_pcTaken _ _ _).then (State.only_charge4 _ _ _ _) (by decide)
  have hcsr : (w.leaping d l).csr = u.csr := ((hw.mono (ps := [.pgt, .tier, .free]) (by decide)).then (w.only_leaping d l) (by decide)).2 .csr (by decide)
  have honly : s.only [.csr, .pgt, .tier, .free] w := (hu.only.mono (by decide)).then hw (by decide)
  have hwpgt : w.pgt = u.pgt := hw.2 .pgt (by decide)
  have hpgt : w.pgt = s.pgt := hwpgt.trans hu.pgt
  have hidle : (w.leaping d l).idle := by
    have hcust : w.cust = u.cust := hw.2 .cust (by decide)
    obtain ⟨hops, hcopies, hheld⟩ := hu.idle hquiet.idle
    rw [← hwpgt] at hops hcopies
    rw [← hcust] at hheld
    exact ⟨hops, hcopies, hheld⟩
  have hexec : (s.tryLeap d (tierOf 0)).settle = w.leaping d l := by
    rw [show tierOf 0 = .pcache from rfl, hbegin, heq, hidle.settle]
  have hdesc : ∀ e, (w.leaping d l).desc e = if e = d then some { x with state := .inLeap } else s.desc e := by
    intro e
    rw [State.desc_leaping, State.desc, State.desc, hpgt, ← State.desc, ← State.desc, hx, Option.map_some]
  have hwleap : w.leap d = none := by rw [State.leap_charge4, State.leap_pcTaken, hu.leap, hleap]
  refine ⟨_, act_eq hr hexec, a, l, State.leap_leaping w d l hd hwleap, hsrc, hdst, htarget,
    hcontent.trans (congrArg some (hu.pageContent x)), hbad, (hdesc d).trans (if_pos rfl), tfind_tset_same _ _ _, ?_, ?_,
    fun e he => (hdesc e).trans (if_neg he), State.only_commit (honly.then (w.only_leaping d l) (by decide)), ?_⟩
  · have husage : (u.pcTaken a (frameUnits x.frameCode) false).usage x.part 0 = s.usage x.part 0 := by rw [State.usage_pcTaken, hu.usage]
    rw [← husage]
    exact State.usage_charge4 _ _ _ _
  · intro hmem
    exact absurd (List.mem_filter.mp hmem).2 (by simp)
  · exact fun k hk => (State.commit_reg _ _ _).trans (hu.regs.of_csr hcsr k hk)

theorem leapBegin_refused (hstop : x.state ≠ .sealed ∨ x.pinned = true) (dst : Nat) : (Instr.leapBegin d dst).gives s fun t =>
    t.tier.leaps = s.tier.leaps ∧ t.pgt = s.pgt ∧ s.only [.csr, .tier] t := by
  obtain ⟨v, hv⟩ : ∃ v, s.waterMark.prunePrefetch = v := ⟨_, rfl⟩
  have hready : s.Readied v := hv ▸ s.readied_waterMark_prunePrefetch
  let u := v.onTier fun b => { b with prefetch := b.prefetch.filter (fun p => p.desc != d || x.refcnt != 0) }
  have hu : s.Readied u := hready.onTier fun b => ⟨_, b.due, b.owed, rfl⟩
  have hexec : (s.tryLeap d (tierOf dst)).settle = u := by
    rw [State.tryLeap_stays hv ((hready.desc d).trans hx) _ hstop, (hu.idle hquiet.idle).settle]
  obtain ⟨p, l, due, owed, htier⟩ := hu.tier
  exact ⟨_, act_eq hr hexec, by rw [State.commit_tier, htier], hu.pgt, State.only_commit hu.only⟩

end

end Sys2Proof.Proofs.Leaps

end

section
/-! SUPPORT. How a leap ends: committed, abandoned, or its page poisoned (R175, R176). -/

namespace Sys2Proof.Machine

/-! ## Bytes of PCACHE -/

section
variable (s : State) (a : Nat) (l : List Byte)

theorem State.only_pcWrite : s.only [.pcache] (s.pcWrite a l) := by
  refine ⟨rfl, fun p hp => ?_⟩
  cases p with
  | pcache => exact absurd List.mem_cons_self hp
  | hbm => exact fun _ => rfl
  | _ => rfl

variable (h : a + l.length ≤ pcacheBytes)
include h

theorem State.pcWrite_eq : s.pcWrite a l = { s with pcache := putBytes s.pcache a l } := by
  rw [State.pcWrite, List.take_of_length_le (by omega)]

theorem State.pcRead_pcWrite : (s.pcWrite a l).pcRead a l.length = l := by
  rw [State.pcWrite_eq s a l h]
  refine List.ext_getElem (by rw [State.pcRead, bytesOf, List.length_map, List.length_range]) fun i hi hi' => ?_
  simp only [State.pcRead, bytesOf, List.getElem_map, List.getElem_range]
  rw [byteOf_putBytes, if_pos (by omega), Nat.add_sub_cancel_left, List.getElem?_eq_getElem hi', Option.getD_some]

theorem State.byteOf_pcWrite_outside {b : Nat} (hb : b < a ∨ a + l.length ≤ b) : byteOf (s.pcWrite a l).pcache b = byteOf s.pcache b := by
  rw [State.pcWrite_eq s a l h]
  exact byteOf_putBytes_outside _ _ _ hb

end

/-! ## The record of a leap -/

theorem State.leap_desc {s : State} {d : Nat} {l : Leap} (h : s.leap d = some l) : l.desc = d :=
  beq_iff_eq.mp (List.find?_some (p := fun l : Leap => l.desc == d) h)

theorem State.only_modDesc (s : State) (d : Nat) (f : Desc → Desc) : s.only [.pgt] (s.modDesc d f) := s.only_onPgt _

section
variable (s : State) (f : Fd) (d : Nat)

theorem State.only_inc : s.only [.csr] (s.inc f) := s.only_setFd _ _

theorem State.regsBut_inc : s.regsBut [f.addr] (s.inc f) := s.regsBut_setFd _ _

theorem State.desc_inc : (s.inc f).desc d = s.desc d := rfl

theorem State.leap_inc : (s.inc f).leap d = s.leap d := rfl

end

theorem State.commit_desc (s t : State) (d : Nat) : (s.commit t).desc d = t.desc d := rfl

theorem State.commit_leap (s t : State) (d : Nat) : (s.commit t).leap d = t.leap d := rfl

theorem State.leap_congr {s t : State} (h : t.tier = s.tier) (d : Nat) : t.leap d = s.leap d := by rw [State.leap, State.leap, h]

theorem State.leap_dropLeap (s : State) (d : Nat) : (s.dropLeap d).leap d = none := by
  refine List.find?_eq_none.mpr fun l hl => ?_
  have hne := (List.mem_filter.mp hl).2
  simpa using hne

section
variable {s : State} {d : Nat} {x : Desc} {l : Leap} {c : List Byte} (hl : s.leap d = some l) (hx : s.desc d = some x)
include hl hx

/-- A leap that has its content reads nothing from flash. -/
theorem State.leapFromFlash_had (hc : l.content = some c) : s.leapFromFlash d = s := by
  simp only [State.leapFromFlash, hl, hx, hc, Option.isSome_some, Bool.true_or, if_true]

/-! ## Abandoned (R176) -/

/-- The page SEALED where it was, the frame it was to have had released. -/
def State.leapEnded (s : State) (d : Nat) (x : Desc) (target : Loc) : State :=
  ((s.dropLeap d).modDesc d fun x => if x.state == .inLeap then { x with state := .sealed } else x).retireFrame target x.def0 x.part false

omit hl hx in
theorem State.only_leapEnded (s : State) (d : Nat) (x : Desc) (target : Loc) : s.only [.pgt, .tier] (s.leapEnded d x target) :=
  (((s.only_onTier _).mono (by decide)).then (State.only_onPgt _ _) (by decide)).then (State.only_onPgt _ _) (by decide)

omit hl hx in
theorem State.quiet_leapEnded (h : s.quiet) (target : Loc) : (s.leapEnded d x target).quiet := h

omit hl hx in
theorem State.leap_leapEnded (target : Loc) : (s.leapEnded d x target).leap d = none := s.leap_dropLeap d

omit hl in
theorem State.desc_leapEnded (hstate : x.state = .inLeap) (target : Loc) :
    (s.leapEnded d x target).desc d = some { x with state := .sealed } := by
  have hx' : (s.dropLeap d).desc d = some x := hx
  have hdesc := (s.dropLeap d).desc_modDesc d (fun x => if x.state == .inLeap then { x with state := .sealed } else x) d
  rw [if_pos rfl, hx', Option.map_some, hstate, if_pos (beq_self_eq_true _)] at hdesc
  exact hdesc

theorem State.endLeap_eq {target : Loc} (ht : l.target = some target) : s.endLeap l = s.leapEnded d x target := by
  have hx' : (s.dropLeap d).desc d = some x := hx
  simp only [State.endLeap, State.leap_desc hl, hx', ht, State.leapEnded]

theorem State.leapDone_unreferenced {target : Loc} (hc : l.content = some c) (ht : l.target = some target) (href : x.refcnt = 0)
    (ok : Bool) : s.leapDone d ok = (s.leapEnded d x target).inc Fd.TIER_LEAPS_ABANDONED_COUNT := by
  rw [State.leapDone, State.leapFromFlash_had hl hx hc]
  simp only [hl, hx, href, or_true, if_true, State.abandonLeap, State.endLeap_eq hl hx ht]

section
variable (hstate : x.state = .inLeap) (href : x.refcnt ≠ 0) (hgood : l.bad = false) (hc : l.content = some c)
  (hpool : s.poolUnit.isSome = true)
include hstate href hgood hc hpool

/-! ## Committed (R175 steps 2 to 4) -/

theorem State.leapDone_good {target : Loc} (ht : l.target = some target) (hcrc : crc32c c = x.crc.toNat) :
    s.leapDone d true = s.commitLeap l x target c := by
  have hpool' : s.poolUnit.isNone = false := by rw [← Option.not_isSome, hpool]; rfl
  rw [State.leapDone, State.leapFromFlash_had hl hx hc]
  simp only [hl, hx, hstate, href, hgood, hc, ht, hpool', hcrc, bne_self_eq_false, Bool.false_eq_true, or_self, if_false, beq_self_eq_true,
    Bool.and_self, if_true]

/-! ## Poisoned (R176) -/

theorem State.leapDone_spoilt {target : Loc} (ht : l.target = some target) (hcrc : crc32c c ≠ x.crc.toNat) :
    s.leapDone d true = (s.leapEnded d x target).poisonPage d := by
  have hpool' : s.poolUnit.isNone = false := by rw [← Option.not_isSome, hpool]; rfl
  have hcrc' : (crc32c c == x.crc.toNat) = false := by simpa using hcrc
  rw [State.leapDone, State.leapFromFlash_had hl hx hc]
  simp only [hl, hx, hstate, href, hgood, hc, ht, hpool', hcrc', bne_self_eq_false, Bool.false_eq_true, or_self, if_false, Bool.and_false,
    Bool.not_true, State.endLeap_eq hl hx ht]

end

end

/-- A page that has leapt up into PCACHE; beside the page and its frames, what is owed of demotions in its place. -/
def State.leapt (s : State) (d a : Nat) (x : Desc) (src : Loc) (c : List Byte) (owed : List (Nat × Nat × Nat)) : State :=
  ((((s.pcWrite (a * 2048) c).dropLeap d).modDesc d fun x => { x with loc := ⟨.pcache, 0, a⟩, state := .sealed }).retireFrame
    src x.def0 x.part false).onTier fun b => { b with owed := owed }

theorem State.desc_retireFrame_onTier (s : State) (loc : Loc) (def0 part : Nat) (free : Bool) (f : TierBlock → TierBlock) (e : Nat) :
    ((s.retireFrame loc def0 part free).onTier f).desc e = s.desc e := rfl

section
variable (s : State) (d a : Nat) (x : Desc) (src : Loc) (c : List Byte) (owed : List (Nat × Nat × Nat))

theorem State.only_leapt : s.only [.pgt, .tier, .pcache] (s.leapt d a x src c owed) :=
  (((((s.only_pcWrite _ _).mono (by decide)).then (State.only_onTier _ _) (by decide)).then (State.only_onPgt _ _) (by decide)).then
    (State.only_onPgt _ _) (by decide)).then (State.only_onTier _ _) (by decide)

theorem State.quiet_leapt {s : State} (h : s.quiet) : (s.leapt d a x src c owed).quiet := h

theorem State.desc_leapt (e : Nat) : (s.leapt d a x src c owed).desc e =
    if e = d then (s.desc d).map (fun x => { x with loc := ⟨.pcache, 0, a⟩, state := .sealed }) else s.desc e :=
  (State.desc_retireFrame_onTier _ _ _ _ _ _ e).trans (((s.pcWrite (a * 2048) c).dropLeap d).desc_modDesc d _ e)

theorem State.leap_leapt : (s.leapt d a x src c owed).leap d = none := by
  have hleaps : (s.leapt d a x src c owed).tier.leaps = ((s.pcWrite (a * 2048) c).dropLeap d).tier.leaps := rfl
  rw [State.leap, hleaps]
  exact (s.pcWrite (a * 2048) c).leap_dropLeap d

theorem State.pcache_leapt : (s.leapt d a x src c owed).pcache = (s.pcWrite (a * 2048) c).pcache := rfl

theorem State.reclaim_leapt : (s.leapt d a x src c owed).pgt.reclaim =
    s.pgt.reclaim ++ [⟨none, some src, x.def0, x.part, false, none, s.pgt.epoch⟩] := rfl

end

theorem State.commitLeap_pcache (s : State) (l : Leap) (x : Desc) (a : Nat) (c : List Byte) (hsrc : l.src.tier = .hbm) :
    ∃ owed, s.commitLeap l x ⟨.pcache, 0, a⟩ c =
      (s.leapt l.desc a x l.src c owed).inc Fd.TIER_LEAPS_UP_COUNT := by
  have hup : Tier.pcache.code < l.src.tier.code := by rw [hsrc]; decide
  have hhbm : (Tier.pcache == Tier.hbm) = false := rfl
  have hleaves : (Tier.pcache == Tier.lent || Tier.pcache == Tier.flash) = false := rfl
  refine ⟨match l.inPlace with | some b => s.tier.owed ++ [(x.part, 0, b)] | none => s.tier.owed, ?_⟩
  cases hin : l.inPlace with
  | none =>
    simp only [State.commitLeap, hin, hup, hhbm, hleaves, if_true, Bool.false_and, Bool.false_eq_true, if_false, Bool.not_false, Bool.and_true]
    rfl
  | some b =>
    simp only [State.commitLeap, hin, hup, hhbm, hleaves, if_true, Bool.false_and, Bool.false_eq_true, if_false, Bool.not_false, Bool.and_true]
    rfl

/-! ## A page poisoned where no copy is left (R48) -/

/-- With no stream and no copy at work nothing waits on a lost page. -/
theorem State.lostPage_unawaited {s : State} (hcopies : s.pgt.copies = []) (hstreams : s.ae.streams = []) (d : Nat) : s.lostPage d = s := by
  have hops : s.pgt.ops.filter (fun o => ([] : List Nat).contains o.id) = [] := List.filter_eq_nil_iff.mpr fun _ _ => Bool.false_ne_true
  simp only [State.lostPage, hcopies, List.filter_nil, List.map_nil, hops, List.foldl_nil, State.failStreams, hstreams]

/-- A page POISONED, and lost. -/
def State.pageLost (s : State) (d : Nat) : State :=
  (s.modDesc d fun x => { x with state := .poisoned, wasSealed := x.state != .tadpole, sealUnit := none }).modDesc d
    fun x => { x with lost := true }

section
variable (s : State) (d : Nat)

theorem State.only_pageLost : s.only [.pgt] (s.pageLost d) := (s.only_modDesc d _).then (State.only_modDesc _ d _) (List.Subset.refl _)

theorem State.quiet_pageLost {s : State} (h : s.quiet) : (s.pageLost d).quiet := h

theorem State.desc_pageLost {s : State} {x : Desc} (hx : s.desc d = some x) : (s.pageLost d).desc d =
    some { x with state := .poisoned, wasSealed := x.state != .tadpole, sealUnit := none, lost := true } := by
  rw [State.pageLost, State.desc_modDesc, if_pos rfl, State.desc_modDesc, if_pos rfl, hx, Option.map_some, Option.map_some]

end

section
variable {s : State} {d : Nat} {x : Desc} (hx : s.desc d = some x) (halone : s.alone) (hown : x.ofTwin = false) (hstate : x.state = .sealed)
include hx halone hown hstate

/-- Alone, a member has no copy to restore a page from. -/
theorem State.poison_alone : s.poison d = s.pageLost d := by
  let w := s.modDesc d fun x => { x with state := .poisoned, wasSealed := x.state != .tadpole, sealUnit := none }
  have hrole : (w.role == .paired || (w.role == .regrowing && x.mirror != .none)) = false := by
    obtain h | h := halone
    · rw [show w.role = .down from h]; rfl
    · rw [show w.role = .solo from h]; rfl
  have hguard : (x.state != .tadpole && x.state != .sealed && x.state != .inLeap) = false := by rw [hstate]; rfl
  unfold State.poison
  rw [hx]
  dsimp only
  rw [if_neg (ne_true_of_eq_false hguard), hown, Bool.or_false, hrole]
  split
  · rfl
  · rfl

theorem State.poisonPage_alone (hcopies : s.pgt.copies = []) (hstreams : s.ae.streams = []) :
    s.poisonPage d = s.pageLost d := by
  unfold State.poisonPage
  rw [State.poison_alone hx halone hown hstate]
  extract_lets w
  rw [show w.desc d = _ from State.desc_pageLost d hx]
  exact State.lostPage_unawaited (s := w) hcopies hstreams d

end

end Sys2Proof.Machine

end

section
/-! The end of a leap (R175 steps 2 to 4, R176). -/

namespace Sys2Proof.Proofs.LeapEnds
open Sys2Proof Sys2Proof.Machine

section
variable {s : State} (hr : s.inReset = false) {d a : Nat} {x : Desc} {l : Leap} {c : List Byte} (hl : s.leap d = some l)
  (hx : s.desc d = some x) (hstate : x.state = .inLeap) (hc : l.content = some c) (ht : l.target = some ⟨.pcache, 0, a⟩) (hquiet : s.quiet)

theorem exec_leapCommit {u : State} {ok : Bool} (hr : s.inReset = false) (hdone : s.leapDone d ok = u) (hidle : u.idle)
    (hborrowed : u.tier.borrowed = []) : exec (.leapCommit d ok) s = .next (s.commit u) := by
  refine act_eq hr ?_
  rw [hdone, hidle.settle, State.returnExtents_quiet u hborrowed]

include hr hl hx hstate hc ht hquiet

theorem leapCommit_good (hgood : l.bad = false) (hsrc : l.src.tier = .hbm) (hpool : s.poolUnit.isSome = true)
    (hend : a * 2048 + c.length ≤ pcacheBytes) (href : x.refcnt ≠ 0) (hcrc : crc32c c = x.crc.toNat) :
    (Instr.leapCommit d true).gives s fun t =>
      t.desc d = some { x with
        loc := ⟨.pcache, 0, a⟩
        state := .sealed } ∧ (∀ e, e ≠ d → t.desc e = s.desc e) ∧ t.leap d = none ∧ t.pcRead (a * 2048) c.length = c ∧
      (∀ b, b < a * 2048 ∨ a * 2048 + c.length ≤ b → byteOf t.pcache b = byteOf s.pcache b) ∧
      t.pgt.reclaim = s.pgt.reclaim ++ [⟨none, some l.src, x.def0, x.part, false, none, s.pgt.epoch⟩] ∧
      t.fd Fd.TIER_LEAPS_UP_COUNT = min (s.fd Fd.TIER_LEAPS_UP_COUNT + 1) (2 ^ 64 - 1) ∧
      s.only [.csr, .pgt, .tier, .pcache] t ∧ s.regsBut [Reg.TIER_LEAPS_UP] t := by
  obtain ⟨owed, hcommit⟩ := s.commitLeap_pcache l x a c hsrc
  rw [State.leap_desc hl] at hcommit
  let w := s.leapt d a x l.src c owed
  have honly : s.only [.csr, .pgt, .tier, .pcache] (w.inc Fd.TIER_LEAPS_UP_COUNT) :=
    ((s.only_leapt d a x l.src c owed).mono (by decide)).then ((w.only_inc _).mono (by decide)) (List.Subset.refl _)
  have hcsr : w.csr = s.csr := (s.only_leapt d a x l.src c owed).2 .csr (by decide)
  have hw : w.quiet := State.quiet_leapt d a x l.src c owed hquiet
  have hdone : s.leapDone d true = w.inc Fd.TIER_LEAPS_UP_COUNT :=
    (State.leapDone_good hl hx hstate href hgood hc hpool ht hcrc).trans hcommit
  refine ⟨_, exec_leapCommit hr hdone hw.idle hw.2.2.2, ?_, fun e he => ?_, ?_, ?_, fun b hb => ?_, ?_, ?_, State.only_commit honly,
    fun k hk => ?_⟩
  · rw [State.commit_desc, State.desc_inc, State.desc_leapt, if_pos rfl, hx, Option.map_some]
  · rw [State.commit_desc, State.desc_inc, State.desc_leapt, if_neg he]
  · rw [State.commit_leap, State.leap_inc, State.leap_leapt]
  · rw [State.commit_pcRead, State.pcRead, State.inc_pcache, State.pcache_leapt, ← State.pcRead, State.pcRead_pcWrite s _ c hend]
  · rw [State.commit_byteOf_pcache, State.inc_pcache, State.pcache_leapt, State.byteOf_pcWrite_outside s _ c hend hb]
  · rw [State.commit_pgt, State.inc_pgt, State.reclaim_leapt]
  · rw [State.commit_fd, State.fd_inc_64 w rfl rfl, State.fd_congr hcsr]
  · rw [State.commit_reg, w.regsBut_inc _ k hk, State.reg, hcsr, ← State.reg]

theorem leapCommit_unreferenced (href : x.refcnt = 0) (ok : Bool) : (Instr.leapCommit d ok).gives s fun t =>
    t.desc d = some { x with state := .sealed } ∧ t.leap d = none ∧
      t.pgt.reclaim = s.pgt.reclaim ++ [⟨none, some ⟨.pcache, 0, a⟩, x.def0, x.part, false, none, s.pgt.epoch⟩] ∧
      t.fd Fd.TIER_LEAPS_ABANDONED_COUNT = min (s.fd Fd.TIER_LEAPS_ABANDONED_COUNT + 1) (2 ^ 64 - 1) ∧
      s.only [.csr, .pgt, .tier] t ∧ s.regsBut [Reg.TIER_LEAPS_ABANDONED] t := by
  let w := s.leapEnded d x ⟨.pcache, 0, a⟩
  have honly : s.only [.csr, .pgt, .tier] w :=
    (((s.only_onTier _).mono (by decide)).then (State.only_onPgt _ _) (by decide)).then (State.only_onPgt _ _) (by decide)
  refine ⟨_, exec_leapCommit hr (State.leapDone_unreferenced hl hx hc ht href ok) hquiet.idle hquiet.2.2.2, ?_, State.leap_dropLeap s d, rfl,
    (State.commit_fd _ _ _).trans (State.fd_inc_64 w rfl rfl), State.only_commit (honly.then (State.only_setFd _ _ _) (by decide)),
    fun k hk => (State.commit_reg _ _ _).trans (State.regsBut_setFd w _ _ k hk)⟩
  exact State.desc_leapEnded hx hstate _

theorem leapCommit_spoilt (hgood : l.bad = false) (hpool : s.poolUnit.isSome = true) (href : x.refcnt ≠ 0) (hcrc : crc32c c ≠ x.crc.toNat)
    (halone : s.alone) (hown : x.ofTwin = false) (hstreams : s.ae.streams = []) : (Instr.leapCommit d true).gives s fun t =>
      (t.desc d).map (fun y => (y.state, y.loc)) = some (.poisoned, x.loc) ∧ t.leap d = none ∧
      t.fd Fd.TIER_LEAPS_UP_COUNT = s.fd Fd.TIER_LEAPS_UP_COUNT := by
  let w := s.leapEnded d x ⟨.pcache, 0, a⟩
  have hxw : w.desc d = some { x with state := .sealed } := State.desc_leapEnded hx hstate _
  have hcopies : w.pgt.copies = [] := hquiet.2.1
  have hpoison := State.poisonPage_alone (s := w) hxw halone hown rfl hcopies hstreams
  have hdone := (State.leapDone_spoilt hl hx hstate href hgood hc hpool ht hcrc).trans hpoison
  have hw : w.quiet := State.quiet_leapEnded hquiet _
  have hleap : (w.pageLost d).leap d = none := (State.leap_congr ((w.only_pageLost d).2 .tier (by decide)) d).trans (State.leap_leapEnded _)
  have honly := (s.only_leapEnded d x ⟨.pcache, 0, a⟩).then ((w.only_pageLost d).mono (by decide)) (List.Subset.refl _)
  have hquiet' := State.quiet_pageLost d hw
  refine ⟨_, exec_leapCommit hr hdone hquiet'.idle hquiet'.2.2.2, ?_, ?_, ?_⟩
  · rw [State.commit_desc, State.desc_pageLost d hxw]
    rfl
  · rw [State.commit_leap]
    exact hleap
  · rw [State.commit_fd]
    exact State.fd_congr (honly.2 .csr (by decide)) _

end

end Sys2Proof.Proofs.LeapEnds

end

section
/-! SUPPORT. PIN and UNPIN of a sequence's pages (R178). -/

namespace Sys2Proof.Machine

/-- What PIN and UNPIN make of a page. -/
def Desc.pin (on : Bool) (x : Desc) : Desc := if on && x.state != .sealed && x.state != .lockedBank then x else { x with pinned := on }

theorem Desc.pin_pin (on : Bool) (x : Desc) : (x.pin on).pin on = x.pin on := by
  by_cases h : (on && x.state != .sealed && x.state != .lockedBank) = true
  · simp only [Desc.pin, if_pos h]
  · simp only [Desc.pin, if_neg h]

/-- PIN takes sealed pages, and those of a locked bank. -/
theorem Desc.pin_true (x : Desc) : x.pin true = if x.state = .sealed ∨ x.state = .lockedBank then { x with pinned := true } else x := by
  unfold Desc.pin
  by_cases h : x.state = .sealed ∨ x.state = .lockedBank
  · rw [if_pos h, if_neg]
    obtain h | h := h
    · rw [h]; decide
    · rw [h]; decide
  · rw [if_neg h, if_pos]
    obtain ⟨h1, h2⟩ := not_or.mp h
    simp only [Bool.true_and, Bool.and_eq_true, bne_iff_ne]
    exact ⟨h1, h2⟩

section
variable {s : State} {k : Nat} {q : Seq} (hq : s.seq k = some q) (on : Bool)
include hq

theorem State.setPinned_eq : s.setPinned k on = s.markPages q.pt (fun _ => True) (Desc.pin on) := by
  simp only [State.setPinned, hq, State.markPages, if_true]
  rfl

theorem State.only_setPinned : s.only [.pgt] (s.setPinned k on) := by
  obtain ⟨ds, hds⟩ := State.markPages_eq (fun _ => True) (Desc.pin on) q.pt s
  rw [State.setPinned_eq hq, hds]
  exact s.only_onPgt _

theorem State.ops_setPinned : (s.setPinned k on).pgt.ops = s.pgt.ops ∧ (s.setPinned k on).pgt.copies = s.pgt.copies := by
  obtain ⟨ds, hds⟩ := State.markPages_eq (fun _ => True) (Desc.pin on) q.pt s
  rw [State.setPinned_eq hq, hds]
  exact ⟨rfl, rfl⟩

theorem State.desc_setPinned {e : Nat × Nat} (he : e ∈ q.pt) : (s.setPinned k on).desc e.2 = (s.desc e.2).map (Desc.pin on) := by
  rw [State.setPinned_eq hq, State.desc_markPages _ _ (Desc.pin_pin on), if_pos ⟨e, he, trivial, rfl⟩]

end

/-! ## The command as an operation of the order -/

section
variable {s : State} {o : SeqOp} {q : Seq} (hops : s.pgt.ops = [o]) (hkind : o.kind = .pin)
include hops hkind

/-- The one operation, a PIN of an ACTIVE sequence, begins. -/
theorem State.opStep_pin (hphase : o.phase = .waiting) (hadmits : s.admits = true) (hq : s.seq o.seq = some q) (hactive : q.sstate = .active) :
    s.opStep o.id = (s.modSeq o.seq fun q => { q with lastUse := s.usec }).beginPin o := by
  simp [State.opStep, hops, hphase, State.tryBegin, hadmits, hkind, mayBegin_one, hq, hactive, State.beginOp]

omit hkind in
/-- With its pages in HBM or PCACHE it is counted and waits for none. -/
theorem State.beginPin_near (hq : s.seq o.seq = some q) (hfar : s.pinFar o.seq = []) (hhard : s.underHard (hPart q.handle) 1 0 = true) :
    s.beginPin o = (s.onTier fun b => { b with pinning := some o.seq }).setOps [{ o with phase := .copying }] := by
  have hops' : (s.onTier fun b => { b with pinning := some o.seq }).pgt.ops = [o] := hops
  unfold State.beginPin
  rw [hq, hfar, List.foldl_nil, Option.map_some, Option.getD_some]
  refine (if_neg (by rw [hhard]; decide)).trans ?_
  exact State.modOp_of_ops hops' _

theorem State.opStep_pinned (hphase : o.phase = .copying) (hnear : s.pinAwaits o.seq = false) :
    s.opStep o.id = (s.setPinned o.seq true).pinEnd o stOK := by
  simp [State.opStep, hops, hphase, hkind, hnear]

end

/-- A page that waits for nothing lies near. -/
theorem State.pinFar_of_pinAwaits {s : State} {k : Nat} (h : s.pinAwaits k = false) : s.pinFar k = [] := by
  rw [State.pinAwaits, Bool.or_eq_false_iff] at h
  simpa using h.1

/-- What a PIN waits for hangs on the sequence's page table and its pages. -/
theorem State.pinAwaits_congr {s t : State} {k : Nat} {q q' : Seq} (hq : s.seq k = some q) (hq' : t.seq k = some q') (hpt : q'.pt = q.pt)
    (hdesc : ∀ d, t.desc d = s.desc d) : t.pinAwaits k = s.pinAwaits k := by
  simp only [State.pinAwaits, State.pinFar, hq, hq', hpt, hdesc]

theorem State.admits_congr {s t : State} (htwn : t.twn = s.twn) (htime : t.mtime = s.mtime) : t.admits = s.admits := by
  have hlease : t.leaseHolds = s.leaseHolds := by rw [State.leaseHolds, State.leaseHolds, State.nsec, State.nsec, htwn, htime]
  rw [State.admits, State.admits, State.role, State.role, htwn, hlease]

theorem State.underHard_congr {s t : State} {part i : Nat} (htier : t.tier = s.tier)
    (hfd : t.fd (Fd.TIER_QUOTA_HARD_MIB part i) = s.fd (Fd.TIER_QUOTA_HARD_MIB part i)) (bytes : Nat) :
    t.underHard part i bytes = s.underHard part i bytes := by
  rw [State.underHard, State.underHard, State.usage, State.usage, htier, hfd]

theorem TIER_QUOTA_ne_TIER_PIN_CTL (i j : Nat) : Reg.TIER_QUOTA i j ≠ Reg.TIER_PIN_CTL := by
  simp only [Reg.TIER_QUOTA, Reg.TIER_PIN_CTL]
  omega

/-! ## The end of the command -/

section
variable (s : State) (f : TierBlock → TierBlock) (id : Nat)

theorem State.reg_onTier_endOp (a : Nat) : ((s.onTier f).endOp id).reg a = s.reg a := rfl
theorem State.fd_onTier_endOp (g : Fd) : ((s.onTier f).endOp id).fd g = s.fd g := rfl

end

section
variable (s : State) (o : SeqOp)

theorem State.pinEnd_ok : s.pinEnd o stOK = ((((s.setFd Fd.TIER_PIN_CTL_RESULT stOK).setFd Fd.TIER_PIN_CTL_BUSY 0)).onTier
    fun b => { b with pinning := none }).endOp o.id := by
  simp only [State.pinEnd, if_true]

theorem State.only_pinEnd_ok : s.only [.csr, .pgt, .tier] (s.pinEnd o stOK) := by
  rw [State.pinEnd_ok]
  exact ((((s.only_setFd _ _).mono (by decide)).then (State.only_setFd _ _ _) (by decide)).then (State.only_onTier _ _) (by decide)).then
    (State.only_onPgt _ _) (by decide)

theorem State.regsBut_pinEnd_ok : s.regsBut [Reg.TIER_PIN_CTL] (s.pinEnd o stOK) := by
  let w := s.setFd Fd.TIER_PIN_CTL_RESULT stOK
  intro a ha
  rw [State.pinEnd_ok, State.reg_onTier_endOp, State.regsBut_setFd w Fd.TIER_PIN_CTL_BUSY 0 a ha, s.regsBut_setFd Fd.TIER_PIN_CTL_RESULT stOK a ha]

theorem State.fd_pinEnd_ok : (s.pinEnd o stOK).fd Fd.TIER_PIN_CTL_RESULT = stOK ∧ (s.pinEnd o stOK).fd Fd.TIER_PIN_CTL_BUSY = 0 := by
  let w := s.setFd Fd.TIER_PIN_CTL_RESULT stOK
  rw [State.pinEnd_ok, State.fd_onTier_endOp, State.fd_onTier_endOp]
  refine ⟨?_, State.fd_setFd_same w Fd.TIER_PIN_CTL_BUSY 0 (by decide)⟩
  rw [State.fd_setFd_other w Fd.TIER_PIN_CTL_BUSY Fd.TIER_PIN_CTL_RESULT 0 (by decide) (by decide)]
  exact s.fd_setFd_same Fd.TIER_PIN_CTL_RESULT stOK (by decide)

theorem State.desc_pinEnd_ok (d : Nat) : (s.pinEnd o stOK).desc d = s.desc d := by
  rw [State.pinEnd_ok]
  rfl

theorem State.ops_pinEnd_ok (hops : s.pgt.ops = [o]) (hcopies : s.pgt.copies = []) :
    (s.pinEnd o stOK).pgt.ops = [] ∧ (s.pinEnd o stOK).pgt.copies = [] := by
  rw [State.pinEnd_ok]
  refine ⟨(congrArg (List.filter fun p : SeqOp => p.id != o.id) hops).trans ?_,
    (congrArg (List.filter fun c : CopyJob => c.op != o.id) hcopies).trans rfl⟩
  rw [List.filter_cons_of_neg (by simp), List.filter_nil]

end

end Sys2Proof.Machine

end

section
/-! PIN and UNPIN (R178). -/

namespace Sys2Proof.Proofs.Pins
open Sys2Proof Sys2Proof.Machine

section
variable {s : State} (hr : s.inReset = false) (v : Word)
include hr

/-! ## A store that starts nothing -/

theorem pinStore_busy (hcmd : bits v.toNat 1 0 = 1 ∨ bits v.toNat 1 0 = 2) (hbusy : s.flag Fd.TIER_PIN_CTL_BUSY = true) :
    (if bits v.toNat 1 0 = 1 then Instr.pin v else Instr.unpin v).gives s fun t =>
      t.fd Fd.TIER_PIN_CTL_RESULT = stBUSY ∧ s.only [.csr] t ∧ s.regsBut [Reg.TIER_PIN_CTL] t := by
  have hstore : ∀ f, s.pinStore f = s.setFd Fd.TIER_PIN_CTL_RESULT stBUSY := fun f => if_pos hbusy
  have hend : exec (if bits v.toNat 1 0 = 1 then Instr.pin v else Instr.unpin v) s =
      .next (s.commit (s.setFd Fd.TIER_PIN_CTL_RESULT stBUSY)) := by
    obtain hpin | hunpin := hcmd
    · rw [if_pos hpin]
      exact actIf_eq hr (beq_iff_eq.mpr hpin) (hstore _)
    · rw [if_neg (by rw [hunpin]; decide)]
      exact actIf_eq hr (beq_iff_eq.mpr hunpin) (hstore _)
  refine ⟨_, hend, ?_, State.only_commit (s.only_setFd _ _), fun a ha => ?_⟩
  · rw [State.commit_fd]
    exact s.fd_setFd_same Fd.TIER_PIN_CTL_RESULT stBUSY (by decide)
  · rw [State.commit_reg]
    exact s.regsBut_setFd Fd.TIER_PIN_CTL_RESULT stBUSY a ha

variable (hidle : s.flag Fd.TIER_PIN_CTL_BUSY = false)
include hidle

theorem pin_unnamed (hcmd : bits v.toNat 1 0 = 1) (hnone : s.pinSeq = none) : (Instr.pin v).gives s fun t =>
    t.fd Fd.TIER_PIN_CTL_RESULT = stBOUNDS ∧ t.fd Fd.TIER_ERR_PIN_FAIL = 1 ∧ s.only [.csr] t ∧
      s.regsBut [Reg.TIER_PIN_CTL, Reg.TIER_ERR] t := by
  let w := s.setFd Fd.TIER_PIN_CTL_RESULT stBOUNDS
  refine ⟨s.commit (w.raise Fd.TIER_ERR_PIN_FAIL), actIf_eq hr (beq_iff_eq.mpr hcmd) ?_, ?_, ?_,
    State.only_commit ((s.only_setFd _ _).then (w.only_setFd _ _) (List.Subset.refl _)), fun a ha => ?_⟩
  · rw [State.pinStore, hidle, if_neg Bool.false_ne_true, hnone]
  · rw [State.commit_fd, State.raise, State.fd_setFd_other w Fd.TIER_ERR_PIN_FAIL Fd.TIER_PIN_CTL_RESULT 1 (by decide) (by decide)]
    exact s.fd_setFd_same Fd.TIER_PIN_CTL_RESULT stBOUNDS (by decide)
  · rw [State.commit_fd]
    exact w.fd_setFd_same Fd.TIER_ERR_PIN_FAIL 1 (by decide)
  · simp only [List.mem_cons, List.not_mem_nil, or_false, not_or] at ha
    rw [State.commit_reg, State.raise, w.regsBut_setFd Fd.TIER_ERR_PIN_FAIL 1 a (List.mem_singleton.not.mpr ha.2),
      s.regsBut_setFd Fd.TIER_PIN_CTL_RESULT stBOUNDS a (List.mem_singleton.not.mpr ha.1)]

section
variable {k : Nat} {q : Seq} (hnamed : s.pinSeq = some k) (hq : s.seq k = some q)
include hnamed hq

/-! ## PIN of a sequence whose pages are near -/

theorem pin_near (hcmd : bits v.toNat 1 0 = 1) (hactive : q.sstate = .active) (hquiet : s.quiet) (hadmits : s.admits = true)
    (hnear : s.pinAwaits k = false) (hhard : s.underHard (hPart q.handle) 1 0 = true) : (Instr.pin v).gives s fun t =>
      t.fd Fd.TIER_PIN_CTL_RESULT = stOK ∧ t.fd Fd.TIER_PIN_CTL_BUSY = 0 ∧ t.pgt.ops = [] ∧
      (∀ e ∈ q.pt, ∀ x, s.desc e.2 = some x → t.desc e.2 =
        some (if x.state = .sealed ∨ x.state = .lockedBank then { x with pinned := true } else x)) ∧
      s.only [.csr, .pgt, .tier, .twn] t ∧ s.regsBut [Reg.TIER_PIN_CTL] t := by
  obtain ⟨hops, hcopies, hheld, -⟩ := hquiet
  let u := s.setFd Fd.TIER_PIN_CTL_BUSY 1
  let w := u.takePlace k .pin 0 0 [] none
  let o := u.request k .pin 0 0 []
  let o' : SeqOp := { o with phase := .copying }
  let q' : Seq := { q with lastUse := s.usec }
  let m := w.modSeq k fun q => { q with lastUse := w.usec }
  let a := (m.onTier fun b => { b with pinning := some k }).setOps [o']
  have hwops : w.pgt.ops = [o] := (congrArg (· ++ [o]) hops).trans rfl
  have hmops : m.pgt.ops = [o] := hwops
  have hmq : m.seq k = some q' := by
    have hmod := w.seq_modSeq k (fun q => { q with lastUse := w.usec }) k
    rw [if_pos rfl, show w.seq k = some q from hq] at hmod
    exact hmod
  have hawaits : ∀ z : State, z.seq k = some q' → (∀ d, z.desc d = s.desc d) → z.pinAwaits k = false :=
    fun z hz hdesc => (State.pinAwaits_congr hq hz rfl hdesc).trans hnear
  have hmnear : m.pinAwaits k = false := hawaits m hmq fun _ => rfl
  have hanear : a.pinAwaits k = false := hawaits a hmq fun _ => rfl
  have hregs : s.regsBut [Reg.TIER_PIN_CTL] u := s.regsBut_setFd Fd.TIER_PIN_CTL_BUSY 1
  have hwu : u.only [.pgt] w := u.only_onPgt _
  have hmu : u.only [.pgt] m := hwu.then (w.only_onPgt _) (List.Subset.refl _)
  have hwadmits : w.admits = true := by
    have hu : s.only [.csr] u := s.only_setFd _ _
    have htwn : w.twn = s.twn := (hwu.2 .twn (by decide)).trans (hu.2 .twn (by decide))
    have htime : w.mtime = s.mtime := (hwu.2 .mtime (by decide)).trans (hu.2 .mtime (by decide))
    rw [State.admits_congr htwn htime, hadmits]
  have hmhard : m.underHard (hPart q'.handle) 1 0 = true := by
    have htier : m.tier = s.tier := (hmu.2 .tier (by decide)).trans ((s.only_setFd Fd.TIER_PIN_CTL_BUSY 1).2 .tier (by decide))
    have hmregs : s.regsBut [Reg.TIER_PIN_CTL] m := hregs.of_csr (hmu.2 .csr (by decide))
    rw [State.underHard_congr htier (hmregs.fd (List.mem_singleton.not.mpr (TIER_QUOTA_ne_TIER_PIN_CTL _ _))), hhard]
  have hfirst : w.opStep o.id = a :=
    (State.opStep_pin hwops rfl rfl hwadmits hq hactive).trans
      (State.beginPin_near hmops hmq (State.pinFar_of_pinAwaits hmnear) hmhard)
  have hsecond : a.opStep o'.id = (a.setPinned k true).pinEnd o' stOK := State.opStep_pinned rfl rfl rfl hanear
  let b := a.setPinned k true
  have haq : a.seq k = some q' := hmq
  obtain ⟨hbops, hbcopies⟩ := State.ops_setPinned haq true
  obtain ⟨hops', hcopies'⟩ := b.ops_pinEnd_ok o' hbops (hbcopies.trans hcopies)
  have hbonly : u.only [.pgt, .tier] b := (((hmu.mono (by decide)).then (m.only_onTier _) (by decide)).then (State.only_onPgt _ _)
    (by decide)).then (State.only_setPinned haq true) (by decide)
  have honly : s.only [.csr, .pgt, .tier] (b.pinEnd o' stOK) := (((s.only_setFd _ _).mono (by decide)).then (hbonly.mono (by decide))
    (List.Subset.refl _)).then (b.only_pinEnd_ok o') (List.Subset.refl _)
  have hcust : (b.pinEnd o' stOK).cust = s.cust := honly.2 .cust (by decide)
  have hne : o' ≠ o := fun h => nomatch (congrArg SeqOp.phase h : Phase.copying = Phase.waiting)
  have hsettle : w.settle = b.pinEnd o' stOK := by
    rw [← hsecond] at hops' hcopies' hcust ⊢
    exact State.settle_applied hwops hcopies hfirst rfl hne hcopies hops' hcopies' (by rw [hcust]; exact hheld)
  have hend : (s.pinStore fun s => match s.pinSeq with
      | none => (s.setFd Fd.TIER_PIN_CTL_RESULT stBOUNDS).raise Fd.TIER_ERR_PIN_FAIL
      | some k => ((s.setFd Fd.TIER_PIN_CTL_BUSY 1).takePlace k .pin 0 0 [] none).settle) = b.pinEnd o' stOK := by
    rw [State.pinStore, hidle, if_neg Bool.false_ne_true, hnamed]
    exact hsettle
  refine ⟨s.commit (b.pinEnd o' stOK), actIf_eq hr (beq_iff_eq.mpr hcmd) hend, ?_, ?_, ?_, fun e he x hx => ?_, ?_, fun j hj => ?_⟩
  · rw [State.commit_fd, (b.fd_pinEnd_ok o').1]
  · rw [State.commit_fd, (b.fd_pinEnd_ok o').2]
  · rw [State.commit_pgt, hops']
  · have hax : a.desc e.2 = some x := hx
    rw [State.commit_desc, State.desc_pinEnd_ok, State.desc_setPinned haq true he, hax, Option.map_some, Desc.pin_true]
  · exact State.only_commit (honly.mono (by decide))
  · rw [State.commit_reg, b.regsBut_pinEnd_ok o' j hj, State.reg, hbonly.2 .csr (by decide), ← State.reg, hregs j hj]

/-! ## UNPIN -/

theorem unpin_gives (hcmd : bits v.toNat 1 0 = 2) : (Instr.unpin v).gives s fun t =>
    t.fd Fd.TIER_PIN_CTL_RESULT = stOK ∧
      (∀ e ∈ q.pt, ∀ x, s.desc e.2 = some x → t.desc e.2 = some { x with pinned := false }) ∧
      s.only [.csr, .pgt] t ∧ s.regsBut [Reg.TIER_PIN_CTL] t := by
  let b := s.setPinned k false
  have hb : s.only [.pgt] b := State.only_setPinned hq false
  refine ⟨s.commit (b.setFd Fd.TIER_PIN_CTL_RESULT stOK), actIf_eq hr (beq_iff_eq.mpr hcmd) ?_, ?_, fun e he x hx => ?_,
    State.only_commit ((hb.mono (by decide)).then (b.only_setFd _ _) (by decide)), fun j hj => ?_⟩
  · rw [State.pinStore, hidle, if_neg Bool.false_ne_true, hnamed]
  · rw [State.commit_fd]
    exact b.fd_setFd_same Fd.TIER_PIN_CTL_RESULT stOK (by decide)
  · rw [State.commit_desc, show (b.setFd Fd.TIER_PIN_CTL_RESULT stOK).desc e.2 = b.desc e.2 from rfl, State.desc_setPinned hq false he, hx]
    rfl
  · rw [State.commit_reg, b.regsBut_setFd Fd.TIER_PIN_CTL_RESULT stOK j hj, State.reg, hb.2 .csr (by decide), ← State.reg]

end

end

end Sys2Proof.Proofs.Pins

end

section
/-! SUPPORT. Faults: issued with a landing frame and one read, and woken (R180, R181). -/

namespace Sys2Proof.Machine

/-- A fault issued on a page: its landing frame, and no answer yet. -/
def PageFault.issuedFor (x : Desc) (a now : Nat) (f : PageFault) : PageFault :=
  { f with issued := true, landing := some a, loc := x.loc, answer := none, issuedAt := now }

/-- The faults on a page issued, with a landing frame from unit a. -/
def State.issuedOn (s : State) (d a : Nat) (x : Desc) : State := (s.pcTaken a (frameUnits x.frameCode) true).onTier fun b => { b with
  faults := b.faults.map fun g => if g.desc = d then g.issuedFor x a s.mtime else g }

theorem State.only_issuedOn (s : State) (d a : Nat) (x : Desc) : s.only [.tier, .free] (s.issuedOn d a x) :=
  (s.only_pcTaken _ _ _).then (State.only_onTier _ _) (by decide)

section
variable {s : State} {d : Nat} {f : PageFault} {x : Desc} (hfault : s.tier.faults.find? (fun f => !f.issued && s.faultRoom f) = some f)
  (hd : f.desc = d) (hx : s.desc d = some x)
include hfault hd hx

theorem State.issueFault_flash (hroom : (s.takePc (frameUnits x.frameCode) true).isSome = true) (hloc : x.loc.tier = .flash)
    (hleap : s.leap d = none) :
    ∃ a, s.issueFault d = ((s.issuedOn d a x).askRead (x.loc.frame / 32) false).inc Fd.TIER_FAULTS_FLASH_COUNT := by
  obtain ⟨a, ha⟩ := State.takePc_eq hroom
  have hleap' : (s.pcTaken a (frameUnits x.frameCode) true).leap d = none := hleap
  have hissued : (s.issuedOn d a x).leap d = none := hleap
  refine ⟨a, ?_⟩
  generalize hf : State.issueFault = issue
  delta State.issueFault at hf
  subst hf
  beta_reduce
  rw [hfault, hx]
  refine (if_neg (not_not.mpr hd)).trans ((if_neg (by rw [hloc]; decide)).trans ?_)
  rw [ha]
  simp only [hleap', hloc, Option.bind_none, Option.map_none]
  refine congrArg (State.inc · Fd.TIER_FAULTS_FLASH_COUNT) ((if_neg (ne_true_of_eq_false ?_)).trans rfl)
  exact congrArg (fun l => (Option.map (fun l : Leap => !l.bad) l).getD false) hissued

theorem State.issueFault_full (hroom : s.takePc (frameUnits x.frameCode) true = none) (hloc : x.loc.tier = .flash ∨ x.loc.tier = .lent) :
    s.issueFault d = s.raise Fd.TIER_ERR_LAND_FULL := by
  generalize hf : State.issueFault = issue
  delta State.issueFault at hf
  subst hf
  beta_reduce
  rw [hfault, hx]
  refine (if_neg (not_not.mpr hd)).trans ((if_neg ?_).trans ?_)
  · obtain h | h := hloc
    · rw [h]; decide
    · rw [h]; decide
  · rw [hroom]

theorem State.issueFault_near (hloc : x.loc.tier = .hbm ∨ x.loc.tier = .pcache) :
    s.issueFault d = (s.dropFault d).wakePage d x.loc (fun _ => true) := by
  generalize hf : State.issueFault = issue
  delta State.issueFault at hf
  subst hf
  beta_reduce
  rw [hfault, hx]
  exact (if_neg (not_not.mpr hd)).trans (if_pos hloc)

end

end Sys2Proof.Machine

end

section
/-! SUPPORT. Work items woken where a page they wait for can be read (R107, R180). -/

namespace Sys2Proof.Machine

/-! ## One item -/

/-- A deferred unit of the page found at its new location. -/
def PageUnit.wokenAt (d : Nat) (loc : Loc) (u : PageUnit) : PageUnit :=
  if u.desc = d ∧ u.kind = .deferred then { u with kind := .landed, loc := loc } else u

/-- An item that waits for the page has its units, and lines up where it was parked. -/
def State.wakeItem (d : Nat) (loc : Loc) (s : State) (i k : Nat) (it : WorkItem) : State :=
  if it.units.any (fun u => u.kind == .deferred && u.desc == d) then
    let t := s.modItem i k fun it => { it with units := it.units.map (PageUnit.wokenAt d loc), stalled := false }
    if it.istate == .parked then
      (t.modItem i k fun it => { it with istate := .waiting, resumed := true, engine := none }).lineUp i k
    else t
  else s

/-- The items of a stream that runs for this node. -/
def State.wakeStream (d : Nat) (loc : Loc) (s : State) (p : Nat × Stream) : State :=
  if p.2.lender.isSome || p.2.cstate == .aborting then s
  else p.2.items.zipIdx.foldl (fun s e => s.wakeItem d loc p.1 e.2 e.1) s

theorem State.wakePage_eq (s : State) (d : Nat) (loc : Loc) : s.wakePage d loc (fun _ => true) = s.ae.streams.foldl (State.wakeStream d loc) s := by
  have hany : ∀ units : List PageUnit, units.any (fun u => u.kind == .deferred && (if u.desc == d then some loc else none).isSome) =
      units.any fun u => u.kind == .deferred && u.desc == d := by
    intro units
    congr 1
    funext u
    cases u.desc == d <;> rfl
  have hland : PageUnit.wokenAt d loc = fun u => if u.kind == .deferred then
      (match (if u.desc == d then some loc else none) with | some l => { u with kind := .landed, loc := l } | none => u) else u := by
    funext u
    unfold PageUnit.wokenAt
    by_cases hk : u.kind = .deferred
    · by_cases hd : u.desc = d
      · simp [hk, hd]
      · simp [hk, hd]
    · simp [hk]
  have hgo : ∀ x : Stream, (!(true && x.lender.isNone) || x.cstate == .aborting) = (x.lender.isSome || x.cstate == .aborting) := by
    intro x
    rw [Bool.true_and, Option.not_isNone]
  unfold State.wakePage State.wakeUnits
  simp only [hany, hgo]
  refine congrArg (fun f => s.ae.streams.foldl f s) (funext fun t => funext fun p => ?_)
  unfold State.wakeStream State.wakeItem
  rw [hland] <;> rfl

theorem State.only_wakeItem (d : Nat) (loc : Loc) (s : State) (i k : Nat) (it : WorkItem) : s.only [.ae] (s.wakeItem d loc i k it) := by
  unfold State.wakeItem
  extract_lets t
  have ht : s.only [.ae] t := s.only_modItem _ _ _
  split
  · split
    · obtain ⟨w, hw, -, -⟩ := (t.modItem i k fun it => { it with istate := .waiting, resumed := true, engine := none }).lineUp_eq i k
      rw [hw]
      exact (ht.then (t.only_modItem _ _ _) (List.Subset.refl _)).then (State.only_onAe _ _) (List.Subset.refl _)
    · exact ht
  · exact State.only.refl s _

theorem State.only_wakePage (s : State) (d : Nat) (loc : Loc) : s.only [.ae] (s.wakePage d loc (fun _ => true)) := by
  rw [State.wakePage_eq]
  refine State.only_foldl (fun u p => ?_) _ s
  unfold State.wakeStream
  split
  · exact State.only.refl u _
  · exact State.only_foldl (fun (v : State) (e : WorkItem × Nat) => v.only_wakeItem d loc p.1 e.2 e.1) _ u

/-! ## The other items meanwhile -/

/-- The one entry of its key stands apart from those before and after it. -/
theorem keys_apart {α : Type} {f : α → Nat} {before after : List α} {e : α} (h : ((before ++ e :: after).map f).Nodup) :
    (∀ p ∈ before, f p ≠ f e) ∧ ∀ p ∈ after, f p ≠ f e := by
  rw [List.map_append, List.map_cons, List.nodup_middle, List.nodup_cons, ← List.map_append] at h
  have hne : ∀ p ∈ before ++ after, f p ≠ f e := fun p hp heq => h.1 (heq ▸ List.mem_map_of_mem hp)
  exact ⟨fun p hp => hne p (List.mem_append_left _ hp), fun p hp => hne p (List.mem_append_right _ hp)⟩

/-- The item is as it was, and those in line are still. -/
structure State.Leaves (s : State) (i k : Nat) (t : State) : Prop where
  item : t.item i k = s.item i k
  waiting : s.ae.waiting ⊆ t.ae.waiting

theorem State.Leaves.foldl {α : Type} {i k : Nat} {f : State → α → State} : ∀ {l : List α} (s : State),
    (∀ (u : State), ∀ e ∈ l, u.Leaves i k (f u e)) → s.Leaves i k (l.foldl f s) := by
  intro l
  induction l with
  | nil => exact fun s _ => ⟨rfl, List.Subset.refl _⟩
  | cons e l ih =>
    intro s h
    obtain ⟨hitem, hwaiting⟩ := h s e List.mem_cons_self
    obtain ⟨hitem', hwaiting'⟩ := ih (f s e) fun u e' he' => h u e' (List.mem_cons_of_mem _ he')
    exact ⟨hitem'.trans hitem, List.Subset.trans hwaiting hwaiting'⟩

theorem State.item_modItem_ne (s : State) {i k j m : Nat} (f : WorkItem → WorkItem) (h : j ≠ i ∨ m ≠ k) :
    (s.modItem j m f).item i k = s.item i k := by
  by_cases hj : i = j
  · subst hj
    have hm : k ≠ m := (h.resolve_left fun h => h rfl).symm
    cases hx : s.stream i with
    | none =>
      have hnone : (s.modItem i m f).stream i = none := by rw [State.modItem, State.stream_modStream, if_pos rfl, hx, Option.map_none]
      rw [State.item, State.item, hx, hnone]
    | some x => rw [State.item_of_stream (State.stream_modItem_same hx m f), State.item_of_stream hx, getElem?_modAt, if_neg hm]
  · rw [State.item, State.item, State.stream_modItem_ne m f hj]

theorem State.item_setWaiting (s : State) (w : List (Nat × Nat)) (i k : Nat) : (s.setWaiting w).item i k = s.item i k := rfl

section
variable (d : Nat) (loc : Loc) (s : State) {i k : Nat}

theorem State.leaves_wakeItem {j m : Nat} (h : j ≠ i ∨ m ≠ k) (it : WorkItem) : s.Leaves i k (s.wakeItem d loc j m it) := by
  unfold State.wakeItem
  extract_lets t
  have ht : s.Leaves i k t := ⟨s.item_modItem_ne _ h, List.Subset.refl _⟩
  split
  · split
    · let v := t.modItem j m fun it => { it with istate := .waiting, resumed := true, engine := none }
      obtain ⟨w, hw, -, hsub⟩ := v.lineUp_eq j m
      rw [hw]
      exact ⟨(v.item_setWaiting w i k).trans ((t.item_modItem_ne _ h).trans ht.item), hsub⟩
    · exact ht
  · exact ⟨rfl, List.Subset.refl _⟩

theorem State.leaves_wakeStream {p : Nat × Stream} (h : p.1 ≠ i) : s.Leaves i k (s.wakeStream d loc p) := by
  unfold State.wakeStream
  split
  · exact ⟨rfl, List.Subset.refl _⟩
  · exact State.Leaves.foldl s fun u e _ => u.leaves_wakeItem d loc (.inl h) e.1

/-! ## The item woken -/

theorem State.wakeItem_parked {it : WorkItem} (hit : s.item i k = some it) (hparked : it.istate = .parked)
    (hunit : ∃ u ∈ it.units, u.desc = d ∧ u.kind = .deferred) : let t := s.wakeItem d loc i k it
    t.item i k = some { it with
      units := it.units.map (PageUnit.wokenAt d loc)
      stalled := false
      istate := .waiting
      resumed := true
      engine := none } ∧ (i, k) ∈ t.ae.waiting := by
  have hany : it.units.any (fun u => u.kind == .deferred && u.desc == d) = true := by
    obtain ⟨u, hu, hd, hk⟩ := hunit
    exact List.any_eq_true.mpr ⟨u, hu, by rw [hd, hk, beq_self_eq_true, beq_self_eq_true]; rfl⟩
  let t := s.modItem i k fun it => { it with units := it.units.map (PageUnit.wokenAt d loc), stalled := false }
  let v := t.modItem i k fun it => { it with istate := .waiting, resumed := true, engine := none }
  have hv := State.item_modItem_same (State.item_modItem_same hit
    fun it => { it with units := it.units.map (PageUnit.wokenAt d loc), stalled := false })
    fun it => { it with istate := .waiting, resumed := true, engine := none }
  obtain ⟨w, hw, hmem, -⟩ := v.lineUp_eq i k
  have hwake : s.wakeItem d loc i k it = v.setWaiting w := by
    rw [State.wakeItem, hany, if_pos rfl, hparked]
    exact (if_pos rfl).trans hw
  intro t'
  rw [show t' = v.setWaiting w from hwake]
  exact ⟨hv, hmem⟩

end

theorem State.wakeStream_parked (d : Nat) (loc : Loc) (s : State) {i k : Nat} {y : Stream} {it : WorkItem} (hstate : y.cstate ≠ .aborting)
    (hlender : y.lender = none) (hy : y.items[k]? = some it) (hit : s.item i k = some it) (hparked : it.istate = .parked)
    (hunit : ∃ u ∈ it.units, u.desc = d ∧ u.kind = .deferred) : let t := s.wakeStream d loc (i, y)
    t.item i k = some { it with
      units := it.units.map (PageUnit.wokenAt d loc)
      stalled := false
      istate := .waiting
      resumed := true
      engine := none } ∧ (i, k) ∈ t.ae.waiting := by
  have hmem : (it, k) ∈ y.items.zipIdx := List.mem_zipIdx_iff_getElem?.mpr hy
  obtain ⟨before, after, hsplit⟩ := List.append_of_mem hmem
  obtain ⟨hbefore, hafter⟩ : (∀ e ∈ before, e.2 ≠ k) ∧ ∀ e ∈ after, e.2 ≠ k := by
    have hnodup : (y.items.zipIdx.map Prod.snd).Nodup := by
      rw [List.zipIdx_map_snd]
      exact List.nodup_range'
    rw [hsplit] at hnodup
    exact keys_apart hnodup
  let f := fun (s : State) (e : WorkItem × Nat) => s.wakeItem d loc i e.2 e.1
  let u := before.foldl f s
  have hu : s.Leaves i k u := State.Leaves.foldl s fun v e he => v.leaves_wakeItem d loc (.inr (hbefore e he)) e.1
  obtain ⟨hitem, hline⟩ := State.wakeItem_parked d loc u (hu.item.trans hit) hparked hunit
  have hw : (f u (it, k)).Leaves i k (after.foldl f (f u (it, k))) :=
    State.Leaves.foldl _ fun v e he => v.leaves_wakeItem d loc (.inr (hafter e he)) e.1
  intro t
  have ht : t = after.foldl f (f u (it, k)) := by
    have hgo : (y.lender.isSome || y.cstate == .aborting) = false := by simp [hlender, hstate]
    simp only [t, State.wakeStream, hgo, Bool.false_eq_true, if_false, hsplit, List.foldl_append, List.foldl_cons, u, f]
  rw [ht]
  exact ⟨hw.item.trans hitem, hw.waiting hline⟩

theorem State.wakePage_parked (d : Nat) (loc : Loc) {s : State} {i k : Nat} {y : Stream} {it : WorkItem} (hwf : twf s.ae.streams = true)
    (hy : s.stream i = some y) (hstate : y.cstate ≠ .aborting) (hlender : y.lender = none) (hit : s.item i k = some it)
    (hparked : it.istate = .parked) (hunit : ∃ u ∈ it.units, u.desc = d ∧ u.kind = .deferred) :
    let t := s.wakePage d loc (fun _ => true)
    (t.item i k).map (·.istate) = some .waiting ∧ (i, k) ∈ t.ae.waiting ∧
      (t.item i k).map (·.units) = some (it.units.map (PageUnit.wokenAt d loc)) := by
  obtain ⟨before, after, hsplit⟩ := List.append_of_mem (mem_of_tfind hy)
  obtain ⟨hbefore, hafter⟩ : (∀ p ∈ before, p.1 ≠ i) ∧ ∀ p ∈ after, p.1 ≠ i :=
    keys_apart (hsplit ▸ nodup_keys_of_keysAbove hwf)
  let u := before.foldl (State.wakeStream d loc) s
  have hu : s.Leaves i k u := State.Leaves.foldl s fun v p hp => v.leaves_wakeStream d loc (hbefore p hp)
  obtain ⟨hitem, hmem⟩ := u.wakeStream_parked d loc hstate hlender (State.item_of_stream hy k ▸ hit) (hu.item.trans hit) hparked hunit
  have hw : (u.wakeStream d loc (i, y)).Leaves i k (after.foldl (State.wakeStream d loc) (u.wakeStream d loc (i, y))) :=
    State.Leaves.foldl _ fun v p hp => v.leaves_wakeStream d loc (hafter p hp)
  intro t
  have ht : t = after.foldl (State.wakeStream d loc) (u.wakeStream d loc (i, y)) := by
    simp only [t, State.wakePage_eq, hsplit, List.foldl_append, List.foldl_cons, u]
  rw [ht, hw.item, hitem]
  exact ⟨rfl, hw.waiting hmem, rfl⟩

end Sys2Proof.Machine

end

section
/-! SUPPORT. A fault lands on the frame taken for it (R180 steps 2 to 4). -/

namespace Sys2Proof.Machine

theorem State.copyLanded_none {s : State} (h : s.pgt.copies = []) (d : Nat) (c : List Byte) : s.copyLanded d c = s := by
  simp only [State.copyLanded, h, List.filter_nil, List.foldl_nil]

theorem State.custodyLanded_none {s : State} (h : s.cust.transfers = []) (d : Nat) (c : List Byte) : s.custodyLanded d c = s := by
  simp only [State.custodyLanded, State.copying, h, List.filter_nil, List.foldl_nil]

theorem State.transfersGo_none {s : State} (h : s.cust.transfers = []) : s.transfersGo = s := by
  simp only [State.transfersGo, h, List.map_nil, List.foldl_nil]

theorem State.leapContent_none {s : State} {d : Nat} (h : s.leap d = none) (st : Nat) (b : List Byte) : s.leapContent d st b = s := by
  simp only [State.leapContent, h]

/-- The fault over, its copy in the landing frame from unit a. -/
def State.landedAt (s : State) (d a : Nat) (c : List Byte) (ns : Nat) : State :=
  ((s.dropFault d).count Fd.TIER_FAULT_NS_COUNT ns).pcWrite (a * 2048) c

section
variable {s : State} {d a : Nat} {f : PageFault} {x : Desc} {c : List Byte}
  (hfault : s.tier.faults.find? (fun f => f.desc == d && f.issued) = some f) (hx : s.desc d = some x) (hans : f.answer = some (stOK, c))
  (hloc : f.loc.tier = .lent) (hlanding : f.landing = some a) (hcrc : crc32c c = x.crc.toNat)
  (hcold : x.heat < s.fd Fd.TIER_POLICY_PROMOTE_FAULT) (hleap : s.leap d = none) (hpool : s.poolUnit.isSome = true)
  (hcopies : s.pgt.copies = []) (htransfers : s.cust.transfers = [])
include hfault hx hans hloc hlanding hcrc hcold hleap hpool hcopies htransfers

theorem State.landFault_eq : s.landFault d true =
    ((s.landedAt d a c ((s.mtime - f.issuedAt) * 10)).wakePage d ⟨.pcache, 0, a⟩ (fun _ => true)).retireFrame
      ⟨.pcache, 0, a⟩ x.def0 x.part true := by
  let v := (s.dropFault d).count Fd.TIER_FAULT_NS_COUNT ((s.mtime - f.issuedAt) * 10)
  let w := (s.landedAt d a c ((s.mtime - f.issuedAt) * 10)).wakePage d ⟨.pcache, 0, a⟩ (fun _ => true)
  have hcopy : s.faultCopy f x = some (stOK, c) := by rw [State.faultCopy, hans]
  have hpool' : s.poolUnit.isNone = false := by rw [← Option.not_isSome, hpool]; rfl
  have hnotflash : ¬ f.loc.tier = .flash := by rw [hloc]; decide
  have hvleap : v.leap d = none := hleap
  have hvw : v.only [.pcache, .ae] w := ((v.only_pcWrite _ _).mono (by decide)).then (State.only_wakePage _ d _) (by decide)
  have honly : s.only [.csr, .tier, .pcache, .ae] w :=
    (((s.only_onTier _).mono (by decide)).then (State.only_setFd _ _ _) (by decide)).then hvw (by decide)
  have hwpgt : w.pgt = s.pgt := honly.2 .pgt (by decide)
  have hwcust : w.cust = s.cust := honly.2 .cust (by decide)
  have hgood : ¬ (stOK ≠ stOK ∨ (!true) = true ∨ crc32c c ≠ x.crc.toNat) := by simp [hcrc]
  generalize hf : State.landFault = land
  delta State.landFault at hf
  subst hf
  beta_reduce
  rw [hfault, hx]
  dsimp only
  rw [hcopy]
  dsimp only
  rw [hpool', if_neg Bool.false_ne_true, if_neg hnotflash, State.leapContent_none hvleap, if_neg hgood, hlanding, Option.getD_some]
  rw [show (v.pcWrite (a * 2048) c).wakePage d ⟨.pcache, 0, a⟩ (fun _ => true) = w from rfl,
    State.copyLanded_none (by rw [hwpgt, hcopies]), State.custodyLanded_none (by rw [hwcust, htransfers])]
  refine if_neg ?_
  have hfd : (w.releaseLanding (some a) x).fd Fd.TIER_POLICY_PROMOTE_FAULT = s.fd Fd.TIER_POLICY_PROMOTE_FAULT := by
    have hregs : s.regsBut [Reg.TIER_FAULT_NS] v := (s.dropFault d).regsBut_setFd Fd.TIER_FAULT_NS_COUNT _
    have hend : v.only [.pcache, .ae, .pgt] (w.releaseLanding (some a) x) := (hvw.mono (by decide)).then (w.only_onPgt _) (by decide)
    rw [State.fd_congr (hend.2 .csr (by decide)), hregs.fd (by decide)]
  have hnothot : decide ((w.releaseLanding (some a) x).fd Fd.TIER_POLICY_PROMOTE_FAULT ≤ x.heat) = false := by
    rw [hfd]
    exact decide_eq_false (Nat.not_le.mpr hcold)
  simp only [hnothot, Bool.and_false, Bool.false_and, Bool.false_eq_true, not_false_eq_true]

end

end Sys2Proof.Machine

end

section
/-! Faults, from FAULT_ISSUE to FAULT_LAND (R180, R181). -/

namespace Sys2Proof.Proofs.Faults
open Sys2Proof Sys2Proof.Machine

section
variable {s : State} (hr : s.inReset = false) {d : Nat} {f : PageFault} {x : Desc}
include hr

/-! ## FAULT_ISSUE -/

section
variable (hfault : s.tier.faults.find? (fun f => !f.issued && s.faultRoom f) = some f) (hd : f.desc = d) (hx : s.desc d = some x)
include hfault hd hx

theorem faultIssue_flash (hroom : (s.takePc (frameUnits x.frameCode) true).isSome = true) (hloc : x.loc.tier = .flash)
    (hleap : s.leap d = none) : (Instr.faultIssue d).gives s fun t =>
      (∃ a, t.tier.faults = s.tier.faults.map (fun g => if g.desc = d then g.issuedFor x a s.mtime else g) ∧ a ∈ t.tier.landing ∧
        tfind t.tier.pcUsed a = some (max 2 (frameUnits x.frameCode))) ∧
      (t.flt.reads.any fun r => r.lunit == x.loc.frame / 32 && !r.cmd) = true ∧
      t.fd Fd.TIER_FAULTS_FLASH_COUNT = min (s.fd Fd.TIER_FAULTS_FLASH_COUNT + 1) (2 ^ 64 - 1) ∧
      s.only [.csr, .tier, .flt, .free] t ∧ s.regsBut [Reg.TIER_FAULTS_FLASH] t := by
  obtain ⟨a, heq⟩ := State.issueFault_flash hfault hd hx hroom hloc hleap
  let u := s.issuedOn d a x
  let w := u.askRead (x.loc.frame / 32) false
  have hu : s.only [.tier, .free] u := s.only_issuedOn d a x
  have hw : u.only [.flt] w := by
    obtain ⟨rs, hrs, -⟩ := u.askRead_eq (x.loc.frame / 32) false
    rw [show w = _ from hrs]
    exact u.only_onFlt _
  have htier : w.tier = u.tier := hw.2 .tier (by decide)
  have hcsr : w.csr = s.csr := (hu.2 .csr (by decide)).trans (hw.2 .csr (by decide))
  refine ⟨_, act_eq hr heq, ⟨a, ?_, ?_, ?_⟩, ?_, ?_, State.only_commit (((hu.mono (by decide)).then hw (by decide)).then
    (w.only_inc _) (by decide)), fun j hj => ?_⟩
  · rw [State.commit_tier, State.inc_tier, htier]
    rfl
  · rw [State.commit_tier, State.inc_tier, htier]
    exact List.mem_cons_self
  · rw [State.commit_tier, State.inc_tier, htier]
    exact tfind_tset_same _ _ _
  · obtain ⟨r, hmem, hl, hcmd⟩ := u.readsUnit_askRead (x.loc.frame / 32)
    rw [State.commit_flt, State.inc_flt]
    exact List.any_eq_true.mpr ⟨r, hmem, by rw [hl, hcmd, beq_self_eq_true]; rfl⟩
  · rw [State.commit_fd, State.fd_inc_64 w rfl rfl, State.fd_congr hcsr]
  · rw [State.commit_reg, w.regsBut_inc _ j hj, State.reg, hcsr, ← State.reg]

theorem faultIssue_full (hroom : s.takePc (frameUnits x.frameCode) true = none) (hloc : x.loc.tier = .flash ∨ x.loc.tier = .lent) :
    (Instr.faultIssue d).gives s fun t => t.fd Fd.TIER_ERR_LAND_FULL = 1 ∧ s.only [.csr] t ∧ s.regsBut [Reg.TIER_ERR] t := by
  refine ⟨_, act_eq hr (State.issueFault_full hfault hd hx hroom hloc), ?_, State.only_commit (s.only_setFd _ _), fun j hj => ?_⟩
  · rw [State.commit_fd]
    exact s.fd_setFd_same Fd.TIER_ERR_LAND_FULL 1 (by decide)
  · rw [State.commit_reg]
    exact s.regsBut_setFd Fd.TIER_ERR_LAND_FULL 1 j hj

theorem faultIssue_near (hloc : x.loc.tier = .hbm ∨ x.loc.tier = .pcache) : (Instr.faultIssue d).gives s fun t =>
    (∀ g ∈ t.tier.faults, g.desc ≠ d) ∧ t.tier.landing = s.tier.landing ∧ s.only [.ae, .tier] t := by
  have hwake := (s.dropFault d).only_wakePage d x.loc
  have htier : ((s.dropFault d).wakePage d x.loc fun _ => true).tier = (s.dropFault d).tier := hwake.2 .tier (by decide)
  refine ⟨_, act_eq hr (State.issueFault_near hfault hd hx hloc), fun g hg => ?_, ?_,
    State.only_commit (((s.only_onTier _).mono (by decide)).then hwake (by decide))⟩
  · rw [State.commit_tier, htier] at hg
    simpa using (List.mem_filter.mp hg).2
  · rw [State.commit_tier, htier]
    rfl

end

/-! ## FAULT_LAND -/

theorem faultLand_gives {a : Nat} {c : List Byte} (hfault : s.tier.faults.find? (fun f => f.desc == d && f.issued) = some f)
    (hx : s.desc d = some x) (hans : f.answer = some (stOK, c)) (hloc : f.loc.tier = .lent) (hlanding : f.landing = some a)
    (hcrc : crc32c c = x.crc.toNat) (hcold : x.heat < s.fd Fd.TIER_POLICY_PROMOTE_FAULT) (hleap : s.leap d = none) (hquiet : s.quiet)
    (hpool : s.poolUnit.isSome = true) (htransfers : s.cust.transfers = []) (hwf : twf s.ae.streams = true)
    (hend : a * 2048 + c.length ≤ pcacheBytes) : (Instr.faultLand d true).gives s fun t =>
      (∀ g ∈ t.tier.faults, g.desc ≠ d) ∧ t.pcRead (a * 2048) c.length = c ∧ t.desc d = some x ∧
      t.pgt.reclaim = s.pgt.reclaim ++ [⟨none, some ⟨.pcache, 0, a⟩, x.def0, x.part, true, none, s.pgt.epoch⟩] ∧
      (∀ i k y it, s.stream i = some y → y.cstate ≠ .aborting → y.lender = none → s.item i k = some it → it.istate = .parked →
        (∃ u ∈ it.units, u.desc = d ∧ u.kind = .deferred) →
        (t.item i k).map (·.istate) = some .waiting ∧ (i, k) ∈ t.ae.waiting ∧
        (t.item i k).map (·.units) = some (it.units.map (PageUnit.wokenAt d ⟨.pcache, 0, a⟩))) ∧
      s.only [.csr, .pcache, .pgt, .ae, .tier] t := by
  obtain ⟨hops, hcopies, hheld, -⟩ := hquiet
  let u := s.landedAt d a c ((s.mtime - f.issuedAt) * 10)
  let w := u.wakePage d ⟨.pcache, 0, a⟩ (fun _ => true)
  let t := w.retireFrame ⟨.pcache, 0, a⟩ x.def0 x.part true
  have hland : s.landFault d true = t :=
    State.landFault_eq hfault hx hans hloc hlanding hcrc hcold hleap hpool hcopies htransfers
  have hu : s.only [.csr, .tier, .pcache] u :=
    (((s.only_onTier _).mono (by decide)).then (State.only_setFd _ _ _) (by decide)).then (State.only_pcWrite _ _ _) (by decide)
  have hw : u.only [.ae] w := u.only_wakePage d _
  have ht : w.only [.pgt] t := w.only_onPgt _
  have htier : t.tier = u.tier := (hw.2 .tier (by decide)).trans (ht.2 .tier (by decide))
  have hae : t.ae = w.ae := ht.2 .ae (by decide)
  have hpcache : ∀ b, byteOf t.pcache b = byteOf u.pcache b := fun b =>
    (ht.2 .pcache (by decide) b : byteOf t.pcache b = byteOf w.pcache b).trans (hw.2 .pcache (by decide) b)
  have hpgt : w.pgt = s.pgt := (hu.2 .pgt (by decide)).trans (hw.2 .pgt (by decide))
  have honly : s.only [.csr, .pcache, .pgt, .ae, .tier] t :=
    ((hu.mono (by decide)).then (hw.mono (by decide)) (List.Subset.refl _)).then ht (by decide)
  have hcust : t.cust = s.cust := honly.2 .cust (by decide)
  have hreclaim : t.pgt = { s.pgt with
      reclaim := s.pgt.reclaim ++ [⟨none, some ⟨.pcache, 0, a⟩, x.def0, x.part, true, none, s.pgt.epoch⟩] } := by
    rw [← hpgt]
    rfl
  have hidle : t.idle := by
    rw [State.idle, hreclaim, hcust]
    exact ⟨hops, hcopies, hheld⟩
  have hrun : (s.landFault d true).transfersGo.settle = t := by
    rw [hland, State.transfersGo_none (by rw [hcust, htransfers]), hidle.settle]
  refine ⟨_, act_eq hr hrun, fun g hg => ?_, ?_, ?_, ?_, fun i k y it hy hstate hlender hit hparked hunit => ?_, State.only_commit honly⟩
  · rw [State.commit_tier, htier] at hg
    simpa using (List.mem_filter.mp hg).2
  · rw [State.commit_pcRead]
    exact (List.map_congr_left fun b _ => hpcache _).trans (State.pcRead_pcWrite _ _ c hend)
  · rw [State.commit_desc, State.desc, hreclaim]
    exact hx
  · rw [State.commit_pgt, hreclaim]
  · have hwake := State.wakePage_parked d ⟨.pcache, 0, a⟩ (s := u) hwf hy hstate hlender hit hparked hunit
    have hitem : (s.commit t).item i k = w.item i k := by
      rw [State.item, State.item, State.stream, State.stream, State.commit_ae, hae]
    rw [hitem, State.commit_ae, hae]
    exact hwake

end

end Sys2Proof.Proofs.Faults

end

section
/-! SUPPORT. Flash units handed out, written and given a place (R223, R225). -/

namespace Sys2Proof.Machine

/-! ## A unit handed out -/

/-- A unit of an area is handed out where one that the map does not name is found. -/
theorem State.fltAlloc_gives {s : State} {a : Nat} (h : (s.fltAlloc a).isSome = true) : ∃ l, s.freeUnit a = some l ∧
    s.fltAlloc a = some (l, (s.onFlt fun f => { f with map := tset f.map l ⟨.allocated, 0⟩ }).drawn) := by
  unfold State.fltAlloc at h ⊢
  split
  case isTrue hserves =>
    rw [if_pos hserves] at h
    obtain ⟨l, hl⟩ := Option.isSome_iff_exists.mp (Option.isSome_map.symm.trans h)
    exact ⟨l, hl, by rw [hl]; rfl⟩
  case isFalse hserves =>
    rw [if_neg hserves] at h
    exact absurd h Bool.false_ne_true

/-- The unit found lies in the area, and the map does not name it. -/
theorem State.freeUnit_free {s : State} {a l : Nat} (h : s.freeUnit a = some l) :
    (s.area a).1 ≤ l ∧ l < (s.area a).1 + (s.area a).2 ∧ s.lunit l = none := by
  have hl := List.find?_some h
  simp only [Bool.and_eq_true, decide_eq_true_eq, Option.isNone_iff_eq_none] at hl
  obtain ⟨⟨⟨hlow, hhigh⟩, -⟩, hfree⟩ := hl
  exact ⟨hlow, hhigh, hfree⟩

theorem State.areaOf_of_freeUnit {s : State} {a l : Nat} (ha : a < 4) (h : s.freeUnit a = some l) : (s.areaOf l).isSome = true := by
  obtain ⟨hlow, hhigh, -⟩ := State.freeUnit_free h
  refine List.find?_isSome.mpr ⟨a, List.mem_range.mpr ha, ?_⟩
  simp only [hlow, hhigh, decide_true, Bool.and_self]

/-! ## A write given its place -/

theorem State.journal_tier (s : State) (e : JEffect) : (s.journal e).tier = s.tier := rfl

/-- What giving a write its place leaves as it was: the map, the writes and the tiers; of the write, all but PUA and JSEQ. -/
structure FltPlaced (s : State) (w : FltWrite) (r : State × FltWrite) : Prop where
  map : r.1.flt.map = s.flt.map
  writes : r.1.flt.writes = s.flt.writes
  tier : r.1.tier = s.tier
  write : ∃ p j, r.2 = { w with pua := p, jseq := j }

theorem State.place1_places (s : State) (w : FltWrite) : FltPlaced s w (s.place1 w) := by
  have hstays : FltPlaced s w (s, w) := ⟨rfl, rfl, rfl, w.pua, w.jseq, rfl⟩
  unfold State.place1
  split
  · exact hstays
  · split
    · exact hstays
    · exact ⟨rfl, rfl, by rw [State.journal_tier, State.count_tier]; rfl, _, _, rfl⟩

/-- A single write that waits: it still stands, with or without a place. -/
theorem State.placeWaiting_single {s : State} {w : FltWrite} (h : s.flt.writes = [w]) :
    s.placeWaiting.flt.map = s.flt.map ∧ s.placeWaiting.tier = s.tier ∧ ∃ p j, s.placeWaiting.flt.writes = [{ w with pua := p, jseq := j }] := by
  unfold State.placeWaiting
  rw [h, List.foldl_cons, List.foldl_nil]
  split
  · exact ⟨rfl, rfl, w.pua, w.jseq, h⟩
  · obtain ⟨hmap, hwrites, htier, p, j, hw⟩ := s.place1_places w
    refine ⟨hmap, htier, p, j, ?_⟩
    change modFirst (fun y => y == w) (fun _ => (s.place1 w).2) (s.place1 w).1.flt.writes = _
    rw [hwrites, h, hw]
    exact if_pos (beq_self_eq_true w)

/-! ## A unit written -/

/-- The first write of a unit just handed out is taken: it stands in the list with its live slots, key and use. -/
theorem State.fltWrite_first {s : State} {l slots key : Nat} (content : List Byte) (use : FltUse) (hunit : ∃ o, s.lunit l = some ⟨.allocated, o⟩)
    (harea : (s.areaOf l).isSome = true) (hkey : s.xtsKey key ≠ none) (hwrites : s.flt.writes = []) (hlow : 0 < slots) (hhigh : slots ≤ 32) :
    ∃ t, s.fltWrite l slots key content use = (stOK, t) ∧ t.flt.map = s.flt.map ∧ t.tier = s.tier ∧
      ∃ w, t.flt.writes = [w] ∧ w.lunit = l ∧ w.slots = slots ∧ w.key = key ∧ w.use = use := by
  obtain ⟨o, ho⟩ := hunit
  obtain ⟨a, ha⟩ := Option.isSome_iff_exists.mp harea
  obtain ⟨kv, hkv⟩ := Option.ne_none_iff_exists'.mp hkey
  let w : FltWrite := ⟨l, slots, key, kv, slice content 0 65536, use, s.streamFor a, none, 0, none⟩
  let u := (s.onFlt fun f => { f with writes := f.writes ++ [w] }).inc Fd.FLT_USER_UNITS_COUNT
  have hu : u.flt.writes = [w] := by
    change s.flt.writes ++ [w] = [w]
    rw [hwrites, List.nil_append]
  obtain ⟨hmap, htier, p, j, hplaced⟩ := State.placeWaiting_single hu
  refine ⟨u.placeWaiting, ?_, hmap, htier, _, hplaced, rfl, rfl, rfl, rfl⟩
  have hok : ¬(slots = 0 ∨ 32 < slots ∨ s.flt.writes.any (fun w => w.lunit == l && w.use != .move)) := by
    rw [hwrites]
    simp only [List.any_nil, Bool.false_eq_true, or_false]
    omega
  unfold State.fltWrite
  rw [ho, ha, hkv]
  exact if_neg hok

end Sys2Proof.Machine

end

section
/-! Assembly units and the blocks of the page cache (R183, R369). -/

namespace Sys2Proof.Machine

theorem State.only_setPcache (s : State) (m : List Host.Cell) : s.only [.pcache] { s with pcache := m } := by
  refine ⟨rfl, fun p hp => ?_⟩
  cases p with
  | pcache => exact absurd List.mem_cons_self hp
  | hbm => exact fun _ => rfl
  | _ => rfl

/-! ## An assembly buffer programmed -/

/-- A buffer taken out of the list of those being packed. -/
def State.unpacked (s : State) (b : Assembly) : State := s.onTier fun t => { t with assemblies := t.assemblies.filter (fun y => y != b) }

theorem State.fltAlloc_unpacked (s : State) (b : Assembly) (a : Nat) : ((s.unpacked b).fltAlloc a).isSome = (s.fltAlloc a).isSome := by
  unfold State.fltAlloc
  rw [Option.isSome_map, Option.isSome_map]
  rfl

/-- The use of the unit an assembly buffer becomes. -/
def Assembly.use (b : Assembly) : FltUse := if b.forTwin then .mirror b.pages else .demote b.pages

/-- Where flash takes the unit, programming the buffer is one unit handed out and written. -/
theorem State.programAssembly_eq {s t : State} {b : Assembly} {l : Nat}
    (halloc : (s.unpacked b).fltAlloc (if b.forTwin then 2 else 1) = some (l, t)) :
    ∃ content, ∀ u, t.fltWrite l b.fill b.part content b.use = (stOK, u) → s.programAssembly b = u := by
  unfold State.programAssembly
  extract_lets w content use r
  refine ⟨content, fun u hwrite => ?_⟩
  have hr : r = (stOK, u) := by
    change (match w.fltAlloc (if b.forTwin then 2 else 1) with
      | none => (stQUOTA, w)
      | some (l, t) => let (st, u) := t.fltWrite l b.fill b.part content use
        if st = stOK then (stOK, u) else (st, t.fltTrim l 1)) = _
    rw [show w.fltAlloc _ = _ from halloc]
    dsimp only
    rw [show t.fltWrite l b.fill b.part content use = _ from hwrite]
    exact if_pos rfl
  rw [hr]
  exact if_pos rfl

theorem State.programAssembly_written {s : State} {b : Assembly} (hroom : (s.fltAlloc (if b.forTwin then 2 else 1)).isSome = true)
    (hlow : 0 < b.fill) (hhigh : b.fill ≤ 32) (hwrites : s.flt.writes = []) (hkey : s.xtsKey b.part ≠ none) :
    (s.programAssembly b).tier = (s.unpacked b).tier ∧ ∃ w, (s.programAssembly b).flt.writes = [w] ∧ w.slots = b.fill ∧ w.key = b.part ∧
      w.use = b.use ∧ s.lunit w.lunit = none ∧ ((s.programAssembly b).lunit w.lunit).isSome = true := by
  let v := s.unpacked b
  obtain ⟨l, hl, halloc⟩ := State.fltAlloc_gives ((s.fltAlloc_unpacked b _).trans hroom)
  let t := (v.onFlt fun f => { f with map := tset f.map l ⟨.allocated, 0⟩ }).drawn
  have hunit : t.lunit l = some ⟨.allocated, 0⟩ := tfind_tset_same _ _ _
  have harea : (t.areaOf l).isSome = true := State.areaOf_of_freeUnit (s := v) (by split <;> decide) hl
  obtain ⟨-, -, hfree⟩ := State.freeUnit_free hl
  obtain ⟨content, heq⟩ := State.programAssembly_eq halloc
  obtain ⟨u, hu, hmap, htier, w, hw, hwl, hslots, hwkey, huse⟩ :=
    State.fltWrite_first content b.use ⟨0, hunit⟩ harea hkey hwrites hlow hhigh
  rw [heq u hu]
  refine ⟨htier, w, hw, hslots, hwkey, huse, ?_, ?_⟩
  · rw [hwl]
    exact hfree
  · rw [hwl, State.lunit, hmap]
    exact Option.isSome_of_eq_some hunit

theorem State.assembly_some {s : State} {mirror : Bool} {p : Nat} {b : Assembly} (h : s.assembly mirror p = some b) :
    b.forTwin = mirror ∧ b.part = p := by
  simpa using List.find?_some h

end Sys2Proof.Machine

namespace Sys2Proof.Proofs.Assemblies
open Sys2Proof Sys2Proof.Machine

section
variable {s : State} (hr : s.inReset = false)
include hr

/-! ## ASSEMBLY_UNIT_PROGRAM -/

section
variable {p : Fin 16} {mirror : Bool} {b : Assembly} (hasm : s.assembly mirror p.val = some b)
include hasm

theorem assemblyUnitProgram_waits (hearly : s.mtime < b.firstAt + 100000) (hpart : b.fill < 32) :
    (Instr.assemblyUnitProgram p mirror).gives s fun t => s.only [] t := by
  refine ⟨_, act_eq hr ?_, State.only_commit (State.only.refl s [])⟩
  rw [hasm]
  exact if_neg (by omega)

theorem assemblyUnitProgram_writes (hdue : b.firstAt + 100000 ≤ s.mtime) (hlow : 0 < b.fill) (hhigh : b.fill ≤ 32)
    (hroom : (s.fltAlloc (if mirror then 2 else 1)).isSome = true) (hwrites : s.flt.writes = []) (hkey : s.xtsKey p.val ≠ none) :
    (Instr.assemblyUnitProgram p mirror).gives s fun t => b ∉ t.tier.assemblies ∧
      ∃ w ∈ t.flt.writes, w.slots = b.fill ∧ w.key = p.val ∧ w.use = (if mirror then .mirror b.pages else .demote b.pages) ∧
        s.lunit w.lunit = none ∧ (t.lunit w.lunit).isSome = true := by
  obtain ⟨rfl, hp⟩ := State.assembly_some hasm
  rw [← hp] at hkey ⊢
  obtain ⟨htier, w, hw, hslots, hwkey, huse, hfree, hunit⟩ := State.programAssembly_written hroom hlow hhigh hwrites hkey
  refine ⟨_, act_eq hr (t := s.programAssembly b) ?_, ?_, w, ?_, hslots, hwkey, huse, hfree, ?_⟩
  · rw [hasm]
    exact if_pos (.inl hdue)
  · rw [State.commit_tier, htier]
    simp [State.unpacked, State.onTier]
  · rw [State.commit_flt, hw]
    exact List.mem_singleton_self w
  · rw [State.lunit, State.commit_flt]
    exact hunit

end

/-! ## PCACHE_BLOCK_ZEROED -/

section
variable (sl : Fin 32) (blk : Nat)

theorem pcacheBlockZeroed_dirty (hdirty : (s.tier.pcDirty.any fun x => x.1 == blk * 32 + sl.val) = true) :
    (Instr.pcacheBlockZeroed sl blk).gives s fun t => (∀ x ∈ t.tier.pcDirty, x.1 ≠ blk * 32 + sl.val) ∧
      (∀ a, byteOf t.pcache a = if (blk * 32 + sl.val) * 4096 ≤ a ∧ a < (blk * 32 + sl.val) * 4096 + 4096 then 0 else byteOf s.pcache a) ∧
      s.only [.tier, .pcache] t ∧ t.tier = { s.tier with pcDirty := t.tier.pcDirty } := by
  let b := blk * 32 + sl.val
  let u := s.onTier fun t => { t with pcDirty := t.pcDirty.filter (fun x => x.1 != b) }
  have hu : u.only [.pcache] { u with pcache := zeroRange s.pcache (b * 4096) 4096 } := by
    exact u.only_setPcache _
  refine ⟨_, act_eq hr (if_pos hdirty), fun x hx => ?_, fun a => ?_, State.only_commit (((s.only_onTier _).mono (by decide)).then hu (by decide)), ?_⟩
  · rw [State.commit_tier] at hx
    simpa using (List.mem_filter.mp hx).2
  · rw [State.commit_byteOf_pcache]
    exact byteOf_zeroRange _ _ _ a
  · rw [State.commit_tier]
    rfl

theorem pcacheBlockZeroed_clean (hclean : (s.tier.pcDirty.any fun x => x.1 == blk * 32 + sl.val) = false) :
    (Instr.pcacheBlockZeroed sl blk).gives s fun t => s.only [] t :=
  ⟨_, act_eq hr (if_neg (ne_true_of_eq_false hclean)), State.only_commit (State.only.refl s [])⟩

end

end

end Sys2Proof.Proofs.Assemblies

end

section
/-! Sweeps, leaps, pins, faults and the page cache: the statement from its clauses (R167-R183, R369). -/

namespace Sys2Proof.Proofs.LeapsFaultsAndSweeps
open Sys2Proof Sys2Proof.Machine
open Sys2Proof.Proofs.Sweeps Sys2Proof.Proofs.Leaps Sys2Proof.Proofs.LeapEnds Sys2Proof.Proofs.Pins Sys2Proof.Proofs.Faults
open Sys2Proof.Proofs.Assemblies

/-- Settles O49: one lemma per command, with the state that each leaves written out. -/
theorem leapsFaultsAndSweeps : Obligations.LeapsFaultsAndSweeps := by
  unfold Obligations.LeapsFaultsAndSweeps
  intro s hr
  refine ⟨heatSweep_gives hr, sweepDone_gives hr, fun d x hx hquiet hleap => ⟨?_, leapBegin_refused hr hx hquiet⟩,
    fun d x l c a hl hx hstate hgood hc ht hsrc hpool hend hquiet => ⟨?_, leapCommit_unreferenced hr hl hx hstate hc ht hquiet, ?_⟩,
    fun v => ?_, fun d f x hfault hd hx => ⟨?_, ?_, ?_⟩, fun d f x c a hfault hx => faultLand_gives hr hfault hx,
    fun p mirror b hasm => ⟨assemblyUnitProgram_waits hr hasm, assemblyUnitProgram_writes hr hasm⟩, fun sl blk => ?_⟩
  · exact leapBegin_gives hr hx hquiet hleap
  · exact leapCommit_good hr hl hx hstate hc ht hquiet hgood hsrc hpool hend
  · exact leapCommit_spoilt hr hl hx hstate hc ht hquiet hgood hpool
  · intro cmd
    refine ⟨pinStore_busy hr v, fun hcmd hidle => pin_unnamed hr v hidle hcmd, fun k q hidle hnamed hq => ⟨?_, ?_⟩⟩
    · exact pin_near hr v hidle hnamed hq
    · exact unpin_gives hr v hidle hnamed hq
  · exact faultIssue_flash hr hfault hd hx
  · exact faultIssue_full hr hfault hd hx
  · exact faultIssue_near hr hfault hd hx
  · intro b
    exact ⟨pcacheBlockZeroed_dirty hr sl blk, pcacheBlockZeroed_clean hr sl blk⟩

end Sys2Proof.Proofs.LeapsFaultsAndSweeps

end
